-- ==== Sys2Proof/Word.lean ====
section
/-! DEFINITION. Words, bit fields and the two containers the state is made of: sparse tables and canonical byte memories. -/

namespace Sys2Proof

abbrev Byte := BitVec 8
/-- A BAR0 register (R526: accesses are of 32-bit words). -/
abbrev Word := BitVec 32
/-- A wide value behind a mailbox (R537). -/
abbrev Wide := BitVec 256
/-- A 64 B descriptor as it lies in a ring entry. -/
abbrev DescBits := BitVec 512

/-- Field [lo + len − 1 : lo] of a word, as a number. -/
def bitsOf {n : Nat} (x : BitVec n) (lo len : Nat) : Nat := (x.toNat >>> lo) % 2 ^ len

/-- Field [lo + len − 1 : lo] of a word replaced by `v` (reduced to the field's width). -/
def putBits {n : Nat} (x : BitVec n) (lo len v : Nat) : BitVec n :=
  BitVec.ofNat n (x.toNat - (bitsOf x lo len) * 2 ^ lo + (v % 2 ^ len) * 2 ^ lo)

/-- Bit `k` of a word. -/
def bitOf {n : Nat} (x : BitVec n) (k : Nat) : Bool := x.getLsbD k

/-- A value placed at bit `lo`, as a number (to build words from fields). -/
def at_ (lo v : Nat) : Nat := v * 2 ^ lo

def boolNat (b : Bool) : Nat := if b then 1 else 0

/-- The bits set in a mask, ascending, among the first `n`. -/
def maskBits (m n : Nat) : List Nat := (List.range n).filter (fun i => m.testBit i)

def maskOf (l : List Nat) : Nat := l.foldl (fun m i => m ||| (2 ^ i)) 0

/-- Round up a quotient. -/
def ceilDiv (a b : Nat) : Nat := (a + b - 1) / b

/-- Bytes, least significant first, of a number: `n` of them. -/
def leBytes : Nat → Nat → List Byte
  | 0, _ => []
  | n + 1, v => BitVec.ofNat 8 v :: leBytes n (v / 256)

/-- The number that bytes spell, least significant byte first. -/
def leNat : List Byte → Nat
  | [] => 0
  | b :: t => b.toNat + 256 * leNat t

/-- A sparse table: keys and their entries, keys rising. An absent key has the default the reader names. -/
abbrev Tab (α : Type) := List (Nat × α)

namespace Tab
variable {α : Type}

def find : Tab α → Nat → Option α
  | [], _ => none
  | (k', v) :: t, k => if k = k' then some v else find t k

def get (t : Tab α) (d : α) (k : Nat) : α := (t.find k).getD d

def has (t : Tab α) (k : Nat) : Bool := (t.find k).isSome

def put : Tab α → Nat → α → Tab α
  | [], k, v => [(k, v)]
  | (k', v') :: t, k, v =>
    if k = k' then (k, v) :: t
    else if k < k' then (k, v) :: (k', v') :: t
    else (k', v') :: put t k v

def del (t : Tab α) (k : Nat) : Tab α := t.filter (fun e => e.1 != k)

/-- Change one entry, if it is there. -/
def upd (t : Tab α) (k : Nat) (f : α → α) : Tab α :=
  match t.find k with
  | none => t
  | some v => t.put k (f v)

/-- Change one entry, taking the default where it is absent. -/
def updD (t : Tab α) (d : α) (k : Nat) (f : α → α) : Tab α := t.put k (f (t.get d k))

def keys (t : Tab α) : List Nat := t.map Prod.fst
def vals (t : Tab α) : List α := t.map Prod.snd
def mapV {β : Type} (t : Tab α) (f : Nat → α → β) : Tab β := t.map (fun e => (e.1, f e.1 e.2))
def keep (t : Tab α) (p : Nat → α → Bool) : Tab α := t.filter (fun e => p e.1 e.2)
def any (t : Tab α) (p : Nat → α → Bool) : Bool := List.any t (fun e => p e.1 e.2)
def all (t : Tab α) (p : Nat → α → Bool) : Bool := List.all t (fun e => p e.1 e.2)

end Tab

/-- The lowest of the `n` numbers from `k` on that `p` holds of; and the lowest number below `n`. -/
def firstFrom (p : Nat → Bool) : Nat → Nat → Option Nat
  | 0, _ => none
  | n + 1, k => if p k then some k else firstFrom p n (k + 1)

def firstFree (p : Nat → Bool) (n : Nat) : Option Nat := firstFrom p n 0

/-- Byte memory in canonical form: addresses strictly rising, and no entry whose byte is what an unlisted address
reads as. -/
abbrev Mem := List Host.Cell

namespace Mem

/-- What an unlisted address reads as. -/
def blank : Byte := 0

def read : Mem → Nat → Byte
  | [], _ => blank
  | (a', b) :: t, a => if a = a' then b else read t a

/-- Write one byte; a byte equal to `blank` takes its entry out. -/
def write : Mem → Nat → Byte → Mem
  | [], a, b => if b = blank then [] else [(a, b)]
  | (a', b') :: t, a, b =>
    if a = a' then (if b = blank then t else (a, b) :: t)
    else if a < a' then (if b = blank then (a', b') :: t else (a, b) :: (a', b') :: t)
    else (a', b') :: write t a b

def readN (m : Mem) (a : Nat) : Nat → List Byte
  | 0 => []
  | n + 1 => m.read a :: readN m (a + 1) n

def writeN (m : Mem) (a : Nat) : List Byte → Mem
  | [] => m
  | b :: t => writeN (m.write a b) (a + 1) t

/-- A little-endian number of `n` bytes. -/
def readNat (m : Mem) (a n : Nat) : Nat := leNat (m.readN a n)

/-- The canonical form. -/
def wf : Mem → Bool
  | [] => true
  | [(_, b)] => b != blank
  | (a, b) :: (a', b') :: t => b != blank && decide (a < a') && wf ((a', b') :: t)

/-- Forget every byte the predicate names. -/
def clearWhere (m : Mem) (p : Nat → Bool) : Mem := m.filter (fun c => !p c.1)

end Mem

end Sys2Proof
end

