-- ==== Sys2Proof/Machine/StateCore.lean ====
section
/-! DEFINITION. The kinds of state shared by every part of the device: what the device sends, descriptors and their
completions, ring pairs and fabric submission queues, mailboxes and guards, the tick generator, tick plans. -/

namespace Sys2Proof.Machine

/-! ## Packets and messages -/

/-- A Ronoft packet (Table 5-4 and the layouts of its types): one structure with the fields of every type. -/
structure Packet where
  type : Nat            -- Table 5-4
  src : Nat := 0
  dest : Nat := 0
  epoch : Nat := 0
  hops : Nat := 0
  mc : Bool := false
  tag : Nat := 0
  gen : Nat := 0
  op : Nat := 0
  key : Nat := 0
  addr : Nat := 0
  wsnGen : Nat := 0
  wsnSeq : Nat := 0
  credit : Bool := false
  counter : Nat := 0
  length : Nat := 0
  segOff : Nat := 0
  segLen : Nat := 0
  byteMask : Nat := 0
  operand : Nat := 0
  compare : Nat := 0
  newOwner : Nat := 0
  newGen : Nat := 0
  status : Nat := 0
  reason : Nat := 0
  old : Nat := 0
  poison : Nat := 0
  tick : Nat := 0
  boundaryNs : Nat := 0
  periodUs : Nat := 0
  nextPeriodUs : Nat := 0
  changeTick : Nat := 0
  epochAnn : List (Nat × Nat × Nat) := []
  state : Nat := 0
  /-- CTL.VC where it is not the type's own; CTL.ESC -/
  vc : Option Nat := none
  esc : Bool := false
  crcOk : Bool := true
  data : List Byte := []
  deriving DecidableEq, Repr

/-- A link frame as a port receives it (R137): its packets, and its trailer. -/
structure Frame where
  fecOk : Bool := true
  crcOk : Bool := true
  /-- FEC symbols corrected in it -/
  corrected : Nat := 0
  seq : Nat
  ackValid : Bool := false
  ack : Nat := 0
  nak : Bool := false
  credits : List Nat := []
  pkts : List Packet := []
  deriving DecidableEq, Repr

/-- What the device sends or drives towards the outside, in the order it does so. -/
inductive Out where
  /-- a fabric packet; the port, where the rules fix one -/
  | packet (port : Option Nat) (p : Packet)
  /-- a memory write on a host port -/
  | hostWrite (port : Nat) (addr : Nat) (data : List Byte)
  /-- an MSI-X message (R511, R550) -/
  | msix (port : Nat) (vector : Nat)
  /-- a management message of the device's own (Tables 22-8 and 22-9): type, MSEQ, payload -/
  | mgmt (type mseq : Nat) (payload : List Byte)
  /-- an answer to a management message: management port, type, the MSEQ it echoes, payload -/
  | mgmtReply (port type mseq : Nat) (payload : List Byte)
  /-- bits the boundary-scan TAP shifts out on TDO: as a number, the first bit lowest, and their count -/
  | tdo (bits count : Nat)
  /-- an answer to a host or CXL request: port, kind, payload -/
  | host (port : Nat) (kind : Nat) (payload : List Nat)
  /-- an output land and the level it is driven to -/
  | pin (name : Nat) (level : Bool)
  /-- a 32-bit or wide read answered on an access path: path, data -/
  | regData (path : Nat) (data : Nat)
  deriving DecidableEq, Repr

/-- MetaValue of a host's CXL.mem request (Table 6-1). -/
inductive MetaVal where
  | invalid | any | shared
  deriving DecidableEq, Repr

/-! ## Descriptors -/

/-- Where a descriptor came from: a ring pair or a fabric submission queue (R503). -/
inductive Src where
  | ring (n : Nat)
  | subq (n : Nat)
  deriving DecidableEq, Repr

/-- A number for a source: ring pairs first, then fabric queues. -/
def Src.code : Src → Nat
  | .ring n => n
  | .subq n => 1024 + n

/-- Where a descriptor stands between its arrival and its completion. -/
inductive DPhase where
  /-- a candidate for admission, or a kind-N descriptor that waits -/
  | waiting
  /-- admitted into a tick that has not begun -/
  | admitted
  /-- started -/
  | running
  /-- finished; its completion is not yet written -/
  | finished
  deriving DecidableEq, Repr

/-- A charge against the resources of Table 2-4, in their units. -/
structure Cost where
  mtx : Nat := 0
  emb : Nat := 0
  stk : Nat := 0
  fls : Nat := 0
  cdc : Nat := 0
  fab0 : Nat := 0
  fab1 : Nat := 0
  fab2 : Nat := 0
  fab3 : Nat := 0
  pwr : Nat := 0
  deriving DecidableEq, Repr

/-- The part of a completion that the descriptor's own chapter sets (Table 16-4). -/
structure Cpl where
  status : Nat := 0
  reason : Nat := 0
  done : Nat := 0
  dropped : Nat := 0
  result : Nat := 0
  deriving DecidableEq, Repr

/-- A descriptor that has arrived and whose completion is not yet written. -/
structure Desc where
  bits : DescBits
  src : Src
  /-- its number among the arrivals of its source -/
  index : Nat := 0
  /-- TICK_NOW at arrival -/
  arrived : Nat
  phase : DPhase
  /-- the requested tick -/
  requested : Nat
  /-- admission rounds it has waited through -/
  rounds : Nat := 0
  /-- the resource or cause that last held it back (Table 2-5); 0 for none -/
  short : Nat := 0
  /-- the tick it was admitted into, or in which it acted -/
  admitTick : Nat := 0
  /-- the tick in which it finished -/
  doneTick : Nat := 0
  /-- DELAY of its completion, once that is fixed (R64) -/
  delay : Nat := 0
  /-- its operation has begun: the row that runs it has been taken -/
  begun : Bool := false
  overrun : Bool := false
  /-- its fetch deadline has passed (R267) -/
  late : Bool := false
  cost : Cost := {}
  cpl : Cpl := {}
  /-- remote or host pieces outstanding; the completion waits for them -/
  awaiting : Nat := 0
  /-- its completion is not to be written: it goes when it has finished (R639) -/
  gone : Bool := false
  /-- a token whose completion must be written first (R510) -/
  after : Option Nat := none
  /-- versions, generations or other values fixed when it was admitted or accepted -/
  pinned : Nat := 0
  /-- the critical path of a run, and the matrix clusters it uses (R343) -/
  crit : Nat := 0
  uses : List Nat := []
  /-- its number among the descriptors admitted -/
  admitSeq : Nat := 0
  /-- a piece of a load that is offered for admission in its own right (R339) -/
  piece : Bool := false
  deriving DecidableEq, Repr

/-! ## Ring pairs and fabric submission queues (R495 to R502) -/

inductive RingState where
  | disabled | active | stopping | error
  deriving DecidableEq, Repr

def RingState.code : RingState → Nat
  | .disabled => 0 | .active => 1 | .stopping => 2 | .error => 3

/-- A ring pair. `record` is its HIF_RING value (Table 16-13). -/
structure Ring where
  record : Wide := 0
  state : RingState := .disabled
  sqHead : Nat := 0
  sqTail : Nat := 0
  cqHead : Nat := 0
  cqTail : Nat := 0
  /-- CQ entries written and not yet released -/
  cqUsed : Nat := 0
  phase : Bool := false
  completions : Nat := 0
  /-- completions written since the pair's last message (R511) -/
  sinceMsg : Nat := 0
  /-- a message is owed at the moderation time (R511) -/
  modArmed : Bool := false
  /-- next assist record number (Table 16-10) -/
  rseq : Nat := 0
  deriving DecidableEq, Repr

/-- A fabric submission queue. `record` is its FAB_SUBQ value (Table 16-13); `queue` holds the SUBMITs not yet taken. -/
structure Subq where
  record : Wide := 0
  state : RingState := .disabled
  queue : List DescBits := []
  cqHead : Nat := 0
  cqTail : Nat := 0
  cqUsed : Nat := 0
  phase : Bool := false
  completions : Nat := 0
  deriving DecidableEq, Repr

/-- An assist record that waits for room on its pair (R520, R521). -/
structure AssistRec where
  port : Nat
  function : Nat
  kind : Nat
  tick : Nat
  /-- operand bytes 16 to 63, byte 38 being KIND -/
  operands : List Byte
  deriving DecidableEq, Repr

/-- The rings, the queues and the operating modes of chapter 16. -/
structure Rings where
  rings : Tab Ring := []
  subqs : Tab Subq := []
  /-- descriptors arrived and not completed, by order of arrival -/
  descs : Tab Desc := []
  /-- the next arrival's number -/
  nextTok : Nat := 0
  /-- arrivals so far, by source code -/
  arrivals : Tab Nat := []
  /-- descriptors whose completions are written: source code, SEQ, number among its arrivals; what an ABORT may still
  name (R513) -/
  past : List (Nat × Nat × Nat) := []
  /-- host ports to which a source has posted writes since its last SYSTEM fence, as masks by source code (R117) -/
  posted : Tab Nat := []
  /-- HIF_FN_MODE written and not yet in force -/
  fnModePending : Option Word := none
  /-- ADMIT_WEIGHTS overrides by slice -/
  weights : Tab Nat := []
  /-- assist records waiting for room -/
  assist : List AssistRec := []
  /-- HIF_ASSIST_COUNTS per port: records, waited, dropped -/
  assistCounts : Tab (Nat × Nat × Nat) := []
  deriving DecidableEq, Repr

/-! ## Register access (chapter 17) -/

/-- A mailbox of the MBX block (Table 17-5). -/
structure Mailbox where
  sel : Word := 0
  errCode : Nat := 0
  busy : Bool := false
  err : Bool := false
  valid : Bool := false
  data : Wide := 0
  /-- the write of MBX_SEL that started the operation in progress -/
  started : Word := 0
  /-- the operation in progress has failed with this error code and REASON; none when it succeeds -/
  result : Option (Nat × Nat) := none
  deriving DecidableEq, Repr

/-- A guard armed with (G, V) at an MCLK cycle (R541). -/
structure Guard where
  off : Nat
  value : Word
  cycle : Nat
  deriving DecidableEq, Repr

/-- The state of register access: words that registers hold, guards by path, mailboxes, MSI-X arrays. -/
structure RegState where
  /-- register words by BAR0 offset, where they differ from their reset value or have been written -/
  words : Tab Word := []
  /-- guards by access path; path 11's hardware thread h is 11 + h -/
  guards : Tab Guard := []
  mbx : Tab Mailbox := []
  /-- MSI-X table entries of host port p, entry e at 1024 p + e: address, data, masked (R549) -/
  msix : Tab (Nat × Nat × Bool) := []
  /-- MSI-X pending bits, keyed alike -/
  pba : List Nat := []
  deriving DecidableEq, Repr

/-! ## The tick (chapter 2) -/

/-- Table 2-1. -/
inductive Sync where
  | stopped | free | locking | locked | holdover | lost
  deriving DecidableEq, Repr

def Sync.code : Sync → Nat
  | .stopped => 0 | .free => 1 | .locking => 2 | .locked => 3 | .holdover => 4 | .lost => 5

/-- A tick plan (Tables 2-2 and 2-3). -/
structure Plan where
  start : Nat
  weight : Nat
  gustPct : Nat
  elasticHorizon : Nat
  scavengeHorizon : Nat
  quota : Nat
  periodUs : Nat
  lull : Cost
  cycle : List Cost
  deriving DecidableEq, Repr

/-- The plans of one slice (R50). -/
structure SlicePlans where
  active : Option Plan := none
  pending : Option Plan := none
  /-- the boundary at which PLAN_UNLOAD stops the active plan -/
  stopAt : Option Nat := none
  /-- PLAN_LOADs accepted since cold reset, modulo 2^32 -/
  loads : Nat := 0
  deriving DecidableEq, Repr

/-- TIK_SLICE_STATS of a slice. -/
structure SliceStats where
  admitted : Nat := 0
  delayed : Nat := 0
  refused : Nat := 0
  overrun : Nat := 0
  deriving DecidableEq, Repr

/-- A load that copies its data in pieces, each a SCAVENGE candidate (R339): descriptor, slice, bytes not yet admitted,
bytes admitted into the next tick and moved. -/
structure LoadJob where
  tok : Nat
  slice : Nat
  left : Nat
  requested : Nat
  deriving DecidableEq, Repr

/-- The tick generator and the admission unit. -/
structure TickState where
  now : Nat := 0
  sync : Sync := .stopped
  /-- consecutive good boundaries in LOCKING (R670) or in HOLDOVER (Table 2-1) -/
  lockCount : Nat := 0
  /-- the offset estimate, ns, and whether there is one -/
  offset : Int := 0
  offsetKnown : Bool := false
  /-- PTP messages are arriving -/
  ptpLive : Bool := false
  /-- since entering LOST: a PTP message received, a tick packet accepted (R46) -/
  ptpSinceLost : Bool := false
  pktSinceLost : Bool := false
  /-- the tick packet accepted for the next boundary: tick, period -/
  lastPkt : Option (Nat × Nat) := none
  /-- a period taken from a packet in LOCKING, due at the next boundary (R670) -/
  takePeriod : Option Nat := none
  /-- expected TICK_IN edge, ns; a boundary that an edge, or the lack of one, has called for is still to be taken (R41) -/
  expected : Option Nat := none
  edgeDue : Bool := false
  /-- the latest tick whose round was not evaluated because admission had stopped (R44, R45) -/
  stopTick : Nat := 0
  /-- an announced change: period, change tick (R40) -/
  change : Option (Nat × Nat) := none
  /-- at LOCKED after LOST: the system's tick number still to be taken (R45) -/
  relock : Bool := false
  /-- the system's tick number as the source last gave it -/
  sourceTick : Nat := 0
  /-- PTP time of the current tick's boundary, ns -/
  boundaryNs : Nat := 0
  missed : Nat := 0
  edgesIgnored : Nat := 0
  pktDiscarded : Nat := 0
  stats : Tab SliceStats := []
  plans : Tab SlicePlans := []
  /-- gust debt owed to the next tick: slice, charge (R61) -/
  debt : List (Nat × Cost) := []
  /-- descriptors admitted so far: each keeps its number (R439) -/
  admitSeq : Nat := 0
  /-- the latest tick whose admission round has closed -/
  closed : Nat := 0
  /-- a boundary has passed since RUN was set (R554) -/
  ticking : Bool := false
  /-- loads that move their data in pieces (R339) -/
  loads : List LoadJob := []
  /-- STK work admitted: into the tick now running, and into the next -/
  stkNow : Nat := 0
  stkNext : Nat := 0
  /-- ADMIT_SUMMARY of the round just closed: slice, waiting, refused, admitted, oldest, weight (R522) -/
  summary : List (Nat × Nat × Nat × Nat × Nat × Nat) := []
  /-- writes of TIK_LULL and PWR_CAP that a boundary is to apply -/
  lullPending : Option Word := none
  capPending : Option Word := none
  /-- a TIK_PERIOD write while STOPPED, due at a substitute boundary -/
  periodPending : Option Nat := none
  /-- islands being powered on: region, MCLK time of the request (R556) -/
  islandOn : List (Nat × Nat) := []
  deriving DecidableEq, Repr

end Sys2Proof.Machine
end

