-- ==== Sys2Proof/Syntax.lean ====
section
/-! DEFINITION. The commands the device takes from outside and the events of its own it takes: one constructor per row of
the table of operations and events. -/

namespace Sys2Proof

open Sys2Proof.Machine

/-- What the device measures over a tick just ended, and the moment of the boundary (R554, R69). -/
structure BoundaryEnv where
  /-- MCLK time of the boundary, ns -/
  timeNs : Nat := 0
  /-- PTP time of the boundary, ns -/
  ptpNs : Nat := 0
  /-- static floor measured over the tick, W -/
  floorW : Nat := 0
  /-- highest junction temperature of the tick, units of 0.125 °C, and its die -/
  tjQ8 : Nat := 0
  hotDie : Nat := 0
  /-- mean power of the tick, W, and its energy, mJ -/
  lastW : Nat := 0
  energyMJ : Nat := 0
  /-- how long after the boundary before this one the last operation admitted into the tick before it finished, µs (R615) -/
  lateUs : Nat := 0
  /-- stack temperatures, °C, where they are read -/
  stackC : List Nat := []
  /-- parts found failed by the tick's self-test: location codes -/
  selfTestFailed : List Nat := []
  deriving DecidableEq, Repr

/-- How an SPDM request comes (R570): by the DOE mailbox of host port 0 to 7, or by management port 0 or 1 as transport 8 or 9,
there with the MSEQ of its message (Table 22-8). -/
structure Via where
  transport : Nat
  mseq : Nat := 0
  deriving DecidableEq, Repr

/-- A management message (R648): its port, its MSEQ, the SPDM session it comes in; 0 for none. -/
structure Msg where
  port : Nat
  mseq : Nat := 0
  session : Nat := 0
  deriving DecidableEq, Repr

/-- An error that stack ECC finds in a line (Table 20-1): the line, its DRAM row within its channel, whether it was
corrected in place, and whether an uncorrectable error recurs at the row on re-read. -/
structure EccError where
  line : Nat
  row : Nat
  corrected : Bool
  again : Bool := false
  deriving DecidableEq, Repr


/-- A firmware image as it is found at boot (R565): the vendor key that signs it, whether the signature verifies, its SVN, its
release number, its digest. -/
structure BootImage where
  key : Nat
  signed : Bool
  svn : Nat
  release : Nat
  digest : List Byte
  deriving DecidableEq, Repr

/-- What the actions of a boot stage find (Table 22-4); a stage takes from it what is its own. -/
structure StageReport where
  /-- ROM: its release number and digest -/
  romRelease : Nat := 0
  romDigest : List Byte := []
  /-- FIRMWARE: the Lemtus images of slots A and B, and the one received in IMAGE messages -/
  slotA : Option BootImage := none
  slotB : Option BootImage := none
  sent : Option BootImage := none
  /-- OTP: the board configuration (Table 22-7), engine microcode, tile-program loader -/
  board : List Byte := []
  microcode : Option BootImage := none
  loader : Option BootImage := none
  /-- CORES: lockstep pairs that fail their test -/
  badPairs : List Nat := []
  /-- STACKS: DRAM channels that train, and their spare rows -/
  chans : List (Nat × Nat) := []
  /-- FLASH: channels found, their usable pages, whether the scorer passed -/
  flash : List (Nat × Nat × Bool) := []
  /-- HOST_LINKS: host ports that train, RATE and lanes -/
  links : List (Nat × Nat × Nat) := []
  /-- SELF_TEST: parts that fail, by location code; whether the management die passed -/
  failed : List Nat := []
  mdOk : Bool := true
  deriving DecidableEq, Repr
/-- The commands: one constructor per row of the table of operations and events. -/
inductive Instr where
  /-- TICK_BOUNDARY (R69). At each tick boundary the device advances TICK_NOW and takes the ordered boundary actions of Table 2-6. -/
  | tickBoundary (env : BoundaryEnv)
  /-- PG_BUILD_BLOCK (R613). The device builds one 4 KiB block of a BUILDING extent and advances CURSOR. -/
  | pgBuildBlock (ext : Nat) (src : List (Nat × List Byte)) (bad : List (Nat × Nat))
  /-- SUBSTITUTE_BOUNDARY (R672). While STOPPED, a boundary-timed effect takes place at a substitute boundary within 10 µs. -/
  | substituteBoundary (env : BoundaryEnv)
  /-- ADMISSION_ROUND (R57). LEAD_US before a boundary the round closes and candidates are admitted, delayed or refused by class. -/
  | admissionRound (maint : Cost)
  /-- TICK_IN_EDGE (R41). A rising edge on TICK_IN is accepted as a boundary or ignored and counted. -/
  | tickInEdge (ns highNs : Nat)
  /-- TICK_IN_EDGE_MISSING (R41). When no edge is accepted by 1 µs after the expected boundary, the device makes the boundary itself. -/
  | tickInEdgeMissing (ns : Nat)
  /-- PTP_MESSAGE (R38). A PTP message received on a management port updates the slave clock's offset estimate. -/
  | ptpMessage (offsetNs : Int)
  /-- PTP_MESSAGE_LOSS (R42). PTP messages missing for 4 s move a LOCKED generator to HOLDOVER. -/
  | ptpMessageLoss
  /-- HOLDOVER_LIMIT (R43). The holdover error estimate exceeding 125 ns moves the generator to LOST. -/
  | holdoverLimit (elapsedNs : Nat)
  /-- TICK_RUN_START (R37). Setting TIK_CTRL.RUN starts the tick generator in FREE or LOCKING. -/
  | tickRunStart (path : Nat) (value : Word) (cycle : Nat)
  /-- TICK_RUN_STOP (R42). Clearing TIK_CTRL.RUN puts the generator in STOPPED. -/
  | tickRunStop (path : Nat) (value : Word) (cycle : Nat)
  /-- TICK_SRC_CHANGE (R37). Changing TIK_CTRL.SRC while RUN stays 1 enters LOCKING or FREE under the new source. -/
  | tickSrcChange (path : Nat) (value : Word) (cycle : Nat)
  /-- TIK_PERIOD_WRITE (R40). A guarded write of TIK_PERIOD announces a period change applying 65 ticks later. -/
  | tikPeriodWrite (path : Nat) (value : Word) (cycle : Nat)
  /-- TIK_LULL_WRITE (R62). A guarded write of TIK_LULL changes lull spacing from the next boundary. -/
  | tikLullWrite (path : Nat) (value : Word) (cycle : Nat)
  /-- TIK_LEAD_WRITE (R55). A write of TIK_LEAD sets the round close lead, rejecting out-of-range values. -/
  | tikLeadWrite (path : Nat) (value : Word) (cycle : Nat)
  /-- TICK_NOW_WRITE (R71). A mailbox write of TICK_NOW sets the tick counter, permitted only while STOPPED. -/
  | tickNowWrite (path m : Nat)
  /-- PLAN_LOAD (R49). PLAN_LOAD reads and checks a tick plan and makes it the slice's pending plan. -/
  | planLoad (tok : Nat) (ext : List Byte)
  /-- PLAN_UNLOAD (R50). PLAN_UNLOAD removes the pending plan or stops the active one. -/
  | planUnload (tok : Nat)
  /-- FAB_DEVID_WRITE (R73). A guarded write of FAB_DEVID sets the device ID unless the device has joined. -/
  | fabDevidWrite (path : Nat) (value : Word) (cycle : Nat)
  /-- WINDOW_COMMIT_APPLY_WRITE (R85). FAB_WIN_COMMIT.APPLY checks the shadow window table and schedules it for application. -/
  | windowCommitApplyWrite (path : Nat) (value : Word) (cycle : Nat)
  /-- WINDOW_COMMIT_DISCARD (R84). FAB_WIN_COMMIT.DISCARD copies the committed window table into the shadow. -/
  | windowCommitDiscard (path : Nat) (value : Word) (cycle : Nat)
  /-- WINDOW_DRAIN_COMPLETE (R87). When every request under a replaced entry has completed, DRAINING clears and DRAINED is set. -/
  | windowDrainComplete
  /-- ARRIVAL_COUNTER_WRITE (R132). A mailbox write of FAB_ARR_COUNTER updates a counter and may send a notify. -/
  | arrivalCounterWrite (path m : Nat)
  /-- FLAG_TIMEOUT (R108). A held flagged store whose earlier writes have not settled in FLAG_TIMEOUT_US is dropped. -/
  | flagTimeout (src seq : Nat)
  /-- LINK_FRAME (R138). A received link frame is checked, delivered in order or discarded with NAK and go-back-N retry. -/
  | linkFrame (port : Nat) (frame : Frame)
  /-- PORT_ENABLE (R139). Setting FAB_PORT_CTRL.ENABLE moves a DISABLED port to DETECT. -/
  | portEnable (path : Nat) (value : Word) (cycle : Nat)
  /-- PORT_DISABLE (R139). Clearing FAB_PORT_CTRL.ENABLE makes the port DISABLED from any state. -/
  | portDisable (path : Nat) (value : Word) (cycle : Nat)
  /-- PORT_RETRAIN (R140). Writing FAB_PORT_CTRL.RETRAIN retrains an active port or restarts a FAILED one at DETECT. -/
  | portRetrain (path : Nat) (value : Word) (cycle : Nat)
  /-- PORT_SIGNAL_DETECT (R139). Signal on at least four lanes moves a port from DETECT to TRAIN. -/
  | portSignalDetect (port lanes : Nat)
  /-- PORT_EQUALISATION_DONE (R139). Equalisation converging on at least four lanes moves a port to ALIGN. -/
  | portEqualisationDone (port lanes : Nat)
  /-- PORT_ALIGN_DONE (R140). Width chosen with FEC lock and deskew moves a port to INIT, or to FAILED when no width exists. -/
  | portAlignDone (port good : Nat)
  /-- LANE_FAULT (R139). Loss of signal or lock on a working lane moves the port to RETRAIN. -/
  | laneFault (port : Nat)
  /-- PORT_BRINGUP_TIMEOUT (R139). A port not ACTIVE or DEGRADED within 2 s of DETECT enters FAILED. -/
  | portBringupTimeout (port : Nat)
  /-- PORT_RETRAIN_TIMEOUT (R139). A retrain not ended within 100 µs enters FAILED. -/
  | portRetrainTimeout (port : Nat)
  /-- ESCAPE_TIMEOUT (R150). A packet that found no adaptive credit for ESC_NS moves to the escape sub-channel. -/
  | escapeTimeout (k : Nat)
  /-- NEIGHBOUR_TIMER (R156). Every millisecond each link end sends a NEIGHBOUR packet. -/
  | neighbourTimer (port : Nat)
  /-- LOAD (R83). An inbound LOAD is window-checked, ordered at its home and answered with READ_DATA. -/
  | load (port : Nat) (pkt : Packet)
  /-- STORE (R83). An inbound STORE is window and ownership checked and applied at its home. -/
  | store (port : Nat) (pkt : Packet)
  /-- FLAGGED_STORE (R106). An inbound flagged store is held until earlier writes of its source settle, then applied. -/
  | flaggedStore (port : Nat) (pkt : Packet)
  /-- BULK_GET (R145). An inbound BULK_GET is checked on its whole range and answered segment by segment. -/
  | bulkGet (port : Nat) (pkt : Packet)
  /-- BULK_PUT (R145). An inbound BULK_PUT segment is checked on the whole transaction and applied. -/
  | bulkPut (port : Nat) (pkt : Packet)
  /-- ATOMIC (R163). An inbound ATOMIC applies its operation indivisibly at the home and returns the old value. -/
  | atomic (port : Nat) (pkt : Packet)
  /-- ACC_ADD (R165). An inbound ACC_ADD adds exactly to N accumulator cells. -/
  | accAdd (port : Nat) (pkt : Packet)
  /-- ACC_READ (R165). An inbound ACC_READ returns rounded values or images of N accumulator cells. -/
  | accRead (port : Nat) (pkt : Packet)
  /-- SUBMIT (R170). An inbound SUBMIT places a descriptor in a fabric submission queue once earlier writes settle. -/
  | submit (port : Nat) (pkt : Packet)
  /-- OWN_CLAIM (R168). An OWN CLAIM makes an open or self-owned granule OWNED by its source. -/
  | ownClaim (port : Nat) (pkt : Packet)
  /-- OWN_HANDOFF (R168). An OWN HANDOFF passes granule ownership to NEW_OWNER. -/
  | ownHandoff (port : Nat) (pkt : Packet)
  /-- OWN_RELEASE (R168). An OWN RELEASE returns an owned granule to OPEN. -/
  | ownRelease (port : Nat) (pkt : Packet)
  /-- SEQ_SYNC (R161). A SEQ_SYNC resets a source's sequence generation and ends held old-generation stores. -/
  | seqSync (port : Nat) (pkt : Packet)
  /-- MC_PUT (R153). A multicast put is copied to child ports and applied locally when LOCAL is set. -/
  | mcPut (port : Nat) (pkt : Packet)
  /-- READ_DATA (R157). A READ_DATA response completes its outstanding request and releases the tag. -/
  | readData (port : Nat) (pkt : Packet)
  /-- BULK_DATA (R157). A BULK_DATA response delivers one segment of a bulk read. -/
  | bulkData (port : Nat) (pkt : Packet)
  /-- ACK (R157). An ACK answers a write-class request and releases its tag when complete. -/
  | ack (port : Nat) (pkt : Packet)
  /-- TICK (R155). A TICK packet from the parent port is forwarded to child ports and acted on. -/
  | tick (port : Nat) (pkt : Packet)
  /-- NEIGHBOUR (R156). A received NEIGHBOUR packet updates FAB_NEIGHBOUR and completes INIT. -/
  | neighbour (port : Nat) (pkt : Packet)
  /-- REQUEST_TIMEOUT (R158). A request unanswered within TIMEOUT_US ends with RESP_TIMEOUT and releases its tag. -/
  | requestTimeout (tag : Nat)
  /-- JOIN (R175). FAB_CTRL.JOIN makes the device join the fabric when its ID is set and a port is up. -/
  | join (path : Nat) (value : Word) (cycle : Nat)
  /-- LEAVE (R176). FAB_CTRL.LEAVE stops origination and announces LEAVING. -/
  | leave (path : Nat) (value : Word) (cycle : Nat)
  /-- FAB_OWN_ENTRY_WRITE (R169). A guarded write of FAB_OWN_ENTRY sets a granule's owner and mode at its home. -/
  | fabOwnEntryWrite (path : Nat) (value : Word) (cycle : Nat)
  /-- THREAD_SWITCH_NORMAL (R173). Setting FAB_TS_CTRL.NORMAL moves the service cores out of thread-switch mode. -/
  | threadSwitchNormal (path : Nat) (value : Word) (cycle : Nat)
  /-- FAB_VC_CFG_WRITE (R147). A write of FAB_VC_CFG sets a port's credit division, accepted only while it is DISABLED. -/
  | fabVcCfgWrite (path vc : Nat) (value : Word) (cycle : Nat)
  /-- MEM_RD (R189). A host MemRd on a coherent line is served with the directory transitions of Table 6-3. -/
  | memRd (port dec off : Nat) (m : MetaVal)
  /-- MEM_RD_DATA (R189). A host MemRdData reads a coherent line without changing its directory state. -/
  | memRdData (port dec off : Nat)
  /-- MEM_INV (R189). A host MemInv recalls other hosts and grants the line in A. -/
  | memInv (port dec off : Nat)
  /-- MEM_INV_NT (R189). A host MemInvNT recalls other hosts and leaves the line in I. -/
  | memInvNt (port dec off : Nat)
  /-- MEM_CLN_EVCT (R188). A host MemClnEvct removes it from the line's directory entry. -/
  | memClnEvct (port dec off : Nat)
  /-- MEM_WR (R189). A host MemWr is applied at its home, as a recall writeback when one is outstanding. -/
  | memWr (port dec off : Nat) (m : MetaVal) (data : List Byte)
  /-- MEM_WR_PTL (R189). A host MemWrPtl is applied as a partial write under the directory rules. -/
  | memWrPtl (port dec off : Nat) (m : MetaVal) (data : List Byte) (mask : Nat)
  /-- MEM_RD_FWD (R181). A host MemRdFwd is completed as a MemRd. -/
  | memRdFwd (port dec off : Nat) (m : MetaVal)
  /-- MEM_WR_FWD (R181). A host MemWrFwd is completed as a MemWr. -/
  | memWrFwd (port dec off : Nat) (m : MetaVal) (data : List Byte)
  /-- MEM_SPEC_RD (R181). A host MemSpecRd is completed as a no-op. -/
  | memSpecRd (port dec off : Nat)
  /-- BI_RSP_I (R191). A BIRspI answers a recall; when all answers are in, the transaction closes. -/
  | biRspI (port line : Nat) (held : Bool)
  /-- BI_RSP_S (R191). A BIRspS answers a recall with the host keeping a shared copy. -/
  | biRspS (port line : Nat)
  /-- BI_RSP_E (R191). A BIRspE answers a recall for the line. -/
  | biRspE (port line : Nat)
  /-- BI_CONFLICT (R192). A BIConflict is answered with BIConflictAck once the home has sent its BISnp. -/
  | biConflict (port line : Nat)
  /-- MIN_HOLD_EXPIRY (R193). When MIN_HOLD has passed since a grant, a waiting recall is sent. -/
  | minHoldExpiry (line : Nat)
  /-- BI_TIMEOUT (R195). A recall unanswered within BI_TIMEOUT takes the coherent domain down. -/
  | biTimeout (port line : Nat)
  /-- DOMAIN_WALK_DONE (R196). When every slice has walked its entries the domain becomes DOWN. -/
  | domainWalkDone
  /-- DIR_DOMAIN_RESET (R199). A guarded write of DIR_DOMAIN_RESET empties the directory and brings the domain UP. -/
  | dirDomainReset (path : Nat) (value : Word) (cycle : Nat)
  /-- HIF_EXT_ENTRY_WRITE (R184). A guarded write of HIF_EXT_ENTRY activates an extent or starts its revocation. -/
  | hifExtEntryWrite (path : Nat) (value : Word) (cycle : Nat)
  /-- REVOCATION_COMPLETE (R200). When in-flight requests and recalls of a REVOKING extent are done it becomes FREE. -/
  | revocationComplete (ext : Nat)
  /-- HIF_LAYOUT_WRITE (R182). A guarded write of HIF_LAYOUT sets a port's decoder sizes while none is committed. -/
  | hifLayoutWrite (path : Nat) (value : Word) (cycle : Nat)
  /-- HIF_PORT_CFG_WRITE (R632). A guarded write of HIF_PORT_CFG binds a port's partition and coherent decoders to a slice. -/
  | hifPortCfgWrite (path : Nat) (value : Word) (cycle : Nat)
  /-- HDM_DECODER_COMMIT (R182). A host commits an HDM decoder, which succeeds only with the reported size. -/
  | hdmDecoderCommit (port dec base sizeGib : Nat)
  /-- HIF_SHR_COMMIT (R203). HIF_SHR_COMMIT.APPLY checks and commits a shared-range descriptor. -/
  | hifShrCommit (path : Nat) (value : Word) (cycle : Nat)
  /-- COW_COPY_DONE (R206). A copy-on-write copy of a draft granule completes and the held write is applied. -/
  | cowCopyDone (range granule : Nat)
  /-- BAR4_ACCESS (R185). A PCIe memory request to BAR4 reads or writes the port's partition. -/
  | bar4Access (port off len : Nat) (write : Bool) (data : List Byte)
  /-- HOST_LINK_CHANGE (R180). A host port trains, changes width or rate, or goes down, and the change is reported. -/
  | hostLinkChange (port rate width : Nat)
  /-- IDENTIFY (R181). The CXL memory device command Identify returns the device's identity data. -/
  | identify (port : Nat)
  /-- GET_PARTITION_INFO (R181). The CXL command Get Partition Info returns partition information. -/
  | getPartitionInfo (port : Nat)
  /-- GET_EVENT_RECORDS (R181). The CXL command Get Event Records returns event records. -/
  | getEventRecords (port : Nat)
  /-- CLEAR_EVENT_RECORDS (R181). The CXL command Clear Event Records clears event records. -/
  | clearEventRecords (port : Nat)
  /-- GET_POISON_LIST (R181). The CXL command Get Poison List returns the poisoned lines. -/
  | getPoisonList (port : Nat)
  /-- CDAT_READ (R181). A DOE request reads the device's CDAT. -/
  | cdatRead (port : Nat)
  /-- SNAP_OPEN (R209). SNAP_OPEN opens a version of a shared range for its port in a slot. -/
  | snapOpen (tok : Nat)
  /-- SNAP_CLOSE (R209). SNAP_CLOSE releases a version the port holds. -/
  | snapClose (tok : Nat)
  /-- SNAP_PUBLISH (R208). SNAP_PUBLISH makes the draft a new version at the next boundary. -/
  | snapPublish (tok : Nat)
  /-- SNAP_DISCARD (R210). SNAP_DISCARD resets the draft to the newest version at the next boundary. -/
  | snapDiscard (tok : Nat)
  /-- XLT_CTX_COMMIT (R217). XLT_CTX_COMMIT.APPLY checks and schedules a translation-context commit. -/
  | xltCtxCommit (path : Nat) (value : Word) (cycle : Nat)
  /-- TLB_MISS (R225). A die-TLB miss is walked by firmware or posted as a MISS assist record. -/
  | tlbMiss (tok va access : Nat)
  /-- WALK_DONE (R229). A table walk finishes and installs its translation unless overtaken by an invalidation. -/
  | walkDone (ctx va : Nat) (host : List Nat)
  /-- MISS_TIMEOUT (R228). An access waiting XLT_MISS_TIMEOUT on a host-assisted miss faults. -/
  | missTimeout (req : Nat)
  /-- MIGRATION_START (R236). A fault in a migrating range starts an on-device page migration. -/
  | migrationStart (ctx va : Nat) (host : List Nat) (leaf : Nat)
  /-- MIGRATION_COPY_DONE (R236). A migration's page copy completes, the leaf is swapped and waiters translate again. -/
  | migrationCopyDone (ctx va : Nat) (data : List Byte) (leaf : Nat)
  /-- MIGRATION_TIMEOUT (R238). A migration unfinished in XLT_MIG_TIMEOUT faults its waiting accesses. -/
  | migrationTimeout (ctx va : Nat)
  /-- INVALIDATE (R241). INVALIDATE advances the generation and removes matching TLB entries. -/
  | invalidate (tok : Nat)
  /-- INVALIDATE_COMPLETE (R241). An INVALIDATE completes once no holder and no transfer of its scope remains. -/
  | invalidateComplete (tok : Nat)
  /-- PREFETCH (R240). PREFETCH moves every host page of its range to the device. -/
  | prefetch (tok : Nat) (host : List Nat) (ext : List Byte)
  /-- ADVISE (R240). ADVISE moves pages back to the host or sets or clears MIG on leaves. -/
  | advise (tok : Nat) (host : List Nat)
  /-- XLT_FILL (R227). XLT_FILL answers an assist request with a translation, a rewalk or a failure. -/
  | xltFill (tok : Nat)
  /-- XLT_SET_ROOT (R244). XLT_SET_ROOT installs a new stage-1 root as an INVALIDATE S1_ALL. -/
  | xltSetRoot (tok : Nat)
  /-- TIR_SPLIT_WRITE (R249). A guarded write of TIR_SPLIT checks and schedules a region SRAM split. -/
  | tirSplitWrite (path : Nat) (value : Word) (cycle : Nat)
  /-- TIER_PROMOTION (R261). The tier controller starts a promotion, choosing slots or demoting a victim. -/
  | tierPromotion
  /-- TIER_PART_COPY_DONE (R253). A home finishes copying its part of a promoted granule and switches its tag on. -/
  | tierPartCopyDone (granule part : Nat)
  /-- TIER_PROMOTE (R265). TIER_PROMOTE promotes every granule of its range. -/
  | tierPromote (tok : Nat)
  /-- TIER_DEMOTE (R265). TIER_DEMOTE demotes every unpinned granule of its range. -/
  | tierDemote (tok : Nat)
  /-- TIER_PIN (R265). TIER_PIN promotes and pins the granules of its range. -/
  | tierPin (tok : Nat)
  /-- TIER_UNPIN (R265). TIER_UNPIN clears the pins of its range. -/
  | tierUnpin (tok : Nat)
  /-- FETCH_DEADLINE (R267). At the fetch deadline, outstanding deadline fetches are late and cheaper paths are taken. -/
  | fetchDeadline
  /-- CDC_PROFILE (R288). CDC_PROFILE starts, adds to or finishes a code-table histogram build. -/
  | cdcProfile (tok : Nat) (ext : List Byte)
  /-- CDC_ENCODE (R290). CDC_ENCODE compresses a plain source into coded or RAW blocks. -/
  | cdcEncode (tok : Nat) (ext : List Byte)
  /-- CDC_DECODE (R291). CDC_DECODE decodes a compressed source into a plain destination. -/
  | cdcDecode (tok : Nat)
  /-- CDC_SEND (R303). CDC_SEND sends stored blocks to a fabric address and optionally an adopt. -/
  | cdcSend (tok : Nat)
  /-- CDC_ADOPT (R304). CDC_ADOPT rebuilds metadata from the headers of received blocks. -/
  | cdcAdopt (tok : Nat)
  /-- CDC_TABLE_LOAD (R287). CDC_TABLE_LOAD loads a code-table image into a free table. -/
  | cdcTableLoad (tok : Nat) (ext : List Byte)
  /-- CDC_TABLE_FREE (R286). CDC_TABLE_FREE frees a building table or begins freeing a valid one. -/
  | cdcTableFree (tok : Nat)
  /-- CDC_TABLE_READ (R289). CDC_TABLE_READ writes a valid table's image to memory. -/
  | cdcTableRead (tok : Nat)
  /-- TP_LOAD (R340). TP_LOAD checks a tile program and loads its weights into a slot. -/
  | tpLoad (tok : Nat) (ext : List Byte)
  /-- TP_RUN (R342). TP_RUN runs a range of a loaded program's operations. -/
  | tpRun (tok : Nat)
  /-- TP_UNLOAD (R347). TP_UNLOAD stops new runs and frees the slot when earlier runs finish. -/
  | tpUnload (tok : Nat)
  /-- UNLOAD_DRAIN_COMPLETE (R347). When an unloading object's earlier operations have completed it is freed and its unload completes. -/
  | unloadDrainComplete (tok : Nat)
  /-- TBL_LOAD (R356). TBL_LOAD checks a table descriptor and loads a column slice as version 1. -/
  | tblLoad (tok : Nat) (ext : List Byte)
  /-- TBL_UNLOAD (R358). TBL_UNLOAD stops new use of a table and frees it when earlier work ends. -/
  | tblUnload (tok : Nat)
  /-- LOOKUP (R362). LOOKUP gathers and pools row slices and writes the member's output columns. -/
  | lookup (tok : Nat) (ext : List Byte)
  /-- TABLE_PUBLISH (R376). TABLE_PUBLISH makes a new table image current at the next boundary. -/
  | tablePublish (tok : Nat) (ext : List Byte)
  /-- RC_ADMIT (R385). RC_ADMIT places named rows in the row cache. -/
  | rcAdmit (tok : Nat) (ext : List Byte)
  /-- EMB_PRIV_ENTRY_WRITE (R359). A guarded write of EMB_PRIV_ENTRY marks or clears a privileged table. -/
  | embPrivEntryWrite (path : Nat) (value : Word) (cycle : Nat)
  /-- SCATTER_GRAD (R394). SCATTER_GRAD merges gradient contributions into the gathering window's set. -/
  | scatterGrad (tok : Nat) (ext : List Byte)
  /-- UPD_START (R391). UPD_START checks an update descriptor and starts the table's update service. -/
  | updStart (tok : Nat) (ext : List Byte)
  /-- UPD_STOP (R409). UPD_STOP ends gathering and stops the update after its last window is released. -/
  | updStop (tok : Nat)
  /-- IDX_LOAD (R428). IDX_LOAD checks an index descriptor and creates or attaches a BUILDING index. -/
  | idxLoad (tok : Nat) (ext : List Byte)
  /-- IDX_UNLOAD (R431). IDX_UNLOAD stops new use of an index and frees it when earlier work ends. -/
  | idxUnload (tok : Nat)
  /-- LEAF_WRITE (R429). LEAF_WRITE checks and programs leaf pages of a building index. -/
  | leafWrite (tok : Nat) (ext : List Byte)
  /-- IDX_ACTIVATE (R430). IDX_ACTIVATE makes a fully written index LIVE at the next boundary. -/
  | idxActivate (tok : Nat)
  /-- SRH_QUERY (R432). SRH_QUERY walks the tree, scores probes and side pages, and writes result blocks. -/
  | srhQuery (tok : Nat) (ext : List Byte)
  /-- SRH_INSERT (R437). SRH_INSERT appends vectors to the side list. -/
  | srhInsert (tok : Nat) (ext : List Byte)
  /-- SRH_DELETE (R438). SRH_DELETE tombstones vector numbers at the next boundary. -/
  | srhDelete (tok : Nat) (ext : List Byte)
  /-- SRH_MERGE (R443). SRH_MERGE makes the next lull tick run a merge pass on its index. -/
  | srhMerge (tok : Nat)
  /-- SRH_REDUCE (R450). SRH_REDUCE merges shard result blocks into the best K_OUT per query. -/
  | srhReduce (tok : Nat) (ext : List Byte)
  /-- FLASH_PAGE_READ_DONE (R433). A flash page read completes and is scored, or is lost when uncorrectable. -/
  | flashPageReadDone (fpa : Nat) (lost : Bool)
  /-- FLASH_PAGE_PROGRAM_DONE (R417). A flash page program completes, or fails and is retried on another page. -/
  | flashPageProgramDone (fpa : Nat) (ok : Bool)
  /-- FLASH_PAGE_MOVE (R445). The device moves a page for refresh and enters a forward pointer. -/
  | flashPageMove (fpa : Nat)
  /-- FLASH_CHANNEL_FAILURE (R417). A failed flash device or scorer takes its channel out of service. -/
  | flashChannelFailure (channel : Nat) (scorer : Bool)
  /-- KV_POOL_CREATE (R457). KV_POOL_CREATE checks a pool descriptor and creates a LIVE pool. -/
  | kvPoolCreate (tok : Nat) (ext : List Byte)
  /-- KV_POOL_DESTROY (R459). KV_POOL_DESTROY stops new requests and frees the pool when earlier ones end. -/
  | kvPoolDestroy (tok : Nat)
  /-- KV_SEQ_CREATE (R461). KV_SEQ_CREATE creates a sequence with every layer empty. -/
  | kvSeqCreate (tok : Nat)
  /-- KV_APPEND (R464). KV_APPEND reserves pages and writes tokens of one layer. -/
  | kvAppend (tok : Nat)
  /-- KV_COMMIT (R464). Once its writes are visible, an append or move commits its page table and length. -/
  | kvCommit (tok : Nat) (lost journal : Bool)
  /-- KV_READ (R471). KV_READ copies committed tokens in the dense layout to a fabric address. -/
  | kvRead (tok : Nat)
  /-- KV_ATTEND (R472). KV_ATTEND runs one ATTEND_PAGED over a sequence layer. -/
  | kvAttend (tok : Nat)
  /-- KV_FORK (R468). KV_FORK creates a child sequence sharing the parent's prefix pages. -/
  | kvFork (tok : Nat)
  /-- KV_FREE (R468). KV_FREE marks a sequence FREEING and lowers its page counts. -/
  | kvFree (tok : Nat)
  /-- KV_MOVE (R469). KV_MOVE moves a sequence's pages out to overflow or back in. -/
  | kvMove (tok : Nat)
  /-- KV_RESYNC (R467). KV_RESYNC clears RESYNC after rollback and returns the committed length. -/
  | kvResync (tok : Nat)
  /-- KV_GRANT (R458). KV_GRANT adds local page numbers to a host-assisted pool's grant queue. -/
  | kvGrant (tok : Nat) (ext : List Byte)
  /-- Q_CREATE (R480). Q_CREATE checks its operands and creates a LIVE queue. -/
  | qCreate (tok : Nat)
  /-- Q_DESTROY (R489). Q_DESTROY stops new requests and frees the queue when earlier ones end. -/
  | qDestroy (tok : Nat)
  /-- Q_PUSH (R481). Q_PUSH reserves space at the tail and writes an item. -/
  | qPush (tok : Nat) (ext : List Byte)
  /-- QUEUE_ITEM_COMMIT (R482). An item commits when its bytes are visible and every earlier item has committed. -/
  | queueItemCommit (tok : Nat)
  /-- Q_POP (R484). Q_POP takes committed items and writes them to its destination. -/
  | qPop (tok : Nat)
  /-- Q_FLUSH (R486). Q_FLUSH empties the queue at once, stopping pushes and pops in progress. -/
  | qFlush (tok : Nat)
  /-- Q_MARK (R488). Q_MARK sets a mark at the read point of a retaining queue. -/
  | qMark (tok : Nat)
  /-- Q_REWIND (R488). Q_REWIND moves the read point back to a mark. -/
  | qRewind (tok : Nat)
  /-- Q_RELEASE (R488). Q_RELEASE moves the head to a mark and frees the space before it. -/
  | qRelease (tok : Nat)
  /-- SQ_TAIL_DOORBELL (R497). A write of SQ_TAIL in a doorbell page makes new descriptors available for fetch. -/
  | sqTailDoorbell (port pair value : Nat)
  /-- CQ_HEAD_DOORBELL (R497). A write of CQ_HEAD releases completion entries of a ring. -/
  | cqHeadDoorbell (port pair value : Nat)
  /-- DESCRIPTOR_FETCH_DONE (R498). A descriptor fetch completes and the descriptor arrives, or the pair enters ERROR. -/
  | descriptorFetchDone (pair : Nat) (ok : Bool) (bits : DescBits)
  /-- NOP (R502). NOP completes with no effect, or releases fabric completion entries with CQ_HEAD. -/
  | nop (tok : Nat)
  /-- ABORT (R514). ABORT stops its target if reached before its settle point. -/
  | abort (tok : Nat)
  /-- FENCE (R122). FENCE holds later descriptors of its ring until earlier ones complete at its scope. -/
  | fence (tok : Nat)
  /-- FENCE_COMPLETE (R122). A FENCE completes once earlier descriptors are done and their writes satisfy its scope. -/
  | fenceComplete (tok : Nat)
  /-- WAIT_COUNTER (R123). WAIT_COUNTER waits until an arrival counter reaches its target. -/
  | waitCounter (tok : Nat)
  /-- SET_FLAG (R124). SET_FLAG writes a flag as a flagged store after earlier writes are visible. -/
  | setFlag (tok : Nat)
  /-- COUNTER_SET (R120). COUNTER_SET sets an arrival counter's value, threshold and notify. -/
  | counterSet (tok : Nat)
  /-- COPY (R516). COPY moves data in pieces on the copy engine. -/
  | copy (tok : Nat) (ext : List Byte)
  /-- FILL (R516). FILL writes a repeated 8 B pattern over a destination. -/
  | fill (tok : Nat) (ext : List Byte)
  /-- ADMIT_WEIGHTS (R522). ADMIT_WEIGHTS sets or removes a slice's elastic weight override. -/
  | admitWeights (tok : Nat)
  /-- WORK_ITEM_DONE (R128). A unit finishes a work item and releases its writes if the attempt is current. -/
  | workItemDone (tok cluster attempt : Nat) (ok : Bool) (unit : Nat) (ext : List Byte)
  /-- UNIT_FAILURE (R13). A unit fails during a work item, which runs again whole under a new attempt. -/
  | unitFailure (tok loc : Nat)
  /-- DESCRIPTOR_COMPLETE (R509). A finished descriptor's completion is written once its writes are visible. -/
  | descriptorComplete (tok : Nat) (ok : Bool)
  /-- MSIX_MODERATION_TIMER (R511). MOD_TIME_US after the first unsignalled completion, the pair sends its vector. -/
  | msixModerationTimer (pair : Nat)
  /-- RING_ENABLE (R496). Setting HIF_RING_CTRL.ENABLE checks and activates a ring pair. -/
  | ringEnable (path : Nat) (value : Word) (cycle : Nat)
  /-- RING_DISABLE (R496). Clearing HIF_RING_CTRL.ENABLE makes a ring pair STOPPING. -/
  | ringDisable (path : Nat) (value : Word) (cycle : Nat)
  /-- SUBQ_ENABLE (R500). Setting FAB_SUBQ_CTRL.ENABLE checks and activates a fabric submission queue. -/
  | subqEnable (path : Nat) (value : Word) (cycle : Nat)
  /-- SUBQ_DISABLE (R500). Clearing FAB_SUBQ_CTRL.ENABLE makes a fabric submission queue STOPPING. -/
  | subqDisable (path : Nat) (value : Word) (cycle : Nat)
  /-- HIF_FN_MODE_WRITE (R519). A guarded write of HIF_FN_MODE changes function modes at the next boundary. -/
  | hifFnModeWrite (path : Nat) (value : Word) (cycle : Nat)
  /-- REGISTER_WRITE (R529). A write to a register with no behaviour of its own is checked and applied. -/
  | registerWrite (path addr len data cycle : Nat)
  /-- BIT_ALIAS_WRITE (R534). A write to a bit alias sets or clears one control-register bit atomically. -/
  | bitAliasWrite (path addr : Nat) (data : Word) (cycle : Nat)
  /-- GUARD_ARM (R541). A write of V to a guarded register arms the path's guard without changing it. -/
  | guardArm (path off : Nat) (value : Word) (cycle : Nat)
  /-- GUARD_TIMEOUT (R541). At the 64th MCLK cycle without a complement, the armed pair is rejected. -/
  | guardTimeout (path cycle : Nat)
  /-- MAILBOX_READ (R538). MBX_SEL with OP READ copies a wide value into the mailbox data. -/
  | mailboxRead (path m : Nat) (value : Word)
  /-- MAILBOX_WRITE (R538). MBX_SEL with OP WRITE applies the mailbox data to a wide value. -/
  | mailboxWrite (path m : Nat) (value : Word)
  /-- MAILBOX_OP_DONE (R538). A mailbox operation completes, clearing BUSY and setting VALID or ERR. -/
  | mailboxOpDone (m : Nat)
  /-- MBX_DATA_READ (R539). A read of mailbox data while VALID is 0 returns 0 and sets NOT_VALID. -/
  | mbxDataRead (path m w : Nat)
  /-- IDN_FN_RESET (R640). A guarded write of IDN_FN_RESET starts a function-level reset of a port. -/
  | idnFnReset (path : Nat) (value : Word) (cycle : Nat)
  /-- FN_RESET_DONE (R640). When no descriptor of the port's pairs remains, the function-level reset completes. -/
  | fnResetDone (port : Nat)
  /-- PWR_CAP_WRITE (R553). A guarded write of PWR_CAP is checked against plans and applied at the next boundary. -/
  | pwrCapWrite (path : Nat) (value : Word) (cycle : Nat)
  /-- PWR_THERM_WRITE (R552). A guarded write of PWR_THERM sets the thermal reduction parameters. -/
  | pwrThermWrite (path : Nat) (value : Word) (cycle : Nat)
  /-- PWR_ISLAND_REQ_WRITE (R556). A write of PWR_ISLAND_REQ requests region power islands on or off. -/
  | pwrIslandReqWrite (path : Nat) (value : Word) (cycle : Nat)
  /-- POWER_SAMPLE_TIMER (R554). While no boundary passes, power floor, temperature and reduction are updated every 1 ms. -/
  | powerSampleTimer (env : BoundaryEnv)
  /-- PATROL_SCRUB (R551). Patrol scrub reads and corrects every line once in each PERIOD_H hours. -/
  | patrolScrub (channel ns : Nat) (found : List EccError)
  /-- STACK_HOT (R551). A stack above 85 °C doubles its refresh and sets TEMP_HIGH. -/
  | stackHot (stack tempC : Nat)
  /-- SLOT_ACTIVATE (R579). SLOT_ACTIVATE draws a key slot's keys, records its owner and makes it ACTIVE. -/
  | slotActivate (tok : Nat) (ext : List Byte)
  /-- SLOT_RETIRE (R581). A guarded write of SEC_SLOT_CTRL.RETIRE starts retirement of a key slot. -/
  | slotRetire (path : Nat) (value : Word) (cycle : Nat)
  /-- ZEROISATION_DONE (R581). A zeroising slot finishes releasing its objects and keys and becomes FREE. -/
  | zeroisationDone (slot : Nat)
  /-- OTP_PROGRAM (R567). A guarded write of SEC_OTP_CTRL.PROGRAM programs an OTP generation slot. -/
  | otpProgram (path : Nat) (value : Word) (cycle : Nat)
  /-- OTP_PROGRAM_DONE (R567). OTP programming completes and SEC_OTP_GEN is updated. -/
  | otpProgramDone
  /-- BOUNCE_IN (R589). BOUNCE_IN authenticates host bounce frames and writes them to device memory. -/
  | bounceIn (tok : Nat) (ext : List Byte)
  /-- BOUNCE_OUT (R589). BOUNCE_OUT seals device data into bounce frames in host memory. -/
  | bounceOut (tok : Nat)
  /-- BYPASS (R569). The TAP instruction BYPASS is executed. -/
  | bypass (tdi count : Nat)
  /-- SAMPLE_PRELOAD (R569). The TAP instruction SAMPLE/PRELOAD is executed. -/
  | samplePreload (cells count : Nat)
  /-- EXTEST (R569). The TAP instruction EXTEST is executed. -/
  | extest (cells count : Nat)
  /-- IDCODE (R569). The TAP instruction IDCODE is executed. -/
  | idcode
  /-- DEBUG_INSTRUCTION (R569). A first debug instruction on an unfused part opens debug and zeroises every tenant slot. -/
  | debugInstruction (code tdi count : Nat)
  /-- GET_VERSION (R570). The SPDM request GET_VERSION is answered. -/
  | getVersion (via : Via)
  /-- GET_CAPABILITIES (R570). The SPDM request GET_CAPABILITIES is answered. -/
  | getCapabilities (via : Via)
  /-- NEGOTIATE_ALGORITHMS (R570). The SPDM request NEGOTIATE_ALGORITHMS is answered. -/
  | negotiateAlgorithms (via : Via)
  /-- GET_DIGESTS (R564). The SPDM request GET_DIGESTS returns the certificate chain digests. -/
  | getDigests (via : Via)
  /-- GET_CERTIFICATE (R564). The SPDM request GET_CERTIFICATE returns the chain of slot 0. -/
  | getCertificate (via : Via) (slot offset length : Nat)
  /-- CHALLENGE (R570). The SPDM request CHALLENGE is answered with an Alias-signed response. -/
  | challenge (via : Via) (slot : Nat) (nonce : List Byte)
  /-- GET_MEASUREMENTS (R571). The SPDM request GET_MEASUREMENTS returns the signed measurement blocks. -/
  | getMeasurements (via : Via) (block : Nat) (nonce : List Byte)
  /-- KEY_EXCHANGE (R570). The SPDM request KEY_EXCHANGE starts a session with mutual authentication. -/
  | keyExchange (via : Via) (slot : Nat) (authentic : Bool) (leaf : BitVec 384) (rooted : Bool)
  /-- FINISH (R570). The SPDM request FINISH completes session establishment. -/
  | finish (via : Via) (session : Nat) (verified : Bool)
  /-- HEARTBEAT (R570). The SPDM request HEARTBEAT is answered within a session. -/
  | heartbeat (via : Via) (session : Nat)
  /-- KEY_UPDATE (R570). The SPDM request KEY_UPDATE updates session keys. -/
  | keyUpdate (via : Via) (session : Nat)
  /-- END_SESSION (R570). The SPDM request END_SESSION ends a session and destroys its keys. -/
  | endSession (via : Via) (session : Nat)
  /-- CHUNK_SEND (R570). The SPDM request CHUNK_SEND delivers a chunk of a large request. -/
  | chunkSend (via : Via) (data : List Byte) (last : Bool)
  /-- CHUNK_GET (R570). The SPDM request CHUNK_GET returns a chunk of a large response. -/
  | chunkGet (via : Via)
  /-- MODEL_KEY_SET (R580). The vendor request MODEL_KEY_SET enters a model key and returns its handle. -/
  | modelKeySet (via : Via) (session : Nat) (payload : List Byte)
  /-- MODEL_KEY_DROP (R580). The vendor request MODEL_KEY_DROP destroys a model key entry. -/
  | modelKeyDrop (via : Via) (session : Nat) (payload : List Byte)
  /-- FLASH_KEY_SET (R580). The vendor request FLASH_KEY_SET replaces a slot's flash key. -/
  | flashKeySet (via : Via) (session : Nat) (payload : List Byte)
  /-- CONF_ENABLE (R585). The vendor request CONF_ENABLE makes a port confidential with a bounce key. -/
  | confEnable (via : Via) (session : Nat) (payload : List Byte)
  /-- UNIT_TEST_DONE (R599). An in-place unit test ends, sparing the unit or counting an intermittent failure. -/
  | unitTestDone (loc : Nat) (passed : Bool)
  /-- LOCKSTEP_MISMATCH (R602). A lockstep mismatch halts a service-core pair, which restarts its work elsewhere and is retested. -/
  | lockstepMismatch (pair : Nat)
  /-- ENGINE_WATCHDOG (R594). An engine without progress for 1 ms is failed and its work item retried. -/
  | engineWatchdog (tok loc : Nat)
  /-- CONFIGURATION_SCRUB (R594). Every 2 ms configuration tables are scrubbed and bad entries corrected or invalidated. -/
  | configurationScrub (table index : Nat) (corrected : Bool)
  /-- CLOCK_DEVIATION (R594). A die clock deviating above 1 % for 10 µs makes the die lost. -/
  | clockDeviation (die : Nat)
  /-- DIE_LOSS (R32). A whole die fails and is contained as Table 1-11 states. -/
  | dieLoss (die : Nat)
  /-- RAS_POP (R597). RAS_CTRL.POP discards the oldest held fault record. -/
  | rasPop (path : Nat) (value : Word) (cycle : Nat)
  /-- PG_COMMIT (R604). RAS_PG_COMMIT.APPLY checks a protection entry and schedules its commit. -/
  | pgCommit (path : Nat) (value : Word) (cycle : Nat)
  /-- PG_DISCARD (R604). RAS_PG_COMMIT.DISCARD copies the committed protection entry to the shadow. -/
  | pgDiscard (path : Nat) (value : Word) (cycle : Nat)
  /-- STRIPE_HOLD_LAPSE (R609). A stripe hold not released within 50 µs lapses. -/
  | stripeHoldLapse (line : Nat)
  /-- RETIRE (R617). The order RETIRE spares or retires a named part at the next boundary. -/
  | retire (m : Msg) (oseq arg : Nat)
  /-- SWAP_OUT (R618). The order SWAP_OUT drains the device and makes it leave at tick T. -/
  | swapOut (m : Msg) (oseq tick : Nat)
  /-- SWAP_TAKE (R619). The order SWAP_TAKE makes a spare take over a device ID at tick T. -/
  | swapTake (m : Msg) (oseq device tick : Nat) (dead : Bool)
  /-- EPOCH_ANNOUNCE (R617). The order EPOCH_ANNOUNCE makes the tick master announce an epoch advance. -/
  | epochAnnounce (m : Msg) (oseq device tick : Nat)
  /-- BUILD_PACE (R614). The order BUILD_PACE sets the build rate of an extent in host-assisted scheduling. -/
  | buildPace (m : Msg) (oseq extent arg : Nat)
  /-- SUSPECT_CLEAR (R616). The order SUSPECT_CLEAR clears SUSPECT and empties the lateness window. -/
  | suspectClear (m : Msg) (oseq : Nat)
  /-- SLICE_COMMIT (R627). CMP_SLICE_COMMIT.APPLY checks a slice descriptor and schedules its commit. -/
  | sliceCommit (path : Nat) (value : Word) (cycle : Nat)
  /-- SLICE_DISCARD (R559). CMP_SLICE_COMMIT.DISCARD copies the committed slice descriptor to the shadow. -/
  | sliceDiscard (path : Nat) (value : Word) (cycle : Nat)
  /-- COLD (R636). A RESET message with KIND COLD starts a cold reset. -/
  | cold (m : Msg)
  /-- WARM (R638). A RESET message with KIND WARM starts a warm reset. -/
  | warm (m : Msg)
  /-- LEMTUS_WATCHDOG (R636). Lemtus showing no progress for 1 s starts a warm reset. -/
  | lemtusWatchdog
  /-- BOOT_STAGE_DONE (R642). A boot stage finishes and the next stage starts, or boot fails. -/
  | bootStageDone (rep : StageReport)
  /-- STAGE_TIMEOUT (R642). A boot stage exceeding its limit fails the boot, or ends with an event where it never fails. -/
  | stageTimeout (rep : StageReport)
  /-- BOOT_STATUS_TIMER (R642). A failed device sends BOOT_STATUS every second. -/
  | bootStatusTimer
  /-- REG_READ (R648). A REG_READ message reads a BAR0 register and is answered with REG_RESP. -/
  | regRead (m : Msg) (addr : Nat)
  /-- REG_WRITE (R648). A REG_WRITE message makes one register write and is answered with REG_RESP. -/
  | regWrite (m : Msg) (addr data cycle : Nat)
  /-- IMAGE (R645). An IMAGE message delivers a chunk of a Lemtus image from a boot server. -/
  | image (port addr : Nat) (chunk : List Byte)
  /-- I3C_REGISTER_WRITE (R649). An I3C private write of offset and data makes a register write on path 10. -/
  | i3cRegisterWrite (addr data cycle : Nat)
  /-- MGT_PWRGOOD_RISE (R662). MGT_PWRGOOD rising starts a cold reset. -/
  | mgtPwrgoodRise
  /-- MGT_PWRGOOD_FALL (R662). MGT_PWRGOOD falling holds every die in reset and clears the thermal latch. -/
  | mgtPwrgoodFall
  /-- MAIN_PWRGOOD_RISE (R662). MAIN_PWRGOOD rising releases the main dies and starts stage ROM's limit. -/
  | mainPwrgoodRise
  /-- MAIN_PWRGOOD_FALL (R662). MAIN_PWRGOOD falling acts as RESET_N low. -/
  | mainPwrgoodFall
  /-- RESET_N_ASSERT (R662). RESET_N held low for 1 µs or more starts a cold reset. -/
  | resetNAssert
  /-- RESET_N_RELEASE (R662). RESET_N rising ends a held cold reset. -/
  | resetNRelease
  /-- PERST_ASSERT (R661). PERSTp_N low takes host port p's link down, a function-level reset. -/
  | perstAssert (port : Nat)
  /-- REFCLK_LOSS (R661). Loss of a reference clock takes down a host link, loses a link die, or stops the device. -/
  | refclkLoss (land : Nat)
  /-- RAIL_FAULT (R658). A rail outside ±5 % for 10 µs is reported and acts as MAIN_PWRGOOD falling. -/
  | railFault (row : Nat)
  /-- THERM_TRIP (R665). A die or stack at its trip temperature for 100 µs drives THERMTRIP_N and holds the dies in reset. -/
  | thermTrip (loc : Nat)
  /-- RETRAIN_LOCK_REGAINED (R139). A port in RETRAIN chooses its width and regains lock, returning to ACTIVE or DEGRADED and resending from the first unacknowledged frame. -/
  | retrainLockRegained (port good : Nat)
  /-- TIER_PART_DEMOTION_DONE (R254). A home finishes writing back the dirty lines of a demoted part, removes its tag and frees its slot, releasing the requests that waited. -/
  | tierPartDemotionDone (granule part : Nat)
  /-- PCIE_FUNCTION_LEVEL_RESET (R636). A host's PCIe Function Level Reset of port p starts a function-level reset of that port. -/
  | pcieFunctionLevelReset (port : Nat)
  /-- UPDATE (R645). An UPDATE order names an SPI NOR image slot that Lemtus then rewrites. -/
  | update (m : Msg) (oseq slot : Nat)
  /-- PAIR_RESTART_TEST_DONE (R602). The restart test of a halted lockstep pair ends, returning it to service or retiring it. -/
  | pairRestartTestDone (pair : Nat) (passed : Bool)
  /-- HOT_REFRESH_CLEAR (R551). A stack's temperature falls back to 85 °C or below and its refresh is no longer doubled. -/
  | hotRefreshClear (stack tempC : Nat)
  deriving DecidableEq, Repr

end Sys2Proof
end

