-- ==== Sys2Proof/Decode.lean ====
section
/-! DEFINITION. The table's words. The table of operations and events gives no row bits: a command reaches the block as a
register write, a packet, a descriptor or an event, and no word spells one (assumption 1). -/

namespace Sys2Proof

/-- The command that `nbits` bits `w` of the table spell: none, since no row has bits. -/
def decodeTableWord (_nbits _w : Nat) : Option Instr := none

end Sys2Proof
end

