-- ==== Sys2Proof/Machine/Operands.lean ====
section
/-! DEFINITION. The operand forms: the fields of a descriptor (Table 16-1) and how its opcode is taken (Table 16-3), and the
records that name where a ring's or a submission queue's descriptors come from (Tables 16-12, 16-13). -/

namespace Sys2Proof.Machine

/-! ## The descriptor (Table 16-1) -/

/-- A field of `len` bytes at byte `b` of a descriptor. -/
def dfield (d : DescBits) (b len : Nat) : Nat := bitsOf d (8 * b) (8 * len)
def dOpcode (d : DescBits) : Nat := dfield d 0 1
def dIrqNow (d : DescBits) : Bool := d.getLsbD 8
def dSeq (d : DescBits) : Nat := dfield d 2 2
def dTarget (d : DescBits) : Nat := dfield d 4 4
def dClass (d : DescBits) : Nat := bitsOf d 70 2
def dSlice (d : DescBits) : Nat := bitsOf d 64 6
def dCounter (d : DescBits) : Nat := bitsOf d 72 12
def dCredit (d : DescBits) : Bool := d.getLsbD 95
def dKeySlot (d : DescBits) : Nat := bitsOf d 96 8
def dKeyEpoch (d : DescBits) : Nat := bitsOf d 104 16

/-! Admission classes (Table 16-1). -/
def GUARANTEED : Nat := 0
def ELASTIC : Nat := 1
def SCAVENGE : Nat := 2

/-- Admission code of an opcode (Table 16-3). -/
inductive Kind where
  | t | n | i
  deriving DecidableEq, Repr

/-- Table 16-3: the assigned opcodes and how each is taken. -/
def opKind (op : Nat) : Option Kind :=
  if op ∈ [0x00, 0x01, 0x64] then some .i
  else if op ∈ [0x02, 0x03, 0x20, 0x26, 0x30, 0x40, 0x50, 0x59, 0x5A, 0x60, 0x70, 0x73, 0x74, 0xA0, 0xF0, 0xF1, 0xF2] then
    some .n
  else if op ∈ [0x04, 0x05, 0x10, 0x11, 0x21, 0x22, 0x23, 0x25, 0x24, 0x27, 0x31, 0x32] then some .t
  else if 0x41 ≤ op ∧ op ≤ 0x48 then some .t
  else if 0x51 ≤ op ∧ op ≤ 0x58 then some .t
  else if op ∈ [0x61, 0x62, 0x63, 0x65, 0x66, 0x67, 0x71, 0x72] then some .t
  else if 0x80 ≤ op ∧ op ≤ 0x8B then some .t
  else if 0x90 ≤ op ∧ op ≤ 0x93 then some .t
  else if op ∈ [0xA1, 0xA2] then some .t
  else none

/-! ## Ring records (Table 16-13) -/

def rgSqBase (r : Wide) : Nat := bitsOf r 0 52 * 4096
def rgSqLog (r : Wide) : Nat := bitsOf r 52 5
def rgCqLog (r : Wide) : Nat := bitsOf r 57 5
def rgCqBase (r : Wide) : Nat := bitsOf r 64 52 * 4096
def rgPort (r : Wide) : Nat := bitsOf r 116 3
def rgAssist (r : Wide) : Bool := r.getLsbD 119
def rgCtx (r : Wide) : Nat := bitsOf r 120 10
def rgKey (r : Wide) : Nat := bitsOf r 130 8
def rgMsix (r : Wide) : Nat := bitsOf r 138 10
def rgModCount (r : Wide) : Nat := bitsOf r 148 8
def rgModTime (r : Wide) : Nat := bitsOf r 156 10
def rgSlices (r : Wide) : Nat := bitsOf r 192 64

def sqSrcMask (r : Wide) : Nat := bitsOf r 0 16
def sqSrcMatch (r : Wide) : Nat := bitsOf r 16 16
def sqLog (r : Wide) : Nat := bitsOf r 32 4
def sqCqLog (r : Wide) : Nat := bitsOf r 36 4
def sqCtx (r : Wide) : Nat := bitsOf r 40 10
def sqKey (r : Wide) : Nat := bitsOf r 56 8
def sqCqAddr (r : Wide) : Nat := bitsOf r 64 64 / 64 * 64
def sqSlices (r : Wide) : Nat := bitsOf r 192 64

end Sys2Proof.Machine
end

