-- ==== Sys2Proof/Config.lean ====
section
/-! DEFINITION. What the manual leaves open, as constants without a body: nothing in Lean can evaluate them. -/

namespace Sys2Proof.Config

/-- A free number: the n-th value the device draws where the manual names none (a random key, a first write-sequence
generation, an undefined byte). Assumption 3. -/
opaque freeNat : Nat → Nat

/-- The nanoseconds or cycles a request or packet waited, which the congestion and port counters sum (R171); arguments:
draws made so far, requests or packets before it. Assumption 35. -/
opaque freeTime : Nat → Nat → Nat

/-- What a byte reads as when its line was last written under another memory key (R576, R581): a value unrelated to the
byte stored. Arguments: serial of the key it was written under, serial of the key it is read under, address, stored
byte. Assumption 4. -/
opaque scramble : Nat → Nat → Nat → BitVec 8 → BitVec 8

/-- The bytes that stand beside poison where a read returns poison; arguments: draws made, things emitted so far, address.
Assumption 87. -/
opaque poisonByte : Nat → Nat → Nat → BitVec 8

/-- The index of a granule in row `row` of a region's sketch, each row having its own hash (R258). Assumption 5. -/
opaque sketchIndex : Nat → Nat → Nat

/-- The activation functions of Table 10-3 on FP32 encodings: exact within 2 units in the last place, the same bits for the
same input on every unit (R322). Arguments: ACT code, FP32 encoding. Assumption 19. -/
opaque act : Nat → Nat → Nat

/-- The SHA-384 digest of a byte string. Assumption 20. -/
opaque sha384 : List (BitVec 8) → List (BitVec 8)

/-- AES-256-GCM: the plaintext of a sealed text under a key, when its tag verifies; arguments: key, IV, additional data,
ciphertext and tag (R583, R587). Assumption 20. -/
opaque gcmOpen : List (BitVec 8) → List (BitVec 8) → List (BitVec 8) → List (BitVec 8) → Option (List (BitVec 8))

/-- AES-256-GCM: ciphertext and tag of a plaintext. Assumption 20. -/
opaque gcmSeal : List (BitVec 8) → List (BitVec 8) → List (BitVec 8) → List (BitVec 8) → List (BitVec 8)

/-- An ECDSA P-384 signature of a byte string by the Alias key that the boot measurement M1 leads to (R562, R571), and the
certificate chain of SPDM slot 0 in the boot numbered so (R564). Assumption 20. -/
opaque aliasSign : List (BitVec 8) → List (BitVec 8) → List (BitVec 8)
opaque certChain : List (BitVec 8) → Nat → List (BitVec 8)

/-- What a read of memory that is private to the device returns (R455): address, tick. Assumption 21. -/
opaque privateByte : Nat → Nat → BitVec 8

/-- The hash that chooses a row's embedding cluster (R365), the hash of its row-cache set (R380), and its counter in a row of
a row-cache sketch (R383): fixed in the device and not stated. Arguments: (sketch row,) table number, row. Assumption 23. -/
opaque rowHash : Nat → Nat → Nat
opaque rowSet : Nat → Nat → Nat
opaque rowSketch : Nat → Nat → Nat → Nat

end Sys2Proof.Config
end

