-- ==== Sys2Proof/Machine/RegMap.lean ====
section
/-! DEFINITION. The BAR0 register map: every register of the tables that Table 18-1 names, its fields, their access
codes (Table 0-3) and their values after a cold reset (R7). -/

namespace Sys2Proof.Machine

/-- Access codes (Table 0-3). -/
inductive Acc where
  | ro | rw | w1c | wo | rwg
  deriving DecidableEq, Repr

/-- A register field: BAR0 offset of its register, lowest bit, width, access code, value after a cold reset. -/
structure Fld where
  off : Nat
  lo : Nat
  len : Nat
  acc : Acc
  rst : Nat
  deriving DecidableEq, Repr

/-- BAR0 offset of block `b` (Table 17-2). -/
def blockBase (b : Nat) : Nat := b * 0x10000

/-! Block indices in the order of R527. -/
def B_IDN : Nat := 0
def B_HIF : Nat := 1
def B_TIK : Nat := 2
def B_XLT : Nat := 3
def B_TIR : Nat := 4
def B_CDC : Nat := 5
def B_MTX : Nat := 6
def B_EMB : Nat := 7
def B_SRH : Nat := 8
def B_KVS : Nat := 9
def B_QUE : Nat := 10
def B_DIR : Nat := 11
def B_FAB : Nat := 12
def B_STK : Nat := 13
def B_SEC : Nat := 14
def B_RAS : Nat := 15
def B_PWR : Nat := 16
def B_CMP : Nat := 17
def B_MBX : Nat := 18

/-- How many blocks there are. -/
def blockCount : Nat := 19

namespace Reg

/-! Table 2-7 TIK control registers. -/
def TIK_CTRL : Nat := 0x020000
def TIK_STAT : Nat := 0x020004
def TIK_PERIOD : Nat := 0x020008
def TIK_LEAD : Nat := 0x02000C
def TIK_LULL : Nat := 0x020010
def TIK_DRIFT : Nat := 0x020014
def TIK_EVT : Nat := 0x020018
/-! Table 3-6 FAB addressing registers. -/
def FAB_DEVID : Nat := 0x0C0080
def FAB_DEVID_STAT : Nat := 0x0C0084
def FAB_WIN_SEL : Nat := 0x0C0200
def FAB_WIN_STAT : Nat := 0x0C0204
def FAB_WIN_COMMIT : Nat := 0x0C0208
def FAB_WIN_ERR : Nat := 0x0C020C
def FAB_WIN_EVT : Nat := 0x0C0210
/-! Table 4-12 FAB ordering registers. -/
def FAB_ORD_CTRL : Nat := 0x0C0300
def FAB_ARR_SEL : Nat := 0x0C0304
def FAB_EPOCH_SEL : Nat := 0x0C0308
def FAB_ORD_EVT : Nat := 0x0C030C
def FAB_ORD_STAT : Nat := 0x0C0310
/-! Table 5-12 FAB link and routing registers. -/
def FAB_CTRL : Nat := 0x0C0000
def FAB_PORT_SEL : Nat := 0x0C0008
def FAB_PORT_CTRL : Nat := 0x0C000C
def FAB_PORT_STAT : Nat := 0x0C0010
def FAB_PORT_EVT : Nat := 0x0C0014
def FAB_ESC_CTRL : Nat := 0x0C0018
def FAB_REQ_CTRL : Nat := 0x0C001C
def FAB_TAG_STAT : Nat := 0x0C0020
def FAB_TICK_TREE : Nat := 0x0C0024
def FAB_TICK_CHILD : Nat := 0x0C0028
def FAB_TS_CTRL : Nat := 0x0C002C
def FAB_EVT : Nat := 0x0C0030
def FAB_ROUTE_SEL : Nat := 0x0C0034
def FAB_MC_SEL : Nat := 0x0C0038
def FAB_CONG_SEL : Nat := 0x0C003C
def FAB_VC_CFG (i : Nat) : Nat := 0x0C0040 + 4 * i
def FAB_OWN_SEL : Nat := 0x0C0060
def FAB_OWN_ENTRY : Nat := 0x0C0064
/-! Table 6-10 HIF host registers. -/
def HIF_PORT_SEL : Nat := 0x010000
def HIF_PORT_STAT : Nat := 0x010004
def HIF_PORT_CFG : Nat := 0x010008
def HIF_LAYOUT : Nat := 0x01000C
def HIF_EXT_SEL : Nat := 0x010010
def HIF_EXT_ENTRY : Nat := 0x010014
def HIF_EXT_ERR : Nat := 0x010018
def HIF_SHR_SEL : Nat := 0x01001C
def HIF_SHR_COMMIT : Nat := 0x010020
def HIF_EVT : Nat := 0x010024
/-! Table 6-11 DIR registers. -/
def DIR_CTRL : Nat := 0x0B0000
def DIR_BI_TIMEOUT : Nat := 0x0B0004
def DIR_STAT : Nat := 0x0B0008
def DIR_DOMAIN_RESET : Nat := 0x0B000C
def DIR_EVT : Nat := 0x0B0010
/-! Table 7-14 XLT control registers. -/
def XLT_CTX_SEL : Nat := 0x030000
def XLT_CTX_COMMIT : Nat := 0x030004
def XLT_CTX_ERR : Nat := 0x030008
def XLT_MISS_TIMEOUT : Nat := 0x03000C
def XLT_MIG_TIMEOUT : Nat := 0x030010
def XLT_STAT : Nat := 0x030014
def XLT_EVT : Nat := 0x030018
/-! Table 8-7 TIR control registers. -/
def TIR_REGION_SEL : Nat := 0x040000
def TIR_SPLIT : Nat := 0x040004
def TIR_SPLIT_STAT : Nat := 0x040008
def TIR_POLICY : Nat := 0x04000C
def TIR_AGE : Nat := 0x040010
def TIR_RATE : Nat := 0x040014
def TIR_ASSIST : Nat := 0x040018
def TIR_DEADLINE : Nat := 0x04001C
def TIR_DL_MIN : Nat := 0x040020
def TIR_STAT : Nat := 0x040024
def TIR_ERR : Nat := 0x040028
def TIR_EVT : Nat := 0x04002C
/-! Table 9-12 CDC control registers. -/
def CDC_TABLE_SEL : Nat := 0x050000
def CDC_TABLE_STAT : Nat := 0x050004
def CDC_STAT : Nat := 0x050008
def CDC_EVT : Nat := 0x05000C
/-! Table 10-14 MTX control registers. -/
def MTX_PROG_SEL : Nat := 0x060000
def MTX_PROG_STAT : Nat := 0x060004
def MTX_CLUSTER_SEL : Nat := 0x060008
def MTX_CLUSTER_STAT : Nat := 0x06000C
def MTX_STAT : Nat := 0x060010
def MTX_EVT : Nat := 0x060014
/-! Table 11-11 EMB control registers. -/
def EMB_TBL_SEL : Nat := 0x070000
def EMB_TBL_STAT : Nat := 0x070004
def EMB_PRIV_SEL : Nat := 0x070008
def EMB_PRIV_ENTRY : Nat := 0x07000C
def EMB_RC_POLICY : Nat := 0x070010
def EMB_RC_AGE : Nat := 0x070014
def EMB_RC_ASSIST : Nat := 0x070018
def EMB_STAT : Nat := 0x07001C
def EMB_EVT : Nat := 0x070020
def EMB_CLUSTER_SEL : Nat := 0x070024
def EMB_CLUSTER_STAT : Nat := 0x070028
/-! Table 12-10 EMB update registers. -/
def EMB_UPD_STAT : Nat := 0x070040
def EMB_UPD_EVT : Nat := 0x070044
/-! Table 13-12 SRH control registers. -/
def SRH_IDX_SEL : Nat := 0x080000
def SRH_IDX_STAT : Nat := 0x080004
def SRH_CHAN_SEL : Nat := 0x080008
def SRH_CHAN_STAT : Nat := 0x08000C
def SRH_MERGE_POLICY : Nat := 0x080010
def SRH_ASSIST : Nat := 0x080014
def SRH_STAT : Nat := 0x080018
def SRH_EVT : Nat := 0x08001C
/-! Table 14-10 KVS control registers. -/
def KVS_POOL_SEL : Nat := 0x090000
def KVS_POOL_STAT : Nat := 0x090004
def KVS_HOT : Nat := 0x090008
def KVS_ASSIST : Nat := 0x09000C
def KVS_STAT : Nat := 0x090010
def KVS_RS_STAT : Nat := 0x090014
def KVS_EVT : Nat := 0x090018
/-! Table 15-8 QUE control registers. -/
def QUE_Q_SEL : Nat := 0x0A0000
def QUE_Q_STAT : Nat := 0x0A0004
def QUE_Q_COUNT : Nat := 0x0A0008
def QUE_STAT : Nat := 0x0A000C
def QUE_EVT : Nat := 0x0A0010
/-! Table 16-15 HIF ring registers. -/
def HIF_FN_MODE : Nat := 0x010080
def HIF_RING_SEL : Nat := 0x010100
def HIF_RING_CTRL : Nat := 0x010104
def HIF_RING_STAT : Nat := 0x010108
def HIF_RING_ERR : Nat := 0x01010C
def HIF_RING_EVT : Nat := 0x010110
/-! Table 16-16 FAB submission-queue registers. -/
def FAB_SUBQ_SEL : Nat := 0x0C0400
def FAB_SUBQ_CTRL : Nat := 0x0C0404
def FAB_SUBQ_STAT : Nat := 0x0C0408
def FAB_SUBQ_EVT : Nat := 0x0C040C
/-! Table 18-3 IDN registers. -/
def IDN_PART : Nat := 0x000000
def IDN_BOOT : Nat := 0x000004
def IDN_RESET_CAUSE : Nat := 0x000008
def IDN_EVT_SUM : Nat := 0x00000C
def IDN_FN_RESET : Nat := 0x000010
def IDN_EVT : Nat := 0x000014
def IDN_IRQ (i : Nat) : Nat := 0x000040 + 4 * i
/-! Table 18-5 STK registers. -/
def STK_CHAN_SEL : Nat := 0x0D0000
def STK_CHAN_STAT : Nat := 0x0D0004
def STK_STACK_SEL : Nat := 0x0D0008
def STK_STACK_STAT : Nat := 0x0D000C
def STK_SCRUB : Nat := 0x0D0010
def STK_STAT : Nat := 0x0D0014
def STK_EVT : Nat := 0x0D0018
/-! Table 18-7 PWR registers. -/
def PWR_CAP : Nat := 0x100000
def PWR_FLOOR : Nat := 0x100004
def PWR_EFF : Nat := 0x100008
def PWR_THERM : Nat := 0x10000C
def PWR_TEMP : Nat := 0x100010
def PWR_LAST : Nat := 0x100014
def PWR_ISLAND_REQ : Nat := 0x100018
def PWR_ISLAND_STAT : Nat := 0x10001C
def PWR_EVT : Nat := 0x100020
/-! Table 18-9 SEC registers. -/
def SEC_STAT : Nat := 0x0E0000
def SEC_SLOT_SEL : Nat := 0x0E0004
def SEC_SLOT_STAT : Nat := 0x0E0008
def SEC_SLOT_CTRL : Nat := 0x0E000C
def SEC_OTP_CTRL : Nat := 0x0E0010
def SEC_EVT : Nat := 0x0E0014
/-! Table 18-10 RAS registers. -/
def RAS_STAT : Nat := 0x0F0000
def RAS_CTRL : Nat := 0x0F0004
def RAS_PG_SEL : Nat := 0x0F0008
def RAS_PG_COMMIT : Nat := 0x0F000C
def RAS_ERR : Nat := 0x0F0010
def RAS_EVT : Nat := 0x0F0014
/-! Table 18-11 CMP registers. -/
def CMP_SLICE_SEL : Nat := 0x110000
def CMP_SLICE_STAT : Nat := 0x110004
def CMP_SLICE_COMMIT : Nat := 0x110008
def CMP_ERR : Nat := 0x11000C
def CMP_STAT : Nat := 0x110010
def CMP_EVT : Nat := 0x110014
/-! Table 17-7: the guard page of block `b`. -/
def GRD_PORT_EN (b : Nat) : Nat := b * 0x10000 + 0x0F00
def GRD_REJECTS (b : Nat) : Nat := b * 0x10000 + 0x0F04
def GRD_LAST_ADDR (b : Nat) : Nat := b * 0x10000 + 0x0F08
def GRD_LAST_DATA (b : Nat) : Nat := b * 0x10000 + 0x0F0C
def GRD_LAST_INFO (b : Nat) : Nat := b * 0x10000 + 0x0F10
def GRD_LAST_TICK (b : Nat) : Nat := b * 0x10000 + 0x0F14
def GRD_EVT (b : Nat) : Nat := b * 0x10000 + 0x0F18

end Reg

namespace F

def TIK_CTRL_SRC : Fld := ⟨Reg.TIK_CTRL, 4, 2, .rwg, 1⟩
def TIK_CTRL_MASTER : Fld := ⟨Reg.TIK_CTRL, 3, 1, .rwg, 0⟩
def TIK_CTRL_TICK_OUT_EN : Fld := ⟨Reg.TIK_CTRL, 2, 1, .rwg, 0⟩
def TIK_CTRL_PTP_EN : Fld := ⟨Reg.TIK_CTRL, 1, 1, .rwg, 1⟩
def TIK_CTRL_RUN : Fld := ⟨Reg.TIK_CTRL, 0, 1, .rwg, 0⟩
def TIK_STAT_OFFSET_NS : Fld := ⟨Reg.TIK_STAT, 8, 8, .ro, 0xff⟩
def TIK_STAT_SYNC : Fld := ⟨Reg.TIK_STAT, 0, 3, .ro, 0⟩
def TIK_PERIOD_PERIOD_US : Fld := ⟨Reg.TIK_PERIOD, 0, 17, .rwg, 0x3e8⟩
def TIK_LEAD_LEAD_US : Fld := ⟨Reg.TIK_LEAD, 0, 17, .rw, 0xa⟩
def TIK_LULL_MAINT_PCT : Fld := ⟨Reg.TIK_LULL, 24, 7, .rwg, 0x32⟩
def TIK_LULL_LULL_PHASE : Fld := ⟨Reg.TIK_LULL, 12, 12, .rwg, 0x3e7⟩
def TIK_LULL_LULL_EVERY : Fld := ⟨Reg.TIK_LULL, 0, 12, .rwg, 0x3e8⟩
def TIK_DRIFT_DRIFT_PPB : Fld := ⟨Reg.TIK_DRIFT, 0, 16, .rw, 0x64⟩
def TIK_EVT_PLAN_ENDED : Fld := ⟨Reg.TIK_EVT, 5, 1, .w1c, 0⟩
def TIK_EVT_PLAN_SWITCH : Fld := ⟨Reg.TIK_EVT, 4, 1, .w1c, 0⟩
def TIK_EVT_OVERRUN : Fld := ⟨Reg.TIK_EVT, 3, 1, .w1c, 0⟩
def TIK_EVT_LOST : Fld := ⟨Reg.TIK_EVT, 2, 1, .w1c, 0⟩
def TIK_EVT_HOLDOVER : Fld := ⟨Reg.TIK_EVT, 1, 1, .w1c, 0⟩
def TIK_EVT_PERIOD_CHANGE : Fld := ⟨Reg.TIK_EVT, 0, 1, .w1c, 0⟩
def FAB_DEVID_DEVID : Fld := ⟨Reg.FAB_DEVID, 0, 14, .rwg, 0⟩
def FAB_DEVID_STAT_JOINED : Fld := ⟨Reg.FAB_DEVID_STAT, 1, 1, .ro, 0⟩
def FAB_DEVID_STAT_SET : Fld := ⟨Reg.FAB_DEVID_STAT, 0, 1, .ro, 0⟩
def FAB_WIN_SEL_WIN : Fld := ⟨Reg.FAB_WIN_SEL, 0, 10, .rw, 0⟩
def FAB_WIN_STAT_PENDING : Fld := ⟨Reg.FAB_WIN_STAT, 31, 1, .ro, 0⟩
def FAB_WIN_STAT_DRAINING : Fld := ⟨Reg.FAB_WIN_STAT, 30, 1, .ro, 0⟩
def FAB_WIN_STAT_VALID_COUNT : Fld := ⟨Reg.FAB_WIN_STAT, 0, 11, .ro, 0⟩
def FAB_WIN_COMMIT_DISCARD : Fld := ⟨Reg.FAB_WIN_COMMIT, 1, 1, .rwg, 0⟩
def FAB_WIN_COMMIT_APPLY : Fld := ⟨Reg.FAB_WIN_COMMIT, 0, 1, .rwg, 0⟩
def FAB_WIN_ERR_WIN : Fld := ⟨Reg.FAB_WIN_ERR, 16, 10, .ro, 0⟩
def FAB_WIN_ERR_REASON : Fld := ⟨Reg.FAB_WIN_ERR, 0, 16, .ro, 0⟩
def FAB_WIN_EVT_COMMIT_REFUSED : Fld := ⟨Reg.FAB_WIN_EVT, 2, 1, .w1c, 0⟩
def FAB_WIN_EVT_DRAINED : Fld := ⟨Reg.FAB_WIN_EVT, 1, 1, .w1c, 0⟩
def FAB_WIN_EVT_APPLIED : Fld := ⟨Reg.FAB_WIN_EVT, 0, 1, .w1c, 0⟩
def FAB_ORD_CTRL_FLAG_TIMEOUT_US : Fld := ⟨Reg.FAB_ORD_CTRL, 0, 16, .rw, 0x7d0⟩
def FAB_ARR_SEL_CTR : Fld := ⟨Reg.FAB_ARR_SEL, 0, 12, .rw, 0⟩
def FAB_EPOCH_SEL_ORIGIN : Fld := ⟨Reg.FAB_EPOCH_SEL, 0, 14, .rw, 0⟩
def FAB_ORD_EVT_NOTIFY_FAIL : Fld := ⟨Reg.FAB_ORD_EVT, 3, 1, .w1c, 0⟩
def FAB_ORD_EVT_STALE : Fld := ⟨Reg.FAB_ORD_EVT, 2, 1, .w1c, 0⟩
def FAB_ORD_EVT_FLAG_TIMEOUT : Fld := ⟨Reg.FAB_ORD_EVT, 1, 1, .w1c, 0⟩
def FAB_ORD_EVT_EPOCH_ADVANCE : Fld := ⟨Reg.FAB_ORD_EVT, 0, 1, .w1c, 0⟩
def FAB_ORD_STAT_FLAGS_HELD : Fld := ⟨Reg.FAB_ORD_STAT, 0, 13, .ro, 0⟩
def FAB_CTRL_LEAVE : Fld := ⟨Reg.FAB_CTRL, 1, 1, .rwg, 0⟩
def FAB_CTRL_JOIN : Fld := ⟨Reg.FAB_CTRL, 0, 1, .rwg, 0⟩
def FAB_PORT_SEL_PORT : Fld := ⟨Reg.FAB_PORT_SEL, 0, 5, .rw, 0⟩
def FAB_PORT_CTRL_MIN_LANES : Fld := ⟨Reg.FAB_PORT_CTRL, 8, 2, .rw, 0⟩
def FAB_PORT_CTRL_RETRAIN : Fld := ⟨Reg.FAB_PORT_CTRL, 1, 1, .wo, 0⟩
def FAB_PORT_CTRL_ENABLE : Fld := ⟨Reg.FAB_PORT_CTRL, 0, 1, .rw, 0⟩
def FAB_PORT_STAT_LANE_GOOD : Fld := ⟨Reg.FAB_PORT_STAT, 16, 8, .ro, 0⟩
def FAB_PORT_STAT_WIDTH : Fld := ⟨Reg.FAB_PORT_STAT, 8, 4, .ro, 0⟩
def FAB_PORT_STAT_STATE : Fld := ⟨Reg.FAB_PORT_STAT, 0, 4, .ro, 0⟩
def FAB_PORT_EVT_RETRY_LIMIT : Fld := ⟨Reg.FAB_PORT_EVT, 4, 1, .w1c, 0⟩
def FAB_PORT_EVT_RETRAIN : Fld := ⟨Reg.FAB_PORT_EVT, 3, 1, .w1c, 0⟩
def FAB_PORT_EVT_FAILED : Fld := ⟨Reg.FAB_PORT_EVT, 2, 1, .w1c, 0⟩
def FAB_PORT_EVT_DEGRADED : Fld := ⟨Reg.FAB_PORT_EVT, 1, 1, .w1c, 0⟩
def FAB_PORT_EVT_STATE_CHANGE : Fld := ⟨Reg.FAB_PORT_EVT, 0, 1, .w1c, 0⟩
def FAB_ESC_CTRL_ESC_NS : Fld := ⟨Reg.FAB_ESC_CTRL, 0, 16, .rw, 0xc8⟩
def FAB_REQ_CTRL_TIMEOUT_US : Fld := ⟨Reg.FAB_REQ_CTRL, 0, 16, .rw, 0x7d0⟩
def FAB_TAG_STAT_IN_USE : Fld := ⟨Reg.FAB_TAG_STAT, 0, 17, .ro, 0⟩
def FAB_TICK_TREE_PARENT_VALID : Fld := ⟨Reg.FAB_TICK_TREE, 5, 1, .rw, 0⟩
def FAB_TICK_TREE_PARENT : Fld := ⟨Reg.FAB_TICK_TREE, 0, 5, .rw, 0⟩
def FAB_TICK_CHILD_CHILD : Fld := ⟨Reg.FAB_TICK_CHILD, 0, 32, .rw, 0⟩
def FAB_TS_CTRL_FORCED : Fld := ⟨Reg.FAB_TS_CTRL, 1, 1, .ro, 0⟩
def FAB_TS_CTRL_NORMAL : Fld := ⟨Reg.FAB_TS_CTRL, 0, 1, .rw, 0⟩
def FAB_EVT_TIMEOUT : Fld := ⟨Reg.FAB_EVT, 5, 1, .w1c, 0⟩
def FAB_EVT_DROP : Fld := ⟨Reg.FAB_EVT, 4, 1, .w1c, 0⟩
def FAB_EVT_NO_ROUTE : Fld := ⟨Reg.FAB_EVT, 3, 1, .w1c, 0⟩
def FAB_EVT_OWN_REFUSED : Fld := ⟨Reg.FAB_EVT, 2, 1, .w1c, 0⟩
def FAB_EVT_LEFT : Fld := ⟨Reg.FAB_EVT, 1, 1, .w1c, 0⟩
def FAB_EVT_JOINED : Fld := ⟨Reg.FAB_EVT, 0, 1, .w1c, 0⟩
def FAB_ROUTE_SEL_DEST : Fld := ⟨Reg.FAB_ROUTE_SEL, 0, 16, .rw, 0⟩
def FAB_MC_SEL_GROUP : Fld := ⟨Reg.FAB_MC_SEL, 0, 12, .rw, 0⟩
def FAB_CONG_SEL_WIN : Fld := ⟨Reg.FAB_CONG_SEL, 16, 10, .rw, 0⟩
def FAB_CONG_SEL_DEST : Fld := ⟨Reg.FAB_CONG_SEL, 0, 16, .rw, 0⟩
def FAB_VC_CFG_ESC (i : Nat) : Fld := ⟨Reg.FAB_VC_CFG i, 16, 12, .rw, 0⟩
def FAB_VC_CFG_ADAPT (i : Nat) : Fld := ⟨Reg.FAB_VC_CFG i, 0, 12, .rw, 0⟩
def FAB_OWN_SEL_GRANULE : Fld := ⟨Reg.FAB_OWN_SEL, 0, 15, .rw, 0⟩
def FAB_OWN_ENTRY_MODE : Fld := ⟨Reg.FAB_OWN_ENTRY, 16, 2, .rwg, 0⟩
def FAB_OWN_ENTRY_OWNER : Fld := ⟨Reg.FAB_OWN_ENTRY, 0, 16, .rwg, 0⟩
def HIF_PORT_SEL_PORT : Fld := ⟨Reg.HIF_PORT_SEL, 0, 3, .rw, 0⟩
def HIF_PORT_STAT_DEC_COMMITTED : Fld := ⟨Reg.HIF_PORT_STAT, 8, 3, .ro, 0⟩
def HIF_PORT_STAT_RATE : Fld := ⟨Reg.HIF_PORT_STAT, 6, 2, .ro, 0⟩
def HIF_PORT_STAT_WIDTH : Fld := ⟨Reg.HIF_PORT_STAT, 1, 5, .ro, 0⟩
def HIF_PORT_STAT_LINK_UP : Fld := ⟨Reg.HIF_PORT_STAT, 0, 1, .ro, 0⟩
def HIF_PORT_CFG_SLICE : Fld := ⟨Reg.HIF_PORT_CFG, 0, 6, .rwg, 0⟩
def HIF_LAYOUT_COH_GIB : Fld := ⟨Reg.HIF_LAYOUT, 22, 10, .rwg, 0⟩
def HIF_LAYOUT_SHR_GIB : Fld := ⟨Reg.HIF_LAYOUT, 11, 11, .rwg, 0⟩
def HIF_LAYOUT_PART_GIB : Fld := ⟨Reg.HIF_LAYOUT, 0, 11, .rwg, 0⟩
def HIF_EXT_SEL_EXT : Fld := ⟨Reg.HIF_EXT_SEL, 0, 11, .rw, 0⟩
def HIF_EXT_ENTRY_STATE : Fld := ⟨Reg.HIF_EXT_ENTRY, 30, 2, .rwg, 0⟩
def HIF_EXT_ENTRY_PORT : Fld := ⟨Reg.HIF_EXT_ENTRY, 27, 3, .rwg, 0⟩
def HIF_EXT_ENTRY_DEC : Fld := ⟨Reg.HIF_EXT_ENTRY, 25, 2, .rwg, 0⟩
def HIF_EXT_ENTRY_HDM_EXT : Fld := ⟨Reg.HIF_EXT_ENTRY, 14, 11, .rwg, 0⟩
def HIF_EXT_ENTRY_SHR : Fld := ⟨Reg.HIF_EXT_ENTRY, 8, 6, .rwg, 0⟩
def HIF_EXT_ENTRY_KEY_SLOT : Fld := ⟨Reg.HIF_EXT_ENTRY, 0, 8, .rwg, 0⟩
def HIF_EXT_ERR_EXT : Fld := ⟨Reg.HIF_EXT_ERR, 16, 11, .ro, 0⟩
def HIF_EXT_ERR_REASON : Fld := ⟨Reg.HIF_EXT_ERR, 0, 16, .ro, 0⟩
def HIF_SHR_SEL_RANGE : Fld := ⟨Reg.HIF_SHR_SEL, 0, 6, .rw, 0⟩
def HIF_SHR_COMMIT_APPLY : Fld := ⟨Reg.HIF_SHR_COMMIT, 0, 1, .rwg, 0⟩
def HIF_EVT_LINK_CHANGE : Fld := ⟨Reg.HIF_EVT, 3, 1, .w1c, 0⟩
def HIF_EVT_SHR_BROKEN : Fld := ⟨Reg.HIF_EVT, 2, 1, .w1c, 0⟩
def HIF_EVT_DROP : Fld := ⟨Reg.HIF_EVT, 1, 1, .w1c, 0⟩
def HIF_EVT_REVOKED : Fld := ⟨Reg.HIF_EVT, 0, 1, .w1c, 0⟩
def DIR_CTRL_MIN_HOLD : Fld := ⟨Reg.DIR_CTRL, 0, 7, .rw, 4⟩
def DIR_BI_TIMEOUT_US : Fld := ⟨Reg.DIR_BI_TIMEOUT, 0, 16, .rw, 0x7d0⟩
def DIR_STAT_DOMAIN : Fld := ⟨Reg.DIR_STAT, 30, 2, .ro, 0⟩
def DIR_STAT_IN_USE : Fld := ⟨Reg.DIR_STAT, 0, 26, .ro, 0⟩
def DIR_DOMAIN_RESET_RESET : Fld := ⟨Reg.DIR_DOMAIN_RESET, 0, 1, .rwg, 0⟩
def DIR_EVT_CAP_RECALL : Fld := ⟨Reg.DIR_EVT, 3, 1, .w1c, 0⟩
def DIR_EVT_RESET_DONE : Fld := ⟨Reg.DIR_EVT, 2, 1, .w1c, 0⟩
def DIR_EVT_WALK_DONE : Fld := ⟨Reg.DIR_EVT, 1, 1, .w1c, 0⟩
def DIR_EVT_DOMAIN_DOWN : Fld := ⟨Reg.DIR_EVT, 0, 1, .w1c, 0⟩
def XLT_CTX_SEL_MR : Fld := ⟨Reg.XLT_CTX_SEL, 10, 3, .rw, 0⟩
def XLT_CTX_SEL_CTX : Fld := ⟨Reg.XLT_CTX_SEL, 0, 10, .rw, 0⟩
def XLT_CTX_COMMIT_APPLY : Fld := ⟨Reg.XLT_CTX_COMMIT, 0, 1, .rwg, 0⟩
def XLT_CTX_ERR_CTX : Fld := ⟨Reg.XLT_CTX_ERR, 16, 10, .ro, 0⟩
def XLT_CTX_ERR_REASON : Fld := ⟨Reg.XLT_CTX_ERR, 0, 16, .ro, 0⟩
def XLT_MISS_TIMEOUT_US : Fld := ⟨Reg.XLT_MISS_TIMEOUT, 0, 16, .rw, 0x3e8⟩
def XLT_MIG_TIMEOUT_US : Fld := ⟨Reg.XLT_MIG_TIMEOUT, 0, 16, .rw, 0x2710⟩
def XLT_STAT_MIG_ACTIVE : Fld := ⟨Reg.XLT_STAT, 16, 9, .ro, 0⟩
def XLT_STAT_ASSIST_PENDING : Fld := ⟨Reg.XLT_STAT, 0, 11, .ro, 0⟩
def XLT_EVT_MIG_FAILED : Fld := ⟨Reg.XLT_EVT, 4, 1, .w1c, 0⟩
def XLT_EVT_FILL_STALE : Fld := ⟨Reg.XLT_EVT, 3, 1, .w1c, 0⟩
def XLT_EVT_MISS_TIMEOUT : Fld := ⟨Reg.XLT_EVT, 2, 1, .w1c, 0⟩
def XLT_EVT_CTX_APPLIED : Fld := ⟨Reg.XLT_EVT, 1, 1, .w1c, 0⟩
def XLT_EVT_CTX_REFUSED : Fld := ⟨Reg.XLT_EVT, 0, 1, .w1c, 0⟩
def TIR_REGION_SEL_REGION : Fld := ⟨Reg.TIR_REGION_SEL, 0, 5, .rw, 0⟩
def TIR_SPLIT_TIER : Fld := ⟨Reg.TIR_SPLIT, 24, 8, .rwg, 0⟩
def TIR_SPLIT_RCACHE : Fld := ⟨Reg.TIR_SPLIT, 16, 8, .rwg, 0⟩
def TIR_SPLIT_KVHOT : Fld := ⟨Reg.TIR_SPLIT, 8, 8, .rwg, 0⟩
def TIR_SPLIT_SCRATCH : Fld := ⟨Reg.TIR_SPLIT, 0, 8, .rwg, 0⟩
def TIR_SPLIT_STAT_PENDING : Fld := ⟨Reg.TIR_SPLIT_STAT, 31, 1, .ro, 0⟩
def TIR_SPLIT_STAT_FREE : Fld := ⟨Reg.TIR_SPLIT_STAT, 16, 8, .ro, 0x80⟩
def TIR_SPLIT_STAT_SCRATCH_USED : Fld := ⟨Reg.TIR_SPLIT_STAT, 0, 8, .ro, 0⟩
def TIR_POLICY_HYST : Fld := ⟨Reg.TIR_POLICY, 16, 8, .rw, 8⟩
def TIR_POLICY_DEMOTE_BELOW : Fld := ⟨Reg.TIR_POLICY, 8, 8, .rw, 4⟩
def TIR_POLICY_PROMOTE_AT : Fld := ⟨Reg.TIR_POLICY, 0, 8, .rw, 0x20⟩
def TIR_AGE_AGE_TICKS : Fld := ⟨Reg.TIR_AGE, 0, 16, .rw, 0x64⟩
def TIR_RATE_PIN_MAX_PCT : Fld := ⟨Reg.TIR_RATE, 24, 7, .rw, 0x19⟩
def TIR_RATE_SKIP_PCT : Fld := ⟨Reg.TIR_RATE, 16, 7, .rw, 0x5a⟩
def TIR_RATE_MAX_PROMOTE : Fld := ⟨Reg.TIR_RATE, 0, 16, .rw, 0x800⟩
def TIR_ASSIST_MAX_RECORDS : Fld := ⟨Reg.TIR_ASSIST, 0, 8, .rw, 0x10⟩
def TIR_DEADLINE_GUARD_US : Fld := ⟨Reg.TIR_DEADLINE, 0, 16, .rw, 0x14⟩
def TIR_DL_MIN_FLASH : Fld := ⟨Reg.TIR_DL_MIN, 16, 8, .rw, 0x3c⟩
def TIR_DL_MIN_REMOTE : Fld := ⟨Reg.TIR_DL_MIN, 8, 8, .rw, 0xa⟩
def TIR_DL_MIN_HOST : Fld := ⟨Reg.TIR_DL_MIN, 0, 8, .rw, 5⟩
def TIR_STAT_PINNED : Fld := ⟨Reg.TIR_STAT, 16, 16, .ro, 0⟩
def TIR_STAT_PROMOTED : Fld := ⟨Reg.TIR_STAT, 0, 16, .ro, 0⟩
def TIR_ERR_REGION : Fld := ⟨Reg.TIR_ERR, 16, 5, .ro, 0⟩
def TIR_ERR_REASON : Fld := ⟨Reg.TIR_ERR, 0, 16, .ro, 0⟩
def TIR_EVT_PART_LOST : Fld := ⟨Reg.TIR_EVT, 4, 1, .w1c, 0⟩
def TIR_EVT_LATE : Fld := ⟨Reg.TIR_EVT, 3, 1, .w1c, 0⟩
def TIR_EVT_NOM_DROPPED : Fld := ⟨Reg.TIR_EVT, 2, 1, .w1c, 0⟩
def TIR_EVT_SPLIT_REFUSED : Fld := ⟨Reg.TIR_EVT, 1, 1, .w1c, 0⟩
def TIR_EVT_SPLIT_APPLIED : Fld := ⟨Reg.TIR_EVT, 0, 1, .w1c, 0⟩
def CDC_TABLE_SEL_CHUNK : Fld := ⟨Reg.CDC_TABLE_SEL, 10, 3, .rw, 0⟩
def CDC_TABLE_SEL_TABLE : Fld := ⟨Reg.CDC_TABLE_SEL, 0, 10, .rw, 0⟩
def CDC_TABLE_STAT_STATE : Fld := ⟨Reg.CDC_TABLE_STAT, 30, 2, .ro, 0⟩
def CDC_TABLE_STAT_SLICE : Fld := ⟨Reg.CDC_TABLE_STAT, 16, 6, .ro, 0⟩
def CDC_TABLE_STAT_FORMAT : Fld := ⟨Reg.CDC_TABLE_STAT, 0, 4, .ro, 0⟩
def CDC_STAT_VALID_TABLES : Fld := ⟨Reg.CDC_STAT, 16, 11, .ro, 0⟩
def CDC_STAT_BUILDING : Fld := ⟨Reg.CDC_STAT, 0, 7, .ro, 0⟩
def CDC_EVT_ADOPT_SHORT : Fld := ⟨Reg.CDC_EVT, 4, 1, .w1c, 0⟩
def CDC_EVT_DECODE_ERROR : Fld := ⟨Reg.CDC_EVT, 3, 1, .w1c, 0⟩
def CDC_EVT_CLASS_OVER : Fld := ⟨Reg.CDC_EVT, 2, 1, .w1c, 0⟩
def CDC_EVT_PLAIN_OVERWRITE : Fld := ⟨Reg.CDC_EVT, 1, 1, .w1c, 0⟩
def CDC_EVT_TABLE_FREED : Fld := ⟨Reg.CDC_EVT, 0, 1, .w1c, 0⟩
def MTX_PROG_SEL_SLOT : Fld := ⟨Reg.MTX_PROG_SEL, 0, 8, .rw, 0⟩
def MTX_PROG_STAT_STATE : Fld := ⟨Reg.MTX_PROG_STAT, 30, 2, .ro, 0⟩
def MTX_PROG_STAT_SLICE : Fld := ⟨Reg.MTX_PROG_STAT, 16, 6, .ro, 0⟩
def MTX_PROG_STAT_GEN : Fld := ⟨Reg.MTX_PROG_STAT, 8, 8, .ro, 0⟩
def MTX_PROG_STAT_RUNS : Fld := ⟨Reg.MTX_PROG_STAT, 0, 8, .ro, 0⟩
def MTX_CLUSTER_SEL_CLUSTER : Fld := ⟨Reg.MTX_CLUSTER_SEL, 0, 7, .rw, 0⟩
def MTX_CLUSTER_STAT_IN_SERVICE : Fld := ⟨Reg.MTX_CLUSTER_STAT, 31, 1, .ro, 1⟩
def MTX_CLUSTER_STAT_V_FAILED : Fld := ⟨Reg.MTX_CLUSTER_STAT, 30, 1, .ro, 0⟩
def MTX_CLUSTER_STAT_FAILED_SLOTS : Fld := ⟨Reg.MTX_CLUSTER_STAT, 13, 9, .ro, 0⟩
def MTX_CLUSTER_STAT_BUF_USED_KIB : Fld := ⟨Reg.MTX_CLUSTER_STAT, 0, 13, .ro, 0⟩
def MTX_STAT_OUT_OF_SERVICE : Fld := ⟨Reg.MTX_STAT, 16, 7, .ro, 0⟩
def MTX_STAT_LOADED : Fld := ⟨Reg.MTX_STAT, 0, 9, .ro, 0⟩
def MTX_EVT_INT_SAT : Fld := ⟨Reg.MTX_EVT, 5, 1, .w1c, 0⟩
def MTX_EVT_CLUSTER_LOST : Fld := ⟨Reg.MTX_EVT, 4, 1, .w1c, 0⟩
def MTX_EVT_POISON : Fld := ⟨Reg.MTX_EVT, 3, 1, .w1c, 0⟩
def MTX_EVT_UNLOADED : Fld := ⟨Reg.MTX_EVT, 2, 1, .w1c, 0⟩
def MTX_EVT_LOAD_REFUSED : Fld := ⟨Reg.MTX_EVT, 1, 1, .w1c, 0⟩
def MTX_EVT_LOADED : Fld := ⟨Reg.MTX_EVT, 0, 1, .w1c, 0⟩
def EMB_TBL_SEL_TABLE : Fld := ⟨Reg.EMB_TBL_SEL, 0, 16, .rw, 0⟩
def EMB_TBL_STAT_STATE : Fld := ⟨Reg.EMB_TBL_STAT, 30, 2, .ro, 0⟩
def EMB_TBL_STAT_PRIV : Fld := ⟨Reg.EMB_TBL_STAT, 29, 1, .ro, 0⟩
def EMB_TBL_STAT_POLICY : Fld := ⟨Reg.EMB_TBL_STAT, 28, 1, .ro, 0⟩
def EMB_TBL_STAT_UPDATABLE : Fld := ⟨Reg.EMB_TBL_STAT, 27, 1, .ro, 0⟩
def EMB_TBL_STAT_SLICE : Fld := ⟨Reg.EMB_TBL_STAT, 16, 6, .ro, 0⟩
def EMB_TBL_STAT_LIVE_IMAGES : Fld := ⟨Reg.EMB_TBL_STAT, 0, 3, .ro, 0⟩
def EMB_PRIV_SEL_ENTRY : Fld := ⟨Reg.EMB_PRIV_SEL, 0, 10, .rw, 0⟩
def EMB_PRIV_ENTRY_VALID : Fld := ⟨Reg.EMB_PRIV_ENTRY, 31, 1, .rwg, 0⟩
def EMB_PRIV_ENTRY_TABLE : Fld := ⟨Reg.EMB_PRIV_ENTRY, 0, 16, .rwg, 0⟩
def EMB_RC_POLICY_ADMIT_MIN : Fld := ⟨Reg.EMB_RC_POLICY, 0, 8, .rw, 2⟩
def EMB_RC_AGE_AGE_TICKS : Fld := ⟨Reg.EMB_RC_AGE, 0, 16, .rw, 0x64⟩
def EMB_RC_ASSIST_MAX_RECORDS : Fld := ⟨Reg.EMB_RC_ASSIST, 0, 8, .rw, 0x10⟩
def EMB_STAT_LOADED : Fld := ⟨Reg.EMB_STAT, 0, 17, .ro, 0⟩
def EMB_EVT_POISON : Fld := ⟨Reg.EMB_EVT, 5, 1, .w1c, 0⟩
def EMB_EVT_DROP : Fld := ⟨Reg.EMB_EVT, 4, 1, .w1c, 0⟩
def EMB_EVT_VERSION_FREED : Fld := ⟨Reg.EMB_EVT, 3, 1, .w1c, 0⟩
def EMB_EVT_UNLOADED : Fld := ⟨Reg.EMB_EVT, 2, 1, .w1c, 0⟩
def EMB_EVT_LOAD_REFUSED : Fld := ⟨Reg.EMB_EVT, 1, 1, .w1c, 0⟩
def EMB_EVT_LOADED : Fld := ⟨Reg.EMB_EVT, 0, 1, .w1c, 0⟩
def EMB_CLUSTER_SEL_CLUSTER : Fld := ⟨Reg.EMB_CLUSTER_SEL, 0, 6, .rw, 0⟩
def EMB_CLUSTER_STAT_IN_SERVICE : Fld := ⟨Reg.EMB_CLUSTER_STAT, 31, 1, .ro, 1⟩
def EMB_CLUSTER_STAT_FAILED_SLOTS : Fld := ⟨Reg.EMB_CLUSTER_STAT, 0, 5, .ro, 0⟩
def EMB_UPD_STAT_STATE : Fld := ⟨Reg.EMB_UPD_STAT, 30, 2, .ro, 0⟩
def EMB_UPD_STAT_OPT : Fld := ⟨Reg.EMB_UPD_STAT, 27, 3, .ro, 0⟩
def EMB_UPD_STAT_SETS_USED : Fld := ⟨Reg.EMB_UPD_STAT, 24, 3, .ro, 0⟩
def EMB_UPD_STAT_WINDOW_TICKS : Fld := ⟨Reg.EMB_UPD_STAT, 0, 9, .ro, 0⟩
def EMB_UPD_EVT_CLUSTER_MOVED : Fld := ⟨Reg.EMB_UPD_EVT, 5, 1, .w1c, 0⟩
def EMB_UPD_EVT_POISON_ROW : Fld := ⟨Reg.EMB_UPD_EVT, 4, 1, .w1c, 0⟩
def EMB_UPD_EVT_NONFINITE : Fld := ⟨Reg.EMB_UPD_EVT, 3, 1, .w1c, 0⟩
def EMB_UPD_EVT_EXTENDED : Fld := ⟨Reg.EMB_UPD_EVT, 2, 1, .w1c, 0⟩
def EMB_UPD_EVT_MERGE_FULL : Fld := ⟨Reg.EMB_UPD_EVT, 1, 1, .w1c, 0⟩
def EMB_UPD_EVT_COMMITTED : Fld := ⟨Reg.EMB_UPD_EVT, 0, 1, .w1c, 0⟩
def SRH_IDX_SEL_INDEX : Fld := ⟨Reg.SRH_IDX_SEL, 0, 8, .rw, 0⟩
def SRH_IDX_STAT_STATE : Fld := ⟨Reg.SRH_IDX_STAT, 30, 2, .ro, 0⟩
def SRH_IDX_STAT_MERGING : Fld := ⟨Reg.SRH_IDX_STAT, 29, 1, .ro, 0⟩
def SRH_IDX_STAT_HOME_DIE : Fld := ⟨Reg.SRH_IDX_STAT, 24, 2, .ro, 0⟩
def SRH_IDX_STAT_SLICE : Fld := ⟨Reg.SRH_IDX_STAT, 16, 6, .ro, 0⟩
def SRH_CHAN_SEL_CHANNEL : Fld := ⟨Reg.SRH_CHAN_SEL, 0, 6, .rw, 0⟩
def SRH_CHAN_STAT_IN_SERVICE : Fld := ⟨Reg.SRH_CHAN_STAT, 31, 1, .ro, 0⟩
def SRH_CHAN_STAT_SCORER_FAILED : Fld := ⟨Reg.SRH_CHAN_STAT, 30, 1, .ro, 0⟩
def SRH_CHAN_STAT_PRESENT : Fld := ⟨Reg.SRH_CHAN_STAT, 29, 1, .ro, 0⟩
def SRH_MERGE_POLICY_STALE_MIN : Fld := ⟨Reg.SRH_MERGE_POLICY, 8, 16, .rw, 0x100⟩
def SRH_MERGE_POLICY_SIDE_PCT : Fld := ⟨Reg.SRH_MERGE_POLICY, 0, 8, .rw, 0x32⟩
def SRH_ASSIST_MAX_RECORDS : Fld := ⟨Reg.SRH_ASSIST, 0, 8, .rw, 0x10⟩
def SRH_STAT_CHANNELS_IN_SERVICE : Fld := ⟨Reg.SRH_STAT, 16, 7, .ro, 0⟩
def SRH_STAT_LIVE : Fld := ⟨Reg.SRH_STAT, 0, 9, .ro, 0⟩
def SRH_EVT_CHANNEL_DOWN : Fld := ⟨Reg.SRH_EVT, 7, 1, .w1c, 0⟩
def SRH_EVT_PAGE_LOST : Fld := ⟨Reg.SRH_EVT, 6, 1, .w1c, 0⟩
def SRH_EVT_LEAF_FULL : Fld := ⟨Reg.SRH_EVT, 5, 1, .w1c, 0⟩
def SRH_EVT_MERGE_ABANDONED : Fld := ⟨Reg.SRH_EVT, 4, 1, .w1c, 0⟩
def SRH_EVT_MERGE_COMMITTED : Fld := ⟨Reg.SRH_EVT, 3, 1, .w1c, 0⟩
def SRH_EVT_UNLOADED : Fld := ⟨Reg.SRH_EVT, 2, 1, .w1c, 0⟩
def SRH_EVT_LOAD_REFUSED : Fld := ⟨Reg.SRH_EVT, 1, 1, .w1c, 0⟩
def SRH_EVT_LOADED : Fld := ⟨Reg.SRH_EVT, 0, 1, .w1c, 0⟩
def KVS_POOL_SEL_POOL : Fld := ⟨Reg.KVS_POOL_SEL, 0, 8, .rw, 0⟩
def KVS_POOL_STAT_STATE : Fld := ⟨Reg.KVS_POOL_STAT, 30, 2, .ro, 0⟩
def KVS_POOL_STAT_ASSISTED : Fld := ⟨Reg.KVS_POOL_STAT, 29, 1, .ro, 0⟩
def KVS_POOL_STAT_SLICE : Fld := ⟨Reg.KVS_POOL_STAT, 16, 6, .ro, 0⟩
def KVS_HOT_AGE_TICKS : Fld := ⟨Reg.KVS_HOT, 16, 16, .rw, 0x64⟩
def KVS_HOT_HOT_MIN : Fld := ⟨Reg.KVS_HOT, 0, 8, .rw, 8⟩
def KVS_ASSIST_LOW_WATER : Fld := ⟨Reg.KVS_ASSIST, 0, 12, .rw, 0x400⟩
def KVS_STAT_SEQUENCES : Fld := ⟨Reg.KVS_STAT, 0, 25, .ro, 0⟩
def KVS_RS_STAT_IN_USE : Fld := ⟨Reg.KVS_RS_STAT, 0, 15, .ro, 0⟩
def KVS_EVT_POISON : Fld := ⟨Reg.KVS_EVT, 7, 1, .w1c, 0⟩
def KVS_EVT_ROLLBACK : Fld := ⟨Reg.KVS_EVT, 6, 1, .w1c, 0⟩
def KVS_EVT_POOL_FAILED : Fld := ⟨Reg.KVS_EVT, 5, 1, .w1c, 0⟩
def KVS_EVT_POOL_FULL : Fld := ⟨Reg.KVS_EVT, 4, 1, .w1c, 0⟩
def KVS_EVT_STATE_LOST : Fld := ⟨Reg.KVS_EVT, 3, 1, .w1c, 0⟩
def KVS_EVT_POOL_DESTROYED : Fld := ⟨Reg.KVS_EVT, 2, 1, .w1c, 0⟩
def KVS_EVT_CREATE_REFUSED : Fld := ⟨Reg.KVS_EVT, 1, 1, .w1c, 0⟩
def KVS_EVT_POOL_CREATED : Fld := ⟨Reg.KVS_EVT, 0, 1, .w1c, 0⟩
def QUE_Q_SEL_QUEUE : Fld := ⟨Reg.QUE_Q_SEL, 0, 12, .rw, 0⟩
def QUE_Q_STAT_STATE : Fld := ⟨Reg.QUE_Q_STAT, 30, 2, .ro, 0⟩
def QUE_Q_STAT_RETAIN : Fld := ⟨Reg.QUE_Q_STAT, 29, 1, .ro, 0⟩
def QUE_Q_STAT_SLICE : Fld := ⟨Reg.QUE_Q_STAT, 16, 6, .ro, 0⟩
def QUE_Q_STAT_MARK_VALID : Fld := ⟨Reg.QUE_Q_STAT, 0, 4, .ro, 0⟩
def QUE_Q_COUNT_COUNT : Fld := ⟨Reg.QUE_Q_COUNT, 0, 32, .ro, 0⟩
def QUE_STAT_LIVE : Fld := ⟨Reg.QUE_STAT, 0, 13, .ro, 0⟩
def QUE_EVT_LOST : Fld := ⟨Reg.QUE_EVT, 6, 1, .w1c, 0⟩
def QUE_EVT_POISON : Fld := ⟨Reg.QUE_EVT, 5, 1, .w1c, 0⟩
def QUE_EVT_FULL : Fld := ⟨Reg.QUE_EVT, 4, 1, .w1c, 0⟩
def QUE_EVT_FLUSHED : Fld := ⟨Reg.QUE_EVT, 3, 1, .w1c, 0⟩
def QUE_EVT_DESTROYED : Fld := ⟨Reg.QUE_EVT, 2, 1, .w1c, 0⟩
def QUE_EVT_CREATE_REFUSED : Fld := ⟨Reg.QUE_EVT, 1, 1, .w1c, 0⟩
def QUE_EVT_CREATED : Fld := ⟨Reg.QUE_EVT, 0, 1, .w1c, 0⟩
def HIF_FN_MODE_PORT : Fld := ⟨Reg.HIF_FN_MODE, 16, 3, .rwg, 0⟩
def HIF_FN_MODE_MODE : Fld := ⟨Reg.HIF_FN_MODE, 0, 10, .rwg, 0⟩
def HIF_RING_SEL_RING : Fld := ⟨Reg.HIF_RING_SEL, 0, 10, .rw, 0⟩
def HIF_RING_CTRL_ENABLE : Fld := ⟨Reg.HIF_RING_CTRL, 0, 1, .rwg, 0⟩
def HIF_RING_STAT_STATE : Fld := ⟨Reg.HIF_RING_STAT, 30, 2, .ro, 0⟩
def HIF_RING_STAT_PHASE : Fld := ⟨Reg.HIF_RING_STAT, 29, 1, .ro, 0⟩
def HIF_RING_STAT_OUTSTANDING : Fld := ⟨Reg.HIF_RING_STAT, 0, 17, .ro, 0⟩
def HIF_RING_ERR_RING : Fld := ⟨Reg.HIF_RING_ERR, 16, 10, .ro, 0⟩
def HIF_RING_ERR_REASON : Fld := ⟨Reg.HIF_RING_ERR, 0, 16, .ro, 0⟩
def HIF_RING_EVT_CONFIG_REFUSED : Fld := ⟨Reg.HIF_RING_EVT, 3, 1, .w1c, 0⟩
def HIF_RING_EVT_ASSIST_DROP : Fld := ⟨Reg.HIF_RING_EVT, 2, 1, .w1c, 0⟩
def HIF_RING_EVT_ERROR : Fld := ⟨Reg.HIF_RING_EVT, 1, 1, .w1c, 0⟩
def HIF_RING_EVT_STOPPED : Fld := ⟨Reg.HIF_RING_EVT, 0, 1, .w1c, 0⟩
def FAB_SUBQ_SEL_QUEUE : Fld := ⟨Reg.FAB_SUBQ_SEL, 0, 8, .rw, 0⟩
def FAB_SUBQ_CTRL_ENABLE : Fld := ⟨Reg.FAB_SUBQ_CTRL, 0, 1, .rwg, 0⟩
def FAB_SUBQ_STAT_STATE : Fld := ⟨Reg.FAB_SUBQ_STAT, 30, 2, .ro, 0⟩
def FAB_SUBQ_STAT_PHASE : Fld := ⟨Reg.FAB_SUBQ_STAT, 29, 1, .ro, 0⟩
def FAB_SUBQ_STAT_DEPTH : Fld := ⟨Reg.FAB_SUBQ_STAT, 0, 13, .ro, 0⟩
def FAB_SUBQ_EVT_CONFIG_REFUSED : Fld := ⟨Reg.FAB_SUBQ_EVT, 2, 1, .w1c, 0⟩
def FAB_SUBQ_EVT_ERROR : Fld := ⟨Reg.FAB_SUBQ_EVT, 1, 1, .w1c, 0⟩
def FAB_SUBQ_EVT_STOPPED : Fld := ⟨Reg.FAB_SUBQ_EVT, 0, 1, .w1c, 0⟩
def GRD_PORT_EN_PORT_EN (b : Nat) : Fld := ⟨Reg.GRD_PORT_EN b, 0, 8, .rw, 0⟩
def GRD_REJECTS_COUNT (b : Nat) : Fld := ⟨Reg.GRD_REJECTS b, 0, 32, .ro, 0⟩
def GRD_LAST_ADDR_ADDR (b : Nat) : Fld := ⟨Reg.GRD_LAST_ADDR b, 0, 24, .ro, 0⟩
def GRD_LAST_DATA_DATA (b : Nat) : Fld := ⟨Reg.GRD_LAST_DATA b, 0, 32, .ro, 0⟩
def GRD_LAST_INFO_REASON (b : Nat) : Fld := ⟨Reg.GRD_LAST_INFO b, 16, 16, .ro, 0⟩
def GRD_LAST_INFO_PATH (b : Nat) : Fld := ⟨Reg.GRD_LAST_INFO b, 12, 4, .ro, 0⟩
def GRD_LAST_INFO_MBX (b : Nat) : Fld := ⟨Reg.GRD_LAST_INFO b, 11, 1, .ro, 0⟩
def GRD_LAST_TICK_TICK (b : Nat) : Fld := ⟨Reg.GRD_LAST_TICK b, 0, 32, .ro, 0⟩
def GRD_EVT_REJECT (b : Nat) : Fld := ⟨Reg.GRD_EVT b, 0, 1, .w1c, 0⟩
def IDN_PART_PART : Fld := ⟨Reg.IDN_PART, 16, 16, .ro, 0x1152⟩
def IDN_PART_STEP_MAJOR : Fld := ⟨Reg.IDN_PART, 8, 4, .ro, 1⟩
def IDN_PART_STEP_MINOR : Fld := ⟨Reg.IDN_PART, 4, 4, .ro, 0⟩
def IDN_PART_SAMPLE : Fld := ⟨Reg.IDN_PART, 0, 1, .ro, 0⟩
def IDN_BOOT_STAGE : Fld := ⟨Reg.IDN_BOOT, 28, 4, .ro, 0⟩
def IDN_BOOT_FAIL_STAGE : Fld := ⟨Reg.IDN_BOOT, 24, 4, .ro, 0⟩
def IDN_BOOT_FAIL_CODE : Fld := ⟨Reg.IDN_BOOT, 0, 16, .ro, 0⟩
def IDN_RESET_CAUSE_DOMAIN : Fld := ⟨Reg.IDN_RESET_CAUSE, 3, 1, .w1c, 0⟩
def IDN_RESET_CAUSE_FUNCTION : Fld := ⟨Reg.IDN_RESET_CAUSE, 2, 1, .w1c, 0⟩
def IDN_RESET_CAUSE_WARM : Fld := ⟨Reg.IDN_RESET_CAUSE, 1, 1, .w1c, 0⟩
def IDN_RESET_CAUSE_COLD : Fld := ⟨Reg.IDN_RESET_CAUSE, 0, 1, .w1c, 1⟩
def IDN_EVT_SUM_BLOCKS : Fld := ⟨Reg.IDN_EVT_SUM, 0, 19, .ro, 1⟩
def IDN_FN_RESET_RESET : Fld := ⟨Reg.IDN_FN_RESET, 8, 1, .rwg, 0⟩
def IDN_FN_RESET_PORT : Fld := ⟨Reg.IDN_FN_RESET, 0, 3, .rwg, 0⟩
def IDN_EVT_FN_RESET_DONE : Fld := ⟨Reg.IDN_EVT, 2, 1, .w1c, 0⟩
def IDN_EVT_READY : Fld := ⟨Reg.IDN_EVT, 1, 1, .w1c, 0⟩
def IDN_EVT_BOOT_FAILED : Fld := ⟨Reg.IDN_EVT, 0, 1, .w1c, 0⟩
def IDN_IRQ_EN (i : Nat) : Fld := ⟨Reg.IDN_IRQ i, 31, 1, .rw, 0⟩
def IDN_IRQ_VECTOR (i : Nat) : Fld := ⟨Reg.IDN_IRQ i, 19, 10, .rw, 0⟩
def IDN_IRQ_BLOCKS (i : Nat) : Fld := ⟨Reg.IDN_IRQ i, 0, 19, .rw, 0⟩
def STK_CHAN_SEL_CHANNEL : Fld := ⟨Reg.STK_CHAN_SEL, 0, 8, .rw, 0⟩
def STK_CHAN_STAT_IN_SERVICE : Fld := ⟨Reg.STK_CHAN_STAT, 31, 1, .ro, 0⟩
def STK_CHAN_STAT_TRAINED : Fld := ⟨Reg.STK_CHAN_STAT, 30, 1, .ro, 0⟩
def STK_CHAN_STAT_RETIRED : Fld := ⟨Reg.STK_CHAN_STAT, 29, 1, .ro, 0⟩
def STK_CHAN_STAT_SPARE_ROWS_FREE : Fld := ⟨Reg.STK_CHAN_STAT, 8, 8, .ro, 0⟩
def STK_STACK_SEL_STACK : Fld := ⟨Reg.STK_STACK_SEL, 0, 4, .rw, 0⟩
def STK_STACK_STAT_TRAINED : Fld := ⟨Reg.STK_STACK_STAT, 31, 1, .ro, 0⟩
def STK_STACK_STAT_HOT_REFRESH : Fld := ⟨Reg.STK_STACK_STAT, 30, 1, .ro, 0⟩
def STK_STACK_STAT_TEMP_C : Fld := ⟨Reg.STK_STACK_STAT, 16, 8, .ro, 0⟩
def STK_STACK_STAT_CHANNELS : Fld := ⟨Reg.STK_STACK_STAT, 0, 16, .ro, 0⟩
def STK_SCRUB_PERIOD_H : Fld := ⟨Reg.STK_SCRUB, 0, 16, .rw, 0x18⟩
def STK_STAT_STACKS_TRAINED : Fld := ⟨Reg.STK_STAT, 16, 4, .ro, 0⟩
def STK_STAT_CHANNELS : Fld := ⟨Reg.STK_STAT, 0, 8, .ro, 0⟩
def STK_EVT_TEMP_HIGH : Fld := ⟨Reg.STK_EVT, 4, 1, .w1c, 0⟩
def STK_EVT_CHANNEL_RETIRED : Fld := ⟨Reg.STK_EVT, 3, 1, .w1c, 0⟩
def STK_EVT_ROW_SPARED : Fld := ⟨Reg.STK_EVT, 2, 1, .w1c, 0⟩
def STK_EVT_UNCORRECTABLE : Fld := ⟨Reg.STK_EVT, 1, 1, .w1c, 0⟩
def STK_EVT_CORRECTED : Fld := ⟨Reg.STK_EVT, 0, 1, .w1c, 0⟩
def PWR_CAP_CAP_W : Fld := ⟨Reg.PWR_CAP, 0, 12, .rwg, 0xb54⟩
def PWR_FLOOR_FLOOR_W : Fld := ⟨Reg.PWR_FLOOR, 0, 12, .ro, 0⟩
def PWR_EFF_REDUCED : Fld := ⟨Reg.PWR_EFF, 31, 1, .ro, 0⟩
def PWR_EFF_EFF_W : Fld := ⟨Reg.PWR_EFF, 0, 12, .ro, 0xb54⟩
def PWR_THERM_HYST_C : Fld := ⟨Reg.PWR_THERM, 16, 8, .rwg, 5⟩
def PWR_THERM_HOT_C : Fld := ⟨Reg.PWR_THERM, 8, 8, .rwg, 0x64⟩
def PWR_THERM_STEP_10W : Fld := ⟨Reg.PWR_THERM, 0, 8, .rwg, 0xa⟩
def PWR_TEMP_HOT_DIE : Fld := ⟨Reg.PWR_TEMP, 24, 8, .ro, 0⟩
def PWR_TEMP_TJ_Q8 : Fld := ⟨Reg.PWR_TEMP, 0, 11, .ro, 0⟩
def PWR_LAST_LAST_W : Fld := ⟨Reg.PWR_LAST, 0, 16, .ro, 0⟩
def PWR_ISLAND_REQ_ON : Fld := ⟨Reg.PWR_ISLAND_REQ, 0, 24, .rw, 0xffffff⟩
def PWR_ISLAND_STAT_ON : Fld := ⟨Reg.PWR_ISLAND_STAT, 0, 24, .ro, 0xffffff⟩
def PWR_EVT_ISLAND_CANCELLED : Fld := ⟨Reg.PWR_EVT, 4, 1, .w1c, 0⟩
def PWR_EVT_ISLAND_CHANGED : Fld := ⟨Reg.PWR_EVT, 3, 1, .w1c, 0⟩
def PWR_EVT_THERM_RESTORED : Fld := ⟨Reg.PWR_EVT, 2, 1, .w1c, 0⟩
def PWR_EVT_THERM_REDUCED : Fld := ⟨Reg.PWR_EVT, 1, 1, .w1c, 0⟩
def PWR_EVT_CAP_APPLIED : Fld := ⟨Reg.PWR_EVT, 0, 1, .w1c, 0⟩
def SEC_STAT_CONF_PORTS : Fld := ⟨Reg.SEC_STAT, 8, 8, .ro, 0⟩
def SEC_STAT_SAMPLE : Fld := ⟨Reg.SEC_STAT, 1, 1, .ro, 0⟩
def SEC_STAT_DBG_DISABLED : Fld := ⟨Reg.SEC_STAT, 0, 1, .ro, 0⟩
def SEC_SLOT_SEL_SLOT : Fld := ⟨Reg.SEC_SLOT_SEL, 0, 8, .rw, 0⟩
def SEC_SLOT_STAT_STATE : Fld := ⟨Reg.SEC_SLOT_STAT, 30, 2, .ro, 0⟩
def SEC_SLOT_STAT_SLICE : Fld := ⟨Reg.SEC_SLOT_STAT, 16, 6, .ro, 0⟩
def SEC_SLOT_STAT_EPOCH : Fld := ⟨Reg.SEC_SLOT_STAT, 0, 16, .ro, 0⟩
def SEC_SLOT_CTRL_RETIRE : Fld := ⟨Reg.SEC_SLOT_CTRL, 0, 1, .rwg, 0⟩
def SEC_OTP_CTRL_PROGRAM : Fld := ⟨Reg.SEC_OTP_CTRL, 31, 1, .rwg, 0⟩
def SEC_OTP_CTRL_RECORD : Fld := ⟨Reg.SEC_OTP_CTRL, 0, 8, .rwg, 0⟩
def SEC_EVT_OTP_PROGRAMMED : Fld := ⟨Reg.SEC_EVT, 3, 1, .w1c, 0⟩
def SEC_EVT_STALE_DROP : Fld := ⟨Reg.SEC_EVT, 2, 1, .w1c, 0⟩
def SEC_EVT_SLOT_ZEROISED : Fld := ⟨Reg.SEC_EVT, 1, 1, .w1c, 0⟩
def SEC_EVT_SLOT_RETIRING : Fld := ⟨Reg.SEC_EVT, 0, 1, .w1c, 0⟩
def RAS_STAT_SUSPECT : Fld := ⟨Reg.RAS_STAT, 31, 1, .ro, 0⟩
def RAS_STAT_PENDING : Fld := ⟨Reg.RAS_STAT, 0, 13, .ro, 0⟩
def RAS_CTRL_POP : Fld := ⟨Reg.RAS_CTRL, 0, 1, .wo, 0⟩
def RAS_PG_SEL_EXTENT : Fld := ⟨Reg.RAS_PG_SEL, 0, 11, .rw, 0⟩
def RAS_PG_COMMIT_DISCARD : Fld := ⟨Reg.RAS_PG_COMMIT, 1, 1, .rwg, 0⟩
def RAS_PG_COMMIT_APPLY : Fld := ⟨Reg.RAS_PG_COMMIT, 0, 1, .rwg, 0⟩
def RAS_ERR_EXTENT : Fld := ⟨Reg.RAS_ERR, 16, 11, .ro, 0⟩
def RAS_ERR_REASON : Fld := ⟨Reg.RAS_ERR, 0, 16, .ro, 0⟩
def RAS_EVT_PG_REFUSED : Fld := ⟨Reg.RAS_EVT, 5, 1, .w1c, 0⟩
def RAS_EVT_PG_APPLIED : Fld := ⟨Reg.RAS_EVT, 4, 1, .w1c, 0⟩
def RAS_EVT_SUSPECT : Fld := ⟨Reg.RAS_EVT, 3, 1, .w1c, 0⟩
def RAS_EVT_DANGEROUS : Fld := ⟨Reg.RAS_EVT, 2, 1, .w1c, 0⟩
def RAS_EVT_UNCORRECTED : Fld := ⟨Reg.RAS_EVT, 1, 1, .w1c, 0⟩
def RAS_EVT_CORRECTED : Fld := ⟨Reg.RAS_EVT, 0, 1, .w1c, 0⟩
def CMP_SLICE_SEL_SLICE : Fld := ⟨Reg.CMP_SLICE_SEL, 0, 6, .rw, 0⟩
def CMP_SLICE_STAT_EXISTS : Fld := ⟨Reg.CMP_SLICE_STAT, 31, 1, .ro, 0⟩
def CMP_SLICE_STAT_PENDING : Fld := ⟨Reg.CMP_SLICE_STAT, 30, 1, .ro, 0⟩
def CMP_SLICE_COMMIT_DISCARD : Fld := ⟨Reg.CMP_SLICE_COMMIT, 1, 1, .rwg, 0⟩
def CMP_SLICE_COMMIT_APPLY : Fld := ⟨Reg.CMP_SLICE_COMMIT, 0, 1, .rwg, 0⟩
def CMP_ERR_SLICE : Fld := ⟨Reg.CMP_ERR, 16, 6, .ro, 0⟩
def CMP_ERR_REASON : Fld := ⟨Reg.CMP_ERR, 0, 16, .ro, 0⟩
def CMP_STAT_SLICES : Fld := ⟨Reg.CMP_STAT, 0, 7, .ro, 0⟩
def CMP_EVT_REFUSED : Fld := ⟨Reg.CMP_EVT, 1, 1, .w1c, 0⟩
def CMP_EVT_APPLIED : Fld := ⟨Reg.CMP_EVT, 0, 1, .w1c, 0⟩

end F

/-- Every field of block IDN. -/
def fieldsIDN : List Fld :=
  [F.IDN_PART_PART, F.IDN_PART_STEP_MAJOR, F.IDN_PART_STEP_MINOR, F.IDN_PART_SAMPLE, F.IDN_BOOT_STAGE, F.IDN_BOOT_FAIL_STAGE] ++
  [F.IDN_BOOT_FAIL_CODE, F.IDN_RESET_CAUSE_DOMAIN, F.IDN_RESET_CAUSE_FUNCTION, F.IDN_RESET_CAUSE_WARM, F.IDN_RESET_CAUSE_COLD, F.IDN_EVT_SUM_BLOCKS] ++
  [F.IDN_FN_RESET_RESET, F.IDN_FN_RESET_PORT, F.IDN_EVT_FN_RESET_DONE, F.IDN_EVT_READY, F.IDN_EVT_BOOT_FAILED] ++
  ((List.range 8).map F.IDN_IRQ_EN) ++
  ((List.range 8).map F.IDN_IRQ_VECTOR) ++
  ((List.range 8).map F.IDN_IRQ_BLOCKS)

/-- Every field of block HIF. -/
def fieldsHIF : List Fld :=
  [F.HIF_PORT_SEL_PORT, F.HIF_PORT_STAT_DEC_COMMITTED, F.HIF_PORT_STAT_RATE, F.HIF_PORT_STAT_WIDTH, F.HIF_PORT_STAT_LINK_UP, F.HIF_PORT_CFG_SLICE] ++
  [F.HIF_LAYOUT_COH_GIB, F.HIF_LAYOUT_SHR_GIB, F.HIF_LAYOUT_PART_GIB, F.HIF_EXT_SEL_EXT, F.HIF_EXT_ENTRY_STATE, F.HIF_EXT_ENTRY_PORT] ++
  [F.HIF_EXT_ENTRY_DEC, F.HIF_EXT_ENTRY_HDM_EXT, F.HIF_EXT_ENTRY_SHR, F.HIF_EXT_ENTRY_KEY_SLOT, F.HIF_EXT_ERR_EXT, F.HIF_EXT_ERR_REASON] ++
  [F.HIF_SHR_SEL_RANGE, F.HIF_SHR_COMMIT_APPLY, F.HIF_EVT_LINK_CHANGE, F.HIF_EVT_SHR_BROKEN, F.HIF_EVT_DROP, F.HIF_EVT_REVOKED] ++
  [F.HIF_FN_MODE_PORT, F.HIF_FN_MODE_MODE, F.HIF_RING_SEL_RING, F.HIF_RING_CTRL_ENABLE, F.HIF_RING_STAT_STATE, F.HIF_RING_STAT_PHASE] ++
  [F.HIF_RING_STAT_OUTSTANDING, F.HIF_RING_ERR_RING, F.HIF_RING_ERR_REASON, F.HIF_RING_EVT_CONFIG_REFUSED, F.HIF_RING_EVT_ASSIST_DROP, F.HIF_RING_EVT_ERROR] ++
  [F.HIF_RING_EVT_STOPPED]

/-- Every field of block TIK. -/
def fieldsTIK : List Fld :=
  [F.TIK_CTRL_SRC, F.TIK_CTRL_MASTER, F.TIK_CTRL_TICK_OUT_EN, F.TIK_CTRL_PTP_EN, F.TIK_CTRL_RUN, F.TIK_STAT_OFFSET_NS] ++
  [F.TIK_STAT_SYNC, F.TIK_PERIOD_PERIOD_US, F.TIK_LEAD_LEAD_US, F.TIK_LULL_MAINT_PCT, F.TIK_LULL_LULL_PHASE, F.TIK_LULL_LULL_EVERY] ++
  [F.TIK_DRIFT_DRIFT_PPB, F.TIK_EVT_PLAN_ENDED, F.TIK_EVT_PLAN_SWITCH, F.TIK_EVT_OVERRUN, F.TIK_EVT_LOST, F.TIK_EVT_HOLDOVER] ++
  [F.TIK_EVT_PERIOD_CHANGE]

/-- Every field of block XLT. -/
def fieldsXLT : List Fld :=
  [F.XLT_CTX_SEL_MR, F.XLT_CTX_SEL_CTX, F.XLT_CTX_COMMIT_APPLY, F.XLT_CTX_ERR_CTX, F.XLT_CTX_ERR_REASON, F.XLT_MISS_TIMEOUT_US] ++
  [F.XLT_MIG_TIMEOUT_US, F.XLT_STAT_MIG_ACTIVE, F.XLT_STAT_ASSIST_PENDING, F.XLT_EVT_MIG_FAILED, F.XLT_EVT_FILL_STALE, F.XLT_EVT_MISS_TIMEOUT] ++
  [F.XLT_EVT_CTX_APPLIED, F.XLT_EVT_CTX_REFUSED]

/-- Every field of block TIR. -/
def fieldsTIR : List Fld :=
  [F.TIR_REGION_SEL_REGION, F.TIR_SPLIT_TIER, F.TIR_SPLIT_RCACHE, F.TIR_SPLIT_KVHOT, F.TIR_SPLIT_SCRATCH, F.TIR_SPLIT_STAT_PENDING] ++
  [F.TIR_SPLIT_STAT_FREE, F.TIR_SPLIT_STAT_SCRATCH_USED, F.TIR_POLICY_HYST, F.TIR_POLICY_DEMOTE_BELOW, F.TIR_POLICY_PROMOTE_AT, F.TIR_AGE_AGE_TICKS] ++
  [F.TIR_RATE_PIN_MAX_PCT, F.TIR_RATE_SKIP_PCT, F.TIR_RATE_MAX_PROMOTE, F.TIR_ASSIST_MAX_RECORDS, F.TIR_DEADLINE_GUARD_US, F.TIR_DL_MIN_FLASH] ++
  [F.TIR_DL_MIN_REMOTE, F.TIR_DL_MIN_HOST, F.TIR_STAT_PINNED, F.TIR_STAT_PROMOTED, F.TIR_ERR_REGION, F.TIR_ERR_REASON] ++
  [F.TIR_EVT_PART_LOST, F.TIR_EVT_LATE, F.TIR_EVT_NOM_DROPPED, F.TIR_EVT_SPLIT_REFUSED, F.TIR_EVT_SPLIT_APPLIED]

/-- Every field of block CDC. -/
def fieldsCDC : List Fld :=
  [F.CDC_TABLE_SEL_CHUNK, F.CDC_TABLE_SEL_TABLE, F.CDC_TABLE_STAT_STATE, F.CDC_TABLE_STAT_SLICE, F.CDC_TABLE_STAT_FORMAT, F.CDC_STAT_VALID_TABLES] ++
  [F.CDC_STAT_BUILDING, F.CDC_EVT_ADOPT_SHORT, F.CDC_EVT_DECODE_ERROR, F.CDC_EVT_CLASS_OVER, F.CDC_EVT_PLAIN_OVERWRITE, F.CDC_EVT_TABLE_FREED]

/-- Every field of block MTX. -/
def fieldsMTX : List Fld :=
  [F.MTX_PROG_SEL_SLOT, F.MTX_PROG_STAT_STATE, F.MTX_PROG_STAT_SLICE, F.MTX_PROG_STAT_GEN, F.MTX_PROG_STAT_RUNS, F.MTX_CLUSTER_SEL_CLUSTER] ++
  [F.MTX_CLUSTER_STAT_IN_SERVICE, F.MTX_CLUSTER_STAT_V_FAILED, F.MTX_CLUSTER_STAT_FAILED_SLOTS, F.MTX_CLUSTER_STAT_BUF_USED_KIB, F.MTX_STAT_OUT_OF_SERVICE, F.MTX_STAT_LOADED] ++
  [F.MTX_EVT_INT_SAT, F.MTX_EVT_CLUSTER_LOST, F.MTX_EVT_POISON, F.MTX_EVT_UNLOADED, F.MTX_EVT_LOAD_REFUSED, F.MTX_EVT_LOADED]

/-- Every field of block EMB. -/
def fieldsEMB : List Fld :=
  [F.EMB_TBL_SEL_TABLE, F.EMB_TBL_STAT_STATE, F.EMB_TBL_STAT_PRIV, F.EMB_TBL_STAT_POLICY, F.EMB_TBL_STAT_UPDATABLE, F.EMB_TBL_STAT_SLICE] ++
  [F.EMB_TBL_STAT_LIVE_IMAGES, F.EMB_PRIV_SEL_ENTRY, F.EMB_PRIV_ENTRY_VALID, F.EMB_PRIV_ENTRY_TABLE, F.EMB_RC_POLICY_ADMIT_MIN, F.EMB_RC_AGE_AGE_TICKS] ++
  [F.EMB_RC_ASSIST_MAX_RECORDS, F.EMB_STAT_LOADED, F.EMB_EVT_POISON, F.EMB_EVT_DROP, F.EMB_EVT_VERSION_FREED, F.EMB_EVT_UNLOADED] ++
  [F.EMB_EVT_LOAD_REFUSED, F.EMB_EVT_LOADED, F.EMB_CLUSTER_SEL_CLUSTER, F.EMB_CLUSTER_STAT_IN_SERVICE, F.EMB_CLUSTER_STAT_FAILED_SLOTS, F.EMB_UPD_STAT_STATE] ++
  [F.EMB_UPD_STAT_OPT, F.EMB_UPD_STAT_SETS_USED, F.EMB_UPD_STAT_WINDOW_TICKS, F.EMB_UPD_EVT_CLUSTER_MOVED, F.EMB_UPD_EVT_POISON_ROW, F.EMB_UPD_EVT_NONFINITE] ++
  [F.EMB_UPD_EVT_EXTENDED, F.EMB_UPD_EVT_MERGE_FULL, F.EMB_UPD_EVT_COMMITTED]

/-- Every field of block SRH. -/
def fieldsSRH : List Fld :=
  [F.SRH_IDX_SEL_INDEX, F.SRH_IDX_STAT_STATE, F.SRH_IDX_STAT_MERGING, F.SRH_IDX_STAT_HOME_DIE, F.SRH_IDX_STAT_SLICE, F.SRH_CHAN_SEL_CHANNEL] ++
  [F.SRH_CHAN_STAT_IN_SERVICE, F.SRH_CHAN_STAT_SCORER_FAILED, F.SRH_CHAN_STAT_PRESENT, F.SRH_MERGE_POLICY_STALE_MIN, F.SRH_MERGE_POLICY_SIDE_PCT, F.SRH_ASSIST_MAX_RECORDS] ++
  [F.SRH_STAT_CHANNELS_IN_SERVICE, F.SRH_STAT_LIVE, F.SRH_EVT_CHANNEL_DOWN, F.SRH_EVT_PAGE_LOST, F.SRH_EVT_LEAF_FULL, F.SRH_EVT_MERGE_ABANDONED] ++
  [F.SRH_EVT_MERGE_COMMITTED, F.SRH_EVT_UNLOADED, F.SRH_EVT_LOAD_REFUSED, F.SRH_EVT_LOADED]

/-- Every field of block KVS. -/
def fieldsKVS : List Fld :=
  [F.KVS_POOL_SEL_POOL, F.KVS_POOL_STAT_STATE, F.KVS_POOL_STAT_ASSISTED, F.KVS_POOL_STAT_SLICE, F.KVS_HOT_AGE_TICKS, F.KVS_HOT_HOT_MIN] ++
  [F.KVS_ASSIST_LOW_WATER, F.KVS_STAT_SEQUENCES, F.KVS_RS_STAT_IN_USE, F.KVS_EVT_POISON, F.KVS_EVT_ROLLBACK, F.KVS_EVT_POOL_FAILED] ++
  [F.KVS_EVT_POOL_FULL, F.KVS_EVT_STATE_LOST, F.KVS_EVT_POOL_DESTROYED, F.KVS_EVT_CREATE_REFUSED, F.KVS_EVT_POOL_CREATED]

/-- Every field of block QUE. -/
def fieldsQUE : List Fld :=
  [F.QUE_Q_SEL_QUEUE, F.QUE_Q_STAT_STATE, F.QUE_Q_STAT_RETAIN, F.QUE_Q_STAT_SLICE, F.QUE_Q_STAT_MARK_VALID, F.QUE_Q_COUNT_COUNT] ++
  [F.QUE_STAT_LIVE, F.QUE_EVT_LOST, F.QUE_EVT_POISON, F.QUE_EVT_FULL, F.QUE_EVT_FLUSHED, F.QUE_EVT_DESTROYED] ++
  [F.QUE_EVT_CREATE_REFUSED, F.QUE_EVT_CREATED]

/-- Every field of block DIR. -/
def fieldsDIR : List Fld :=
  [F.DIR_CTRL_MIN_HOLD, F.DIR_BI_TIMEOUT_US, F.DIR_STAT_DOMAIN, F.DIR_STAT_IN_USE, F.DIR_DOMAIN_RESET_RESET, F.DIR_EVT_CAP_RECALL] ++
  [F.DIR_EVT_RESET_DONE, F.DIR_EVT_WALK_DONE, F.DIR_EVT_DOMAIN_DOWN]

/-- Every field of block FAB. -/
def fieldsFAB : List Fld :=
  [F.FAB_DEVID_DEVID, F.FAB_DEVID_STAT_JOINED, F.FAB_DEVID_STAT_SET, F.FAB_WIN_SEL_WIN, F.FAB_WIN_STAT_PENDING, F.FAB_WIN_STAT_DRAINING] ++
  [F.FAB_WIN_STAT_VALID_COUNT, F.FAB_WIN_COMMIT_DISCARD, F.FAB_WIN_COMMIT_APPLY, F.FAB_WIN_ERR_WIN, F.FAB_WIN_ERR_REASON, F.FAB_WIN_EVT_COMMIT_REFUSED] ++
  [F.FAB_WIN_EVT_DRAINED, F.FAB_WIN_EVT_APPLIED, F.FAB_ORD_CTRL_FLAG_TIMEOUT_US, F.FAB_ARR_SEL_CTR, F.FAB_EPOCH_SEL_ORIGIN, F.FAB_ORD_EVT_NOTIFY_FAIL] ++
  [F.FAB_ORD_EVT_STALE, F.FAB_ORD_EVT_FLAG_TIMEOUT, F.FAB_ORD_EVT_EPOCH_ADVANCE, F.FAB_ORD_STAT_FLAGS_HELD, F.FAB_CTRL_LEAVE, F.FAB_CTRL_JOIN] ++
  [F.FAB_PORT_SEL_PORT, F.FAB_PORT_CTRL_MIN_LANES, F.FAB_PORT_CTRL_RETRAIN, F.FAB_PORT_CTRL_ENABLE, F.FAB_PORT_STAT_LANE_GOOD, F.FAB_PORT_STAT_WIDTH] ++
  [F.FAB_PORT_STAT_STATE, F.FAB_PORT_EVT_RETRY_LIMIT, F.FAB_PORT_EVT_RETRAIN, F.FAB_PORT_EVT_FAILED, F.FAB_PORT_EVT_DEGRADED, F.FAB_PORT_EVT_STATE_CHANGE] ++
  [F.FAB_ESC_CTRL_ESC_NS, F.FAB_REQ_CTRL_TIMEOUT_US, F.FAB_TAG_STAT_IN_USE, F.FAB_TICK_TREE_PARENT_VALID, F.FAB_TICK_TREE_PARENT, F.FAB_TICK_CHILD_CHILD] ++
  [F.FAB_TS_CTRL_FORCED, F.FAB_TS_CTRL_NORMAL, F.FAB_EVT_TIMEOUT, F.FAB_EVT_DROP, F.FAB_EVT_NO_ROUTE, F.FAB_EVT_OWN_REFUSED] ++
  [F.FAB_EVT_LEFT, F.FAB_EVT_JOINED, F.FAB_ROUTE_SEL_DEST, F.FAB_MC_SEL_GROUP, F.FAB_CONG_SEL_WIN, F.FAB_CONG_SEL_DEST] ++
  [F.FAB_OWN_SEL_GRANULE, F.FAB_OWN_ENTRY_MODE, F.FAB_OWN_ENTRY_OWNER, F.FAB_SUBQ_SEL_QUEUE, F.FAB_SUBQ_CTRL_ENABLE, F.FAB_SUBQ_STAT_STATE] ++
  [F.FAB_SUBQ_STAT_PHASE, F.FAB_SUBQ_STAT_DEPTH, F.FAB_SUBQ_EVT_CONFIG_REFUSED, F.FAB_SUBQ_EVT_ERROR, F.FAB_SUBQ_EVT_STOPPED] ++
  ((List.range 8).map F.FAB_VC_CFG_ESC) ++
  ((List.range 8).map F.FAB_VC_CFG_ADAPT)

/-- Every field of block STK. -/
def fieldsSTK : List Fld :=
  [F.STK_CHAN_SEL_CHANNEL, F.STK_CHAN_STAT_IN_SERVICE, F.STK_CHAN_STAT_TRAINED, F.STK_CHAN_STAT_RETIRED, F.STK_CHAN_STAT_SPARE_ROWS_FREE, F.STK_STACK_SEL_STACK] ++
  [F.STK_STACK_STAT_TRAINED, F.STK_STACK_STAT_HOT_REFRESH, F.STK_STACK_STAT_TEMP_C, F.STK_STACK_STAT_CHANNELS, F.STK_SCRUB_PERIOD_H, F.STK_STAT_STACKS_TRAINED] ++
  [F.STK_STAT_CHANNELS, F.STK_EVT_TEMP_HIGH, F.STK_EVT_CHANNEL_RETIRED, F.STK_EVT_ROW_SPARED, F.STK_EVT_UNCORRECTABLE, F.STK_EVT_CORRECTED]

/-- Every field of block SEC. -/
def fieldsSEC : List Fld :=
  [F.SEC_STAT_CONF_PORTS, F.SEC_STAT_SAMPLE, F.SEC_STAT_DBG_DISABLED, F.SEC_SLOT_SEL_SLOT, F.SEC_SLOT_STAT_STATE, F.SEC_SLOT_STAT_SLICE] ++
  [F.SEC_SLOT_STAT_EPOCH, F.SEC_SLOT_CTRL_RETIRE, F.SEC_OTP_CTRL_PROGRAM, F.SEC_OTP_CTRL_RECORD, F.SEC_EVT_OTP_PROGRAMMED, F.SEC_EVT_STALE_DROP] ++
  [F.SEC_EVT_SLOT_ZEROISED, F.SEC_EVT_SLOT_RETIRING]

/-- Every field of block RAS. -/
def fieldsRAS : List Fld :=
  [F.RAS_STAT_SUSPECT, F.RAS_STAT_PENDING, F.RAS_CTRL_POP, F.RAS_PG_SEL_EXTENT, F.RAS_PG_COMMIT_DISCARD, F.RAS_PG_COMMIT_APPLY] ++
  [F.RAS_ERR_EXTENT, F.RAS_ERR_REASON, F.RAS_EVT_PG_REFUSED, F.RAS_EVT_PG_APPLIED, F.RAS_EVT_SUSPECT, F.RAS_EVT_DANGEROUS] ++
  [F.RAS_EVT_UNCORRECTED, F.RAS_EVT_CORRECTED]

/-- Every field of block PWR. -/
def fieldsPWR : List Fld :=
  [F.PWR_CAP_CAP_W, F.PWR_FLOOR_FLOOR_W, F.PWR_EFF_REDUCED, F.PWR_EFF_EFF_W, F.PWR_THERM_HYST_C, F.PWR_THERM_HOT_C] ++
  [F.PWR_THERM_STEP_10W, F.PWR_TEMP_HOT_DIE, F.PWR_TEMP_TJ_Q8, F.PWR_LAST_LAST_W, F.PWR_ISLAND_REQ_ON, F.PWR_ISLAND_STAT_ON] ++
  [F.PWR_EVT_ISLAND_CANCELLED, F.PWR_EVT_ISLAND_CHANGED, F.PWR_EVT_THERM_RESTORED, F.PWR_EVT_THERM_REDUCED, F.PWR_EVT_CAP_APPLIED]

/-- Every field of block CMP. -/
def fieldsCMP : List Fld :=
  [F.CMP_SLICE_SEL_SLICE, F.CMP_SLICE_STAT_EXISTS, F.CMP_SLICE_STAT_PENDING, F.CMP_SLICE_COMMIT_DISCARD, F.CMP_SLICE_COMMIT_APPLY, F.CMP_ERR_SLICE] ++
  [F.CMP_ERR_REASON, F.CMP_STAT_SLICES, F.CMP_EVT_REFUSED, F.CMP_EVT_APPLIED]

/-- The guard-page fields of block `b` (Table 17-7). -/
def fieldsGuard (b : Nat) : List Fld :=
  [F.GRD_PORT_EN_PORT_EN b, F.GRD_REJECTS_COUNT b, F.GRD_LAST_ADDR_ADDR b, F.GRD_LAST_DATA_DATA b, F.GRD_LAST_INFO_REASON b, F.GRD_LAST_INFO_PATH b, F.GRD_LAST_INFO_MBX b, F.GRD_LAST_TICK_TICK b, F.GRD_EVT_REJECT b]

/-- The fields of block `b`, its guard page included; the mailbox registers are a structure of their own. -/
def blockFields (b : Nat) : List Fld :=
  (match b with
  | 0 => fieldsIDN
  | 1 => fieldsHIF
  | 2 => fieldsTIK
  | 3 => fieldsXLT
  | 4 => fieldsTIR
  | 5 => fieldsCDC
  | 6 => fieldsMTX
  | 7 => fieldsEMB
  | 8 => fieldsSRH
  | 9 => fieldsKVS
  | 10 => fieldsQUE
  | 11 => fieldsDIR
  | 12 => fieldsFAB
  | 13 => fieldsSTK
  | 14 => fieldsSEC
  | 15 => fieldsRAS
  | 16 => fieldsPWR
  | 17 => fieldsCMP
  | _ => []) ++ (if b < blockCount then fieldsGuard b else [])

/-- The fields of the register at BAR0 offset `off`; none at a reserved offset (R530). -/
def fieldsAt (off : Nat) : List Fld := (blockFields (off / 0x10000)).filter (fun f => f.off == off)

/-- Mask of the bits of a register with one of the access codes named. -/
def maskOfAcc (off : Nat) (p : Acc → Bool) : Nat :=
  (fieldsAt off).foldl (fun m f => if p f.acc then m ||| ((2 ^ f.len - 1) * 2 ^ f.lo) else m) 0

/-- A register's value after a cold reset (R7). -/
def resetWord (off : Nat) : Word :=
  BitVec.ofNat 32 ((fieldsAt off).foldl (fun v f => v + f.rst * 2 ^ f.lo) 0)

/-- R548, Table 18-2: a register is guarded when it has an RW-G field. -/
def isGuarded (off : Nat) : Bool := (fieldsAt off).any (fun f => f.acc == .rwg)

/-- Does a block hold a register at this offset (R530)? -/
def isRegister (off : Nat) : Bool := !(fieldsAt off).isEmpty

end Sys2Proof.Machine
end

