-- ==== Sys2Proof/Machine/Numbers.lean ====
section
/-! DEFINITION. Numbers: the element formats of Table 10-2, rounding, exact accumulators (R312 to R327) and CRC-32C. -/

namespace Sys2Proof.Machine

/-! ## Values -/

/-- The value of a floating-point encoding: NaN, an infinity, or (−1)^neg × m × 2^e. -/
inductive FV where
  | nan
  | inf (neg : Bool)
  | fin (neg : Bool) (m : Nat) (e : Int)
  deriving DecidableEq, Repr

def FV.zero : FV := .fin false 0 0

/-- A binary floating-point format: mantissa bits, exponent of the smallest normal number, largest finite encoding,
width; how it writes infinities and NaN, where it has them. -/
structure Fmt where
  man : Nat
  emin : Int
  maxBits : Nat
  width : Nat
  inf : Option Nat
  nan : Option Nat
  deriving DecidableEq, Repr

def fmtFp32 : Fmt := ⟨23, -126, 0x7F7FFFFF, 32, some 0x7F800000, some 0x7FC00000⟩
def fmtBf16 : Fmt := ⟨7, -126, 0x7F7F, 16, some 0x7F80, some 0x7FC0⟩
def fmtFp16 : Fmt := ⟨10, -14, 0x7BFF, 16, some 0x7C00, some 0x7E00⟩
def fmtE4m3 : Fmt := ⟨3, -6, 0x7E, 8, none, some 0x7F⟩
def fmtE5m2 : Fmt := ⟨2, -14, 0x7B, 8, some 0x7C, some 0x7E⟩
def fmtE3m2 : Fmt := ⟨2, -2, 0x1F, 6, none, none⟩
def fmtE2m3 : Fmt := ⟨3, 0, 0x1F, 6, none, none⟩
def fmtE2m1 : Fmt := ⟨1, 0, 0x7, 4, none, none⟩

/-- The value of an encoding (Table 10-2). -/
def Fmt.decode (f : Fmt) (bits : Nat) : FV :=
  let mag := bits % 2 ^ (f.width - 1)
  let neg := bits.testBit (f.width - 1)
  if f.maxBits < mag then (match f.inf with | some i => if mag = i then .inf neg else .nan | none => .nan)
  else
    let e := mag / 2 ^ f.man
    let m := mag % 2 ^ f.man
    if e = 0 then .fin neg m (f.emin - f.man) else .fin neg (m + 2 ^ f.man) (f.emin - f.man + ((e : Int) - 1))

/-- Round m × 2^e to a multiple of 2^q, to nearest with ties to even: the multiple. -/
def roundAt (m : Nat) (e q : Int) : Nat :=
  if q ≤ e then m * 2 ^ (e - q).toNat
  else
    let sh := (q - e).toNat
    let k := m / 2 ^ sh
    let r := m % 2 ^ sh
    let half := 2 ^ (sh - 1)
    if half < r ∨ (r = half ∧ k % 2 = 1) then k + 1 else k

/-- The encoding of a magnitude rounded once, and whether it exceeds the largest finite. -/
def Fmt.roundMag (f : Fmt) (m : Nat) (e : Int) : Nat :=
  if m = 0 then 0
  else
    let low : Int := f.emin - f.man
    let q := max (e + (Nat.log2 m : Int) - f.man) low
    roundAt m e q + (q - low).toNat * 2 ^ f.man

def Fmt.sign (f : Fmt) (neg : Bool) : Nat := if neg then 2 ^ (f.width - 1) else 0

/-- Conversion of a value to a format (R323): out of range gives ±Inf where the format has it, else its largest finite
value; NaN gives the canonical NaN, or the positive one of the format. A format without NaN gives 0, its block scale says
NaN. -/
def Fmt.encode (f : Fmt) : FV → Nat
  | .nan => f.nan.getD 0
  | .inf neg => f.sign neg + (f.inf.getD f.maxBits)
  | .fin neg m e =>
    let b := f.roundMag m e
    f.sign neg + (if f.maxBits < b then f.inf.getD f.maxBits else b)

def f32 (bits : Nat) : FV := fmtFp32.decode bits
/-- round_fp32 (R318). -/
def toF32 (v : FV) : Nat := fmtFp32.encode v
/-- A value rounded to FP32, as a value. -/
def FV.rnd (v : FV) : FV := f32 (toF32 v)

def NAN32 : Nat := 0x7FC00000

/-! ## Exact arithmetic -/

def FV.isNan : FV → Bool | .nan => true | _ => false
def FV.isNeg : FV → Bool | .nan => false | .inf n => n | .fin n _ _ => n
def FV.isZero : FV → Bool | .fin _ 0 _ => true | _ => false

def FV.neg : FV → FV
  | .nan => .nan
  | .inf n => .inf (!n)
  | .fin n m e => .fin (!n) m e

/-- Scale by 2^k. -/
def FV.scale (k : Int) : FV → FV
  | .fin n m e => .fin n m (e + k)
  | v => v

def FV.mul : FV → FV → FV
  | .nan, _ => .nan
  | _, .nan => .nan
  | .inf a, .inf b => .inf (a != b)
  | .inf a, .fin b m _ => if m = 0 then .nan else .inf (a != b)
  | .fin a m _, .inf b => if m = 0 then .nan else .inf (a != b)
  | .fin a m e, .fin b n f => .fin (a != b) (m * n) (e + f)

/-- The integer that m × 2^e is in units of 2^q, for q at most e. -/
def scaled (neg : Bool) (m : Nat) (e q : Int) : Int :=
  let x : Int := m * 2 ^ (e - q).toNat
  if neg then -x else x

/-- The exact sum of values, as IEEE 754 sums them: NaN where one is NaN or both infinities occur; an exact zero is +0
unless every term is −0. -/
def FV.sum (l : List FV) : FV :=
  if l.any FV.isNan then .nan
  else
    let pos := l.any (fun v => match v with | .inf false => true | _ => false)
    let neg := l.any (fun v => match v with | .inf true => true | _ => false)
    if pos && neg then .nan
    else if pos then .inf false
    else if neg then .inf true
    else
      let q := l.foldl (fun (q : Int) v => match v with | .fin _ _ e => min q e | _ => q) 0
      let x := l.foldl (fun (x : Int) v => match v with | .fin n m e => x + scaled n m e q | _ => x) 0
      if x = 0 then .fin (!l.isEmpty && l.all FV.isNeg) 0 0 else .fin (decide (x < 0)) x.natAbs q

def FV.add (a b : FV) : FV := FV.sum [a, b]

/-- Arithmetic on FP32 encodings, each result rounded once. -/
def f32Add (a b : Nat) : Nat := toF32 ((f32 a).add (f32 b))
def f32Sub (a b : Nat) : Nat := toF32 ((f32 a).add (f32 b).neg)
def f32Mul (a b : Nat) : Nat := toF32 ((f32 a).mul (f32 b))

/-- The quotient of two finite values rounded to FP32 once: a quotient of 64 more bits and a sticky bit below it. -/
def FV.divRnd : FV → FV → FV
  | .nan, _ => .nan
  | _, .nan => .nan
  | .inf _, .inf _ => .nan
  | .inf a, .fin b _ _ => .inf (a != b)
  | .fin a _ _, .inf b => .fin (a != b) 0 0
  | .fin a m e, .fin b n f =>
    if n = 0 then (if m = 0 then .nan else .inf (a != b))
    else
      let k := 64 + Nat.log2 n
      let x := m * 2 ^ k
      FV.rnd (.fin (a != b) (2 * (x / n) + (if x % n = 0 then 0 else 1)) (e - f - k - 1))

/-- An integer square root, bit by bit from bit `k − 1` down. -/
def isqrtAux (n : Nat) : Nat → Nat → Nat
  | 0, r => r
  | k + 1, r => let c := r + 2 ^ k; isqrtAux n k (if c * c ≤ n then c else r)

def isqrt (n : Nat) : Nat := isqrtAux n (Nat.log2 n / 2 + 1) 0

/-- The square root of a value rounded to FP32 once. -/
def FV.sqrtRnd : FV → FV
  | .nan => .nan
  | .inf false => .inf false
  | .inf true => .nan
  | .fin neg m e =>
    if m = 0 then .fin neg 0 0
    else if neg then .nan
    else
      -- an even exponent and at least 64 bits of root
      let k := 128 + (e % 2).toNat
      let x := m * 2 ^ k
      let r := isqrt x
      FV.rnd (.fin false (2 * r + (if r * r = x then 0 else 1)) ((e - k) / 2 - 1))

/-- Order of values that are not NaN; −0 and +0 are equal. -/
def FV.lt (a b : FV) : Bool :=
  match a, b with
  | .nan, _ | _, .nan => false
  | .inf x, .inf y => x && !y
  | .inf x, _ => x
  | _, .inf y => !y
  | .fin n m e, .fin n' m' e' => decide (scaled n m e (min e e') < scaled n' m' e' (min e e'))

/-- The value of a two's complement integer of `w` bits. -/
def twos (w x : Nat) : Int := if x.testBit (w - 1) then (x % 2 ^ w : Nat) - (2 ^ w : Nat) else (x % 2 ^ w : Nat)

def FV.ofInt (x : Int) : FV := .fin (decide (x < 0)) x.natAbs 0

/-- A value rounded to an integer, to nearest with ties to even; none for NaN; infinities exceed every format. -/
def FV.toInt : FV → Option Int
  | .nan => none
  | .inf n => some (if n then -(2 ^ 300) else 2 ^ 300)
  | .fin n m e => let k : Int := roundAt m e 0; some (if n then -k else k)

/-- Clamp to the integers of `w` bits, and whether that changed the value. -/
def clampInt (w : Nat) (x : Int) : Int × Bool :=
  let hi : Int := 2 ^ (w - 1) - 1
  let lo : Int := -(2 ^ (w - 1))
  if hi < x then (hi, true) else if x < lo then (lo, true) else (x, false)

/-- Two's complement bits of an integer in `w` bits. -/
def intBits (w : Nat) (x : Int) : Nat := (x % (2 ^ w : Nat)).toNat

/-! ## The exact accumulator (R324 to R326) -/

/-- An exact accumulator: VALUE in units of 2^−298 and its flags. -/
structure Accum where
  value : Int := 0
  nan : Bool := false
  posInf : Bool := false
  negInf : Bool := false
  overflow : Bool := false
  deriving DecidableEq, Repr

/-- The 640-bit image as a number, bits [639:599] zero. -/
def Accum.image (a : Accum) : Nat :=
  intBits 595 a.value + at_ 595 (boolNat a.nan) + at_ 596 (boolNat a.posInf) + at_ 597 (boolNat a.negInf)
    + at_ 598 (boolNat a.overflow)

def Accum.ofImage (x : Nat) : Accum :=
  { value := twos 595 x, nan := x.testBit 595, posInf := x.testBit 596, negInf := x.testBit 597,
    overflow := x.testBit 598 }

def Accum.ofBytes (l : List Byte) : Accum := Accum.ofImage (leNat l)
def Accum.bytes (a : Accum) : List Byte := leBytes 80 a.image

/-- VALUE takes an exact sum: outside the range OVERFLOW is set and the low 595 bits are kept. -/
def Accum.setSum (a : Accum) (x : Int) : Accum :=
  if x < -(2 ^ 594) ∨ 2 ^ 594 ≤ x then { a with value := twos 595 (intBits 595 x), overflow := true }
  else { a with value := x }

/-- ADD_EXACT of a value whose lowest bit weighs at least 2^−298. -/
def Accum.add (a : Accum) : FV → Accum
  | .nan => { a with nan := true }
  | .inf false => { a with posInf := true }
  | .inf true => { a with negInf := true }
  | .fin n m e => a.setSum (a.value + scaled n m e (-298))

/-- ADD_EXACT of another accumulator's image. -/
def Accum.addImage (a b : Accum) : Accum :=
  let c := a.setSum (a.value + b.value)
  { c with nan := a.nan || b.nan, posInf := a.posInf || b.posInf, negInf := a.negInf || b.negInf,
           overflow := c.overflow || b.overflow }

/-- READ_ROUNDED (R326). -/
def Accum.read (a : Accum) : Nat :=
  if a.nan || a.overflow || (a.posInf && a.negInf) then NAN32
  else if a.posInf then 0x7F800000
  else if a.negInf then 0xFF800000
  else toF32 (.fin (decide (a.value < 0)) a.value.natAbs (-298))

/-! ## CRC-32C -/

def crcBit (c : Nat) : Nat := if c % 2 = 1 then (c / 2) ^^^ 0x82F63B78 else c / 2

def crcByte (c : Nat) (b : Byte) : Nat :=
  let x := c ^^^ b.toNat
  crcBit (crcBit (crcBit (crcBit (crcBit (crcBit (crcBit (crcBit x)))))))

/-- CRC-32C of bytes. -/
def crc32c (l : List Byte) : Nat := (l.foldl crcByte 0xFFFFFFFF) ^^^ 0xFFFFFFFF

end Sys2Proof.Machine
end

