-- ==== Sys2Proof/Machine/StateFabric.lean ====
section
/-! DEFINITION. The state of addressing (chapter 3), ordering (chapter 4) and the fabric interface (chapter 5). -/

namespace Sys2Proof.Machine

/-! ## Memory -/

/-- The device's memory. Every DPA of Table 3-2 is a byte of `bytes` but for tier contents, which keep their DPA (R78). -/
structure MemState where
  bytes : Mem := []
  /-- 64 B lines marked poisoned, by line number (R97) -/
  poison : List Nat := []
  /-- the key serial under which a line was last written (R576); absent for lines never written -/
  lineKey : Tab Nat := []
  /-- channels whose lines are lost: retired channels, those of lost stacks and engine dies (R32, R601) -/
  lost : List Nat := []
  deriving DecidableEq, Repr

/-! ## Windows (R82 to R87) -/

/-- FAB_WIN_LAST_FAULT. -/
structure WinFault where
  addr : Nat := 0
  src : Nat := 0
  reason : Nat := 0
  tick : Nat := 0
  deriving DecidableEq, Repr

structure WindowState where
  committed : Tab (BitVec 128) := []
  shadow : Tab (BitVec 128) := []
  /-- an accepted commit: the copy of the shadow taken at its APPLY, and the MCLK time of that write -/
  pending : Option (Tab (BitVec 128) × Nat) := none
  draining : Bool := false
  /-- entries that commits have replaced and under which requests still complete (R87) -/
  old : List (BitVec 128) := []
  refused : Nat := 0
  lastFault : WinFault := {}
  deriving DecidableEq, Repr

/-! ## Ordering (chapter 4) -/

/-- A flagged store, submission or OWN packet held until its source's earlier writes have settled (R106, R110). -/
structure Held where
  pkt : Packet
  /-- an OWN packet's window entry, looked up before it was ordered (R168) -/
  entry : Option (BitVec 128)
  deriving DecidableEq, Repr

/-- What the destination keeps of one source's write sequence (R160). -/
structure SeqTrack where
  gen : Nat
  mark : Nat
  /-- settled SEQs from MARK to MARK + 1,023 -/
  settled : List Nat := []
  deriving DecidableEq, Repr

/-- An arrival counter (R111, R116). -/
structure Counter where
  value : Nat := 0
  threshold : Nat := 0xFFFFFFFFFFFFFFFF
  notify : Nat := 0
  notifyEn : Bool := false
  armed : Bool := true
  deriving DecidableEq, Repr

/-- An origin's placement epoch: accepted, and an announced advance with its tick (R129, R130). -/
structure EpochState where
  accepted : Nat := 0
  announced : Nat := 0
  pendingTick : Option Nat := none
  deriving DecidableEq, Repr

/-- Why a request was originated: a descriptor by token, a notify, a completion store of a queue, a SEQ_SYNC, the
firmware or a protection group's update. -/
inductive Origin where
  | desc (tok : Nat)
  | notify (counter : Nat)
  | complStore (queue : Nat)
  | sync (dest : Nat)
  /-- an update of a held write: its line, the member's position (R606) -/
  | group (line pos : Nat)
  /-- a group read or stripe hold of a reconstruction: line, position (R607, R608) -/
  | gather (line pos : Nat)
  /-- the release of a stripe hold (R609) -/
  | release (line pos : Nat)
  | service
  deriving DecidableEq, Repr

/-- This device's write numbering towards one destination (R160, R162). -/
structure SendSeq where
  gen : Nat
  next : Nat := 0
  /-- the SEQ_SYNC of `gen` has been acknowledged -/
  synced : Bool := false
  /-- the generation must be renewed before the next write-class packet (R162) -/
  resync : Bool := false
  /-- write-class packets behind the SEQ_SYNC, oldest first -/
  waiting : List (Origin × Packet) := []
  deriving DecidableEq, Repr

structure OrderState where
  held : List Held := []
  track : Tab SeqTrack := []
  counters : Tab Counter := []
  epochs : Tab EpochState := []
  staleCount : Nat := 0
  flagTimeouts : Nat := 0
  notifyFails : Nat := 0
  send : Tab SendSeq := []
  deriving DecidableEq, Repr

/-! ## Ports, routes, requests (chapter 5) -/

/-- Table 5-2. -/
inductive PortState where
  | disabled | detect | train | align | init | active | degraded | retrain | failed
  deriving DecidableEq, Repr

def PortState.code : PortState → Nat
  | .disabled => 0 | .detect => 1 | .train => 2 | .align => 3 | .init => 4
  | .active => 5 | .degraded => 6 | .retrain => 7 | .failed => 8

/-- A packet queued for a port: its virtual channel, whether it is on the escape sub-channel. -/
structure Queued where
  vc : Nat
  esc : Bool
  pkt : Packet
  deriving DecidableEq, Repr

/-- A fabric port. -/
structure Port where
  state : PortState := .disabled
  enable : Bool := false
  minLanes : Nat := 0
  /-- lanes good at both ends, as a mask -/
  good : Nat := 0
  width : Nat := 0
  /-- FAB_PORT_EVT of the port -/
  evt : Nat := 0
  /-- FAB_VC_CFG(v) of the port -/
  vcCfg : List Word
  /-- frame sequence numbers: next to send, next expected -/
  txNext : Nat := 0
  rxNext : Nat := 0
  /-- unacknowledged frames, oldest first: sequence number, packets placed in it -/
  retry : List (Nat × List Packet) := []
  /-- a gap was found and NAK returned; frames are discarded until the resent one -/
  nakSent : Bool := false
  /-- consecutive resends of the first unacknowledged frame -/
  resends : Nat := 0
  /-- packets waiting for credit or for a frame -/
  queue : List Queued := []
  /-- credits held towards the peer, entry 2v + s in flits -/
  credits : List Nat := []
  neighbour : BitVec 64 := 0
  corrected : Nat := 0
  uncorrected : Nat := 0
  retries : Nat := 0
  creditStall : Nat := 0
  deriving DecidableEq, Repr

/-- Where the data of a read goes: memory under a key slot, host memory behind a port, a fabric address. -/
inductive Into where
  | mem (key d : Nat)
  | host (port a : Nat)
  | fab (addr key : Nat)
  deriving DecidableEq, Repr

/-- An outstanding request of this device (R157, R158). -/
structure Request where
  gen : Nat
  pkt : Packet
  origin : Origin
  /-- responses still expected -/
  expect : Nat
  /-- where a read's data goes -/
  into : Option Into := none
  /-- status and reason of the first response that refused it (R159) -/
  status : Nat := 0
  reason : Nat := 0
  deriving DecidableEq, Repr

/-- FAB_CONG_DST of a destination, FAB_CONG_WIN of a window. -/
structure Cong where
  bytes : Nat := 0
  reqs : Nat := 0
  waitNs : Nat := 0
  refused : Nat := 0
  deriving DecidableEq, Repr

/-- FAB_DROPS. -/
structure Drops where
  e2eCrc : Nat := 0
  noRoute : Nat := 0
  hopLimit : Nat := 0
  badType : Nat := 0
  deriving DecidableEq, Repr

structure FabState where
  ports : Tab Port := []
  route : Tab (BitVec 64) := []
  mcast : Tab (BitVec 64) := []
  /-- ownership entries: owner, mode (R166); an absent entry is OPEN with OWNER 0 -/
  own : Tab (Nat × Nat) := []
  joined : Bool := false
  leaving : Bool := false
  devidSet : Bool := false
  outstanding : Tab Request := []
  /-- requests waiting in engine queues for a tag, oldest first (R157) -/
  tagWait : List Request := []
  /-- packets that have found no adaptive port with credit (R150) -/
  parked : List Packet := []
  /-- multicast packets that wait for credit on every child port (R153) -/
  mcWait : List Packet := []
  tagGen : Tab Nat := []
  congDst : Tab Cong := []
  congWin : Tab Cong := []
  drops : Drops := {}
  respTimeouts : Nat := 0
  /-- responses that matched no outstanding request (R158) -/
  unmatched : Nat := 0
  seqStale : Nat := 0
  deriving DecidableEq, Repr

end Sys2Proof.Machine
end

