-- ==== Sys2Proof/Machine/StateHosts.lean ====
section
/-! DEFINITION. The state of host ports, the directory and shared ranges (chapter 6). -/

namespace Sys2Proof.Machine

/-! ## Requests that may wait at a home -/

/-- A host's CXL.mem request for one line, resolved to the device (R189). -/
inductive HostReq where
  | rd (m : MetaVal)
  | rdData
  | inv
  | invNt
  | clnEvct
  /-- a write of 64 bytes, those that `mask` enables -/
  | wr (m : MetaVal) (data : List Byte) (mask : Nat)
  deriving DecidableEq, Repr

/-- A request that waits at a home for a recall, for MIN_HOLD or for a busy line (R191, R193, R194). -/
inductive Waiter where
  /-- host port, line, key slot it is served under -/
  | host (port line key : Nat) (req : HostReq)
  /-- an inbound packet, the window entry of its lookup (R87), the key epoch then (R577) -/
  | fabric (pkt : Packet) (entry : BitVec 128) (epoch : Nat)
  /-- the access of a descriptor -/
  | engine (tok line : Nat) (write : Bool)
  /-- the recall of a line by revocation (R200) -/
  | revoke (line : Nat)
  deriving DecidableEq, Repr

/-! ## The Willow directory (R186 to R199) -/

/-- Table 6-2; a line without an entry is in I. -/
inductive DirKind where
  | shared (sharers : Nat)
  | owned (owner : Nat)
  deriving DecidableEq, Repr

structure DirEntry where
  kind : DirKind
  /-- within MIN_HOLD of its last grant -/
  hold : Bool
  /-- serial of its last grant -/
  granted : Nat
  deriving DecidableEq, Repr

/-- BISnp kinds (Table 6-1). -/
inductive Snp where
  | inv | data | cur
  deriving DecidableEq, Repr

/-- An open transaction with recalls outstanding (R191). -/
structure Recall where
  snp : Snp
  /-- hosts whose BIRsp is awaited, as a mask -/
  hosts : Nat
  /-- an entry being freed for another line (R194) -/
  evict : Bool := false
  deriving DecidableEq, Repr

inductive Domain where
  | up | walking | down
  deriving DecidableEq, Repr

def Domain.code : Domain → Nat
  | .up => 0 | .walking => 1 | .down => 2

structure DirState where
  entries : Tab DirEntry := []
  recalls : Tab Recall := []
  waiters : List Waiter := []
  /-- recalls of kind Cur that have closed, for the request that asked: the waiter and the line -/
  current : List (Waiter × Nat) := []
  domain : Domain := .up
  /-- DIR_DOWN_INFO: port, line, tick, lines poisoned -/
  downPort : Nat := 0
  downLine : Nat := 0
  downTick : Nat := 0
  poisoned : Nat := 0
  /-- DIR_COUNTS -/
  bisnpSent : Nat := 0
  capRecalls : Nat := 0
  staleSnoops : Nat := 0
  holdWaits : Nat := 0
  /-- responses and writebacks discarded after the domain went down (R196) -/
  lateDiscards : Nat := 0
  grants : Nat := 0
  deriving DecidableEq, Repr

/-! ## Host ports and extents (R180 to R185) -/

structure HostPort where
  up : Bool := false
  rate : Nat := 0
  width : Nat := 0
  /-- bit d: decoder d committed; bit d of `decErr`: its last commit was refused -/
  committed : Nat := 0
  decErr : Nat := 0
  decBase : List Nat := [0, 0, 0]
  /-- HIF_PORT_CFG and HIF_LAYOUT of the port -/
  cfg : Word := 0
  layout : Word := 0
  /-- HIF_HOST_DROPS -/
  poisonReads : Nat := 0
  droppedWrites : Nat := 0
  revokeDrops : Nat := 0
  shrDrops : Nat := 0
  deriving DecidableEq, Repr

/-! ## Shared ranges (R202 to R211) -/

/-- A slot of a shared range in use: the draft or a published version. -/
structure ShrSlot where
  version : Nat
  /-- logical granules whose physical granule is not their own place in the data extents -/
  map : Tab Nat := []
  /-- ports that hold the version open -/
  holders : Nat := 0
  deriving DecidableEq, Repr

/-- A copy-on-write in progress (R206): the granule, the spare it goes to, the accesses held, oldest first. -/
structure Cow where
  granule : Nat
  spare : Nat
  held : List (Nat × Nat × HostReq) := []
  deriving DecidableEq, Repr

structure SharedRange where
  slots : Tab ShrSlot := []
  newest : Nat := 0
  draft : Nat := 0
  broken : Bool := false
  cows : List Cow := []
  /-- SNAP_PUBLISH and SNAP_DISCARD descriptors whose boundary is to come -/
  publish : List Nat := []
  discard : List Nat := []
  deriving DecidableEq, Repr

structure HostState where
  ports : Tab HostPort := []
  /-- HIF_EXT_ENTRY by DPA extent -/
  ext : Tab Word := []
  /-- HIF_SHR_DESC as written, and as committed -/
  shrDesc : Tab (BitVec 128) := []
  shrLive : Tab (BitVec 128) := []
  shr : Tab SharedRange := []
  /-- ranges whose versions are freed at the next boundary (R203) -/
  shrClosing : List Nat := []
  /-- HIF_LAST_DROP: port, decoder, reason, offset, tick -/
  lastDrop : Nat × Nat × Nat × Nat × Nat := (0, 0, 0, 0, 0)
  /-- event records held for the CXL Get Event Records command -/
  cxlEvents : List (List Byte) := []
  deriving DecidableEq, Repr

end Sys2Proof.Machine
end

