-- ==== Sys2Proof/Machine/StateXlat.lean ====
section
/-! DEFINITION. The state of translation (chapter 7), of the tier (chapter 8) and of the codec (chapter 9). -/

namespace Sys2Proof.Machine

/-! ## Translation -/

/-- A translation as a TLB holds it (R224). -/
structure Xlat where
  ctx : Nat
  vmid : Nat
  /-- first VA and IPA of the page run -/
  va : Nat
  ipa : Nat
  /-- first output address -/
  out : Nat
  /-- page size in bytes; run length in pages -/
  size : Nat
  run : Nat := 1
  host : Bool
  mig : Bool
  /-- what each stage grants -/
  s1Read : Bool := true
  s1Write : Bool := true
  s2Read : Bool := true
  s2Write : Bool := true
  deriving DecidableEq, Repr

/-- A table walk in progress (R220, R229). -/
structure Walk where
  ctx : Nat
  va : Nat
  /-- bit 0 read, bit 1 write, bit 2 atomic -/
  access : Nat
  /-- key slot its reads are made under -/
  key : Nat
  gen : Nat
  deriving DecidableEq, Repr

/-- An assist request pending (R226, R227). -/
structure AssistReq where
  ctx : Nat
  va : Nat
  len : Nat := 0
  /-- 0x01 MISS, 0x02 FAULT, 0x03 PREFETCH, 0x04 ADVISE -/
  kind : Nat
  access : Nat
  leaf : Nat := 0
  gen : Nat
  key : Nat := 0
  /-- the PREFETCH or ADVISE that waits for the answer -/
  tok : Option Nat := none
  deriving DecidableEq, Repr

/-- A migration in progress (Table 7-7). -/
structure Migration where
  ctx : Nat
  /-- VA page and page size -/
  va : Nat
  size : Nat
  /-- where the leaf lies: a DPA, or a host address -/
  leafHost : Bool
  leafAddr : Nat
  /-- the leaf as read -/
  leaf : Nat
  /-- the pool page -/
  pool : Nat
  key : Nat
  deriving DecidableEq, Repr

/-- What an INVALIDATE or XLT_SET_ROOT covers. -/
structure InvScope where
  tok : Nat
  s2 : Bool
  all : Bool
  ctx : Nat
  vmid : Nat
  addr : Nat
  len : Nat
  deriving DecidableEq, Repr

structure XltState where
  committed : Tab (BitVec 256) := []
  shadow : Tab (BitVec 256) := []
  /-- migration ranges, range i of context c at 8 c + i -/
  mranges : Tab (BitVec 128) := []
  mshadow : Tab (BitVec 128) := []
  /-- accepted commits: record and ranges as they stood at APPLY -/
  pending : Tab (BitVec 256 × List (BitVec 128)) := []
  /-- die TLBs by engine die, newest entry first; cluster TLBs by die * 256 + region * 16 + cluster -/
  tlb : Tab (List Xlat) := []
  ctlb : Tab (List Xlat) := []
  /-- invalidation generations by engine die (R229) -/
  gen : Tab Nat := []
  walks : List Walk := []
  assist : Tab AssistReq := []
  nextReq : Nat := 0
  /-- accesses that wait for a translation: descriptor, context, VA page -/
  waiting : List (Nat × Nat × Nat) := []
  /-- what such an access finds when its wait has failed: descriptor, context, VA page, reason -/
  failed : List (Nat × Nat × Nat × Nat) := []
  migrations : List Migration := []
  /-- migrations asked for and not yet started: context, VA, access, key slot -/
  migWanted : List (Nat × Nat × Nat × Nat) := []
  /-- pool pages in use: DPA, size -/
  poolUsed : Tab Nat := []
  /-- translations held (R231): descriptor, translation -/
  held : List (Nat × Xlat) := []
  /-- faults found in pre-translation: descriptor, status, reason, VA (R232) -/
  preFault : Tab (Nat × Nat × Nat) := []
  invs : List InvScope := []
  /-- XLT_COUNTS and XLT_LAST_FAULT -/
  clusterMisses : Nat := 0
  dieMisses : Nat := 0
  walkCount : Nat := 0
  migCount : Nat := 0
  lastFault : Nat × Nat × Nat × Nat := (0, 0, 0, 0)
  deriving DecidableEq, Repr

/-! ## The tier (R252 to R263) -/

/-- A granule with tier slots: promoted, or on its way in or out. -/
structure TierGranule where
  /-- key slot recorded in its tags -/
  key : Nat
  /-- parts whose tags are on, as a mask -/
  on : Nat := 0
  /-- parts being copied in, and being written back and removed -/
  copying : Nat := 0
  leaving : Nat := 0
  /-- dirty masks and access counters by part -/
  dirty : Tab Nat := []
  heat : Tab Nat := []
  pinned : Bool := false
  /-- the victim whose slots it takes as they are freed (R261) -/
  after : Option Nat := none
  deriving DecidableEq, Repr

/-- A nomination (R260): granule, estimate, key slot of the access. -/
structure Nomination where
  granule : Nat
  estimate : Nat
  key : Nat
  deriving DecidableEq, Repr

/-- Tier, row-cache, hot-KV and scratch blocks of a region (TIR_SPLIT). -/
structure Split where
  tier : Nat := 0
  rcache : Nat := 0
  kvhot : Nat := 0
  scratch : Nat := 0
  deriving DecidableEq, Repr

/-- A tier descriptor whose granules are being moved (R265): counts so far, highest drop reason, and the fault that ended
its range. -/
structure TierJob where
  tok : Nat
  granules : List Nat
  done : Nat
  dropped : Nat
  reason : Nat
  stop : Option (Nat × Nat × Nat) := none
  deriving DecidableEq, Repr

structure TierState where
  split : Tab Split := []
  /-- accepted splits, by region: the new one, and whether it is being carried out -/
  splitPending : Tab Split := []
  /-- SRAM blocks retired, by region -/
  retired : Tab Nat := []
  granules : Tab TierGranule := []
  /-- sketch counters: counter i of row r of region h at (4 h + r) * 16384 + i -/
  sketch : Tab Nat := []
  noms : List Nomination := []
  /-- promotions started in the tick now running -/
  started : Nat := 0
  jobs : List TierJob := []
  /-- lines whose fetch was late and is not yet over (R269) -/
  lateLines : List Nat := []
  promotions : Nat := 0
  demotions : Nat := 0
  skipped : Nat := 0
  keyCross : Nat := 0
  nomDrops : Nat := 0
  /-- TIR_DL_COUNTS -/
  lateAtIssue : Nat := 0
  lateAtDeadline : Nat := 0
  lateDiscards : Nat := 0
  partsLost : Nat := 0
  deriving DecidableEq, Repr

/-! ## The codec (R286 to R307) -/

inductive CdcPhase where
  | free | building | valid | freeing
  deriving DecidableEq, Repr

def CdcPhase.code : CdcPhase → Nat
  | .free => 0 | .building => 1 | .valid => 2 | .freeing => 3

structure CdcTable where
  phase : CdcPhase := .free
  slice : Nat := 0
  format : Nat := 0
  /-- the 256 B image -/
  image : List Byte := []
  /-- histogram by exponent value -/
  hist : Tab Nat := []
  /-- the tick of the CDC_TABLE_FREE -/
  freed : Nat := 0
  deriving DecidableEq, Repr

structure CdcState where
  tables : Tab CdcTable := []
  decoded : Nat := 0
  encoded : Nat := 0
  rawStored : Nat := 0
  bubbles : Nat := 0
  decodeErrors : Nat := 0
  classOver : Nat := 0
  plainOverwrites : Nat := 0
  adoptRejects : Nat := 0
  /-- CDC_LAST_ERROR: block DPA, reason, location, tick -/
  lastError : Nat × Nat × Nat × Nat := (0, 0, 0, 0)
  deriving DecidableEq, Repr

/-! ## Protection groups and held writes (R603 to R614) -/

/-- Who waits for a held write. -/
inductive HoldOrigin where
  | desc (tok : Nat)
  /-- an inbound packet: its answer is sent when the write is applied -/
  | packet (p : Packet)
  | host (port : Nat)
  | none
  deriving DecidableEq, Repr

/-- A write held at its home until every update is answered (R606). -/
structure HeldWrite where
  line : Nat
  key : Nat
  data : List Byte
  /-- a poison marking -/
  poison : Bool := false
  /-- positions whose answers are still awaited; 15 for SWAP_DEV -/
  awaiting : List Nat
  origin : HoldOrigin
  /-- the old value an atomic returns -/
  old : Nat := 0
  /-- counter and bytes to credit when it becomes visible -/
  credit : Option (Nat × Nat) := Option.none
  /-- the metadata entry an encode writes with the line (R295) -/
  entry : Option Nat := Option.none
  deriving DecidableEq, Repr

/-- A stripe hold on a parity line: holder's source ID, holders waiting, deltas waiting (R609). -/
structure StripeHold where
  holder : Nat
  /-- bytes of the LOAD that took it -/
  len : Nat := 64
  queue : List Packet := []
  deltas : List (Nat × Packet) := []
  deriving DecidableEq, Repr

/-- The reconstruction of a line in progress: the pieces gathered so far (R607). -/
structure Gather where
  line : Nat
  /-- position, bytes received -/
  got : Tab (List Byte) := []
  awaiting : List Nat
  /-- the parity positions whose stripe holds this reconstruction has taken -/
  holding : List Nat := []
  /-- the result, once computed; it is used when every release is answered ST_OK -/
  result : Option (List Byte) := Option.none
  deriving DecidableEq, Repr

structure PgState where
  committed : Tab (BitVec 256) := []
  shadow : Tab (BitVec 256) := []
  pending : Tab (BitVec 256) := []
  held : List HeldWrite := []
  /-- updates that failed, to be dealt with: line, position -/
  failed : List (Nat × Nat) := []
  holds : Tab StripeHold := []
  /-- poisoned lines of redundancy extents to be rebuilt (R611) -/
  poisonList : List Nat := []
  gathers : List Gather := []
  /-- lines with an uncorrectable error that are rewritten once they are reconstructed (R611) -/
  repair : List Nat := []
  /-- lines reconstructed and not yet used by the reads they were made for -/
  recon : Tab (List Byte) := []
  /-- lines whose reconstruction needed a poisoned line (R611) -/
  reconPoison : List Nat := []
  /-- blocks per tick by extent (BUILD_PACE), and blocks built in the tick now running -/
  pace : Tab Nat := []
  built : Nat := 0
  builtBy : Tab Nat := []
  deriving DecidableEq, Repr

end Sys2Proof.Machine
end

