-- ==== Sys2Proof/Machine/StateSys.lean ====
section
/-! DEFINITION. The state of units and clusters (chapter 1), power (chapter 18), key slots (chapter 19), fault records
(chapter 20) and slices (chapter 21), as far as every other part looks at it. -/

namespace Sys2Proof.Machine

/-- Table 19-7. -/
inductive SlotPhase where
  | free | active | retiring | zeroising
  deriving DecidableEq, Repr

def SlotPhase.code : SlotPhase → Nat
  | .free => 0 | .active => 1 | .retiring => 2 | .zeroising => 3

/-- A key slot (R573, R574). `memKey` is the serial of the memory key now in it: keys are told apart by number only, no
key value is held in the model. -/
structure KeySlot where
  phase : SlotPhase := .free
  slice : Nat := 0
  epoch : Nat := 0
  owner : BitVec 384 := 0
  memKey : Nat := 0
  flashKey : Nat := 0
  /-- a RETIRE accepted and not yet at its boundary -/
  retirePending : Bool := false
  /-- the MCLK time of boundary B + 1 of Table 19-11 -/
  drainFrom : Option Nat := none
  deriving DecidableEq, Repr

/-- A fault record (Table 20-2), but for the TICK and SEQ the queue gives it. -/
structure FaultRec where
  cls : Nat
  reason : Nat := 0
  location : Nat := 0
  tick : Nat := 0
  seq : Nat := 0
  addr : Nat := 0
  count : Nat := 1
  detail : Nat := 0
  deriving DecidableEq, Repr

/-- CMP_METER of a slice. -/
structure Meter where
  unitTicks : Nat := 0
  gibTicks : Nat := 0
  laneTicks : Nat := 0
  flashReads : Nat := 0
  deriving DecidableEq, Repr

/-- Slices (chapter 21). -/
structure SliceState where
  committed : Tab (BitVec 2048) := []
  shadow : Tab (BitVec 2048) := []
  /-- accepted commits: the copy taken at APPLY and the MCLK time of that write -/
  pending : Tab (BitVec 2048 × Nat) := []
  meters : Tab Meter := []
  /-- the descriptor that governed the round of the tick now running, where a commit has changed it (R631, R633) -/
  governed : Tab (BitVec 2048) := []
  /-- slices deleted since the last METER message -/
  deleted : List Nat := []
  /-- 16 KiB pages read in the tick now running, by slice (R633) -/
  pagesRead : Tab Nat := []
  /-- at the start of the tick now running: working lanes by port, matrix and embedding clusters in service as masks -/
  lanes : Tab Nat := []
  mtxIn : Nat := 0
  embIn : Nat := 0
  deriving DecidableEq, Repr

/-- A unit named by a location without its slot: `die * 2^24 + region * 2^20 + cluster * 2^16 + unit * 2^8`, its
physical slot and its attempt number (R13, R15, R128). -/
structure UnitState where
  slot : Nat
  attempt : Nat := 0
  failed : Bool := false
  /-- ticks of its intermittent failures (R599) -/
  intermittent : List Nat := []
  deriving DecidableEq, Repr

/-- Units, clusters, dies. -/
structure UnitsState where
  units : Tab UnitState := []
  /-- clusters whose spare is in use: die * 256 + region * 16 + cluster -/
  spared : List Nat := []
  /-- codec lane groups whose spare lane is in use, by unit key -/
  laneSpared : List Nat := []
  /-- clusters that have left service (R16): die * 256 + region * 16 + cluster -/
  leftService : List Nat := []
  /-- parts to be spared or retired at step 2 of the next boundary: location codes (R599) -/
  due : List Nat := []
  /-- units under their in-place test, by unit key (R599) -/
  testing : List Nat := []
  /-- service-core pairs out of service, and pairs halted and not yet tested (R602) -/
  pairsOut : List Nat := []
  pairsHalted : List Nat := []
  /-- DIE codes of lost dies (R32) -/
  lostDies : List Nat := []
  /-- lost engine dies whose stand-in homes have not taken over (R601) -/
  standInDue : List Nat := []
  deriving DecidableEq, Repr

/-! ## Stacks and power (chapter 18) -/

/-- A DRAM channel (Tables 18-5 and 18-6). -/
structure ChanState where
  trained : Bool := false
  retired : Bool := false
  spareRows : Nat := 0
  corrected : Nat := 0
  uncorrectable : Nat := 0
  rowsSpared : Nat := 0
  scrubPasses : Nat := 0
  deriving DecidableEq, Repr

structure StackState where
  trained : Bool := false
  hot : Bool := false
  tempC : Nat := 0
  deriving DecidableEq, Repr

structure StkState where
  chans : Tab ChanState := []
  stackTab : Tab StackState := []
  /-- STK_LAST_ERROR: DPA, kind, location, tick -/
  lastError : Nat × Nat × Nat × Nat := (0, 0, 0, 0)
  /-- corrected errors of the last 24 hours: channel, row, MCLK time (Table 20-4, row 5) -/
  rowErrors : List (Nat × Nat × Nat) := []
  /-- rows to be spared at step 2 of the next boundary: channel, row -/
  rowDue : List (Nat × Nat) := []
  /-- PWR_COUNTS -/
  energyMJ : Nat := 0
  reducedTicks : Nat := 0
  islandSwitches : Nat := 0
  deriving DecidableEq, Repr

/-! ## Security (chapter 19) -/

/-- An entry of the model-key table (R582). -/
structure ModelKey where
  gen : Nat
  live : Bool
  slot : Nat
  epoch : Nat
  program : Nat
  key : List Byte
  deriving DecidableEq, Repr

/-- The bounce frames of a confidential port (R585): its key, its next device-to-host SEQ, its last accepted
host-to-device SEQ. -/
structure BouncePort where
  key : List Byte
  next : Nat := 1
  last : Nat := 0
  deriving DecidableEq, Repr

/-- An SPDM session (R570, R580): whether FINISH has completed it, whether its requester was authenticated, the digest of
the requester's leaf public key, whether the requester's chain is rooted in the management root (R648), key updates. -/
structure SpdmSession where
  id : Nat
  done : Bool := false
  authentic : Bool := false
  leaf : BitVec 384 := 0
  rooted : Bool := false
  updates : Nat := 0
  deriving DecidableEq, Repr

/-- The connection of one transport: host ports' DOE 0 to 7, management ports 8 and 9. -/
structure SpdmConn where
  /-- MSEQ of the management message that brought the latest request (Table 22-8) -/
  mseq : Nat := 0
  version : Bool := false
  capabilities : Bool := false
  algorithms : Bool := false
  sessions : List SpdmSession := []
  nextId : Nat := 1
  /-- the large request gathered by CHUNK_SEND, and the large response that CHUNK_GET reads out -/
  request : List Byte := []
  response : List Byte := []
  deriving DecidableEq, Repr

/-- The state that measurement blocks 5 to 9 report (Table 19-6, R572), as it stood at step 8 of a boundary. -/
structure Report where
  tick : Nat := 0
  fuses : BitVec 128 := 0
  otpGen : Wide := 0
  /-- VALUE[31:0] of OTP records 0 to 3 -/
  records : List Nat := []
  windows : Tab (BitVec 128) := []
  ext : Tab Word := []
  /-- HIF_LAYOUT and HIF_PORT_CFG by host port -/
  ports : Tab (Word × Word) := []
  slices : Tab (BitVec 2048) := []
  shr : Tab (BitVec 128) := []
  slots : Tab KeySlot := []
  conf : Tab Nat := []
  deriving DecidableEq, Repr

structure SecState where
  report : Report := {}
  /-- SEC_STALE_COUNT -/
  staleCount : Nat := 0
  /-- confidential host ports and the key slot each is bound to (R585) -/
  conf : Tab Nat := []
  bounce : Tab BouncePort := []
  modelKeys : Tab ModelKey := []
  /-- SEC_FUSES (Table 19-4): of a YX1152-AC, DEBUG_OPENED clear -/
  fuses : BitVec 128 := 0xF000D
  /-- LOT, WAFER, DIE_X and DIE_Y fuses (IDN_SERIAL) -/
  serialFuses : BitVec 128 := 0
  /-- programmed OTP generation slots, slot g of record r at 4 r + g (R566) -/
  otp : Tab Wide := []
  /-- slots being programmed, and their images, oldest first (R567) -/
  otpBusy : List (Nat × Wide) := []
  /-- SEC_OTP_DATA and SEC_OTP_GEN -/
  otpData : Wide := 0
  otpGen : Wide := 0
  spdm : Tab SpdmConn := []
  /-- the TAP instruction in the instruction register (R569), the boundary-scan register's cells as last preloaded, and whether
  EXTEST drives them -/
  tapInstr : Nat := 0
  scanCells : Nat := 0
  extest : Bool := false
  deriving DecidableEq, Repr

/-! ## Reliability (chapter 20) -/

/-- One tick of the lateness window (R615): its lateness, µs, where it was late, and whether it had an overrun. -/
structure LateTick where
  late : Option Nat := none
  overrun : Bool := false
  deriving DecidableEq, Repr

structure RasState where
  /-- the last 1,024 ticks counted, newest first, and the last of them -/
  window : List LateTick := []
  windowEnd : Nat := 0
  suspect : Bool := false
  suspectSince : Nat := 0
  /-- an operation was stopped under R67 at the boundary now taken -/
  stopped : Bool := false
  /-- at the boundary before: an operation overran the tick then ended; SYNC was not LOCKED; how many boundaries since RUN,
  up to 2 -/
  overran : Bool := false
  unsync : Bool := false
  seen : Nat := 0
  /-- SWAP_OUT accepted for tick T; SWAP_TAKE accepted: device, tick, DEAD -/
  swapOut : Option Nat := none
  swapTake : Option (Nat × Nat × Bool) := none
  /-- epoch advances announced by the tick master: device, epoch, tick (R130, R155) -/
  announce : List (Nat × Nat × Nat) := []
  /-- secured-type messages discarded outside a session (R648) -/
  discarded : Nat := 0
  /-- management messages sent of the device's own (Table 22-8) -/
  mseq : Nat := 0
  deriving DecidableEq, Repr

/-! ## Start-up and package (chapters 22 and 23) -/

structure BootState where
  /-- boots so far; M1 of this boot (R562); digests of boot ROM, Lemtus image, microcode and loader (Table 19-6) -/
  number : Nat := 0
  m1 : List Byte := []
  digests : List (List Byte) := []
  /-- VALUE[31:0] of OTP records 0 to 3 as the last cold reset read them (R567, R643) -/
  records : List Nat := []
  /-- this boot follows a warm reset -/
  warm : Bool := false
  /-- stage STACKS has completed since the last cold reset (R637) -/
  stacksDone : Bool := false
  /-- image slot that boot took: 0 A, 1 B, 2 received in IMAGE messages -/
  image : Nat := 0
  /-- no slot held a valid image: boot waits for IMAGE messages; the image gathered, and whether its end has come -/
  wantsImage : Bool := false
  received : List Byte := []
  imageEnd : Bool := false
  /-- SPI NOR image slots that UPDATE orders name -/
  updating : List Nat := []
  /-- the board configuration read passed its CRC (R645) -/
  boardOk : Bool := false
  board : List Byte := []
  /-- IDN_SERIAL and IDN_FIRMWARE as they read -/
  serial : BitVec 128 := 0
  firmware : BitVec 128 := 0
  /-- host ports whose function-level reset is in progress (R640) -/
  fnReset : List Nat := []
  /-- lands: MGT_PWRGOOD, MAIN_PWRGOOD, RESET_N low -/
  mgtGood : Bool := true
  mainGood : Bool := true
  resetLow : Bool := false
  /-- every die but the management die is held in reset -/
  held : Bool := false
  /-- the thermal latch (R665) -/
  tripped : Bool := false
  /-- MREFCLK is lost (R661) -/
  clockStopped : Bool := false
  deriving DecidableEq, Repr

end Sys2Proof.Machine
end

