-- ==== Sys2Proof/Machine/StateMtx.lean ====
section
/-! DEFINITION. The state of the matrix engine (chapter 10) and of the KV service (chapter 14). -/

namespace Sys2Proof.Machine

/-! ## Tile programs (R328 to R341) -/

/-- An operand record (Table 10-7). -/
structure Opnd where
  addr : Nat
  saddr : Nat
  space : Nat
  base : Nat
  fmt : Nat
  cattr : Nat
  stride : Nat
  /-- its reserved bits are all 0 -/
  clean : Bool
  deriving DecidableEq, Repr

/-- An operation record (Table 10-6), and what the loader recorded for it (R338). -/
structure TileOp where
  opc : Nat
  oflags : Nat
  units : Nat
  dec : Nat
  place : Nat
  cluster : Nat
  act : Nat
  subop : Nat
  alpha : Nat
  arg : Nat
  m : Nat
  n : Nat
  k : Nat
  batch : Nat
  a : Opnd
  b : Opnd
  out : Opnd
  aux : Opnd
  deriving DecidableEq, Repr

/-- Placement entry: die, region, cluster mask (R329). -/
structure Placement where
  die : Nat
  region : Nat
  clusters : Nat
  deriving DecidableEq, Repr

inductive ProgPhase where
  | free | loading | loaded | unloading
  deriving DecidableEq, Repr

def ProgPhase.code : ProgPhase → Nat
  | .free => 0 | .loading => 1 | .loaded => 2 | .unloading => 3

/-- A program slot. -/
structure Prog where
  phase : ProgPhase := .free
  gen : Nat := 0
  slice : Nat := 0
  programId : Nat := 0
  weightBytes : Nat := 0
  reserve : Nat := 0
  scratchKib : Nat := 0
  bufKib : Nat := 0
  places : List Placement := []
  ops : List TileOp := []
  /-- the weight area's pieces, DPA and length, resolved at load (R341) -/
  warea : List (Nat × Nat) := []
  /-- key slot and epoch the weights are read and written under -/
  key : Nat := 0
  keyEpoch : Nat := 0
  /-- SHA-384 of the plaintext weight area, as a digest of its bytes -/
  digest : List Byte := []
  /-- scratch of placement region p at p * 2^32, and cluster buffer of (p, cluster) at (32 + 4 p + c) * 2^32 -/
  local_ : Mem := []
  /-- poisoned 64 B lines of `local_` -/
  localPoison : List Nat := []
  /-- TP_LOAD descriptor that is loading it; TP_UNLOAD descriptor that waits -/
  loader : Option Nat := none
  unloader : Option Nat := none
  /-- the model key a TP_LOAD under way has taken (R582) -/
  wkey : Option (List Byte) := none
  deriving DecidableEq, Repr

/-- A run that has begun: a TP_RUN, or the one operation of a KV_ATTEND (R342, R472). -/
structure MtxRun where
  /-- program slot; none for a KV_ATTEND -/
  slot : Option Nat
  /-- index of its first operation in the program -/
  first : Nat
  places : List Placement
  ops : List TileOp
  bases : List Nat
  /-- work items finished, by position of the operation in the run -/
  done : Tab Nat := []
  /-- attempt number of the work item in progress, by cluster (R128) -/
  attempts : Tab Nat := []
  poison : Bool := false
  /-- tokens attended -/
  attended : Nat := 0
  deriving DecidableEq, Repr

structure MtxState where
  progs : Tab Prog := []
  runs : Tab MtxRun := []
  tiles : Nat := 0
  retries : Nat := 0
  intSat : Nat := 0
  poisoned : Nat := 0
  /-- MTX_LAST_ERROR: handle, operation index, reason, location, tick -/
  lastError : Nat × Nat × Nat × Nat × Nat := (0, 0, 0, 0, 0)
  deriving DecidableEq, Repr

/-! ## The KV service (R454 to R474) -/

inductive PoolPhase where
  | free | live | destroying | failed
  deriving DecidableEq, Repr

def PoolPhase.code : PoolPhase → Nat
  | .free => 0 | .live => 1 | .destroying => 2 | .failed => 3

/-- A pool: its descriptor (Table 14-1) and its lists. -/
structure KvPool where
  phase : PoolPhase := .free
  slice : Nat := 0
  key : Nat := 0
  keyEpoch : Nat := 0
  assisted : Bool := false
  fmt : Nat := 0
  pageLog : Nat := 0
  heads : Nat := 0
  hdim : Nat := 0
  layers : Nat := 0
  hot : Bool := false
  seqMax : Nat := 0
  maxTokens : Nat := 0
  pages : Nat := 0
  /-- page area and control area: DPA pieces -/
  area : List (Nat × Nat) := []
  ctrl : List (Nat × Nat) := []
  ovf : Nat := 0
  ovfPages : Nat := 0
  reserveStk : Nat := 0
  reserveMtx : Nat := 0
  name : Nat := 0
  deriving DecidableEq, Repr

/-- What a pool's allocator keeps. Overflow page m is numbered 2^31 + m, as in a page-table entry. -/
structure KvAlloc where
  /-- page counts; a page without one is free unless it is listed below -/
  counts : Tab Nat := []
  /-- pages that return to free at the next boundary -/
  returning : List Nat := []
  /-- pages of lost requests, rolled back at the next boundary (R465) -/
  rollback : List Nat := []
  /-- host-assisted mode: granted pages, oldest first -/
  grants : List Nat := []
  /-- KV_POOL_DESTROY that waits -/
  destroyer : Option Nat := none
  /-- read counters, and pages with a hot copy by region (R470) -/
  reads : Tab Nat := []
  copies : Tab Nat := []
  deriving DecidableEq, Repr

structure KvLayer where
  len : Nat := 0
  pages : List Nat := []
  deriving DecidableEq, Repr

structure KvSeq where
  pool : Nat
  gen : Nat
  layers : List KvLayer
  resync : Bool := false
  freeing : Bool := false
  deriving DecidableEq, Repr

/-- A request-state entry: an append or a move that has begun (R464, R469). -/
structure KvReq where
  tok : Nat
  pool : Nat
  seq : Nat
  layer : Nat
  newLen : Nat
  /-- a shared last page and its copy -/
  copy : Option (Nat × Nat) := none
  /-- pages taken for it, in order -/
  taken : List Nat := []
  /-- page-table changes of a move: layer, index, new entry -/
  moves : List (Nat × Nat × Nat) := []
  poison : Bool := false
  deriving DecidableEq, Repr

structure KvState where
  pools : Tab KvPool := []
  allocs : Tab KvAlloc := []
  seqs : Tab KvSeq := []
  /-- generation that a freed sequence number has next -/
  gens : Tab Nat := []
  reqs : List KvReq := []
  /-- sequences whose numbers and pages return at the next boundary -/
  freeing : List Nat := []
  appends : Nat := 0
  tokens : Nat := 0
  cowCopies : Nat := 0
  hotReads : Nat := 0
  stateLost : Nat := 0
  rollbackPages : Nat := 0
  poolFull : Nat := 0
  poisoned : Nat := 0
  /-- KVS_LAST_ERROR: reference, reason, location, tick -/
  lastError : Nat × Nat × Nat × Nat := (0, 0, 0, 0)
  deriving DecidableEq, Repr

end Sys2Proof.Machine
end

