-- ==== Sys2Proof/Machine/StateEmb.lean ====
section
/-! DEFINITION. The state of the embedding engine: tables, versions, the row cache, and the update service (chapters 11 and
12). -/

namespace Sys2Proof.Machine

/-- A table descriptor (Table 11-2), as the device keeps it. -/
structure TblDesc where
  elem : Nat := 1
  tflags : Nat := 0
  colOff : Nat := 0
  cols : Nat := 0
  total : Nat := 0
  group : Nat := 0
  member : Nat := 0
  pitchLog : Nat := 4
  keep : Nat := 0
  rows : Nat := 0
  defaultRow : Nat := 0
  storage : Nat := 0
  undo : Nat := 0
  maxWin : Nat := 0
  reserve : Nat := 0
  codebook : List Byte := []
  name : Nat := 0
  deriving DecidableEq, Repr

/-- An image of a column slice: its VA, its resolved pieces (HOST output, address, length), the first and the last version
that lie on it (R374). -/
structure TblImage where
  va : Nat
  segs : List (Bool × Nat × Nat)
  first : Nat
  last : Nat
  deriving DecidableEq, Repr

/-- A TABLE_PUBLISH that waits for step 5 of the next boundary; `row` holds the default row's bytes where they lie on a HOST
output. -/
structure TblPublish where
  tok : Nat
  va : Nat
  segs : List (Bool × Nat × Nat)
  row : List Byte
  deriving DecidableEq, Repr

/-- Counts of a table: EMB_TBL_COUNTS, EMB_UPD_COUNTS, EMB_UPD_FAULTS, and the last committed window of EMB_UPD_INFO. -/
structure TblCounts where
  indices : Nat := 0
  drops : Nat := 0
  defaulted : Nat := 0
  poisoned : Nat := 0
  contributions : Nat := 0
  rowsUpdated : Nat := 0
  mergeFull : Nat := 0
  withdrawn : Nat := 0
  nonfinite : Nat := 0
  poisonRows : Nat := 0
  saturations : Nat := 0
  extended : Nat := 0
  lastWindow : Nat := 0
  lastCommit : Nat := 0
  deriving DecidableEq, Repr

inductive TblPhase where
  | free | loaded | unloading
  deriving DecidableEq, Repr

def TblPhase.code : TblPhase → Nat | .free => 0 | .loaded => 1 | .unloading => 2

/-- A table number. -/
structure EmbTable where
  phase : TblPhase := .free
  slice : Nat := 0
  key : Nat := 0
  keyEpoch : Nat := 0
  desc : TblDesc := {}
  /-- POLICY in force: DEFAULT_ROW; a privilege entry of it was cleared and step 7 of the next boundary applies that -/
  defaulting : Bool := false
  policyDue : Bool := false
  /-- images, the current one first -/
  images : List TblImage := []
  undoArea : List (Nat × Nat) := []
  version : Nat := 0
  /-- the default row's copy by version: bytes, poison (R361) -/
  copies : Tab (List Byte × Bool) := []
  publish : Option TblPublish := none
  unloader : Option Nat := none
  counts : TblCounts := {}
  deriving DecidableEq, Repr

/-- A row-cache entry (R380). -/
structure RcEntry where
  table : Nat
  row : Nat
  ver : Nat
  stale : Bool := false
  bytes : List Byte
  /-- log2 of its size, and its set among those of its size -/
  size : Nat
  set : Nat
  deriving DecidableEq, Repr

/-- One row of a merge set: an accumulator per column, and the contributions in it (R398). -/
structure MergeRow where
  accs : List Accum
  count : Nat
  deriving DecidableEq, Repr

inductive WinStage where
  | gather | sealed | applied | committed
  deriving DecidableEq, Repr

/-- A merge window (Table 12-4). -/
structure MergeWindow where
  k : Nat
  /-- its first gather tick; once sealed, its last -/
  opened : Nat
  last : Nat := 0
  stage : WinStage := .gather
  rows : Tab MergeRow := []
  /-- the first version of the image it is applied to, and its new row slices -/
  image : Nat := 0
  fresh : Tab (List Byte) := []
  /-- the version its commit makes current; old row slices once written back -/
  version : Nat := 0
  written : Bool := false
  undo : Tab (List Byte) := []
  deriving DecidableEq, Repr

/-- An update that is RUNNING or STOPPING (Table 12-1). -/
structure EmbUpdate where
  opt : Nat
  master : Bool
  stoch : Bool
  ticks : Nat
  start : Nat
  lr : Nat
  beta1 : Nat
  beta2 : Nat
  eps : Nat
  decay : Nat
  seed : Nat
  stateArea : List (Nat × Nat)
  mergeArea : List (Nat × Nat)
  key : Nat
  keyEpoch : Nat
  stopping : Bool := false
  stopper : Option Nat := none
  /-- windows opened so far -/
  opened : Nat := 0
  /-- windows not yet released, oldest first -/
  windows : List MergeWindow := []
  deriving DecidableEq, Repr

structure EmbState where
  tables : Tab EmbTable := []
  updates : Tab EmbUpdate := []
  /-- EMB_PRIV_ENTRY, by entry -/
  privileged : Tab Word := []
  /-- row-cache entries, by region -/
  cache : Tab (List RcEntry) := []
  /-- row-cache blocks by region and size: 16 h + log2 of the size -/
  blocks : Tab Nat := []
  /-- counter i of row r of region h's sketch at (4 h + r) * 16384 + i -/
  sketch : Tab Nat := []
  /-- rows that met R384 in the tick now running, in host-assisted mode: estimate, table, row -/
  cands : List (Nat × Nat × Nat) := []
  hits : Nat := 0
  misses : Nat := 0
  admits : Nat := 0
  staleServed : Nat := 0
  /-- EMB_LAST_ERROR: table, reason, location, tick -/
  lastError : Nat × Nat × Nat × Nat := (0, 0, 0, 0)
  /-- EMB_UPD_LAST_ERROR: table, reason, row, tick -/
  updError : Nat × Nat × Nat × Nat := (0, 0, 0, 0)
  deriving DecidableEq, Repr

end Sys2Proof.Machine
end

