-- ==== Sys2Proof/Machine/StateSrh.lean ====
section
/-! DEFINITION. The state of flash and of vector search (chapter 13, R646, R647). -/

namespace Sys2Proof.Machine

/-- A flash channel (SRH_CHAN_STAT, SRH_CHAN_INFO). -/
structure FlashChan where
  present : Bool := false
  inService : Bool := false
  scorerFailed : Bool := false
  usable : Nat := 0
  pagesRead : Nat := 0
  uncorrectable : Nat := 0
  moves : Nat := 0
  deriving DecidableEq, Repr

/-- A page in use, by FPA: the index and leaf it belongs to, the flash key it is stored under, its plaintext, whether it is
lost (R417). -/
structure FlashPage where
  index : Nat
  leaf : Nat
  key : Nat
  bytes : List Byte
  lost : Bool := false
  deriving DecidableEq, Repr

/-- A page program in progress: for a LEAF_WRITE, by token, or for a merge pass. -/
structure FlashProgram where
  fpa : Nat
  index : Nat
  leaf : Nat
  bytes : List Byte
  tok : Option Nat
  deriving DecidableEq, Repr

/-- A forward entry (R445): the old FPA, the copy, the tick in which it was made. -/
structure Forward where
  old : Nat
  copy : Nat
  tick : Nat
  deriving DecidableEq, Repr

/-- An entry of the catalogue (R646). `check` stands for the check block: the flash key it is sealed under. -/
structure CatEntry where
  digest : List Byte
  owner : BitVec 384
  check : Nat
  leaves : Tab Nat
  channels : Nat
  deriving DecidableEq, Repr

/-- An index descriptor (Table 13-1). -/
structure IdxDesc where
  vtype : Nat := 9
  metric : Nat := 0
  dim : Nat := 0
  depth : Nat := 1
  iflags : Nat := 0
  shard : Nat := 0
  scale : Nat := 0
  nodes : Nat := 0
  nNodes : Nat := 0
  leaves : Nat := 0
  leafmap : Nat := 0
  side : Nat := 0
  sideMax : Nat := 0
  mergePages : Nat := 0
  bitmaps : Nat := 0
  vnumMax : Nat := 0
  channels : Nat := 0
  resFls : Nat := 0
  resStk : Nat := 0
  name : Nat := 0
  deriving DecidableEq, Repr

inductive IdxPhase where
  | free | building | live | unloading
  deriving DecidableEq, Repr

def IdxPhase.code : IdxPhase → Nat
  | .free => 0 | .building => 1 | .live => 2 | .unloading => 3

/-- A side-list entry: its slot, the entry as stored, the first tick that sees it, the boundary at which it left. -/
structure SideEntry where
  slot : Nat
  bytes : List Byte
  vnum : Nat
  since : Nat
  gone : Option Nat := none
  deriving DecidableEq, Repr

/-- An index (R418, R423, R424). -/
structure SrhIndex where
  phase : IdxPhase := .free
  slice : Nat := 0
  key : Nat := 0
  keyEpoch : Nat := 0
  desc : IdxDesc := {}
  digest : List Byte := []
  /-- home flash die -/
  home : Nat := 0
  nodeArea : List (Nat × Nat) := []
  /-- leaf map, side area and bitmaps, which are private to the device -/
  areas : List (Nat × Nat) := []
  /-- leaf pointers, and previous pointers while a swap is pending -/
  leaves : Tab Nat := []
  prev : Tab Nat := []
  lastSwap : Nat := 0
  present : List Nat := []
  /-- numbers with TOMB set, and the boundary that set it; numbers whose TOMB is pending -/
  tombs : Tab Nat := []
  tombsDue : List Nat := []
  /-- deletes completed in the tick now running -/
  deleted : Nat := 0
  side : List SideEntry := []
  nextSlot : Nat := 0
  marked : List Nat := []
  /-- superseded pages and dropped numbers to be reclaimed, and the boundary of their swap -/
  retired : List (Nat × List Nat × List Nat) := []
  activator : Option Nat := none
  unloader : Option Nat := none
  /-- SRH_MERGEs that wait: token, MAX_PAGES -/
  mergeReqs : List (Nat × Nat) := []
  queries : Nat := 0
  inserts : Nat := 0
  deletes : Nat := 0
  carried : Nat := 0
  deriving DecidableEq, Repr

/-- A leaf that a merge pass rewrites: its old page, the side slots it receives, and once the old page has been read, its new
page and what was dropped and carried. -/
structure PassLeaf where
  leaf : Nat
  old : Nat
  incoming : List Nat
  read : Bool := false
  new : Option Nat := none
  done : Bool := false
  dropped : List Nat := []
  carried : List Nat := []
  deriving DecidableEq, Repr

/-- A merge pass (R440). -/
structure MergePass where
  index : Nat
  tick : Nat
  toks : List Nat
  leaves : List PassLeaf
  /-- side slots taken, those dropped for their tombstones among them -/
  taken : List Nat
  deadSide : List Nat
  deriving DecidableEq, Repr

/-- A candidate of a query: score (FP32 encoding), KEY. -/
structure Cand where
  score : Nat
  key : Nat
  deriving DecidableEq, Repr

/-- One query of a batch that runs. -/
structure SrhQ where
  vec : List Byte
  probes : List Nat
  best : List Cand
  scored : Nat := 0
  skipped : Nat := 0
  unscored : Nat := 0
  deriving DecidableEq, Repr

/-- A SRH_QUERY that runs: the pages it waits for, by FPA and leaf. -/
structure SrhJob where
  tok : Nat
  index : Nat
  tick : Nat
  k : Nat
  queries : List SrhQ
  wait : List (Nat × Nat)
  /-- the highest degraded reason so far -/
  degraded : Nat := 0
  deriving DecidableEq, Repr

/-- A LEAF_WRITE that runs: pages written and dropped, the highest reason among the drops. -/
structure LeafJob where
  tok : Nat
  done : Nat := 0
  dropped : Nat := 0
  reason : Nat := 0
  deriving DecidableEq, Repr

structure SrhState where
  indexes : Tab SrhIndex := []
  chans : Tab FlashChan := []
  pages : Tab FlashPage := []
  programs : List FlashProgram := []
  forwards : List Forward := []
  catalogue : Tab CatEntry := []
  jobs : List SrhJob := []
  writes : List LeafJob := []
  passes : List MergePass := []
  /-- late page reads whose data is still to come (R269) -/
  lateReads : List Nat := []
  /-- SRH_LAST_ERROR: FPA, index, reason, location, tick -/
  lastError : Nat × Nat × Nat × Nat × Nat := (0, 0, 0, 0, 0)
  mPasses : Nat := 0
  mAbandoned : Nat := 0
  mWritten : Nat := 0
  mReclaimed : Nat := 0
  deriving DecidableEq, Repr

end Sys2Proof.Machine
end

