-- ==== Sys2Proof/Machine/StateQueue.lean ====
section
/-! DEFINITION. The state of the queue service (chapter 15). -/

namespace Sys2Proof.Machine

/-- An item: its number, its data length, its byte position since creation, and the push that has not yet committed it. -/
structure QItem where
  iseq : Nat
  len : Nat
  pos : Nat
  push : Option Nat
  deriving DecidableEq, Repr

/-- Bytes an item occupies (R479). -/
def QItem.size (i : QItem) : Nat := (8 + i.len + 63) / 64 * 64

inductive QPhase where
  | free | live | destroying | failed
  deriving DecidableEq, Repr

def QPhase.code : QPhase → Nat
  | .free => 0 | .live => 1 | .destroying => 2 | .failed => 3

/-- A queue. Items run from the head to the tail in the order of their reservation; in retaining mode `taken` of them lie
before the read point. -/
structure Queue where
  phase : QPhase := .free
  slice : Nat := 0
  key : Nat := 0
  keyEpoch : Nat := 0
  retain : Bool := false
  maxItem : Nat := 0
  cap : Nat := 0
  spill : List (Nat × Nat) := []
  mirror : List (Nat × Nat) := []
  items : List QItem := []
  nextSeq : Nat := 0
  tail : Nat := 0
  /-- ISEQ and position of the read point, in retaining mode, and of the marks that are set -/
  read : Nat × Nat := (0, 0)
  marks : Tab (Nat × Nat) := []
  destroyer : Option Nat := none
  pushed : Nat := 0
  popped : Nat := 0
  flushed : Nat := 0
  full : Nat := 0
  deriving DecidableEq, Repr

/-- A pop whose writes have not all completed: token, queue, its items as offsets and lengths at DST. -/
structure QPop where
  tok : Nat
  queue : Nat
  items : List (Nat × Nat)
  deriving DecidableEq, Repr

structure QueueState where
  queues : Tab Queue := []
  pops : List QPop := []
  /-- pushes whose source was poisoned -/
  poisonedPushes : List Nat := []
  /-- QUE_LAST_ERROR: queue, reason, location, tick -/
  lastError : Nat × Nat × Nat × Nat := (0, 0, 0, 0)
  deriving DecidableEq, Repr

end Sys2Proof.Machine
end

