-- ==== Sys2Proof/Machine/State.lean ====
section
/-! DEFINITION. The state of the device as plain data, and its state after a cold reset. -/

namespace Sys2Proof.Machine

structure State where
  /-- commands waiting, first in, first out -/
  pending : List Instr := []
  /-- the model's own: how many free values have been drawn -/
  fresh : Nat := 0
  /-- what the device has sent and driven, newest first -/
  out : List Out := []
  regs : RegState := {}
  rings : Rings := {}
  tick : TickState := {}
  mem : MemState := {}
  win : WindowState := {}
  ord : OrderState := {}
  fab : FabState := {}
  dir : DirState := {}
  host : HostState := {}
  xlt : XltState := {}
  tier : TierState := {}
  cdc : CdcState := {}
  mtx : MtxState := {}
  kv : KvState := {}
  emb : EmbState := {}
  srh : SrhState := {}
  que : QueueState := {}
  pg : PgState := {}
  sec : SecState := {}
  slots : Tab KeySlot := []
  slices : SliceState := {}
  units : UnitsState := {}
  stk : StkState := {}
  ras : RasState := {}
  boot : BootState := {}
  faults : List FaultRec := []
  faultSeq : Nat := 0
  deriving DecidableEq, Repr

/-- The reasons a step can stop with a fault: none. The spec gives every command an effect, and what a command cannot do
the device answers or logs itself (R532, R159, R502). -/
inductive Fault where
  deriving DecidableEq, Repr

/-- The reasons a step can be refused. -/
inductive Refusal where
  /-- Raised by a command that has no meaning in this model; safe, since it stops the run. No arm of `exec` raises it. -/
  | notModelled (mnemonic : String)
  deriving DecidableEq, Repr

/-- The device right after a cold reset, before its first boot stage has ended (R636): every field at the value the spec
gives, or that the assumption log names. -/
def State.reset : State := {}

end Sys2Proof.Machine
end

