-- ==== Sys2Proof/Machine/Flags.lean ====
section
/-! DEFINITION. Every flag computation: register words and their fields, the event bits of the blocks, their summary in
IDN_EVT_SUM and the summary messages (R542, R549, R550); and what every operation sends or draws. -/

namespace Sys2Proof.Machine

/-! ## Sending and drawing -/

def State.emit (s : State) (o : Out) : State := { s with out := o :: s.out }

def State.emitAll (s : State) (l : List Out) : State := l.foldl State.emit s

/-- The next free value, and the state that has drawn it. -/
def State.draw (s : State) : Nat × State := (Config.freeNat s.fresh, { s with fresh := s.fresh + 1 })

/-! ## Registers -/

/-- The word a register holds (R542: the value in force). -/
def State.word (s : State) (off : Nat) : Word := s.regs.words.get (resetWord off) off

def State.setWord (s : State) (off : Nat) (w : Word) : State :=
  { s with regs := { s.regs with words := s.regs.words.put off w } }

/-- A field of a register, as a number. -/
def State.fld (s : State) (f : Fld) : Nat := bitsOf (s.word f.off) f.lo f.len

def State.flag (s : State) (f : Fld) : Bool := s.fld f != 0

def State.setFld (s : State) (f : Fld) (v : Nat) : State := s.setWord f.off (putBits (s.word f.off) f.lo f.len v)

/-- The event registers of block `b` that the register words hold (R550): those whose names end in _EVT, the block's
GRD_EVT and IDN_RESET_CAUSE. FAB_PORT_EVT stands in the ports. -/
def evtRegs (b : Nat) : List Nat :=
  (if b < blockCount then [Reg.GRD_EVT b] else []) ++
  (match b with
  | 0 => [Reg.IDN_RESET_CAUSE, Reg.IDN_EVT]
  | 1 => [Reg.HIF_EVT, Reg.HIF_RING_EVT]
  | 2 => [Reg.TIK_EVT]
  | 3 => [Reg.XLT_EVT]
  | 4 => [Reg.TIR_EVT]
  | 5 => [Reg.CDC_EVT]
  | 6 => [Reg.MTX_EVT]
  | 7 => [Reg.EMB_EVT, Reg.EMB_UPD_EVT]
  | 8 => [Reg.SRH_EVT]
  | 9 => [Reg.KVS_EVT]
  | 10 => [Reg.QUE_EVT]
  | 11 => [Reg.DIR_EVT]
  | 12 => [Reg.FAB_WIN_EVT, Reg.FAB_ORD_EVT, Reg.FAB_EVT, Reg.FAB_SUBQ_EVT]
  | 13 => [Reg.STK_EVT]
  | 14 => [Reg.SEC_EVT]
  | 15 => [Reg.RAS_EVT]
  | 16 => [Reg.PWR_EVT]
  | 17 => [Reg.CMP_EVT]
  | _ => [])

/-- Bit b of IDN_EVT_SUM (R550). -/
def State.evtSum (s : State) (b : Nat) : Bool :=
  (evtRegs b).any (fun r => s.word r != 0) || (b == B_FAB && s.fab.ports.any (fun _ p => p.evt != 0))

/-- Send MSI-X vector `v` of host port `p`, or leave it pending where its entry is masked (R511, R549). -/
def State.sendMsix (s : State) (p v : Nat) : State :=
  let k := 1024 * p + v
  match s.regs.msix.get (0, 0, true) k with
  | (_, _, false) => s.emit (.msix p v)
  | (_, _, true) =>
    if s.regs.pba.contains k then s else { s with regs := { s.regs with pba := k :: s.regs.pba } }

/-- R550: the summary messages of block `b`, sent when its summary bit rises. -/
def State.sendSummary (s : State) (b : Nat) : State :=
  (List.range 8).foldl (fun s p =>
    if s.flag (F.IDN_IRQ_EN p) && (s.fld (F.IDN_IRQ_BLOCKS p)).testBit b then
      s.sendMsix p (s.fld (F.IDN_IRQ_VECTOR p)) else s) s

/-- Change the state, and send the summary messages of block `b` when its summary bit rises. -/
def State.withSummary (s : State) (b : Nat) (f : State → State) : State :=
  let s' := f s
  if s'.evtSum b && !s.evtSum b then s'.sendSummary b else s'

/-- Set an event bit. -/
def State.setEvt (s : State) (f : Fld) : State :=
  s.withSummary (f.off / 0x10000) (fun s => s.setFld f 1)

end Sys2Proof.Machine
end

