-- ==== Sys2Proof/Machine/Ops.lean ====
section
/-! DEFINITION. The named operations every family is written over: rejected writes and the
guard protocol (chapter 17), what the device sends, fault records, key slots, slices, memory lines. -/

namespace Sys2Proof.Machine

/-! ## Named codes -/

/-! Completion status codes (Table 16-5). -/
def ST_OK : Nat := 0x00
def ST_DEGRADED : Nat := 0x01
def ST_PARTIAL : Nat := 0x02
def ST_ABORTED : Nat := 0x03
def ST_ALREADY_DONE : Nat := 0x04
def ST_REFUSED_BUDGET : Nat := 0x10
def ST_REFUSED_FIT : Nat := 0x11
def ST_REFUSED_CLASS : Nat := 0x12
def ST_REFUSED_POWER : Nat := 0x13
def ST_XLATE_FAULT : Nat := 0x20
def ST_PERMISSION : Nat := 0x21
def ST_OWNERSHIP : Nat := 0x22
def ST_STATE_LOST : Nat := 0x30
def ST_POISONED : Nat := 0x31
def ST_DOMAIN_DOWN : Nat := 0x32
def ST_KEY_RETIRED : Nat := 0x33
def ST_MERGE_FULL : Nat := 0x40
def ST_VERSION_GONE : Nat := 0x41
def ST_INTERNAL : Nat := 0xFF

/-! Register rejection reasons (Table 17-8). -/
def REG_WIDTH : Nat := 0x1101
def REG_PATH : Nat := 0x1102
def REG_VALUE : Nat := 0x1103
def REG_STATE : Nat := 0x1104
def GUARD_COMPLEMENT : Nat := 0x1105
def GUARD_TIMEOUT : Nat := 0x1106
def GUARD_BROKEN : Nat := 0x1107
def GUARD_ALIAS : Nat := 0x1108
def MBX_PATH : Nat := 0x1109
def MBX_BUSY : Nat := 0x110A
def MBX_UNKNOWN_ID : Nat := 0x110B
def MBX_READ_ONLY : Nat := 0x110C

/-! ## Rejected writes (R532, R544) -/

/-- The PATH code of an access path: the hardware threads of path 11 share it (Table 17-1). -/
def pathCode (path : Nat) : Nat := if path < 11 then path else 11

/-- R533: may this path write block `b`? -/
def State.mayWrite (s : State) (path b : Nat) : Bool :=
  8 ≤ path || b == B_MBX || (s.fld (F.GRD_PORT_EN_PORT_EN b)).testBit path

/-- R544: log a rejected write in the guard page of block `b`. -/
def State.logReject (s : State) (b addr : Nat) (data : Word) (reason path : Nat) (mbx : Bool := false) : State :=
  s.withSummary b (fun s =>
    let s := s.setFld (F.GRD_REJECTS_COUNT b) (s.fld (F.GRD_REJECTS_COUNT b) + 1)
    let s := s.setFld (F.GRD_LAST_ADDR_ADDR b) addr
    let s := s.setWord (Reg.GRD_LAST_DATA b) data
    let s := s.setFld (F.GRD_LAST_INFO_REASON b) reason
    let s := s.setFld (F.GRD_LAST_INFO_PATH b) (pathCode path)
    let s := s.setFld (F.GRD_LAST_INFO_MBX b) (boolNat mbx)
    let s := s.setWord (Reg.GRD_LAST_TICK b) (BitVec.ofNat 32 s.tick.now)
    s.setFld (F.GRD_EVT_REJECT b) 1)

/-- What a checked write of a register does: the state after it, and the reason with which it is rejected, if it is. -/
abbrev RegEffect := Word → State → State × Option Nat

/-- A write that reaches its register: its effect, or its rejection logged (R532, R542). -/
def State.runEffect (s : State) (path off : Nat) (v : Word) (eff : RegEffect) : State :=
  match eff v s with
  | (s', none) => s'
  | (s', some reason) => s'.logReject (off / 0x10000) off v reason path

/-- A write of an unguarded register by a path (R533). -/
def State.plainWrite (s : State) (path off : Nat) (v : Word) (eff : RegEffect) : State :=
  if s.mayWrite path (off / 0x10000) then s.runEffect path off v eff
  else s.logReject (off / 0x10000) off v REG_PATH path

/-- The stored word after a write of `v`: RW bits take the data, W1C bits that are written 1 clear (Table 0-3). -/
def writeWord (off : Nat) (old v : Word) : Word :=
  let rw := BitVec.ofNat 32 (maskOfAcc off (fun a => a == .rw || a == .rwg))
  let w1c := BitVec.ofNat 32 (maskOfAcc off (fun a => a == .w1c))
  (old &&& ~~~rw &&& ~~~(w1c &&& v)) ||| (v &&& rw)

/-- The effect of a write of a register with no behaviour of its own. -/
def effStore (off : Nat) : RegEffect := fun v s => (s.setWord off (writeWord off (s.word off) v), none)

/-! ## The guard protocol (R541 to R543) -/

def State.setGuard (s : State) (path : Nat) (g : Option Guard) : State :=
  { s with regs := { s.regs with
      guards := match g with | none => s.regs.guards.del path | some g => s.regs.guards.put path g } }

/-- R541: a write of `v` to the guarded register at `off` arms the path's guard; an armed pair of another register is
broken. -/
def State.armGuard (s : State) (path off : Nat) (v : Word) (cycle : Nat) : State :=
  let s := match s.regs.guards.find path with
    | some g =>
      s.logReject (g.off / 0x10000) g.off g.value
        (if cycle < g.cycle + 64 then GUARD_BROKEN else GUARD_TIMEOUT) path
    | none => s
  s.setGuard path (some { off := off, value := v, cycle := cycle })

/-- R541: the 64th cycle after the write to G: an armed pair that old is rejected. -/
def State.expireGuard (s : State) (path cycle : Nat) : State :=
  match s.regs.guards.find path with
  | some g =>
    if g.cycle + 64 ≤ cycle then
      (s.setGuard path none).logReject (g.off / 0x10000) g.off g.value GUARD_TIMEOUT path
    else s
  | none => s

/-- The guard of `path` is armed with the register at `off`, and the cycle is one of the 63 that may complete it. -/
def State.armed (s : State) (path off cycle : Nat) : Option Guard :=
  match s.regs.guards.find path with
  | some g => if g.off = off ∧ cycle < g.cycle + 64 then some g else none
  | none => none

/-- R541, R542: the write of `comp` to G + 4 that completes an armed pair whose V satisfies `p`. Where the guard is not
so armed, or the path may not write the block, this is no completion and nothing is changed by it here. -/
def State.guardPair (s : State) (path off : Nat) (comp : Word) (cycle : Nat) (p : Word → Bool) (eff : RegEffect) :
    State :=
  match s.armed path off cycle with
  | none => s
  | some g =>
    if !s.mayWrite path (off / 0x10000) then s.logReject (off / 0x10000) (off + 4) comp REG_PATH path
    else if !p g.value then s
    else
      let s := s.setGuard path none
      if comp = ~~~g.value then s.runEffect path off g.value eff
      else s.logReject (off / 0x10000) off g.value GUARD_COMPLEMENT path

/-! ## Management messages and fault records (R596, R597, R648) -/

/-- The 32 bytes of a fault record (Table 20-2). -/
def FaultRec.bytes (r : FaultRec) : List Byte :=
  leBytes 32 (r.cls + at_ 16 r.reason + at_ 32 r.location + at_ 64 (r.tick % 2 ^ 32) + at_ 96 (r.seq % 2 ^ 32)
    + at_ 128 (r.addr % 2 ^ 44) + at_ 176 (r.count % 2 ^ 16) + at_ 192 (r.detail % 2 ^ 64))

/-- Send a management message: MSEQ numbers the device's messages (R648). -/
def State.mgmt (s : State) (type : Nat) (payload : List Byte) : State :=
  ({ s with ras := { s.ras with mseq := s.ras.mseq + 1 } }).emit (.mgmt type (s.ras.mseq % 2 ^ 32) payload)

/-- R597: the RAS_EVT bit of a record's class group. -/
def rasEvtOf (cls : Nat) : Option Fld :=
  if cls = 0x11 ∨ cls = 0x20 ∨ cls = 0x22 then some F.RAS_EVT_CORRECTED
  else if cls = 0x10 ∨ cls = 0x52 then some F.RAS_EVT_UNCORRECTED
  else if cls = 0x30 ∨ cls = 0x40 then some F.RAS_EVT_DANGEROUS
  else if cls = 0x60 then some F.RAS_EVT_SUSPECT
  else none

/-! Location codes (Table 1-6). -/
def locDie (die : Nat) : Nat := at_ 24 die + 0xFFFFFF
def LOC_MD : Nat := 0x50FFFFFF
def locPort (n : Nat) : Nat := at_ 24 (0x20 + n / 8) + 0xFF0000 + at_ 8 n + 0xFF
def locHostPort (p : Nat) : Nat := at_ 24 0x40 + 0xFF0000 + at_ 8 p + 0xFF
def locUnit (die region cluster unit slot : Nat) : Nat :=
  at_ 24 die + at_ 20 region + at_ 16 cluster + at_ 8 unit + slot

/-! ## Key slots (R573, R574) -/

def State.slot (s : State) (k : Nat) : KeySlot := s.slots.get {} k

/-- The slot is ACTIVE. -/
def State.keyActive (s : State) (k : Nat) : Bool := (s.slot k).phase == .active

/-- R577: the crypto units serve a request of the slot when it is ACTIVE or RETIRING and the epoch is its current one. -/
def State.keyServes (s : State) (k epoch : Nat) : Bool :=
  ((s.slot k).phase == .active || (s.slot k).phase == .retiring) && (s.slot k).epoch == epoch

/-! ## Slices (Table 21-1) -/

def sliceExistsBits (d : BitVec 2048) : Bool := d.getLsbD 0
def sliceCdc (d : BitVec 2048) : Nat := bitsOf d 16 8
def sliceCtrBase (d : BitVec 2048) : Nat := bitsOf d 32 16
def sliceCtrCount (d : BitVec 2048) : Nat := bitsOf d 48 16
def sliceRsReserve (d : BitVec 2048) : Nat := bitsOf d 64 16
def sliceMtx (d : BitVec 2048) : Nat := bitsOf d 128 96
def sliceEmb (d : BitVec 2048) : Nat := bitsOf d 256 48
def sliceChannels (d : BitVec 2048) : Nat := bitsOf d 320 64
def sliceShares (d : BitVec 2048) : Nat := bitsOf d 384 192
def slicePorts (d : BitVec 2048) (g : Nat) : Nat := bitsOf d (640 + 96 * g) 32
def sliceDestMatch (d : BitVec 2048) (g : Nat) : Nat := bitsOf d (672 + 96 * g) 16
def sliceDestMask (d : BitVec 2048) (g : Nat) : Nat := bitsOf d (688 + 96 * g) 16

/-- The committed descriptor of a slice. -/
def State.slice (s : State) (n : Nat) : BitVec 2048 := s.slices.committed.get 0 n

def State.sliceExists (s : State) (n : Nat) : Bool := sliceExistsBits (s.slice n)

/-- R630: what every check on a slice's holdings sees: the committed descriptor and, while one is pending, that one too. -/
def State.sliceViews (s : State) (n : Nat) : List (BitVec 2048) :=
  match s.slices.pending.find n with
  | none => [s.slice n]
  | some (d, _) => [s.slice n, d]

/-- The slice holds arrival counter `c`. -/
def State.holdsCounter (s : State) (n c : Nat) : Bool :=
  (s.sliceViews n).all (fun d => sliceExistsBits d && decide (sliceCtrBase d ≤ c)
    && decide (c < sliceCtrBase d + sliceCtrCount d))

/-- 6 GiB: a memory share (R80). -/
def shareSize : Nat := 0x180000000

/-- The DRAM range ends here (Table 3-2). -/
def dramEnd : Nat := 0x12000000000

/-- The slice holds every memory share that [d, d + len) touches (R80). -/
def State.holdsRange (s : State) (n d len : Nat) : Bool :=
  len == 0 || (decide (d + len ≤ dramEnd) &&
    (List.range ((d + len - 1) / shareSize - d / shareSize + 1)).all (fun i =>
      (s.sliceViews n).all (fun v => sliceExistsBits v && (sliceShares v).testBit (d / shareSize + i))))

/-! ## Homes (R79) -/

structure Home where
  band : Nat
  h : Nat
  die : Nat
  region : Nat
  stack : Nat
  channel : Nat
  choff : Nat
  coredie : Nat
  deriving DecidableEq, Repr

/-- R79: where a DPA of the DRAM range is homed and stored. -/
def homeOf (d : Nat) : Home :=
  let band := d / 0x2400000000
  let g := (d % 0x2400000000) / 0x1000
  let h := g % 24
  let die := h % 6
  let region := h / 6
  let choff := (g / 24) * 0x1000 + d % 0x1000
  { band := band, h := h, die := die, region := region, stack := 2 * die + region / 2,
    channel := 8 * (region % 2) + band, choff := choff, coredie := 1 + choff / 0x40000000 }

/-- The metadata entry of the 4 KiB block at `d` (R81). -/
def metaAddr (d : Nat) : Nat := dramEnd + d / 0x1000 * 8

/-! ## Memory lines -/

def lineOf (d : Nat) : Nat := d / 64

def State.isPoisoned (s : State) (line : Nat) : Bool := s.mem.poison.contains line

/-- R97: mark a line poisoned. -/
def State.poisonLine (s : State) (line : Nat) : State :=
  if s.mem.poison.contains line then s else { s with mem := { s.mem with poison := line :: s.mem.poison } }

def State.unpoison (s : State) (line : Nat) : State :=
  { s with mem := { s.mem with poison := s.mem.poison.filter (fun l => l != line) } }

/-- A byte of the DRAM range as the key with this serial decrypts it (R576). A line never written reads as blank under
any key. -/
def State.peek (s : State) (key d : Nat) : Byte :=
  match s.mem.lineKey.find (lineOf d) with
  | none => s.mem.bytes.read d
  | some k => if k = key then s.mem.bytes.read d else Config.scramble k key d (s.mem.bytes.read d)

def State.peekN (s : State) (key d : Nat) : Nat → List Byte
  | 0 => []
  | n + 1 => s.peek key d :: s.peekN key (d + 1) n

/-- A little-endian number read from memory under a key. -/
def State.peekNat (s : State) (key d n : Nat) : Nat := leNat (s.peekN key d n)

/-- The lines that [d, d + len) touches. -/
def linesOf (d len : Nat) : List Nat :=
  if len = 0 then [] else (List.range (lineOf (d + len - 1) - lineOf d + 1)).map (fun i => lineOf d + i)

/-- Some line of the range is poisoned. -/
def State.rangePoisoned (s : State) (d len : Nat) : Bool := (linesOf d len).any s.isPoisoned

/-- POISON mask of a read: bit i for line i of the payload. -/
def State.poisonMask (s : State) (d len : Nat) : Nat :=
  maskOf ((List.range (linesOf d len).length).filter (fun i => s.isPoisoned (lineOf d + i)))

/-- Bring a line under key `key`: the bytes a partial write leaves keep the value the new key decrypts them to. -/
def State.rekeyLine (s : State) (key line : Nat) : State :=
  match s.mem.lineKey.find line with
  | some k =>
    if k = key then s
    else { s with mem := { s.mem with
        bytes := s.mem.bytes.writeN (64 * line) (s.peekN key (64 * line) 64)
        lineKey := s.mem.lineKey.put line key } }
  | none => { s with mem := { s.mem with lineKey := s.mem.lineKey.put line key } }

/-- Write one byte of the DRAM range under a key. -/
def State.poke (s : State) (key d : Nat) (b : Byte) : State :=
  let s := s.rekeyLine key (lineOf d)
  { s with mem := { s.mem with bytes := s.mem.bytes.write d b } }

/-- Write bytes one after another, those the mask enables. -/
def State.pokeN (s : State) (key d : Nat) : List Byte → List Bool → State
  | [], _ => s
  | b :: t, [] => (s.poke key d b).pokeN key (d + 1) t []
  | b :: t, e :: m => (if e then s.poke key d b else s).pokeN key (d + 1) t m

/-- The lines that [d, d + len) covers whole. -/
def wholeLines (d len : Nat) : List Nat :=
  (linesOf d len).filter (fun l => decide (d ≤ 64 * l) && decide (64 * l + 64 ≤ d + len))

end Sys2Proof.Machine
end

