-- ==== Sys2Proof/Machine/RingOps.lean ====
section
/-! DEFINITION. Descriptors, completions, rings and assist records: the operations every descriptor's meaning is written
over (chapter 16). -/

namespace Sys2Proof.Machine

def State.ring (s : State) (n : Nat) : Ring := s.rings.rings.get {} n
def State.setRing (s : State) (n : Nat) (r : Ring) : State :=
  { s with rings := { s.rings with rings := s.rings.rings.put n r } }
def State.subq (s : State) (n : Nat) : Subq := s.rings.subqs.get {} n
def State.setSubq (s : State) (n : Nat) (q : Subq) : State :=
  { s with rings := { s.rings with subqs := s.rings.subqs.put n q } }

/-- Context, key slot and slice mask of a descriptor's source. -/
def State.srcCtx (s : State) : Src → Nat
  | .ring n => rgCtx (s.ring n).record
  | .subq n => sqCtx (s.subq n).record
def State.srcKey (s : State) : Src → Nat
  | .ring n => rgKey (s.ring n).record
  | .subq n => sqKey (s.subq n).record
def State.srcSlices (s : State) : Src → Nat
  | .ring n => rgSlices (s.ring n).record
  | .subq n => sqSlices (s.subq n).record

/-- A pair enters ERROR (R497 to R499). -/
def State.ringError (s : State) (n reason : Nat) : State :=
  let s := s.setRing n { s.ring n with state := .error }
  let s := s.setWord Reg.HIF_RING_ERR (BitVec.ofNat 32 (reason + at_ 16 n))
  s.setEvt F.HIF_RING_EVT_ERROR

/-- A fabric queue enters ERROR (R501, R502). -/
def State.subqError (s : State) (n : Nat) : State :=
  (s.setSubq n { s.subq n with state := .error }).setEvt F.FAB_SUBQ_EVT_ERROR

/-! ## Descriptors in the device -/

def State.desc (s : State) (tok : Nat) : Option Desc := s.rings.descs.find tok

def State.setDesc (s : State) (tok : Nat) (d : Desc) : State :=
  { s with rings := { s.rings with descs := s.rings.descs.put tok d } }

/-- The descriptor's completion is written: it holds no translation any more (R231). -/
def State.dropDesc (s : State) (tok : Nat) : State :=
  { s with
    rings := { s.rings with descs := s.rings.descs.del tok }
    xlt := { s.xlt with held := s.xlt.held.filter (fun h => h.1 != tok)
                        waiting := s.xlt.waiting.filter (fun w => w.1 != tok)
                        failed := s.xlt.failed.filter (fun f => f.1 != tok) } }

/-- Descriptors of a source whose completions are not yet written: each has a completion entry reserved (R498). -/
def State.outstandingOf (s : State) (src : Src) : Nat :=
  (s.rings.descs.filter (fun e => e.2.src == src && !e.2.gone)).length

def Desc.finished (d : Desc) : Bool := d.phase == .finished

/-- R122, R123, R119: a descriptor of kind T or N waits behind an earlier FENCE of its ring, or an earlier WAIT_COUNTER
with BARRIER, that has not finished. -/
def State.heldBehind (s : State) (tok : Nat) (d : Desc) : Bool :=
  s.rings.descs.any (fun k e => decide (k < tok) && e.src == d.src && !e.finished &&
    (dOpcode e.bits == 0x02 || (dOpcode e.bits == 0x03 && e.bits.getLsbD 192)))

/-- Whether the descriptor may begin its operation: admitted and started (kind T), or arrived (kinds N and I). -/
def State.mayBegin (s : State) (tok : Nat) (d : Desc) : Bool :=
  !d.begun && !d.finished &&
  (match opKind (dOpcode d.bits) with
   | some .t => d.phase == .running
   | some .n => d.phase == .waiting && !s.heldBehind tok d
   | some .i => d.phase == .waiting
   | none => false)

/-- The tick of the round that is open: the next to close (R55). While STOPPED there is none, and TICK_NOW stands for it. -/
def State.roundTick (s : State) : Nat :=
  if s.tick.sync = .stopped then s.tick.now else max s.tick.closed s.tick.now + 1

/-- The descriptor has ended with these contents of its completion. DONE is the tick now running, the tick in which it was
stopped for an operation stopped under R67 (reason 0x0150), or for kind N the tick of the round in which it ends (R64,
R121). -/
def State.finish (s : State) (tok : Nat) (c : Cpl) : State :=
  match s.desc tok with
  | none => s
  | some d =>
    let isT := opKind (dOpcode d.bits) == some .t
    let isN := opKind (dOpcode d.bits) == some .n
    let at_t := if isT then d.admitTick else if isN then s.roundTick else s.tick.now
    let delay := if isT then at_t - d.requested
      else if isN then d.rounds else 0
    let reason := if c.status = ST_OK ∧ c.reason = 0 ∧ delay > 0 then d.short else c.reason
    s.setDesc tok { d with phase := .finished, cpl := { c with reason := reason }, admitTick := at_t,
                           doneTick := if isN then at_t
                             else if c.status = ST_ABORTED ∧ c.reason = 0x0150 then at_t + 1 else s.tick.now
                           delay := min delay 0xFFFF }

/-- The descriptor ends without having been admitted: ADMIT and DONE are the tick given (R64). -/
def State.refuse (s : State) (tok status reason tick : Nat) : State :=
  match s.desc tok with
  | none => s
  | some d =>
    s.setDesc tok { d with phase := .finished, cpl := { status := status, reason := reason }, admitTick := tick,
                           doneTick := tick, delay := min d.rounds 0xFFFF }

/-- What a completion says when a refusal or timeout of one of the descriptor's requests has been recorded before: the
first recorded decides its status (R159). -/
def Cpl.after (old new : Cpl) : Cpl :=
  if old.status ≠ ST_OK then { new with status := old.status, reason := old.reason } else new

/-- One more write or request that the descriptor's completion waits for (R105). -/
def State.await (s : State) (tok : Nat) : State :=
  match s.desc tok with
  | none => s
  | some d => s.setDesc tok { d with awaiting := d.awaiting + 1 }

/-- A part of a running operation has failed with `c`: the first failure decides its completion. -/
def State.failOp (s : State) (tok : Nat) (c : Cpl) : State :=
  match s.desc tok with
  | none => s
  | some d => s.setDesc tok { d with cpl := if d.cpl.status = ST_OK then c else d.cpl }

/-- The operation itself has ended with `c`: the completion follows once nothing more is awaited. -/
def State.opEnd (s : State) (tok : Nat) (c : Cpl) : State :=
  match s.desc tok with
  | none => s
  | some d =>
    let c := d.cpl.after c
    if d.awaiting ≤ 1 then s.finish tok c else s.setDesc tok { d with awaiting := d.awaiting - 1, cpl := c }

/-- Run a descriptor's operation: `k` answers the state after it and, where the operation has ended, the contents of
its completion. A descriptor that is not there, has another opcode or may not begin is not run. While the operation
runs, the descriptor awaits it. -/
def State.runDesc (s : State) (tok op : Nat) (k : Desc → State → State × Option Cpl) : State :=
  match s.desc tok with
  | none => s
  | some d =>
    if dOpcode d.bits = op ∧ s.mayBegin tok d = true then
      match k d (s.setDesc tok { d with begun := true, awaiting := 1 }) with
      | (s', some c) => s'.opEnd tok c
      | (s', none) => s'
    else s

/-- End an operation that ran on after its row: the descriptor is begun and not finished. -/
def State.endDesc (s : State) (tok op : Nat) (k : Desc → State → State × Option Cpl) : State :=
  match s.desc tok with
  | none => s
  | some d =>
    if dOpcode d.bits = op ∧ d.begun = true ∧ d.finished = false then
      match k d s with
      | (s', some c) => s'.opEnd tok c
      | (s', none) => s'
    else s

/-- A completion that says only this. -/
def cpl (status reason : Nat) : Cpl := { status := status, reason := reason }

/-! ## Completions (R506 to R511) -/

/-- The 32 bytes of a completion (Table 16-4). -/
def complBytes (d : Desc) (phase : Bool) : List Byte :=
  leBytes 32 (dSeq d.bits + at_ 16 d.cpl.status + at_ 24 (boolNat phase) + at_ 32 (d.admitTick % 2 ^ 32)
    + at_ 64 (d.doneTick % 2 ^ 32) + at_ 96 d.delay + at_ 112 d.cpl.reason + at_ 128 (d.cpl.done % 2 ^ 32)
    + at_ 160 (d.cpl.dropped % 2 ^ 32) + at_ 192 (d.cpl.result % 2 ^ 64))

/-- Move a ring's CQ tail over one written entry; the phase turns at the end of a pass (R508). -/
def Ring.advanceCq (r : Ring) : Ring :=
  let size := 2 ^ rgCqLog r.record
  let t := r.cqTail + 1
  { r with cqTail := t % size, cqUsed := r.cqUsed + 1, phase := if t % size = 0 then !r.phase else r.phase }

def Ring.entrySize (r : Ring) : Nat := if rgAssist r.record then 64 else 32

/-- CQ entries that no written entry and no fetched descriptor takes. -/
def State.ringRoom (s : State) (n : Nat) : Nat :=
  2 ^ rgCqLog (s.ring n).record - (s.ring n).cqUsed - s.outstandingOf (.ring n)

def State.subqRoom (s : State) (n : Nat) : Nat :=
  2 ^ sqCqLog (s.subq n).record - (s.subq n).cqUsed - s.outstandingOf (.subq n)

/-! ## Assist records (R518 to R521) -/

/-- R518: function `f` is host-assisted. -/
def State.assisted (s : State) (f : Nat) : Bool := (s.fld F.HIF_FN_MODE_MODE).testBit f

/-- The ACTIVE assist pair of a host port. -/
def State.assistPair (s : State) (port : Nat) : Option Nat :=
  ((s.rings.rings.filter (fun e => e.2.state == .active && rgAssist e.2.record && rgPort e.2.record == port)).map
    Prod.fst).head?

/-- The 64 bytes of an assist record (Table 16-10). -/
def assistBytes (rseq function tick : Nat) (phase : Bool) (operands : List Byte) : List Byte :=
  leBytes 16 (rseq % 65536 + at_ 16 function + at_ 24 (boolNat phase) + at_ 32 (tick % 2 ^ 32)) ++ operands

def State.assistCount (s : State) (port : Nat) (f : Nat × Nat × Nat → Nat × Nat × Nat) : State :=
  { s with rings := { s.rings with assistCounts := s.rings.assistCounts.updD (0, 0, 0) port f } }

/-- Write an assist record to its pair. -/
def State.writeAssist (s : State) (n : Nat) (a : AssistRec) : State :=
  let r := s.ring n
  let s := s.emit (.hostWrite (rgPort r.record) (rgCqBase r.record + r.cqTail * r.entrySize)
    (assistBytes r.rseq a.function a.tick r.phase a.operands))
  let s := s.setRing n { r.advanceCq with rseq := r.rseq + 1 }
  s.assistCount a.port (fun (x, y, z) => (x + 1, y, z))

/-- R521: the kinds whose records wait when there is no pair or no room. -/
def assistWaits (kind : Nat) : Bool := kind ≤ 0x04 || kind == 0x21 || kind == 0x41

def State.dropAssist (s : State) (port : Nat) : State :=
  (s.assistCount port (fun (x, y, z) => (x, y, z + 1))).setEvt F.HIF_RING_EVT_ASSIST_DROP

/-- Post an assist record to the pair on `port`: written at once where there is room; else kept, up to 4,096 for the
kinds that wait, till the next boundary for the others (R521). -/
def State.postAssist (s : State) (port function kind : Nat) (operands : List Byte) : State :=
  let a : AssistRec := { port := port, function := function, kind := kind, tick := s.tick.now, operands := operands }
  match s.assistPair port with
  | some n =>
    if 0 < s.ringRoom n then s.writeAssist n a
    else if assistWaits kind && decide (4096 ≤ (s.rings.assist.filter (fun a => a.port == port && 0x04 < a.kind)).length)
        && decide (0x04 < kind) then s.dropAssist port
    else ({ s with rings := { s.rings with assist := s.rings.assist ++ [a] } }).assistCount port
          (fun (x, y, z) => (x, y + 1, z))
  | none =>
    if decide (0x04 < kind) && assistWaits kind then
      if (s.rings.assist.filter (fun a => a.port == port && 0x04 < a.kind)).length < 4096 then
        ({ s with rings := { s.rings with assist := s.rings.assist ++ [a] } }).assistCount port
          (fun (x, y, z) => (x, y + 1, z))
      else s.dropAssist port
    else if kind ≤ 0x04 then s
    else { s with rings := { s.rings with assist := s.rings.assist ++ [a] } }

/-- Write the waiting records of a pair that has room again, oldest first. -/
def State.drainAssist (s : State) (n : Nat) : State :=
  (s.rings.assist.filter (fun a => a.port == rgPort (s.ring n).record)).foldl (fun s a =>
    if (s.ring n).state == .active && rgAssist (s.ring n).record && decide (0 < s.ringRoom n) then
      ({ s with rings := { s.rings with assist := s.rings.assist.erase a } }).writeAssist n a
    else s) s

/-- R521: at a boundary, the records of kinds that do not wait are dropped. -/
def State.dropUnposted (s : State) : State :=
  let drop := s.rings.assist.filter (fun a => !assistWaits a.kind)
  let s := { s with rings := { s.rings with assist := s.rings.assist.filter (fun a => assistWaits a.kind) } }
  drop.foldl (fun s a => s.dropAssist a.port) s

/-- Operand bytes 16 to 63 of a record from (byte, length, value) triples; KIND stands at byte 38. -/
def assistOperands (kind : Nat) (fields : List (Nat × Nat × Nat)) : List Byte :=
  leBytes 48 (fields.foldl (fun v (b, len, x) => v + at_ (8 * (b - 16)) (x % 2 ^ (8 * len))) (at_ (8 * 22) kind))

/-! ## Fault records (R596 to R598) -/

/-- The host port of the assist pair that takes every record of kinds above 0x04 (R520). -/
def State.assistPort (s : State) : Nat := s.fld F.HIF_FN_MODE_PORT

/-- R598: a queued record is posted to the assist pair in host-assisted fault triage. -/
def State.postFault (s : State) (r : FaultRec) : State :=
  if s.assisted 8 then s.postAssist s.assistPort 8 0x60 (r.bytes.take 22 ++ [0x60, 0] ++ r.bytes.drop 22 ++ List.replicate 14 0)
  else s

/-- R597: queue a fault record and send it. With 4,095 held, it merges with a like one, or counts in the OVERFLOW
record. -/
def State.queueFault (s : State) (r : FaultRec) : State :=
  let r := { r with tick := s.tick.now, seq := s.faultSeq }
  if s.faults.length < 4095 then
    let s := { s with faults := s.faults ++ [r], faultSeq := s.faultSeq + 1 }
    let s := match rasEvtOf r.cls with | some f => s.setEvt f | none => s
    (s.mgmt 0x20 r.bytes).postFault r
  else if s.faults.any (fun h => h.cls == r.cls && h.reason == r.reason && h.location == r.location) then
    { s with faults := s.faults.map (fun h =>
        if h.cls == r.cls && h.reason == r.reason && h.location == r.location then
          { h with count := h.count + r.count } else h) }
  else if s.faults.any (fun h => h.cls == 0x7F) then
    { s with faults := s.faults.map (fun h => if h.cls == 0x7F then { h with detail := h.detail + 1 } else h) }
  else
    let o : FaultRec := { cls := 0x7F, tick := s.tick.now, seq := s.faultSeq, detail := 1 }
    (({ s with faults := s.faults ++ [o], faultSeq := s.faultSeq + 1 }).mgmt 0x20 o.bytes).postFault o

/-- R596: a report that another chapter requires is a record of class EVENT. -/
def State.event (s : State) (reason location : Nat) (detail : Nat := 0) (addr : Nat := 0) : State :=
  s.queueFault { cls := 0x80, reason := reason, location := location, detail := detail, addr := addr }

end Sys2Proof.Machine
end

