-- ==== Sys2Proof/Machine/HomeOps.lean ====
section
/-! DEFINITION. What every access at a home region does beside moving bytes: the tier's counting (R252 to R260) and the
metadata of a plainly written block (R296). -/

namespace Sys2Proof.Machine

/-! ## Tier counting -/

/-- The home of part `i` of granule `g` (chapter 8, The tier). -/
def tierHome (g i : Nat) : Nat := (16 * (g % 3) + i) % 24

def addSat (x n : Nat) : Nat := min 255 (x + n)

/-- The four sketch counters of a granule at region `h`. -/
def sketchKeys (h g : Nat) : List Nat :=
  (List.range 4).map (fun r => (4 * h + r) * 16384 + Config.sketchIndex r g % 16384)

/-- A granule's estimate at a home: the smallest of its four counters (R258). -/
def TierState.estimate (t : TierState) (h g : Nat) : Nat :=
  ((sketchKeys h g).map (fun k => t.sketch.get 0 k)).foldl Nat.min 255

/-- R260: a nomination merges with one already held; a full list drops it. The flag says it was dropped. -/
def TierState.nominate (t : TierState) (g e key : Nat) : TierState × Bool :=
  if t.noms.any (fun n => n.granule == g) then
    ({ t with noms := t.noms.map (fun n => if n.granule = g then { n with estimate := Nat.max n.estimate e } else n) },
     false)
  else if t.noms.length < 4096 then ({ t with noms := t.noms ++ [{ granule := g, estimate := e, key := key }] }, false)
  else ({ t with nomDrops := t.nomDrops + 1 }, true)

/-- One home counts accesses to `n` lines of the part at block `b`, those of `lines` written (R254, R258). -/
def TierState.count (t : TierState) (promoteAt key b n : Nat) (dirty : Nat) : TierState × Bool :=
  let g := b / 16
  let i := b % 16
  let h := tierHome g i
  match t.granules.find g with
  | some x =>
    if x.on.testBit i then
      let x := { x with heat := x.heat.put i (addSat (x.heat.get 0 i) n)
                        dirty := if dirty = 0 then x.dirty else x.dirty.put i (x.dirty.get 0 i ||| dirty) }
      ({ t with granules := t.granules.put g x, keyCross := t.keyCross + (if x.key = key then 0 else n) }, false)
    else ({ t with sketch := (sketchKeys h g).foldl (fun m k => m.updD 0 k (fun c => addSat c n)) t.sketch }, false)
  | none =>
    let old := t.estimate h g
    let t := { t with sketch := (sketchKeys h g).foldl (fun m k => m.updD 0 k (fun c => addSat c n)) t.sketch }
    let new := addSat old n
    if old < promoteAt ∧ promoteAt ≤ new then t.nominate g new key else (t, false)

/-- Lines of [d, d + len) within block `b`, as a mask. -/
def linesInBlock (d len b : Nat) : Nat :=
  maskOf (((linesOf d len).filter (fun l => l / 64 == b)).map (fun l => l % 64))

/-- The 4 KiB blocks that [d, d + len) touches. -/
def blocksOf (d len : Nat) : List Nat :=
  if len = 0 then [] else (List.range ((d + len - 1) / 4096 - d / 4096 + 1)).map (fun i => d / 4096 + i)

/-- R258: every home counts the lines of an access of [d, d + len) under key slot `key`. -/
def State.touch (s : State) (key d len : Nat) (write : Bool) : State :=
  (blocksOf d len).foldl (fun s b =>
    let m := linesInBlock d len b
    let (t, dropped) := s.tier.count (s.fld F.TIR_POLICY_PROMOTE_AT) key b (maskBits m 64).length (if write then m else 0)
    let s := { s with tier := t }
    if dropped then s.setEvt F.TIR_EVT_NOM_DROPPED else s) s

/-! ## Block metadata (R277, R296) -/

/-- The metadata entry of 4 KiB block `b` (R81). -/
def State.metaOf (s : State) (b : Nat) : Nat := s.mem.bytes.readNat (metaAddr (4096 * b)) 8

def metaCodec (m : Nat) : Nat := m / 16 % 16
def metaSectors (m : Nat) : Nat := m % 16 + 1
def metaClass (m : Nat) : Nat := m / 256 % 4
def metaTable (m : Nat) : Nat := m / 4096 % 1024
def metaKey (m : Nat) : Nat := m / 2 ^ 22 % 256

def State.setMeta (s : State) (b v : Nat) : State :=
  { s with mem := { s.mem with bytes := s.mem.bytes.writeN (metaAddr (4096 * b)) (leBytes 8 v) } }

/-- R296: a plain write to a line of a block that is not PLAIN sets its entry to PLAIN, and is counted. -/
def State.plainOverwrite (s : State) (b : Nat) : State :=
  if metaCodec (s.metaOf b) = 0 then s
  else
    let s := s.setMeta b 0
    ({ s with cdc := { s.cdc with plainOverwrites := s.cdc.plainOverwrites + 1 } }).setEvt F.CDC_EVT_PLAIN_OVERWRITE

end Sys2Proof.Machine
end

