-- ==== Sys2Proof/Machine/FabricOps.lean ====
section
/-! DEFINITION. Fabric addresses, window and ownership checks (chapters 3 and 5), sending packets and requests, and the
end of a request (R142 to R162). -/

namespace Sys2Proof.Machine

/-! ## Fabric addresses (R72) and source IDs (R134) -/

def faDevice (a : Nat) : Nat := a / 2 ^ 50 % 2 ^ 14
def faWindow (a : Nat) : Nat := a / 2 ^ 40 % 2 ^ 10
def faOffset (a : Nat) : Nat := a % 2 ^ 40

/-- The device's own source ID. -/
def State.ownId (s : State) : Nat := 0xC000 + s.fld F.FAB_DEVID_DEVID

/-! ## Packet types (Table 5-4) -/

def T_LOAD : Nat := 0x01
def T_STORE : Nat := 0x02
def T_FLAGGED_STORE : Nat := 0x03
def T_BULK_GET : Nat := 0x04
def T_BULK_PUT : Nat := 0x05
def T_ATOMIC : Nat := 0x06
def T_ACC_ADD : Nat := 0x07
def T_ACC_READ : Nat := 0x08
def T_SUBMIT : Nat := 0x09
def T_OWN : Nat := 0x0A
def T_SEQ_SYNC : Nat := 0x0B
def T_MC_PUT : Nat := 0x0C
def T_READ_DATA : Nat := 0x10
def T_BULK_DATA : Nat := 0x11
def T_ACK : Nat := 0x12
def T_TICK : Nat := 0x20
def T_NEIGHBOUR : Nat := 0x30

/-- The virtual channel a type travels on. -/
def vcOf (type : Nat) : Nat :=
  if type ∈ [T_LOAD, T_STORE, T_FLAGGED_STORE, T_BULK_GET, T_OWN, T_SEQ_SYNC] then 0
  else if type ∈ [T_READ_DATA, T_BULK_DATA, T_ACK] then 1
  else if type ∈ [T_BULK_PUT, T_MC_PUT] then 2
  else if type ∈ [T_ATOMIC, T_ACC_ADD, T_ACC_READ] then 3
  else if type = T_TICK then 4
  else if type = T_SUBMIT then 5
  else if type = T_NEIGHBOUR then 6
  else 7

/-- Write-class types carry a write sequence number (R144). -/
def isWriteClass (type : Nat) : Bool :=
  type ∈ [T_STORE, T_FLAGGED_STORE, T_BULK_PUT, T_ATOMIC, T_ACC_ADD, T_SUBMIT, T_OWN]

def isResponse (type : Nat) : Bool := type ∈ [T_READ_DATA, T_BULK_DATA, T_ACK]

/-- Flits of a packet: its header and its payload. -/
def flitsOf (p : Packet) : Nat :=
  1 + ceilDiv (if p.type = T_TICK then 128 else if p.type = T_NEIGHBOUR then 64 else p.data.length) 64

/-- The bytes a counter-tagged packet credits (R144). -/
def creditBytes (p : Packet) : Nat := if p.type = T_ATOMIC then p.length else p.segLen

/-! ## Windows (Tables 3-3 and 3-4) -/

def winValid (e : BitVec 128) : Bool := e.getLsbD 0
def winRead (e : BitVec 128) : Bool := e.getLsbD 1
def winWrite (e : BitVec 128) : Bool := e.getLsbD 2
def winAtomic (e : BitVec 128) : Bool := e.getLsbD 3
def winBase (e : BitVec 128) : Nat := bitsOf e 16 28 * 0x10000
def winSize (e : BitVec 128) : Nat := (bitsOf e 48 24 + 1) * 0x10000
def winSlice (e : BitVec 128) : Nat := bitsOf e 80 6
def winKey (e : BitVec 128) : Nat := bitsOf e 88 8
def winSrcMatch (e : BitVec 128) : Nat := bitsOf e 96 16
def winSrcMask (e : BitVec 128) : Nat := bitsOf e 112 16

def WIN_INVALID : Nat := 0x0301
def WIN_SOURCE : Nat := 0x0302
def WIN_ACCESS : Nat := 0x0303
def WIN_BOUNDS : Nat := 0x0304
def WIN_KEY : Nat := 0x0305

def State.window (s : State) (n : Nat) : BitVec 128 := s.win.committed.get 0 n

/-- The permission bits a packet type needs: read, write, atomic (R83 check 3, R163, R165, R168). -/
def winPermits (e : BitVec 128) (type : Nat) (credit : Bool) : Bool :=
  if type = T_LOAD ∨ type = T_BULK_GET ∨ type = T_ACC_READ then winRead e
  else if type = T_ATOMIC then winWrite e && winAtomic e
  else if type = T_ACC_ADD then winAtomic e && (!credit || winWrite e)
  else winWrite e

/-- R83, Table 3-4: the first window check that fails, as status and reason. -/
def State.windowCheck (s : State) (e : BitVec 128) (src type off len : Nat) (credit : Bool) : Option (Nat × Nat) :=
  if !winValid e then some (ST_XLATE_FAULT, WIN_INVALID)
  else if src &&& winSrcMask e ≠ winSrcMatch e &&& winSrcMask e then some (ST_PERMISSION, WIN_SOURCE)
  else if !winPermits e type credit then some (ST_PERMISSION, WIN_ACCESS)
  else if off + len > winSize e then some (ST_XLATE_FAULT, WIN_BOUNDS)
  else if !s.keyActive (winKey e) then some (ST_KEY_RETIRED, WIN_KEY)
  else none

/-- R83: what a refused request leaves behind. -/
def State.countWinRefusal (s : State) (addr src reason : Nat) : State :=
  { s with win := { s.win with refused := s.win.refused + 1
                               lastFault := { addr := addr, src := src, reason := reason, tick := s.tick.now } } }

/-! ## Ownership (R166, R167) -/

def OWN_NOT_OWNER : Nat := 0x0501
def OWN_FROZEN : Nat := 0x0502
def OWN_STATE : Nat := 0x0503

/-- 64 MiB: the ownership granule (R81). -/
def granuleSize : Nat := 0x4000000

/-- Owner and mode of a granule: 0 OPEN, 1 OWNED, 2 FROZEN. -/
def State.granule (s : State) (g : Nat) : Nat × Nat := s.fab.own.get (0, 0) g

/-- R167: the refusal of a write by `src` to [d, d + len). -/
def State.ownCheck (s : State) (src d len : Nat) : Option Nat :=
  let gs := (List.range ((d + len - 1) / granuleSize - d / granuleSize + 1)).map (fun i => d / granuleSize + i)
  gs.findSome? (fun g =>
    match s.granule g with
    | (_, 0) => none
    | (o, 1) => if o = src then none else some OWN_NOT_OWNER
    | _ => some OWN_FROZEN)

def State.cong (s : State) (w : Nat) (f : Cong → Cong) : State :=
  { s with fab := { s.fab with congWin := s.fab.congWin.updD {} w f } }

def State.congOut (s : State) (d : Nat) (f : Cong → Cong) : State :=
  { s with fab := { s.fab with congDst := s.fab.congDst.updD {} d f } }

/-- The traffic counts of an inbound request's window; how long the window takes to serve it is a free number (R171). -/
def State.counted (s : State) (p : Packet) : State :=
  s.cong (faWindow p.addr) (fun c =>
    { c with bytes := c.bytes + 64 + p.data.length, reqs := c.reqs + 1, waitNs := c.waitNs + Config.freeTime s.fresh c.reqs })

/-! ## Ports -/

/-- Table 5-6: the reset credit division of a port. -/
def vcReset : List Word :=
  [(1024, 72), (3072, 72), (2048, 72), (512, 72), (64, 0), (256, 72), (64, 0), (0, 0)].map
    (fun e => BitVec.ofNat 32 (e.1 + at_ 16 e.2))

def portReset : Port := { vcCfg := vcReset, credits := List.replicate 16 0 }

def State.port (s : State) (n : Nat) : Port := s.fab.ports.get portReset n
def State.setPort (s : State) (n : Nat) (p : Port) : State :=
  { s with fab := { s.fab with ports := s.fab.ports.put n p } }

def Port.up (p : Port) : Bool := p.state == .active || p.state == .degraded

/-- Set bit `k` of the port's FAB_PORT_EVT. -/
def State.portEvt (s : State) (n k : Nat) : State :=
  s.withSummary B_FAB (fun s => s.setPort n { s.port n with evt := (s.port n).evt ||| 2 ^ k })

def listSet (l : List Nat) (i v : Nat) : List Nat := l.set i v

/-- Free credit of a port on a virtual channel's sub-channel. -/
def Port.creditOf (p : Port) (vc : Nat) (esc : Bool) : Nat := p.credits.getD (2 * vc + boolNat esc) 0

/-- Place packets in the port's next frame: credit is taken, the frame waits for its acknowledgement (R138, R148). -/
def State.transmit (s : State) (n : Nat) (esc : Bool) (p : Packet) : State :=
  let q := s.port n
  let i := 2 * vcOf p.type + boolNat esc
  let q := { q with credits := q.credits.set i (q.credits.getD i 0 - flitsOf p),
                    retry := q.retry ++ [(q.txNext, [p])], txNext := (q.txNext + 1) % 4096 }
  (s.setPort n q).emit (.packet (some n) p)

/-- A packet waits at the port; while the port is up, the cycles it waits for credit are a free number (R171). -/
def State.enqueue (s : State) (n : Nat) (esc : Bool) (p : Packet) : State :=
  let q := s.port n
  let stall := if q.up then Config.freeTime s.fresh q.queue.length else 0
  s.setPort n { q with queue := q.queue ++ [{ vc := vcOf p.type, esc := esc, pkt := p }], creditStall := q.creditStall + stall }

/-- Can the port send this packet now (R141, R148)? -/
def State.canSend (s : State) (n : Nat) (esc : Bool) (p : Packet) : Bool :=
  (s.port n).up && decide (flitsOf p ≤ (s.port n).creditOf (vcOf p.type) esc)
    && decide ((s.port n).retry.length < 256)

/-- Send a packet by a port, or queue it there. -/
def State.sendBy (s : State) (n : Nat) (esc : Bool) (p : Packet) : State :=
  if s.canSend n esc p && !((s.port n).queue.any (fun q => q.vc == vcOf p.type && q.esc == esc)) then
    s.transmit n esc p
  else s.enqueue n esc p

/-- Send what the port's queue holds, oldest first, as far as credit goes; no packet passes an older one of its own
virtual channel and sub-channel. -/
def State.drainPort (s : State) (n : Nat) : State :=
  ((s.port n).queue.foldl (fun (a : State × List (Nat × Bool)) q =>
    let (s, stuck) := a
    if stuck.contains (q.vc, q.esc) then a
    else if s.canSend n q.esc q.pkt then
      ((s.setPort n { s.port n with queue := (s.port n).queue.erase q }).transmit n q.esc q.pkt, stuck)
    else (s, (q.vc, q.esc) :: stuck)) (s, [])).1

def rtAdapt (r : BitVec 64) : Nat := bitsOf r 0 32
def rtEsc (r : BitVec 64) : Nat := bitsOf r 32 5
def rtValid (r : BitVec 64) : Bool := r.getLsbD 63

def State.route (s : State) (dest : Nat) : BitVec 64 := s.fab.route.get 0 dest
def State.hasRoute (s : State) (dest : Nat) : Bool := rtValid (s.route dest)

/-- The adaptive port of a route with the most free credit for the packet, among those that can send it; the lowest of
several equals (R151). -/
def State.adaptivePort (s : State) (p : Packet) : Option Nat :=
  ((maskBits (rtAdapt (s.route p.dest)) 32).filter (fun n => s.canSend n false p)).foldl
    (fun best n => match best with
      | none => some n
      | some b => if (s.port b).creditOf (vcOf p.type) false < (s.port n).creditOf (vcOf p.type) false then some n
                  else best) none

def State.countDrop (s : State) (f : Drops → Drops) : State :=
  ({ s with fab := { s.fab with drops := f s.fab.drops } }).setEvt F.FAB_EVT_DROP

/-- R151: send a packet by its route; where no adaptive port has credit, it waits (R150). -/
def State.sendPacket (s : State) (p : Packet) : State :=
  if !s.hasRoute p.dest then s.countDrop (fun d => { d with noRoute := d.noRoute + 1 })
  else match s.adaptivePort p with
    | some n => s.transmit n false p
    | none => { s with fab := { s.fab with parked := s.fab.parked ++ [p] } }

/-! ## Answers -/

/-- A response to a request (R143): TAG, TAG_GEN, ADDR, LENGTH and SEG_OFF copied. -/
def State.response (s : State) (q : Packet) (type status reason : Nat) : Packet :=
  { type := type, src := s.ownId, dest := q.src, hops := 64, tag := q.tag, gen := q.gen, addr := q.addr,
    length := q.length, segOff := q.segOff, segLen := q.segLen, status := status, reason := reason }

/-- Answer a request; an answer without a route is discarded and counted (R151). -/
def State.answer (s : State) (q : Packet) (type status reason : Nat) (old : Nat := 0) (poison : Nat := 0)
    (data : List Byte := []) : State :=
  s.sendPacket { s.response q type status reason with old := old, poison := poison, data := data }

/-- The type that answers a request (Table 5-4). -/
def answerType (type : Nat) : Nat :=
  if type = T_LOAD ∨ type = T_ACC_READ then T_READ_DATA else if type = T_BULK_GET then T_BULK_DATA else T_ACK

/-! ## Originating requests (R157, R160, R162) -/

def RESP_TIMEOUT : Nat := 0x0505
def NOT_JOINED : Nat := 0x0506
def NO_ROUTE : Nat := 0x0504

/-- KEY of a packet sent under a slot: slot and epoch as descriptor bytes 12 to 15. -/
def State.keyField (s : State) (slot : Nat) : Nat := slot + at_ 8 (s.slot slot).epoch

/-- A free request tag: the lowest. -/
def State.freeTag (s : State) : Option Nat := firstFree (fun t => !s.fab.outstanding.has t) 65536

/-- Give a request a tag and send it, or let it wait in its engine queue (R157). -/
def State.launch (s : State) (r : Request) : State :=
  match s.freeTag with
  | none => { s with fab := { s.fab with tagWait := s.fab.tagWait ++ [r] } }
  | some t =>
    let gen := (s.fab.tagGen.get 0 t + 1) % 16
    let p := { r.pkt with tag := t, gen := gen }
    let s := { s with fab := { s.fab with outstanding := s.fab.outstanding.put t { r with gen := gen, pkt := p }
                                          tagGen := s.fab.tagGen.put t gen } }
    let s := s.congOut p.dest (fun c => { c with bytes := c.bytes + 64 + p.data.length, reqs := c.reqs + 1 })
    s.sendPacket p

/-- The first generation towards a destination after a cold reset is drawn; later ones follow on (R162). -/
def State.newGen (s : State) (dest : Nat) : Nat × State :=
  match s.ord.send.find dest with
  | some q => ((q.gen + 1) % 256, s)
  | none => let (g, s) := s.draw; (g % 256, s)

/-- A request's origin learns of its end: of a refusal or a timeout, or that it is done. -/
def State.originEnd (s : State) (o : Origin) (status reason : Nat) : State :=
  match o with
  | .desc tok =>
    match s.desc tok with
    | none => s
    | some d =>
      -- R159: the first refusal or timeout recorded decides
      let c := if status ≠ ST_OK ∧ d.cpl.status = ST_OK then { d.cpl with status := status, reason := reason } else d.cpl
      if d.finished then s
      else if d.awaiting ≤ 1 then s.finish tok c
      else s.setDesc tok { d with awaiting := d.awaiting - 1, cpl := c }
  | .notify _ =>
    if status = ST_OK then s
    else ({ s with ord := { s.ord with notifyFails := s.ord.notifyFails + 1 } }).setEvt F.FAB_ORD_EVT_NOTIFY_FAIL
  | .complStore q => if status = ST_OK then s else s.subqError q
  | .sync _ => s
  | .group line pos =>
    { s with pg := { s.pg with
        held := s.pg.held.map (fun h => if h.line = line then { h with awaiting := h.awaiting.erase pos } else h)
        failed := if status = ST_OK then s.pg.failed else s.pg.failed ++ [(line, pos)] } }
  | .gather line pos =>
    { s with pg := { s.pg with
        gathers := s.pg.gathers.map (fun g => if g.line = line then { g with awaiting := g.awaiting.erase pos } else g)
        failed := if status = ST_OK then s.pg.failed else s.pg.failed ++ [(line, pos)] } }
  | .release line pos =>
    -- R609: after a release not answered ST_OK the reconstruction starts again
    { s with pg := { s.pg with
        gathers := s.pg.gathers.map (fun g => if g.line = line then
          { g with holding := g.holding.erase pos, got := if status = ST_OK then g.got else []
                   result := if status = ST_OK then g.result else none } else g) } }
  | .service => s

/-- Write-class packets of this device not yet answered towards a destination. -/
def State.unsettledTo (s : State) (dest : Nat) : Nat :=
  (s.fab.outstanding.filter (fun e => e.2.pkt.dest == dest && isWriteClass e.2.pkt.type)).length

/-- The accepted placement epoch of this device's own ID (R135). -/
def State.ownEpoch (s : State) : Nat := (s.ord.epochs.get {} (s.fld F.FAB_DEVID_DEVID)).accepted

/-- R162: send SEQ_SYNC to a destination; `waiting` waits behind it. -/
def State.startSync (s : State) (dest : Nat) (waiting : List (Origin × Packet)) : State :=
  let (g, s) := s.newGen dest
  let s := { s with ord := { s.ord with send := s.ord.send.put dest { gen := g, waiting := waiting } } }
  s.launch { gen := 0, origin := .sync dest, expect := 1,
             pkt := { type := T_SEQ_SYNC, src := s.ownId, dest := dest, hops := 64, newGen := g, epoch := s.ownEpoch } }

/-- Number a write-class packet and send it; it waits while the sequence is not synchronised, or while 1,024 packets are
unsettled towards the destination (R160, R162). -/
def State.sendNumbered (s : State) (dest : Nat) (o : Origin) (p : Packet) : State :=
  match s.ord.send.find dest with
  | some q =>
    if q.resync then s.startSync dest [(o, p)]
    else if q.synced && decide (s.unsettledTo dest < 1024) then
      let s := { s with ord := { s.ord with send := s.ord.send.put dest { q with next := (q.next + 1) % 2 ^ 24 } } }
      s.launch { gen := 0, origin := o, expect := 1, pkt := { p with wsnGen := q.gen, wsnSeq := q.next } }
    else { s with ord := { s.ord with send := s.ord.send.put dest { q with waiting := q.waiting ++ [(o, p)] } } }
  | none => s.startSync dest [(o, p)]

/-- Send the packets that waited for a synchronised sequence, oldest first, as far as 1,024 unsettled ones allow. -/
def State.drainSend (s : State) (dest : Nat) : State :=
  match s.ord.send.find dest with
  | none => s
  | some q =>
    if q.synced then
      let s := { s with ord := { s.ord with send := s.ord.send.put dest { q with waiting := [] } } }
      q.waiting.foldl (fun s e => s.sendNumbered dest e.1 e.2) s
    else s

/-- Originate a request: a packet to another device (R175, R176, R151, R157). -/
def State.originate (s : State) (o : Origin) (p : Packet) (expect : Nat := 1) (into : Option Into := none) : State :=
  let p := { p with src := s.ownId, hops := 64, epoch := s.ownEpoch }
  if !s.fab.joined then s.originEnd o ST_ABORTED NOT_JOINED
  else if !p.mc && !s.hasRoute p.dest then (s.originEnd o ST_ABORTED NO_ROUTE).setEvt F.FAB_EVT_NO_ROUTE
  else if isWriteClass p.type then s.sendNumbered p.dest o p
  else s.launch { gen := 0, pkt := p, origin := o, expect := expect, into := into }

/-- A request made by a descriptor, whose completion waits for its answer. -/
def State.originateFor (s : State) (tok : Nat) (p : Packet) (expect : Nat := 1) (into : Option Into := none) : State :=
  (s.await tok).originate (.desc tok) p expect into

/-- Release a tag; a request that waited for one is sent (R157). -/
def State.releaseTag (s : State) (tag : Nat) : State :=
  let s := { s with fab := { s.fab with outstanding := s.fab.outstanding.del tag } }
  match s.fab.tagWait with
  | [] => s
  | r :: t => ({ s with fab := { s.fab with tagWait := t } }).launch r

/-- R162: a SEQ_SYNC has failed: every packet behind it ends with its status and reason. -/
def State.syncFailed (s : State) (dest status reason : Nat) : State :=
  match s.ord.send.find dest with
  | none => s
  | some q =>
    let s := { s with ord := { s.ord with send := s.ord.send.put dest { q with waiting := [], resync := true } } }
    q.waiting.foldl (fun s e => s.originEnd e.1 status reason) s

/-- A request ends: its tag is released and its origin told. A timeout towards a destination makes the next write there
resynchronise (R162). -/
def State.endRequest (s : State) (tag : Nat) (status reason : Nat) : State :=
  match s.fab.outstanding.find tag with
  | none => s
  | some r =>
    let s := s.releaseTag tag
    let s := s.congOut r.pkt.dest (fun c =>
      if reason = RESP_TIMEOUT then c
      else { c with waitNs := c.waitNs + Config.freeTime s.fresh c.reqs, refused := c.refused + boolNat (status != ST_OK) })
    let s := match r.origin with
      | .sync dest =>
        if status = ST_OK then
          match s.ord.send.find dest with
          | some q => { s with ord := { s.ord with send := s.ord.send.put dest { q with synced := true } } }
          | none => s
        else s.syncFailed dest status reason
      | o => s.originEnd o status reason
    s.drainSend r.pkt.dest

end Sys2Proof.Machine
end

