-- ==== Sys2Proof/Machine/Groups.lean ====
section
/-! DEFINITION. Protection groups: entries, held writes, lost lines and their reconstruction (R601 to R611). -/

namespace Sys2Proof.Machine

/-! ## Entries (Table 20-5) -/

def pgMode (e : BitVec 256) : Nat := bitsOf e 0 2
def pgState (e : BitVec 256) : Nat := bitsOf e 2 2
def pgPos (e : BitVec 256) : Nat := bitsOf e 4 4
def pgLostA (e : BitVec 256) : Nat := bitsOf e 8 4
def pgLostB (e : BitVec 256) : Nat := bitsOf e 12 4
def pgWindow (e : BitVec 256) : Nat := bitsOf e 16 10
def pgExtOff (e : BitVec 256) : Nat := bitsOf e 26 10
def pgMember (e : BitVec 256) (i : Nat) : Nat := bitsOf e (40 + 14 * i) 14
def pgSwapDev (e : BitVec 256) : Nat := bitsOf e 180 14
def pgSwapValid (e : BitVec 256) : Bool := e.getLsbD 194
def pgCursor (e : BitVec 256) : Nat := bitsOf e 200 19

/-! States of an entry. -/
def PG_NORMAL : Nat := 0
def PG_DEGRADED : Nat := 1
def PG_BUILDING : Nat := 2
def PG_LOST : Nat := 3

def PG_FIELD : Nat := 0x1301
def PG_SELF : Nat := 0x1302
def PG_MEMBERS : Nat := 0x1303
def PG_TRANSITION : Nat := 0x1304
def PG_HOLD_LAPSED : Nat := 0x1305
def PG_NOT_MEMBER : Nat := 0x1306
def PG_NOT_BUILT : Nat := 0x1307
def PG_DATA_LOST : Nat := 0x1308
def SWAP_DRAIN : Nat := 0x1309

def dataRole (e : BitVec 256) : Bool :=
  (pgMode e == 1 && pgPos e == 0) || (pgMode e == 2 && decide (pgPos e < 8))
def redundancyRole (e : BitVec 256) : Bool :=
  (pgMode e == 1 && pgPos e == 1) || (pgMode e == 2 && decide (8 ≤ pgPos e) && decide (pgPos e ≤ 9))

def pgLostPos (e : BitVec 256) (p : Nat) : Bool := p != 15 && (pgLostA e == p || pgLostB e == p)

/-- How many positions the entry names as lost. -/
def pgLostCount (e : BitVec 256) : Nat := boolNat (pgLostA e != 15) + boolNat (pgLostB e != 15 && pgLostB e != pgLostA e)

/-- Losses a mode tolerates (R607). -/
def pgTolerates (e : BitVec 256) : Nat := if pgMode e = 1 then 1 else if pgMode e = 2 then 2 else 0

/-- 1 GiB: the DPA extent. -/
def extentSize : Nat := 2 ^ 30

def State.pgAt (s : State) (d : Nat) : BitVec 256 := s.pg.committed.get 0 (d / extentSize)

/-- The fabric address of offset `o` of the extent on device `dev` (R603). -/
def memberAddr (e : BitVec 256) (dev o : Nat) : Nat := dev * 2 ^ 50 + pgWindow e * 2 ^ 40 + pgExtOff e * 2 ^ 30 + o

/-- This device is the one whose copy a swap reads, and not its spare (Table 20-5). -/
def State.swapSource (s : State) (e : BitVec 256) : Bool :=
  pgSwapValid e && pgMember e (pgPos e) == s.fld F.FAB_DEVID_DEVID

/-- Where the updates of a write go: position and device; 15 stands for SWAP_DEV (R606). -/
def State.updateTargets (s : State) (e : BitVec 256) : List (Nat × Nat) :=
  (if dataRole e then
    ((if pgMode e = 1 then [1] else [8, 9]).filter (fun p => !pgLostPos e p)).map (fun p => (p, pgMember e p)) else []) ++
  (if s.swapSource e then [(15, pgSwapDev e)] else [])

/-- A write to [d, …) is held until its updates are answered. -/
def State.holdsWrites (s : State) (d : Nat) : Bool :=
  let e := s.pgAt d
  pgState e != PG_LOST && !(s.updateTargets e).isEmpty

/-! ## Lost lines -/

/-- The line's channel is lost (R32, R601). -/
def State.lineGone (s : State) (line : Nat) : Bool :=
  let h := homeOf (64 * line)
  s.mem.lost.contains (16 * h.stack + h.channel)

/-- R607: the line's local copy cannot be read. -/
def State.lineLost (s : State) (line : Nat) : Bool :=
  let e := s.pgAt (64 * line)
  s.lineGone line || s.pg.repair.contains line || (dataRole e && (pgLostPos e (pgPos e)
    || (pgState e == PG_BUILDING && decide (pgCursor e ≤ 64 * line % extentSize / 4096))))

/-- The group can rebuild the line: no more positions are lost than the mode tolerates, this device's own among them. -/
def rebuildable (e : BitVec 256) : Bool :=
  dataRole e && decide (pgLostCount e + boolNat (!pgLostPos e (pgPos e)) ≤ pgTolerates e)

/-- The line reads as poison: it is poisoned, of an extent in state LOST, or lost without a group that rebuilds it. -/
def State.readsPoison (s : State) (line : Nat) : Bool :=
  let e := s.pgAt (64 * line)
  s.isPoisoned line || pgState e == PG_LOST || s.pg.reconPoison.contains line ||
  (s.lineLost line && !(s.pg.recon.has line) && !rebuildable e)

/-- The line must be reconstructed before it can be read. -/
def State.needsRebuild (s : State) (line : Nat) : Bool :=
  s.lineLost line && !(s.pg.recon.has line) && rebuildable (s.pgAt (64 * line)) && !(s.isPoisoned line) && !(s.pg.reconPoison.contains line)

/-! ## GF(2^8) with polynomial 0x11D (Table 20-6) -/

def gfDouble (x : Nat) : Nat := if x < 128 then 2 * x else (2 * x - 256) ^^^ 0x1D

def gfMulAux : Nat → Nat → Nat → Nat
  | 0, _, _ => 0
  | n + 1, a, b => (if b % 2 = 1 then a else 0) ^^^ gfMulAux n (gfDouble a) (b / 2)

def gfMul (a b : Nat) : Nat := gfMulAux 8 a b

/-- 2 to the power n. -/
def gfExp : Nat → Nat
  | 0 => 1
  | n + 1 => gfDouble (gfExp n)

/-- a to the power n. -/
def gfPow (a : Nat) : Nat → Nat
  | 0 => 1
  | n + 1 => gfMul a (gfPow a n)

def gfInv (a : Nat) : Nat := gfPow a 254

def xorBytes (a b : List Byte) : List Byte := List.zipWith (fun x y => x ^^^ y) a b
def scaleBytes (k : Nat) (a : List Byte) : List Byte := a.map (fun x => BitVec.ofNat 8 (gfMul k x.toNat))
def zeros (n : Nat) : List Byte := List.replicate n 0

/-! ## Updates and held writes (R606) -/

/-- The update packet for a member: the new line at a buddy or a spare, the delta at P and Q; a zero BYTE_MASK marks
poison. -/
def State.updatePacket (s : State) (e : BitVec 256) (pos dev o : Nat) (old new : List Byte) (poison : Bool) : Packet :=
  { type := T_STORE, dest := 0xC000 + dev, addr := memberAddr e dev o, length := 64, segLen := 64
    byteMask := if poison then 0 else 2 ^ 64 - 1
    data := if poison then zeros 64 else if pos = 8 ∨ pos = 9 then xorBytes new old else new
    key := s.keyField 0 }

/-- R606: hold a write of one line and send its updates. R611: under PARITY a full-line write of a poisoned line sends
poison updates in place of a delta. -/
def State.holdWrite (s : State) (w : HeldWrite) (old : List Byte) (full : Bool) : State :=
  let d := 64 * w.line
  let e := s.pgAt d
  let targets := s.updateTargets e
  let poison := w.poison || (pgMode e == 2 && full && s.isPoisoned w.line)
  let s := { s with pg := { s.pg with held := s.pg.held ++ [{ w with awaiting := targets.map Prod.fst }] } }
  targets.foldl (fun s t =>
    s.originate (.group w.line t.1) (s.updatePacket e t.1 t.2 (d % extentSize) old w.data poison)) s

/-- R610: the member at `pos` has failed: the entry turns DEGRADED at once and is reported. -/
def State.degrade (s : State) (ext pos : Nat) : State :=
  let e := s.pg.committed.get 0 ext
  if pos = 15 ∨ pgLostPos e pos then s
  else
    let e := if pgLostA e = 15 then putBits e 8 4 pos else putBits e 12 4 pos
    let e := putBits e 2 2 PG_DEGRADED
    let s := { s with pg := { s.pg with committed := s.pg.committed.put ext e } }
    s.queueFault { cls := 0x50, addr := ext * extentSize, location := LOC_MD
                   detail := ext + at_ 16 (pgLostA e) + at_ 20 (pgLostB e) }

/-- R610: a loss of this position would be more than the mode tolerates. -/
def tooManyLost (e : BitVec 256) (pos : Nat) : Bool :=
  pos != 15 && !pgLostPos e pos && decide (pgTolerates e ≤ pgLostCount e)

def State.dataLost (s : State) (line : Nat) : State :=
  let ext := 64 * line / extentSize
  s.queueFault { cls := 0x52, addr := 64 * line, reason := PG_DATA_LOST, location := LOC_MD
                 detail := ext + at_ 32 1 }

/-- What becomes of one failed update or group read (R610). -/
def State.memberFailed (s : State) (f : Nat × Nat) : State :=
  let (line, pos) := f
  let ext := 64 * line / extentSize
  let e := s.pg.committed.get 0 ext
  if tooManyLost e pos then
    let s := if s.pg.held.any (fun h => h.line == line) then (s.poisonLine line).dataLost line else s
    { s with pg := { s.pg with held := s.pg.held.map (fun h =>
        if h.line = line then { h with awaiting := [], poison := true } else h) } }
  else
    let s := s.degrade ext pos
    { s with pg := { s.pg with held := s.pg.held.map (fun h =>
        if 64 * h.line / extentSize = ext then { h with awaiting := h.awaiting.filter (fun p => p != pos) } else h) } }

def State.memberFailures (s : State) : State :=
  let l := s.pg.failed
  l.foldl State.memberFailed { s with pg := { s.pg with failed := [] } }

/-! ## Reconstruction (R607 to R609) -/

/-- The parity positions a reconstruction holds: the buddy of a MIRROR stands for them. -/
def parityNeeded (e : BitVec 256) : List Nat :=
  if pgMode e = 1 then [1]
  else
    let lostData := ((List.range 8).filter (fun p => pgLostPos e p || p == pgPos e)).length
    let have_ := [8, 9].filter (fun p => !pgLostPos e p)
    have_.take lostData

/-- The data positions it group-reads. -/
def peersNeeded (e : BitVec 256) : List Nat :=
  if pgMode e = 1 then [] else (List.range 8).filter (fun p => p != pgPos e && !pgLostPos e p)

/-- The line's value from P, Q and the data members read. -/
def solveStripe (e : BitVec 256) (got : Tab (List Byte)) : List Byte :=
  if pgMode e = 1 then got.get (zeros 64) 1
  else
    let x := pgPos e
    let peers := peersNeeded e
    let sumP := peers.foldl (fun a p => xorBytes a (got.get (zeros 64) p)) (zeros 64)
    let sumQ := peers.foldl (fun a p => xorBytes a (scaleBytes (gfExp p) (got.get (zeros 64) p))) (zeros 64)
    match parityNeeded e with
    | [8] => xorBytes sumP (got.get (zeros 64) 8)
    | [9] => scaleBytes (gfInv (gfExp x)) (xorBytes sumQ (got.get (zeros 64) 9))
    | _ =>
      -- two data positions x and y: p = dx + dy, q = g^x dx + g^y dy
      let y := ((List.range 8).find? (fun p => p != x && pgLostPos e p)).getD x
      let p := xorBytes sumP (got.get (zeros 64) 8)
      let q := xorBytes sumQ (got.get (zeros 64) 9)
      scaleBytes (gfInv (gfExp x ^^^ gfExp y)) (xorBytes q (scaleBytes (gfExp y) p))

/-- Ask a member for one line. -/
def State.askMember (s : State) (e : BitVec 256) (line pos : Nat) : State :=
  let dev := pgMember e pos
  s.originate (.gather line pos)
    { type := T_LOAD, dest := 0xC000 + dev, addr := memberAddr e dev (64 * line % extentSize), length := 64
      key := s.keyField 0 }

/-- Release a stripe hold (R609). -/
def State.releaseHold (s : State) (e : BitVec 256) (line pos : Nat) : State :=
  let dev := pgMember e pos
  s.originate (.release line pos)
    { type := T_FLAGGED_STORE, dest := 0xC000 + dev, addr := memberAddr e dev (64 * line % extentSize), length := 8
      segLen := 8, data := zeros 8, key := s.keyField 0 }

/-- Start the reconstruction of a line, unless one runs: the stripe hold first. -/
def State.startGather (s : State) (line : Nat) : State :=
  if s.pg.gathers.any (fun g => g.line == line) then s
  -- R601: till a stand-in home takes the lines over, requests to them wait
  else if s.units.standInDue.contains (homeOf (64 * line)).die then s
  else
    let e := s.pgAt (64 * line)
    let first := (parityNeeded e).take 1
    let s := { s with pg := { s.pg with gathers := s.pg.gathers ++ [{ line := line, awaiting := first }] } }
    first.foldl (fun s p => s.askMember e line p) s

def State.setGather (s : State) (g : Gather) : State :=
  { s with pg := { s.pg with gathers := s.pg.gathers.map (fun h => if h.line = g.line then g else h) } }

/-- R611: a line that had an uncorrectable error is rewritten with its reconstructed contents. -/
def State.repaired (s : State) (line : Nat) (r : List Byte) (pg : PgState) : State :=
  if s.pg.repair.contains line then
    ({ s with mem := { s.mem with bytes := s.mem.bytes.writeN (64 * line) r }
              pg := { pg with repair := pg.repair.erase line, recon := pg.recon.del line } }).queueFault
      { cls := 0x11, addr := 64 * line, location := LOC_MD, detail := 64 * line / extentSize }
  else { s with pg := pg }

/-- One reconstruction goes on: the second hold, the other data members, the release, the result. -/
def State.advanceGather (s : State) (g : Gather) : State :=
  let e := s.pgAt (64 * g.line)
  if !g.awaiting.isEmpty then s
  else match g.result with
    | some r =>
      if g.holding.isEmpty then
        s.repaired g.line r { s.pg with gathers := s.pg.gathers.filter (fun h => h.line != g.line)
                                        recon := s.pg.recon.put g.line r }
      else s
    | none =>
      match (parityNeeded e).filter (fun p => !g.got.has p) with
      | p :: _ => (s.setGather { g with awaiting := [p] }).askMember e g.line p
      | [] =>
        match (peersNeeded e).filter (fun p => !g.got.has p) with
        | [] =>
          let r := solveStripe e g.got
          let hold := if pgMode e = 1 then [] else parityNeeded e
          let s := s.setGather { g with result := some r, holding := hold }
          hold.foldl (fun s p => s.releaseHold e g.line p) s
        | ps => ps.foldl (fun s p => s.askMember e g.line p) (s.setGather { g with awaiting := ps })

def State.advanceGathers (s : State) : State := s.pg.gathers.foldl State.advanceGather s

/-- A group read's data has come (READ_DATA of a request of origin `.gather`). -/
def State.gatherData (s : State) (line pos : Nat) (data : List Byte) (poison : Bool) : State :=
  if poison then
    let s := if s.pg.repair.contains line then s.poisonLine line else s
    { s with pg := { s.pg with gathers := s.pg.gathers.filter (fun g => g.line != line)
                               reconPoison := line :: s.pg.reconPoison, repair := s.pg.repair.erase line } }
  else { s with pg := { s.pg with gathers := s.pg.gathers.map (fun g =>
      if g.line = line then { g with got := g.got.put pos data } else g) } }

end Sys2Proof.Machine
end

