-- ==== Sys2Proof/Machine/Home.lean ====
section
/-! DEFINITION. What a home region does with reads and writes (R94 to R100), arrival counters (R111 to R116), and a
device's requests to itself by fabric address (R74). -/

namespace Sys2Proof.Machine

/-- The memory key serial of a slot. -/
def State.memKeyOf (s : State) (slot : Nat) : Nat := (s.slot slot).memKey

/-! ## Reads -/

/-- The address lies in one of the pieces. -/
def inPieces (l : List (Nat × Nat)) (d : Nat) : Bool := l.any (fun a => decide (a.1 ≤ d) && decide (d < a.1 + a.2))

/-- The byte lies in a pool's control area or in a merge area, which no observer reads (R390, R455), or in an undo area, whose
layout is the device's own, or in an index's leaf map, side area or bitmaps (R420). -/
def State.hidden (s : State) (d : Nat) : Bool :=
  s.kv.pools.any (fun _ p => p.phase != .free && inPieces p.ctrl d)
    || s.emb.updates.any (fun _ u => inPieces u.mergeArea d)
    || s.emb.tables.any (fun _ t => t.phase != .free && inPieces t.undoArea d)
    || s.srh.indexes.any (fun _ x => x.phase != .free && inPieces x.areas d)

/-- A byte as its home returns it under key slot `slot`. -/
def State.homeByte (s : State) (slot d : Nat) : Byte :=
  if s.hidden d then Config.privateByte d s.tick.now
  else match s.pg.recon.find (lineOf d) with
  | some l => l.getD (d % 64) 0
  | none => s.peek (s.memKeyOf slot) d

def State.homeBytes (s : State) (slot d : Nat) : Nat → List Byte
  | 0 => []
  | n + 1 => s.homeByte slot d :: s.homeBytes slot (d + 1) n

/-- POISON mask of a read: bit i for line i. -/
def State.homePoison (s : State) (d len : Nat) : Nat :=
  maskOf ((List.range (linesOf d len).length).filter (fun i => s.readsPoison (lineOf d + i)))

/-- The bytes of a read of [a, a + n) that returns poison: free. -/
def State.poisonBytes (s : State) (a n : Nat) : List Byte :=
  (List.range n).map (fun i => Config.poisonByte s.fresh s.out.length (a + i))

/-- A read of [d, d + len) at its homes: the bytes, free where they are poisoned, and the POISON mask. -/
def State.homeRead (s : State) (slot d len : Nat) : List Byte × Nat :=
  let m := s.homePoison d len
  let bytes := s.homeBytes slot d len
  (if m = 0 then bytes
   else (List.zip (List.range len) bytes).map (fun e =>
     if s.readsPoison (lineOf (d + e.1)) then Config.poisonByte s.fresh s.out.length (d + e.1) else e.2), m)

/-! ## Writes -/

/-- The write enables of a write once lost lines are taken out: a write to a lost line is dropped (R32, R601). -/
def State.liveMask (s : State) (d : Nat) (bytes : List Byte) (mask : List Bool) : List Bool :=
  if s.mem.lost.isEmpty then mask
  else (List.range bytes.length).map (fun i => mask.getD i true && !s.lineGone (lineOf (d + i)))

/-- Apply a plain write at its homes: the bytes, the poison of whole lines written (R97), the metadata of their blocks
(R296), the tier's counts (R258). -/
def State.applyWrite (s : State) (slot d : Nat) (bytes : List Byte) (mask : List Bool) : State :=
  let m := s.liveMask d bytes mask
  let s := s.pokeN (s.memKeyOf slot) d bytes m
  let s := if m.all id then (wholeLines d bytes.length).foldl State.unpoison s else s
  let s := (blocksOf d bytes.length).foldl State.plainOverwrite s
  s.touch slot d bytes.length true

/-- A plain write, or a write of an encode with the block's new metadata entry (R295, R296). -/
def State.applyEntry (s : State) (entry : Option Nat) (slot d : Nat) (bytes : List Byte) (mask : List Bool) : State :=
  match entry with
  | none => s.applyWrite slot d bytes mask
  | some v => ((s.setMeta (d / 4096) 0).applyWrite slot d bytes mask).setMeta (d / 4096) v

/-- The bytes of a write that fall in one line, merged over the line's present contents. -/
def State.mergeLine (s : State) (slot d : Nat) (bytes : List Byte) (mask : List Bool) (line : Nat) : List Byte :=
  (List.range 64).map (fun i =>
    let a := 64 * line + i
    if d ≤ a ∧ a < d + bytes.length ∧ mask.getD (a - d) true = true then bytes.getD (a - d) 0 else s.homeByte slot a)

/-- One more held write for its origin to wait for. -/
def State.awaitOrigin (s : State) : HoldOrigin → State
  | .desc tok => s.await tok
  | _ => s

/-- A plain write under key slot `slot`: applied, or held line by line where the extent's updates must be answered first
(R606). `credit` names the counter to be credited as its lines become visible, `entry` the metadata entry that an encode
writes with them. -/
def State.homeWrite (s : State) (o : HoldOrigin) (slot d : Nat) (bytes : List Byte) (mask : List Bool := [])
    (credit : Option Nat := none) (entry : Option Nat := none) : State :=
  if (blocksOf d bytes.length).any (fun b => s.holdsWrites (4096 * b)) then
    (linesOf d bytes.length).foldl (fun s l =>
      let n := min (64 * l + 64) (d + bytes.length) - max (64 * l) d
      let full := (wholeLines d bytes.length).contains l && mask.all id
      let new := s.mergeLine slot d bytes mask l
      (s.awaitOrigin o).holdWrite
        { line := l, key := slot, data := new, awaiting := [], origin := o, credit := credit.map (fun c => (c, n)),
          entry := entry }
        (s.homeBytes slot (64 * l) 64) full) s
  else s.applyEntry entry slot d bytes mask

/-- A poison marking of a line (R97), held where its group's members must learn of it first (R606). -/
def State.markPoison (s : State) (o : HoldOrigin) (line : Nat) : State :=
  if s.holdsWrites (64 * line) then
    (s.awaitOrigin o).holdWrite { line := line, key := 0, data := [], poison := true, awaiting := [], origin := o }
      [] false
  else s.poisonLine line

/-! ## Arrival counters -/

def CTR_SLICE : Nat := 0x0405

def State.counter (s : State) (n : Nat) : Counter := s.ord.counters.get {} n

def State.setCounter (s : State) (n : Nat) (c : Counter) : State :=
  { s with ord := { s.ord with counters := s.ord.counters.put n c } }

/-- R74: a plain or flagged store of this device to its own fabric address, with no counter named: the state after it
and how it was answered. Earlier writes of the device to itself have all settled, as each is applied whole. -/
def State.storeSelf (s : State) (addr : Nat) (bytes : List Byte) (mask : List Bool := []) (o : HoldOrigin := .none)
    (credit : Option Nat := none) : State × Nat × Nat :=
  let e := s.window (faWindow addr)
  match s.windowCheck e s.ownId T_STORE (faOffset addr) bytes.length false with
  | some (st, r) => (s.countWinRefusal addr s.ownId r, st, r)
  | none =>
    let d := winBase e + faOffset addr
    match s.ownCheck s.ownId d bytes.length with
    | some r => ((s.cong (faWindow addr) (fun c => { c with refused := c.refused + 1 })).setEvt F.FAB_EVT_OWN_REFUSED,
                 ST_OWNERSHIP, r)
    | none => (s.homeWrite o (winKey e) d bytes mask credit, ST_OK, 0)

/-- R116: a notify of counter `n`: one 8 B flagged store of its VALUE. -/
def State.sendNotify (s : State) (n : Nat) : State :=
  let c := s.counter n
  let data := leBytes 8 c.value
  if s.fab.devidSet then
    if faDevice c.notify = s.fld F.FAB_DEVID_DEVID then
      let (s, st, r) := s.storeSelf c.notify data
      s.originEnd (.notify n) st r
    else s.originate (.notify n) { type := T_FLAGGED_STORE, dest := 0xC000 + faDevice c.notify, addr := c.notify,
                                   length := 8, segLen := 8, data := data, key := s.keyField 0 }
  else s.originEnd (.notify n) ST_ABORTED NOT_JOINED

/-- R115, R116: an update of a counter: its fields change, then ARMED and the notify follow. -/
def State.updateCounter (s : State) (n : Nat) (f : Counter → Counter) : State :=
  let c := f (s.counter n)
  if c.armed && c.notifyEn && decide (c.threshold ≤ c.value) then
    (s.setCounter n { c with armed := false }).sendNotify n
  else s.setCounter n { c with armed := c.armed || decide (c.value < c.threshold) }

/-- R113: credit `k` bytes to counter `n`. -/
def State.creditCounter (s : State) (n k : Nat) : State :=
  s.updateCounter n (fun c => { c with value := (c.value + k) % 2 ^ 64 })

/-- R113: a write's bytes credited one line at a time. -/
def State.creditLines (s : State) (n d len : Nat) : State :=
  (linesOf d len).foldl (fun s l => s.creditCounter n (min (64 * l + 64) (d + len) - max (64 * l) d)) s

/-- A plain write and its credit (R105, R113): of a write applied at once the lines are credited at once, of a held one as
its lines are applied. -/
def State.creditWrite (s : State) (o : HoldOrigin) (slot d : Nat) (bytes : List Byte) (credit : Option Nat)
    (entry : Option Nat := none) : State :=
  let held := (blocksOf d bytes.length).any (fun b => s.holdsWrites (4096 * b))
  let s := s.homeWrite o slot d bytes [] credit entry
  match credit with
  | some n => if held then s else s.creditLines n d bytes.length
  | none => s

/-- A write of a descriptor to a fabric address of its own device, of packet type `type` (R74, R114): the status and reason
of its response. A write that its protection group holds keeps the completion waiting (R105, R606). -/
def State.storeOwn (s : State) (tok : Nat) (b : DescBits) (type addr : Nat) (bytes : List Byte) : State × Nat × Nat :=
  let e := s.window (faWindow addr)
  let d := winBase e + faOffset addr
  if dCredit b ∧ (s.windowCheck e s.ownId type (faOffset addr) bytes.length true).isNone
      ∧ (s.ownCheck s.ownId d bytes.length).isNone ∧ s.holdsCounter (winSlice e) (dCounter b) = false then
    (s, ST_PERMISSION, CTR_SLICE)
  else
    let held := (blocksOf d bytes.length).any (fun x => s.holdsWrites (4096 * x))
    match s.storeSelf addr bytes [] (.desc tok) (if dCredit b then some (dCounter b) else none) with
    | (s, st, r) =>
      if st ≠ ST_OK then (s, st, r)
      else (if dCredit b ∧ held = false then s.creditLines (dCounter b) d bytes.length else s, st, r)

end Sys2Proof.Machine
end

