-- ==== Sys2Proof/Machine/TickOps.lean ====
section
/-! DEFINITION. Plans, capacities and the tick generator's states: the operations the tick family is written over
(chapter 2). -/

namespace Sys2Proof.Machine

/-! ## Admission reasons (Table 2-5) -/

def R_MTX : Nat := 0x0101
def R_EMB : Nat := 0x0102
def R_STK : Nat := 0x0103
def R_FLS : Nat := 0x0104
def R_CDC : Nat := 0x0105
def R_FAB0 : Nat := 0x0108
def R_PWR : Nat := 0x0110
def CLASS_QUOTA : Nat := 0x0120
def OVER_RESERVATION : Nat := 0x0121
def NO_PLAN : Nat := 0x0122
def HORIZON : Nat := 0x0130
def SYNC_LOST : Nat := 0x0131
def PLAN_FORMAT : Nat := 0x0140
def PLAN_PERIOD : Nat := 0x0141
def PLAN_START : Nat := 0x0142
def PLAN_OBJECT : Nat := 0x0143
def PLAN_POISON : Nat := 0x0144
def OVERRUN_LIMIT : Nat := 0x0150

/-! ## Charges, resource by resource -/

def Cost.list (c : Cost) : List Nat := [c.mtx, c.emb, c.stk, c.fls, c.cdc, c.fab0, c.fab1, c.fab2, c.fab3, c.pwr]

def Cost.ofList : List Nat → Cost
  | [a, b, c, d, e, f, g, h, i, j] =>
    { mtx := a, emb := b, stk := c, fls := d, cdc := e, fab0 := f, fab1 := g, fab2 := h, fab3 := i, pwr := j }
  | _ => {}

def Cost.zip (f : Nat → Nat → Nat) (a b : Cost) : Cost := Cost.ofList (List.zipWith f a.list b.list)
def Cost.add (a b : Cost) : Cost := Cost.zip (· + ·) a b
def Cost.sub (a b : Cost) : Cost := Cost.zip (· - ·) a b
def Cost.max (a b : Cost) : Cost := Cost.zip Nat.max a b

/-- R555: the energy of a charge, µJ, from PWR_COEF and PWR_COEF_B. -/
def Cost.energy (c : Cost) : Nat :=
  ceilDiv (c.mtx * 819200 + c.emb * 4000 + c.stk * 13600 + c.fls * 15600000000 + c.cdc * 2000000
    + 64 * (c.fab0 + c.fab1 + c.fab2 + c.fab3) * 30000) (10 ^ 9)

/-- A charge with its energy. -/
def Cost.withPower (c : Cost) : Cost := { c with pwr := c.energy }

/-- The reason codes in the order of Table 2-5. -/
def resourceReasons : List Nat := [R_MTX, R_EMB, R_STK, R_FLS, R_CDC, 0x108, 0x109, 0x10A, 0x10B, R_PWR]

/-- Which resources are slice-bound; STK and PWR are device-wide pools (Table 2-4). -/
def resourceBound : List Bool := [true, true, false, true, true, true, true, true, true, false]

/-- The first resource of `a` above `cap`, in the order of Table 2-5. -/
def Cost.firstOver (a cap : Cost) : Option Nat :=
  ((List.zip (List.zip a.list cap.list) resourceReasons).find? (fun e => decide (e.1.2 < e.1.1))).map Prod.snd

/-- The slice-bound part of a charge, and its device-wide part. -/
def Cost.bound (c : Cost) : Cost := { c with stk := 0, pwr := 0 }
def Cost.device (c : Cost) : Cost := { stk := c.stk, pwr := c.pwr }

def Cost.maxAll (l : List Cost) : Cost := l.foldl Cost.max {}
def Cost.sumAll (l : List Cost) : Cost := l.foldl Cost.add {}

/-! ## Lull ticks (R62) -/

def State.isLull (s : State) (t : Nat) : Bool :=
  let every := s.fld F.TIK_LULL_LULL_EVERY
  every != 0 && t % every == s.fld F.TIK_LULL_LULL_PHASE

/-- Ageing boundaries among the ticks after `old` up to `t`, where counters age every `age` ticks: one at most but where ticks
are skipped (R45). Eight halvings empty a counter. -/
def agings (old t age : Nat) : Nat := if age = 0 then 0 else min 8 (t / age - old / age)

/-! ## Capacity (R48, Table 2-4) -/

/-- Units of a cluster's kind that are in service: 8 matrix units, 4 embedding units; `bit` is the number of the cluster
in its slice mask. -/
def State.clusterIn (s : State) (die region cluster : Nat) : Bool :=
  !(s.units.leftService.contains (die * 256 + region * 16 + cluster)) && !(s.units.lostDies.contains die)
    && (s.fld F.PWR_ISLAND_STAT_ON).testBit (die + 6 * region)

/-- R669: matrix cluster number 16 × die + 4 × region + cluster is in service. -/
def State.mtxIn (s : State) (k : Nat) : Bool := s.clusterIn (k / 16) (k / 4 % 4) (k % 4)
/-- R669: embedding cluster number 8 × die + 2 × region + (cluster − 4) is in service. -/
def State.embIn (s : State) (k : Nat) : Bool := s.clusterIn (k / 8) (k / 2 % 4) (4 + k % 2)

def State.mtxUnits (s : State) (d : BitVec 2048) : Nat := 8 * ((maskBits (sliceMtx d) 96).filter s.mtxIn).length
def State.embUnits (s : State) (d : BitVec 2048) : Nat := 4 * ((maskBits (sliceEmb d) 48).filter s.embIn).length

/-- Working lanes of a set of ports. -/
def State.lanesOf (s : State) (ports : Nat) : Nat :=
  ((maskBits ports 32).map (fun n => if (s.port n).up then (s.port n).width else 0)).foldl (· + ·) 0

/-- Search channels of a mask in service. -/
def State.channelsIn (s : State) (m : Nat) : Nat := ((maskBits m 64).filter (fun c => (s.srh.chans.get {} c).inService)).length

/-- Reduce a capacity by MAINT_PCT per cent in a lull tick, then round down to a whole unit: `num / den` is the exact
capacity. -/
def lullCut (lull : Bool) (maint num den : Nat) : Nat :=
  if lull then num * (100 - maint) / (den * 100) else num / den

/-- R48: the capacity of a slice with descriptor `d` in a tick of period `p` µs; STK and PWR are the device's. -/
def State.capacityOf (s : State) (d : BitVec 2048) (lull : Bool) (p : Nat) : Cost :=
  let m := s.fld F.TIK_LULL_MAINT_PCT
  let cut := lullCut lull m
  let fab := fun g => cut (9 * s.lanesOf (slicePorts d g) * 25000 * p) (10 * 64)
  { mtx := cut (9 * s.mtxUnits d * 1500 * p) 10
    emb := cut (9 * s.embUnits d * 64 * 1500 * p) 10
    stk := cut (24000000 * p) 1
    fls := cut (9 * s.channelsIn (sliceChannels d) * 230400 * p) (10 * 64 * 16384)
    cdc := cut (9 * sliceCdc d * 36864000 * p) (10 * 96 * 1024)
    fab0 := fab 0, fab1 := fab 1, fab2 := fab 2, fab3 := fab 3
    pwr := cut ((s.fld F.PWR_EFF_EFF_W - s.fld F.PWR_FLOOR_FLOOR_W) * p) 1 }

/-- Physical peak per tick, for the gust rule of R61. -/
def State.peakOf (s : State) (d : BitVec 2048) (p : Nat) : Cost :=
  let fab := fun g => s.lanesOf (slicePorts d g) * 25000 * p / 64
  { mtx := s.mtxUnits d * 1500 * p
    emb := s.embUnits d * 64 * 1500 * p
    stk := 30000000 * p
    fls := s.channelsIn (sliceChannels d) * 230400 * p / (64 * 16384)
    cdc := sliceCdc d * 36864000 * p / (96 * 1024)
    fab0 := fab 0, fab1 := fab 1, fab2 := fab 2, fab3 := fab 3
    pwr := (s.fld F.PWR_EFF_EFF_W - s.fld F.PWR_FLOOR_FLOOR_W) * p }

/-- Capacity of slice `n`; while a commit of it is pending, the smaller of the two (R630). -/
def State.capacity (s : State) (n : Nat) (lull : Bool) (p : Nat) : Cost :=
  match s.sliceViews n with
  | [a, b] => Cost.zip Nat.min (s.capacityOf a lull p) (s.capacityOf b lull p)
  | _ => s.capacityOf (s.slice n) lull p

def State.period (s : State) : Nat := s.fld F.TIK_PERIOD_PERIOD_US

/-- The period that will be in force at tick `t` (R40, R49 check 2). -/
def State.periodAt (s : State) (t : Nat) : Nat :=
  let now := if s.tick.now < t then s.tick.takePeriod.getD s.period else s.period
  match s.tick.change with
  | some (p, c) => if c ≤ t then p else now
  | none => now

/-! ## Plans (R47, R50) -/

def State.slicePlans (s : State) (n : Nat) : SlicePlans := s.tick.plans.get {} n

def State.setPlans (s : State) (n : Nat) (p : SlicePlans) : State :=
  { s with tick := { s.tick with plans := s.tick.plans.put n p } }

/-- The plan that governs the round of tick `t` (R50). -/
def SlicePlans.governs (p : SlicePlans) (t : Nat) : Option Plan :=
  let act := if (match p.stopAt with | some b => decide (b ≤ t) | none => false) then none else p.active
  match p.pending with
  | some q => if q.start ≤ t then some q else act
  | none => act

def State.planFor (s : State) (n t : Nat) : Option Plan := (s.slicePlans n).governs t

/-- The record a plan uses in tick `t`. -/
def Plan.record (p : Plan) (lull : Bool) (t : Nat) : Cost :=
  if lull then p.lull else p.cycle.getD ((t - p.start) % p.cycle.length) {}

/-- The largest value of each resource over the cycle records. -/
def Plan.largest (p : Plan) : Cost := Cost.maxAll p.cycle

/-- Table 2-3: a tick record of 64 B at byte `b` of a structure. -/
def parseRecord (l : List Byte) (b : Nat) : Cost :=
  let f := fun o n => leNat ((l.drop (b + o)).take n)
  { mtx := f 0 8, emb := f 8 8, stk := f 16 8, fls := f 24 4, cdc := f 28 4, fab0 := f 32 4, fab1 := f 36 4,
    fab2 := f 40 4, fab3 := f 44 4, pwr := f 48 4 }

/-- R49 condition 1: the plan structure, when its header is well formed for `slice`. -/
def parsePlan (l : List Byte) (len slice start : Nat) : Option Plan :=
  let f := fun o n => leNat ((l.drop o).take n)
  let n := f 2 2
  if f 0 2 = 1 ∧ 1 ≤ n ∧ n ≤ 4096 ∧ f 4 1 = slice ∧ f 4 1 ≤ 63 ∧ 1 ≤ f 5 1 ∧ f 6 1 ≤ 10 ∧ 1 ≤ f 7 1 ∧ f 7 1 ≤ 64
      ∧ 1 ≤ f 8 1 ∧ f 8 1 ≤ 64 ∧ f 9 1 = 0 ∧ 1 ≤ f 10 2 ∧ 50 ≤ f 12 4 ∧ f 12 4 ≤ 100000 ∧ f 16 48 = 0
      ∧ len = 64 + 64 * (n + 1) then
    some { start := start, weight := f 5 1, gustPct := f 6 1, elasticHorizon := f 7 1, scavengeHorizon := f 8 1,
           quota := f 10 2, periodUs := f 12 4, lull := parseRecord l 64,
           cycle := (List.range n).map (fun i => parseRecord l (128 + 64 * i)) }
  else none

/-! ## Counting -/

def State.stats (s : State) (n : Nat) (f : SliceStats → SliceStats) : State :=
  { s with tick := { s.tick with stats := s.tick.stats.updD {} n f } }

/-! ## The tick generator (Table 2-1) -/

/-- R44, R46: the generator enters LOST: admission stops, the loss is reported. -/
def State.enterLost (s : State) : State :=
  let s := { s with tick := { s.tick with sync := .lost, ptpSinceLost := false, pktSinceLost := false,
                                          lockCount := 0, expected := none } }
  (s.setEvt F.TIK_EVT_LOST).event SYNC_LOST LOC_MD

def State.enterHoldover (s : State) : State :=
  ({ s with tick := { s.tick with sync := .holdover, lockCount := 0 } }).setEvt F.TIK_EVT_HOLDOVER

def State.enterLocking (s : State) : State :=
  { s with tick := { s.tick with sync := .locking, lockCount := 0, lastPkt := none } }

/-- R670, R45: the generator reaches LOCKED; from LOCKING under source FABRIC, the system's tick number is still to be
taken. A tick master is its own source. -/
def State.enterLocked (s : State) : State :=
  { s with tick := { s.tick with sync := .locked, lockCount := 0
                                 relock := s.tick.sync == .locking && s.fld F.TIK_CTRL_SRC == 1
                                   && s.fld F.TIK_CTRL_MASTER == 0 } }

/-- Drop the pending plans that a period change from tick `c` on ends (R51, at the announcement). -/
def State.dropPendingPlans (s : State) (c period : Nat) : State :=
  let bad := fun (_ : Nat) (p : SlicePlans) => match p.pending with
    | some q => decide (c ≤ q.start) && q.periodUs != period
    | none => false
  if s.tick.plans.any bad then
    ({ s with tick := { s.tick with plans := s.tick.plans.mapV (fun n p =>
        if bad n p then { p with pending := none } else p) } }).setEvt F.TIK_EVT_PLAN_ENDED
  else s

/-- R51, at the change: active plans of another period end, but where a pending plan becomes active now. -/
def State.endActivePlans (s : State) (t period : Nat) : State :=
  let bad := fun (_ : Nat) (p : SlicePlans) => match p.active with
    | some q => q.periodUs != period && (match p.pending with | some r => decide (t < r.start) | none => true)
    | none => false
  if s.tick.plans.any bad then
    ({ s with tick := { s.tick with plans := s.tick.plans.mapV (fun n p =>
        if bad n p then { p with active := none, stopAt := none } else p) } }).setEvt F.TIK_EVT_PLAN_ENDED
  else s

end Sys2Proof.Machine
end

