-- ==== Sys2Proof/Machine/Admission.lean ====
section
/-! DEFINITION. The admission round (R55 to R64). -/

namespace Sys2Proof.Machine

/-- The last tick a candidate may be admitted into: its class's horizon under a plan (R59), or the admission horizon of 64
ticks for GUARANTEED (R44). -/
def lastTick (p : Plan) (cls requested : Nat) : Nat :=
  requested + (if cls = ELASTIC then p.elasticHorizon else if cls = SCAVENGE then p.scavengeHorizon else 64) - 1

/-- What a round keeps while it runs. -/
structure Round where
  s : State
  /-- the tick whose round this is -/
  t : Nat
  lull : Bool
  /-- slice-bound resources left, by slice -/
  left : Tab Cost := []
  /-- device-wide resources left -/
  dev : Cost := {}
  /-- charges admitted so far, by slice -/
  used : Tab Cost := []
  /-- borrowing of the round, by slice (R61) -/
  borrowed : Tab Cost := []
  /-- what held each candidate of the round back last, by token -/
  short : Tab Nat := []
  /-- critical paths admitted, by matrix cluster (R343) -/
  crit : Tab Nat := []

/-- R44: the descriptor's horizon ended while admission was stopped, before tick `t`. -/
def State.syncLost (s : State) (t : Nat) (d : Desc) : Bool :=
  match s.planFor (dSlice d.bits) t with
  | none => false
  | some p => decide (lastTick p (dClass d.bits) d.requested < t) && decide (lastTick p (dClass d.bits) d.requested ≤ s.tick.stopTick)

/-- Candidates of the round: kind T, waiting, their requested tick reached, held by nothing; oldest first (R57). -/
def State.ordinary (s : State) (t cls : Nat) : List (Nat × Desc) :=
  s.rings.descs.filter (fun e => opKind (dOpcode e.2.bits) == some .t && e.2.phase == .waiting
    && decide (e.2.requested ≤ t) && dClass e.2.bits == cls && !s.heldBehind e.1 e.2 && !s.syncLost t e.2)

/-- The largest piece of a load (R339). -/
def loadPiece : Nat := 2 ^ 26

/-- The pieces of a load that are offered to a round: SCAVENGE candidates of its slice, charged STK twice their length. -/
def State.piecesOf (s : State) (j : LoadJob) : List (Nat × Desc) :=
  match s.desc j.tok with
  | none => []
  | some d => (List.range (ceilDiv j.left loadPiece)).map (fun i =>
      (j.tok, { d with piece := true, uses := [], cost := ({ stk := 2 * min loadPiece (j.left - i * loadPiece) } : Cost).withPower }))

/-- Put candidates in the order of their arrival. -/
def mergeCands : List (Nat × Desc) → List (Nat × Desc) → List (Nat × Desc)
  | [], l => l
  | x :: t, l => mergeCands t (l.takeWhile (fun y => decide (y.1 ≤ x.1)) ++ x :: l.dropWhile (fun y => decide (y.1 ≤ x.1)))

/-- Every piece not yet admitted of the loads of slices that a plan governs. -/
def State.loadCands (s : State) (t : Nat) : List (Nat × Desc) :=
  (s.tick.loads.filter (fun j => (s.planFor j.slice t).isSome && decide (j.requested ≤ t))).flatMap s.piecesOf

/-- The candidates of a class, with the pieces of loads among those of SCAVENGE. -/
def State.candidates (s : State) (t cls : Nat) : List (Nat × Desc) :=
  if cls = SCAVENGE then mergeCands (s.loadCands t) (s.ordinary t cls) else s.ordinary t cls

/-- R64: the descriptor is admitted into tick `t`; a piece of a load is moved in it. -/
def State.takeIn (s : State) (tok : Nat) (d : Desc) (t : Nat) : State :=
  if d.piece then
    { s with tick := { s.tick with loads := s.tick.loads.map (fun j =>
        if j.tok = tok then { j with left := j.left - d.cost.stk / 2 } else j) } }
  else
  let s := s.setDesc tok { d with phase := .admitted, admitTick := t, delay := t - d.requested, admitSeq := s.tick.admitSeq }
  let s := { s with tick := { s.tick with admitSeq := s.tick.admitSeq + 1 } }
  s.stats (dSlice d.bits) (fun x => { x with admitted := x.admitted + 1
                                             delayed := x.delayed + (if d.requested < t then 1 else 0) })

/-- A candidate is refused in the round of tick `t` (R59, R64). -/
def State.turnAway (s : State) (tok status reason t : Nat) : State :=
  match s.desc tok with
  | none => s
  | some d => (s.refuse tok status reason t).stats (dSlice d.bits) (fun x => { x with refused := x.refused + 1 })

def Round.leftOf (r : Round) (n : Nat) : Cost := r.left.get {} n

/-- Take the charge of a candidate out of what is left, and note its critical path. -/
def Round.charge (r : Round) (n : Nat) (d : Desc) : Round :=
  { r with left := r.left.put n ((r.leftOf n).sub d.cost.bound), dev := r.dev.sub d.cost.device
           used := r.used.updD {} n (Cost.add d.cost)
           crit := d.uses.foldl (fun (m : Tab Nat) k => m.updD 0 k (fun x => x + d.crit)) r.crit }

/-- R343: some cluster that the run uses has no room left for its critical path. -/
def Round.critOver (r : Round) (d : Desc) : Bool :=
  d.uses.any (fun k => decide (9 * 1500 * r.s.periodAt r.t < 10 * (r.crit.get 0 k + d.crit)))

/-- The first resource in which a candidate exceeds what is left of the slice's and the device's resources; a run that
only its clusters hold back is short of MTX (R343). -/
def Round.beyond (r : Round) (n : Nat) (d : Desc) (have_ : Cost) : Option Nat :=
  (d.cost.firstOver (Cost.add (r.leftOf n).bound have_.device)).orElse (fun _ => if r.critOver d then some R_MTX else none)

/-- R472: a KV_ATTEND runs on the cluster of its slice in service with the lowest critical path admitted to the tick. -/
def Round.pick (r : Round) (d : Desc) : Desc :=
  if dOpcode d.bits = 0x55 ∧ d.piece = false then
    let held := (List.range 96).filter (fun k => r.s.mtxIn k &&
      (r.s.sliceViews (dSlice d.bits)).all (fun v => sliceExistsBits v && (sliceMtx v).testBit k))
    { d with uses := (held.foldl (fun (best : Option Nat) k => match best with
        | none => some k
        | some b => if r.crit.get 0 k < r.crit.get 0 b then some k else best) none).toList }
  else d

/-- R57 step 1: one GUARANTEED candidate, against its slice's reservation and, where a fault or the temperature limit has
lowered capacity below the reservations, against capacity (R60). `resv` is what is left of each reservation. -/
def Round.guaranteed (a : Round × Tab Cost) (e : Nat × Desc) : Round × Tab Cost :=
  let (r, resv) := a
  let (tok, d) := e
  let d := r.pick d
  let n := dSlice d.bits
  match d.cost.firstOver (resv.get {} n) with
  | some _ => ({ r with s := r.s.turnAway tok ST_REFUSED_CLASS OVER_RESERVATION r.t }, resv)
  | none =>
    match d.cost.firstOver (Cost.add (r.leftOf n).bound r.dev.device) with
    | some x => ({ r with s := r.s.turnAway tok (if x = R_PWR then ST_REFUSED_POWER else ST_REFUSED_BUDGET) x r.t }, resv)
    | none =>
      if r.critOver d then
        if (match r.s.planFor n r.t with | some p => decide (lastTick p GUARANTEED d.requested ≤ r.t) | none => false) then
          ({ r with s := r.s.turnAway tok ST_REFUSED_BUDGET R_MTX r.t }, resv)
        else ({ r with s := r.s.setDesc tok { d with rounds := d.rounds + 1, short := R_MTX } }, resv)
      else ({ (r.charge n d) with s := r.s.takeIn tok d r.t }, resv.put n ((resv.get {} n).sub d.cost))

/-- The weight of a slice in the first elastic pass: its plan's, or its override in host-assisted mode (R522). -/
def State.weightOf (s : State) (n : Nat) (p : Plan) : Nat :=
  if s.assisted 2 then (s.rings.weights.find n).getD p.weight else p.weight

/-- R57 step 4: first pass over the candidates of one class. Each slice takes its candidates oldest first while they fit
its entitlement: the device pools shared by weight, its own pool whole. -/
def Round.firstPass (r : Round) (cands : List (Nat × Desc)) : Round :=
  let slices := (cands.map (fun e => dSlice e.2.bits)).eraseDups
  let w : Nat → Nat := fun n => match r.s.planFor n r.t with | some p => r.s.weightOf n p | none => 0
  let total : Nat := (slices.map w).foldl (· + ·) 0
  let share := fun n => Cost.ofList (r.dev.list.map (fun x => x * w n / (if total = 0 then 1 else total)))
  (slices.foldl (fun (r : Round) n =>
    let step := fun (a : Round × Cost × Bool) (e : Nat × Desc) =>
      let (r, ent, stopped) := a
      let d := r.pick e.2
      if stopped then a
      else match r.beyond n d ent with
        | some x => ({ r with short := r.short.put e.1 x }, ent, true)
        | none => ({ (r.charge n d) with s := r.s.takeIn e.1 d r.t }, ent.sub d.cost.device, false)
    ((cands.filter (fun e => dSlice e.2.bits == n)).foldl step (r, share n, false)).1) r)

/-- The planned elastic pool of tick `t`: capacity less the planned reservations (R61). -/
def State.plannedPool (s : State) (n t : Nat) : Cost :=
  let lull := s.isLull t
  let cap := s.capacity n lull (s.periodAt t)
  let rec_ := fun n => match s.planFor n t with | some p => p.record lull t | none => {}
  let all := Cost.sumAll (s.tick.plans.keys.map rec_)
  Cost.add (cap.sub (rec_ n)).bound (cap.sub all).device

/-- R61: the shortfall of a candidate, when its slice may borrow it. -/
def Round.gust (r : Round) (n : Nat) (c : Cost) : Option Cost :=
  match r.s.planFor n r.t with
  | none => none
  | some p =>
    if p.gustPct = 0 then none
    else
      let have_ := Cost.add (r.leftOf n).bound r.dev.device
      let lack := c.sub have_
      let already := r.borrowed.get {} n
      let pool := r.s.plannedPool n (r.t + 1)
      let limit := Cost.ofList (pool.list.map (fun x => x * p.gustPct / 100))
      let peak := r.s.peakOf (r.s.slice n) (r.s.periodAt r.t)
      let devUsed := Cost.sumAll r.used.vals
      let total := Cost.add (Cost.add (r.used.get {} n).bound devUsed.device) c
      if ((already.add lack).firstOver limit).isNone
          && (List.zip lack.list (List.zip total.list peak.list)).all (fun e => e.1 == 0 || decide (e.2.1 < e.2.2)) then
        some lack
      else none

/-- R57 steps 5 and 6: second pass over the candidates of one class not yet admitted, by age; a slice drops out at its
first candidate that does not fit. -/
def Round.secondPass (r : Round) (gust : Bool) (cands : List (Nat × Desc)) : Round :=
  let step := fun (a : Round × List Nat) (e : Nat × Desc) =>
    let (r, gone) := a
    let n := dSlice e.2.bits
    let d := r.pick e.2
    if gone.contains n then ({ r with short := match r.short.find e.1 with
                                | some _ => r.short
                                | none => r.short.put e.1 ((r.short.vals.getLast?).getD 0) }, gone)
    else match r.beyond n d r.dev with
      | none => ({ (r.charge n d) with s := r.s.takeIn e.1 d r.t }, gone)
      | some x =>
        match (if gust && !r.critOver d then r.gust n d.cost else none) with
        | some lack => ({ (r.charge n d) with s := r.s.takeIn e.1 d r.t
                                              borrowed := r.borrowed.updD {} n (Cost.add lack) }, gone)
        | none => ({ r with short := r.short.put e.1 x }, n :: gone)
  let left := cands.filter (fun e => !e.2.piece &&
    (match r.s.desc e.1 with | some d => d.phase == .waiting | none => false))
  let pieces := if cands.any (fun e => e.2.piece) then r.s.loadCands r.t else []
  ((mergeCands pieces left).foldl step (r, [])).1

/-- R59: the candidates that the round leaves: what held them back, their rounds, and the end of their horizons. -/
def Round.leave (r : Round) (e : Nat × Desc) : Round :=
  match r.s.desc e.1 with
  | none => r
  | some d =>
    if d.phase != .waiting then r
    else
      let x := (r.short.find e.1).getD d.short
      let s := r.s.setDesc e.1 { d with rounds := d.rounds + 1, short := x }
      match s.planFor (dSlice d.bits) r.t with
      | none => { r with s := s }
      | some p =>
        if lastTick p (dClass d.bits) d.requested ≤ r.t then
          { r with s := s.turnAway e.1 (if x = R_PWR ∧ dClass d.bits = ELASTIC then ST_REFUSED_POWER
                                        else ST_REFUSED_BUDGET) x r.t }
        else { r with s := s }

/-- R123: test one waiting WAIT_COUNTER at a round close. -/
def State.testWait (s : State) (e : Nat × Desc) : State :=
  match s.desc e.1 with
  | none => s
  | some d =>
    if d.finished then s
    else
      let d := { d with rounds := d.rounds + 1 }
      let s := s.setDesc e.1 d
      let v := (s.counter (dCounter d.bits)).value
      if dfield d.bits 16 8 ≤ v then s.finish e.1 { status := ST_OK, result := v }
      else if dfield d.bits 26 2 ≤ d.rounds then
        let s := s.finish e.1 (cpl ST_ABORTED 0x0402)
        if d.bits.getLsbD 192 then
          (s.rings.descs.filter (fun x => decide (e.1 < x.1) && x.2.src == d.src && !x.2.finished
              && opKind (dOpcode x.2.bits) != some .i)).foldl
            (fun s x => s.refuse x.1 ST_ABORTED 0x0403 s.roundTick) s
        else s
      else s

/-- Every WAIT_COUNTER that waits, tested (R123). -/
def State.testWaits (s : State) : State :=
  (s.rings.descs.filter (fun e => dOpcode e.2.bits == 0x03 && !e.2.finished && !s.heldBehind e.1 e.2)).foldl
    State.testWait s

/-- R50: candidates of slices that no plan governs are refused. -/
def State.refuseUnplanned (s : State) (t : Nat) : State :=
  (s.rings.descs.filter (fun e => opKind (dOpcode e.2.bits) == some .t && e.2.phase == .waiting
      && decide (e.2.requested ≤ t) && !s.heldBehind e.1 e.2 && (s.planFor (dSlice e.2.bits) t).isNone)).foldl
    (fun s e => s.turnAway e.1 ST_REFUSED_CLASS NO_PLAN t) s

/-- The capacity and reservations a round begins with (R48, R57): capacity less the gust debt owed to the tick. -/
def State.openRound (s : State) (t : Nat) : Round :=
  let lull := s.isLull t
  let p := s.periodAt t
  let slices := (s.rings.descs.map (fun e => dSlice e.2.bits)).eraseDups
  let debt := fun n => ((s.tick.debt.filter (fun e => e.1 == n)).map Prod.snd).foldl Cost.add {}
  let devDebt := (Cost.sumAll (s.tick.debt.map Prod.snd)).device
  let cap := (s.capacityOf 0 lull p).device
  { s := s, t := t, lull := lull, dev := cap.sub devDebt
    left := (slices ++ s.tick.plans.keys).foldl (fun t n => t.put n ((s.capacity n lull p).sub (debt n)).bound) [] }

/-- One slice's ADMIT_SUMMARY of the round (R522). -/
def summaryOf (before after : State) (t n : Nat) : Option (Nat × Nat × Nat × Nat × Nat × Nat) :=
  let c := before.candidates t ELASTIC |>.filter (fun e => dSlice e.2.bits == n)
  let now := c.filterMap (fun e => after.desc e.1)
  let waiting := now.filter (fun d => d.phase == .waiting)
  if c.isEmpty then none
  else some (n, waiting.length, (now.filter (fun d => d.phase == .finished)).length,
    (now.filter (fun d => d.phase == .admitted)).length, (waiting.map (fun d => d.rounds)).foldl Nat.max 0,
    match before.planFor n t with | some p => before.weightOf n p | none => 0)

/-- R410: a charge that the update service takes ahead of every descriptor of its slice. -/
def Round.service (a : Round × Tab Cost) (e : Nat × Cost) : Round × Tab Cost :=
  let (r, resv) := a
  let c := e.2.withPower
  ({ r with left := r.left.updD {} e.1 (fun x => x.sub c.bound), dev := r.dev.sub c.device
            used := r.used.updD {} e.1 (Cost.add c) },
   resv.updD {} e.1 (fun x => x.sub c))

/-- R57: the round of tick `t`. `pre` is what the update service takes in it (R410), by slice; `maint` is what maintenance
leaves unused of its share in a lull tick (R63). -/
def State.runRound (s : State) (t : Nat) (pre : List (Nat × Cost)) (maint : Cost) : State :=
  let r := s.openRound t
  let resv := s.tick.plans.foldl (fun (m : Tab Cost) e =>
    match e.2.governs t with | some p => m.put e.1 (p.record r.lull t) | none => m) []
  let (r, resv) := pre.foldl Round.service (r, resv)
  let r := ((s.candidates t GUARANTEED).foldl Round.guaranteed (r, resv)).1
  let el := s.candidates t ELASTIC
  let sc := s.candidates t SCAVENGE
  let r := if r.lull then
      let r1 : Round := { r with dev := r.dev.add maint.device,
                                 left := r.left.mapV (fun _ c => c.add maint.bound) }
      let r2 := (r1.firstPass sc).secondPass false sc
      -- SCAVENGE uses what maintenance leaves first; the elastic pool keeps the rest
      { r2 with dev := Cost.zip Nat.min r2.dev r.dev
                left := r2.left.mapV (fun n c => Cost.zip Nat.min c (r.leftOf n)) }
    else r
  let r := (r.firstPass el).secondPass true el
  let r := if r.lull then r else r.secondPass false sc
  let r := ((el ++ sc).filter (fun e => !e.2.piece)).foldl Round.leave r
  let s' := r.s
  let sums := ((el.map (fun e => dSlice e.2.bits)).eraseDups).filterMap (summaryOf s s' t)
  { s' with tick := { s'.tick with closed := t, debt := r.borrowed, summary := sums.take 64
                                   stkNext := (Cost.sumAll r.used.vals).stk } }

/-- R44: may admission go on in this state of the generator? -/
def State.admits (s : State) : Bool :=
  (s.tick.sync == .free || s.tick.sync == .locked || s.tick.sync == .holdover) && !s.tick.relock

/-- R44, R59: a round in which nothing is admitted: every candidate has waited through it for the tick's synchronisation. -/
def State.idleRound (s : State) (t : Nat) : State :=
  let s := (s.ordinary t GUARANTEED ++ s.ordinary t ELASTIC ++ s.ordinary t SCAVENGE).foldl (fun (s : State) e =>
    s.setDesc e.1 { e.2 with rounds := e.2.rounds + 1, short := SYNC_LOST }) s
  { s with tick := { s.tick with closed := t, stopTick := t, debt := [] } }

/-- R44: at boundary `t`, the candidates whose horizons have ended while admission was stopped. -/
def State.refuseUnsynced (s : State) (t : Nat) : State :=
  (s.rings.descs.filter (fun e => opKind (dOpcode e.2.bits) == some .t && e.2.phase == .waiting
      && !s.heldBehind e.1 e.2 && s.syncLost t e.2)).foldl
    (fun (s : State) e => s.turnAway e.1 ST_REFUSED_BUDGET SYNC_LOST t) s

end Sys2Proof.Machine
end

