-- ==== Sys2Proof/Machine/Tick.lean ====
section
/-! DEFINITION. The tick generator: its registers, PTP messages, tick packets and placement-epoch announcements (R36 to
R46, R70, R71, R130, R155). -/

namespace Sys2Proof.Machine

/-- R4: the tick with these low 32 bits nearest to `now`; the earlier of two equally near. -/
def nearestTick (low now : Nat) : Nat :=
  let base := now / 2 ^ 32 * 2 ^ 32 + low % 2 ^ 32
  let dist := fun (x : Nat) => if x ≤ now then now - x else x - now
  if 2 ^ 32 ≤ base ∧ dist (base - 2 ^ 32) ≤ dist base then base - 2 ^ 32
  else if dist (base + 2 ^ 32) < dist base then base + 2 ^ 32
  else base

/-- TIK_CTRL.SRC: 0 FREE, 1 FABRIC, 2 TICK_IN. -/
def State.tickSrc (s : State) : Nat := s.fld F.TIK_CTRL_SRC

/-! ## TIK_CTRL (R37, Table 2-1) -/

/-- A write of TIK_CTRL in force: RUN set starts the generator, RUN cleared stops it, a change of SRC while RUN stays 1
moves it. SRC 0b11 is reserved. -/
def effTikCtrl : RegEffect := fun v s =>
  if bitsOf v 4 2 = 3 then (s, some REG_VALUE)
  else
    let run := s.fld F.TIK_CTRL_RUN
    let src := s.tickSrc
    let s := s.setWord Reg.TIK_CTRL (writeWord Reg.TIK_CTRL (s.word Reg.TIK_CTRL) v)
    let s := if s.fld F.TIK_CTRL_RUN = 0 then
        { s with tick := { s.tick with sync := .stopped, lockCount := 0, expected := none, edgeDue := false, relock := false, ticking := false }
                 ras := { s.ras with seen := 0, overran := false, unsync := false } }
      else if run = 0 ∨ src ≠ s.tickSrc ∨ s.tick.sync = .stopped then
        let s := { s with tick := { s.tick with expected := none, edgeDue := false, relock := false } }
        if s.tickSrc = 0 then { s with tick := { s.tick with sync := .free, lockCount := 0 } } else s.enterLocking
      else s
    (s, none)

/-- TICK_RUN_START (R37): a completed pair of TIK_CTRL that sets RUN. -/
def execTickRunStart (path : Nat) (value : Word) (cycle : Nat) (s : State) : Host.Outcome State Fault Refusal :=
  .next (s.guardPair path Reg.TIK_CTRL value cycle (fun v => bitOf v 0 && s.fld F.TIK_CTRL_RUN == 0) effTikCtrl)

/-- TICK_RUN_STOP (R42): a completed pair of TIK_CTRL that clears RUN. -/
def execTickRunStop (path : Nat) (value : Word) (cycle : Nat) (s : State) : Host.Outcome State Fault Refusal :=
  .next (s.guardPair path Reg.TIK_CTRL value cycle (fun v => !bitOf v 0) effTikCtrl)

/-- TICK_SRC_CHANGE (R37): a completed pair of TIK_CTRL that changes SRC and leaves RUN at 1. -/
def execTickSrcChange (path : Nat) (value : Word) (cycle : Nat) (s : State) : Host.Outcome State Fault Refusal :=
  .next (s.guardPair path Reg.TIK_CTRL value cycle
    (fun v => bitOf v 0 && s.fld F.TIK_CTRL_RUN == 1 && bitsOf v 4 2 != s.tickSrc) effTikCtrl)

/-! ## TIK_PERIOD, TIK_LULL, TIK_LEAD -/

/-- R40, R51: a write of TIK_PERIOD announces a change that applies 65 ticks on; while STOPPED it waits for its substitute
boundary. -/
def effTikPeriod : RegEffect := fun v s =>
  let p := bitsOf v 0 17
  if p < 50 ∨ 100000 < p then (s, some REG_VALUE)
  else if s.fld F.TIK_CTRL_MASTER = 0 ∧ s.tickSrc = 1 then (s, some REG_STATE)
  else if s.tick.sync = .stopped then ({ s with tick := { s.tick with periodPending := some p } }, none)
  else if s.tick.change.isSome then (s, some REG_STATE)
  else
    let c := s.tick.now + 65
    (({ s with tick := { s.tick with change := some (p, c) } }).dropPendingPlans c p, none)

def execTikPeriodWrite (path : Nat) (value : Word) (cycle : Nat) (s : State) : Host.Outcome State Fault Refusal :=
  .next (s.guardPair path Reg.TIK_PERIOD value cycle (fun _ => true) effTikPeriod)

/-- R62: the lull spacing, checked now and in force from the next boundary. -/
def effTikLull : RegEffect := fun v s =>
  let every := bitsOf v 0 12
  if every < 2 ∨ every ≤ bitsOf v 12 12 ∨ 100 < bitsOf v 24 7 then (s, some REG_VALUE)
  else ({ s with tick := { s.tick with lullPending := some (writeWord Reg.TIK_LULL 0 v) } }, none)

def execTikLullWrite (path : Nat) (value : Word) (cycle : Nat) (s : State) : Host.Outcome State Fault Refusal :=
  .next (s.guardPair path Reg.TIK_LULL value cycle (fun _ => true) effTikLull)

/-- R55: the round close lead, 2 µs to half the period in force. -/
def effTikLead : RegEffect := fun v s =>
  let l := bitsOf v 0 17
  if l < 2 ∨ s.period < 2 * l then (s, some REG_VALUE)
  else (s.setWord Reg.TIK_LEAD (writeWord Reg.TIK_LEAD (s.word Reg.TIK_LEAD) v), none)

/-- TIK_LEAD lies at TIK_PERIOD + 4: with the path's guard armed there the write completes that pair instead (R541). -/
def execTikLeadWrite (path : Nat) (value : Word) (cycle : Nat) (s : State) : Host.Outcome State Fault Refusal :=
  .next (if (s.armed path Reg.TIK_PERIOD cycle).isSome then
      s.guardPair path Reg.TIK_PERIOD value cycle (fun _ => true) effTikPeriod
    else s.plainWrite path Reg.TIK_LEAD value effTikLead)

/-- Mailbox WRITE of TICK_NOW: while STOPPED only (Table 2-8). -/
def setTickNow (v : Nat) (s : State) : State × Option Nat :=
  if s.tick.sync = .stopped then
    ({ s with tick := { s.tick with now := v % 2 ^ 64, closed := min s.tick.closed (v % 2 ^ 64) } }, none)
  else (s, some REG_STATE)

/-! ## PTP (R38, R42, R43) -/

/-- PTP_MESSAGE: the slave clock's offset estimate. In LOCKED under source FABRIC an offset beyond ±100 ns moves the
generator to HOLDOVER; in LOST it may move to LOCKING (R46). -/
def execPtpMessage (offsetNs : Int) (s : State) : Host.Outcome State Fault Refusal :=
  .next (if s.fld F.TIK_CTRL_PTP_EN = 0 then s
    else
      let s := { s with tick := { s.tick with offset := offsetNs, offsetKnown := true, ptpLive := true, ptpSinceLost := true } }
      if s.tickSrc ≠ 1 then s
      else if s.tick.sync = .locked ∧ 100 < offsetNs.natAbs then s.enterHoldover
      else if s.tick.sync = .lost ∧ s.tick.pktSinceLost = true then s.enterLocking
      else s)

/-- PTP_MESSAGE_LOSS: no message for 4 s. -/
def execPtpMessageLoss (s : State) : Host.Outcome State Fault Refusal :=
  let s := { s with tick := { s.tick with ptpLive := false } }
  .next (if s.tick.sync = .locked ∧ s.tickSrc = 1 then s.enterHoldover else s)

/-- HOLDOVER_LIMIT (R43): after `elapsedNs` in HOLDOVER the error estimate, last offset plus elapsed × DRIFT_PPB, exceeds
125 ns. -/
def execHoldoverLimit (elapsedNs : Nat) (s : State) : Host.Outcome State Fault Refusal :=
  let last := if s.tickSrc = 1 then s.tick.offset.natAbs else 0
  .next (if s.tick.sync = .holdover ∧ 125 * 10 ^ 9 < last * 10 ^ 9 + elapsedNs * s.fld F.TIK_DRIFT_DRIFT_PPB then
      s.enterLost
    else s)

/-! ## Placement epochs (R130) -/

def State.epochOf (s : State) (dev : Nat) : EpochState := s.ord.epochs.get {} dev
def State.setEpoch (s : State) (dev : Nat) (e : EpochState) : State :=
  { s with ord := { s.ord with epochs := s.ord.epochs.put dev e } }

/-- The origin's epoch advances to `e`. -/
def State.advanceEpoch (s : State) (dev e : Nat) : State :=
  (s.setEpoch dev { s.epochOf dev with accepted := e, pendingTick := none }).setEvt F.FAB_ORD_EVT_EPOCH_ADVANCE

/-- One announcement in a tick packet. -/
def State.announceEpoch (s : State) (a : Nat × Nat × Nat) : State :=
  let (dev, e, low) := a
  let t := nearestTick low s.tick.now
  if (s.epochOf dev).accepted = e then s
  else if t ≤ s.tick.now then s.advanceEpoch dev e
  else s.setEpoch dev { s.epochOf dev with announced := e, pendingTick := some t }

/-! ## TICK packets (R155) -/

/-- Copy a TICK packet to the child ports, ahead of any other flit. -/
def State.floodTick (s : State) (p : Packet) : State :=
  (maskBits (s.fld F.FAB_TICK_CHILD_CHILD) 32).foldl (fun s n =>
    if (s.port n).up then s.emit (.packet (some n) p) else s) s

/-- What an accepted TICK packet tells a generator whose source is FABRIC (R37, R40, R42, R46, R670). -/
def State.takeTickPacket (s : State) (p : Packet) : State :=
  let s := { s with tick := { s.tick with lastPkt := some (p.tick, p.periodUs), sourceTick := p.tick - 1,
                                          pktSinceLost := true } }
  let s := match s.tick.sync with
    | .lost => if s.tick.ptpSinceLost then s.enterLocking else s
    | .locked =>
      if !s.tick.relock && (p.tick != s.tick.now + 1 || p.periodUs != s.periodAt (s.tick.now + 1)) then s.enterLost else s
    | .holdover =>
      if p.tick ≠ s.tick.now + 1 ∨ p.periodUs ≠ s.periodAt (s.tick.now + 1) then s.enterLost else s
    | .locking =>
      if p.periodUs ≠ s.period then
        ({ s with tick := { s.tick with takePeriod := some p.periodUs } }).dropPendingPlans (s.tick.now + 1) p.periodUs
      else s
    | _ => s
  -- before LOCKED the packet's tick numbers are the system's, and its boundary is the device's next
  let c := p.changeTick + (s.tick.now + 1) - p.tick
  if p.nextPeriodUs ≠ 0 ∧ s.tick.change.isNone then
    ({ s with tick := { s.tick with change := some (p.nextPeriodUs, c) } }).dropPendingPlans c p.nextPeriodUs
  else s

/-- TICK (R155): a TICK packet is taken from the parent port only; it is copied to the child ports and acted on. -/
def State.recvTick (s : State) (port : Nat) (p : Packet) : State :=
  if s.fld F.FAB_TICK_TREE_PARENT_VALID = 1 ∧ s.fld F.FAB_TICK_TREE_PARENT = port then
    let s := s.floodTick p
    let s := if s.tickSrc = 1 then s.takeTickPacket p else s
    (p.epochAnn.take 8).foldl State.announceEpoch s
  else { s with tick := { s.tick with pktDiscarded := s.tick.pktDiscarded + 1 } }

def execTick (port : Nat) (pkt : Packet) (s : State) : Host.Outcome State Fault Refusal :=
  .next (if pkt.type = T_TICK then s.recvTick port pkt else s)

/-- The TICK packet that announces boundary `t` (R37, Table 5-7). -/
def State.tickPacket (s : State) (t boundaryNs : Nat) (ann : List (Nat × Nat × Nat)) : Packet :=
  { type := T_TICK, src := s.ownId, dest := 0xFFFF, hops := 64, tick := t, boundaryNs := boundaryNs,
    periodUs := s.periodAt t
    nextPeriodUs := match s.tick.change with | some (p, c) => if t < c then p else 0 | none => 0
    changeTick := match s.tick.change with | some (_, c) => if t < c then c else 0 | none => 0
    epochAnn := ann }

end Sys2Proof.Machine
end

