-- ==== Sys2Proof/Machine/Rings.lean ====
section
/-! DEFINITION. Ring pairs, fabric submission queues, control descriptors and operating modes (chapters 4 and 16), but for
the arrival of descriptors and ABORT. -/

namespace Sys2Proof.Machine

/-! Ring reasons (Table 16-14). -/
def RING_OPCODE : Nat := 0x1001
def RING_CLASS : Nat := 0x1002
def RING_SLICE : Nat := 0x1003
def RING_KEY : Nat := 0x1004
def RING_KEY_EPOCH : Nat := 0x1005
def ABORT_REQUESTED : Nat := 0x1006
def ABORT_NO_TARGET : Nat := 0x1007
def RING_SOURCE : Nat := 0x1008
def RING_MODE : Nat := 0x1009
def COPY_OPERAND : Nat := 0x100A
def DOORBELL_RANGE : Nat := 0x1010
def DOORBELL_CQ : Nat := 0x1011
def FETCH_ERROR : Nat := 0x1012
def CMPL_WRITE : Nat := 0x1013
def RING_CONFIG : Nat := 0x1014

/-! ## Enable and disable (R496, R500) -/

/-- R496: a STOPPING pair with no descriptor left becomes DISABLED. -/
def State.ringStopCheck (s : State) (n : Nat) : State :=
  if (s.ring n).state = .stopping ∧ s.outstandingOf (.ring n) = 0 then
    (s.setRing n { s.ring n with state := .disabled }).setEvt F.HIF_RING_EVT_STOPPED
  else s

def State.subqStopCheck (s : State) (n : Nat) : State :=
  if (s.subq n).state = .stopping ∧ s.outstandingOf (.subq n) = 0 then
    (s.setSubq n { s.subq n with state := .disabled }).setEvt F.FAB_SUBQ_EVT_STOPPED
  else s

/-- Another pair on the same port holds the port's assist pair (R496). -/
def State.assistTaken (s : State) (n port : Nat) : Bool :=
  s.rings.rings.any (fun k r => k != n && rgPort r.record == port && rgAssist r.record && r.state != .disabled)

/-- R496: the checks of an enable. -/
def State.ringConfigOk (s : State) (n : Nat) : Bool :=
  let r := (s.ring n).record
  decide (4 ≤ rgSqLog r) && decide (rgSqLog r ≤ 16) && decide (4 ≤ rgCqLog r) && decide (rgCqLog r ≤ 16)
    && rgSlices r != 0 && s.keyActive (rgKey r) && !(rgAssist r && s.assistTaken n (rgPort r))

def State.subqConfigOk (s : State) (n : Nat) : Bool :=
  let r := (s.subq n).record
  decide (4 ≤ sqLog r) && decide (sqLog r ≤ 12) && decide (4 ≤ sqCqLog r) && decide (sqCqLog r ≤ 12)
    && sqSlices r != 0 && s.keyActive (sqKey r)

/-- A write of HIF_RING_CTRL in force, on the pair HIF_RING_SEL selects. `confOk` is the further check of a port in
confidential mode (R586). -/
def State.ringCtrl (s : State) (confOk : Bool) (v : Word) : State × Option Nat :=
  let n := s.fld F.HIF_RING_SEL_RING
  let r := s.ring n
  if bitOf v 0 then
    if r.state ≠ .disabled then (s, none)
    else if s.ringConfigOk n && confOk then
      (s.setRing n { r with state := .active, sqHead := 0, sqTail := 0, cqHead := 0, cqTail := 0, cqUsed := 0,
                            phase := true, sinceMsg := 0, modArmed := false }, none)
    else
      ((s.setWord Reg.HIF_RING_ERR (BitVec.ofNat 32 (RING_CONFIG + at_ 16 n))).setEvt F.HIF_RING_EVT_CONFIG_REFUSED,
       some REG_STATE)
  else if r.state = .active ∨ r.state = .error then
    ((s.setRing n { r with state := .stopping }).ringStopCheck n, none)
  else (s, none)

/-- A write of FAB_SUBQ_CTRL in force, on the queue FAB_SUBQ_SEL selects. -/
def effSubqCtrl : RegEffect := fun v s =>
  let n := s.fld F.FAB_SUBQ_SEL_QUEUE
  let q := s.subq n
  if bitOf v 0 then
    if q.state ≠ .disabled then (s, none)
    else if s.subqConfigOk n then
      (s.setSubq n { q with state := .active, queue := [], cqHead := 0, cqTail := 0, cqUsed := 0, phase := true }, none)
    else (s.setEvt F.FAB_SUBQ_EVT_CONFIG_REFUSED, some REG_STATE)
  else if q.state = .active ∨ q.state = .error then
    ((s.setSubq n { q with state := .stopping }).subqStopCheck n, none)
  else (s, none)

def execSubqEnable (path : Nat) (value : Word) (cycle : Nat) (s : State) : Host.Outcome State Fault Refusal :=
  .next (s.guardPair path Reg.FAB_SUBQ_CTRL value cycle (fun v => bitOf v 0) effSubqCtrl)

def execSubqDisable (path : Nat) (value : Word) (cycle : Nat) (s : State) : Host.Outcome State Fault Refusal :=
  .next (s.guardPair path Reg.FAB_SUBQ_CTRL value cycle (fun v => !bitOf v 0) effSubqCtrl)

/-! ## Doorbells (R497) -/

/-- A doorbell that is ignored, logged in the guard page of HIF with the doorbell's BAR2 offset. -/
def State.ignoreDoorbell (s : State) (port addr value : Nat) : State :=
  s.logReject B_HIF addr (BitVec.ofNat 32 value) REG_STATE port

/-- SQ_TAIL_DOORBELL: a write of SQ_TAIL in the doorbell page of a pair, on a host port. -/
def execSqTailDoorbell (port pair value : Nat) (s : State) : Host.Outcome State Fault Refusal :=
  let r := s.ring pair
  let v := value % 65536
  .next (if rgPort r.record ≠ port ∨ r.state ≠ .active then s.ignoreDoorbell port (pair * 4096) value
    else if 2 ^ rgSqLog r.record ≤ v then s.ringError pair DOORBELL_RANGE
    else s.setRing pair { r with sqTail := v })

/-- CQ_HEAD_DOORBELL: releases the entries from the CQ head up to the one named; records that waited may follow. -/
def execCqHeadDoorbell (port pair value : Nat) (s : State) : Host.Outcome State Fault Refusal :=
  let r := s.ring pair
  let v := value % 65536
  let size := 2 ^ rgCqLog r.record
  let n := (v + size - r.cqHead) % size
  .next (if rgPort r.record ≠ port ∨ r.state ≠ .active then s.ignoreDoorbell port (pair * 4096 + 4) value
    else if size ≤ v ∨ r.cqUsed < n then s.ringError pair DOORBELL_CQ
    else
      let s := s.setRing pair { r with cqHead := v, cqUsed := r.cqUsed - n }
      if rgAssist r.record then s.drainAssist pair else s)

/-- R502: a NOP with CQ_HEAD in a SUBMIT releases a fabric queue's completion entries. -/
def State.subqRelease (s : State) (q head : Nat) : State :=
  let x := s.subq q
  let size := 2 ^ sqCqLog x.record
  let n := (head + size - x.cqHead) % size
  if size ≤ head ∨ x.cqUsed < n then s.subqError q
  else s.setSubq q { x with cqHead := head, cqUsed := x.cqUsed - n }

/-! ## Writing completions (R499, R501, R509 to R511) -/

/-- R511: what follows a ring's completion. -/
def State.signal (s : State) (n : Nat) (irqNow : Bool) : State :=
  let r := s.ring n
  let k := r.sinceMsg + 1
  if irqNow || (rgModCount r.record != 0 && decide (rgModCount r.record ≤ k)) then
    (s.setRing n { r with sinceMsg := 0, modArmed := false }).sendMsix (rgPort r.record) (rgMsix r.record)
  else s.setRing n { r with sinceMsg := k, modArmed := r.modArmed || rgModTime r.record != 0 }

/-- The completion of a ring's descriptor is written; a write that fails puts the pair in ERROR and is counted (R499). -/
def State.completeRing (s : State) (n : Nat) (d : Desc) (ok : Bool) : State :=
  let r := s.ring n
  let body := complBytes d r.phase ++ (if rgAssist r.record then List.replicate 32 0 else [])
  let s := if ok then s.emit (.hostWrite (rgPort r.record) (rgCqBase r.record + r.cqTail * r.entrySize) body) else s
  let s := s.setRing n { r.advanceCq with completions := r.completions + 1 }
  let s := { s with rings := { s.rings with
    posted := s.rings.posted.updD 0 (Src.ring n).code (fun m => m ||| 2 ^ rgPort r.record) } }
  let s := if ok then s.signal n (dIrqNow d.bits) else s.ringError n CMPL_WRITE
  s.ringStopCheck n

/-- The completion of a fabric queue's descriptor: a 64 B STORE whose BYTE_MASK selects the entry (R501). -/
def State.completeSubq (s : State) (n : Nat) (d : Desc) : State :=
  let q := s.subq n
  let size := 2 ^ sqCqLog q.record
  let addr := sqCqAddr q.record + q.cqTail * 32
  let half := q.cqTail % 2
  let data := if half = 0 then complBytes d q.phase ++ List.replicate 32 0
              else List.replicate 32 0 ++ complBytes d q.phase
  let t := (q.cqTail + 1) % size
  let s := s.setSubq n { q with cqTail := t, cqUsed := q.cqUsed + 1, completions := q.completions + 1,
                                phase := if t = 0 then !q.phase else q.phase }
  let s := if faDevice addr = s.fld F.FAB_DEVID_DEVID ∧ s.fab.devidSet = true then
      let (s, st, r) := s.storeSelf addr (complBytes d q.phase)
      s.originEnd (.complStore n) st r
    else s.originate (.complStore n)
      { type := T_STORE, dest := 0xC000 + faDevice addr, addr := addr / 64 * 64, length := 64, segLen := 64,
        byteMask := (2 ^ 32 - 1) * 2 ^ (32 * half), data := data, key := s.keyField (sqKey q.record) }
  s.subqStopCheck n

/-- R510: another completion must be written first. -/
def State.mustWait (s : State) (tok : Nat) (d : Desc) : Bool :=
  (match d.after with | some t => (s.desc t).isSome | none => false) ||
  (dOpcode d.bits == 0x02 && s.rings.descs.any (fun k e => decide (k < tok) && e.src == d.src))

/-- DESCRIPTOR_COMPLETE (R509): the completion of a finished descriptor is written. -/
def State.writeCompletion (s : State) (tok : Nat) (ok : Bool) : State :=
  match s.desc tok with
  | none => s
  | some d =>
    if !d.finished || s.mustWait tok d then s
    else if d.gone then s.dropDesc tok
    else
      let s := s.dropDesc tok
      let s := { s with rings := { s.rings with past := (d.src.code, dSeq d.bits, d.index) :: s.rings.past } }
      match d.src with
      | .ring n => s.completeRing n d ok
      | .subq n => s.completeSubq n d

def execDescriptorComplete (tok : Nat) (ok : Bool) (s : State) : Host.Outcome State Fault Refusal :=
  .next (s.writeCompletion tok ok)

/-- MSIX_MODERATION_TIMER (R511): MOD_TIME_US have passed since the first completion after the pair's last message. -/
def execMsixModerationTimer (pair : Nat) (s : State) : Host.Outcome State Fault Refusal :=
  let r := s.ring pair
  .next (if r.modArmed && decide (0 < r.sinceMsg) then
      (s.setRing pair { r with sinceMsg := 0, modArmed := false }).sendMsix (rgPort r.record) (rgMsix r.record)
    else s)

/-! ## Control descriptors (R120 to R124, R502, R522) -/

/-- NOP (R502): no effect. -/
def execNop (tok : Nat) (s : State) : Host.Outcome State Fault Refusal :=
  .next (s.runDesc tok 0x00 (fun _ s => (s, some {})))

/-- FENCE (R122): it begins to hold; it ends by FENCE_COMPLETE. -/
def execFence (tok : Nat) (s : State) : Host.Outcome State Fault Refusal :=
  .next (s.runDesc tok 0x02 (fun _ s => (s, none)))

/-- R117: the flushing reads of a SYSTEM fence, one zero-length read on each host port its source has posted writes to. -/
def State.flushReads (s : State) (src : Src) : State :=
  let m := s.rings.posted.get 0 src.code
  let s := (maskBits m 8).foldl (fun s p => s.emit (.host p 0 [])) s
  { s with rings := { s.rings with posted := s.rings.posted.put src.code 0 } }

/-- FENCE_COMPLETE (R122): every earlier descriptor of the ring has completed, and with its completion its writes are
visible at the fence's scope (R105). -/
def execFenceComplete (tok : Nat) (s : State) : Host.Outcome State Fault Refusal :=
  .next (s.endDesc tok 0x02 (fun d s =>
    if s.rings.descs.any (fun k e => decide (k < tok) && e.src == d.src) then (s, none)
    else (if dfield d.bits 16 1 = 2 then s.flushReads d.src else s, some {})))

/-- WAIT_COUNTER (R123): it begins to wait; each round close tests it. -/
def execWaitCounter (tok : Nat) (s : State) : Host.Outcome State Fault Refusal :=
  .next (s.runDesc tok 0x03 (fun _ s => (s, none)))

/-- A flagged store of a descriptor to a fabric address, its counter named (R124, R114). -/
def State.storeFlag (s : State) (tok : Nat) (d : Desc) (addr : Nat) (bytes : List Byte) : State × Option Cpl :=
  if faDevice addr = s.fld F.FAB_DEVID_DEVID ∧ s.fab.devidSet = true then
    match s.storeOwn tok d.bits T_FLAGGED_STORE addr bytes with
    | (s, st, r) => (s, some (cpl st r))
  else
    (s.originateFor tok
      { type := T_FLAGGED_STORE, dest := 0xC000 + faDevice addr, addr := addr, length := bytes.length,
        segLen := bytes.length, data := bytes, credit := dCredit d.bits, counter := dCounter d.bits,
        key := s.keyField (dKeySlot d.bits) }, some {})

/-- SET_FLAG (R124): its write is issued once every earlier descriptor of its ring has ended, so that their writes are
visible. -/
def execSetFlag (tok : Nat) (s : State) : Host.Outcome State Fault Refusal :=
  .next (match s.desc tok with
    | none => s
    | some d =>
      if s.rings.descs.any (fun k e => decide (k < tok) && e.src == d.src && !e.finished) then s
      else s.runDesc tok 0x04 (fun d s =>
        s.storeFlag tok d (dfield d.bits 16 8) (leBytes 8 (dfield d.bits 24 8))))

/-- COUNTER_SET (R120, R115): one update of the counter. -/
def execCounterSet (tok : Nat) (s : State) : Host.Outcome State Fault Refusal :=
  .next (s.runDesc tok 0x05 (fun d s =>
    (s.updateCounter (dCounter d.bits) (fun c =>
      { c with value := if d.bits.getLsbD 321 then c.value else dfield d.bits 16 8
               threshold := dfield d.bits 24 8, notify := dfield d.bits 32 8, notifyEn := d.bits.getLsbD 320 }),
     some {})))

/-- ADMIT_WEIGHTS (R522). -/
def execAdmitWeights (tok : Nat) (s : State) : Host.Outcome State Fault Refusal :=
  .next (s.runDesc tok 0xF2 (fun d s =>
    if !s.assisted 2 then (s, some (cpl ST_PERMISSION RING_MODE))
    else if (match d.src with | .ring n => rgPort (s.ring n).record != s.fld F.HIF_FN_MODE_PORT | .subq _ => true) then
      (s, some (cpl ST_PERMISSION RING_SOURCE))
    else
      let n := dfield d.bits 16 1
      let w := dfield d.bits 17 1
      ({ s with rings := { s.rings with weights := if w = 0 then s.rings.weights.del n else s.rings.weights.put n w } },
       some {})))

/-- R519: a write of HIF_FN_MODE, in force at step 7 of the next boundary. -/
def effFnMode : RegEffect := fun v s =>
  if bitsOf v 2 8 ≠ 0 ∧ (s.assistPair (bitsOf v 16 3)).isNone then (s, some REG_STATE)
  else ({ s with rings := { s.rings with fnModePending := some (writeWord Reg.HIF_FN_MODE 0 v) } }, none)

def execHifFnModeWrite (path : Nat) (value : Word) (cycle : Nat) (s : State) : Host.Outcome State Fault Refusal :=
  .next (s.guardPair path Reg.HIF_FN_MODE value cycle (fun _ => true) effFnMode)

end Sys2Proof.Machine
end

