-- ==== Sys2Proof/Machine/Ports.lean ====
section
/-! DEFINITION. Fabric ports and links, windows, joining and leaving: the fabric's register writes and port events
(chapters 3 and 5), but for packets received. -/

namespace Sys2Proof.Machine

/-! ## Port states (R139 to R142) -/

/-- A port moves to another state: the event bits of the move, and the report of a FAILED port (R141). -/
def State.movePort (s : State) (n : Nat) (st : PortState) : State :=
  let s := s.setPort n { s.port n with state := st }
  let s := s.portEvt n 0
  match st with
  | .retrain => s.portEvt n 3
  | .failed => (s.portEvt n 2).event 0 (locPort n) 0
  | .degraded => s.portEvt n 1
  | _ => s

/-- Send again, by their routes, the packets that were queued for a port and not yet placed in a frame (R142). -/
def State.requeue (s : State) (n : Nat) : State :=
  let q := (s.port n).queue
  let s := s.setPort n { s.port n with queue := [], retry := [], resends := 0, nakSent := false }
  q.foldl (fun s e => s.sendPacket e.pkt) s

/-- R142: the port enters FAILED: its retry frames are discarded, its queued packets go by other ports. -/
def State.failPort (s : State) (n : Nat) : State :=
  let s := s.setPort n { s.port n with width := 0 }
  (s.movePort n .failed).requeue n

def popCount (m n : Nat) : Nat := (maskBits m n).length

/-- FAB_PORT_CTRL.MIN_LANES as a lane count. -/
def minLanes (code : Nat) : Nat := if code = 0 then 4 else if code = 1 then 6 else 8

/-- R140: the width chosen from the lanes good at both ends. -/
def chooseWidth (good code : Nat) : Option Nat :=
  ([8, 6, 4].find? (fun w => decide (w ≤ popCount good 8) && decide (minLanes code ≤ w)))

/-- The NEIGHBOUR packet of a port (R156). -/
def State.neighbourPacket (s : State) (n : Nat) : Packet :=
  { type := T_NEIGHBOUR, src := s.ownId, hops := 1,
    operand := s.fld F.FAB_DEVID_DEVID + at_ 14 (boolNat s.fab.devidSet) + at_ 15 (boolNat s.fab.joined)
      + at_ 16 n + at_ 21 (boolNat s.fab.leaving) }

def State.sendNeighbour (s : State) (n : Nat) : State := s.emit (.packet (some n) (s.neighbourPacket n))

/-- A write of FAB_PORT_CTRL on the selected port: ENABLE, RETRAIN and MIN_LANES. -/
def effPortCtrl : RegEffect := fun v s =>
  let n := s.fld F.FAB_PORT_SEL_PORT
  if bitsOf v 8 2 = 3 then (s, some REG_VALUE)
  else
    let was := (s.port n).enable
    let s := s.setPort n { s.port n with enable := bitOf v 0, minLanes := bitsOf v 8 2 }
    let s := if bitOf v 0 && !was then s.movePort n .detect
      else if !bitOf v 0 && was then
        ((s.setPort n { s.port n with width := 0, good := 0 }).movePort n .disabled).requeue n
      else s
    let s := if bitOf v 1 then
        if (s.port n).up then s.movePort n .retrain
        else if (s.port n).state = .failed then s.movePort n .detect
        else s
      else s
    (s, none)

/-- PORT_ENABLE: a write of FAB_PORT_CTRL that sets ENABLE of a DISABLED port. -/
def execPortEnable (path : Nat) (value : Word) (_cycle : Nat) (s : State) : Host.Outcome State Fault Refusal :=
  .next (if bitOf value 0 then s.plainWrite path Reg.FAB_PORT_CTRL value effPortCtrl else s)

/-- PORT_DISABLE: a write of FAB_PORT_CTRL that clears ENABLE. -/
def execPortDisable (path : Nat) (value : Word) (_cycle : Nat) (s : State) : Host.Outcome State Fault Refusal :=
  .next (if !bitOf value 0 then s.plainWrite path Reg.FAB_PORT_CTRL value effPortCtrl else s)

/-- PORT_RETRAIN: a write of FAB_PORT_CTRL with RETRAIN. -/
def execPortRetrain (path : Nat) (value : Word) (_cycle : Nat) (s : State) : Host.Outcome State Fault Refusal :=
  .next (if bitOf value 1 then s.plainWrite path Reg.FAB_PORT_CTRL value effPortCtrl else s)

def execPortSignalDetect (port lanes : Nat) (s : State) : Host.Outcome State Fault Refusal :=
  .next (if (s.port port).state = .detect ∧ 4 ≤ lanes then s.movePort port .train else s)

def execPortEqualisationDone (port lanes : Nat) (s : State) : Host.Outcome State Fault Refusal :=
  .next (if (s.port port).state = .train ∧ 4 ≤ lanes then s.movePort port .align else s)

/-- PORT_ALIGN_DONE (R140): both ends have tested every lane; `good` is the mask of lanes good at both. -/
def execPortAlignDone (port good : Nat) (s : State) : Host.Outcome State Fault Refusal :=
  .next (if (s.port port).state = .align then
      let s := s.setPort port { s.port port with good := good % 256 }
      match chooseWidth (good % 256) (s.port port).minLanes with
      | some w =>
        let s := s.setPort port { s.port port with width := w }
        (s.movePort port .init).sendNeighbour port
      | none => s.failPort port
    else s)

/-- The state of a trained port of this width. -/
def upState (w : Nat) : PortState := if w = 8 then .active else .degraded

def execLaneFault (port : Nat) (s : State) : Host.Outcome State Fault Refusal :=
  .next (if (s.port port).up then s.movePort port .retrain else s)

/-- R141: the frames not yet acknowledged are sent again, oldest first. -/
def State.resendFrames (s : State) (port : Nat) : State :=
  (s.port port).retry.foldl (fun s f => f.2.foldl (fun s p => s.emit (.packet (some port) p)) s) s

/-- RETRAIN_LOCK_REGAINED (R140, R141): the width is chosen again; the port resends from the first unacknowledged frame. -/
def execRetrainLockRegained (port good : Nat) (s : State) : Host.Outcome State Fault Refusal :=
  .next (if (s.port port).state = .retrain then
      let old := (s.port port).width
      let s := s.setPort port { s.port port with good := good % 256 }
      match chooseWidth (good % 256) (s.port port).minLanes with
      | some w =>
        let s := s.setPort port { s.port port with width := w, resends := 0 }
        let s := s.movePort port (upState w)
        let s := if w ≠ old then s.event 0 (locPort port) w else s
        (s.resendFrames port).drainPort port
      | none => s.failPort port
    else s)

/-- PORT_BRINGUP_TIMEOUT: 2 s since DETECT. -/
def execPortBringupTimeout (port : Nat) (s : State) : Host.Outcome State Fault Refusal :=
  let st := (s.port port).state
  .next (if st = .detect ∨ st = .train ∨ st = .align ∨ st = .init then s.failPort port else s)

def execPortRetrainTimeout (port : Nat) (s : State) : Host.Outcome State Fault Refusal :=
  .next (if (s.port port).state = .retrain then s.failPort port else s)

/-- NEIGHBOUR_TIMER (R156): each end of a link sends a NEIGHBOUR packet every millisecond. -/
def execNeighbourTimer (port : Nat) (s : State) : Host.Outcome State Fault Refusal :=
  .next (if (s.port port).up || (s.port port).state == .init then s.sendNeighbour port else s)

/-- NEIGHBOUR (R156): the port shows the packet received; in INIT, with credit advertisements exchanged, the port is up. -/
def State.recvNeighbour (s : State) (port : Nat) (p : Packet) : State :=
  let q := s.port port
  let s := s.setPort port { q with neighbour := BitVec.ofNat 64 (p.operand % 2 ^ 22) }
  if q.state = .init then s.movePort port (upState q.width) else s

def execNeighbour (port : Nat) (pkt : Packet) (s : State) : Host.Outcome State Fault Refusal :=
  .next (if pkt.type = T_NEIGHBOUR then s.recvNeighbour port pkt else s)

/-- ESCAPE_TIMEOUT (R150): the k-th packet that found no adaptive credit for ESC_NS moves to the escape sub-channel of its
route's escape port. -/
def execEscapeTimeout (k : Nat) (s : State) : Host.Outcome State Fault Refusal :=
  .next (match s.fab.parked[k]? with
    | none => s
    | some p =>
      let s := { s with fab := { s.fab with parked := s.fab.parked.eraseIdx k } }
      if s.hasRoute p.dest then s.sendBy (rtEsc (s.route p.dest)) true p
      else s.countDrop (fun d => { d with noRoute := d.noRoute + 1 }))

/-! ## FAB_VC_CFG, FAB_OWN_ENTRY, FAB_TS_CTRL -/

/-- R147: the credit division of virtual channel `vc` on the selected port. -/
def effVcCfg (vc : Nat) : RegEffect := fun v s =>
  let n := s.fld F.FAB_PORT_SEL_PORT
  let p := s.port n
  let w : Word := BitVec.ofNat 32 (bitsOf v 0 12 + at_ 16 (bitsOf v 16 12))
  let cfg := p.vcCfg.set vc w
  if p.state ≠ .disabled then (s, some REG_STATE)
  else if 8192 < (cfg.map (fun x => bitsOf x 0 12 + bitsOf x 16 12)).foldl (· + ·) 0 then (s, some REG_VALUE)
  else (s.setPort n { p with vcCfg := cfg }, none)

def execFabVcCfgWrite (path vc : Nat) (value : Word) (_cycle : Nat) (s : State) : Host.Outcome State Fault Refusal :=
  .next (s.plainWrite path (Reg.FAB_VC_CFG (vc % 8)) value (effVcCfg (vc % 8)))

/-- R169: the entry of the selected granule; MODE 0b11 is reserved and rejected. -/
def effOwnEntry : RegEffect := fun v s =>
  if bitsOf v 16 2 = 3 then (s, some REG_VALUE)
  else
    let own := s.fab.own.put (s.fld F.FAB_OWN_SEL_GRANULE) (bitsOf v 0 16, bitsOf v 16 2)
    ({ s with fab := { s.fab with own := own } }, none)

def execFabOwnEntryWrite (path : Nat) (value : Word) (cycle : Nat) (s : State) : Host.Outcome State Fault Refusal :=
  .next (s.guardPair path Reg.FAB_OWN_ENTRY value cycle (fun _ => true) effOwnEntry)

/-- THREAD_SWITCH_NORMAL (R173, R174): a write of FAB_TS_CTRL. -/
def execThreadSwitchNormal (path : Nat) (value : Word) (_cycle : Nat) (s : State) : Host.Outcome State Fault Refusal :=
  .next (s.plainWrite path Reg.FAB_TS_CTRL value (effStore Reg.FAB_TS_CTRL))

/-! ## Device ID, joining, leaving (R73, R175, R176) -/

def effDevid : RegEffect := fun v s =>
  if s.fab.joined then (s, some REG_STATE)
  else
    let s := s.setWord Reg.FAB_DEVID (writeWord Reg.FAB_DEVID 0 v)
    ({ s with fab := { s.fab with devidSet := true } }, none)

def execFabDevidWrite (path : Nat) (value : Word) (cycle : Nat) (s : State) : Host.Outcome State Fault Refusal :=
  .next (s.guardPair path Reg.FAB_DEVID value cycle (fun _ => true) effDevid)

def State.joinFabric (s : State) : State :=
  ({ s with fab := { s.fab with joined := true, leaving := false } }).setEvt F.FAB_EVT_JOINED

def State.leaveFabric (s : State) : State :=
  ({ s with fab := { s.fab with joined := false, leaving := true } }).setEvt F.FAB_EVT_LEFT

/-- FAB_CTRL: JOIN needs a set device ID and a port that is up; JOIN while joined and LEAVE while not have no effect. -/
def effFabCtrl : RegEffect := fun v s =>
  if bitOf v 0 && bitOf v 1 then (s, some REG_VALUE)
  else if bitOf v 0 then
    if s.fab.joined then (s, none)
    else if s.fab.devidSet && s.fab.ports.any (fun _ p => p.up) then (s.joinFabric, none)
    else (s, some REG_STATE)
  else if bitOf v 1 then (if s.fab.joined then s.leaveFabric else s, none)
  else (s, none)

def execJoin (path : Nat) (value : Word) (cycle : Nat) (s : State) : Host.Outcome State Fault Refusal :=
  .next (s.guardPair path Reg.FAB_CTRL value cycle (fun v => bitOf v 0) effFabCtrl)

def execLeave (path : Nat) (value : Word) (cycle : Nat) (s : State) : Host.Outcome State Fault Refusal :=
  .next (s.guardPair path Reg.FAB_CTRL value cycle (fun v => bitOf v 1 && !bitOf v 0) effFabCtrl)

/-! ## Window commits (R84 to R87) -/

def COMMIT_RANGE : Nat := 0x0310
def COMMIT_SLICE : Nat := 0x0311
def COMMIT_KEY_STATE : Nat := 0x0312
def COMMIT_KEY_OVERLAP : Nat := 0x0313
def COMMIT_BUSY : Nat := 0x0314

/-- Two windows overlap in DPA. -/
def winOverlap (a b : BitVec 128) : Bool :=
  decide (winBase a < winBase b + winSize b) && decide (winBase b < winBase a + winSize a)

/-- The first reason of R85 that a VALID shadow entry fails. -/
def State.winEntryFails (s : State) (t : Tab (BitVec 128)) (n : Nat) (e : BitVec 128) : Option Nat :=
  if dramEnd < winBase e + winSize e then some COMMIT_RANGE
  else if !s.holdsRange (winSlice e) (winBase e) (winSize e) then some COMMIT_SLICE
  else if !s.keyActive (winKey e) then some COMMIT_KEY_STATE
  else if t.any (fun m f => m != n && winValid f && winOverlap e f && winKey e != winKey f) then some COMMIT_KEY_OVERLAP
  else none

/-- R85: the lowest failing window and its first reason. -/
def State.winCommitFails (s : State) (t : Tab (BitVec 128)) : Option (Nat × Nat) :=
  (t.filter (fun e => winValid e.2)).findSome? (fun e => (s.winEntryFails t e.1 e.2).map (fun r => (e.1, r)))

def State.winRefuse (s : State) (n reason : Nat) : State :=
  (s.setWord Reg.FAB_WIN_ERR (BitVec.ofNat 32 (reason + at_ 16 n))).setEvt F.FAB_WIN_EVT_COMMIT_REFUSED

/-- A write of FAB_WIN_COMMIT in force, at MCLK time `time`. -/
def effWinCommit (time : Nat) : RegEffect := fun v s =>
  if bitOf v 0 && bitOf v 1 then (s, some REG_VALUE)
  else if bitOf v 1 then ({ s with win := { s.win with shadow := s.win.committed } }, none)
  else if bitOf v 0 then
    if s.win.pending.isSome then (s.winRefuse 0 COMMIT_BUSY, some REG_STATE)
    else match s.winCommitFails s.win.shadow with
      | some (n, r) => (s.winRefuse n r, some REG_STATE)
      | none => ({ s with win := { s.win with pending := some (s.win.shadow, time) } }, none)
  else (s, none)

def execWindowCommitApplyWrite (path : Nat) (value : Word) (cycle : Nat) (s : State) :
    Host.Outcome State Fault Refusal :=
  .next (s.guardPair path Reg.FAB_WIN_COMMIT value cycle (fun v => bitOf v 0) (effWinCommit cycle))

def execWindowCommitDiscard (path : Nat) (value : Word) (cycle : Nat) (s : State) : Host.Outcome State Fault Refusal :=
  .next (s.guardPair path Reg.FAB_WIN_COMMIT value cycle (fun v => bitOf v 1 && !bitOf v 0) (effWinCommit cycle))

/-- R86: an accepted commit is applied as one change. -/
def State.applyWindows (s : State) : State :=
  match s.win.pending with
  | none => s
  | some (t, _) =>
    let old := (s.win.committed.filter (fun e => winValid e.2 && t.get 0 e.1 != e.2)).map Prod.snd
    let changed := s.win.committed != t
    ({ s with win := { s.win with committed := t, pending := none, draining := s.win.draining || changed
                                  old := s.win.old ++ old } }).setEvt
      F.FAB_WIN_EVT_APPLIED

/-- WINDOW_DRAIN_COMPLETE (R87): the last request looked up under a replaced entry has completed. -/
def execWindowDrainComplete (s : State) : Host.Outcome State Fault Refusal :=
  .next (if s.win.draining then
      ({ s with win := { s.win with draining := false, old := [] } }).setEvt F.FAB_WIN_EVT_DRAINED
    else s)

end Sys2Proof.Machine
end

