-- ==== Sys2Proof/Machine/Directory.lean ====
section
/-! DEFINITION. Extents (R182 to R185), the Willow directory (R186 to R194) and the readiness of a line for an access:
what every access at a home asks before it is applied. -/

namespace Sys2Proof.Machine

/-! ## Extents (R183) -/

def EXT_FREE : Nat := 0
def EXT_ACTIVE : Nat := 1
def EXT_REVOKING : Nat := 2

def extState (w : Word) : Nat := bitsOf w 30 2
def extPort (w : Word) : Nat := bitsOf w 27 3
def extDec (w : Word) : Nat := bitsOf w 25 2
def extHdm (w : Word) : Nat := bitsOf w 14 11
def extShr (w : Word) : Nat := bitsOf w 8 6
def extKey (w : Word) : Nat := bitsOf w 0 8

def extInUse (w : Word) : Bool := extState w == EXT_ACTIVE || extState w == EXT_REVOKING

def State.ext (s : State) (k : Nat) : Word := s.host.ext.get 0 k

/-- The DPA extent behind HDM extent `x` of decoder `dec` on a port (R183). -/
def State.findExt (s : State) (port dec x : Nat) : Option (Nat × Word) :=
  s.host.ext.find? (fun e => extInUse e.2 && extPort e.2 == port && extDec e.2 == dec && extHdm e.2 == x)

/-- The DPA extent behind extent `x` of shared range `r` (R202). -/
def State.findShrExt (s : State) (r x : Nat) : Option (Nat × Word) :=
  s.host.ext.find? (fun e => extInUse e.2 && extDec e.2 == 2 && extShr e.2 == r && extHdm e.2 == x)

/-- The DPA lies in a coherent extent (R186). -/
def State.coherent (s : State) (d : Nat) : Bool :=
  let w := s.ext (d / extentSize)
  extInUse w && extDec w == 1

/-- The 1 GiB extents that [d, d + len) touches. -/
def extentsOf (d len : Nat) : List Nat :=
  if len = 0 then [] else
    (List.range ((d + len - 1) / extentSize - d / extentSize + 1)).map (fun i => d / extentSize + i)

def State.touchesCoherent (s : State) (d len : Nat) : Bool :=
  (extentsOf d len).any (fun k => s.coherent (k * extentSize))

/-- R196, R198: the domain is WALKING or DOWN, and the range touches it. -/
def State.domainBars (s : State) (d len : Nat) : Bool := s.dir.domain != .up && s.touchesCoherent d len

def DOMAIN_DOWN : Nat := 0x0601

/-! ## Recalls -/

/-! Kinds of answers and requests to hosts (`Out.host`). -/
def H_FLUSH : Nat := 0
def H_DATA : Nat := 1
def H_CMP : Nat := 2
def H_SNP_INV : Nat := 3
def H_SNP_DATA : Nat := 4
def H_SNP_CUR : Nat := 5
def H_CONFLICT_ACK : Nat := 6
def H_READ : Nat := 7
def H_CXL : Nat := 8
def H_DOE : Nat := 9
def H_SPDM : Nat := 10

def Snp.kind : Snp → Nat
  | .inv => H_SNP_INV | .data => H_SNP_DATA | .cur => H_SNP_CUR

/-- Hosts that hold the line, as a mask (R188). -/
def DirEntry.hosts (e : DirEntry) : Nat :=
  match e.kind with | .shared m => m | .owned h => 2 ^ h

/-- R191: the transaction opens with the first BISnp. -/
def State.openRecall (s : State) (line : Nat) (snp : Snp) (hosts : Nat) (evict : Bool := false) : State :=
  let hs := maskBits hosts 8
  let s := hs.foldl (fun s h => s.emit (.host h snp.kind [line])) s
  { s with dir := { s.dir with recalls := s.dir.recalls.put line { snp := snp, hosts := hosts, evict := evict }
                               bisnpSent := s.dir.bisnpSent + hs.length } }

def Waiter.line? : Waiter → Option Nat
  | .host _ l _ _ => some l
  | .engine _ l _ => some l
  | .revoke l => some l
  | .fabric .. => none

def Waiter.isRevoke : Waiter → Bool
  | .revoke _ => true
  | _ => false

/-- Queue a request that must wait, once; one that waits within MIN_HOLD is counted (R193). -/
def State.park (s : State) (w : Waiter) (hold : Bool) : State :=
  if s.dir.waiters.contains w then s
  else { s with dir := { s.dir with waiters := s.dir.waiters ++ [w]
                                    holdWaits := s.dir.holdWaits + boolNat hold } }

/-- Something other than the directory occupies the line: a recall, a held write (R606), a tier copy (R253, R254). -/
def State.lineBusy (s : State) (line : Nat) : Bool :=
  s.dir.recalls.has line || s.pg.held.any (fun h => h.line == line) ||
  (match s.tier.granules.find (line / 1024) with
   | some g => (g.copying ||| g.leaving).testBit (line / 64 % 16)
   | none => false)

/-- The recall an access by an observer without caches needs (R190). -/
def State.recallNeed (s : State) (w : Waiter) (line : Nat) (write : Bool) : Option (Snp × Nat) :=
  match s.dir.entries.find line with
  | none => none
  | some e =>
    if write then (if e.hosts = 0 then none else some (.inv, e.hosts))
    else match e.kind with
      | .owned h => if s.dir.current.contains (w, line) then none else some (.cur, 2 ^ h)
      | .shared _ => none

/-- Ask for one line on behalf of `w`: the state after it, and whether the line is ready. A recall that MIN_HOLD allows is
sent; a lost line's reconstruction is started. -/
def State.askLine (s : State) (w : Waiter) (line : Nat) (write : Bool) : State × Bool :=
  if s.lineBusy line then (s, false)
  else match s.recallNeed w line write with
    | some (snp, hosts) =>
      if (match s.dir.entries.find line with | some e => e.hold | none => false) then (s, false)
      else (s.openRecall line snp hosts, false)
    | none => if s.needsRebuild line then (s.startGather line, false) else (s, true)

/-- Some line of these is within MIN_HOLD (R193). -/
def State.anyHold (s : State) (lines : List Nat) : Bool :=
  lines.any (fun l => match s.dir.entries.find l with | some e => e.hold | none => false)

/-- Ask for every line of the ranges (address, length, write); what is not ready is waited for. -/
def State.askAll (s : State) (w : Waiter) (ranges : List (Nat × Nat × Bool)) : State × Bool :=
  ranges.foldl (fun a r =>
    (linesOf r.1 r.2.1).foldl (fun (a : State × Bool) l =>
      let (s, ok) := a.1.askLine w l r.2.2
      (s, ok && a.2)) a) (s, true)

/-- An applied write leaves its lines in I; a read uses up what a recall brought for it (R190). -/
def State.leaveLines (s : State) (ranges : List (Nat × Nat × Bool)) : State :=
  let written := fun (l : Nat) => ranges.any (fun r => r.2.2 && (linesOf r.1 r.2.1).contains l)
  let read := fun (l : Nat) => ranges.any (fun r => (linesOf r.1 r.2.1).contains l)
  { s with
    dir := { s.dir with entries := s.dir.entries.keep (fun l _ => !written l) }
    pg := { s.pg with recon := s.pg.recon.keep (fun l _ => !read l)
                      reconPoison := s.pg.reconPoison.filter (fun l => !read l) } }

/-- The readiness of a descriptor's accesses. An access that must wait is queued with its first line that is not ready;
the row that runs the descriptor is taken again when it is (assumption 12). -/
def State.engineReady (s : State) (tok : Nat) (ranges : List (Nat × Nat × Bool)) : State × Bool :=
  let w := fun (l : Nat) (b : Bool) => Waiter.engine tok l b
  let (s', ok) := ranges.foldl (fun a r =>
    (linesOf r.1 r.2.1).foldl (fun (a : State × Bool) l =>
      let hold := a.1.anyHold [l]
      let (s, r') := a.1.askLine (w l r.2.2) l r.2.2
      if r' then (s, a.2) else (s.park (w l r.2.2) hold, false)) a) (s, true)
  if ok then
    let s' := s'.leaveLines ranges
    ({ s' with dir := { s'.dir with
        waiters := s'.dir.waiters.filter (fun w => match w with | .engine t _ _ => t != tok | _ => true)
        current := s'.dir.current.filter (fun c => match c.1 with | .engine t _ _ => t != tok | _ => true) } }, true)
  else (s', false)

/-! ## Capacity (R186, R194) -/

/-- The directory slice and set of a line: the slice of its home, the line's place within it modulo 131,072 sets. -/
def dirSet (line : Nat) : Nat × Nat :=
  let h := homeOf (64 * line)
  (h.h, h.choff / 64 % 131072)

/-- Entries of the line's set. -/
def State.setMates (s : State) (line : Nat) : List (Nat × DirEntry) :=
  s.dir.entries.filter (fun e => dirSet e.1 == dirSet line)

/-- The entry granted longest ago that is neither BUSY nor within MIN_HOLD. -/
def State.victim (s : State) (line : Nat) : Option (Nat × DirEntry) :=
  ((s.setMates line).filter (fun e => !e.2.hold && !(s.dir.recalls.has e.1))).foldl (fun best e =>
    match best with
    | none => some e
    | some b => if e.2.granted < b.2.granted then some e else best) none

/-- Room for a new entry: there is, or a recall has been sent to make it. -/
def State.makeRoom (s : State) (line : Nat) : State × Bool :=
  if s.dir.entries.has line || decide ((s.setMates line).length < 16) then (s, true)
  else match s.victim line with
    | none => (s, false)
    | some (l, e) =>
      let s := s.openRecall l .inv e.hosts true
      (({ s with dir := { s.dir with capRecalls := s.dir.capRecalls + 1 } }).setEvt F.DIR_EVT_CAP_RECALL, false)

/-- Grant a line to hosts: HOLD_END starts (R193). -/
def State.grant (s : State) (line : Nat) (k : DirKind) : State :=
  { s with dir := { s.dir with
      entries := s.dir.entries.put line { kind := k, hold := true, granted := s.dir.grants }
      grants := s.dir.grants + 1 } }

def State.clearEntry (s : State) (line : Nat) : State :=
  { s with dir := { s.dir with entries := s.dir.entries.del line } }

/-! ## Host requests on a line (Table 6-3) -/

/-- Data for a host: the line, the state granted (0 I, 1 S, 2 A), poison, 64 bytes. -/
def State.hostData (s : State) (port line slot granted : Nat) : State :=
  let (bytes, poison) := s.homeRead slot (64 * line) 64
  (s.touch slot (64 * line) 64 false).emit
    (.host port H_DATA ([line, granted, boolNat (poison != 0)] ++ bytes.map BitVec.toNat))

def State.hostPoison (s : State) (port line : Nat) : State :=
  s.emit (.host port H_DATA ([line, 0, 1] ++ (s.poisonBytes (64 * line) 64).map BitVec.toNat))

def State.hostCmp (s : State) (port line : Nat) : State := s.emit (.host port H_CMP [line])

/-- A host's write of the line is applied. -/
def State.hostStore (s : State) (port line slot : Nat) (data : List Byte) (mask : Nat) : State :=
  let m := if mask = 2 ^ 64 - 1 then [] else (List.range 64).map (fun i => mask.testBit i)
  s.homeWrite (.host port) slot (64 * line) (data.take 64) m

/-- A host's write and its completion, which a held write gets when it is applied (R606). -/
def State.hostStoreCmp (s : State) (port line slot : Nat) (data : List Byte) (mask : Nat) : State :=
  let held := s.holdsWrites (64 * line)
  let s := s.hostStore port line slot data mask
  if held then s else s.hostCmp port line

/-- The hosts of an entry other than `h`. -/
def othersOf (m h : Nat) : Nat := maskOf ((maskBits m 8).filter (fun x => x != h))

/-- Table 6-3: what a request of host `h` needs recalled before it is granted. -/
def State.hostNeeds (s : State) (w : Waiter) (h line : Nat) (req : HostReq) : Option (Snp × Nat) :=
  match s.dir.entries.find line with
  | none => none
  | some e =>
    match req, e.kind with
    | .rd .shared, .owned g => if g = h then none else some (.data, 2 ^ g)
    | .rd .any, .owned g => if g = h then none else some (.inv, 2 ^ g)
    | .rd .any, .shared m => if othersOf m h = 0 then none else some (.inv, othersOf m h)
    | .rd .invalid, .owned g | .rdData, .owned g =>
      if g = h || s.dir.current.contains (w, line) then none else some (.cur, 2 ^ g)
    | .inv, _ | .invNt, _ => if othersOf e.hosts h = 0 then none else some (.inv, othersOf e.hosts h)
    | .wr _ _ _, .owned g => if g = h then none else some (.inv, 2 ^ g)
    | .wr _ _ _, .shared m => if m = 0 then none else some (.inv, m)
    | _, _ => none

/-- The request takes a directory entry. -/
def HostReq.grants : HostReq → Bool
  | .rd .shared | .rd .any | .inv => true
  | _ => false

/-- The request is granted and applied (Table 6-3). -/
def State.hostApply (s : State) (h line slot : Nat) (req : HostReq) : State :=
  let e := s.dir.entries.find line
  match req with
  | .rd .shared =>
    let m := match e with | some ⟨.shared m, _, _⟩ => m | _ => 0
    (s.grant line (.shared (m ||| 2 ^ h))).hostData h line slot 1
  | .rd .any => (s.grant line (.owned h)).hostData h line slot 2
  | .rd .invalid | .rdData => s.hostData h line slot 0
  | .inv => (s.grant line (.owned h)).hostCmp h line
  | .invNt => (s.clearEntry line).hostCmp h line
  | .clnEvct =>
    (match e with
     | some ⟨.owned g, _, _⟩ => if g = h then s.clearEntry line else s
     | some ⟨.shared m, hold, n⟩ =>
       if othersOf m h = 0 then s.clearEntry line
       else { s with dir := { s.dir with entries := s.dir.entries.put line ⟨.shared (othersOf m h), hold, n⟩ } }
     | none => s).hostCmp h line
  | .wr m data mask =>
    let owner := match e with | some ⟨.owned g, _, _⟩ => g == h | _ => false
    let s := if owner then
        (match m with | .invalid => s.clearEntry line | .shared => s.grant line (.shared (2 ^ h)) | .any => s)
      else s.clearEntry line
    s.hostStoreCmp h line slot data mask

/-- Serve a host's request on a line, or say that it must wait. Lines outside coherent extents have no directory state:
they are read and written plainly. -/
def State.hostServe (s : State) (w : Waiter) (h line slot : Nat) (req : HostReq) : State × Bool :=
  if !((s.slot slot).phase == .active || (s.slot slot).phase == .retiring) then
    -- R577: the crypto units no longer serve the slot
    let s := { s with sec := { s.sec with staleCount := s.sec.staleCount + 1 } }
    let s := s.setEvt F.SEC_EVT_STALE_DROP
    (match req with
     | .rd _ | .rdData => s.hostPoison h line
     | .wr .. => s
     | _ => s.hostCmp h line, true)
  else if s.coherent (64 * line) && s.dir.domain != .up then
    (match req with
     | .rd _ | .rdData => s.hostPoison h line
     | .wr .. =>
       { s with host := { s.host with lastDrop := (h, 1, DOMAIN_DOWN, 64 * line, s.tick.now) } }
     | _ => s.hostCmp h line, true)
  else if s.lineBusy line then (s, false)
  else if s.coherent (64 * line) then
    match s.hostNeeds w h line req with
    | some (snp, hosts) =>
      if s.anyHold [line] then (s, false) else (s.openRecall line snp hosts, false)
    | none =>
      if s.needsRebuild line then (s.startGather line, false)
      else if req.grants then
        match s.makeRoom line with
        | (s, true) => (s.hostApply h line slot req, true)
        | (s, false) => (s, false)
      else (s.hostApply h line slot req, true)
  else if s.needsRebuild line then (s.startGather line, false)
  else
    (match req with
     | .rd _ | .rdData => s.hostData h line slot 0
     | .wr _ data mask => s.hostStoreCmp h line slot data mask
     | _ => s.hostCmp h line, true)

end Sys2Proof.Machine
end

