-- ==== Sys2Proof/Machine/Translate.lean ====
section
/-! DEFINITION. Translation: contexts, walks, TLBs, misses and the ranges a descriptor holds (R215 to R235). -/

namespace Sys2Proof.Machine

/-! ## Context records (Table 7-1) -/

def xcValid (r : BitVec 256) : Bool := r.getLsbD 0
def xcS1 (r : BitVec 256) : Bool := r.getLsbD 1
def xcS2 (r : BitVec 256) : Bool := r.getLsbD 2
def xcPriv (r : BitVec 256) : Bool := r.getLsbD 3
def xcPort (r : BitVec 256) : Nat := bitsOf r 4 3
def xcPortValid (r : BitVec 256) : Bool := r.getLsbD 7
def xcSlice (r : BitVec 256) : Nat := bitsOf r 8 6
def xcMig (r : BitVec 256) : Nat := bitsOf r 14 2
def xcVmid (r : BitVec 256) : Nat := bitsOf r 16 8
def xcRootHost (r : BitVec 256) : Bool := r.getLsbD 24
def xcS1Root (r : BitVec 256) : Nat := bitsOf r 64 64
def xcS2Root (r : BitVec 256) : Nat := bitsOf r 128 64
def xcPoolExt (r : BitVec 256) : Nat := bitsOf r 192 11
def xcPoolGib (r : BitVec 256) : Nat := bitsOf r 208 8

def XL_CTX : Nat := 0x0701
def XL_S1_INVALID : Nat := 0x0702
def XL_S2_INVALID : Nat := 0x0703
def XL_S1_PERM : Nat := 0x0704
def XL_S2_PERM : Nat := 0x0705
def XL_FORMAT : Nat := 0x0706
def XL_RANGE : Nat := 0x0707
def XL_SLICE : Nat := 0x0708
def XL_HOST_PORT : Nat := 0x0709
def XL_MISS_TIMEOUT : Nat := 0x070A
def XL_ASSIST_FAIL : Nat := 0x070B
def XL_MIG_TIMEOUT : Nat := 0x070C
def XL_POOL : Nat := 0x070D
def XL_MIG_MODE : Nat := 0x070E
def XL_PRIV : Nat := 0x070F
def XL_FILL_STALE : Nat := 0x0710
def XL_OPERAND : Nat := 0x0711
def CTX_ROOT : Nat := 0x0720
def CTX_POOL : Nat := 0x0721
def CTX_PORT : Nat := 0x0722
def CTX_FIELD : Nat := 0x0723
/-- R586: a HOST output, or a migration to or from host memory, in a context whose port is confidential. -/
def SEC_CONF_HOST : Nat := 0x120A

/-- Status of a translation reason (Table 7-13). -/
def xlStatus (r : Nat) : Nat :=
  if r = XL_S1_PERM ∨ r = XL_S2_PERM ∨ r = XL_SLICE ∨ r = XL_MIG_MODE ∨ r = XL_PRIV ∨ r = SEC_CONF_HOST then ST_PERMISSION else ST_XLATE_FAULT

def State.context (s : State) (c : Nat) : BitVec 256 := s.xlt.committed.get 0 c

/-- The port of the context is confidential (R586). -/
def State.ctxConf (s : State) (c : Nat) : Bool := s.sec.conf.has (xcPort (s.context c))

/-- The home die of a context (R216). -/
def homeDie (c : Nat) : Nat := c % 6

/-! ## Table entries (Table 7-2) -/

def teValid (e : Nat) : Bool := e.testBit 0
def teLeaf (e : Nat) : Bool := e.testBit 1
def teRead (e : Nat) : Bool := e.testBit 3
def teWrite (e : Nat) : Bool := e.testBit 4
def teAddr (e : Nat) : Nat := e / 4096 % 2 ^ 40 * 4096
def teMig (e : Nat) : Bool := e.testBit 61
def teType (e : Nat) : Nat := e / 2 ^ 62 % 4

/-- Page size of a leaf at a level (Table 7-3). -/
def levelSize (level : Nat) : Nat := if level = 1 then 2 ^ 30 else if level = 2 then 2 ^ 21 else 4096

def levelIndex (level va : Nat) : Nat := va / 2 ^ (39 - 9 * level) % 512

/-- The end of one stage's walk. -/
inductive Stage where
  /-- an entry lies in host memory and its value is not known yet -/
  | need
  | invalid (entry : Nat) (level : Nat) (addr : Nat)
  | bad (reason : Nat)
  | leaf (entry : Nat) (level : Nat) (addr : Nat) (rest : List Nat)
  deriving DecidableEq, Repr

/-- What a leaf at a level must be (R220): not at level 0, no ADDR bits below its page size, no reserved TYPE. -/
def leafOk (e level : Nat) : Bool :=
  level != 0 && decide (teAddr e % levelSize level = 0) && decide (teType e < 2)

/-- Walk one stage. `rd` reads the entry at an address, taking host entries from a list of those already read. -/
def walkStage (rd : Nat → List Nat → Option (Nat × List Nat) × Nat) (va : Nat) : Nat → Nat → Nat → List Nat → Stage
  | 0, _, _, _ => .bad XL_FORMAT
  | fuel + 1, level, table, host =>
    let a := table + 8 * levelIndex level va
    match rd a host with
    | (none, 0) => .need
    | (none, r) => .bad r
    | (some (e, rest), _) =>
      if !teValid e then .invalid e level a
      else if teLeaf e then (if leafOk e level then .leaf e level a rest else .bad XL_FORMAT)
      else if level = 3 then .bad XL_FORMAT
      else walkStage rd va fuel (level + 1) (teAddr e) rest

/-- Read 8 B of a table in device memory, under the key slot of the access. -/
def State.readEntry (s : State) (key a : Nat) (host : List Nat) : Option (Nat × List Nat) × Nat :=
  if dramEnd < a + 8 then (none, XL_RANGE) else (some (leNat (s.homeBytes key a 8), host), 0)

/-- An entry in host memory is the next value already read across the host port, if there is one. -/
def hostEntry (_a : Nat) : List Nat → Option (Nat × List Nat) × Nat
  | [] => (none, 0)
  | e :: t => (some (e, t), 0)

/-- Stage 2 of an IPA. -/
def State.walkS2 (s : State) (key : Nat) (r : BitVec 256) (ipa : Nat) (host : List Nat) : Stage :=
  if 2 ^ 48 ≤ ipa then .bad XL_RANGE else walkStage (s.readEntry key) ipa 4 0 (xcS2Root r) host

/-- The end of a walk (R220, R221). -/
inductive Walked where
  | need
  /-- no translation; the entry that decided is the last stage's leaf at this level and address, when `last` -/
  | fault (reason : Nat) (last : Bool) (entry : Nat) (level : Nat) (leafHost : Bool) (addr : Nat)
  | ok (x : Xlat) (entry : Nat) (leafHost : Bool) (addr : Nat)
  deriving DecidableEq, Repr

/-- R221: the checks of a combined translation. -/
def State.xlatCheck (s : State) (r : BitVec 256) (x : Xlat) : Option Nat :=
  if x.host then (if xcPortValid r then none else some XL_HOST_PORT)
  else if dramEnd < x.out + x.size * x.run then some XL_RANGE
  else if !s.holdsRange (xcSlice r) x.out (x.size * x.run) then some XL_SLICE
  else none

def State.walkedOk (s : State) (r : BitVec 256) (x : Xlat) (e level : Nat) (lh : Bool) (a : Nat) : Walked :=
  match s.xlatCheck r x with
  | some reason => .fault reason false e level lh a
  | none => .ok x e lh a

/-- R220: the walk of a VA in context `c`. -/
def State.walk (s : State) (key c va : Nat) (host : List Nat) : Walked :=
  let r := s.context c
  let pg := fun (size a : Nat) => a / size * size
  if !xcS1 r && !xcS2 r then
    s.walkedOk r { ctx := c, vmid := xcVmid r, va := pg 4096 va, ipa := 0, out := pg 4096 va, size := 4096, host := false,
                   mig := false } 0 3 false 0
  else if 2 ^ 48 ≤ va then .fault XL_RANGE false 0 0 false 0
  else
    -- how a stage-1 table entry is read: through stage 2 when it is enabled
    let rd1 : Nat → List Nat → Option (Nat × List Nat) × Nat := fun a host =>
      if xcS2 r then
        match s.walkS2 key r a host with
        | .need => (none, 0)
        | .invalid _ _ _ => (none, XL_S2_INVALID)
        | .bad reason => (none, reason)
        | .leaf e level _ rest =>
          if !teRead e then (none, XL_S2_PERM)
          else
            let out := teAddr e + a % levelSize level
            if teType e = 1 then hostEntry out rest else s.readEntry key out rest
      else if xcRootHost r then hostEntry a host else s.readEntry key a host
    let s1 := if xcS1 r then walkStage rd1 va 4 0 (xcS1Root r) host else .leaf (2 ^ 3 + 2 ^ 4 + pg 4096 va) 3 0 host
    match s1 with
    | .need => .need
    | .bad reason => .fault reason false 0 0 false 0
    | .invalid e level a => .fault XL_S1_INVALID (!xcS2 r) e level (xcRootHost r && !xcS2 r) a
    | .leaf e1 l1 a1 rest =>
      let size1 := if xcS1 r then levelSize l1 else 2 ^ 30
      let ipa := if xcS1 r then teAddr e1 + va % levelSize l1 else va
      if !xcS2 r then
        s.walkedOk r { ctx := c, vmid := xcVmid r, va := pg size1 va, ipa := 0, out := teAddr e1, size := size1
                       host := teType e1 == 1, mig := teMig e1, s1Read := teRead e1, s1Write := teWrite e1 }
          e1 l1 (xcRootHost r) a1
      else if teType e1 ≠ 0 then .fault XL_FORMAT false 0 0 false 0
      else
        match s.walkS2 key r ipa rest with
        | .need => .need
        | .bad reason => .fault reason false 0 0 false 0
        | .invalid e level a => .fault XL_S2_INVALID true e level false a
        | .leaf e2 l2 a2 _ =>
          let size := min size1 (levelSize l2)
          s.walkedOk r { ctx := c, vmid := xcVmid r, va := pg size va, ipa := pg size ipa
                         out := teAddr e2 + pg size (ipa % levelSize l2), size := size
                         host := teType e2 == 1, mig := teMig e2, s1Read := teRead e1, s1Write := teWrite e1
                         s2Read := teRead e2, s2Write := teWrite e2 } e2 l2 false a2

/-- A missing permission of a translation for an access (bits: 1 read, 2 write, 4 atomic). -/
def Xlat.denies (x : Xlat) (access : Nat) : Option Nat :=
  let w := access.testBit 1 || access.testBit 2
  let r := access.testBit 0
  if (r && !x.s1Read) || (w && !x.s1Write) then some XL_S1_PERM
  else if (r && !x.s2Read) || (w && !x.s2Write) then some XL_S2_PERM
  else none

def Xlat.covers (x : Xlat) (c va : Nat) : Bool :=
  x.ctx == c && decide (x.va ≤ va) && decide (va < x.va + x.size * x.run)

def Xlat.output (x : Xlat) (va : Nat) : Nat := x.out + (va - x.va)

/-! ## TLBs -/

def State.tlbFind (s : State) (die c va : Nat) : Option Xlat := (s.xlt.tlb.get [] die).find? (fun x => x.covers c va)

/-- Install a translation in a die TLB of 32,768 entries; the oldest makes room. -/
def State.tlbInstall (s : State) (die : Nat) (x : Xlat) : State :=
  { s with xlt := { s.xlt with tlb := s.xlt.tlb.put die ((x :: s.xlt.tlb.get [] die).take 32768) } }

/-- The descriptor uses a translation and holds it until it completes (R231). -/
def State.holdXlat (s : State) (tok : Nat) (x : Xlat) : State :=
  if s.xlt.held.contains (tok, x) then s else { s with xlt := { s.xlt with held := s.xlt.held ++ [(tok, x)] } }

def State.heldXlat (s : State) (tok c va : Nat) : Option Xlat :=
  (s.xlt.held.find? (fun h => h.1 == tok && h.2.covers c va)).map Prod.snd

/-- Remove the translations `p` names from every TLB. The die generations advance; walks and assist requests that the
invalidation does not cover, by `q` of their context and VA, go on under the new generation (R229, R241). -/
def State.tlbDrop (s : State) (p : Xlat → Bool) (q : Nat → Nat → Bool) : State :=
  let gen := (List.range 6).foldl (fun g d => g.updD 0 d (· + 1)) s.xlt.gen
  let now := fun (c va old : Nat) => if q c va then old else gen.get 0 (homeDie c)
  { s with xlt := { s.xlt with
      tlb := s.xlt.tlb.mapV (fun _ l => l.filter (fun x => !p x))
      ctlb := s.xlt.ctlb.mapV (fun _ l => l.filter (fun x => !p x))
      gen := gen
      walks := s.xlt.walks.map (fun w => { w with gen := now w.ctx w.va w.gen })
      assist := s.xlt.assist.mapV (fun _ a => { a with gen := now a.ctx a.va a.gen }) } }

def State.xltGen (s : State) (c : Nat) : Nat := s.xlt.gen.get 0 (homeDie c)

/-! ## Migration modes (R234, R235) -/

def mrValid (r : BitVec 128) : Bool := r.getLsbD 0
def mrMode (r : BitVec 128) : Nat := bitsOf r 1 2
def mrBase (r : BitVec 128) : Nat := bitsOf r 12 52
def mrLast (r : BitVec 128) : Nat := bitsOf r 76 52

/-- 0 EXPLICIT, 1 ON_FAULT, 2 BOTH. -/
def State.migMode (s : State) (c va : Nat) : Nat :=
  let rs := (List.range 8).map (fun i => s.xlt.mranges.get 0 (8 * c + i))
  match rs.find? (fun r => mrValid r && decide (mrBase r ≤ va / 4096) && decide (va / 4096 ≤ mrLast r)) with
  | some r => mrMode r
  | none => xcMig (s.context c)

/-- R235: the fault of a leaf that asks for migration: an invalid leaf that names a host page, or a HOST leaf with MIG. -/
def asksMigration (entry level : Nat) : Bool :=
  decide (2 ≤ level) && teType entry == 1 && (!teValid entry && (teLeaf entry || level == 3) || teValid entry && teMig entry)

/-! ## Assist requests (R225 to R228) -/

/-- The operand bytes of a translation assist record (Table 7-5). -/
def xltOperands (a : AssistReq) (req : Nat) : List Byte :=
  assistOperands a.kind [(16, 8, a.va), (24, 8, a.len), (32, 4, req), (36, 2, a.ctx), (39, 1, a.access), (40, 8, a.leaf)]

/-- Post a translation record; none when the context's port has no ACTIVE assist pair (Table 16-11). With 1,024 requests
pending the miss waits. -/
def State.postXlt (s : State) (a : AssistReq) : Option State :=
  let port := xcPort (s.context a.ctx)
  if (s.assistPair port).isNone then none
  else if 1024 ≤ s.xlt.assist.length then some s
  else
    let req := s.xlt.nextReq
    let s := { s with xlt := { s.xlt with assist := s.xlt.assist.put req a, nextReq := (req + 1) % 2 ^ 32 } }
    some (s.postAssist port (if a.kind = 1 then 0 else 1) a.kind (xltOperands a req))

/-- A request for this page is pending. -/
def State.assistPending (s : State) (c va : Nat) : Bool :=
  s.xlt.assist.any (fun _ a => a.ctx == c && a.va / 4096 == va / 4096 && a.tok.isNone)

/-! ## One translation of an access -/

/-- How the translation of one address for an access stands. -/
inductive X1 where
  | hit (x : Xlat)
  | wait
  | fault (reason : Nat)
  deriving DecidableEq, Repr

/-- R235, R238, R239: an access that asks for migration: recorded for MIGRATION_START, or posted as a FAULT record. -/
def State.askMigration (s : State) (key c va access leaf : Nat) : State × X1 :=
  if s.ctxConf c then (s, .fault SEC_CONF_HOST)
  else if s.assisted 1 then
    if s.assistPending c va then (s, .wait)
    else match s.postXlt { ctx := c, va := va, kind := 2, access := access, leaf := leaf, gen := s.xltGen c, key := key } with
      | some s => (s, .wait)
      | none => (s, .fault XL_ASSIST_FAIL)
  else if s.xlt.migWanted.any (fun m => m.1 == c && m.2.1 / 4096 == va / 4096) then (s, .wait)
  else ({ s with xlt := { s.xlt with migWanted := s.xlt.migWanted ++ [(c, va, access, key)] } }, .wait)

/-- A translation found is checked for the access, asks for migration where its page is to move, and is held. -/
def State.useXlat (s : State) (tok key c va access : Nat) (x : Xlat) : State × X1 :=
  match x.denies access with
  | some r => (s, .fault r)
  | none =>
    if x.host && s.ctxConf c then (s, .fault SEC_CONF_HOST)
    else if x.host && x.mig && s.migMode c va != 0 then
      if x.size = 2 ^ 30 then (s, .fault XL_FORMAT) else s.askMigration key c va access 0
    else (s.holdXlat tok x, .hit x)

/-- Miss service (R225): walked at once on the device, where every table entry can be read; otherwise a walk or a MISS
record is started and the access waits. -/
def State.miss (s : State) (tok key c va access : Nat) : State × X1 :=
  let s := { s with xlt := { s.xlt with dieMisses := s.xlt.dieMisses + 1 } }
  if s.assisted 0 then
    if s.assistPending c va then (s, .wait)
    else match s.postXlt { ctx := c, va := va, kind := 1, access := access, gen := s.xltGen c, key := key } with
      | some s => (s, .wait)
      | none => (s, .fault XL_ASSIST_FAIL)
  else match s.walk key c va [] with
    | .need =>
      if s.xlt.walks.any (fun w => w.ctx == c && w.va / 4096 == va / 4096) then (s, .wait)
      else ({ s with xlt := { s.xlt with walks := s.xlt.walks ++
        [{ ctx := c, va := va, access := access, key := key, gen := s.xltGen c }] } }, .wait)
    | .fault r last e level _ _ =>
      let s := { s with xlt := { s.xlt with walkCount := s.xlt.walkCount + 1 } }
      if last && asksMigration e level && s.migMode c va != 0 then s.askMigration key c va access e else (s, .fault r)
    | .ok x _ _ _ =>
      let s := { s with xlt := { s.xlt with walkCount := s.xlt.walkCount + 1 } }
      (s.tlbInstall (homeDie c) x).useXlat tok key c va access x

/-- Translate one address of a descriptor (R224, R231, R238), but for what earlier waits have left. -/
def State.translateNow (s : State) (tok : Nat) (d : Desc) (va access : Nat) : State × X1 :=
  let c := s.srcCtx d.src
  let key := dKeySlot d.bits
  if s.xlt.migrations.any (fun m => m.ctx == c && decide (m.va ≤ va) && decide (va < m.va + m.size)) then (s, .wait)
  else match s.tlbFind (homeDie c) c va with
    | some x => s.useXlat tok key c va access x
    | none => s.miss tok key c va access

/-- A wait for a translation is over, or has begun. -/
def State.noteWait (s : State) (tok c va : Nat) (waits : Bool) : State :=
  let w := (tok, c, va / 4096)
  if waits then (if s.xlt.waiting.contains w then s else { s with xlt := { s.xlt with waiting := w :: s.xlt.waiting } })
  else { s with xlt := { s.xlt with waiting := s.xlt.waiting.filter (fun x => x != w) } }

/-- Translate one address of a descriptor: a translation it holds, the failure of a wait, or a translation now. -/
def State.translate1 (s : State) (tok : Nat) (d : Desc) (va access : Nat) : State × X1 :=
  let c := s.srcCtx d.src
  if !xcValid (s.context c) then (s, .fault XL_CTX)
  else match s.heldXlat tok c va with
    | some x => (match x.denies access with | some r => (s, .fault r) | none => (s, .hit x))
    | none =>
      match s.xlt.failed.find? (fun f => f.1 == tok && f.2.1 == c && f.2.2.1 == va / 4096) with
      | some f => ({ s with xlt := { s.xlt with failed := s.xlt.failed.erase f } }, .fault f.2.2.2)
      | none =>
        match s.translateNow tok d va access with
        | (s, .wait) => (s.noteWait tok c va true, .wait)
        | (s, x) => (s.noteWait tok c va false, x)

/-- Every access that waits for a page of [va, va + len) in context `c` faults. -/
def State.failWaits (s : State) (c va len reason : Nat) : State :=
  let hit := fun (w : Nat × Nat × Nat) => w.2.1 == c && decide (va / 4096 ≤ w.2.2) && decide (w.2.2 < (va + len + 4095) / 4096)
  let l := s.xlt.waiting.filter hit
  { s with xlt := { s.xlt with waiting := s.xlt.waiting.filter (fun w => !hit w)
                               failed := s.xlt.failed ++ l.map (fun w => (w.1, w.2.1, w.2.2, reason)) } }

/-! ## Ranges -/

/-- A piece of an operand: DPA or host physical address, and length. -/
structure Seg where
  host : Bool
  addr : Nat
  len : Nat
  deriving DecidableEq, Repr

inductive Ranged where
  | ok (l : List Seg)
  | wait
  | fault (reason va : Nat)
  deriving DecidableEq, Repr

/-- Put a piece after others, joining it to the last where they meet. -/
def pushSeg (l : List Seg) (p : Seg) : List Seg :=
  match l.getLast? with
  | some q => if q.host = p.host ∧ q.addr + q.len = p.addr then l.dropLast ++ [{ q with len := q.len + p.len }] else l ++ [p]
  | none => [p]

/-- Translate [va, va + len): the pieces in order, up to the first page that waits or faults. -/
def State.translateRange (tok : Nat) (d : Desc) (access : Nat) : Nat → Nat → Nat → List Seg → State → State × Ranged
  | 0, _, len, acc, s => if len = 0 then (s, .ok acc) else (s, .wait)
  | fuel + 1, va, len, acc, s =>
    if len = 0 then (s, .ok acc)
    else match s.translate1 tok d va access with
      | (s, .wait) => (s, .wait)
      | (s, .fault r) => (s, .fault r va)
      | (s, .hit x) =>
        let n := min len (x.va + x.size * x.run - va)
        State.translateRange tok d access fuel (va + n) (len - n) (pushSeg acc ⟨x.host, x.output va, n⟩) s

def pagesIn (va len : Nat) : Nat := if len = 0 then 0 else (va + len - 1) / 4096 - va / 4096 + 1

def State.xlateRange (s : State) (tok : Nat) (d : Desc) (va len access : Nat) : State × Ranged :=
  State.translateRange tok d access (pagesIn va len) va len [] s

/-- What a translation fault leaves: XLT_LAST_FAULT, and the completion with the VA in bytes 24 to 31 (R232). -/
def State.xlFault (s : State) (c reason va : Nat) : State × Cpl :=
  ({ s with xlt := { s.xlt with lastFault := (va, c, reason, s.tick.now % 2 ^ 32) } },
   { status := xlStatus reason, reason := reason, result := va })

/-! ## What a descriptor's operation needs of memory -/

/-- A range an operation reads or writes: a VA range, or DPAs as they stand. -/
structure Need where
  va : Nat
  len : Nat
  /-- 1 read, 2 write, 3 both, 6 atomic -/
  access : Nat
  dpa : Bool := false
  deriving DecidableEq, Repr

/-- How the needs of an operation stand: its pieces, one list for each need; or it waits; or it ends. -/
inductive Acquired where
  | ready (s : State) (segs : List (List Seg))
  | wait (s : State)
  | stop (s : State) (c : Cpl)

/-- Translate every need, in order; the first that faults or waits decides. -/
def State.xlateNeeds (s : State) (tok : Nat) (d : Desc) : List Need → List (List Seg) → Acquired
  | [], acc => .ready s acc.reverse
  | n :: t, acc =>
    if n.dpa then s.xlateNeeds tok d t ([⟨false, n.va, n.len⟩] :: acc)
    else match s.xlateRange tok d n.va n.len n.access with
      | (s, .ok l) => s.xlateNeeds tok d t (l :: acc)
      | (s, .wait) => .wait s
      | (s, .fault r va) => let (s, c) := s.xlFault (s.srcCtx d.src) r va; .stop s c

/-- The device ranges of translated needs: address, length, write. -/
def deviceRanges (needs : List Need) (segs : List (List Seg)) : List (Nat × Nat × Bool) :=
  ((List.zip needs segs).map (fun e =>
    (e.2.filter (fun p => !p.host)).map (fun p => (p.addr, p.len, e.1.access.testBit 1)))).flatten

/-- Everything an operation's accesses ask for before it can run: translation (R233), the coherent domain (R196), recalls
and busy lines (R190, R191). -/
def State.acquire (s : State) (tok : Nat) (d : Desc) (needs : List Need) : Acquired :=
  match s.xlateNeeds tok d needs [] with
  | .wait s => .wait s
  | .stop s c => .stop s c
  | .ready s segs =>
    let rs := deviceRanges needs segs
    if rs.any (fun r => s.domainBars r.1 r.2.1) then .stop s (cpl ST_DOMAIN_DOWN DOMAIN_DOWN)
    else match s.engineReady tok rs with
      | (s, true) => .ready s segs
      | (s, false) => .wait s

/-- Run a descriptor's operation over memory. `check` is what may end it before any access; `needs` the ranges it
accesses; `k` the operation once they are ready, given the pieces of each need. While they are not, the descriptor has not
begun, and the row is taken again. -/
def State.runMem (s : State) (tok op : Nat) (check : Desc → State → Option Cpl) (needs : Desc → State → List Need)
    (k : Desc → List (List Seg) → State → State × Option Cpl) : State :=
  match s.desc tok with
  | none => s
  | some d =>
    if dOpcode d.bits = op ∧ s.mayBegin tok d = true then
      match check d s with
      | some c => s.runDesc tok op (fun _ s => (s, some c))
      | none =>
        match s.acquire tok d (needs d s) with
        | .wait s => s
        | .stop s c => s.runDesc tok op (fun _ s => (s, some c))
        | .ready s segs => s.runDesc tok op (fun d s => k d segs s)
    else s

/-! ## Reading and writing the pieces of an operand -/

/-- R577: the descriptor's key slot and epoch are still served. -/
def State.descServed (s : State) (d : Desc) : Bool := s.keyServes (dKeySlot d.bits) (dKeyEpoch d.bits)

/-- R577: an access under a slot or epoch that is not served: counted. -/
def State.staleAccess (s : State) : State :=
  ({ s with sec := { s.sec with staleCount := s.sec.staleCount + 1 } }).setEvt F.SEC_EVT_STALE_DROP

/-- The bytes of pieces read for a descriptor; those in host memory are taken from `ext`, the bytes the host's answers
bring, in order. The flag says that a line read poisoned. -/
def State.readSegs (d : Desc) : List Seg → List Byte → State → State × List Byte × Bool × List Byte
  | [], ext, s => (s, [], false, ext)
  | p :: t, ext, s =>
    if p.host then
      let got := (ext.take p.len) ++ List.replicate (p.len - ext.length) 0
      let (s, rest, poison, ext) := State.readSegs d t (ext.drop p.len) s
      (s, got ++ rest, poison, ext)
    else if !s.descServed d then
      let (s, rest, _, ext) := State.readSegs d t ext s.staleAccess
      (s, s.poisonBytes p.addr p.len ++ rest, true, ext)
    else
      let (bytes, m) := s.homeRead (dKeySlot d.bits) p.addr p.len
      let (s, rest, poison, ext) := State.readSegs d t ext (s.touch (dKeySlot d.bits) p.addr p.len false)
      (s, bytes ++ rest, poison || m != 0, ext)

/-- Host ports to which a source has posted writes since its last SYSTEM fence (R117). -/
def State.notePosted (s : State) (src : Src) (port : Nat) : State :=
  { s with rings := { s.rings with posted := s.rings.posted.updD 0 src.code (fun m => m ||| 2 ^ port) } }

/-- Write bytes over pieces for a descriptor, crediting `credit` for those in device memory. -/
def State.writeSegs (tok : Nat) (d : Desc) (credit : Option Nat) : List Seg → List Byte → State → State
  | [], _, s => s
  | p :: t, bytes, s =>
    let b := bytes.take p.len
    let s :=
      if p.host then
        let port := xcPort (s.context (s.srcCtx d.src))
        (s.emit (.hostWrite port p.addr b)).notePosted d.src port
      else if !s.descServed d then s.staleAccess
      else s.creditWrite (.desc tok) (dKeySlot d.bits) p.addr b credit
    State.writeSegs tok d credit t (bytes.drop p.len) s

/-- The counter a descriptor's writes credit. -/
def descCredit (d : Desc) : Option Nat := if dCredit d.bits then some (dCounter d.bits) else none

/-- R114: a write of the descriptor to its own device may name only a counter its slice holds. -/
def State.creditBarred (s : State) (d : Desc) : Bool :=
  dCredit d.bits && !s.holdsCounter (dSlice d.bits) (dCounter d.bits)

end Sys2Proof.Machine
end

