-- ==== Sys2Proof/Machine/Inbound.lean ====
section
/-! DEFINITION. Packets received: link frames, transit, multicast, write sequences, held stores, service at the homes,
responses (chapters 4 and 5; group packets of chapter 20). -/

namespace Sys2Proof.Machine

def FLAG_TIMEOUT : Nat := 0x0404
def FLAG_FULL : Nat := 0x0407
def STALE_PLACEMENT : Nat := 0x0408
def ORD_POISON : Nat := 0x0409
def SEQ_STALE : Nat := 0x0507
def SEQ_WINDOW : Nat := 0x0508
def SUBQ_FULL : Nat := 0x0509
def SUBQ_SOURCE : Nat := 0x050A
def ACC_ALIGN : Nat := 0x050B
def PKT_FORMAT : Nat := 0x050C
def MC_GROUP : Nat := 0x050D

/-! ## Packet format (R145, R163, R165, R168) -/

/-- Bytes of one operand, by ACC_ADD operation (Table 5-9). -/
def accOperand (op : Nat) : Option Nat :=
  if op = 0x10 then some 4 else if op = 0x11 then some 8 else if op = 0x12 then some 80 else none

/-- N of an ACC_ADD or ACC_READ. -/
def accCells (p : Packet) : Nat := p.operand % 256

/-- The segment is one of those that the transaction is cut into at 4 KiB boundaries of its address. -/
def segmentOk (p : Packet) : Bool :=
  decide (1 ≤ p.length) && decide (p.length ≤ 65536) && decide (p.segOff < p.length)
    && (p.segOff == 0 || (p.addr + p.segOff) % 4096 == 0)
    && p.segLen == min (p.length - p.segOff) (4096 - (p.addr + p.segOff) % 4096) && p.data.length == p.segLen

def atomicOk (p : Packet) : Bool :=
  (p.length == 2 || p.length == 4 || p.length == 8) && p.addr % p.length == 0 && decide (1 ≤ p.op) && decide (p.op ≤ 9)
    && (p.op != 8 || p.length == 4) && (p.op != 9 || p.length == 2)

/-- The reason with which a malformed request is refused. -/
def formatFails (p : Packet) : Option Nat :=
  let t := p.type
  if t = T_LOAD then (if (p.length = 64 ∨ p.length = 256) ∧ p.addr % p.length = 0 then none else some PKT_FORMAT)
  else if t = T_STORE then
    (if (p.length = 64 ∨ p.length = 256) ∧ p.addr % p.length = 0 ∧ p.data.length = p.length ∧ p.segLen = p.length then none
     else some PKT_FORMAT)
  else if t = T_FLAGGED_STORE then
    (if (p.length = 8 ∨ p.length = 64) ∧ p.addr % p.length = 0 ∧ p.data.length = p.length ∧ p.segLen = p.length then none
     else some PKT_FORMAT)
  else if t = T_BULK_GET then (if 1 ≤ p.length ∧ p.length ≤ 65536 then none else some PKT_FORMAT)
  else if t = T_BULK_PUT ∨ t = T_MC_PUT then (if segmentOk p then none else some PKT_FORMAT)
  else if t = T_ATOMIC then (if atomicOk p then none else some PKT_FORMAT)
  else if t = T_ACC_ADD ∨ t = T_ACC_READ then
    let opOk := if t = T_ACC_ADD then (match accOperand p.op with
        | some k => p.data.length == k * accCells p && p.segLen == p.data.length | none => false)
      else p.op == 0x18 || p.op == 0x19
    if !opOk || accCells p == 0 || decide (48 < accCells p) then some PKT_FORMAT
    else if p.addr % 16 ≠ 0 ∨ p.addr / 4096 ≠ (p.addr + 80 * accCells p - 1) / 4096 then some ACC_ALIGN
    else none
  else if t = T_SUBMIT then (if p.data.length = 64 then none else some PKT_FORMAT)
  else if t = T_OWN then (if 1 ≤ p.op ∧ p.op ≤ 3 then none else some PKT_FORMAT)
  else some PKT_FORMAT

/-- The range of the transaction that the window and ownership checks see: offset from ADDR is 0. -/
def checkLen (p : Packet) : Nat :=
  if p.type = T_ACC_ADD ∨ p.type = T_ACC_READ then 80 * accCells p else if p.type = T_OWN then 1 else p.length

/-- The part of the transaction that this packet carries: offset and length. -/
def servedPart (p : Packet) : Nat × Nat :=
  if p.type = T_BULK_PUT ∨ p.type = T_MC_PUT then (p.segOff, p.segLen) else (0, checkLen p)

/-- A read, an MC_PUT or a write that changes memory: does this packet type write? -/
def writesMemory (type : Nat) : Bool := !(type == T_LOAD || type == T_BULK_GET || type == T_ACC_READ)

/-! ## Write sequences (R160) -/

/-- MARK moves over the settled SEQs. -/
def SeqTrack.advance (t : SeqTrack) : Nat → SeqTrack
  | 0 => t
  | n + 1 =>
    if t.settled.contains t.mark then
      SeqTrack.advance { t with mark := (t.mark + 1) % 2 ^ 24, settled := t.settled.filter (fun x => x != t.mark) } n
    else t

/-- A write-class packet has settled (R106). -/
def State.settle (s : State) (p : Packet) : State :=
  if isWriteClass p.type then
    match s.ord.track.find p.src with
    | none => s
    | some t =>
      if t.gen = p.wsnGen then
        let t := SeqTrack.advance { t with settled := p.wsnSeq :: t.settled } 1025
        { s with ord := { s.ord with track := s.ord.track.put p.src t } }
      else s
  else s

/-- The packet ends: it is answered, and settles. -/
def State.endPacket (s : State) (p : Packet) (status reason : Nat) (old : Nat := 0) (poison : Nat := 0)
    (data : List Byte := []) : State :=
  (s.answer p (answerType p.type) status reason old poison data).settle p

/-- A packet with this source and SEQ is held or waits. -/
def State.seqHeld (s : State) (p : Packet) : Bool :=
  let same := fun (q : Packet) => isWriteClass q.type && q.src == p.src && q.wsnGen == p.wsnGen && q.wsnSeq == p.wsnSeq
  s.ord.held.any (fun h => same h.pkt)
    || s.dir.waiters.any (fun w => match w with | .fabric q _ _ => same q | _ => false)
    || s.pg.held.any (fun h => match h.origin with | .packet q => same q | _ => false)
    || s.pg.holds.any (fun _ h => h.deltas.any (fun d => same d.2))

/-- R160: why an incoming write-class packet is discarded. -/
def State.seqCheck (s : State) (p : Packet) : Option Nat :=
  match s.ord.track.find p.src with
  | none => some SEQ_STALE
  | some t =>
    let d := (p.wsnSeq + 2 ^ 24 - t.mark % 2 ^ 24) % 2 ^ 24
    if t.gen ≠ p.wsnGen ∨ 2 ^ 23 ≤ d then some SEQ_STALE
    else if 1024 ≤ d then some SEQ_WINDOW
    else if t.settled.contains p.wsnSeq || s.seqHeld p then some SEQ_STALE
    else none

/-- A discarded write-class packet: answered, not settled. -/
def State.discardSeq (s : State) (p : Packet) (reason : Nat) : State :=
  let s := if reason = SEQ_STALE then { s with fab := { s.fab with seqStale := s.fab.seqStale + 1 } } else s
  s.answer p (answerType p.type) ST_ABORTED reason

/-- R129, R130: a packet with an announced epoch brings the advance; the packet is then of the accepted epoch or stale. -/
def State.epochCheck (s : State) (p : Packet) : State × Bool :=
  if p.src < 0xC000 then (s, true)
  else
    let dev := p.src - 0xC000
    let e := s.epochOf dev
    let s := if e.pendingTick.isSome ∧ e.announced = p.epoch ∧ e.accepted ≠ p.epoch then s.advanceEpoch dev p.epoch else s
    (s, (s.epochOf dev).accepted == p.epoch)

def State.stalePlacement (s : State) (p : Packet) : State :=
  let s := { s with ord := { s.ord with staleCount := s.ord.staleCount + 1 } }
  (s.setEvt F.FAB_ORD_EVT_STALE).endPacket p ST_ABORTED STALE_PLACEMENT

/-! ## Group roles (Table 20-6) -/

/-- This device is the spare of a swap of the extent. -/
def State.swapTarget (s : State) (e : BitVec 256) : Bool :=
  pgSwapValid e && pgMember e (pgPos e) != s.fld F.FAB_DEVID_DEVID

/-- The position of a source among the members of the entry; 15 for the other device of a swap. -/
def pgPeer (e : BitVec 256) (src : Nat) : Option Nat :=
  if src < 0xC000 then none
  else
    let dev := src - 0xC000
    let n := if pgMode e = 1 then 2 else if pgMode e = 2 then 10 else 0
    match (List.range n).find? (fun i => pgMember e i == dev) with
    | some i => some i
    | none => if pgSwapValid e ∧ pgSwapDev e = dev then some 15 else none

def isParity (e : BitVec 256) : Bool := pgMode e == 2 && (pgPos e == 8 || pgPos e == 9)

/-- The line's block is not built yet (R612). -/
def notBuilt (e : BitVec 256) (d : Nat) : Bool :=
  pgState e == PG_BUILDING && decide (pgCursor e ≤ d % extentSize / 4096)

/-- The stripe hold that covers a line. -/
def State.holdOn (s : State) (line : Nat) : Option (Nat × StripeHold) :=
  s.pg.holds.find? (fun e => decide (e.1 ≤ line) && decide (line < e.1 + e.2.len / 64))

/-- R606: one update from the member at position `pos` is applied at its line. -/
def State.applyUpdate (s : State) (e : BitVec 256) (pos key d : Nat) (p : Packet) : State :=
  let o : HoldOrigin := .packet p
  let line := lineOf d
  if isParity e && !s.swapTarget e then
    if s.isPoisoned line then s
    else if p.byteMask = 0 then s.markPoison o line
    else
      let delta := if pgPos e = 9 then scaleBytes (gfExp pos) p.data else p.data
      s.homeWrite o key d (xorBytes (s.homeBytes key d 64) delta)
  else if p.byteMask = 0 then s.markPoison o line
  else s.homeWrite o key d p.data

/-- The answer to a write at a home: at once, or when the held lines of the packet are applied (R606). -/
def State.endWrite (s : State) (p : Packet) (old : Nat := 0) : State :=
  if s.pg.held.any (fun h => h.origin == .packet p) then s
  else
    let s := if p.type = T_ACC_ADD ∧ p.credit = true then s.creditCounter p.counter (creditBytes p) else s
    s.endPacket p ST_OK 0 old

/-- The waiting deltas of a released or lapsed hold are applied, and the next holder is granted (R609). -/
def State.freeHold (s : State) (line : Nat) : State :=
  match s.pg.holds.find line with
  | none => s
  | some h =>
    let s := { s with pg := { s.pg with holds := s.pg.holds.del line } }
    let s := h.deltas.foldl (fun s d =>
      let e := s.window (faWindow d.2.addr)
      let a := winBase e + faOffset d.2.addr
      (s.applyUpdate (s.pgAt a) d.1 (winKey e) a d.2).endWrite d.2) s
    match h.queue with
    | [] => s
    | q :: t =>
      let e := s.window (faWindow q.addr)
      let a := winBase e + faOffset q.addr
      let s := { s with pg := { s.pg with holds := s.pg.holds.put line { holder := q.src, len := q.length, queue := t } } }
      let (bytes, mask) := s.homeRead (winKey e) a q.length
      s.endPacket q ST_OK 0 0 mask bytes

/-- A packet from a member to a line of a redundancy role or of a swap target. None: it is served as any other. -/
def State.redundancyPacket (s : State) (e : BitVec 256) (pos key d : Nat) (p : Packet) : Option State :=
  let line := lineOf d
  if p.type = T_STORE ∧ p.length = 64 ∧ (p.byteMask = 0 ∨ p.byteMask = 2 ^ 64 - 1) then
    if notBuilt e d then some (s.endPacket p ST_OK 0)
    else match s.holdOn line with
      | some (l, h) =>
        if h.holder = p.src then some ((s.applyUpdate e pos key d p).endWrite p)
        else some { s with pg := { s.pg with holds := s.pg.holds.put l { h with deltas := h.deltas ++ [(pos, p)] } } }
      | none => some ((s.applyUpdate e pos key d p).endWrite p)
  else if p.type = T_FLAGGED_STORE ∧ p.length = 8 ∧ isParity e then
    match s.pg.holds.find line with
    | some h =>
      if h.holder = p.src then some ((s.freeHold line).endPacket p ST_OK 0)
      else some (s.endPacket p ST_ABORTED PG_HOLD_LAPSED)
    | none => some (s.endPacket p ST_ABORTED PG_HOLD_LAPSED)
  else if p.type = T_LOAD then
    if notBuilt e d || (linesOf d p.length).any s.lineGone then some (s.endPacket p ST_ABORTED PG_NOT_BUILT)
    else if isParity e then
      match s.holdOn line with
      | some (l, h) =>
        if h.holder = p.src then
          let (bytes, mask) := s.homeRead key d p.length
          some (s.endPacket p ST_OK 0 0 mask bytes)
        else some { s with pg := { s.pg with holds := s.pg.holds.put l { h with queue := h.queue ++ [p] } } }
      | none =>
        let s := { s with pg := { s.pg with holds := s.pg.holds.put line { holder := p.src, len := p.length } } }
        let (bytes, mask) := s.homeRead key d p.length
        some (s.endPacket p ST_OK 0 0 mask bytes)
    else none
  else none

/-- R608: a group read of a line that is held elsewhere in its data role. None: it waits for a recall. -/
def State.groupRead (s : State) (w : Waiter) (key d : Nat) (p : Packet) : State × Bool :=
  if (linesOf d p.length).any s.lineLost then (s.endPacket p ST_ABORTED PG_NOT_BUILT, true)
  else
    let held := s.pg.held
    let (s, ok) := ({ s with pg := { s.pg with held := [] } }).askAll w [(d, p.length, false)]
    let s := { s with pg := { s.pg with held := held } }
    if ok then
      let s := s.leaveLines [(d, p.length, false)]
      let (bytes, mask) := s.homeRead key d p.length
      (s.endPacket p ST_OK 0 0 mask bytes, true)
    else (s, false)

/-! ## Atomics and accumulators (R99, R163 to R165) -/

/-- Table 5-8: the value an atomic stores. -/
def atomicValue (op len old operand compare : Nat) : Nat :=
  let m := 2 ^ (8 * len)
  let x := operand % m
  let a := twos (8 * len) old
  let b := twos (8 * len) x
  if op = 1 then (old + x) % m
  else if op = 2 then x
  else if op = 3 then (if old = compare % m then x else old)
  else if op = 4 then (if b < a then x else old)
  else if op = 5 then (if a < b then x else old)
  else if op = 6 then min old x
  else if op = 7 then max old x
  else if op = 8 then toF32 ((f32 old).add (f32 x))
  else fmtBf16.encode ((fmtBf16.decode old).add (fmtBf16.decode x))

/-- One operand added to a cell (Table 5-9). -/
def accApply (op : Nat) (a : Accum) (operand : List Byte) : Accum :=
  if op = 0x10 then a.add (f32 (leNat operand))
  else if op = 0x11 then a.add ((f32 (leNat (operand.take 4))).mul (f32 (leNat (operand.drop 4))))
  else a.addImage (Accum.ofBytes operand)

/-- The cells of an ACC_ADD after it. -/
def accResult (p : Packet) (cells : List Byte) : List Byte :=
  let k := (accOperand p.op).getD 0
  ((List.range (accCells p)).map (fun i =>
    (accApply p.op (Accum.ofBytes ((cells.drop (80 * i)).take 80)) ((p.data.drop (k * i)).take k)).bytes)).flatten

/-- What an ACC_READ returns, and the POISON mask of its payload: a payload line is marked when a cell of it lies in a
poisoned line. -/
def State.accRead (s : State) (key d : Nat) (p : Packet) : List Byte × Nat :=
  let n := accCells p
  let cells := s.homeBytes key d (80 * n)
  let size := if p.op = 0x18 then 4 else 80
  let bytes := ((List.range n).map (fun i =>
    let c := (cells.drop (80 * i)).take 80
    if p.op = 0x18 then leBytes 4 (Accum.ofBytes c).read else c)).flatten
  let bad := (List.range n).filter (fun i => s.homePoison (d + 80 * i) 80 != 0)
  (bytes, maskOf ((List.range (ceilDiv (size * n) 64)).filter (fun l =>
    bad.any (fun i => decide (size * i < 64 * l + 64) && decide (64 * l < size * i + size)))))

/-! ## Service at the homes -/

/-- Segments of a bulk read: offset and length, cut at 4 KiB boundaries of the address. -/
def segments (addr : Nat) : Nat → Nat → Nat → List (Nat × Nat)
  | 0, _, _ => []
  | n + 1, off, len =>
    if len = 0 then []
    else
      let k := min len (4096 - (addr + off) % 4096)
      (off, k) :: segments addr n (off + k) (len - k)

/-- The write enables of a packet's payload. -/
def packetMask (p : Packet) : List Bool :=
  if p.type = T_STORE ∧ p.length = 64 then (List.range 64).map (fun i => p.byteMask.testBit i) else []

/-- Every access is ready: apply the request and answer it. -/
def State.applyInbound (s : State) (p : Packet) (key d : Nat) : State :=
  let (off, n) := servedPart p
  let a := d + off
  let o : HoldOrigin := .packet p
  let credit := if p.credit then some p.counter else none
  if p.type = T_LOAD then
    let (bytes, mask) := s.homeRead key a n
    (s.touch key a n false).endPacket p ST_OK 0 0 mask bytes
  else if p.type = T_BULK_GET then
    (segments p.addr 17 0 p.length).foldl (fun s g =>
      let (bytes, mask) := s.homeRead key (d + g.1) g.2
      (s.touch key (d + g.1) g.2 false).answer { p with segOff := g.1, segLen := g.2 } T_BULK_DATA ST_OK 0 0 mask bytes) s
  else if p.type = T_ACC_READ then
    let (bytes, mask) := s.accRead key a p
    (s.touch key a n false).endPacket p ST_OK 0 0 mask bytes
  else if p.type = T_ATOMIC then
    if s.readsPoison (lineOf a) then s.endPacket p ST_POISONED ORD_POISON
    else
      let old := leNat (s.homeBytes key a n)
      let new := leBytes n (atomicValue p.op n old p.operand p.compare)
      let s := s.creditWrite o key a new credit
      let s := { s with pg := { s.pg with held := s.pg.held.map (fun (h : HeldWrite) =>
        if h.origin == o then { h with old := old } else h) } }
      s.endWrite p old
  else if p.type = T_ACC_ADD then
    let bad := (linesOf a n).filter s.isPoisoned
    let s := s.homeWrite o key a (accResult p (s.homeBytes key a n))
    (bad.foldl State.poisonLine s).endWrite p
  else
    let held := (blocksOf a n).any (fun b => s.holdsWrites (4096 * b))
    let s := s.homeWrite o key a p.data (packetMask p) credit
    let s := match credit with
      | some c => if held then s else s.creditLines c a n
      | none => s
    s.endWrite p

/-- R577: an inbound request whose key is no longer served. -/
def State.keyGone (s : State) (p : Packet) : State :=
  s.staleAccess.endPacket p ST_KEY_RETIRED 0x0305 0 (if writesMemory p.type then 0 else 2 ^ 64 - 1)

/-- Serve a request that has passed its checks under window entry `e`, looked up when its slot had this epoch; or say that
it must wait. -/
def State.serveInbound (s : State) (p : Packet) (e : BitVec 128) (epoch : Nat) : State × Bool :=
  let key := winKey e
  let d := winBase e + faOffset p.addr
  let (off, n) := servedPart p
  let w : Waiter := .fabric p e epoch
  let g := s.pgAt (d + off)
  let peer := pgPeer g p.src
  let redundant := redundancyRole g || s.swapTarget g
  if !s.keyServes key epoch then (s.keyGone p, true)
  else if s.domainBars (d + off) n then (s.endPacket p ST_DOMAIN_DOWN DOMAIN_DOWN, true)
  else
    let special := match peer with
      | some pos => if redundant then s.redundancyPacket g pos key (d + off) p else none
      | none => if redundant && writesMemory p.type then some (s.endPacket p ST_PERMISSION PG_NOT_MEMBER) else none
    match special with
    | some s => (s, true)
    | none =>
      if peer.isSome && p.type == T_LOAD && pgMode g != 0 then s.groupRead w key (d + off) p
      else match s.askAll w [(d + off, n, writesMemory p.type)] with
        | (s, false) => (s, false)
        | (s, true) => ((s.leaveLines [(d + off, n, writesMemory p.type)]).applyInbound p key d, true)

/-- The checks of a request that goes through the window table: status and reason of the first that fails. -/
def State.inboundFails (s : State) (p : Packet) (e : BitVec 128) (src : Nat) : Option (Nat × Nat) :=
  match formatFails p with
  | some r => some (ST_PERMISSION, r)
  | none =>
    match s.windowCheck e src p.type (faOffset p.addr) (checkLen p) p.credit with
    | some x => some x
    | none =>
      if !writesMemory p.type then none
      else match s.ownCheck src (winBase e + faOffset p.addr) (checkLen p) with
        | some r => if p.type = T_OWN then none else some (ST_OWNERSHIP, r)
        | none => if p.credit && !s.holdsCounter (winSlice e) p.counter then some (ST_PERMISSION, CTR_SLICE) else none

/-- A request refused: what the window and ownership checks count. -/
def State.refuseInbound (s : State) (p : Packet) (status reason : Nat) : State :=
  let s := if 0x0301 ≤ reason ∧ reason ≤ 0x0305 then s.countWinRefusal p.addr p.src reason else s
  let s := if status = ST_OWNERSHIP then
      (s.cong (faWindow p.addr) (fun c => { c with refused := c.refused + 1 })).setEvt F.FAB_EVT_OWN_REFUSED else s
  s.endPacket p status reason

/-- A request reaches its window: checked, then served, or parked until it can be. -/
def State.lookupInbound (s : State) (p : Packet) : State :=
  let e := s.window (faWindow p.addr)
  let s := s.counted p
  match s.inboundFails p e p.src with
  | some (st, r) => s.refuseInbound p st r
  | none =>
    let epoch := (s.slot (winKey e)).epoch
    match s.serveInbound p e epoch with
    | (s, true) => s
    | (s, false) =>
      let d := winBase e + faOffset p.addr + (servedPart p).1
      s.park (.fabric p e epoch) (s.anyHold (linesOf d (servedPart p).2))

/-! ## SUBMIT and OWN (R168, R170) -/

/-- R170: a submission whose earlier writes have settled. -/
def State.acceptSubmit (s : State) (p : Packet) : State :=
  let n := p.addr % 256
  let q := s.subq n
  let d : DescBits := BitVec.ofNat 512 (leNat p.data)
  if q.state ≠ .active ∨ p.src &&& sqSrcMask q.record ≠ sqSrcMatch q.record &&& sqSrcMask q.record then
    s.endPacket p ST_PERMISSION SUBQ_SOURCE
  else if dOpcode d = 0 ∧ d.getLsbD 128 = true then (s.subqRelease n (dfield d 18 2)).endPacket p ST_OK 0
  else if 2 ^ sqLog q.record ≤ q.queue.length then s.endPacket p ST_ABORTED SUBQ_FULL
  else (s.setSubq n { q with queue := q.queue ++ [d] }).endPacket p ST_OK 0

/-- R168: an OWN packet acts on the granule that holds ADDR. -/
def State.applyOwn (s : State) (p : Packet) (e : BitVec 128) : State :=
  let g := (winBase e + faOffset p.addr) / granuleSize
  let (owner, mode) := s.granule g
  let mine := mode == 1 && owner == p.src
  let set := fun (x : Nat × Nat) => ({ s with fab := { s.fab with own := s.fab.own.put g x } }).endPacket p ST_OK 0
  if p.op = 1 ∧ (mode = 0 ∨ mine = true) then set (p.src, 1)
  else if p.op = 2 ∧ mine = true then set (p.newOwner, 1)
  else if p.op = 3 ∧ mine = true then set (0, 0)
  else s.endPacket p ST_OWNERSHIP OWN_STATE

/-- A held packet whose earlier writes have settled. -/
def State.releaseOne (s : State) (h : Held) : State :=
  if h.pkt.type = T_SUBMIT then s.acceptSubmit h.pkt
  else match h.entry with
    | some e => s.applyOwn h.pkt e
    | none => s.lookupInbound h.pkt

/-- The packet is the lowest unsettled one of its source. -/
def State.turnOf (s : State) (p : Packet) : Bool :=
  match s.ord.track.find p.src with
  | some t => t.gen == p.wsnGen && t.mark == p.wsnSeq
  | none => false

/-- Held packets whose turn has come, one after another. -/
def State.releaseHeld : Nat → State → State
  | 0, s => s
  | n + 1, s =>
    match s.ord.held.find? (fun h => s.turnOf h.pkt) with
    | none => s
    | some h => State.releaseHeld n (({ s with ord := { s.ord with held := s.ord.held.erase h } }).releaseOne h)

/-- A flagged packet that has passed the sequence and epoch checks: it acts, or is held (R106, R109). -/
def State.holdOrRun (s : State) (h : Held) : State :=
  if s.turnOf h.pkt then s.releaseOne h
  else if 4096 ≤ s.ord.held.length then s.endPacket h.pkt ST_ABORTED FLAG_FULL
  else { s with ord := { s.ord with held := s.ord.held ++ [h] } }

/-! ## Held writes and waiting requests -/

/-- One held write whose updates are all answered (R606, R610). -/
def State.settleWrite (s : State) (h : HeldWrite) : State :=
  let s := { s with pg := { s.pg with held := s.pg.held.erase h } }
  let lost := h.poison && !h.data.isEmpty
  let s := if h.poison then s.poisonLine h.line
    else
      let s := s.applyEntry h.entry h.key (64 * h.line) h.data []
      match h.credit with | some (n, k) => s.creditCounter n k | none => s
  match h.origin with
  | .none => s
  | .host port => s.hostCmp port h.line
  | .desc tok => if lost then s.originEnd (.desc tok) ST_POISONED PG_DATA_LOST else s.originEnd (.desc tok) ST_OK 0
  | .packet p => if lost then s.endPacket p ST_POISONED PG_DATA_LOST else s.endWrite p h.old

def State.settleWrites (s : State) : State :=
  (s.pg.held.filter (fun h => h.awaiting.isEmpty)).foldl State.settleWrite s

/-- One waiting request is tried again. -/
def State.serveWaiter (s : State) (w : Waiter) : State :=
  let gone : State := { s with dir := { s.dir with waiters := s.dir.waiters.erase w
                                                   current := s.dir.current.filter (fun c => c.1 != w) } }
  match w with
  | .host port line key req => match s.hostServe w port line key req with
    | (_, true) => (gone.hostServe w port line key req).1
    | (s, false) => s
  | .fabric p e epoch => match s.serveInbound p e epoch with
    | (_, true) => (gone.serveInbound p e epoch).1
    | (s, false) => s
  | .engine tok line write =>
    match s.desc tok with
    | some _ => (s.askLine w line write).1
    | none => gone
  | .revoke line =>
    match s.dir.entries.find line with
    | none => if s.dir.recalls.has line then s else gone
    | some e => if s.dir.recalls.has line || e.hold || s.dir.domain != .up then s else s.openRecall line .inv e.hosts

def State.serveWaiters (s : State) : State := s.dir.waiters.foldl State.serveWaiter s

/-- R269: data of a late fetch that has now arrived is discarded, and counted. -/
def State.dropLate (s : State) : State :=
  s.tier.lateLines.foldl (fun (s : State) l =>
    if s.pg.recon.has l || s.pg.reconPoison.contains l then
      { s with pg := { s.pg with recon := s.pg.recon.del l, reconPoison := s.pg.reconPoison.erase l }
               tier := { s.tier with lateLines := s.tier.lateLines.erase l, lateDiscards := s.tier.lateDiscards + 1 } }
    else s) s

/-- What follows an event at the homes: failed members, reconstructions, held writes, waiting requests, held stores. -/
def State.pump (s : State) : State :=
  let s := ((s.memberFailures.advanceGathers).dropLate.settleWrites).serveWaiters
  State.releaseHeld (s.ord.held.length + 1) s

/-! ## SEQ_SYNC (R161) -/

def State.recvSync (s : State) (p : Packet) : State :=
  let track := s.ord.track.put p.src { gen := p.newGen % 256, mark := 0 }
  let s := { s with ord := { s.ord with track := track } }
  let old := s.ord.held.filter (fun h => h.pkt.src == p.src && h.pkt.wsnGen != p.newGen % 256)
  let s := { s with ord := { s.ord with held := s.ord.held.filter (fun h => !(old.contains h)) } }
  (old.foldl (fun s h => s.discardSeq h.pkt SEQ_STALE) s).endPacket p ST_OK 0

/-! ## Requests addressed to the device -/

/-- A write-class request: sequence, placement epoch, then its kind. -/
def State.recvWrite (s : State) (p : Packet) : State :=
  match s.seqCheck p with
  | some r => s.discardSeq p r
  | none =>
    match s.epochCheck p with
    | (s, false) => s.stalePlacement p
    | (s, true) =>
      if p.type = T_SUBMIT ∨ p.type = T_FLAGGED_STORE then
        match formatFails p with
        | some r => s.endPacket p ST_PERMISSION r
        | none => s.holdOrRun { pkt := p, entry := none }
      else if p.type = T_OWN then
        let e := s.window (faWindow p.addr)
        let s := s.counted p
        match s.inboundFails p e p.src with
        | some (st, r) => s.refuseInbound p st r
        | none => s.holdOrRun { pkt := p, entry := some e }
      else s.lookupInbound p

def State.recvRequest (s : State) (p : Packet) : State :=
  if p.type = T_SEQ_SYNC then s.recvSync p
  else if isWriteClass p.type then s.recvWrite p
  else s.lookupInbound p

/-! ## Fabric addresses of a descriptor (R74, R114) -/

/-- The address lies on this device. -/
def State.isSelf (s : State) (addr : Nat) : Bool := s.fab.devidSet && faDevice addr == s.fld F.FAB_DEVID_DEVID

/-- A request of a descriptor to its own device is refused: its completion says so, as for any refused request. -/
def State.selfRefused (s : State) (tok status reason : Nat) : State := (s.await tok).originEnd (.desc tok) status reason

/-- Write bytes of a descriptor to a fabric address of this device. -/
def State.putOwn (s : State) (tok : Nat) (b : DescBits) (addr : Nat) (bytes : List Byte) : State :=
  match s.storeOwn tok b T_BULK_PUT addr bytes with
  | (s, st, r) => if st = ST_OK then s else s.selfRefused tok st r

/-! ## Responses (R157 to R159) -/

/-- A response whose data belongs to a reconstruction, to memory, to a host or to a fabric address. -/
def State.deliverData (s : State) (r : Request) (p : Packet) : State :=
  match r.origin, r.into with
  | .gather line pos, _ => s.gatherData line pos p.data (p.poison != 0)
  | .desc tok, some into =>
    match s.desc tok with
    | none => s
    | some e =>
      -- what read poison completes ST_POISONED; a KV move ends before its commit (R469)
      let s := if p.poison != 0 then s.failOp tok (cpl ST_POISONED 0) else s
      let bad := maskBits p.poison 64
      match into with
      | .mem key d =>
        let a := d + p.segOff
        let s := s.creditWrite (.desc tok) key a p.data (if dOpcode e.bits = 0x58 then none else descCredit e)
        (bad.map (fun i => lineOf (a + 64 * i))).foldl (fun s l => s.markPoison .none l) s
      | .host port a => (s.emit (.hostWrite port (a + p.segOff) p.data)).notePosted e.src port
      | .fab addr key =>
        -- a piece of a copy between two fabric addresses goes on as one BULK_PUT
        let a := addr + p.segOff
        if s.isSelf a then
          match s.storeOwn tok e.bits T_BULK_PUT a p.data with
          | (s, st, r) =>
            if st ≠ ST_OK then s.selfRefused tok st r
            else (bad.map (fun i => lineOf (winBase (s.window (faWindow a)) + faOffset a + 64 * i))).foldl
              (fun s l => s.markPoison .none l) s
        else
          (segments a 18 0 p.data.length).foldl (fun s g => s.originateFor tok
            { type := T_BULK_PUT, dest := 0xC000 + faDevice a, addr := a, length := p.data.length, segOff := g.1,
              segLen := g.2, data := (p.data.drop g.1).take g.2, key := key, credit := dCredit e.bits
              counter := dCounter e.bits
              poison := maskOf ((bad.filter (fun i => decide (g.1 ≤ 64 * i) && decide (64 * i < g.1 + g.2))).map
                (fun i => i - g.1 / 64)) }) s
  | _, some (.mem key d) => s.homeWrite .none key (d + p.segOff) p.data
  | _, some _ => s
  | _, none => s

/-- A response: matched by tag and generation; the first refusal decides; the last response ends the request. -/
def State.recvResponse (s : State) (p : Packet) : State :=
  match s.fab.outstanding.find p.tag with
  | some r =>
    if r.gen ≠ p.gen then { s with fab := { s.fab with unmatched := s.fab.unmatched + 1 } }
    else
      let s := if p.status = ST_OK then s.deliverData r p else s
      let (st, reason) := if r.status = ST_OK then (p.status, p.reason) else (r.status, r.reason)
      if r.expect ≤ 1 then s.endRequest p.tag st reason
      else
        let out := s.fab.outstanding.put p.tag { r with expect := r.expect - 1, status := st, reason := reason }
        { s with fab := { s.fab with outstanding := out } }
  | none => { s with fab := { s.fab with unmatched := s.fab.unmatched + 1 } }

/-! ## Transit and multicast (R146, R151 to R153) -/

/-- R151, R152: a packet that is for another device. -/
def State.transit (s : State) (p : Packet) : State :=
  if p.hops = 0 then s.countDrop (fun d => { d with hopLimit := d.hopLimit + 1 })
  else
    let q := { p with hops := p.hops - 1 }
    if s.hasRoute p.dest then
      if p.esc then s.sendBy (rtEsc (s.route p.dest)) true q else s.sendPacket q
    else if !isResponse p.type && s.hasRoute p.src then
      (s.answer p (answerType p.type) ST_ABORTED NO_ROUTE).setEvt F.FAB_EVT_NO_ROUTE
    else s.countDrop (fun d => { d with noRoute := d.noRoute + 1 })

def mcChild (m : BitVec 64) : Nat := bitsOf m 0 32
def mcLocal (m : BitVec 64) : Bool := m.getLsbD 32
def mcMembers (m : BitVec 64) : Nat := bitsOf m 40 15
def mcValid (m : BitVec 64) : Bool := m.getLsbD 63

def State.mcast (s : State) (g : Nat) : BitVec 64 := s.fab.mcast.get 0 (g % 4096)

/-- Copy a multicast packet to its child ports, when every one of them holds credit for it; else it waits. -/
def State.forwardMc (s : State) (p : Packet) : State :=
  let ports := maskBits (mcChild (s.mcast p.dest)) 32
  if ports.all (fun n => s.canSend n true p) then ports.foldl (fun s n => s.transmit n true p) s
  else { s with fab := { s.fab with mcWait := s.fab.mcWait ++ [p] } }

/-- R153: a multicast put at a device of its group. -/
def State.recvMcast (s : State) (p : Packet) : State :=
  let m := s.mcast p.dest
  if !mcValid m then s.countDrop (fun d => { d with noRoute := d.noRoute + 1 })
  else
    let s := if mcChild m = 0 then s
      else if p.hops = 0 then s.countDrop (fun d => { d with hopLimit := d.hopLimit + 1 })
      else s.forwardMc { p with hops := p.hops - 1, esc := true }
    if !mcLocal m then s
    else if !p.crcOk then s.countDrop (fun d => { d with e2eCrc := d.e2eCrc + 1 })
    else if !s.fab.joined then s.answer p T_ACK ST_ABORTED NOT_JOINED
    else s.lookupInbound p

/-! ## A packet received on a port -/

/-- R175, R176: the answer of a device that has not joined or is leaving. -/
def State.notJoined (s : State) (p : Packet) : State :=
  if s.hasRoute p.src then s.answer p (answerType p.type) ST_ABORTED NOT_JOINED else s

def State.recvPacket (s : State) (port : Nat) (p : Packet) : State :=
  let mine := s.fab.devidSet && p.dest == s.ownId && !p.mc
  if p.type = T_TICK then s.recvTick port p
  else if p.type = T_NEIGHBOUR then s.recvNeighbour port p
  else if !s.fab.joined && !s.fab.leaving then
    if mine && !isResponse p.type then s.notJoined p else s
  else if p.type = T_MC_PUT then s.recvMcast p
  else if !mine then s.transit p
  else if !p.crcOk then s.countDrop (fun d => { d with e2eCrc := d.e2eCrc + 1 })
  else if (match p.vc with | some v => v == 7 || v != vcOf p.type | none => false) then
    s.countDrop (fun d => { d with badType := d.badType + 1 })
  else if isResponse p.type then s.recvResponse p
  else if !s.fab.joined then s.notJoined p
  else s.recvRequest p

/-- A packet received, and what follows from it. -/
def State.recv (s : State) (port : Nat) (p : Packet) : State := (s.recvPacket port p).pump

/-! ## Link frames (R138) -/

/-- Packets that waited for credit are tried again. -/
def State.retryParked (s : State) : State :=
  let ps := s.fab.parked
  let ms := s.fab.mcWait
  let s := { s with fab := { s.fab with parked := [], mcWait := [] } }
  ms.foldl State.forwardMc (ps.foldl State.sendPacket s)

/-- Frames up to `ack` are acknowledged. -/
def Port.ackTo (q : Port) (ack : Nat) : Port :=
  match q.retry with
  | [] => q
  | (first, _) :: _ =>
    let n := (ack + 4096 - first) % 4096 + 1
    if n ≤ q.retry.length then { q with retry := q.retry.drop n, resends := 0 } else q

/-- R138: NAK: resend from the first frame not acknowledged; at the eighth resend of it the port retrains. -/
def State.resend (s : State) (n : Nat) : State :=
  let q := s.port n
  if q.retry.isEmpty then s
  else
    let s := s.setPort n { q with resends := q.resends + 1, retries := q.retries + q.retry.length }
    let s := q.retry.foldl (fun s f => f.2.foldl (fun s p => s.emit (.packet (some n) p)) s) s
    if 8 ≤ q.resends + 1 then
      ((s.setPort n { s.port n with resends := 0 }).movePort n .retrain).portEvt n 4
    else s

/-- A frame received on port `n`. -/
def State.recvFrame (s : State) (n : Nat) (f : Frame) : State :=
  let q := s.port n
  if !(q.up || q.state == .init) then s
  else
    let q := { q with corrected := q.corrected + f.corrected, uncorrected := q.uncorrected + boolNat (!f.fecOk) }
    let behind := (q.rxNext + 4096 - f.seq % 4096) % 4096
    if !f.fecOk || !f.crcOk then s.setPort n { q with nakSent := true }
    else if f.seq % 4096 ≠ q.rxNext then
      if behind ≤ 2048 then s.setPort n q else s.setPort n { q with nakSent := true }
    else
      let q := { q with rxNext := (q.rxNext + 1) % 4096, nakSent := false
                        credits := (List.range 16).map (fun i => q.credits.getD i 0 + f.credits.getD i 0) }
      let s := s.setPort n (if f.ackValid then q.ackTo (f.ack % 4096) else q)
      let s := if f.ackValid && f.nak then s.resend n else s
      let s := f.pkts.foldl (fun s p => s.recv n p) s
      (s.drainPort n).retryParked

/-- The packet is received if it is of the row's kind. -/
def State.recvIf (s : State) (c : Bool) (port : Nat) (p : Packet) : State := if c then s.recv port p else s


end Sys2Proof.Machine
end

