-- ==== Sys2Proof/Machine/Engine.lean ====
section
/-! DEFINITION. What the engines share: operations in tiles (R233), writes and reads by fabric address, charges (R53), and
the copy engine (R516, R517). -/

namespace Sys2Proof.Machine

/-! ## Charges (R53, R555) -/

def round64 (n : Nat) : Nat := ceilDiv n 64 * 64

/-- Units of 64 B of packets that carry `len` bytes in pieces of at most 4 KiB, from address `a` on. -/
def fabUnits (a len : Nat) : Nat := ((segments a (len / 4096 + 2) 0 len).map (fun g => ceilDiv g.2 64 + 1)).foldl (· + ·) 0

/-- The port group of a slice that serves a destination: the first whose DEST match admits its source ID. -/
def State.fabGroup (s : State) (slice dest : Nat) : Option Nat :=
  (List.range 4).find? (fun g =>
    slicePorts (s.slice slice) g != 0
      && (dest &&& sliceDestMask (s.slice slice) g) == (sliceDestMatch (s.slice slice) g &&& sliceDestMask (s.slice slice) g))

/-- A charge of fabric units towards the device of a fabric address; none for the device itself. -/
def State.fabCost (s : State) (slice addr units : Nat) : Cost :=
  if faDevice addr = s.fld F.FAB_DEVID_DEVID ∧ s.fab.devidSet = true then {}
  else match (s.fabGroup slice (0xC000 + faDevice addr)).getD 0 with
    | 0 => { fab0 := units }
    | 1 => { fab1 := units }
    | 2 => { fab2 := units }
    | _ => { fab3 := units }

/-! ## Operations in tiles (R233) -/

/-- Translate tiles in order, up to the first that faults. None: one waits. -/
def State.xlateTiles (s : State) (tok : Nat) (d : Desc) : List (List Need) → List (List (List Seg)) →
    State × Option (List (List (List Seg)) × Option Cpl)
  | [], acc => (s, some (acc.reverse, none))
  | t :: rest, acc =>
    match s.xlateNeeds tok d t [] with
    | .wait s => (s, none)
    | .stop s c => (s, some (acc.reverse, some c))
    | .ready s segs =>
      if (deviceRanges t segs).any (fun r => s.domainBars r.1 r.2.1) then
        (s, some (acc.reverse, some (cpl ST_DOMAIN_DOWN DOMAIN_DOWN)))
      else s.xlateTiles tok d rest (segs :: acc)

/-- Run a descriptor's operation tile by tile: `k` is given the pieces of the tiles before the first that faults, and that
fault. While an access is not ready the descriptor has not begun (assumption 12). -/
def State.runTiles (s : State) (tok op : Nat) (check : Desc → State → Option Cpl) (tiles : Desc → State → List (List Need))
    (k : Desc → List (List (List Seg)) → Option Cpl → State → State × Option Cpl) : State :=
  match s.desc tok with
  | none => s
  | some d =>
    if dOpcode d.bits = op ∧ s.mayBegin tok d = true then
      match check d s with
      | some c => s.runDesc tok op (fun _ s => (s, some c))
      | none =>
        let ts := tiles d s
        match s.xlateTiles tok d ts [] with
        | (s, none) => s
        | (s, some (done, stop)) =>
          let rs := (List.zip ts done).flatMap (fun e => deviceRanges e.1 e.2)
          match s.engineReady tok rs with
          | (s, true) => s.runDesc tok op (fun d s => k d done stop s)
          | (s, false) => s
    else s

/-! ## Fabric addresses of a descriptor (R74, R114) -/

/-- Write bytes to a fabric address for a descriptor: to its own device through its own window table, or by BULK_PUT. -/
def State.fabPut (s : State) (tok : Nat) (d : Desc) (addr : Nat) (bytes : List Byte) : State :=
  if bytes.isEmpty then s
  else if s.isSelf addr then s.putOwn tok d.bits addr bytes
  else
    (segments addr (bytes.length / 4096 + 2) 0 bytes.length).foldl (fun s g =>
      s.originateFor tok
        { type := T_BULK_PUT, dest := 0xC000 + faDevice addr, addr := addr + g.1 / 65536 * 65536
          length := min 65536 (bytes.length - g.1 / 65536 * 65536), segOff := g.1 % 65536, segLen := g.2
          data := (bytes.drop g.1).take g.2, credit := dCredit d.bits, counter := dCounter d.bits
          key := s.keyField (dKeySlot d.bits) }) s

/-- Mark the lines of pieces poisoned. -/
def State.poisonPieces (s : State) (l : List (Nat × Nat)) : State :=
  (l.flatMap (fun p => linesOf p.1 p.2)).foldl (fun (s : State) x => s.markPoison .none x) s

/-- Write bytes to a fabric address, every line of them poisoned. -/
def State.fabPutPoisoned (s : State) (tok : Nat) (d : Desc) (addr : Nat) (bytes : List Byte) : State :=
  if bytes.isEmpty then s
  else if s.isSelf addr then
    match s.storeOwn tok d.bits T_BULK_PUT addr bytes with
    | (s, st, r) =>
      if st ≠ ST_OK then s.selfRefused tok st r
      else s.poisonPieces [(winBase (s.window (faWindow addr)) + faOffset addr, bytes.length)]
  else
    (segments addr (bytes.length / 4096 + 2) 0 bytes.length).foldl (fun (s : State) g =>
      s.originateFor tok
        { type := T_BULK_PUT, dest := 0xC000 + faDevice addr, addr := addr + g.1 / 65536 * 65536
          length := min 65536 (bytes.length - g.1 / 65536 * 65536), segOff := g.1 % 65536, segLen := g.2
          data := (bytes.drop g.1).take g.2, credit := dCredit d.bits, counter := dCounter d.bits
          poison := 2 ^ 64 - 1, key := s.keyField (dKeySlot d.bits) }) s

/-- Write bytes to a fabric address; the lines named by `bad`, counted from the start, are written poisoned. -/
def State.fabPutLines (s : State) (tok : Nat) (d : Desc) (addr : Nat) (bytes : List Byte) (bad : Nat → Bool) : State :=
  let lines := List.range (ceilDiv bytes.length 64)
  if lines.all (fun i => !bad i) then s.fabPut tok d addr bytes
  else lines.foldl (fun (s : State) i =>
    let b := (bytes.drop (64 * i)).take 64
    if bad i then s.fabPutPoisoned tok d (addr + 64 * i) b else s.fabPut tok d (addr + 64 * i) b) s

/-- A read of this device's own memory by fabric address (R74): the bytes and POISON mask, or the refusal. -/
def State.loadSelf (s : State) (addr len : Nat) : State × Option (List Byte × Nat) × Nat × Nat :=
  let e := s.window (faWindow addr)
  match s.windowCheck e s.ownId T_BULK_GET (faOffset addr) len false with
  | some (st, r) => (s.countWinRefusal addr s.ownId r, none, st, r)
  | none =>
    let d := winBase e + faOffset addr
    (s.touch (winKey e) d len false, some (s.homeRead (winKey e) d len), ST_OK, 0)

/-! ## COPY and FILL -/



def cpSrc (d : DescBits) : Nat := dfield d 16 8
def cpDst (d : DescBits) : Nat := dfield d 24 8
def cpLen (d : DescBits) : Nat := dfield d 32 8
def cpSrcFab (d : DescBits) : Bool := d.getLsbD 320
def cpDstFab (d : DescBits) : Bool := d.getLsbD 321
def cpPattern (d : DescBits) : List Byte := leBytes 8 (dfield d 48 8)

/-- Operand errors of COPY and FILL, found on arrival. -/
def copyCheck (fill : Bool) (d : Desc) (_ : State) : Option Cpl :=
  let b := d.bits
  if cpLen b = 0 ∨ 2 ^ 40 < cpLen b ∨ (fill = true ∧ (cpLen b % 8 ≠ 0 ∨ cpDst b % 8 ≠ 0)) then
    some (cpl ST_REFUSED_FIT COPY_OPERAND)
  else none

/-- The pieces of a copy: offset and length; none crosses a 4 KiB boundary of its source or its destination. -/
def pieces (a b : Nat) : Nat → Nat → Nat → List (Nat × Nat)
  | 0, _, _ => []
  | n + 1, off, len =>
    if len = 0 then []
    else
      let k := min len (min (4096 - (a + off) % 4096) (4096 - (b + off) % 4096))
      (off, k) :: pieces a b n (off + k) (len - k)

def copyPieces (fill : Bool) (b : DescBits) : List (Nat × Nat) :=
  pieces (if fill then cpDst b else cpSrc b) (cpDst b) (2 * (cpLen b / 4096) + 4) 0 (cpLen b)

/-- The ranges of one piece. -/
def copyNeeds (fill : Bool) (b : DescBits) (p : Nat × Nat) : List Need :=
  (if fill || cpSrcFab b then [] else [⟨cpSrc b + p.1, p.2, 1, false⟩])
    ++ (if cpDstFab b then [] else [⟨cpDst b + p.1, p.2, 2, false⟩])

/-- R53: STK for every piece read or written by VA, FAB for the packets sent. -/
def copyCost (fill : Bool) (d : Desc) (s : State) : Cost :=
  let b := d.bits
  let ps := copyPieces fill b
  let stk := (ps.map (fun p => round64 p.2)).foldl (· + ·) 0
  let n := dSlice b
  let base : Cost := { stk := stk * (boolNat (!fill && !cpSrcFab b) + boolNat (!cpDstFab b)) }
  let base := if !fill && cpSrcFab b then base.add (s.fabCost n (cpSrc b) ps.length) else base
  if cpDstFab b then base.add (s.fabCost n (cpDst b) ((ps.map (fun p => ceilDiv p.2 64 + 1)).foldl (· + ·) 0)) else base

/-- The bytes that lie in both operands of a copy by VA: their contents after it are undefined (R516). -/
def copyOverlap (b : DescBits) : Bool :=
  cpSrcFab b == cpDstFab b && decide (cpSrc b < cpDst b + cpLen b) && decide (cpDst b < cpSrc b + cpLen b)
    && cpSrc b != cpDst b

/-- Free bytes. -/
def State.drawBytes : Nat → State → List Byte × State
  | 0, s => ([], s)
  | n + 1, s =>
    let (x, s) := s.draw
    let (l, s) := State.drawBytes n s
    (BitVec.ofNat 8 x :: l, s)

/-- Where the bytes at [a, a + n) overlap [lo, hi), free values stand for them. -/
def State.blur (s : State) (a lo hi : Nat) (bytes : List Byte) : List Byte × State :=
  let (free, s) := s.drawBytes bytes.length
  ((List.range bytes.length).map (fun i =>
    if lo ≤ a + i ∧ a + i < hi then free.getD i 0 else bytes.getD i 0), s)

/-- Byte `i` of a read at `a` whose POISON mask was `m` came from a poisoned line. -/
def badAt (x : Nat × Nat) (i : Nat) : Bool := x.2.testBit (lineOf (x.1 + i) - lineOf x.1)

/-- Mark poisoned the lines of a written range whose sources were: line by line of the destination. -/
def State.poisonCopy (s : State) (d len : Nat) (bad : Nat × Nat) : State :=
  ((List.range len).foldl (fun (l : List Nat) i =>
    if badAt bad i && !(l.contains (lineOf (d + i))) then lineOf (d + i) :: l else l) []).foldl (fun s l => s.markPoison .none l) s

/-- Move one piece; the flag says that poison was read. -/
def State.copyPiece (s : State) (tok : Nat) (d : Desc) (fill : Bool) (ext : List Byte) (p : Nat × Nat)
    (segs : List (List Seg)) : State × Bool × List Byte :=
  let b := d.bits
  let (off, n) := p
  let srcSegs := if fill || cpSrcFab b then [] else segs.headD []
  let dstSegs := if cpDstFab b then [] else segs.getLastD []
  -- the source
  if !fill && cpSrcFab b && !s.isSelf (cpSrc b + off) then
    let into : Into := match dstSegs with
      | ⟨true, a, _⟩ :: _ => .host (xcPort (s.context (s.srcCtx d.src))) a
      | ⟨false, a, _⟩ :: _ => .mem (dKeySlot b) a
      | [] => .fab (cpDst b + off) (s.keyField (dKeySlot b))
    (s.originateFor tok
      { type := T_BULK_GET, dest := 0xC000 + faDevice (cpSrc b + off), addr := cpSrc b + off, length := n
        key := s.keyField (dKeySlot b) } 1 (some into), false, ext)
  else
    let (s, bytes, bad, ext, ok) : State × List Byte × (Nat × Nat) × List Byte × Bool :=
      if fill then (s, ((List.range n).map (fun i => (cpPattern b).getD ((off + i) % 8) 0)), (0, 0), ext, true)
      else if cpSrcFab b then
        match s.loadSelf (cpSrc b + off) n with
        | (s, some (l, m), _, _) =>
          let a := winBase (s.window (faWindow (cpSrc b + off))) + faOffset (cpSrc b + off)
          (s, l, (a, m), ext, true)
        | (s, none, st, r) => (s.selfRefused tok st r, [], (0, 0), ext, false)
      else
        let a := (srcSegs.headD ⟨true, 0, 0⟩).addr
        let dev := !(srcSegs.headD ⟨true, 0, 0⟩).host
        let m := if dev && s.descServed d then s.homePoison a n else if dev then 2 ^ 65 - 1 else 0
        match State.readSegs d srcSegs ext s with
        | (s, l, _, ext) => (s, l, (a, m), ext, true)
    if !ok then (s, false, ext)
    else
      let (bytes, s) := if !fill && copyOverlap b then
          s.blur (cpDst b + off) (max (cpSrc b) (cpDst b)) (min (cpSrc b) (cpDst b) + cpLen b) bytes else (bytes, s)
      let poisoned := (List.range n).any (badAt bad)
      let s := if cpDstFab b then s.fabPutLines tok d (cpDst b + off) bytes (fun i =>
            (List.range (min 64 (n - 64 * i))).any (fun j => badAt bad (64 * i + j)))
        else
          let s := State.writeSegs tok d (descCredit d) dstSegs bytes s
          match dstSegs with
          | ⟨false, a, _⟩ :: _ => if poisoned then s.poisonCopy a n bad else s
          | _ => s
      (s, poisoned, ext)

/-- One more piece: the state, whether poison was read so far, and what is left of the host's bytes. -/
def State.copyStep (tok : Nat) (d : Desc) (fill : Bool) (a : State × Bool × List Byte) (e : (Nat × Nat) × List (List Seg)) :
    State × Bool × List Byte :=
  match a.1.copyPiece tok d fill a.2.2 e.1 e.2 with
  | (s, p, ext) => (s, a.2.1 || p, ext)

/-- The whole copy: pieces moved, pieces not moved, bytes written. -/
def State.copyRun (s : State) (tok : Nat) (d : Desc) (fill : Bool) (ext : List Byte) (done : List (List (List Seg)))
    (stop : Option Cpl) : State × Option Cpl :=
  let ps := copyPieces fill d.bits
  let (s, poisoned, _) := (List.zip ps done).foldl (State.copyStep tok d fill) (s, false, ext)
  let bytes := ((ps.take done.length).map Prod.snd).foldl (· + ·) 0
  let c : Cpl := match stop with
    | some c => c
    | none => if poisoned then cpl ST_POISONED 0 else {}
  (s, some { c with done := done.length, dropped := ps.length - done.length
                    result := if stop.isSome then c.result else bytes })

/-- R114: the writes of a COPY or FILL by VA may credit only a counter of the descriptor's slice. The copy engine of a lost
engine die runs nothing (R32). -/
def copyRefused (fill : Bool) (d : Desc) (s : State) : Option Cpl :=
  if s.units.lostDies.contains (homeDie (s.srcCtx d.src)) then
    some { status := ST_INTERNAL, dropped := (copyPieces fill d.bits).length }
  else if !cpDstFab d.bits && s.creditBarred d then
    some { status := ST_PERMISSION, reason := CTR_SLICE, dropped := (copyPieces fill d.bits).length }
  else none

/-- COPY. -/
def execCopy (tok : Nat) (ext : List Byte) (s : State) : Host.Outcome State Fault Refusal :=
  .next (s.runTiles tok 0x10 (copyRefused false) (fun d _ => (copyPieces false d.bits).map (copyNeeds false d.bits))
    (fun d done stop s => s.copyRun tok d false ext done stop))

/-- FILL. -/
def execFill (tok : Nat) (ext : List Byte) (s : State) : Host.Outcome State Fault Refusal :=
  .next (s.runTiles tok 0x11 (copyRefused true) (fun d _ => (copyPieces true d.bits).map (copyNeeds true d.bits))
    (fun d done stop s => s.copyRun tok d true ext done stop))

end Sys2Proof.Machine
end

