-- ==== Sys2Proof/Machine/XlatRows.lean ====
section
/-! DEFINITION. The rows of translation: context commits, misses and walks, migrations, invalidations and the descriptors
of chapter 7. -/

namespace Sys2Proof.Machine

/-! ## Context commits (R217) -/

/-- R217: the first check that a context's shadow record fails. -/
def State.ctxFails (s : State) (r : BitVec 256) (ms : List (BitVec 128)) : Option Nat :=
  let live := ms.filter mrValid
  let pool := xcPoolExt r * extentSize
  let size := xcPoolGib r * extentSize
  if (xcS2 r && decide (dramEnd < xcS2Root r + 4096)) || xcS1Root r % 4096 != 0 || xcS2Root r % 4096 != 0 then some CTX_ROOT
  else if size ≠ 0 ∧ s.holdsRange (xcSlice r) pool size = false then some CTX_POOL
  else if !xcPortValid r && (xcRootHost r || xcMig r != 0 || live.any (fun m => mrMode m != 0)) then some CTX_PORT
  else if xcMig r = 3 ∨ live.any (fun m => mrMode m == 3) = true ∨ 128 < xcPoolGib r then some CTX_FIELD
  else none

def effCtxCommit : RegEffect := fun v s =>
  if !bitOf v 0 then (s, none)
  else
    let c := s.fld F.XLT_CTX_SEL_CTX
    let r := s.xlt.shadow.get 0 c
    let ms := (List.range 8).map (fun i => s.xlt.mshadow.get 0 (8 * c + i))
    match s.ctxFails r ms with
    | some reason =>
      ((s.setWord Reg.XLT_CTX_ERR (BitVec.ofNat 32 (reason + at_ 16 c))).setEvt F.XLT_EVT_CTX_REFUSED, some REG_STATE)
    | none => ({ s with xlt := { s.xlt with pending := s.xlt.pending.put c (r, ms) } }, none)

def execXltCtxCommit (path : Nat) (value : Word) (cycle : Nat) (s : State) : Host.Outcome State Fault Refusal :=
  .next (s.guardPair path Reg.XLT_CTX_COMMIT value cycle (fun _ => true) effCtxCommit)

/-- Accepted commits take effect: the record and its ranges, and every TLB entry of the context goes. -/
def State.applyContexts (s : State) : State :=
  s.xlt.pending.foldl (fun s e =>
    let (c, r, ms) := e
    let s := { s with xlt := { s.xlt with
      committed := s.xlt.committed.put c r
      mranges := (List.range 8).foldl (fun t i => t.put (8 * c + i) (ms.getD i 0)) s.xlt.mranges
      pending := s.xlt.pending.del c } }
    (s.tlbDrop (fun x => x.ctx == c) (fun c' _ => c' == c)).setEvt F.XLT_EVT_CTX_APPLIED) s

/-! ## Misses and walks (R225 to R229) -/

/-- TLB_MISS: an access of a descriptor, in pre-translation or of one of its tiles, looks a VA up. A fault of a candidate
in pre-translation is kept for the next round close (R232). -/
def State.missRow (s : State) (tok va access : Nat) : State :=
  match s.desc tok with
  | none => s
  | some d =>
    if d.finished then s
    else match s.translate1 tok d va access with
      | (s, .fault r) =>
        if d.phase = .waiting then
          { s with xlt := { s.xlt with preFault := s.xlt.preFault.put tok (xlStatus r, r, va) } }
        else
          let f := (tok, s.srcCtx d.src, va / 4096, r)
          { s with xlt := { s.xlt with failed := s.xlt.failed ++ [f] } }
      | (s, _) => s

def execTlbMiss (tok va access : Nat) (s : State) : Host.Outcome State Fault Refusal := .next (s.missRow tok va access)

/-- What a finished walk leaves: a translation in the die TLB, a migration asked for, or a fault. -/
def State.walkEnd (s : State) (w : Walk) (r : Walked) : State :=
  match r with
  | .need => s
  | .ok x _ _ _ => s.tlbInstall (homeDie w.ctx) x
  | .fault reason last e level _ _ =>
    if last && asksMigration e level && s.migMode w.ctx w.va != 0 then
      match s.askMigration w.key w.ctx w.va w.access e with
      | (s, .fault r) => s.failWaits w.ctx w.va 1 r
      | (s, _) => s
    else s.failWaits w.ctx w.va 1 reason

/-- WALK_DONE: the walk of a VA ends; `host` are the entries read across the host port, in order. A walk that an
invalidation has overtaken starts again. -/
def execWalkDone (ctx va : Nat) (host : List Nat) (s : State) : Host.Outcome State Fault Refusal :=
  .next (match s.xlt.walks.find? (fun w => w.ctx == ctx && w.va / 4096 == va / 4096) with
    | none => s
    | some w =>
      if w.gen ≠ s.xltGen ctx then
        { s with xlt := { s.xlt with walks := s.xlt.walks.map (fun x => if x = w then { w with gen := s.xltGen ctx } else x) } }
      else match s.walk w.key ctx w.va host with
        | .need => s
        | r => ({ s with xlt := { s.xlt with walks := s.xlt.walks.erase w
                                             walkCount := s.xlt.walkCount + 1 } }).walkEnd w r)

def execMissTimeout (req : Nat) (s : State) : Host.Outcome State Fault Refusal :=
  .next (match s.xlt.assist.find req with
    | some a =>
      if a.kind = 1 then
        (({ s with xlt := { s.xlt with assist := s.xlt.assist.del req } }).failWaits a.ctx a.va 1 XL_MISS_TIMEOUT).setEvt
          F.XLT_EVT_MISS_TIMEOUT
      else s
    | none => s)

/-! ## Migration (R234 to R240) -/

def poolBase (r : BitVec 256) : Nat := xcPoolExt r * extentSize

/-- Where the return record of a pool page lies (R236). -/
def returnRecord (r : BitVec 256) (page : Nat) : Nat := poolBase r + (page - poolBase r) / 4096 * 8

/-- The lowest free page of a size in the context's pool, behind its return records. -/
def State.freePage (s : State) (c size : Nat) : Option Nat :=
  let r := s.context c
  if xcPoolGib r = 0 then none
  else
    let first := poolBase r + xcPoolGib r * 2 ^ 21
    let n := (poolBase r + xcPoolGib r * extentSize - first) / size
    (firstFree (fun i => !(s.xlt.poolUsed.any (fun a z => decide (first + i * size < a + z) && decide (a < first + i * size + size))))
      n).map (fun i => first + i * size)

/-- The value of a leaf now: in device memory, or as the host port's read gave it. -/
def State.leafNow (s : State) (key : Nat) (host : Bool) (a given : Nat) : Nat :=
  if host then given else leNat (s.homeBytes key a 8)

/-- Write a leaf. -/
def State.writeLeaf (s : State) (c key : Nat) (host : Bool) (a v : Nat) : State :=
  if host then s.emit (.hostWrite (xcPort (s.context c)) a (leBytes 8 v))
  else s.homeWrite .none key a (leBytes 8 v)

/-- The entry with VALID clear; with another TYPE, ADDR, MIG. -/
def leafClear (e : Nat) : Nat := e - e % 2
def leafMoved (e type addr : Nat) : Nat :=
  2 ^ 62 * type + e / 2 ^ 52 % 16 * 2 ^ 52 + addr / 4096 % 2 ^ 40 * 4096 + e / 8 % 4 * 8 + 3

def State.migFailed (s : State) (c va len reason : Nat) : State :=
  (s.failWaits c va len reason).setEvt F.XLT_EVT_MIG_FAILED

/-- Steps 1 to 3 of Table 7-7 for the page of `va`, whose last-stage leaf is `e` at address `a`. -/
def State.startMigration (s : State) (c va key e level : Nat) (lh : Bool) (a given : Nat) : State :=
  let size := levelSize level
  let page := va / size * size
  match s.freePage c size with
  | none => s.migFailed c page size XL_POOL
  | some pool =>
    if s.leafNow key lh a given ≠ e then s
    else
      let s := s.writeLeaf c key lh a (leafClear e)
      let m : Migration := { ctx := c, va := page, size := size, leafHost := lh, leafAddr := a, leaf := e, pool := pool, key := key }
      let s := { s with xlt := { s.xlt with migrations := s.xlt.migrations ++ [m]
                                            poolUsed := s.xlt.poolUsed.put pool size } }
      s.tlbDrop (fun x => x.ctx == c && decide (x.va < page + size) && decide (page < x.va + x.size * x.run))
        (fun c' v => c' == c && decide (page ≤ v) && decide (v < page + size))

/-- MIGRATION_START: a migration asked for begins; `host` are the table entries in host memory that the walk reads, `leaf`
the value the compare-swap finds in a leaf in host memory. At most 256 run at once; others wait. -/
def execMigrationStart (ctx va : Nat) (host : List Nat) (leaf : Nat) (s : State) : Host.Outcome State Fault Refusal :=
  .next (match s.xlt.migWanted.find? (fun m => m.1 == ctx && m.2.1 / 4096 == va / 4096) with
    | none => s
    | some m =>
      if 256 ≤ s.xlt.migrations.length then s
      else
        let key := m.2.2.2
        let s' := { s with xlt := { s.xlt with migWanted := s.xlt.migWanted.erase m } }
        match s.walk key ctx m.2.1 host with
        | .need => s
        | .fault reason last e level lh a =>
          if last && asksMigration e level then s'.startMigration ctx m.2.1 key e level lh a leaf
          else s'.failWaits ctx m.2.1 1 reason
        | .ok x e lh a =>
          -- the page has come to the device, or may no longer move: the access translates again
          if x.host && x.mig then
            s'.startMigration ctx m.2.1 key e (if x.size = 4096 then 3 else 2) lh a leaf
          else s')

/-- Steps 4 to 6 of Table 7-7; `now` is the leaf's value that the compare-swap finds. -/
def State.endMigration (s : State) (m : Migration) (data : List Byte) (now : Nat) : State :=
  let s := { s with xlt := { s.xlt with migrations := s.xlt.migrations.erase m } }
  let bytes := data.take m.size ++ List.replicate (m.size - data.length) 0
  let s := s.homeWrite .none m.key m.pool bytes
  let s := s.homeWrite .none m.key (returnRecord (s.context m.ctx) m.pool) (leBytes 8 (teAddr m.leaf))
  if s.leafNow m.key m.leafHost m.leafAddr now ≠ leafClear m.leaf then
    { s with xlt := { s.xlt with poolUsed := s.xlt.poolUsed.del m.pool } }
  else
    let s := s.writeLeaf m.ctx m.key m.leafHost m.leafAddr (leafMoved m.leaf 0 m.pool)
    { s with xlt := { s.xlt with migCount := s.xlt.migCount + 1 } }

/-- Some descriptor other than `tok` holds a translation that meets `p`. -/
def State.heldBy (s : State) (tok : Option Nat) (p : Xlat → Bool) : Bool :=
  s.xlt.held.any (fun h => some h.1 != tok && p h.2)

/-- MIGRATION_COPY_DONE: the page's bytes have come from host memory, and no descriptor holds its old translation. -/
def execMigrationCopyDone (ctx va : Nat) (data : List Byte) (leaf : Nat) (s : State) : Host.Outcome State Fault Refusal :=
  .next (match s.xlt.migrations.find? (fun m => m.ctx == ctx && decide (m.va ≤ va) && decide (va < m.va + m.size)) with
    | none => s
    | some m =>
      if s.heldBy none (fun x => x.ctx == ctx && decide (x.va < m.va + m.size) && decide (m.va < x.va + x.size * x.run)) then s
      else s.endMigration m data leaf)

/-- MIGRATION_TIMEOUT (R238): a migration in progress, asked for, or left to the driver. -/
def execMigrationTimeout (ctx va : Nat) (s : State) : Host.Outcome State Fault Refusal :=
  .next (match s.xlt.migrations.find? (fun m => m.ctx == ctx && decide (m.va ≤ va) && decide (va < m.va + m.size)) with
    | some m =>
      ({ s with xlt := { s.xlt with migrations := s.xlt.migrations.erase m
                                    poolUsed := s.xlt.poolUsed.del m.pool } }).migFailed ctx m.va m.size XL_MIG_TIMEOUT
    | none =>
      let want := fun (m : Nat × Nat × Nat × Nat) => m.1 == ctx && m.2.1 / 4096 == va / 4096
      let req := fun (a : AssistReq) => a.kind == 2 && a.ctx == ctx && a.va / 4096 == va / 4096
      if s.xlt.migWanted.any want || s.xlt.assist.any (fun _ a => req a) then
        ({ s with xlt := { s.xlt with migWanted := s.xlt.migWanted.filter (fun m => !want m)
                                      assist := s.xlt.assist.keep (fun _ a => !req a) } }).migFailed ctx va 1 XL_MIG_TIMEOUT
      else s)

/-! ## INVALIDATE and XLT_SET_ROOT (R241 to R244) -/

def ivScope (d : DescBits) : Nat := dfield d 16 1
def ivVmid (d : DescBits) : Nat := dfield d 18 1
def ivAddr (d : DescBits) : Nat := dfield d 24 8
def ivLen (d : DescBits) : Nat := dfield d 32 8

/-- Arrival checks of an INVALIDATE. -/
def invalidateCheck (d : Desc) (s : State) : Option Cpl :=
  let b := d.bits
  let range := ivScope b == 0 || ivScope b == 2
  if 3 < ivScope b ∨ (range = true ∧ (ivAddr b % 4096 ≠ 0 ∨ ivLen b % 4096 ≠ 0 ∨ ivLen b < 4096 ∨ 2 ^ 48 < ivLen b)) then
    some (cpl ST_REFUSED_FIT XL_OPERAND)
  else if 2 ≤ ivScope b ∧ xcPriv (s.context (s.srcCtx d.src)) = false then some (cpl ST_PERMISSION XL_PRIV)
  else none

/-- A translation lies in the scope. -/
def InvScope.covers (i : InvScope) (x : Xlat) : Bool :=
  if i.s2 then
    x.vmid == i.vmid && (i.all || (decide (x.ipa < i.addr + i.len) && decide (i.addr < x.ipa + x.size * x.run)))
  else
    x.ctx == i.ctx && (i.all || (decide (x.va < i.addr + i.len) && decide (i.addr < x.va + x.size * x.run)))

/-- The invalidation covers a VA of a context. A stage-2 scope covers every VA of the contexts of its VMID. -/
def State.invCovers (s : State) (i : InvScope) (c va : Nat) : Bool :=
  if i.s2 then xcVmid (s.context c) == i.vmid
  else c == i.ctx && (i.all || (decide (i.addr ≤ va) && decide (va < i.addr + i.len)))

def State.applyInv (s : State) (i : InvScope) : State :=
  let s := s.tlbDrop i.covers (fun c va => s.invCovers i c va)
  { s with xlt := { s.xlt with invs := s.xlt.invs ++ [i] } }

/-- INVALIDATE: applied; it completes by INVALIDATE_COMPLETE. -/
def execInvalidate (tok : Nat) (s : State) : Host.Outcome State Fault Refusal :=
  .next (s.runDesc tok 0x70 (fun d s =>
    let b := d.bits
    (s.applyInv { tok := tok, s2 := decide (2 ≤ ivScope b), all := ivScope b % 2 == 1, ctx := s.srcCtx d.src, vmid := ivVmid b
                  addr := ivAddr b, len := ivLen b }, none)))

/-- Arrival checks of an XLT_SET_ROOT. -/
def setRootCheck (d : Desc) (s : State) : Option Cpl :=
  if dfield d.bits 16 8 % 4096 ≠ 0 ∨ (d.bits.getLsbD 193 = true ∧ xcPortValid (s.context (s.srcCtx d.src)) = false) then
    some (cpl ST_REFUSED_FIT XL_OPERAND)
  else none

/-- XLT_SET_ROOT: the new stage-1 root and flags are in force, and the context's stage-1 translations are withdrawn. -/
def execXltSetRoot (tok : Nat) (s : State) : Host.Outcome State Fault Refusal :=
  .next (s.runDesc tok 0x74 (fun d s =>
    let c := s.srcCtx d.src
    let r := putBits (putBits (putBits (s.context c) 64 64 (dfield d.bits 16 8)) 1 1 (bitsOf d.bits 192 1)) 24 1
      (bitsOf d.bits 193 1)
    let s := { s with xlt := { s.xlt with committed := s.xlt.committed.put c r } }
    (s.applyInv { tok := tok, s2 := false, all := true, ctx := c, vmid := 0, addr := 0, len := 0 }, none)))

/-- INVALIDATE_COMPLETE: no descriptor holds a translation of the scope and the transfers made with them are complete, those
to host memory by a flushing read. -/
def execInvalidateComplete (tok : Nat) (s : State) : Host.Outcome State Fault Refusal :=
  .next (match s.xlt.invs.find? (fun i => i.tok == tok) with
    | none => s
    | some i =>
      if s.heldBy none i.covers then s
      else
        let s := { s with xlt := { s.xlt with invs := s.xlt.invs.erase i } }
        match s.desc tok with
        | none => s
        | some d => (s.flushReads d.src).opEnd tok {})

/-! ## PREFETCH and ADVISE (R239, R240) -/

def pfVa (d : DescBits) : Nat := dfield d 16 8
def pfLen (d : DescBits) : Nat := dfield d 24 8
def adAdvice (d : DescBits) : Nat := dfield d 32 1

/-- Arrival checks of PREFETCH and ADVISE. -/
def prefetchCheck (advise : Bool) (d : Desc) (_ : State) : Option Cpl :=
  let b := d.bits
  if pfVa b % 4096 ≠ 0 ∨ pfLen b % 4096 ≠ 0 ∨ 2 ^ 40 < pfLen b ∨ (advise = true ∧ 2 < adAdvice b) then
    some (cpl ST_REFUSED_FIT XL_OPERAND)
  else none

def prefetchCost (d : Desc) (_ : State) : Cost := { stk := pfLen d.bits }

/-- R240: some page of the range lies in neither an EXPLICIT nor a BOTH range. -/
def State.rangeBarred (s : State) (c va len : Nat) : Bool :=
  (List.range (len / 4096)).any (fun i => s.migMode c (va + 4096 * i) == 1)

/-- Whether the operation needs explicit moves: PREFETCH, and ADVISE with TO_HOST. -/
def explicitMove (advise : Bool) (b : DescBits) : Bool := !advise || adAdvice b == 0

/-- How one leaf of a range is dealt with: the state, whether a page was moved or changed, the host entries and bytes left;
or a reason that ends the operation; or it waits. -/
inductive Moved where
  | ok (s : State) (n : Nat) (size : Nat) (host : List Nat) (ext : List Byte)
  | stop (s : State) (reason : Nat)
  | wait (s : State)

/-- Other descriptors hold translations of the page: it cannot be taken yet. -/
def State.pageHeld (s : State) (tok c page size : Nat) : Bool :=
  s.heldBy (some tok) (fun x => x.ctx == c && decide (x.va < page + size) && decide (page < x.va + x.size * x.run))

def State.dropPage (s : State) (c page size : Nat) : State :=
  s.tlbDrop (fun x => x.ctx == c && decide (x.va < page + size) && decide (page < x.va + x.size * x.run))
    (fun c' v => c' == c && decide (page ≤ v) && decide (v < page + size))

/-- PREFETCH of the page of `va`. -/
def State.prefetchPage (s : State) (tok key c va : Nat) (host : List Nat) (ext : List Byte) : Moved :=
  match s.walk key c va host with
  | .need => .wait s
  | .fault _ last e level lh a =>
    -- an invalid leaf that names a host page is a page of the range to be moved as a fault would move it
    if last && asksMigration e level then
      let size := levelSize level
      match s.freePage c size with
      | none => .stop s XL_POOL
      | some pool =>
        let m : Migration := { ctx := c, va := va / size * size, size := size, leafHost := lh, leafAddr := a, leaf := e, pool := pool, key := key }
        let s := { s with xlt := { s.xlt with poolUsed := s.xlt.poolUsed.put pool size } }
        .ok (s.endMigration m ext (leafClear e)) 1 size host (ext.drop size)
    else .ok s 0 4096 host ext
  | .ok x e lh a =>
    if !x.host then .ok s 0 (x.va + x.size - va) host ext
    else if x.size = 2 ^ 30 then .stop s XL_FORMAT
    else if s.pageHeld tok c x.va x.size then .wait s
    else match s.freePage c x.size with
      | none => .stop s XL_POOL
      | some pool =>
        let s := (s.writeLeaf c key lh a (leafClear e)).dropPage c x.va x.size
        let m : Migration := { ctx := c, va := x.va, size := x.size, leafHost := lh, leafAddr := a, leaf := e, pool := pool, key := key }
        let s := { s with xlt := { s.xlt with poolUsed := s.xlt.poolUsed.put pool x.size } }
        .ok (s.endMigration m ext (leafClear e)) 1 x.size host (ext.drop x.size)

/-- ADVISE on the leaf of `va`. -/
def State.advisePage (s : State) (advice tok key c va : Nat) (host : List Nat) : Moved :=
  match s.walk key c va host with
  | .need => .wait s
  | .fault _ _ _ level _ _ => .ok s 0 (if level = 0 then 4096 else levelSize level - va % levelSize level) host []
  | .ok x e lh a =>
    let next := x.va + x.size - va
    if advice = 0 then
      match s.xlt.poolUsed.find x.out with
      | none => .ok s 0 next host []
      | some size =>
        if x.host || size != x.size then .ok s 0 next host []
        else if s.pageHeld tok c x.va x.size then .wait s
        else
          let back := leNat (s.homeBytes key (returnRecord (s.context c) x.out) 8)
          let s := s.emit (.hostWrite (xcPort (s.context c)) back (s.homeBytes key x.out x.size))
          let s := (s.writeLeaf c key lh a (leafMoved e 1 back)).dropPage c x.va x.size
          .ok { s with xlt := { s.xlt with poolUsed := s.xlt.poolUsed.del x.out } } 1 next host []
    else if x.host && x.mig != (advice == 1) then
      let v := if advice = 1 then e + 2 ^ 61 else e - 2 ^ 61
      .ok (s.writeLeaf c key lh a v) 1 next host []
    else .ok s 0 next host []

/-- Walk a range leaf by leaf. -/
def State.moveRange (step : State → Nat → List Nat → List Byte → Moved) :
    Nat → Nat → Nat → Nat → List Nat → List Byte → State → State × Option Cpl
  | 0, _, _, n, _, _, s => (s, some { result := n })
  | fuel + 1, va, last, n, host, ext, s =>
    if last ≤ va then (s, some { result := n })
    else match step s va host ext with
      | .wait s => (s, none)
      | .stop s r => (s, some { status := xlStatus r, reason := r, result := n })
      | .ok s k size host ext => State.moveRange step fuel (va + max size 4096) last (n + k) host ext s

/-- A PREFETCH or ADVISE in host-assisted mode posts its record and waits for the answer. -/
def State.postMove (s : State) (tok : Nat) (d : Desc) (kind access : Nat) : State × Option Cpl :=
  let c := s.srcCtx d.src
  match s.postXlt { ctx := c, va := pfVa d.bits, len := pfLen d.bits, kind := kind, access := access, gen := s.xltGen c
                    tok := some tok } with
  | some s => (s, none)
  | none => (s, some (cpl ST_XLATE_FAULT XL_ASSIST_FAIL))

/-- PREFETCH or ADVISE; where a page must wait, nothing is done yet and the row is taken again. -/
def State.moveRow (s : State) (tok : Nat) (advise : Bool) (host : List Nat) (ext : List Byte) : State :=
  let op := if advise then 0x72 else 0x71
  match s.desc tok with
  | none => s
  | some d =>
    if dOpcode d.bits = op ∧ s.mayBegin tok d = true then
      let b := d.bits
      let c := s.srcCtx d.src
      let key := dKeySlot b
      if !xcValid (s.context c) then s.runDesc tok op (fun _ s => (s, some (cpl ST_XLATE_FAULT XL_CTX)))
      else if explicitMove advise b && s.rangeBarred c (pfVa b) (pfLen b) then
        s.runDesc tok op (fun _ s => (s, some (cpl ST_PERMISSION XL_MIG_MODE)))
      else if explicitMove advise b && s.ctxConf c then
        s.runDesc tok op (fun _ s => (s, some (cpl ST_PERMISSION SEC_CONF_HOST)))
      else if s.assisted 1 then
        s.runDesc tok op (fun d s => s.postMove tok d (if advise then 4 else 3) (if advise then adAdvice b else 0))
      else
        let step := fun (s : State) va host ext =>
          if advise then s.advisePage (adAdvice b) tok key c va host else s.prefetchPage tok key c va host ext
        match State.moveRange step (pfLen b / 4096) (pfVa b) (pfVa b + pfLen b) 0 host ext s with
        | (_, none) => s
        | (_, some _) => s.runDesc tok op (fun _ s =>
            State.moveRange step (pfLen b / 4096) (pfVa b) (pfVa b + pfLen b) 0 host ext s)
    else s

def execPrefetch (tok : Nat) (host : List Nat) (ext : List Byte) (s : State) : Host.Outcome State Fault Refusal :=
  .next (s.moveRow tok false host ext)
def execAdvise (tok : Nat) (host : List Nat) (s : State) : Host.Outcome State Fault Refusal :=
  .next (s.moveRow tok true host [])

/-! ## XLT_FILL (R227, R229) -/

def flVa (d : DescBits) : Nat := dfield d 16 8
def flLeaf (d : DescBits) : Nat := dfield d 24 8
def flReq (d : DescBits) : Nat := dfield d 32 4
def flFail (d : DescBits) : Bool := d.getLsbD 288
def flRewalk (d : DescBits) : Bool := d.getLsbD 289
def flSize (d : DescBits) : Nat := bitsOf d 290 2
def flRun (d : DescBits) : Nat := bitsOf d 292 3
def flIpa (d : DescBits) : Nat := dfield d 40 8

/-- Arrival checks of an XLT_FILL's own operands. -/
def fillCheck (d : Desc) (_ : State) : Option Cpl :=
  let b := d.bits
  if flFail b || flRewalk b then none
  else if flSize b = 3 ∨ 4 < flRun b ∨ teLeaf (flLeaf b) = false ∨ teValid (flLeaf b) = false then
    some (cpl ST_REFUSED_FIT XL_OPERAND)
  else none

def fillPage (d : DescBits) : Nat := if flSize d = 0 then 4096 else if flSize d = 1 then 2 ^ 21 else 2 ^ 30

/-- The translation an XLT_FILL supplies. -/
def fillXlat (b : DescBits) (a : AssistReq) (vmid : Nat) : Xlat :=
  { ctx := a.ctx, vmid := vmid, va := flVa b, ipa := flIpa b, out := teAddr (flLeaf b), size := fillPage b
    run := 2 ^ flRun b, host := teType (flLeaf b) == 1, mig := teMig (flLeaf b), s1Read := teRead (flLeaf b)
    s1Write := teWrite (flLeaf b) }

/-- The request of an accepted XLT_FILL ends well: a PREFETCH or ADVISE completes. -/
def State.fillDone (s : State) (a : AssistReq) : State :=
  match a.tok with | some t => s.opEnd t {} | none => s

def State.fillFail (s : State) (a : AssistReq) (reason : Nat) : State :=
  match a.tok with
  | some t => s.opEnd t (cpl (xlStatus reason) reason)
  | none => s.failWaits a.ctx a.va 1 reason

/-- XLT_FILL on its request. -/
def State.fillRequest (s : State) (d : Desc) (req : Nat) (a : AssistReq) : State × Option Cpl :=
  let b := d.bits
  let r := s.context a.ctx
  let port := match d.src with | .ring n => some (rgPort (s.ring n).record) | .subq _ => none
  let s' := { s with xlt := { s.xlt with assist := s.xlt.assist.del req } }
  if port ≠ some (xcPort r) then (s, some (cpl ST_PERMISSION XL_PRIV))
  else if flFail b then (s'.fillFail a XL_ASSIST_FAIL, some {})
  else if flRewalk b then
    if a.tok.isSome then (s'.fillDone a, some {})
    else match s'.walk a.key a.ctx a.va [] with
      | .need =>
        ({ s' with xlt := { s'.xlt with walks := s'.xlt.walks ++
          [{ ctx := a.ctx, va := a.va, access := a.access, key := a.key, gen := s'.xltGen a.ctx }] } }, some {})
      | w => (({ s' with xlt := { s'.xlt with walkCount := s'.xlt.walkCount + 1 } }).walkEnd
          { ctx := a.ctx, va := a.va, access := a.access, key := a.key, gen := a.gen } w, some {})
  else if a.tok.isSome then (s'.fillDone a, some {})
  else if flVa b ≠ a.va / fillPage b * fillPage b then (s, some (cpl ST_REFUSED_FIT XL_OPERAND))
  else
    let x := fillXlat b a (xcVmid r)
    if 2 ≤ teType (flLeaf b) ∨ x.out % x.size ≠ 0 then (s'.fillFail a XL_FORMAT, some (cpl ST_XLATE_FAULT XL_FORMAT))
    else match s'.xlatCheck r x with
      | some reason => (s'.fillFail a reason, some (cpl (xlStatus reason) reason))
      | none => (s'.tlbInstall (homeDie a.ctx) x, some {})

/-- XLT_FILL. -/
def execXltFill (tok : Nat) (s : State) : Host.Outcome State Fault Refusal :=
  .next (s.runDesc tok 0x73 (fun d s =>
    let req := flReq d.bits
    match s.xlt.assist.find req with
    | none => (s.setEvt F.XLT_EVT_FILL_STALE, some (cpl ST_ABORTED XL_FILL_STALE))
    | some a =>
      if a.tok.isNone ∧ a.gen ≠ s.xltGen a.ctx then
        -- overtaken by an invalidation: the miss is posted again under a new REQ_ID
        let s := ({ s with xlt := { s.xlt with assist := s.xlt.assist.del req } }).setEvt F.XLT_EVT_FILL_STALE
        ((s.postXlt { a with gen := s.xltGen a.ctx }).getD s, some (cpl ST_ABORTED XL_FILL_STALE))
      else s.fillRequest d req a))

end Sys2Proof.Machine
end

