-- ==== Sys2Proof/Machine/Hosts.lean ====
section
/-! DEFINITION. Host requests, recalls, the coherent domain, extents, shared ranges and snapshots (chapter 6). -/

namespace Sys2Proof.Machine

/-! ## Reasons (Table 6-8) -/

def SNAP_HOST : Nat := 0x0602
def SNAP_RANGE : Nat := 0x0603
def SNAP_NOT_HELD : Nat := 0x0604
def SNAP_SLOTS : Nat := 0x0605
def SNAP_POOL : Nat := 0x0606
def SNAP_GONE : Nat := 0x0607
def HDM_UNMAPPED : Nat := 0x0608
def HDM_REVOKING : Nat := 0x0609
def HDM_SLOT : Nat := 0x060A
def HDM_COW : Nat := 0x060B
def EXT_STATE : Nat := 0x0610
def EXT_SLICE : Nat := 0x0611
def EXT_DUP : Nat := 0x0612
def EXT_COH_LIMIT : Nat := 0x0613
def EXT_BOUNDS : Nat := 0x0614
def EXT_KEY : Nat := 0x0615
def SHR_EXTENTS : Nat := 0x0616
def SHR_LAYOUT : Nat := 0x0617
def SHR_FIELD : Nat := 0x0618
def SHR_HELD : Nat := 0x0619
def SEC_KEY_STATE : Nat := 0x1202
def SEC_CONF_HDM : Nat := 0x120B

/-! ## Ports and decoders -/

def State.hport (s : State) (p : Nat) : HostPort := s.host.ports.get {} p
def State.setHport (s : State) (p : Nat) (h : HostPort) : State :=
  { s with host := { s.host with ports := s.host.ports.put p h } }

/-- HIF_LAYOUT: size in GiB of decoder `dec` of a port (R182). -/
def State.decGib (s : State) (p dec : Nat) : Nat :=
  let w := (s.hport p).layout
  if dec = 0 then bitsOf w 0 11 else if dec = 1 then bitsOf w 22 10 else if dec = 2 then bitsOf w 11 11 else 0

/-- The port's slice (R632). -/
def State.portSlice (s : State) (p : Nat) : Nat := bitsOf (s.hport p).cfg 0 6

/-! ## Dropped requests (R183, R200, R204, R578, R586) -/

def HostReq.isRead : HostReq → Bool
  | .rd _ | .rdData => true
  | _ => false
def HostReq.isWrite : HostReq → Bool
  | .wr .. => true
  | _ => false

/-- A request that its decoder does not serve: a read returns poison, a write is dropped, each is counted and recorded. -/
def State.hostDrop (s : State) (port dec off reason : Nat) (req : HostReq) : State :=
  if !req.isRead && !req.isWrite then s.hostCmp port (lineOf off)
  else
    let h := s.hport port
    let h : HostPort :=
      if req.isRead then { h with poisonReads := h.poisonReads + 1 }
      else if reason = HDM_REVOKING then { h with revokeDrops := h.revokeDrops + 1 }
      else if reason = HDM_SLOT ∨ reason = HDM_COW then { h with shrDrops := h.shrDrops + 1 }
      else { h with droppedWrites := h.droppedWrites + 1 }
    let s := s.setHport port h
    let s := { s with host := { s.host with lastDrop := (port, dec, reason, off, s.tick.now % 2 ^ 32) } }
    let s := s.setEvt F.HIF_EVT_DROP
    if req.isRead then s.hostPoison port (lineOf off) else s

/-! ## Requests that reach an extent -/

/-- A write from `h` to a line with a BISnp outstanding to it: the recall's writeback (R192). -/
def State.writeback (s : State) (h line slot : Nat) (data : List Byte) (mask : Nat) : State :=
  if (s.slot slot).phase = .active ∨ (s.slot slot).phase = .retiring then s.hostStoreCmp h line slot data mask
  else s.staleAccess

def State.isWriteback (s : State) (h line : Nat) (req : HostReq) : Bool :=
  req.isWrite && (match s.dir.recalls.find line with | some r => r.hosts.testBit h | none => false)

/-- Serve a request at its line, or queue it there. -/
def State.hostAtLine (s : State) (h line slot : Nat) (req : HostReq) : State :=
  let w : Waiter := .host h line slot req
  match s.hostServe w h line slot req with
  | (s, true) => s
  | (s, false) => s.park w (s.anyHold [line])

/-- A request resolved to byte address `d` through extent entry `e`: new lookups of REVOKING extents and of slots that are
not ACTIVE are dropped (R200, R578). -/
def State.hostAtExtent (s : State) (port dec off d : Nat) (e : Word) (req : HostReq) : State :=
  let line := lineOf d
  match req, s.isWriteback port line req with
  | .wr _ data mask, true => (s.writeback port line (extKey e) data mask).pump
  | _, _ =>
    if extState e = EXT_REVOKING then s.hostDrop port dec off HDM_REVOKING req
    else if !s.keyActive (extKey e) then s.hostDrop port dec off SEC_KEY_STATE req
    else (s.hostAtLine port line (extKey e) req).pump

/-! ## Shared ranges (R202 to R207) -/

def shValid (e : BitVec 128) : Bool := e.getLsbD 0
def shWriterValid (e : BitVec 128) : Bool := e.getLsbD 1
def shWriter (e : BitVec 128) : Nat := bitsOf e 2 3
def shReaders (e : BitVec 128) : Nat := bitsOf e 8 8
def shGib (e : BitVec 128) : Nat := bitsOf e 16 7
def shPool (e : BitVec 128) : Nat := bitsOf e 24 7
def shBase (e : BitVec 128) : Nat := bitsOf e 32 11
def shSlice (e : BitVec 128) : Nat := bitsOf e 48 6
def shKey (e : BitVec 128) : Nat := bitsOf e 64 8

def shIsWriter (e : BitVec 128) (p : Nat) : Bool := shWriterValid e && shWriter e == p
def shMember (e : BitVec 128) (p : Nat) : Bool := shIsWriter e p || (shReaders e).testBit p

def State.shrLive (s : State) (r : Nat) : BitVec 128 := s.host.shrLive.get 0 r
def State.shared (s : State) (r : Nat) : SharedRange := s.host.shr.get {} r
def State.setShared (s : State) (r : Nat) (x : SharedRange) : State :=
  { s with host := { s.host with shr := s.host.shr.put r x } }

/-- 64 KiB granules in a GiB. -/
def granPerGib : Nat := 16384

/-- The physical granule of a logical one in a slot's map: a granule number within the range's extents. -/
def ShrSlot.phys (x : ShrSlot) (g : Nat) : Nat := x.map.get g g

/-- The slot maps physical granule `x` of a range of `l` GiB. -/
def ShrSlot.maps (sl : ShrSlot) (l x : Nat) : Bool :=
  (decide (x < l * granPerGib) && !sl.map.has x) || sl.map.any (fun _ v => v == x)

/-- The first free spare granule: past the version maps in the first 64 MiB of the pool, mapped by no slot, taken by no
copy. -/
def SharedRange.spare (x : SharedRange) (l pool : Nat) : Option Nat :=
  firstFree (fun n =>
    !(decide (l * granPerGib ≤ n) && decide (n < l * granPerGib + 1024)) && x.slots.all (fun _ sl => !sl.maps l n)
      && x.cows.all (fun c => c.spare != n)) ((l + pool) * granPerGib)

/-- Spare granules free (HIF_SHR_STAT). -/
def SharedRange.spareCount (x : SharedRange) (l pool : Nat) : Nat :=
  ((List.range ((l + pool) * granPerGib)).filter (fun n =>
    !(decide (l * granPerGib ≤ n) && decide (n < l * granPerGib + 1024)) && x.slots.all (fun _ sl => !sl.maps l n)
      && x.cows.all (fun c => c.spare != n))).length

/-- The byte address of offset `o` of physical granule `x` of a range, and its extent entry. -/
def State.shrAddr (s : State) (r x o : Nat) : Option (Nat × Word) :=
  (s.findShrExt r (x / granPerGib)).map (fun e => (e.1 * extentSize + x % granPerGib * 65536 + o, e.2))

/-- The granule is mapped by a published version of the range. -/
def SharedRange.published (x : SharedRange) (l p : Nat) : Bool :=
  x.slots.any (fun k sl => k != x.draft && sl.maps l p)

/-- A copy-on-write of a draft granule begins, its first write held; without a spare the draft breaks (R206, R207). -/
def State.startCow (s : State) (r g port off : Nat) (req : HostReq) : State :=
  let e := s.shrLive r
  let x := s.shared r
  match x.spare (shGib e) (shPool e) with
  | some n => s.setShared r { x with cows := x.cows ++ [{ granule := g, spare := n, held := [(port, off, req)] }] }
  | none =>
    let s := s.hostDrop port 2 off HDM_COW req
    (s.setShared r { s.shared r with broken := true }).setEvt F.HIF_EVT_SHR_BROKEN

/-- A request for offset `off` of the shared decoder, in range `r` (R204, R206). -/
def State.shrRequest (s : State) (r port off : Nat) (req : HostReq) : State :=
  let e := s.shrLive r
  let x := s.shared r
  let l := shGib e
  let rel := off - shBase e * extentSize
  let slot := rel / (l * extentSize)
  let log := rel % (l * extentSize)
  let g := log / 65536
  match x.slots.find slot with
  | none => s.hostDrop port 2 off HDM_SLOT req
  | some sl =>
    let draft := slot == x.draft
    let ok := if draft then shIsWriter e port else !req.isWrite && sl.holders.testBit port
    if !ok then s.hostDrop port 2 off HDM_SLOT req
    else if draft && x.cows.any (fun c => c.granule == g) then
      s.setShared r { x with cows := x.cows.map (fun c =>
        if c.granule = g then { c with held := c.held ++ [(port, off, req)] } else c) }
    else if req.isWrite && x.published l (sl.phys g) then s.startCow r g port off req
    else match s.shrAddr r (sl.phys g) (log % 65536) with
      | none => s.hostDrop port 2 off HDM_UNMAPPED req
      | some (d, w) => s.hostAtExtent port 2 off d w req

/-- The shared range that offset `off` of a port's shared decoder falls in; one of its own before any other. -/
def State.shrAt (s : State) (port off : Nat) : Option Nat :=
  let rs := (s.host.shrLive.filter (fun e => shValid e.2 && decide (shBase e.2 * extentSize ≤ off)
    && decide (off < (shBase e.2 + 16 * shGib e.2) * extentSize)))
  match rs.find? (fun e => shMember e.2 port) with
  | some e => some e.1
  | none => (rs.head?).map Prod.fst

/-! ## Host requests (R183, R189) -/

/-- A host's request for the line at offset `off` of decoder `dec` of port `port`. -/
def State.hostRequest (s : State) (port dec off : Nat) (req : HostReq) : State :=
  if s.sec.conf.has port then s.hostDrop port dec off SEC_CONF_HDM req
  else if dec = 2 then
    match s.shrAt port off with
    | some r => s.shrRequest r port off req
    | none => s.hostDrop port dec off HDM_UNMAPPED req
  else match s.findExt port dec (off / extentSize) with
    | some (k, e) => s.hostAtExtent port dec off (k * extentSize + off % extentSize) e req
    | none => s.hostDrop port dec off HDM_UNMAPPED req

def fullMask : Nat := 2 ^ 64 - 1

def execMemRd (port dec off : Nat) (m : MetaVal) (s : State) : Host.Outcome State Fault Refusal :=
  .next (s.hostRequest port dec off (.rd m))
def execMemRdData (port dec off : Nat) (s : State) : Host.Outcome State Fault Refusal :=
  .next (s.hostRequest port dec off .rdData)
def execMemInv (port dec off : Nat) (s : State) : Host.Outcome State Fault Refusal :=
  .next (s.hostRequest port dec off .inv)
def execMemInvNt (port dec off : Nat) (s : State) : Host.Outcome State Fault Refusal :=
  .next (s.hostRequest port dec off .invNt)
def execMemClnEvct (port dec off : Nat) (s : State) : Host.Outcome State Fault Refusal :=
  .next (s.hostRequest port dec off .clnEvct)
def execMemWr (port dec off : Nat) (m : MetaVal) (data : List Byte) (s : State) : Host.Outcome State Fault Refusal :=
  .next (s.hostRequest port dec off (.wr m data fullMask))
def execMemWrPtl (port dec off : Nat) (m : MetaVal) (data : List Byte) (mask : Nat) (s : State) :
    Host.Outcome State Fault Refusal :=
  .next (s.hostRequest port dec off (.wr m data mask))
/-- MemRdFwd is completed as MemRd (Table 6-1). -/
def execMemRdFwd (port dec off : Nat) (m : MetaVal) (s : State) : Host.Outcome State Fault Refusal :=
  .next (s.hostRequest port dec off (.rd m))
/-- MemWrFwd is completed as MemWr. -/
def execMemWrFwd (port dec off : Nat) (m : MetaVal) (data : List Byte) (s : State) : Host.Outcome State Fault Refusal :=
  .next (s.hostRequest port dec off (.wr m data fullMask))
/-- MemSpecRd is completed as a no-op. -/
def execMemSpecRd (_port _dec _off : Nat) (s : State) : Host.Outcome State Fault Refusal := .next s

/-- The pieces of a PCIe access: offset and length within one line each. -/
def linePieces : Nat → Nat → Nat → List (Nat × Nat)
  | 0, _, _ => []
  | n + 1, off, len =>
    if len = 0 then []
    else
      let k := min len (64 - off % 64)
      (off, k) :: linePieces n (off + k) (len - k)

/-- BAR4_ACCESS (R185): a PCIe memory request to BAR4, resolved as partition offsets. `data` is empty for a read. -/
def execBar4Access (port off len : Nat) (write : Bool) (data : List Byte) (s : State) :
    Host.Outcome State Fault Refusal :=
  .next ((linePieces (len / 64 + 2) off len).foldl (fun s p =>
    let req : HostReq :=
      if write then
        .wr .any (zeros (p.1 % 64) ++ ((data.drop (p.1 - off)).take p.2) ++ zeros (64 - p.1 % 64 - p.2))
          (maskOf ((List.range p.2).map (fun i => p.1 % 64 + i)))
      else .rd .invalid
    if s.decGib port 0 * extentSize ≤ p.1 then
      (if s.sec.conf.has port then s.hostDrop port 0 p.1 SEC_CONF_HDM req else s.hostDrop port 0 p.1 HDM_UNMAPPED req)
    else s.hostRequest port 0 (p.1 / 64 * 64) req) s)

/-! ## Answers to recalls (R190 to R192) -/

/-- The request `w` touches the line. -/
def Waiter.touches (w : Waiter) (line : Nat) : Bool :=
  match w with
  | .host _ l _ _ => l == line
  | .engine _ l _ => l == line
  | .revoke l => l == line
  | .fabric p e _ =>
    let (off, n) := servedPart p
    (linesOf (winBase e + faOffset p.addr + off) n).contains line

/-- The answers that end with the host holding no copy, a clean copy, or what it had. -/
inductive Rsp where
  | i | s | e
  deriving DecidableEq, Repr

/-- What one answer does to the entry (Table 6-3, R188, R190). -/
def State.recallAnswer (s : State) (line host : Nat) (snp : Snp) (rsp : Rsp) : State :=
  match s.dir.entries.find line with
  | none => s
  | some e =>
    let set := fun (k : DirKind) => { s with dir := { s.dir with entries := s.dir.entries.put line { e with kind := k } } }
    match snp, rsp with
    | .cur, _ => s
    | _, .i =>
      (match e.kind with
       | .owned g => if g = host then s.clearEntry line else s
       | .shared m => if othersOf m host = 0 then s.clearEntry line else set (.shared (othersOf m host)))
    | _, .s => (match e.kind with | .owned g => if g = host then set (.shared (2 ^ g)) else s | .shared _ => s)
    | _, .e => s

/-- R191: the transaction on a line closes. -/
def State.closeRecall (s : State) (line : Nat) (r : Recall) : State :=
  let s := { s with dir := { s.dir with recalls := s.dir.recalls.del line } }
  let s := if r.evict then s.clearEntry line else s
  if r.snp = .cur then
    match s.dir.waiters.find? (fun w => w.touches line && !(s.dir.current.contains (w, line))) with
    | some w => { s with dir := { s.dir with current := s.dir.current ++ [(w, line)] } }
    | none => s
  else s

/-- A BIRsp from a host for a line. After the domain has gone down it is discarded and counted (R196). -/
def State.biRsp (s : State) (host line : Nat) (rsp : Rsp) : State :=
  match s.dir.recalls.find line with
  | none => if s.dir.domain = .up then s else { s with dir := { s.dir with lateDiscards := s.dir.lateDiscards + 1 } }
  | some r =>
    if r.hosts.testBit host then
      let s := s.recallAnswer line host r.snp rsp
      let r' := { r with hosts := othersOf r.hosts host }
      if r'.hosts = 0 then (s.closeRecall line r').pump
      else { s with dir := { s.dir with recalls := s.dir.recalls.put line r' } }
    else s

/-- BI_RSP_I: `held` says that the host held the line; one that did not gives a stale answer (R188). -/
def execBiRspI (port line : Nat) (held : Bool) (s : State) : Host.Outcome State Fault Refusal :=
  let out := match s.dir.recalls.find line with | some r => r.hosts.testBit port | none => false
  let s := if !held && out then { s with dir := { s.dir with staleSnoops := s.dir.staleSnoops + 1 } } else s
  .next (s.biRsp port line .i)
def execBiRspS (port line : Nat) (s : State) : Host.Outcome State Fault Refusal := .next (s.biRsp port line .s)
def execBiRspE (port line : Nat) (s : State) : Host.Outcome State Fault Refusal := .next (s.biRsp port line .e)

/-- BI_CONFLICT (R192): answered once the home has sent the host its BISnp. -/
def execBiConflict (port line : Nat) (s : State) : Host.Outcome State Fault Refusal :=
  .next (match s.dir.recalls.find line with
    | some r => if r.hosts.testBit port then s.emit (.host port H_CONFLICT_ACK [line]) else s
    | none => s)

/-- MIN_HOLD_EXPIRY (R193): MIN_HOLD has passed since the line's last grant. -/
def execMinHoldExpiry (line : Nat) (s : State) : Host.Outcome State Fault Refusal :=
  .next (match s.dir.entries.find line with
    | some e =>
      if e.hold then
        ({ s with dir := { s.dir with entries := s.dir.entries.put line { e with hold := false } } }).pump
      else s
    | none => s)

/-! ## The domain going down (R195 to R199) -/

/-- R196: the coherent domain goes down, over a recall of `line` to `port`. -/
def State.domainDown (s : State) (port line : Nat) : State :=
  if s.dir.domain ≠ .up then s
  else
    let s := { s with dir := { s.dir with domain := .walking, downPort := port, downLine := line
                                          downTick := s.tick.now % 2 ^ 32, recalls := [], current := [] } }
    let s := (s.setEvt F.DIR_EVT_DOMAIN_DOWN).event DOMAIN_DOWN (locHostPort port) 0 (64 * line)
    s.pump

/-- BI_TIMEOUT (R195): a BISnp to `port` for `line` has gone unanswered for BI_TIMEOUT. -/
def execBiTimeout (port line : Nat) (s : State) : Host.Outcome State Fault Refusal :=
  .next (match s.dir.recalls.find line with
    | some r => if r.hosts.testBit port then s.domainDown port line else s
    | none => s)

/-- DOMAIN_WALK_DONE (R196): the lines held in A are marked poisoned, every entry is cleared, the domain is DOWN. -/
def execDomainWalkDone (s : State) : Host.Outcome State Fault Refusal :=
  .next (if s.dir.domain = .walking then
      let held := (s.dir.entries.filter (fun e => match e.2.kind with | .owned _ => true | .shared _ => false)).map Prod.fst
      let s := held.foldl (fun (s : State) l => s.markPoison .none l) s
      let s := { s with dir := { s.dir with
        entries := [], domain := .down, poisoned := s.dir.poisoned + held.length
        waiters := s.dir.waiters.filter (fun w => !w.isRevoke) } }
      (s.setEvt F.DIR_EVT_WALK_DONE).pump
    else s)

/-- A write of DIR_DOMAIN_RESET (R199). -/
def effDomainReset : RegEffect := fun v s =>
  if !v.getLsbD 0 then (s, none)
  else if s.dir.domain ≠ .down then (s, some REG_STATE)
  else ((({ s with dir := { s.dir with domain := .up, entries := [] } }).setEvt F.DIR_EVT_RESET_DONE).setEvt
    F.IDN_RESET_CAUSE_DOMAIN, none)

def execDirDomainReset (path : Nat) (value : Word) (cycle : Nat) (s : State) : Host.Outcome State Fault Refusal :=
  .next (s.guardPair path Reg.DIR_DOMAIN_RESET value cycle (fun _ => true) effDomainReset)

/-! ## Extents (R184, R200, R201) -/

/-- An extent write or a commit is refused: HIF_EXT_ERR (R184, R203). -/
def State.extErr (s : State) (n reason : Nat) : State :=
  s.setWord Reg.HIF_EXT_ERR (BitVec.ofNat 32 (reason + at_ 16 n))

/-- The definition of a shared range that its extents are checked against: as committed, else as written. -/
def State.shrDef (s : State) (r : Nat) : BitVec 128 :=
  if shValid (s.shrLive r) then s.shrLive r else s.host.shrDesc.get 0 r

/-- R184: why FREE → ACTIVE of extent `k` is refused. -/
def State.extFails (s : State) (k : Nat) (w : Word) : Option Nat :=
  let p := extPort w
  let dec := extDec w
  let x := extHdm w
  let r := extShr w
  let dup := s.host.ext.any (fun _ e => extInUse e && extDec e == dec && extHdm e == x
    && (if dec = 2 then extShr e == r else extPort e == p))
  let slice := if dec = 2 then shSlice (s.shrDef r) else s.portSlice p
  let key := s.keyActive (extKey w) && (dec != 2 || extKey w == shKey (s.shrDef r))
  let coh := (s.host.ext.filter (fun e => extInUse e.2 && extDec e.2 == 1)).length
  if dec ≠ 2 ∧ s.decGib p dec ≤ x then some EXT_BOUNDS
  else if dup then some EXT_DUP
  else if !s.holdsRange slice (k * extentSize) extentSize then some EXT_SLICE
  else if !key then some EXT_KEY
  else if dec = 1 ∧ 512 ≤ coh then some EXT_COH_LIMIT
  else none

/-- The device withdraws a coherent extent: the recall of every line that has an entry (Table 6-5, step 3). -/
def State.startRevoke (s : State) (k : Nat) : State :=
  let e := s.ext k
  let s := { s with host := { s.host with ext := s.host.ext.put k (putBits e 30 2 EXT_REVOKING) } }
  let lines := (s.dir.entries.keys).filter (fun l => l * 64 / extentSize == k)
  (lines.foldl (fun s l => s.park (.revoke l) (s.anyHold [l])) s).pump

/-- A write of HIF_EXT_ENTRY for the selected extent. -/
def effExtEntry : RegEffect := fun v s =>
  let k := s.fld F.HIF_EXT_SEL_EXT
  let old := s.ext k
  if extState v = 3 ∨ extDec v = 3 then (s, some REG_VALUE)
  else if extState old = EXT_FREE ∧ extState v = EXT_ACTIVE then
    match s.extFails k v with
    | some r => (s.extErr k r, some REG_STATE)
    | none => ({ s with host := { s.host with ext := s.host.ext.put k v } }, none)
  else if extState old = EXT_ACTIVE ∧ extState v = EXT_REVOKING then (s.startRevoke k, none)
  else (s.extErr k EXT_STATE, some REG_STATE)

def execHifExtEntryWrite (path : Nat) (value : Word) (cycle : Nat) (s : State) : Host.Outcome State Fault Refusal :=
  .next (s.guardPair path Reg.HIF_EXT_ENTRY value cycle (fun _ => true) effExtEntry)

/-- Something of extent `k` is still in flight: a waiting request, a recall, an entry, a held write. -/
def State.extBusy (s : State) (k : Nat) : Bool :=
  let inK := fun (l : Nat) => l * 64 / extentSize == k
  s.dir.waiters.any (fun w => match w.line? with | some l => inK l | none => false)
    || s.dir.recalls.any (fun l _ => inK l) || s.dir.entries.any (fun l _ => inK l)
    || s.pg.held.any (fun h => inK h.line && (match h.origin with | .host _ => true | _ => false))

/-- REVOCATION_COMPLETE (R200): a REVOKING extent with nothing left in flight becomes FREE. -/
def execRevocationComplete (ext : Nat) (s : State) : Host.Outcome State Fault Refusal :=
  .next (if extState (s.ext ext) = EXT_REVOKING ∧ s.extBusy ext = false then
      ({ s with host := { s.host with ext := s.host.ext.put ext (putBits (s.ext ext) 30 2 EXT_FREE) } }).setEvt
        F.HIF_EVT_REVOKED
    else s)

/-- A write of HIF_LAYOUT for the selected port (R182). -/
def effLayout : RegEffect := fun v s =>
  let p := s.fld F.HIF_PORT_SEL_PORT
  if (s.hport p).committed ≠ 0 then (s, some REG_STATE)
  else if 1152 < bitsOf v 0 11 ∨ 512 < bitsOf v 22 10 then (s, some REG_VALUE)
  else (s.setHport p { s.hport p with layout := v }, none)

def execHifLayoutWrite (path : Nat) (value : Word) (cycle : Nat) (s : State) : Host.Outcome State Fault Refusal :=
  .next (s.guardPair path Reg.HIF_LAYOUT value cycle (fun _ => true) effLayout)

/-- A write of HIF_PORT_CFG for the selected port (R632). -/
def effPortCfg : RegEffect := fun v s =>
  let p := s.fld F.HIF_PORT_SEL_PORT
  let n := bitsOf v 0 6
  let bound := s.host.ext.any (fun _ e => extInUse e && extPort e == p && decide (extDec e < 2))
  if !s.sliceExists n || (n != s.portSlice p && bound) then (s, some REG_STATE)
  else (s.setHport p { s.hport p with cfg := BitVec.ofNat 32 n }, none)

def execHifPortCfgWrite (path : Nat) (value : Word) (cycle : Nat) (s : State) : Host.Outcome State Fault Refusal :=
  .next (s.guardPair path Reg.HIF_PORT_CFG value cycle (fun _ => true) effPortCfg)

/-- HDM_DECODER_COMMIT (R182): the host commits a decoder with this base, in bytes, and size. -/
def execHdmDecoderCommit (port dec base sizeGib : Nat) (s : State) : Host.Outcome State Fault Refusal :=
  let h := s.hport port
  .next (if 3 ≤ dec then s
    else if sizeGib = s.decGib port dec then
      s.setHport port { h with committed := h.committed ||| 2 ^ dec, decErr := maskOf ((maskBits h.decErr 3).filter (· != dec))
                               decBase := h.decBase.set dec (base / 2 ^ 28 * 2 ^ 28) }
    else s.setHport port { h with decErr := h.decErr ||| 2 ^ dec })

/-! ## Shared-range commits (R203) -/

/-- Why a commit that makes the range VALID is refused. -/
def State.shrFails (s : State) (r : Nat) (e : BitVec 128) : Option Nat :=
  let members := (List.range 8).filter (shMember e)
  let top := shBase e + 16 * shGib e
  let overlaps := fun (p : Nat) => s.host.shrLive.any (fun k f => k != r && shValid f && shMember f p
    && decide (shBase f < top) && decide (shBase e < shBase f + 16 * shGib f))
  if (List.range (shGib e + shPool e)).any (fun x =>
      match s.findShrExt r x with | some (_, w) => extState w != EXT_ACTIVE | none => true) then some SHR_EXTENTS
  else if members.any (fun p => decide (s.decGib p 2 < top) || overlaps p) then some SHR_LAYOUT
  else if shGib e = 0 ∨ 64 < shGib e ∨ shPool e = 0 then some SHR_FIELD
  else none

/-- A write of HIF_SHR_COMMIT for the selected range. -/
def effShrCommit : RegEffect := fun v s =>
  let r := s.fld F.HIF_SHR_SEL_RANGE
  let new := s.host.shrDesc.get 0 r
  let old := s.shrLive r
  let put := fun (s : State) => { s with host := { s.host with shrLive := s.host.shrLive.put r new } }
  if !v.getLsbD 0 then (s, none)
  else if shValid old then
    if shValid new then (if new = old then (s, none) else (s.extErr r SHR_HELD, some REG_STATE))
    else if (s.shared r).slots.any (fun _ x => x.holders != 0) then (s.extErr r SHR_HELD, some REG_STATE)
    else
      let s := put s
      ({ s with host := { s.host with shrClosing := s.host.shrClosing ++ [r] } }, none)
  else if shValid new then
    match s.shrFails r new with
    | some x => (s.extErr r x, some REG_STATE)
    | none =>
      let s := put s
      let s := { s with host := { s.host with shrClosing := s.host.shrClosing.filter (· != r) } }
      (s.setShared r { slots := [(0, { version := 1 }), (1, { version := 0 })], newest := 0, draft := 1 }, none)
  else (put s, none)

def execHifShrCommit (path : Nat) (value : Word) (cycle : Nat) (s : State) : Host.Outcome State Fault Refusal :=
  .next (s.guardPair path Reg.HIF_SHR_COMMIT value cycle (fun _ => true) effShrCommit)

/-- COW_COPY_DONE (R206): the 64 KiB are copied, the draft's map points at the copy, and what was held goes on. -/
def execCowCopyDone (range granule : Nat) (s : State) : Host.Outcome State Fault Refusal :=
  .next (match (s.shared range).cows.find? (fun c => c.granule == granule) with
    | none => s
    | some c =>
      let x := s.shared range
      let e := s.shrLive range
      match x.slots.find x.draft with
      | none => s.setShared range { x with cows := x.cows.erase c }
      | some sl =>
        let s := match s.shrAddr range (sl.phys granule) 0, s.shrAddr range c.spare 0 with
          | some (a, _), some (b, _) =>
            let (bytes, _) := s.homeRead (shKey e) a 65536
            let bad := (List.range 1024).filter (fun i => s.readsPoison (lineOf a + i))
            let s := s.homeWrite .none (shKey e) b bytes
            bad.foldl (fun (s : State) i => s.markPoison .none (lineOf b + i)) s
          | _, _ => s
        let s := s.setShared range { x with
          slots := x.slots.put x.draft { sl with map := sl.map.put granule c.spare }, cows := x.cows.erase c }
        c.held.foldl (fun s h => s.hostRequest h.1 2 h.2.1 h.2.2) s)

/-! ## CXL memory device commands (Table 6-1) -/

/-- The answer to a command whose contents the manual does not give: a free value. -/
def State.cxlAnswer (s : State) (port code : Nat) : State :=
  let (x, s) := s.draw
  s.emit (.host port H_CXL [code, x])

def execIdentify (port : Nat) (s : State) : Host.Outcome State Fault Refusal := .next (s.cxlAnswer port 0x4000)
def execGetPartitionInfo (port : Nat) (s : State) : Host.Outcome State Fault Refusal := .next (s.cxlAnswer port 0x4100)
/-- GET_EVENT_RECORDS: the records held; which events the device records there the manual does not say. -/
def execGetEventRecords (port : Nat) (s : State) : Host.Outcome State Fault Refusal :=
  .next (s.emit (.host port H_CXL (0x0100 :: (s.host.cxlEvents.flatten).map BitVec.toNat)))
def execClearEventRecords (port : Nat) (s : State) : Host.Outcome State Fault Refusal :=
  .next (({ s with host := { s.host with cxlEvents := [] } }).emit (.host port H_CXL [0x0101]))
/-- GET_POISON_LIST: the poisoned lines of the port's extents. -/
def execGetPoisonList (port : Nat) (s : State) : Host.Outcome State Fault Refusal :=
  .next (s.emit (.host port H_CXL (0x4300 :: s.mem.poison.filter (fun l =>
    let e := s.ext (64 * l / extentSize)
    extInUse e && (if extDec e = 2 then shMember (s.shrLive (extShr e)) port else extPort e == port)))))
/-- CDAT_READ: the table's contents the manual does not give. -/
def execCdatRead (port : Nat) (s : State) : Host.Outcome State Fault Refusal :=
  let (x, s) := s.draw
  .next (s.emit (.host port H_DOE [x]))

/-! ## Snapshots (R208 to R211) -/

def snRange (d : DescBits) : Nat := dfield d 16 1
def snLatest (d : DescBits) : Bool := d.getLsbD 136
def snSlot (d : DescBits) : Nat := dfield d 18 1
def snVersion (d : DescBits) : Nat := dfield d 20 4

/-- The host port of a descriptor's ring. -/
def State.descPort (s : State) (d : Desc) : Option Nat :=
  match d.src with | .ring n => some (rgPort (s.ring n).record) | .subq _ => none

/-- R211: refusals of the snapshot descriptors. -/
def snapCheck (d : Desc) (s : State) : Option Cpl :=
  match s.descPort d with
  | none => some (cpl ST_PERMISSION SNAP_HOST)
  | some p =>
    let e := s.shrLive (snRange d.bits)
    let op := dOpcode d.bits
    let ok := if op = 0x92 ∨ op = 0x93 then shIsWriter e p else shMember e p
    if snRange d.bits < 64 ∧ shValid e = true ∧ ok = true then none else some (cpl ST_PERMISSION SNAP_RANGE)

def slotVersion (v slot : Nat) : Nat := v + at_ 32 slot

/-- SNAP_OPEN on its range. -/
def State.snapOpen (s : State) (d : Desc) : State × Option Cpl :=
  let r := snRange d.bits
  let x := s.shared r
  let found := if snLatest d.bits then (x.slots.find x.newest).map (fun sl => (x.newest, sl))
    else x.slots.find? (fun e => e.1 != x.draft && e.2.version == snVersion d.bits)
  match found, s.descPort d with
  | some (k, sl), some p =>
    (s.setShared r { x with slots := x.slots.put k { sl with holders := sl.holders ||| 2 ^ p } },
     some { result := slotVersion sl.version k })
  | _, _ => (s, some (cpl ST_VERSION_GONE SNAP_GONE))

/-- SNAP_CLOSE on its range. -/
def State.snapClose (s : State) (d : Desc) : State × Option Cpl :=
  let r := snRange d.bits
  let x := s.shared r
  match x.slots.find (snSlot d.bits), s.descPort d with
  | some sl, some p =>
    if sl.holders.testBit p then
      (s.setShared r { x with slots := x.slots.put (snSlot d.bits) { sl with holders := othersOf sl.holders p } }, some {})
    else (s, some (cpl ST_PERMISSION SNAP_NOT_HELD))
  | _, _ => (s, some (cpl ST_PERMISSION SNAP_NOT_HELD))

/-- A snapshot operation runs, but for what R211 refuses. -/
def State.snapRun (s : State) (tok op : Nat) (k : Desc → State → State × Option Cpl) : State :=
  s.runDesc tok op (fun d s => match snapCheck d s with | some c => (s, some c) | none => k d s)

def execSnapOpen (tok : Nat) (s : State) : Host.Outcome State Fault Refusal :=
  .next (s.snapRun tok 0x90 (fun d s => s.snapOpen d))
def execSnapClose (tok : Nat) (s : State) : Host.Outcome State Fault Refusal :=
  .next (s.snapRun tok 0x91 (fun d s => s.snapClose d))
/-- SNAP_PUBLISH takes effect at the next boundary (R208). -/
def execSnapPublish (tok : Nat) (s : State) : Host.Outcome State Fault Refusal :=
  .next (s.snapRun tok 0x92 (fun d s =>
    let x := s.shared (snRange d.bits)
    (s.setShared (snRange d.bits) { x with publish := x.publish ++ [tok] }, none)))
/-- SNAP_DISCARD takes effect at the next boundary (R210). -/
def execSnapDiscard (tok : Nat) (s : State) : Host.Outcome State Fault Refusal :=
  .next (s.snapRun tok 0x93 (fun d s =>
    let x := s.shared (snRange d.bits)
    (s.setShared (snRange d.bits) { x with discard := x.discard ++ [tok] }, none)))

/-- R210: versions that are neither newest nor held are freed. -/
def SharedRange.freeVersions (x : SharedRange) : SharedRange :=
  { x with slots := x.slots.keep (fun k sl => k == x.draft || k == x.newest || sl.holders != 0) }

/-- R208: the publish of a range at a boundary: the range after it, and how its descriptors complete; the second and later
ones complete ST_ALREADY_DONE. -/
def SharedRange.publishNow (x : SharedRange) : SharedRange × Option Cpl :=
  match x.slots.find x.draft, x.slots.find x.newest with
  | some d, some n =>
    if x.broken then (x, some (cpl ST_REFUSED_FIT SNAP_POOL))
    else match firstFree (fun k => !x.slots.has k) 16 with
      | none => (x, some (cpl ST_REFUSED_FIT SNAP_SLOTS))
      | some k =>
        let v := n.version + 1
        ({ x with slots := (x.slots.put x.draft { d with version := v }).put k { version := 0, map := d.map }
                  newest := x.draft, draft := k },
         some { result := slotVersion v x.draft })
  | _, _ => (x, some (cpl ST_PERMISSION SNAP_RANGE))

/-- R210: SNAP_DISCARD: the draft's map is the newest version's again. -/
def SharedRange.discardNow (x : SharedRange) : SharedRange :=
  match x.slots.find x.draft, x.slots.find x.newest with
  | some d, some n => { x with slots := x.slots.put x.draft { d with map := n.map }, broken := false }
  | _, _ => x

/-- Step 5 of a boundary for one range (Table 2-6). -/
def State.boundaryRange (s : State) (r : Nat) : State :=
  if s.host.shrClosing.contains r then
    let x := s.shared r
    let s := (x.publish ++ x.discard).foldl (fun s t => s.opEnd t (cpl ST_PERMISSION SNAP_RANGE)) s
    let s := s.setShared r {}
    { s with host := { s.host with shrClosing := s.host.shrClosing.filter (· != r) } }
  else
    let x := (s.shared r).freeVersions
    let (x', s) := match x.publish with
      | [] => (x, s)
      | t :: rest =>
        let (x', c) := x.publishNow
        let c := c.getD {}
        let s := s.opEnd t c
        (x', rest.foldl (fun s t => s.opEnd t (if c.status = ST_OK then { c with status := ST_ALREADY_DONE } else c)) s)
    let x' := if x.discard.isEmpty then x' else x'.discardNow
    let s := x.discard.foldl (fun s t => s.opEnd t {}) s
    s.setShared r { x' with publish := [], discard := [] }

def State.applyShared (s : State) : State := (s.host.shr.keys).foldl State.boundaryRange s

end Sys2Proof.Machine
end

