-- ==== Sys2Proof/Machine/Tier.lean ====
section
/-! DEFINITION. The tier: promotion, demotion, pins, the tier descriptors, and the fetch deadline (chapter 8). -/

namespace Sys2Proof.Machine

def DL_EMB_STALE_ROW : Nat := 0x0801
def DL_EMB_MISSING_ROW : Nat := 0x0802
def DL_SRH_LEAVES : Nat := 0x0803
def DL_SRH_CHANNEL : Nat := 0x0804
def TIR_NO_SLOT : Nat := 0x0810
def TIR_PINNED : Nat := 0x0811
def TIR_PIN_LIMIT : Nat := 0x0812
def TIR_OPERAND : Nat := 0x0813
def SPLIT_SUM : Nat := 0x0820
def SPLIT_SCRATCH : Nat := 0x0821
def SPLIT_BUSY : Nat := 0x0822
def SPLIT_ISLAND : Nat := 0x0823

/-! ## Slots (R252) -/

def State.split (s : State) (h : Nat) : Split := s.tier.split.get {} h

/-- Tier slots of a region: 256 to a block; a retired block counts no more (R257). -/
def State.tierSlots (s : State) (h : Nat) : Nat := 256 * (s.split h).tier

/-- Tier slots in use or promised at a region. -/
def State.slotsUsed (s : State) (h : Nat) : Nat :=
  ((s.tier.granules.map (fun e => ((List.range 16).filter (fun i => tierHome e.1 i == h &&
    (e.2.on ||| e.2.copying ||| e.2.leaving).testBit i)).length)).foldl (· + ·) 0)

/-- The granule is on its way in or out. -/
def TierGranule.moving (g : TierGranule) : Bool := g.copying != 0 || g.leaving != 0 || g.after.isSome

/-- A promoted granule's heat: the largest of its tag counters (R258). -/
def TierGranule.hot (g : TierGranule) : Nat := g.heat.vals.foldl Nat.max 0

def State.granuleOf (s : State) (g : Nat) : Option TierGranule := s.tier.granules.find g

/-- The granule is on its way in or out. -/
def State.granuleMoves (s : State) (g : Nat) : Bool :=
  match s.granuleOf g with | some x => x.moving | none => false

def State.setTier (s : State) (f : TierState → TierState) : State := { s with tier := f s.tier }

/-- The granule number of a DPA. -/
def granOf (d : Nat) : Nat := d / 65536

/-- The victim of R261: the unpinned promoted granule of the pattern with the lowest heat, ties to the lower DPA. -/
def State.tierVictim (s : State) (q : Nat) : Option (Nat × TierGranule) :=
  (s.tier.granules.filter (fun e => e.1 % 3 == q && !e.2.pinned && !e.2.moving)).foldl (fun best e =>
    match best with
    | none => some e
    | some b => if e.2.hot < b.2.hot then some e else best) none

/-! ## Moves (R253, R254) -/

/-- A granule's demotion begins: every part whose tag is on is to be written back and removed. -/
def State.demote (s : State) (g : Nat) : State :=
  s.setTier (fun t => { t with granules := t.granules.upd g (fun x => { x with leaving := x.on, pinned := false }) })

/-- How an attempt to promote a granule ends. -/
inductive Promoted where
  | done | started | noSlot | skipped
  deriving DecidableEq, Repr

/-- R261: promote granule `g` under key slot `key`; `hyst` is the nominating estimate where the HYST test applies. -/
def State.promote (s : State) (g key : Nat) (hyst : Option Nat) : State × Promoted :=
  if s.tier.granules.has g then (s, .done)
  else if (List.range 16).all (fun i => decide (s.slotsUsed (tierHome g i) < s.tierSlots (tierHome g i))) then
    (s.setTier (fun t => { t with granules := t.granules.put g { key := key, copying := 0xFFFF } }), .started)
  else match s.tierVictim (g % 3) with
    | none => (s, .noSlot)
    | some (v, x) =>
      if (match hyst with | some e => decide (e < x.hot + s.fld F.TIR_POLICY_HYST) | none => false) then (s, .skipped)
      else
        let s := s.demote v
        (s.setTier (fun t => { t with granules := t.granules.put g { key := key, after := some v } }), .started)

/-- Tier descriptors whose granules have all come to rest complete. -/
def State.endTierJobs (s : State) : State :=
  let ended := s.tier.jobs.filter (fun j => j.granules.all (fun g =>
    match s.granuleOf g with | some x => !x.moving | none => true))
  let s := s.setTier (fun t => { t with jobs := t.jobs.filter (fun j => !ended.contains j) })
  ended.foldl (fun s j => s.opEnd j.tok
    (match j.stop with
     | some (st, r, va) => { status := st, reason := r, done := j.done, dropped := j.dropped, result := va }
     | none => { status := if j.dropped = 0 then ST_OK else ST_PARTIAL, reason := j.reason, done := j.done,
                 dropped := j.dropped })) s

/-- TIER_PART_COPY_DONE (R253): a home has copied its part; its tag is on, and the requests that waited go on. -/
def execTierPartCopyDone (granule part : Nat) (s : State) : Host.Outcome State Fault Refusal :=
  .next (match s.granuleOf granule with
    | none => s
    | some x =>
      if x.copying.testBit part then
        let x := { x with on := x.on ||| 2 ^ part, copying := x.copying ^^^ 2 ^ part, heat := x.heat.put part 0 }
        let whole := x.on == 0xFFFF && !x.moving
        let s := s.setTier (fun t => { t with granules := t.granules.put granule x
                                              promotions := t.promotions + boolNat whole })
        (s.endTierJobs).pump
      else s)

/-- TIER_PART_DEMOTION_DONE (R254): a home has written back its part's dirty lines, removed the tag and freed the slot; a
granule that takes the slots of this one begins to copy its part. -/
def execTierPartDemotionDone (granule part : Nat) (s : State) : Host.Outcome State Fault Refusal :=
  .next (match s.granuleOf granule with
    | none => s
    | some x =>
      if x.leaving.testBit part then
        let x := { x with on := x.on &&& (0xFFFF ^^^ 2 ^ part), leaving := x.leaving ^^^ 2 ^ part
                          dirty := x.dirty.del part, heat := x.heat.del part }
        let gone := x.on == 0 && x.leaving == 0 && x.copying == 0
        let s := s.setTier (fun t => { t with
          granules := if gone then t.granules.del granule else t.granules.put granule x
          demotions := t.demotions + boolNat gone })
        let s := s.setTier (fun t => { t with granules := t.granules.mapV (fun _ y =>
          if y.after = some granule then
            { y with copying := y.copying ||| 2 ^ part, after := if gone then none else y.after } else y) })
        (s.endTierJobs).pump
      else s)

/-! ## The tier controller (R260, R261) -/

/-- STK work of the current tick reaches SKIP_PCT of its capacity. -/
def State.tierSkips (s : State) : Bool :=
  let lull := s.isLull s.tick.now
  let cap := (s.capacityOf 0 lull s.period).stk
  !lull && decide (cap * s.fld F.TIR_RATE_SKIP_PCT ≤ s.tick.stkNow * 100)

/-- TIER_PROMOTION: the controller takes the oldest nomination, in on-device mode, up to MAX_PROMOTE promotions a tick. -/
def execTierPromotion (s : State) : Host.Outcome State Fault Refusal :=
  .next (match s.tier.noms with
    | [] => s
    | n :: rest =>
      if s.assisted 7 || decide (s.fld F.TIR_RATE_MAX_PROMOTE ≤ s.tier.started) then s
      else
        let skips := s.tierSkips
        let s := s.setTier (fun t => { t with noms := rest })
        if skips then s.setTier (fun t => { t with skipped := t.skipped + 1 })
        else match s.promote n.granule n.key (some n.estimate) with
          | (s, .started) => s.setTier (fun t => { t with started := t.started + 1 })
          | (s, _) => s)

/-! ## Tier descriptors (R264, R265) -/

def tdVa (d : DescBits) : Nat := dfield d 16 8
def tdLen (d : DescBits) : Nat := dfield d 24 8

def tierCheck (d : Desc) (_ : State) : Option Cpl :=
  let b := d.bits
  if tdVa b % 4096 ≠ 0 ∨ tdLen b % 4096 ≠ 0 ∨ tdLen b < 4096 ∨ 2 ^ 36 < tdLen b then
    some (cpl ST_REFUSED_FIT TIR_OPERAND) else none

def tierCost (d : Desc) (_ : State) : Cost :=
  if dOpcode d.bits = 0x8B then {} else { stk := tdLen d.bits }

/-- The range of a tier descriptor, in pieces that end at 64 KiB boundaries of its VA. -/
def tierTiles (va : Nat) : Nat → Nat → Nat → List (List Need)
  | 0, _, _ => []
  | n + 1, off, len =>
    if len = 0 then []
    else
      let k := min len (65536 - (va + off) % 65536)
      [⟨va + off, k, 1, false⟩] :: tierTiles va n (off + k) (len - k)

/-- Granules that hold any byte of the pieces. -/
def granulesOf (segs : List Seg) : List Nat :=
  ((segs.filter (fun p => !p.host)).flatMap (fun p =>
    (List.range (granOf (p.addr + p.len - 1) - granOf p.addr + 1)).map (fun i => granOf p.addr + i))).eraseDups

/-- Granules the tier can hold. -/
def State.tierCapacity (s : State) : Nat := (((List.range 24).map s.tierSlots).foldl (· + ·) 0) / 16

def State.pinnedCount (s : State) : Nat := (s.tier.granules.filter (fun e => e.2.pinned)).length

/-- One granule of a tier descriptor: the state, and the reason with which it is dropped, if it is. -/
def State.tierOne (s : State) (op key g : Nat) : State × Option Nat :=
  if op = 0x89 then
    match s.granuleOf g with
    | none => (s, none)
    | some x => if x.pinned then (s, some TIR_PINNED) else (s.demote g, none)
  else if op = 0x8B then
    (s.setTier (fun t => { t with granules := t.granules.upd g (fun x => { x with pinned := false }) }), none)
  else
    match s.promote g key none with
    | (s, .noSlot) => (s, some TIR_NO_SLOT)
    | (s, _) =>
      if op = 0x88 then (s, none)
      else if (match s.granuleOf g with | some x => x.pinned | none => false) then (s, none)
      else if s.fld F.TIR_RATE_PIN_MAX_PCT * s.tierCapacity < (s.pinnedCount + 1) * 100 then (s, some TIR_PIN_LIMIT)
      else (s.setTier (fun t => { t with granules := t.granules.upd g (fun x => { x with pinned := true }) }), none)

/-- The granules of a tier descriptor in turn: the state, how many are dropped, and the largest reason. -/
def State.tierOver (s : State) (op key : Nat) : List Nat → State × Nat × Nat
  | [] => (s, 0, 0)
  | g :: l =>
    match s.tierOne op key g with
    | (s, some r) => let (s, n, m) := State.tierOver s op key l; (s, n + 1, Nat.max r m)
    | (s, none) => State.tierOver s op key l

/-- A tier descriptor runs over the granules of its range; while one of them is being moved it waits (R254). -/
def State.tierRow (s : State) (tok op : Nat) : State :=
  match s.desc tok with
  | none => s
  | some d =>
    if dOpcode d.bits = op ∧ s.mayBegin tok d = true then
      match s.xlateTiles tok d (tierTiles (tdVa d.bits) (tdLen d.bits / 65536 + 2) 0 (tdLen d.bits)) [] with
      | (s, none) => s
      | (s, some (segs, stop)) =>
        let gs := (granulesOf (segs.flatten.flatten))
        if gs.any s.granuleMoves then s
        else
          s.runDesc tok op (fun d s =>
            let (s, dropped, reason) := s.tierOver op (dKeySlot d.bits) gs
            (s.setTier (fun t => { t with jobs := t.jobs ++
              [{ tok := tok, granules := gs, done := gs.length - dropped, dropped := dropped, reason := reason
                 stop := stop.map (fun c => (c.status, c.reason, c.result)) }] }), none)) |>.endTierJobs
    else s

def execTierPromote (tok : Nat) (s : State) : Host.Outcome State Fault Refusal := .next (s.tierRow tok 0x88)
def execTierDemote (tok : Nat) (s : State) : Host.Outcome State Fault Refusal := .next (s.tierRow tok 0x89)
def execTierPin (tok : Nat) (s : State) : Host.Outcome State Fault Refusal := .next (s.tierRow tok 0x8A)
def execTierUnpin (tok : Nat) (s : State) : Host.Outcome State Fault Refusal := .next (s.tierRow tok 0x8B)

/-! ## The fetch deadline (R266 to R270) -/

/-- A descriptor that reads an object with a deadline path: LOOKUP, SRH_QUERY. -/
def hasDeadline (op : Nat) : Bool := op == 0x22 || op == 0x44

/-- A late fetch is counted and shown. -/
def State.lateFetch (s : State) (atIssue : Bool) : State :=
  (s.setTier (fun t => if atIssue then { t with lateAtIssue := t.lateAtIssue + 1 }
                       else { t with lateAtDeadline := t.lateAtDeadline + 1 })).setEvt F.TIR_EVT_LATE

/-- R267: the operations of the tick now running that still wait have passed their fetch deadline. What each of them still
misses is late; it takes its cheaper path when its row is taken. -/
def State.markLate (s : State) : State :=
  { s with rings := { s.rings with descs := s.rings.descs.mapV (fun _ d =>
    if d.phase == .running && hasDeadline (dOpcode d.bits) && decide (d.admitTick ≤ s.tick.now) then { d with late := true }
    else d) } }

/-! ## Boundary actions -/

/-- R259: counters are halved `n` times. -/
def TierState.age (t : TierState) (n : Nat) : TierState :=
  { t with sketch := t.sketch.mapV (fun _ c => c / 2 ^ n)
           granules := t.granules.mapV (fun _ x => { x with heat := x.heat.mapV (fun _ c => c / 2 ^ n) }) }

/-- R262: the sweep of a lull tick. -/
def State.tierSweep (s : State) : State :=
  let s := s.setTier (fun t => { t with granules := t.granules.mapV (fun _ x => { x with dirty := [] }) })
  if s.assisted 7 then s
  else
    (s.tier.granules.filter (fun e => !e.2.pinned && !e.2.moving && decide (e.2.hot < s.fld F.TIR_POLICY_DEMOTE_BELOW))).foldl
      (fun s e => s.demote e.1) s

/-- Nominations, hottest first; those equally hot keep their order. -/
def sortNoms (l : List Nomination) : List Nomination :=
  l.foldl (fun acc n =>
    (acc.takeWhile (fun m => decide (n.estimate ≤ m.estimate))) ++ [n]
      ++ acc.dropWhile (fun m => decide (n.estimate ≤ m.estimate))) []

/-- Cut a list into lists of `k`. -/
def chunksOf {α : Type} (k : Nat) : Nat → List α → List (List α)
  | 0, _ => []
  | n + 1, l => if l.isEmpty then [] else l.take k :: chunksOf k n (l.drop k)


/-- R263: in host-assisted mode the nominations of the tick just ended are posted, the rest dropped. -/
def State.tierAssist (s : State) : State :=
  if !s.assisted 7 then s
  else
    let l := sortNoms s.tier.noms
    let max := 5 * s.fld F.TIR_ASSIST_MAX_RECORDS
    let s := s.setTier (fun t => { t with noms := [], nomDrops := t.nomDrops + (l.length - max) })
    let s := if max < l.length then s.setEvt F.TIR_EVT_NOM_DROPPED else s
    (chunksOf 5 (l.length + 1) (l.take max)).foldl (fun (s : State) c =>
      let idx := List.range c.length
      let f := idx.map (fun i => (16 + 4 * i, 4, ((c.map (·.granule)).getD i 0)))
        ++ idx.map (fun i => (40 + i, 1, ((c.map (·.estimate)).getD i 0))) ++ [(39, 1, c.length)]
      s.postAssist s.assistPort 7 0x10 (assistOperands 0x10 f)) s

/-- R250, R257: the granules that hold slots of region `h` beyond `slots` of them are demoted at once, coldest first. -/
def State.drainTier (s : State) (h slots : Nat) : State :=
  let holds := fun (e : Nat × TierGranule) => (List.range 16).any (fun i => tierHome e.1 i == h &&
    (e.2.on ||| e.2.copying ||| e.2.leaving).testBit i)
  let step := fun (s : State) (_ : Nat) =>
    if s.slotsUsed h ≤ slots then s
    else match (s.tier.granules.filter holds).foldl (fun (best : Option (Nat × TierGranule)) e => match best with
        | none => some e
        | some b => if e.2.hot < b.2.hot then some e else best) none with
      | none => s
      | some (g, _) => s.setTier (fun t => { t with
          granules := (t.granules.del g).mapV (fun _ y =>
            if y.after = some g then { y with copying := 0xFFFF ^^^ y.on, after := none } else y)
          demotions := t.demotions + 1 })
  (((List.range s.tier.granules.length).foldl step s).endTierJobs).pump

/-- R256: before a key slot's zeroisation completes, every part tagged with it is removed without write-back. -/
def State.tierForget (s : State) (key : Nat) : State :=
  let gone := (s.tier.granules.filter (fun e => e.2.key == key)).map Prod.fst
  (s.setTier (fun t => { t with granules := (t.granules.keep (fun _ x => x.key != key)).mapV (fun _ y =>
                                  match y.after with
                                  | some v => if gone.contains v then { y with copying := 0xFFFF ^^^ y.on, after := none } else y
                                  | none => y)
                                noms := t.noms.filter (fun n => n.key != key) })).endTierJobs

end Sys2Proof.Machine
end

