-- ==== Sys2Proof/Machine/Codec.lean ====
section
/-! DEFINITION. Birch, the codec: code tables and their images, sub-streams, coded blocks (chapter 9). -/

namespace Sys2Proof.Machine

/-! ## Bits -/

/-- `n` bits of a value, most significant first. -/
def bitsMsb : Nat → Nat → List Bool
  | 0, _ => []
  | n + 1, v => v.testBit n :: bitsMsb n v

/-- The number that bits spell, most significant first. -/
def natMsb (l : List Bool) : Nat := l.foldl (fun v b => 2 * v + boolNat b) 0

def bytesToBits (l : List Byte) : List Bool := l.flatMap (fun b => bitsMsb 8 b.toNat)

/-- Bytes of a bit string, most significant bit first; the last byte is padded with zeros. -/
def bitsToBytes : Nat → List Bool → List Byte
  | 0, _ => []
  | n + 1, l =>
    if l.isEmpty then []
    else
      let h := l.take 8
      BitVec.ofNat 8 (natMsb h * 2 ^ (8 - h.length)) :: bitsToBytes n (l.drop 8)

/-! ## Codecs (Tables 9-2 and 9-4) -/

def isEpe (c : Nat) : Bool := c == 2 || c == 3 || c == 4
def isZrc (c : Nat) : Bool := c == 5 || c == 6 || c == 7
/-- Element bytes, exponent bits, mantissa bits of an EPE format. -/
def epeSize (c : Nat) : Nat := if c = 2 then 4 else 2
def epeExp (c : Nat) : Nat := if c = 4 then 5 else 8
def epeMan (c : Nat) : Nat := if c = 2 then 23 else if c = 3 then 7 else 10
/-- Bytes of the sign-mantissa plane of a sub-stream. -/
def epePlane (c : Nat) : Nat := if c = 2 then 192 else if c = 3 then 128 else 176
def zrcSize (c : Nat) : Nat := if c = 5 then 1 else if c = 6 then 2 else 4

def exponentOf (c x : Nat) : Nat := x / 2 ^ epeMan c % 2 ^ epeExp c
/-- sign × 2^(b − 1) + mantissa. -/
def signMan (c x : Nat) : Nat := x / 2 ^ (epeMan c + epeExp c) * 2 ^ epeMan c + x % 2 ^ epeMan c
def joinElem (c e sm : Nat) : Nat :=
  sm / 2 ^ epeMan c * 2 ^ (epeMan c + epeExp c) + e * 2 ^ epeMan c + sm % 2 ^ epeMan c

/-! ## Code tables (R287) -/

/-- Lengths by exponent value, and the length of ESC. -/
structure Lens where
  lens : List Nat
  esc : Nat
  deriving DecidableEq, Repr

/-- Table 9-7. -/
def imageLens (img : List Byte) : Lens :=
  { lens := (List.range 256).map (fun v =>
      let b := (img.getD (v / 2) 0).toNat
      if v % 2 = 0 then b % 16 else b / 16)
    esc := (img.getD 128 0).toNat % 16 }

def imageFormat (img : List Byte) : Nat := (img.getD 129 0).toNat
def imageCrc (img : List Byte) : Nat := leNat ((img.drop 132).take 4)

/-- The image of a table. -/
def makeImage (l : Lens) (format : Nat) : List Byte :=
  let head := (List.range 128).map (fun i => BitVec.ofNat 8 (l.lens.getD (2 * i) 0 + 16 * l.lens.getD (2 * i + 1) 0))
    ++ [BitVec.ofNat 8 l.esc, BitVec.ofNat 8 format, 0, 0]
  head ++ leBytes 4 (crc32c head) ++ zeros 120

def validImage (img : List Byte) : Bool :=
  let l := imageLens img
  let f := imageFormat img
  img.length == 256 && isEpe f && l.lens.all (fun n => decide (n ≤ 12)) && decide (1 ≤ l.esc) && decide (l.esc ≤ 12)
    && (f != 4 || (l.lens.drop 32).all (fun n => n == 0)) && l.lens.any (fun n => n != 0)
    && ((l.esc :: l.lens).filter (fun n => n != 0)).foldl (fun a n => a + 2 ^ (12 - n)) 0 == 4096
    && imageCrc img == crc32c (img.take 132)

/-- A code: symbol (256 for ESC) and its bits, most significant first. -/
structure Code where
  sym : Nat
  bits : List Bool
  deriving DecidableEq, Repr

/-- Canonical codes: by length, then by symbol, consecutive. -/
def canonical (l : Lens) : List Code :=
  let syms := (List.range 257).map (fun v => (v, if v = 256 then l.esc else l.lens.getD v 0))
  ((List.range 13).foldl (fun (a : List Code × Nat) n =>
    if n = 0 then a
    else
      (syms.filter (fun e => e.2 == n)).foldl (fun (a : List Code × Nat) e =>
        (a.1 ++ [{ sym := e.1, bits := bitsMsb n a.2 }], a.2 + 1)) (a.1, 2 * a.2)) ([], 0)).1

def codeOf (t : List Code) (v : Nat) : Option Code := t.find? (fun c => c.sym == v)

/-- The code at the head of a bit string. -/
def headCode (t : List Code) (l : List Bool) : Option Code :=
  t.find? (fun c => decide (c.bits.length ≤ l.length) && l.take c.bits.length == c.bits)

/-! ## Package-merge (R288) -/

/-- A package: weight, lowest symbol in it, the symbols of its leaves. -/
structure Pack where
  weight : Nat
  low : Nat
  syms : List Nat
  deriving DecidableEq, Repr

def Pack.before (a b : Pack) : Bool := decide (a.weight < b.weight) || (a.weight == b.weight && decide (a.low < b.low))

def insertPack (p : Pack) : List Pack → List Pack
  | [] => [p]
  | q :: t => if p.before q then p :: q :: t else q :: insertPack p t

def sortPacks (l : List Pack) : List Pack := l.foldl (fun acc p => insertPack p acc) []

/-- Packages of adjacent pairs. -/
def pairUp : List Pack → List Pack
  | a :: b :: t => { weight := a.weight + b.weight, low := Nat.min a.low b.low, syms := a.syms ++ b.syms } :: pairUp t
  | _ => []

/-- Least-cost lengths of at most 12 for the symbols with a weight. -/
def packageMerge (leaves : List Pack) : Tab Nat :=
  let level := fun (prev : List Pack) (_ : Nat) => sortPacks (leaves ++ pairUp prev)
  let top := (List.range 11).foldl level (sortPacks leaves)
  ((top.take (2 * (leaves.length - 1))).flatMap Pack.syms).foldl (fun (t : Tab Nat) v => t.updD 0 v (· + 1)) []

/-- The table that a histogram gives (R288). -/
def profileLens (hist : Tab Nat) : Lens :=
  let leaves := (hist.filter (fun e => e.2 != 0)).map (fun e => ({ weight := e.2, low := e.1, syms := [e.1] } : Pack))
  let t := packageMerge (leaves ++ [{ weight := 1, low := 256, syms := [256] }])
  { lens := (List.range 256).map (fun v => t.get 0 v), esc := t.get 0 256 }

/-! ## Sub-streams (R280 to R283) -/

/-- Groups of codes: a group closes after its eighth code or after a long one. -/
def countGroups (long : List Bool) : Nat :=
  let (g, open_) := long.foldl (fun (a : Nat × Nat) l =>
    if l || a.2 + 1 == 8 then (a.1 + 1, 0) else (a.1, a.2 + 1)) (0, 0)
  if open_ = 0 then g else g + 1

/-- The elements of `n` bytes each that bytes hold. -/
def elements (n : Nat) : Nat → List Byte → List Nat
  | 0, _ => []
  | k + 1, l => leNat (l.take n) :: elements n k (l.drop n)

/-- An EPE sub-stream: its bytes and its decode time. -/
def epeEncode (c : Nat) (t : List Code) (data : List Byte) : List Byte × Nat :=
  let xs := elements (epeSize c) (256 / epeSize c) data
  let esc := ((codeOf t 256).map Code.bits).getD []
  let codes := xs.map (fun x =>
    let e := exponentOf c x
    match codeOf t e with
    | some k => (k.bits, decide (8 < k.bits.length))
    | none => (esc ++ bitsMsb (epeExp c) e, true))
  let bits := codes.flatMap Prod.fst
  let b := epeMan c + 1
  let plane := ((List.range xs.length).map (fun k => signMan c (xs.getD k 0) * 2 ^ (k * b))).foldl (· + ·) 0
  (bitsToBytes (bits.length + 1) bits ++ leBytes (epePlane c) plane, Nat.max 16 (countGroups (codes.map Prod.snd)))

/-- Decode `n` exponents from a bit string. -/
def decodeExps (c : Nat) (t : List Code) : Nat → List Bool → List Nat → Option (List Nat)
  | 0, _, acc => some acc.reverse
  | n + 1, l, acc =>
    match headCode t l with
    | none => none
    | some k =>
      let rest := l.drop k.bits.length
      if k.sym = 256 then
        if rest.length < epeExp c then none
        else decodeExps c t n (rest.drop (epeExp c)) (natMsb (rest.take (epeExp c)) :: acc)
      else decodeExps c t n rest (k.sym :: acc)

/-- The 256 bytes of an EPE sub-stream. -/
def epeDecode (c : Nat) (t : List Code) (sub : List Byte) : Option (List Byte) :=
  let n := 256 / epeSize c
  let p := epePlane c
  if sub.length < p then none
  else
    let plane := leNat (sub.drop (sub.length - p))
    let b := epeMan c + 1
    match decodeExps c t n (bytesToBits (sub.take (sub.length - p))) [] with
    | none => none
    | some es => some ((List.range n).flatMap (fun k =>
        leBytes (epeSize c) (joinElem c (es.getD k 0) (plane / 2 ^ (k * b) % 2 ^ b))))

/-- ZRC tokens of elements: maximal runs of zeros, then of others, at most 15 of each to a token (assumption 18). -/
def zrcTokens : Nat → List Nat → List (Nat × List Nat)
  | 0, _ => []
  | n + 1, l =>
    if l.isEmpty then []
    else
      let z := Nat.min 15 (l.takeWhile (· == 0)).length
      let raw := ((l.drop z).takeWhile (· != 0)).take 15
      (z, raw) :: zrcTokens n (l.drop (z + raw.length))

def zrcEncode (c : Nat) (data : List Byte) : List Byte × Nat :=
  let w := zrcSize c
  let ts := zrcTokens 257 (elements w (256 / w) data)
  (ts.flatMap (fun t => BitVec.ofNat 8 (16 * t.1 + t.2.length) :: t.2.flatMap (leBytes w)), Nat.max 16 ts.length)

/-- The elements that tokens cover. -/
def zrcParse (w : Nat) : Nat → List Byte → List Byte → Option (List Byte)
  | 0, l, acc => if l.isEmpty then some acc else none
  | n + 1, l, acc =>
    match l with
    | [] => some acc
    | h :: t =>
      let z := h.toNat / 16
      let k := h.toNat % 16
      if t.length < k * w then none else zrcParse w n (t.drop (k * w)) (acc ++ zeros (z * w) ++ t.take (k * w))

def zrcDecode (c : Nat) (sub : List Byte) : Option (List Byte) :=
  match zrcParse (zrcSize c) 4096 sub [] with
  | some l => if l.length = 256 then some l else none
  | none => none

/-! ## Blocks (R276 to R279) -/

/-- What an encode stores: the bytes of the used sectors and the metadata entry, but for its key slot. -/
structure Coded where
  bytes : List Byte
  codec : Nat
  sectors : Nat
  cls : Nat
  table : Nat
  deriving DecidableEq, Repr

def rawBlock (data : List Byte) : Coded := { bytes := data, codec := 1, sectors := 16, cls := 0, table := 0 }

def classOf (d : Nat) : Nat := if d ≤ 16 then 1 else if d ≤ 32 then 2 else 3

/-- Encode 4,096 bytes. `img` is the table's image, for EPE codecs. -/
def encodeBlock (c table : Nat) (img : List Byte) (data : List Byte) : Coded :=
  if c = 1 then rawBlock data
  else
    let t := if isEpe c then canonical (imageLens img) else []
    let subs := (List.range 16).map (fun i =>
      let l := (data.drop (256 * i)).take 256
      if isEpe c then epeEncode c t l else zrcEncode c l)
    let ends := (subs.foldl (fun (a : List Nat × Nat) x => (a.1 ++ [a.2 + x.1.length], a.2 + x.1.length)) ([], 48)).1
    let last := ends.getLastD 48
    let d := (subs.map Prod.snd).foldl Nat.max 16
    let sectors := ceilDiv last 256
    if 14 < sectors ∨ 64 < d then rawBlock data
    else
      let tail := ends.flatMap (leBytes 2) ++ subs.flatMap Prod.fst
      let head := leBytes 2 0x5C0B ++ [BitVec.ofNat 8 (c + 16 * classOf d), BitVec.ofNat 8 (sectors - 1)]
        ++ leBytes 2 (if isEpe c then table else 0) ++ [0, 0] ++ leBytes 4 (if isEpe c then imageCrc img else 0)
        ++ leBytes 4 (crc32c tail)
      { bytes := head ++ tail ++ zeros (256 * sectors - last), codec := c, sectors := sectors, cls := classOf d
        table := if isEpe c then table else 0 }

/-- Table 9-1. -/
def Coded.entry (x : Coded) (key : Nat) : Nat :=
  (x.sectors - 1) + at_ 4 x.codec + at_ 8 x.cls + at_ 12 x.table + at_ 22 key

/-! Table 9-3: the header of a coded block. -/
def hdMagic (l : List Byte) : Nat := leNat (l.take 2)
def hdForm (l : List Byte) : Nat := (l.getD 2 0).toNat
def hdSize (l : List Byte) : Nat := (l.getD 3 0).toNat
def hdTable (l : List Byte) : Nat := leNat ((l.drop 4).take 2)
def hdTableCrc (l : List Byte) : Nat := leNat ((l.drop 8).take 4)
def hdBlockCrc (l : List Byte) : Nat := leNat ((l.drop 12).take 4)
def hdEnds (l : List Byte) : List Nat := (List.range 16).map (fun i => leNat ((l.drop (16 + 2 * i)).take 2))

/-- How a coded block fails the checks of R300: corrupt stored data, or otherwise. -/
inductive BlockFail where
  | corrupt | other
  deriving DecidableEq, Repr

/-- The ends rise from 48 and stay within the sectors. -/
def endsOk (ends : List Nat) (size : Nat) : Bool :=
  (ends.foldl (fun (a : Bool × Nat) e => (a.1 && decide (a.2 ≤ e) && decide (e ≤ size), e)) (true, 48)).1

/-- The checks of R300 over a block's used sectors against an entry's CODEC, CLASS, SECTORS and TABLE_ID. `img` is the
image of the table named, when it is VALID and held by the slice. -/
def decodeBlock (l : List Byte) (codec cls sectors table : Nat) (img : Option (List Byte)) :
    Except BlockFail (List Byte) :=
  let ends := hdEnds l
  if hdMagic l ≠ 0x5C0B then .error .corrupt
  else if hdForm l ≠ codec + 16 * cls ∨ hdSize l ≠ sectors - 1 ∨ hdTable l ≠ table then .error .other
  else if !(isEpe codec || isZrc codec) || !endsOk ends (256 * sectors) then .error .other
  else if hdBlockCrc l ≠ crc32c ((l.take (ends.getLastD 48)).drop 16) then .error .corrupt
  else
    let t := match img with | some i => i | none => []
    if isEpe codec && (img.isNone || imageFormat t != codec || imageCrc t != hdTableCrc l) then .error .other
    else
      let codes := if isEpe codec then canonical (imageLens t) else []
      let subs := (List.range 16).map (fun i =>
        let a := if i = 0 then 48 else ends.getD (i - 1) 48
        let sub := (l.take (ends.getD i 0)).drop a
        if isEpe codec then epeDecode codec codes sub else zrcDecode codec sub)
      if subs.all Option.isSome then .ok (subs.flatMap (fun x => x.getD [])) else .error .other

end Sys2Proof.Machine
end

