-- ==== Sys2Proof/Machine/CodecRows.lean ====
section
/-! DEFINITION. Compressed blocks at their homes, and the codec descriptors (chapter 9). -/

namespace Sys2Proof.Machine

def CDC_OPERAND : Nat := 0x0901
def CDC_TABLE_STATE : Nat := 0x0902
def CDC_TABLE_FORMAT : Nat := 0x0903
def CDC_PROFILE_EMPTY : Nat := 0x0904
def CDC_HOST : Nat := 0x0905
def CDC_OVERLAP : Nat := 0x0906
def CDC_DECODE_ERROR : Nat := 0x0907
def CDC_ADOPT_SHORT : Nat := 0x0908
def CDC_NOT_LOCAL : Nat := 0x0909
def CDC_BUILD_LIMIT : Nat := 0x090A

def State.setCdc (s : State) (f : CdcState → CdcState) : State := { s with cdc := f s.cdc }

def State.cdcTable (s : State) (n : Nat) : CdcTable := s.cdc.tables.get {} n
def State.setCdcTable (s : State) (n : Nat) (t : CdcTable) : State :=
  s.setCdc (fun c => { c with tables := c.tables.put n t })

/-- The image of a table that is VALID and held by the slice. -/
def State.codecImage (s : State) (slice table : Nat) : Option (List Byte) :=
  let t := s.cdcTable table
  if t.phase = .valid ∧ t.slice = slice then some t.image else none

/-! ## Compressed reads (R291 to R300) -/

/-- The compression attribute (R291). -/
def caCompressed (a : Nat) : Bool := a.testBit 7
def caMaxClass (a : Nat) : Nat := a / 32 % 4
/-- Charge factor of a class (R53). -/
def classFactor (c : Nat) : Nat := if c = 2 then 2 else if c = 3 then 4 else 1

/-- A block that fails R300: counted, recorded, reported where it is corrupt. -/
def State.decodeError (s : State) (d : Nat) (f : BlockFail) : State :=
  let (loc, s) := s.draw
  let s := s.setCdc (fun c => { c with decodeErrors := c.decodeErrors + 1
                                       lastError := (d, CDC_DECODE_ERROR, loc % 2 ^ 32, s.tick.now % 2 ^ 32) })
  let s := s.setEvt F.CDC_EVT_DECODE_ERROR
  match f with
  | .corrupt => s.queueFault { cls := 0x30, reason := CDC_DECODE_ERROR, location := locDie (homeOf d).die, addr := d, detail := 1 }
  | .other => s

/-- A compressed read of the block at DPA `d` under key slot `key`, for a slice (R295, R299, R300): its logical bytes, and
its poisoned lines as a mask. -/
def State.readBlock (s : State) (key slice d maxClass : Nat) : State × List Byte × Nat :=
  let m := s.metaOf (d / 4096)
  let codec := metaCodec m
  let s := s.setCdc (fun c => { c with decoded := c.decoded + 1 })
  if codec ≤ 1 then
    let (bytes, mask) := s.homeRead key d 4096
    (s.touch key d 4096 false, bytes, mask)
  else
    let n := 256 * metaSectors m
    let (bytes, mask) := s.homeRead key d n
    let s := s.touch key d n false
    let s := if maxClass < metaClass m then
        (s.setCdc (fun c => { c with classOver := c.classOver + 1 })).setEvt F.CDC_EVT_CLASS_OVER
      else s
    if mask != 0 then (s, s.poisonBytes d 4096, 2 ^ 64 - 1)
    else match decodeBlock bytes codec (metaClass m) (metaSectors m) (metaTable m) (s.codecImage slice (metaTable m)) with
      | .ok l => (s, l, 0)
      | .error f => (s.decodeError d f, s.poisonBytes d 4096, 2 ^ 64 - 1)

/-- A read of a block as an operand's compression attribute says (R291). -/
def State.readOperandBlock (s : State) (key slice d attr : Nat) : State × List Byte × Nat :=
  if caCompressed attr then s.readBlock key slice d (caMaxClass attr)
  else
    let (bytes, mask) := s.homeRead key d 4096
    (s.touch key d 4096 false, bytes, mask)

/-! ## Descriptors: operands and their checks (R289) -/

def ccTable (d : DescBits) (b : Nat) : Nat := dfield d b 2

/-- LENGTH of the codec descriptors that have one. -/
def ccLen (d : DescBits) : Nat := if dOpcode d = 0x80 ∨ dOpcode d = 0x84 then dfield d 24 8 else dfield d 32 8

def lenOk (n : Nat) : Bool := n % 4096 == 0 && decide (4096 ≤ n) && decide (n ≤ 2 ^ 36)

def overlaps (a b len : Nat) : Bool := decide (a < b + len) && decide (b < a + len)

/-- Arrival checks of the codec descriptors. -/
def codecCheck (d : Desc) (s : State) : Option Cpl :=
  let b := d.bits
  let op := dOpcode b
  let bad := some (cpl ST_REFUSED_FIT CDC_OPERAND)
  let va := dfield b 16 8
  let vb := dfield b 24 8
  let len := ccLen b
  if op = 0x80 then
    let fmt := dfield b 34 1
    let finish := b.getLsbD 281
    if va % 4096 ≠ 0 ∨ 1023 < ccTable b 32 ∨ !(isEpe fmt) ∨ !(lenOk len || (len == 0 && finish)) then bad else none
  else if op = 0x81 then
    let c := dfield b 40 1
    if va % 4096 ≠ 0 ∨ vb % 4096 ≠ 0 ∨ !lenOk len ∨ c = 0 ∨ 7 < c ∨ (isEpe c ∧ 1023 < ccTable b 42) then bad
    else if va ≠ vb ∧ overlaps va vb len = true then some (cpl ST_REFUSED_FIT CDC_OVERLAP)
    else none
  else if op = 0x82 then
    if va % 4096 ≠ 0 ∨ vb % 4096 ≠ 0 ∨ !lenOk len then bad
    else if overlaps va vb len = true then some (cpl ST_REFUSED_FIT CDC_OVERLAP)
    else none
  else if op = 0x83 then
    if va % 4096 ≠ 0 ∨ vb % 4096 ≠ 0 ∨ !lenOk len then bad else none
  else if op = 0x84 then
    if !lenOk len then bad
    else if !s.isSelf va then some (cpl ST_PERMISSION CDC_NOT_LOCAL)
    else none
  else if op = 0x86 then (if 1023 < ccTable b 16 then bad else none)
  else if va % 256 ≠ 0 ∨ 1023 < ccTable b 24 then bad
  else none

/-- Charges of the codec descriptors (R293, Table 9-9). -/
def codecCost (d : Desc) (s : State) : Cost :=
  let b := d.bits
  let op := dOpcode b
  let len := ccLen b
  let kib := len / 1024
  let meta_ := 64 * ceilDiv (len / 4096) 8
  if op = 0x80 then { stk := len, cdc := kib }
  else if op = 0x81 then { stk := 2 * len + meta_, cdc := 4 * kib }
  else if op = 0x82 then
    let a := dfield b 40 1
    if caCompressed a then { stk := 2 * len + meta_, cdc := kib * classFactor (caMaxClass a) } else { stk := 2 * len }
  else if op = 0x83 then
    Cost.add { stk := len + meta_ }
      (s.fabCost (dSlice b) (dfield b 24 8) (65 * (len / 4096) + (if b.getLsbD 328 then 2 else 0)))
  else if op = 0x84 then { stk := len + meta_, cdc := kib }
  else if op = 0x85 ∨ op = 0x87 then { stk := 256 }
  else {}

/-- Block `i` of a range, as a tile of its own. -/
def blockTiles (len : Nat) (f : Nat → List Need) : List (List Need) := (List.range (len / 4096)).map (fun i => f (4096 * i))

/-- The address of a tile's operand, when it is of the device. -/
def deviceAddr (segs : List (List Seg)) (k : Nat) : Option Nat :=
  match segs.getD k [] with
  | ⟨false, a, _⟩ :: _ => some a
  | _ => none

/-- Tiles up to the first whose compressed operand `k` lies in host memory, which faults (R292). -/
def cutHost (k : Nat) (va : Nat) (done : List (List (List Seg))) (stop : Option Cpl) :
    List (List (List Seg)) × Option Cpl :=
  let ok := done.takeWhile (fun t => (deviceAddr t k).isSome)
  if ok.length = done.length then (done, stop)
  else (ok, some { status := ST_PERMISSION, reason := CDC_HOST, result := va + 4096 * ok.length })

/-- The end of a run over blocks: tiles finished and not run, or the operation's own completion. -/
def blocksEnd (total finished : Nat) (stop : Option Cpl) (own : Cpl) : Cpl :=
  match stop with
  | some c => { c with done := finished, dropped := total - finished }
  | none => { own with done := finished }

/-! ## CDC_ENCODE -/

/-- Encode one block: the sectors it takes, its class, whether it is RAW. -/
def State.encodeTile (s : State) (tok : Nat) (d : Desc) (ext : List Byte) (segs : List (List Seg)) :
    State × List Byte × Nat × Nat × Nat :=
  let b := d.bits
  let c := dfield b 40 1
  let table := ccTable b 42
  let src := segs.headD []
  let (s, data, poison, ext) := State.readSegs d src ext s
  let x := if poison then rawBlock data
    else encodeBlock c table ((s.cdcTable table).image) data
  match deviceAddr segs 1 with
  | none => (s, ext, x.sectors, x.cls, boolNat (x.codec == 1))
  | some a =>
    if !s.descServed d then (s.staleAccess, ext, x.sectors, x.cls, boolNat (x.codec == 1))
    else
      let bad := match deviceAddr segs 0 with
        | some sa => (List.range 64).filter (fun i => s.readsPoison (lineOf sa + i))
        | none => if poison then List.range 64 else []
      let s := s.creditWrite (.desc tok) (dKeySlot b) a x.bytes (descCredit d) (some (x.entry (dKeySlot b)))
      let s := if poison then bad.foldl (fun (s : State) i => s.markPoison .none (lineOf a + i)) s else s
      let raw := boolNat (x.codec == 1)
      (s.setCdc (fun c => { c with encoded := c.encoded + 1, rawStored := c.rawStored + raw }), ext, x.sectors, x.cls, raw)

/-- The table of an encode is VALID, of its slice and of its format (Table 9-8). -/
def State.encodeRefused (s : State) (d : Desc) : Option Cpl :=
  let c := dfield d.bits 40 1
  let t := s.cdcTable (ccTable d.bits 42)
  if !isEpe c then none
  else if t.phase ≠ .valid ∨ t.slice ≠ dSlice d.bits then some (cpl ST_PERMISSION CDC_TABLE_STATE)
  else if t.format ≠ c then some (cpl ST_REFUSED_FIT CDC_TABLE_FORMAT)
  else none

def creditRefused (d : Desc) (s : State) : Option Cpl :=
  if s.creditBarred d then some (cpl ST_PERMISSION CTR_SLICE) else none

/-- Blocks encoded in turn: sectors taken, highest class, RAW blocks. -/
def State.encodeOver (s : State) (tok : Nat) (d : Desc) (ext : List Byte) (tiles : List (List (List Seg))) :
    State × List Byte × Nat × Nat × Nat :=
  tiles.foldl (fun (a : State × List Byte × Nat × Nat × Nat) t =>
    let (s, ext, n, c, r) := a.1.encodeTile tok d a.2.1 t
    (s, ext, a.2.2.1 + n, Nat.max a.2.2.2.1 c, a.2.2.2.2 + r)) (s, ext, 0, 0, 0)

def encodeNeeds (b : DescBits) : List (List Need) :=
  blockTiles (ccLen b) (fun o => [⟨dfield b 16 8 + o, 4096, 1, false⟩, ⟨dfield b 24 8 + o, 4096, 2, false⟩])

def execCdcEncode (tok : Nat) (ext : List Byte) (s : State) : Host.Outcome State Fault Refusal :=
  .next (s.runTiles tok 0x81 (fun d s => (s.encodeRefused d).orElse (fun _ => creditRefused d s))
    (fun d _ => encodeNeeds d.bits)
    (fun d done stop s =>
      let (tiles, stop) := cutHost 1 (dfield d.bits 24 8) done stop
      let (s, _, sectors, cls, raw) := s.encodeOver tok d ext tiles
      (s, some (blocksEnd (ccLen d.bits / 4096) tiles.length stop
        { result := sectors % 2 ^ 32 + at_ 32 cls + at_ 40 (raw % 2 ^ 24) }))))

/-! ## CDC_DECODE -/

/-- Write a decoded block: its poisoned lines are marked in the destination. -/
def State.writeDecoded (s : State) (tok : Nat) (d : Desc) (dst : List Seg) (bytes : List Byte) (mask : Nat) : State :=
  let s := State.writeSegs tok d (descCredit d) dst bytes s
  match dst with
  | ⟨false, a, _⟩ :: _ => (maskBits mask 64).foldl (fun (s : State) i => s.markPoison .none (lineOf a + i)) s
  | _ => s

/-- Blocks decoded in turn, and whether one is poisoned. -/
def State.decodeOver (s : State) (tok : Nat) (d : Desc) (tiles : List (List (List Seg))) : State × Bool :=
  tiles.foldl (fun (a : State × Bool) t =>
    match deviceAddr t 0 with
    | none => a
    | some src =>
      if !a.1.descServed d then (a.1.staleAccess, true)
      else
        let (s, bytes, mask) := a.1.readOperandBlock (dKeySlot d.bits) (dSlice d.bits) src (dfield d.bits 40 1)
        (s.writeDecoded tok d (t.getD 1 []) bytes mask, a.2 || mask != 0)) (s, false)

def execCdcDecode (tok : Nat) (s : State) : Host.Outcome State Fault Refusal :=
  .next (s.runTiles tok 0x82 creditRefused
    (fun d _ => encodeNeeds d.bits)
    (fun d done stop s =>
      let (tiles, stop) := cutHost 0 (dfield d.bits 16 8) done stop
      let (s, poison) := s.decodeOver tok d tiles
      (s, some (blocksEnd (ccLen d.bits / 4096) tiles.length stop
        (if poison then cpl ST_POISONED CDC_DECODE_ERROR else {})))))

/-! ## CDC_SEND (R303) -/

/-- The CDC_ADOPT that a send submits. -/
def adoptBits (d : DescBits) (coded : Nat) : DescBits :=
  BitVec.ofNat 512 (0x84 + at_ 64 (dfield d 42 1) + at_ 96 (dfield d 44 4) + at_ 128 (dfield d 24 8) + at_ 192 (ccLen d)
    + at_ 256 coded)

/-- A SUBMIT to a queue of the device that holds a fabric address; to its own queues directly (R74, R170). -/
def State.submitTo (s : State) (tok addr queue : Nat) (bits : DescBits) (key : Nat) : State :=
  if s.isSelf addr then
    let q := s.subq queue
    if q.state ≠ .active ∨ s.ownId &&& sqSrcMask q.record ≠ sqSrcMatch q.record &&& sqSrcMask q.record then
      s.selfRefused tok ST_PERMISSION SUBQ_SOURCE
    else if 2 ^ sqLog q.record ≤ q.queue.length then s.selfRefused tok ST_ABORTED SUBQ_FULL
    else s.setSubq queue { q with queue := q.queue ++ [bits] }
  else
    s.originateFor tok { type := T_SUBMIT, dest := 0xC000 + faDevice addr, addr := faDevice addr * 2 ^ 50 + queue
                         length := 64, segLen := 64, data := leBytes 64 bits.toNat, key := key }

/-- Blocks sent in turn: the offset after them, how many are coded, and whether one is poisoned. -/
def State.sendOver (s : State) (tok : Nat) (d : Desc) (tiles : List (List (List Seg))) : State × Nat × Nat × Bool :=
  tiles.foldl (fun (a : State × Nat × Nat × Bool) t =>
    let (s, off, coded, poison) := a
    match deviceAddr t 0 with
    | none => (s, off + 4096, coded, poison)
    | some src =>
      if !s.descServed d then (s.staleAccess, off + 4096, coded, true)
      else
        let m := s.metaOf (src / 4096)
        let n := if metaCodec m ≤ 1 then 4096 else 256 * metaSectors m
        let (bytes, mask) := s.homeRead (dKeySlot d.bits) src n
        let s := s.touch (dKeySlot d.bits) src n false
        (s.fabPut tok d (dfield d.bits 24 8 + off) bytes, off + 4096, coded + boolNat (decide (1 < metaCodec m)),
         poison || mask != 0)) (s, 0, 0, false)

def sendNeeds (b : DescBits) : List (List Need) :=
  blockTiles (ccLen b) (fun o => [⟨dfield b 16 8 + o, 4096, 1, false⟩])

def execCdcSend (tok : Nat) (s : State) : Host.Outcome State Fault Refusal :=
  .next (s.runTiles tok 0x83 (fun _ _ => none)
    (fun d _ => sendNeeds d.bits)
    (fun d done stop s =>
      let b := d.bits
      let (tiles, stop) := cutHost 0 (dfield b 16 8) done stop
      let (s, _, coded, poison) := s.sendOver tok d tiles
      let s := if b.getLsbD 328 && stop.isNone then
          s.submitTo tok (dfield b 24 8) (dfield b 40 1) (adoptBits b coded) (s.keyField (dKeySlot b))
        else s
      (s, some (blocksEnd (ccLen b / 4096) tiles.length stop
        (if poison then cpl ST_POISONED CDC_DECODE_ERROR else {})))))

/-! ## CDC_ADOPT (R304, R305) -/

/-- The window that an adopt's address resolves through, with READ and WRITE: its base, or the refusal. -/
def State.adoptBase (s : State) (d : Desc) : Except Cpl (Nat × Nat) :=
  let a := dfield d.bits 16 8
  let e := s.window (faWindow a)
  match (s.windowCheck e s.ownId T_BULK_GET (faOffset a) (ccLen d.bits) false).orElse
      (fun _ => s.windowCheck e s.ownId T_BULK_PUT (faOffset a) (ccLen d.bits) false) with
  | some (st, r) => .error (cpl st r)
  | none => .ok (winBase e + faOffset a, winKey e)

/-- Adopt the block at `d`: whether its header passed. -/
def State.adoptBlock (s : State) (d : Desc) (key a : Nat) : State × Bool :=
  let (l, mask) := s.homeRead key a 4096
  let s := s.touch key a 64 false
  let codec := hdForm l % 16
  let cls := hdForm l / 16 % 4
  let sectors := hdSize l % 16 + 1
  let table := hdTable l % 1024
  let used := (List.range (4 * sectors)).any (fun i => mask.testBit i)
  let good := decide (sectors ≤ 14) && !used &&
    (match decodeBlock l codec cls sectors table (s.codecImage (dSlice d.bits) table) with
     | .ok _ => true | .error _ => false)
  if good then
    (s.setMeta (a / 4096) ((sectors - 1) + at_ 4 codec + at_ 8 cls + at_ 12 table + at_ 22 (dKeySlot d.bits)), true)
  else (s.setCdc (fun c => { c with adoptRejects := c.adoptRejects + 1 }), false)

/-- `n` blocks adopted in turn, and how many passed. -/
def State.adoptOver (s : State) (d : Desc) (key a n : Nat) : State × Nat :=
  (List.range n).foldl (fun (x : State × Nat) i =>
    let (s, ok) := x.1.adoptBlock d key (a + 4096 * i)
    (s, x.2 + boolNat ok)) (s, 0)

def adoptNeeds (b : DescBits) (a : Nat) : List (List Need) := blockTiles (ccLen b) (fun o => [⟨a + o, 4096, 1, true⟩])

def execCdcAdopt (tok : Nat) (s : State) : Host.Outcome State Fault Refusal :=
  .next (s.runTiles tok 0x84 (fun d s => match s.adoptBase d with | .error c => some c | .ok _ => none)
    (fun d s => match s.adoptBase d with
      | .error _ => []
      | .ok (a, _) => adoptNeeds d.bits a)
    (fun d _ stop s =>
      match s.adoptBase d, stop with
      | .error c, _ => (s, some c)
      | .ok _, some c => (s, some c)
      | .ok (a, key), none =>
        let n := ccLen d.bits / 4096
        let (s, k) := s.adoptOver d key a n
        if k < dfield d.bits 32 4 then
          (s.setEvt F.CDC_EVT_ADOPT_SHORT, some { status := ST_PARTIAL, reason := CDC_ADOPT_SHORT, done := k, dropped := n - k })
        else (s, some { done := k, dropped := n - k })))

/-! ## Code tables (R286 to R288) -/

def State.building (s : State) : Nat := (s.cdc.tables.filter (fun e => e.2.phase == .building)).length

/-- What refuses a CDC_PROFILE when it runs. -/
def profileRefused (d : Desc) (s : State) : Option Cpl :=
  let b := d.bits
  let t := s.cdcTable (ccTable b 32)
  if b.getLsbD 280 then
    if t.phase ≠ .free then some (cpl ST_PERMISSION CDC_TABLE_STATE)
    else if 64 ≤ s.building then some (cpl ST_REFUSED_FIT CDC_BUILD_LIMIT)
    else none
  else if t.phase ≠ .building ∨ t.slice ≠ dSlice b then some (cpl ST_PERMISSION CDC_TABLE_STATE)
  else none

/-- Add the exponents of bytes to a histogram of saturating 40-bit counters. -/
def histAdd (fmt : Nat) (h : Tab Nat) (l : List Byte) : Tab Nat :=
  (elements (epeSize fmt) (l.length / epeSize fmt) l).foldl (fun (h : Tab Nat) x =>
    h.updD 0 (exponentOf fmt x) (fun c => Nat.min (c + 1) (2 ^ 40 - 1))) h

/-- Exponents of blocks counted in turn. -/
def State.profileOver (s : State) (d : Desc) (fmt : Nat) (ext : List Byte) (h : Tab Nat) (tiles : List (List (List Seg))) :
    State × List Byte × Tab Nat × Bool :=
  tiles.foldl (fun (a : State × List Byte × Tab Nat × Bool) t =>
    let (s, l, p, ext) := State.readSegs d (t.headD []) a.2.1 a.1
    (s, ext, if p then a.2.2.1 else histAdd fmt a.2.2.1 l, a.2.2.2 || p)) (s, ext, h, false)

def execCdcProfile (tok : Nat) (ext : List Byte) (s : State) : Host.Outcome State Fault Refusal :=
  .next (s.runTiles tok 0x80 profileRefused
    (fun d _ => sendNeeds d.bits)
    (fun d done stop s =>
      let b := d.bits
      let n := ccTable b 32
      let fmt := dfield b 34 1
      let s := if b.getLsbD 280 then
          s.setCdcTable n { phase := .building, slice := dSlice b, format := fmt } else s
      let (s, _, h, poison) := s.profileOver d fmt ext (s.cdcTable n).hist done
      let s := s.setCdcTable n { s.cdcTable n with hist := h }
      let finish := b.getLsbD 281 && stop.isNone && !poison
      if finish && h.all (fun _ c => c == 0) then (s, some (cpl ST_REFUSED_FIT CDC_PROFILE_EMPTY))
      else
        let t := s.cdcTable n
        let img := makeImage (profileLens h) t.format
        let s := if finish then s.setCdcTable n { t with phase := .valid, image := img, hist := [] } else s
        (s, some (blocksEnd (ccLen b / 4096) done.length stop
          (if poison then cpl ST_POISONED CDC_DECODE_ERROR
           else if finish then { result := imageCrc img } else {})))))

def execCdcTableLoad (tok : Nat) (ext : List Byte) (s : State) : Host.Outcome State Fault Refusal :=
  .next (s.runMem tok 0x85
    (fun d s => if (s.cdcTable (ccTable d.bits 24)).phase ≠ .free then some (cpl ST_PERMISSION CDC_TABLE_STATE) else none)
    (fun d _ => [⟨dfield d.bits 16 8, 256, 1, false⟩])
    (fun d segs s =>
      let (s, img, poison, _) := State.readSegs d (segs.headD []) ext s
      if poison || !validImage img then (s, some (cpl ST_REFUSED_FIT CDC_TABLE_FORMAT))
      else
        (s.setCdcTable (ccTable d.bits 24) { phase := .valid, slice := dSlice d.bits, format := imageFormat img, image := img },
         some { result := imageCrc img })))

def execCdcTableFree (tok : Nat) (s : State) : Host.Outcome State Fault Refusal :=
  .next (s.runDesc tok 0x86 (fun d s =>
    let n := ccTable d.bits 16
    let t := s.cdcTable n
    if t.slice ≠ dSlice d.bits then (s, some (cpl ST_PERMISSION CDC_TABLE_STATE))
    else match t.phase with
      | .building => (s.setCdc (fun c => { c with tables := c.tables.del n }), some {})
      | .valid => (s.setCdcTable n { t with phase := .freeing, freed := s.tick.now }, some {})
      | _ => (s, some (cpl ST_PERMISSION CDC_TABLE_STATE))))

def execCdcTableRead (tok : Nat) (s : State) : Host.Outcome State Fault Refusal :=
  .next (s.runMem tok 0x87
    (fun d s => if (s.codecImage (dSlice d.bits) (ccTable d.bits 24)).isNone then some (cpl ST_PERMISSION CDC_TABLE_STATE)
                else creditRefused d s)
    (fun d _ => [⟨dfield d.bits 16 8, 256, 2, false⟩])
    (fun d segs s =>
      (State.writeSegs tok d (descCredit d) (segs.headD []) (s.cdcTable (ccTable d.bits 24)).image s, some {})))

/-- R286: at a boundary, tables in FREEING that no running operation of their time can use become FREE. -/
def State.codecBoundary (s : State) : State :=
  (s.cdc.tables.filter (fun e => e.2.phase == .freeing)).foldl (fun s e =>
    if s.rings.descs.any (fun _ d => d.phase == .running && decide (d.admitTick ≤ e.2.freed)) then s
    else (s.setCdc (fun c => { c with tables := c.tables.del e.1 })).setEvt F.CDC_EVT_TABLE_FREED) s

end Sys2Proof.Machine
end

