-- ==== Sys2Proof/Machine/MatMath.lean ====
section
/-! DEFINITION. The arithmetic of the matrix and vector units (R312 to R323, R334). -/

namespace Sys2Proof.Machine

/-! ## Element formats (Table 10-2) -/

/-- Width in bits; 0 for a reserved code. -/
def fmtBits (f : Nat) : Nat :=
  if f = 1 ∨ f = 12 then 32
  else if f = 2 ∨ f = 3 then 16
  else if f = 4 ∨ f = 5 ∨ f = 9 ∨ f = 13 ∨ f = 14 then 8
  else if f = 6 ∨ f = 7 then 6
  else if f = 8 ∨ f = 10 ∨ f = 11 then 4
  else 0

def isMx (f : Nat) : Bool := decide (4 ≤ f) && decide (f ≤ 8)
def isIntFmt (f : Nat) : Bool := f == 9 || f == 10
/-- Float inputs of the matrix units. -/
def isUnitFloat (f : Nat) : Bool := f == 2 || f == 3 || isMx f || f == 11 || f == 13 || f == 14

/-- The floating-point format of a code's encoding. -/
def floatFmt (f : Nat) : Option Fmt :=
  if f = 1 then some fmtFp32 else if f = 2 then some fmtBf16 else if f = 3 then some fmtFp16
  else if f = 4 ∨ f = 13 then some fmtE4m3 else if f = 5 ∨ f = 14 then some fmtE5m2
  else if f = 6 then some fmtE3m2 else if f = 7 then some fmtE2m3 else if f = 8 then some fmtE2m1 else none

/-- Rate class (R317). -/
def rateOf (f : Nat) : Nat := if f = 8 ∨ f = 10 then 1 else if f = 2 ∨ f = 3 then 4 else 2
def ratePair (a b : Nat) : Nat :=
  if a = 11 ∧ b = 11 then 1 else if a = 11 ∨ b = 11 then 4 else Nat.max (rateOf a) (rateOf b)

/-- Elements of `w` bits packed in bytes (R313). -/
def unpackElems (w n : Nat) (l : List Byte) : List Nat :=
  let x := leNat l
  (List.range n).map (fun k => x / 2 ^ (k * w) % 2 ^ w)

def packElems (w : Nat) (l : List Nat) : List Byte :=
  leBytes (ceilDiv (l.length * w) 8) (((List.range l.length).map (fun k => l.getD k 0 * 2 ^ (k * w))).foldl (· + ·) 0)

/-- The values of a run of elements: `aux` holds their MX scales or their codebook (R314, R315). -/
def decodeElems (f n : Nat) (l aux : List Byte) : List FV :=
  let raw := unpackElems (fmtBits f) n l
  (List.range n).map (fun k =>
    let x := raw.getD k 0
    match floatFmt f with
    | some fm =>
      if isMx f then
        let e := (aux.getD (k / 32) 0).toNat
        if e = 255 then .nan else (fm.decode x).scale ((e : Int) - 127)
      else fm.decode x
    | none =>
      if f = 11 then fmtBf16.decode (leNat ((aux.drop (2 * x)).take 2)) else FV.ofInt (twos (fmtBits f) x))

/-! ## Dot products (R318, R319) -/

def dotF : Nat → FV → List FV → List FV → FV
  | 0, acc, _, _ => acc
  | n + 1, acc, a, b =>
    if a.isEmpty then acc
    else
      let g := FV.sum (List.zipWith FV.mul (a.take 32) (b.take 32))
      dotF n ((acc.add g).rnd) (a.drop 32) (b.drop 32)

/-- A float dot product. -/
def dot (a b : List FV) : FV := dotF (a.length / 32 + 1) FV.zero a b

def dotI : Nat → Int × Nat → List Int → List Int → Int × Nat
  | 0, acc, _, _ => acc
  | n + 1, acc, a, b =>
    if a.isEmpty then acc
    else
      let g := (List.zipWith (· * ·) (a.take 32) (b.take 32)).foldl (· + ·) 0
      let (x, sat) := clampInt 32 (acc.1 + g)
      dotI n (x, acc.2 + boolNat sat) (a.drop 32) (b.drop 32)

/-- An integer dot product and its saturations. -/
def dotInt (a b : List FV) : Int × Nat :=
  let ints := fun (l : List FV) => l.map (fun v => (v.toInt).getD 0)
  dotI (a.length / 32 + 1) (0, 0) (ints a) (ints b)

/-! ## Epilogue (R321, R322) -/

/-- Vector cycles of an activation. -/
def actCycles (c : Nat) : Nat := if c ≤ 1 then 1 else 4

def actOf (c : Nat) (v : FV) : FV :=
  if v.isNan then .nan
  else if c = 0 then v
  else if c = 1 then (if v.isNeg || v.isZero then FV.zero else v)
  else if (c = 7 ∨ c = 8) ∧ v.isZero = true then .inf v.isNeg
  else if c = 8 ∧ v.isNeg = true then .nan
  else f32 (Config.act c (toF32 v))

/-- Steps 2 to 5 of R321. -/
def epilogue (alpha act : Nat) (aux old : Option FV) (v : FV) : FV :=
  let v := ((f32 alpha).mul v.rnd).rnd
  let v := match aux with | some a => (v.add a).rnd | none => v
  let v := match old with | some a => (v.add a).rnd | none => v
  actOf act v

/-! ## Output conversion (R323) -/

/-- ⌊log2 |v|⌋ of a finite value other than 0. -/
def FV.log2 : FV → Int
  | .fin _ m e => (Nat.log2 m : Int) + e
  | _ => 1000

def emaxOf (f : Nat) : Int := if f = 8 ∨ f = 7 then 2 else if f = 6 then 4 else if f = 4 then 8 else 15

/-- The scale of an MX output block. -/
def mxScale (f : Nat) (l : List FV) : Nat :=
  if l.any FV.isNan then 255
  else if l.all FV.isZero then 0
  else
    let top := (l.filter (fun v => !v.isZero)).foldl (fun (m : Int) v => max m v.log2) (-1000)
    let x := top - emaxOf f + 127
    if x < 0 then 0 else if 254 < x then 254 else x.toNat

/-- Convert a run of values: element bytes, MX scale bytes, integer saturations. -/
def encodeElems (f : Nat) (l : List FV) : List Byte × List Byte × Nat :=
  let w := fmtBits f
  match floatFmt f with
  | some fm =>
    if isMx f then
      let blocks := (List.range (ceilDiv l.length 32)).map (fun i => (l.drop (32 * i)).take 32)
      let scales := blocks.map (mxScale f)
      let els := (List.zip blocks scales).flatMap (fun b => b.1.map (fun v => fm.encode (v.scale (127 - (b.2 : Int)))))
      (packElems w els, scales.map (BitVec.ofNat 8), 0)
    else (packElems w (l.map fm.encode), [], 0)
  | none =>
    let xs := l.map (fun v => match v.toInt with
      | none => (0, true)
      | some k => let (x, sat) := clampInt w k; (intBits w x, sat))
    (packElems w (xs.map Prod.fst), [], (xs.filter Prod.snd).length)

/-! ## Vector operations (Table 10-8) -/

def maxFV (a b : FV) : FV := if a.isNan || b.isNan then .nan else if a.lt b then b else a
def minFV (a b : FV) : FV := if a.isNan || b.isNan then .nan else if b.lt a then b else a

def elementOp (sub : Nat) (a b : FV) : FV :=
  if sub = 1 then a.add b
  else if sub = 2 then a.add b.neg
  else if sub = 3 then a.mul b
  else if sub = 4 then maxFV a b
  else if sub = 5 then minFV a b
  else a

def reduceRow (sub : Nat) (l : List FV) : FV :=
  let total := l.foldl (fun (a v : FV) => (a.add v).rnd) FV.zero
  if sub = 0 then total
  else if sub = 1 then total.divRnd (FV.ofInt l.length)
  else if sub = 2 then (l.drop 1).foldl maxFV (l.headD FV.zero)
  else if sub = 3 then (l.drop 1).foldl minFV (l.headD FV.zero)
  else f32 ((l.foldl Accum.add ({} : Accum)).read)

/-! ## Decode attention (R334) -/

def expFV (v : FV) : FV := actOf 6 v
def bf16 (v : FV) : FV := fmtBf16.decode (fmtBf16.encode v)
def FV.subRnd (a b : FV) : FV := (a.add b.neg).rnd

/-- What R334 carries from chunk to chunk. -/
structure Attend where
  mx : FV
  s : FV
  o : List FV

def attendChunk (alpha : Nat) (q : List FV) (st : Attend) (c : List (List FV × List FV)) : Attend :=
  let x := c.map (fun kv => ((f32 alpha).mul (dot q kv.1)).rnd)
  let mn := x.foldl maxFV st.mx
  let r := match st.mx with | .inf true => FV.ofInt 1 | _ => expFV (st.mx.subRnd mn)
  let p := x.map (fun v => bf16 (expFV (v.subRnd mn)))
  { mx := mn
    s := ((r.mul st.s).add (FV.sum p).rnd).rnd
    o := (List.range st.o.length).map (fun d =>
      ((r.mul (st.o.getD d FV.zero)).add (dot p (c.map (fun kv => kv.2.getD d FV.zero)))).rnd) }

def attendChunks (alpha : Nat) (q : List FV) : Nat → Attend → List (List FV × List FV) → Attend
  | 0, st, _ => st
  | n + 1, st, kv => if kv.isEmpty then st else attendChunks alpha q n (attendChunk alpha q st (kv.take 128)) (kv.drop 128)

/-- One query head over the tokens of its KV head. -/
def attendHead (alpha : Nat) (q : List FV) (kv : List (List FV × List FV)) : List FV :=
  let st := attendChunks alpha q (kv.length / 128 + 1)
    { mx := .inf true, s := FV.zero, o := List.replicate q.length FV.zero } kv
  st.o.map (fun v => v.divRnd st.s)

end Sys2Proof.Machine
end

