-- ==== Sys2Proof/Machine/KvOps.lean ====
section
/-! DEFINITION. The KV service's pools, pages, references and order: what its requests and decode attention are written over
(chapter 14). -/

namespace Sys2Proof.Machine

def KV_OPERAND : Nat := 0x0E01
def KV_FORMAT : Nat := 0x0E02
def KV_SLOT : Nat := 0x0E03
def KV_SEQ_LIMIT : Nat := 0x0E04
def KV_FIT_PLAN : Nat := 0x0E05
def KV_AREA : Nat := 0x0E06
def KV_POOL : Nat := 0x0E07
def KV_SEQ : Nat := 0x0E08
def KV_KEY : Nat := 0x0E09
def KV_RANGE : Nat := 0x0E0A
def KV_POOL_FULL : Nat := 0x0E0B
def KV_REMOTE : Nat := 0x0E0C
def KV_REFCOUNT : Nat := 0x0E0D
def KV_STATE_LOST : Nat := 0x0E0E
def KV_RESYNC_NEEDED : Nat := 0x0E0F
def KV_NO_CLUSTER : Nat := 0x0E10
def KV_POOL_FAILED : Nat := 0x0E11
def KV_POISON : Nat := 0x0E12
def KV_GRANT_BAD : Nat := 0x0E13

/-! ## Geometry (R455, R456) -/

def KvPool.int8 (p : KvPool) : Bool := p.fmt == 9
def KvPool.elem (p : KvPool) : Nat := if p.fmt = 2 then 2 else 1
def KvPool.pageSize (p : KvPool) : Nat := 2 ^ p.pageLog
def KvPool.tokenSize (p : KvPool) : Nat := 2 * p.heads * p.hdim * p.elem + (if p.int8 then 4 * p.heads else 0)
def KvPool.perPage (p : KvPool) : Nat := p.pageSize / p.tokenSize
def KvPool.pps (p : KvPool) : Nat := ceilDiv p.maxTokens p.perPage
def KvPool.recSize (p : KvPool) : Nat := ceilDiv (64 + 4 * p.layers * (1 + p.pps)) 64 * 64
def KvPool.ctrlSize (p : KvPool) : Nat :=
  ceilDiv (8 * (p.pages + p.ovfPages) + p.seqMax * p.recSize) 4096 * 4096

/-- Where tokens t to t + n − 1 lie in a layout of `lay` tokens: keys, values, and for INT8 their scales (Table 14-2). -/
def KvPool.parts (p : KvPool) (lay t n : Nat) : List (Nat × Nat) :=
  let row := p.heads * p.hdim * p.elem
  [(t * row, n * row), (lay * row + t * row, n * row)]
    ++ (if p.int8 then [(2 * lay * row + t * 2 * p.heads, n * 2 * p.heads),
                        (2 * lay * row + 2 * lay * p.heads + t * 2 * p.heads, n * 2 * p.heads)] else [])

/-- Where head `h` of token `t` lies in a page: key, value, and for INT8 the two scales. -/
def KvPool.headParts (p : KvPool) (t h : Nat) : List (Nat × Nat) :=
  let el := p.hdim * p.elem
  let lay := p.perPage
  let row := p.heads * el
  [((t * p.heads + h) * el, el), (lay * row + (t * p.heads + h) * el, el)]
    ++ (if p.int8 then [(2 * lay * row + (t * p.heads + h) * 2, 2),
                        (2 * lay * row + 2 * lay * p.heads + (t * p.heads + h) * 2, 2)] else [])

/-- The part [off, off + len) of an area given as pieces. -/
def cutPieces : List (Nat × Nat) → Nat → Nat → List (Nat × Nat)
  | [], _, _ => []
  | (a, n) :: t, off, len =>
    if len = 0 then []
    else if n ≤ off then cutPieces t (off - n) len
    else
      let k := min len (n - off)
      (a + off, k) :: cutPieces t 0 (len - k)

/-- An overflow page, as page-table entries and counts number it (R460). -/
def OVF_PAGE : Nat := 2 ^ 31
def isRemote (pg : Nat) : Bool := decide (OVF_PAGE ≤ pg)

/-- The DPAs of part of a local page. -/
def KvPool.pageRange (p : KvPool) (pg off len : Nat) : List (Nat × Nat) := cutPieces p.area (pg * p.pageSize + off) len

/-- Tokens [first, first + count) page by page: page index, first slot, tokens, index of the first among those asked. -/
def KvPool.runs (p : KvPool) : Nat → Nat → Nat → Nat → List (Nat × Nat × Nat × Nat)
  | 0, _, _, _ => []
  | fuel + 1, first, count, i =>
    if count = 0 then []
    else
      let n := min count (p.perPage - first % p.perPage)
      (first / p.perPage, first % p.perPage, n, i) :: p.runs fuel (first + n) (count - n) (i + n)

def KvPool.runsOf (p : KvPool) (first count : Nat) : List (Nat × Nat × Nat × Nat) :=
  p.runs (count / p.perPage + 2) first count 0

/-! ## State -/

def State.setKv (s : State) (f : KvState → KvState) : State := { s with kv := f s.kv }
def State.pool (s : State) (n : Nat) : KvPool := s.kv.pools.get {} n
def State.setPool (s : State) (n : Nat) (p : KvPool) : State := s.setKv (fun k => { k with pools := k.pools.put n p })
def State.kvAlloc (s : State) (n : Nat) : KvAlloc := s.kv.allocs.get {} n
def State.setAlloc (s : State) (n : Nat) (a : KvAlloc) : State := s.setKv (fun k => { k with allocs := k.allocs.put n a })
def State.kvSeq (s : State) (q : Nat) : Option KvSeq := s.kv.seqs.find q
def State.setSeq (s : State) (q : Nat) (x : KvSeq) : State := s.setKv (fun k => { k with seqs := k.seqs.put q x })

/-- Sequences a pool holds. -/
def State.poolSeqs (s : State) (n : Nat) : Nat := (s.kv.seqs.filter (fun e => e.2.pool == n)).length

/-! ## Pages -/

/-- The page is named by a page table, or on its way back, or taken by a request. -/
def State.pageUsed (s : State) (n pg : Nat) : Bool :=
  let a := s.kvAlloc n
  a.counts.get 0 pg != 0 || a.returning.contains pg || a.rollback.contains pg
    || s.kv.reqs.any (fun r => r.pool == n && r.taken.contains pg)

/-- The lowest `k` free pages from number `from_` on, below `top`; none when there are fewer. -/
def State.lowestFree (s : State) (n top : Nat) : Nat → Nat → Option (List Nat)
  | 0, _ => some []
  | k + 1, from_ =>
    match firstFrom (fun pg => !s.pageUsed n pg) (top - from_) from_ with
    | none => none
    | some pg => (s.lowestFree n top k (pg + 1)).map (fun l => pg :: l)

/-- Take `k` local pages: from the free list, or in host-assisted mode from the grant queue in order (R458, R464). The caller
logs them under its request. -/
def State.takeLocal (s : State) (n k : Nat) : Option (List Nat × State) :=
  let p := s.pool n
  let a := s.kvAlloc n
  if p.assisted then
    if k ≤ a.grants.length then some (a.grants.take k, s.setAlloc n { a with grants := a.grants.drop k }) else none
  else (s.lowestFree n p.pages k 0).map (fun l => (l, s))

def State.takeOverflow (s : State) (n k : Nat) : Option (List Nat × State) :=
  (s.lowestFree n (OVF_PAGE + (s.pool n).ovfPages) k OVF_PAGE).map (fun l => (l, s))

/-- R464: a reservation finds too few pages. -/
def State.kvFull (s : State) : State :=
  (s.setKv (fun k => { k with poolFull := k.poolFull + 1 })).setEvt F.KVS_EVT_POOL_FULL

/-- The free local and overflow pages of a pool (KVS_POOL_INFO). -/
def State.freeLocal (s : State) (n : Nat) : Nat :=
  let a := s.kvAlloc n
  if (s.pool n).assisted then a.grants.length
  else
    let used := (a.counts.filter (fun e => e.1 < OVF_PAGE && e.2 != 0)).map Prod.fst ++ a.returning ++ a.rollback
      ++ (s.kv.reqs.filter (fun r => r.pool == n)).flatMap (fun r => r.taken)
    (s.pool n).pages - ((used.filter (fun pg => decide (pg < OVF_PAGE))).eraseDups).length

def State.freeOverflow (s : State) (n : Nat) : Nat :=
  let a := s.kvAlloc n
  let used := (a.counts.filter (fun e => e.2 != 0)).map Prod.fst ++ a.returning ++ a.rollback
    ++ (s.kv.reqs.filter (fun r => r.pool == n)).flatMap (fun r => r.taken)
  (s.pool n).ovfPages - ((used.filter isRemote).eraseDups).length

/-- The count of a page rises or falls by one; at 0 its entry goes. -/
def KvAlloc.raise (a : KvAlloc) (pg : Nat) : KvAlloc := { a with counts := a.counts.updD 0 pg (· + 1) }
def KvAlloc.lower (a : KvAlloc) (pg : Nat) : KvAlloc :=
  if a.counts.get 0 pg ≤ 1 then { a with counts := a.counts.del pg, returning := a.returning ++ [pg] }
  else { a with counts := a.counts.updD 0 pg (· - 1) }

/-- Drop the hot copies of pages that return to free or move out (R470). -/
def KvAlloc.dropHot (a : KvAlloc) (pgs : List Nat) : KvAlloc :=
  { a with reads := a.reads.keep (fun pg _ => !pgs.contains pg), copies := a.copies.keep (fun pg _ => !pgs.contains pg) }

/-- A PAGES_FREED record for at most eight local pages (R458). -/
def freedOperands (n : Nat) (l : List Nat) : List Byte :=
  assistOperands 0x41 ([(16, 1, n), (17, 1, l.length)]
    ++ (List.range l.length).map (fun i => ((if i < 4 then 20 + 4 * i else 40 + 4 * (i - 4)), 4, l.getD i 0)))

/-- Tell the driver of local pages that have returned to free in host-assisted mode. -/
def State.postFreed (s : State) (n : Nat) (pgs : List Nat) : State :=
  let l := pgs.filter (fun pg => !isRemote pg)
  if (s.pool n).assisted then
    (chunksOf 8 (l.length + 1) l).foldl (fun (s : State) c => s.postAssist s.assistPort 3 0x41 (freedOperands n c)) s
  else s

/-- Give back at once pages that a request took and does not keep. -/
def State.giveBack (s : State) (n : Nat) (pgs : List Nat) : State := s.postFreed n pgs

/-! ## Hot copies (R470) -/

def State.hotRegions (s : State) : List Nat := (List.range 24).filter (fun h => 0 < (s.split h).kvhot)

/-- KVHOT bytes of region `h` that copies take. -/
def State.hotUsed (s : State) (h : Nat) : Nat :=
  ((s.kv.allocs.map (fun e => (e.2.copies.filter (fun c => c.2 == h)).length * (s.pool e.1).pageSize))).foldl (· + ·) 0

/-- Among the copies in region `h` whose slots a page of pool `n` fits, the one with the lowest counter: pool, page, counter. -/
def State.coldestCopy (s : State) (n h : Nat) : Option (Nat × Nat × Nat) :=
  let all := (s.kv.allocs.filter (fun e => (s.pool e.1).pageLog == (s.pool n).pageLog)).flatMap (fun e =>
    (e.2.copies.filter (fun c => c.2 == h)).map (fun c => (e.1, c.1, e.2.reads.get 0 c.1)))
  all.foldl (fun (best : Option (Nat × Nat × Nat)) x => match best with
    | none => some x
    | some b => if x.2.2 < b.2.2 then some x else best) none

/-- A reader reads page `pg` of pool `n`. -/
def State.readPage (s : State) (n pg : Nat) : State :=
  let p := s.pool n
  if !p.hot || isRemote pg then s
  else
    let a := s.kvAlloc n
    let c := min 255 (a.reads.get 0 pg + 1)
    let a := { a with reads := a.reads.put pg c }
    let s := s.setAlloc n a
    if a.copies.has pg then s.setKv (fun k => { k with hotReads := k.hotReads + 1 })
    else if c < s.fld F.KVS_HOT_HOT_MIN then s
    else match s.hotRegions with
      | [] => s
      | hs =>
        let h := hs.getD (pg % hs.length) 0
        if s.hotUsed h + p.pageSize ≤ (s.split h).kvhot * 2 ^ 20 then
          s.setAlloc n { a with copies := a.copies.put pg h }
        else match s.coldestCopy n h with
          | some (m, v, cv) =>
            if cv < c then
              let s := s.setAlloc m { s.kvAlloc m with copies := (s.kvAlloc m).copies.del v }
              s.setAlloc n { s.kvAlloc n with copies := (s.kvAlloc n).copies.put pg h }
            else s
          | none => s

/-! ## References (R460) -/

def rfPool (r : Nat) : Nat := r / 2 ^ 40 % 256
def rfLayer (r : Nat) : Nat := r / 2 ^ 32 % 256
def rfGen (r : Nat) : Nat := r / 2 ^ 24 % 256
def rfSeq (r : Nat) : Nat := r % 2 ^ 24
def kvReference (pool gen seq : Nat) : Nat := at_ 40 pool + at_ 24 gen + seq

/-- A request of the slice and key slot that names pool `n`: what refuses it (R459, R460, R474). -/
def State.poolRefuses (s : State) (n slice key : Nat) : Option Cpl :=
  let p := s.pool n
  if p.phase = .failed then some (cpl ST_POISONED KV_POOL_FAILED)
  else if p.phase ≠ .live ∨ p.slice ≠ slice then some (cpl ST_PERMISSION KV_POOL)
  else if p.key ≠ key then some (cpl ST_PERMISSION KV_KEY)
  else none

/-- What refuses a request that names a sequence; `layered` where the layer counts. -/
def State.refRefuses (s : State) (ref slice key : Nat) (layered : Bool) : Option Cpl :=
  (s.poolRefuses (rfPool ref) slice key).orElse (fun _ =>
    match s.kvSeq (rfSeq ref) with
    | none => some (cpl ST_PERMISSION KV_SEQ)
    | some q =>
      if q.pool ≠ rfPool ref ∨ q.gen ≠ rfGen ref ∨ q.freeing = true
          ∨ (layered = true ∧ (s.pool q.pool).layers ≤ rfLayer ref) then
        some (cpl ST_PERMISSION KV_SEQ)
      else none)

def State.kvLayer (s : State) (ref : Nat) : KvLayer :=
  match s.kvSeq (rfSeq ref) with
  | some q => q.layers.getD (rfLayer ref) {}
  | none => {}

def KvSeq.pagesOf (q : KvSeq) : List Nat := q.layers.flatMap (fun l => l.pages)
def KvSeq.remote (q : KvSeq) : Bool := q.pagesOf.any isRemote

/-- KVS_LAST_ERROR. -/
def State.kvError (s : State) (ref reason loc : Nat) : State :=
  s.setKv (fun k => { k with lastError := (ref % 2 ^ 48, reason, loc, s.tick.now % 2 ^ 32) })

/-! ## Memory under a key slot -/

/-- Read pieces of the DRAM range under a key slot and epoch. -/
def State.readKeyed (key epoch : Nat) : List (Nat × Nat) → State → State × List Byte × Bool
  | [], s => (s, [], false)
  | (a, n) :: t, s =>
    if !s.keyServes key epoch then
      let (s, rest, _) := State.readKeyed key epoch t s.staleAccess
      (s, s.poisonBytes a n ++ rest, true)
    else
      let (bytes, m) := s.homeRead key a n
      let (s, rest, bad) := State.readKeyed key epoch t (s.touch key a n false)
      (s, bytes ++ rest, bad || m != 0)

/-- Write bytes over pieces under a key slot and epoch, for a descriptor. -/
def State.writeKeyed (tok key epoch : Nat) (credit : Option Nat) : List (Nat × Nat) → List Byte → State → State
  | [], _, s => s
  | (a, n) :: t, bytes, s =>
    let s := if s.keyServes key epoch then s.creditWrite (.desc tok) key a (bytes.take n) credit else s.staleAccess
    State.writeKeyed tok key epoch credit t (bytes.drop n) s

/-- Poisoned lines of pieces, as offsets [lo, hi) into their bytes. -/
def State.badOffsets (s : State) : Nat → List (Nat × Nat) → List (Nat × Nat)
  | _, [] => []
  | off, (a, n) :: t =>
    ((linesOf a n).filter s.readsPoison).map (fun l =>
      (off + (max (64 * l) a - a), off + (min (64 * l + 64) (a + n) - a))) ++ s.badOffsets (off + n) t

/-! ## Order (R463) -/

/-- The sequences a descriptor names, and whether it is a writer of them. -/
def State.kvNames (s : State) (d : Desc) : List (Nat × Bool) :=
  let b := d.bits
  let op := dOpcode b
  if op = 0x53 ∨ op = 0x57 ∨ op = 0x58 ∨ op = 0x59 then [(rfSeq (dfield b 16 8), true)]
  else if op = 0x54 ∨ op = 0x55 ∨ op = 0x56 then [(rfSeq (dfield b 16 8), false)]
  else if op = 0x31 then
    let p := s.mtx.progs.get {} (dfield b 16 1)
    ((((p.ops.drop (dfield b 18 2)).take (dfield b 20 2)).filter (fun o => o.b.space == 5)).map (fun o =>
      (rfSeq (dfield b (24 + 8 * o.b.base) 8), false)))
  else []

/-- The round a descriptor takes its place in. -/
def Desc.kvRound (d : Desc) : Nat := if opKind (dOpcode d.bits) = some .n then d.arrived + 1 else d.admitTick

/-- Every earlier request of the sequences it names, that it must wait for, has ended. -/
def State.kvOrdered (s : State) (tok : Nat) (d : Desc) : Bool :=
  let mine := s.kvNames d
  s.rings.descs.all (fun k e =>
    let before := decide (e.kvRound < d.kvRound) || (e.kvRound == d.kvRound && decide (k < tok))
    let counts := !e.finished && (e.phase != .waiting || opKind (dOpcode e.bits) == some .n)
    !(before && counts && k != tok) ||
      (s.kvNames e).all (fun x => mine.all (fun y => x.1 != y.1 || !(x.2 || y.2))))

end Sys2Proof.Machine
end

