-- ==== Sys2Proof/Machine/MtxOps.lean ====
section
/-! DEFINITION. Tile programs as binaries: their layout, the checks a load makes of them, recorded runs and costs
(R328 to R340). -/

namespace Sys2Proof.Machine

def MTX_FORMAT : Nat := 0x0A01
def MTX_SLOTS : Nat := 0x0A02
def MTX_PLACEMENT : Nat := 0x0A03
def MTX_OPERAND : Nat := 0x0A04
def MTX_FIT_SCRATCH : Nat := 0x0A05
def MTX_FIT_BUFFER : Nat := 0x0A06
def MTX_FIT_TICK : Nat := 0x0A07
def MTX_FIT_PLAN : Nat := 0x0A08
def MTX_FIT_WEIGHTS : Nat := 0x0A09
def MTX_WEIGHT_AUTH : Nat := 0x0A0A
def MTX_HANDLE : Nat := 0x0A0B
def MTX_CRITICAL : Nat := 0x0A0C
def MTX_ATTEND_LEN : Nat := 0x0A0D
def MTX_POISON : Nat := 0x0A0E
def MTX_CLUSTER_LOST : Nat := 0x0A0F

/-! Tile operations (Table 10-8) and operand spaces (R331). -/
def GEMM : Nat := 1
def INTERACT : Nat := 2
def ATTEND : Nat := 3
def ELEMENTWISE : Nat := 4
def REDUCE : Nat := 5
def TRANSPOSE : Nat := 6
def QUANTIZE : Nat := 7
def MOVE : Nat := 8
def TFENCE : Nat := 9
def SP_NONE : Nat := 0
def SP_SCRATCH : Nat := 1
def SP_MEM : Nat := 2
def SP_WEIGHT : Nat := 3
def SP_BUF : Nat := 4
def SP_KV : Nat := 5

def TileOp.accum (o : TileOp) : Bool := o.oflags.testBit 0
def TileOp.join (o : TileOp) : Bool := o.oflags.testBit 1
def TileOp.diag (o : TileOp) : Bool := o.oflags.testBit 2
def TileOp.bcast (o : TileOp) : Bool := o.oflags.testBit 3
def Opnd.present (o : Opnd) : Bool := o.space != 0

/-! ## Reading the binary (Tables 10-5 to 10-7) -/

def parseOpnd (l : List Byte) (b : Nat) : Opnd :=
  let f := fun o n => leNat ((l.drop (b + o)).take n)
  let sp := f 16 1
  { addr := f 0 8, saddr := f 8 8, space := sp % 8, base := sp / 16 % 8, fmt := f 17 1, cattr := f 18 1, stride := f 20 4
    clean := sp / 8 % 2 == 0 && sp / 128 == 0 && f 19 1 == 0 }

def parseOp (l : List Byte) (b : Nat) : TileOp :=
  let f := fun o n => leNat ((l.drop (b + o)).take n)
  { opc := f 0 1, oflags := f 1 1, units := f 2 1, dec := f 3 1, place := f 4 1, cluster := f 5 1, act := f 6 1
    subop := f 7 1, alpha := f 8 4, arg := f 12 4, m := f 16 4, n := f 20 4, k := f 24 4, batch := f 28 2
    a := parseOpnd l (b + 32), b := parseOpnd l (b + 56), out := parseOpnd l (b + 80), aux := parseOpnd l (b + 104) }

/-- A header and what follows it, as read; nothing checked. -/
structure Binary where
  magic : Nat
  format : Nat
  totalLen : Nat
  programId : Nat
  nOps : Nat
  nPlace : Nat
  scratchKib : Nat
  bufKib : Nat
  weightBytes : Nat
  reserve : Nat
  crc : Nat
  clean : Bool
  places : List Placement
  ops : List TileOp

def parseBinary (l : List Byte) : Binary :=
  let f := fun o n => leNat ((l.drop o).take n)
  let np := f 18 1
  let at0 := 64 + 64 * ceilDiv np 8
  { magic := f 0 2, format := f 2 2, totalLen := f 4 4, programId := f 8 8, nOps := f 16 2, nPlace := np
    scratchKib := f 20 4, bufKib := f 24 4, weightBytes := f 32 8, reserve := f 40 8, crc := f 60 4
    clean := f 19 1 == 0 && f 28 4 == 0 && f 48 12 == 0
      && (List.range np).all (fun p => f (67 + 8 * p) 5 == 0)
      && (List.range (f 16 2)).all (fun i => f (at0 + 128 * i + 30) 2 == 0)
    places := (List.range np).map (fun p => { die := f (64 + 8 * p) 1, region := f (65 + 8 * p) 1, clusters := f (66 + 8 * p) 1 })
    ops := (List.range (f 16 2)).map (fun i => parseOp l (at0 + 128 * i)) }

/-- Home index of a placement region. -/
def Placement.home (p : Placement) : Nat := p.die + 6 * p.region
/-- Global number of cluster `c` of a placement region. -/
def Placement.cluster (p : Placement) (c : Nat) : Nat := 16 * p.die + 4 * p.region + c
/-- Global numbers of the clusters a placement uses. -/
def Placement.all (p : Placement) : List Nat := (maskBits p.clusters 4).map p.cluster

def onMatrix (opc : Nat) : Bool := opc == GEMM || opc == INTERACT || opc == ATTEND

/-- Ranges and reserved bits of an operation record (Table 10-6). -/
def TileOp.rangesOk (o : TileOp) (places : List Placement) : Bool :=
  decide (o.oflags < 16) && decide (1 ≤ o.units ∧ o.units ≤ 8) && (onMatrix o.opc || o.units == 1) && decide (o.dec ≤ 4)
    && decide (o.place < places.length) && decide (o.cluster ≤ 3)
    && (match places[o.place]? with | some p => p.clusters.testBit o.cluster | none => false)
    && decide (o.act ≤ 8) && o.alpha / 2 ^ 23 % 256 != 255 && (o.opc == ATTEND || o.arg == 0)
    && decide (1 ≤ o.m ∧ o.m ≤ 2 ^ 24) && decide (1 ≤ o.n ∧ o.n ≤ 2 ^ 24) && decide (1 ≤ o.k ∧ o.k ≤ 2 ^ 20)
    && decide (1 ≤ o.batch)

/-- Check 1 of Table 10-11. -/
def Binary.formatOk (b : Binary) (l : List Byte) (len : Nat) : Bool :=
  b.magic == 0xCEDA && b.format == 1 && b.totalLen == len && l.length == len
    && len == 64 + 64 * ceilDiv b.nPlace 8 + 128 * b.nOps
    && decide (1 ≤ b.nOps ∧ b.nOps ≤ 4096) && decide (1 ≤ b.nPlace ∧ b.nPlace ≤ 24) && decide (b.scratchKib ≤ 131072)
    && decide (b.bufKib ≤ 4096) && b.weightBytes % 4096 == 0 && b.clean
    && b.crc == crc32c (l.take 60 ++ l.drop 64)
    && b.places.all (fun p => decide (p.die ≤ 5) && decide (p.region ≤ 3) && decide (p.clusters < 16))
    && (b.places.map Placement.home).eraseDups.length == b.places.length
    && b.ops.all (fun o => o.rangesOk b.places)

/-! ## Shapes (R313 to R316, Table 10-8) -/

/-- Elements of a packed row, in bytes. -/
def Opnd.rowLen (o : Opnd) (cols : Nat) : Nat := ceilDiv (cols * fmtBits o.fmt) 8
def Opnd.pitch (o : Opnd) (cols : Nat) : Nat := if o.stride = 0 then o.rowLen cols else o.stride
/-- Bytes of a row's scales. -/
def Opnd.scaleLen (o : Opnd) (cols : Nat) : Nat := if isMx o.fmt then ceilDiv cols 32 else 0

/-- MOVE moves bytes, whatever format its operands name. -/
def TileOp.raw (o : TileOp) : TileOp :=
  if o.opc = MOVE then { o with a := { o.a with fmt := 9 }, out := { o.out with fmt := 9 } } else o

/-- Pairs of INTERACT. -/
def TileOp.pairs (o : TileOp) : Nat := if o.diag then o.m * (o.m + 1) / 2 else o.m * (o.m - 1) / 2

/-- Rows of a batch and columns of A, B, OUT and AUX. -/
def TileOp.shapeA (o : TileOp) : Nat × Nat :=
  if o.opc = GEMM ∨ o.opc = INTERACT ∨ o.opc = ATTEND then (o.m, o.k) else (o.m, o.n)
def TileOp.shapeB (o : TileOp) : Nat × Nat :=
  if o.opc = GEMM then (o.n, o.k) else if o.bcast then (1, o.n) else (o.m, o.n)
def TileOp.shapeOut (o : TileOp) : Nat × Nat :=
  if o.opc = INTERACT then (1, o.pairs) else if o.opc = ATTEND then (o.m, o.k) else if o.opc = REDUCE then (o.m, 1)
  else if o.opc = TRANSPOSE then (o.n, o.m) else (o.m, o.n)
def TileOp.shapeAux (o : TileOp) : Nat × Nat := (1, o.n)

def isVectorFmt (f : Nat) : Bool := f == 1 || f == 2 || f == 3
def isTransposeFmt (f : Nat) : Bool := isVectorFmt f || f == 13 || f == 14 || f == 9

/-- A column count that the format allows (R313). -/
def colsOk (f cols : Nat) : Bool := (!isMx f || cols % 32 == 0) && (!(f == 10 || f == 11) || cols % 2 == 0)

/-- What a program gives its operations room in. -/
structure Room where
  nPlace : Nat
  scratch : Nat
  buf : Nat
  weight : Nat

/-- A range of a space lies within it (R90, check 4). -/
def Room.holds (r : Room) (space addr len : Nat) : Bool :=
  if space = SP_SCRATCH then
    decide (addr < 2 ^ 32) && (decide (addr / 2 ^ 27 < r.nPlace) || addr / 2 ^ 27 == 31)
      && decide (addr % 2 ^ 27 + len ≤ r.scratch)
  else if space = SP_BUF then decide (addr + len ≤ r.buf)
  else if space = SP_WEIGHT then decide (addr + len ≤ r.weight)
  else true

/-- An operand in its place: format and columns, scale plane and codebook, compression, ranges (R313 to R315, R331). -/
def Opnd.ok (o : Opnd) (r : Room) (shape : Nat × Nat) (batch : Nat) (input raw : Bool) : Bool :=
  let rows := shape.1 * batch
  o.clean && decide (1 ≤ o.space ∧ o.space ≤ 4) && decide (o.base ≤ 4)
    && (raw || (fmtBits o.fmt != 0 && colsOk o.fmt shape.2))
    && ((isMx o.fmt && !raw) || (o.fmt == 11 && !raw) || o.saddr == 0)
    && (o.cattr == 0 || (input && (o.space == SP_MEM || o.space == SP_WEIGHT) && o.cattr % 32 == 0))
    && r.holds o.space o.addr ((rows - 1) * o.pitch shape.2 + o.rowLen shape.2)
    && (raw || !isMx o.fmt || r.holds o.space o.saddr (rows * o.scaleLen shape.2))
    && (raw || o.fmt != 11 || r.holds o.space o.saddr 32)

def Opnd.absent (o : Opnd) : Bool := o.space == 0 && o.clean

/-- The inputs that are compressed. -/
def TileOp.compressed (o : TileOp) : List Opnd := [o.a, o.b].filter (fun x => x.present && caCompressed x.cattr)

/-- INT32 outputs (R321); CB4 is no output. -/
def outFmtOk (o : TileOp) (ints : Bool) : Bool :=
  o.out.fmt != 11 && (o.out.fmt != 12 || (ints && o.act == 0 && !o.aux.present))

/-- R317: the pair of matrix inputs is of one kind. -/
def pairOk (f g : Nat) : Bool := (isUnitFloat f && isUnitFloat g) || (isIntFmt f && isIntFmt g)

/-- Check 4 of Table 10-11 for one operation (R317, R332, R333, R337). -/
def TileOp.operandsOk (o : TileOp) (r : Room) : Bool :=
  let o := o.raw
  let raw := o.opc == MOVE
  let a := o.a.ok r o.shapeA o.batch true raw
  let out := o.out.ok r o.shapeOut o.batch false raw
  let b := o.b.ok r o.shapeB o.batch true false
  let aux := o.aux.absent || (o.aux.ok r o.shapeAux o.batch false false && isVectorFmt o.aux.fmt)
  let noB := o.b.absent
  let noAux := o.aux.absent
  let flags := fun (m : Nat) => (o.oflags % 16) &&& (0xFFFF - m - 2) == 0
  let dec := if o.dec = 0 then o.compressed.isEmpty else !o.compressed.isEmpty
  dec &&
  (if o.opc = GEMM then
    flags 1 && o.subop == 0 && a && b && out && aux && pairOk o.a.fmt o.b.fmt && outFmtOk o (isIntFmt o.a.fmt)
      && (!(isMx o.a.fmt || isMx o.b.fmt) || o.k % 32 == 0)
  else if o.opc = INTERACT then
    flags 4 && o.subop == 0 && a && noB && out && noAux && pairOk o.a.fmt o.a.fmt && outFmtOk o (isIntFmt o.a.fmt)
      && decide (2 ≤ o.m ∧ o.m ≤ 1024)
  else if o.opc = ATTEND then
    flags 0 && o.subop == 0 && o.act == 0 && a && out && noAux && o.batch == 1
      && o.b.clean && o.b.space == SP_KV && o.b.addr == 0 && o.b.saddr == 0 && o.b.cattr == 0 && decide (o.b.base ≤ 4)
      && (o.k == 64 || o.k == 128 || o.k == 256) && o.m % o.n == 0 && decide (o.m / o.n ≤ 128)
      && decide (1 ≤ o.arg ∧ o.arg ≤ 2 ^ 24) && (o.a.fmt == 2 || o.a.fmt == 3) && isVectorFmt o.out.fmt
  else if o.opc = ELEMENTWISE then
    flags 8 && decide (o.subop ≤ 5) && a && out && noAux && isVectorFmt o.a.fmt && isVectorFmt o.out.fmt
      && (if o.subop = 0 then noB && !o.bcast else b && isVectorFmt o.b.fmt)
  else if o.opc = REDUCE then
    flags 0 && decide (o.subop ≤ 4) && o.act == 0 && a && noB && out && noAux && isVectorFmt o.a.fmt && isVectorFmt o.out.fmt
  else if o.opc = TRANSPOSE then
    flags 0 && o.subop == 0 && o.act == 0 && a && noB && out && noAux && isTransposeFmt o.a.fmt && o.a.fmt == o.out.fmt
  else if o.opc = QUANTIZE then
    flags 0 && o.subop == 0 && o.act == 0 && a && noB && out && noAux && isVectorFmt o.a.fmt
      && o.out.fmt != 11 && o.out.fmt != 12
  else if o.opc = MOVE then
    flags 0 && o.subop == 0 && o.act == 0 && a && noB && out && noAux
  else if o.opc = TFENCE then
    flags 0 && decide (o.subop ≤ 2) && o.act == 0 && o.a.absent && noB && o.out.absent && noAux
  else false)

/-! ## Recorded runs and cost (R338, R302) -/

/-- Bytes of an operand pass the stream port (R310). -/
def TileOp.ported (o : TileOp) (x : Opnd) : Bool :=
  x.space == SP_MEM || x.space == SP_WEIGHT
    || (x.space == SP_SCRATCH && x.addr / 2 ^ 27 != 31 && x.addr / 2 ^ 27 != o.place)

/-- Bytes of `rows` rows of an operand, with their scales. -/
def Opnd.bytesOf (x : Opnd) (rows cols : Nat) : Nat := rows * (x.rowLen cols + x.scaleLen cols)

/-- Work items of an operation (Table 10-9). -/
def TileOp.items (o : TileOp) : Nat :=
  let t := ceilDiv o.m 128
  let e := o.m * o.n * o.batch
  if o.opc = GEMM then o.batch * t * ceilDiv o.n 128
  else if o.opc = INTERACT then o.batch * (t * (t + 1) / 2)
  else if o.opc = ATTEND then o.n
  else if o.opc = TRANSPOSE then ceilDiv (e * fmtBits o.a.fmt / 8) 65536
  else if o.opc = MOVE then o.batch * o.m
  else if o.opc = TFENCE then 0
  else ceilDiv e 4096

/-- The tiles of a T × T product that INTERACT computes, row-major. -/
def triTiles (t : Nat) : List (Nat × Nat) := (List.range t).flatMap (fun i => (List.range (t - i)).map (fun j => (i, i + j)))

/-- Batch, row block and column block of work item `i` of GEMM or INTERACT. -/
def TileOp.tile (o : TileOp) (i : Nat) : Nat × Nat × Nat :=
  let t := ceilDiv o.m 128
  if o.opc = GEMM then
    let tn := ceilDiv o.n 128
    (i / (t * tn), i / tn % t, i % tn)
  else
    let per := t * (t + 1) / 2
    let x := (triTiles t).getD (i % per) (0, 0)
    (i / per, x.1, x.2)

/-- Rows of block `t` among `m`. -/
def blockRows (m t : Nat) : Nat := min 128 (m - 128 * t)

/-- Bytes of A and of B that a matrix operation reads: within a round each distinct row block of A and column block of B
once. -/
def TileOp.roundReads (o : TileOp) : Nat × Nat :=
  (List.range (ceilDiv o.items o.units)).foldl (fun (acc : Nat × Nat) r =>
    let ts := (List.range (min o.units (o.items - r * o.units))).map (fun i => o.tile (r * o.units + i))
    let ra := (ts.map (fun t => (t.1, t.2.1)))
    let cb := (ts.map (fun t => (t.1, t.2.2)))
    if o.opc = GEMM then
      (acc.1 + ((ra.eraseDups.map (fun x => o.a.bytesOf (blockRows o.m x.2) o.k)).foldl (· + ·) 0),
       acc.2 + ((cb.eraseDups.map (fun x => o.b.bytesOf (blockRows o.n x.2) o.k)).foldl (· + ·) 0))
    else
      (acc.1 + (((ra ++ cb).eraseDups.map (fun x => o.a.bytesOf (blockRows o.m x.2) o.k)).foldl (· + ·) 0), acc.2)) (0, 0)

/-- Codebook bytes, read once. -/
def Opnd.bookLen (x : Opnd) : Nat := if x.fmt = 11 then 32 else 0

/-- Bytes that an operation reads of A, of B and of AUX with the old OUT, and writes. `tokenBytes` is what a token of a KV
sequence takes. -/
def TileOp.traffic (o : TileOp) (tokenBytes : Nat) : Nat × Nat × Nat × Nat :=
  let whole := fun (x : Opnd) (sh : Nat × Nat) => if x.present then x.bytesOf (sh.1 * o.batch) sh.2 + x.bookLen else 0
  let wr := whole o.out o.shapeOut
  if o.opc = GEMM ∨ o.opc = INTERACT then
    let (x, y) := o.roundReads
    (x + o.a.bookLen, y + o.b.bookLen, whole o.aux o.shapeAux + (if o.accum then wr else 0), wr)
  else if o.opc = ATTEND then (whole o.a o.shapeA, o.arg * tokenBytes, 0, wr)
  else if o.opc = TFENCE then (0, 0, 0, 0)
  else (whole o.a o.shapeA, whole o.b o.shapeB, 0, wr)

/-- What a load records of an operation. -/
structure Recorded where
  run : Nat
  mtx : Nat
  stk : Nat
  cdc : Nat

/-- Block time of a class (R302). -/
def blockTime (c : Nat) : Nat := if c = 2 then 32 else if c = 3 then 64 else 16

/-- Compute cycles W (Table 10-9). -/
def TileOp.cycles (o : TileOp) : Nat :=
  let e := o.m * o.n * o.batch
  let vec := ceilDiv e 256
  if o.opc = GEMM then ceilDiv o.items o.units * (32 * ceilDiv o.k 32 * ratePair o.a.fmt o.b.fmt + 64)
  else if o.opc = INTERACT then ceilDiv o.items o.units * (32 * ceilDiv o.k 32 * ratePair o.a.fmt o.a.fmt + 64)
  else if o.opc = ATTEND then
    ceilDiv o.n o.units * ceilDiv o.arg 128 * (4 * (32 * ceilDiv o.k 32 + 128 * ceilDiv o.k 128) + 64)
  else if o.opc = ELEMENTWISE then vec * actCycles o.act + 32
  else if o.opc = REDUCE then vec * (if o.subop = 4 then 2 else 1) + 32
  else if o.opc = TRANSPOSE then ceilDiv (e * fmtBits o.a.fmt / 8) 1024 + 32
  else if o.opc = QUANTIZE then vec * 2 + 32
  else if o.opc = MOVE then o.items * 32
  else 64

/-- R338: RUN, the MTX cost, and the STK and CDC charges of an operation. -/
def TileOp.record (o : TileOp) (tokenBytes : Nat) : Recorded :=
  let o := o.raw
  let (ra, rb, rx, wr) := o.traffic tokenBytes
  let kvp := o.opc == ATTEND
  let port := fun (x : Opnd) (n : Nat) => if x.present && o.ported x then n else 0
  let sr := port o.a ra + (if kvp then rb else port o.b rb)
    + (if o.accum then port o.aux (rx - wr) + port o.out wr else port o.aux rx)
  let sw := port o.out wr
  let dram := fun (x : Opnd) (n : Nat) => if x.space = SP_MEM ∨ x.space = SP_WEIGHT then n else 0
  let w := o.cycles
  let c := Nat.max w (Nat.max (ceilDiv sr 512) (ceilDiv sw 512))
  let coded := ([(o.a, ra), (o.b, rb)].filter (fun e => e.1.present && !(kvp && e.1.space == SP_KV) && caCompressed e.1.cattr))
  let blocks := ((coded.map (fun e => ceilDiv e.2 4096)).foldl (· + ·) 0)
  let t := ((coded.map (fun e => blockTime (caMaxClass e.1.cattr))).foldl Nat.max 0)
  let run := if o.dec = 0 then c else Nat.max c (ceilDiv blocks o.dec * t) + t
  { run := run
    mtx := if onMatrix o.opc then o.units * run else run
    stk := dram o.a ra + (if kvp then rb else dram o.b rb)
      + (if o.accum then dram o.aux (rx - wr) + dram o.out wr else dram o.aux rx) + dram o.out wr
      + 64 * ceilDiv blocks 8
    cdc := ((coded.map (fun e => ceilDiv e.2 1024 * classFactor (caMaxClass e.1.cattr))).foldl (· + ·) 0) }

/-- Bytes of a KV token when the pool is not known (assumption 22). -/
def opTokenBytes (o : TileOp) : Nat := 4 * o.n * o.k

def TileOp.recorded (o : TileOp) : Recorded := o.record (opTokenBytes o)

/-- Nine tenths of the ECLK cycles of a tick, times ten: the comparison of check 7 and R343. -/
def tickCycles9 (periodUs : Nat) : Nat := 9 * 1500 * periodUs

/-- R343: the critical path of operations: the segments between JOINs, each the longest sum on one cluster. `cl` names an
operation's cluster. -/
def criticalPath (cl : TileOp → Nat) (run : TileOp → Nat) : List TileOp → Tab Nat → Nat → Nat
  | [], seg, acc => acc + seg.vals.foldl Nat.max 0
  | o :: t, seg, acc =>
    let (seg, acc) := if o.join then (([] : Tab Nat), acc + seg.vals.foldl Nat.max 0) else (seg, acc)
    criticalPath cl run t (Tab.updD seg 0 (cl o) (fun x => x + run o)) acc

end Sys2Proof.Machine
end

