-- ==== Sys2Proof/Machine/MtxRun.lean ====
section
/-! DEFINITION. Work items of tile operations: what each reads, computes and writes (R316 to R323, R332 to R346). -/

namespace Sys2Proof.Machine

/-! ## Ranges of an operation -/

/-- Where a range lies: in scratch or a cluster buffer, at VAs, or at DPAs under a key slot and epoch. -/
inductive Place where
  | loc
  | va
  | dpa (key epoch : Nat)

structure Rng where
  place : Place
  pieces : List (Nat × Nat)
  cattr : Nat := 0

/-- A range of an operand's space (R331). -/
def State.opRange (s : State) (r : MtxRun) (o : TileOp) (x : Opnd) (addr len : Nat) (cattr : Nat := 0) : Rng :=
  if x.space = SP_SCRATCH then
    let p := if addr / 2 ^ 27 = 31 then o.place else addr / 2 ^ 27
    { place := .loc, pieces := [(p * 2 ^ 32 + addr % 2 ^ 27, len)] }
  else if x.space = SP_BUF then
    { place := .loc, pieces := [((32 + 4 * o.place + o.cluster) * 2 ^ 32 + addr, len)] }
  else if x.space = SP_WEIGHT then
    let p := s.mtx.progs.get {} (r.slot.getD 0)
    { place := .dpa p.key p.keyEpoch, pieces := cutPieces p.warea addr len, cattr := cattr }
  else { place := .va, pieces := [((r.bases.getD x.base 0 + addr) % 2 ^ 64, len)], cattr := cattr }

/-- Elements c0 to c0 + n − 1 of row `row` of an operand, rows counted through its batches. -/
structure Elems where
  x : Opnd
  cols : Nat
  row : Nat
  c0 : Nat
  n : Nat

/-- The ranges that hold them: elements, and MX scales or the codebook. -/
def Elems.rngs (e : Elems) (s : State) (r : MtxRun) (o : TileOp) : List Rng :=
  let w := fmtBits e.x.fmt
  let data := s.opRange r o e.x (e.x.addr + e.row * e.x.pitch e.cols + e.c0 * w / 8) (ceilDiv (e.n * w) 8) e.x.cattr
  if isMx e.x.fmt then
    [data, s.opRange r o e.x (e.x.saddr + e.row * e.x.scaleLen e.cols + e.c0 / 32) (ceilDiv e.n 32)]
  else if e.x.fmt = 11 then [data, s.opRange r o e.x e.x.saddr 32]
  else [data]

def Elems.parts (e : Elems) : Nat := if isMx e.x.fmt || e.x.fmt == 11 then 2 else 1

/-- The values that bytes of ranges spell, one list of values for each run of elements. -/
def decodeAll : List Elems → List (List Byte) → List (List FV)
  | [], _ => []
  | e :: t, l => decodeElems e.x.fmt e.n (l.headD []) ((l.drop 1).headD []) :: decodeAll t (l.drop e.parts)

/-- The bytes of runs of values, in the order of their ranges, and the integer saturations. -/
def encodeAll : List Elems → List (List FV) → List (List Byte) × Nat
  | [], _ => ([], 0)
  | e :: t, v =>
    let (data, scales, sat) := encodeElems e.x.fmt (v.headD [])
    let (rest, sats) := encodeAll t (v.drop 1)
    ((if isMx e.x.fmt then [data, scales] else [data]) ++ rest, sat + sats)

/-- A work item: what it reads and writes, and the bytes it writes with its saturations. -/
structure Item where
  reads : List Rng
  writes : List Rng
  go : List (List Byte) → List (List Byte) × Nat

/-- An item over values. -/
def valueItem (s : State) (r : MtxRun) (o : TileOp) (ins outs : List Elems)
    (f : List (List FV) → List (List FV) × Nat) : Item :=
  { reads := ins.flatMap (fun e => e.rngs s r o), writes := outs.flatMap (fun e => e.rngs s r o)
    go := fun l =>
      let (v, sat) := f (decodeAll ins l)
      let (b, sat') := encodeAll outs v
      (b, sat + sat') }

/-- An item that does nothing of its own: its part is done with a later item's. -/
def idleItem : Item := { reads := [], writes := [], go := fun _ => ([], 0) }

/-- Split elements [e0, e1) of a matrix of `cols` columns into runs: row, first column, number. -/
def flatRuns (cols : Nat) : Nat → Nat → Nat → List (Nat × Nat × Nat)
  | 0, _, _ => []
  | fuel + 1, e0, e1 =>
    if e1 ≤ e0 then []
    else
      let n := min (cols - e0 % cols) (e1 - e0)
      (e0 / cols, e0 % cols, n) :: flatRuns cols fuel (e0 + n) e1

def flatRunsOf (cols e0 e1 : Nat) : List (Nat × Nat × Nat) := flatRuns cols ((e1 - e0) / cols + 2) e0 e1

/-! ## The items of each operation -/

/-- One output element of GEMM or INTERACT (R318, R321). -/
def outElem (o : TileOp) (a b : List FV) (aux old : Option FV) : FV × Nat :=
  if isIntFmt o.a.fmt then
    let (x, sat) := dotInt a b
    if o.out.fmt = 12 then
      (match old with | some v => (FV.ofInt x).add v | none => FV.ofInt x, sat)
    else (epilogue o.alpha o.act aux old (FV.ofInt x), sat)
  else (epilogue o.alpha o.act aux old (dot a b), 0)

def gemmItem (s : State) (r : MtxRun) (o : TileOp) (i : Nat) : Item :=
  let (b, ti, tj) := o.tile i
  let na := blockRows o.m ti
  let nb := blockRows o.n tj
  let rowsA := (List.range na).map (fun x => (⟨o.a, o.k, b * o.m + 128 * ti + x, 0, o.k⟩ : Elems))
  let rowsB := (List.range nb).map (fun x => (⟨o.b, o.k, b * o.n + 128 * tj + x, 0, o.k⟩ : Elems))
  let aux := if o.aux.present then [(⟨o.aux, o.n, b, 128 * tj, nb⟩ : Elems)] else []
  let outs := (List.range na).map (fun x => (⟨o.out, o.n, b * o.m + 128 * ti + x, 128 * tj, nb⟩ : Elems))
  let ins := rowsA ++ rowsB ++ aux ++ (if o.accum then outs else [])
  valueItem s r o ins outs (fun v =>
    let a := v.take na
    let bs := (v.drop na).take nb
    let rest := v.drop (na + nb)
    let ax := if o.aux.present then rest.headD [] else []
    let olds := if o.aux.present then rest.drop 1 else rest
    let res := (List.range na).map (fun x => (List.range nb).map (fun y =>
      outElem o (a.getD x []) (bs.getD y []) (if o.aux.present then ax[y]? else none)
        (if o.accum then (olds.getD x [])[y]? else none)))
    (res.map (fun row => row.map Prod.fst), ((res.flatten.map Prod.snd).foldl (· + ·) 0)))

/-- Position of pair (i, first j) in i-major order. -/
def TileOp.pairBase (o : TileOp) (i : Nat) : Nat := if o.diag then i * o.m - i * (i - 1) / 2 else i * o.m - i * (i + 1) / 2
def TileOp.pairStart (o : TileOp) (i : Nat) : Nat := if o.diag then i else i + 1

/-- INTERACT tile by tile; an output format whose elements share bytes or scales is written whole by a sample's last
tile. -/
def interactItem (s : State) (r : MtxRun) (o : TileOp) (i : Nat) : Item :=
  let (b, ti, tj) := o.tile i
  let t := ceilDiv o.m 128
  let packed := isMx o.out.fmt || fmtBits o.out.fmt % 8 != 0
  if packed && !(ti == t - 1 && tj == t - 1) then idleItem
  else
    let rows := if packed then List.range o.m else
      (List.range (blockRows o.m ti)).map (fun x => 128 * ti + x)
        ++ (if ti = tj then [] else (List.range (blockRows o.m tj)).map (fun x => 128 * tj + x))
    let left := if packed then rows else (List.range (blockRows o.m ti)).map (fun x => 128 * ti + x)
    let lo := if packed then 0 else 128 * tj
    let hi := if packed then o.m else 128 * tj + blockRows o.m tj
    let js := fun (i : Nat) => (List.range (hi - max lo (o.pairStart i))).map (fun x => max lo (o.pairStart i) + x)
    let ins := rows.map (fun x => (⟨o.a, o.k, b * o.m + x, 0, o.k⟩ : Elems))
    let outs := if packed then [(⟨o.out, o.pairs, b, 0, o.pairs⟩ : Elems)] else
      (left.filter (fun i => !(js i).isEmpty)).map (fun i =>
        (⟨o.out, o.pairs, b, o.pairBase i + ((js i).headD 0 - o.pairStart i), (js i).length⟩ : Elems))
    valueItem s r o ins outs (fun v =>
      let vec := fun (x : Nat) => v.getD ((rows.findIdx? (fun y => y == x)).getD 0) []
      let res := (left.filter (fun i => !(js i).isEmpty)).map (fun i => (js i).map (fun j => outElem o (vec i) (vec j) none none))
      let vals := res.map (fun row => row.map Prod.fst)
      (if packed then [vals.flatten] else vals, ((res.flatten.map Prod.snd).foldl (· + ·) 0)))

def elementItem (s : State) (r : MtxRun) (o : TileOp) (i : Nat) : Item :=
  let runs := flatRunsOf o.n (4096 * i) (min (4096 * (i + 1)) (o.m * o.n * o.batch))
  let of := fun (x : Opnd) (one : Bool) => runs.map (fun e => (⟨x, o.n, if one then e.1 / o.m else e.1, e.2.1, e.2.2⟩ : Elems))
  let ins := of o.a false ++ (if o.subop = 0 then [] else of o.b o.bcast)
  let k := runs.length
  valueItem s r o ins (of o.out false) (fun v =>
    ((List.range k).map (fun j =>
      let a := v.getD j []
      let b := v.getD (k + j) []
      (List.range a.length).map (fun x =>
        actOf o.act (((f32 o.alpha).mul (elementOp o.subop (a.getD x FV.zero) (b.getD x FV.zero))).rnd))), 0))

def quantizeItem (s : State) (r : MtxRun) (o : TileOp) (i : Nat) : Item :=
  let runs := flatRunsOf o.n (4096 * i) (min (4096 * (i + 1)) (o.m * o.n * o.batch))
  let of := fun (x : Opnd) => runs.map (fun e => (⟨x, o.n, e.1, e.2.1, e.2.2⟩ : Elems))
  valueItem s r o (of o.a) (of o.out) (fun v => (v.map (fun l => l.map (fun x => ((f32 o.alpha).mul x).rnd)), 0))

/-- REDUCE: item i is 4,096 elements; the rows whose last element lies in it are written with it. -/
def reduceItem (s : State) (r : MtxRun) (o : TileOp) (i : Nat) : Item :=
  let hi := min (4096 * (i + 1)) (o.m * o.n * o.batch)
  let first := 4096 * i / o.n
  let last := hi / o.n
  let rows := (List.range (last - first)).map (fun x => first + x)
  let tail := flatRunsOf o.n (max (last * o.n) (4096 * i)) hi
  let ins := rows.map (fun x => (⟨o.a, o.n, x, 0, o.n⟩ : Elems)) ++ tail.map (fun e => (⟨o.a, o.n, e.1, e.2.1, e.2.2⟩ : Elems))
  valueItem s r o ins (rows.map (fun x => (⟨o.out, 1, x, 0, 1⟩ : Elems)))
    (fun v => ((v.take rows.length).map (fun l => [reduceRow o.subop l]), 0))

/-- TRANSPOSE: 64 KiB of output, element by element as they stand. -/
def transposeItem (s : State) (r : MtxRun) (o : TileOp) (i : Nat) : Item :=
  let w := fmtBits o.a.fmt / 8
  let per := 65536 / w
  let runs := flatRunsOf o.m (per * i) (min (per * (i + 1)) (o.m * o.n * o.batch))
  let src := runs.flatMap (fun e => (List.range e.2.2).map (fun x =>
    -- output row e.1 is column e.1 mod N of batch e.1 div N
    (⟨o.a, o.n, e.1 / o.n * o.m + e.2.1 + x, e.1 % o.n, 1⟩ : Elems)))
  let dst := runs.map (fun e => (⟨o.out, o.m, e.1, e.2.1, e.2.2⟩ : Elems))
  { reads := src.flatMap (fun e => e.rngs s r o), writes := dst.flatMap (fun e => e.rngs s r o)
    go := fun l => ((runs.foldl (fun (a : List (List Byte) × List (List Byte)) e =>
      (a.1 ++ [(a.2.take e.2.2).flatten], a.2.drop e.2.2)) ([], l)).1, 0) }

def moveItem (s : State) (r : MtxRun) (o : TileOp) (i : Nat) : Item :=
  { reads := (⟨o.a, o.n, i, 0, o.n⟩ : Elems).rngs s r o, writes := (⟨o.out, o.n, i, 0, o.n⟩ : Elems).rngs s r o
    go := fun l => (l, 0) }

/-- The values of a KV element run under its format; `scale` the FP16 scale of an INT8 one. -/
def kvValues (p : KvPool) (l scale : List Byte) : List FV :=
  if p.int8 then
    (decodeElems 9 p.hdim l []).map (fun v => v.mul (fmtFp16.decode (leNat scale)))
  else decodeElems p.fmt p.hdim l []

/-- ATTEND_PAGED: KV head `j` over the tokens of the sequence that the operation's base names (R333, R334). -/
def attendItem (s : State) (r : MtxRun) (o : TileOp) (j : Nat) : Item :=
  let ref := r.bases.getD o.b.base 0
  let p := s.pool (rfPool ref)
  let lay := s.kvLayer ref
  let g := o.m / o.n
  let q := (List.range g).map (fun x => (⟨o.a, o.k, j * g + x, 0, o.k⟩ : Elems))
  let outs := (List.range g).map (fun x => (⟨o.out, o.k, j * g + x, 0, o.k⟩ : Elems))
  let part := fun (which : Nat) => (List.range lay.len).flatMap (fun t =>
    match (p.headParts (t % p.perPage) j)[which]? with
    | some (off, n) => p.pageRange (lay.pages.getD (t / p.perPage) 0) off n
    | none => [])
  let kv := (List.range (if p.int8 then 4 else 2)).map (fun w => ({ place := .dpa p.key p.keyEpoch, pieces := part w } : Rng))
  let el := p.hdim * p.elem
  { reads := q.flatMap (fun e => e.rngs s r o) ++ kv, writes := outs.flatMap (fun e => e.rngs s r o)
    go := fun l =>
      let qs := decodeAll q l
      let b := fun (w t n : Nat) => ((l.getD (g + w) []).drop (t * n)).take n
      let toks := (List.range lay.len).map (fun t =>
        (kvValues p (b 0 t el) (b 2 t 2), kvValues p (b 1 t el) (b 3 t 2)))
      encodeAll outs (qs.map (fun x => attendHead o.alpha x toks)) }

/-- Work item `i` of an operation. -/
def opItem (s : State) (r : MtxRun) (o : TileOp) (i : Nat) : Item :=
  let o := o.raw
  if o.opc = GEMM then gemmItem s r o i
  else if o.opc = INTERACT then interactItem s r o i
  else if o.opc = ATTEND then attendItem s r o i
  else if o.opc = ELEMENTWISE then elementItem s r o i
  else if o.opc = REDUCE then reduceItem s r o i
  else if o.opc = TRANSPOSE then transposeItem s r o i
  else if o.opc = QUANTIZE then quantizeItem s r o i
  else if o.opc = MOVE then moveItem s r o i
  else idleItem

/-! ## Doing a work item -/

/-- Whole blocks around a range. -/
def blockSpan (a n : Nat) : Nat × Nat := (a / 4096 * 4096, (a % 4096 + n + 4095) / 4096 * 4096)

/-- What an item's ranges ask of translation and of the homes. -/
def Rng.needs (g : Rng) (write : Bool) : List Need :=
  let acc := if write then 2 else 1
  match g.place with
  | .loc => []
  | .va => g.pieces.map (fun p =>
      if caCompressed g.cattr then ⟨(blockSpan p.1 p.2).1, (blockSpan p.1 p.2).2, acc, false⟩ else ⟨p.1, p.2, acc, false⟩)
  | .dpa _ _ => g.pieces.map (fun p =>
      if caCompressed g.cattr then ⟨(blockSpan p.1 p.2).1, (blockSpan p.1 p.2).2, acc, true⟩ else ⟨p.1, p.2, acc, true⟩)

/-- The block addresses of translated pieces. -/
def blocksIn (segs : List Seg) : List Nat :=
  segs.flatMap (fun p => (List.range (p.len / 4096)).map (fun i => p.addr + 4096 * i))

/-- Read part of a compressed range: its blocks decoded, cut to the bytes asked. -/
def State.readCoded (s : State) (key slice attr off len : Nat) (blocks : List Nat) : State × List Byte × Bool :=
  let (s, bytes, bad, _) := blocks.foldl (fun (a : State × List Byte × Bool × Nat) b =>
    let (s, l, m) := a.1.readOperandBlock key slice b attr
    let hit := (maskBits m 64).any (fun i => decide (off < a.2.2.2 + 64 * i + 64) && decide (a.2.2.2 + 64 * i < off + len))
    (s, a.2.1 ++ l, a.2.2.1 || hit, a.2.2.2 + 4096)) (s, [], false, 0)
  (s, (bytes.drop off).take len, bad)

/-- Poisoned lines of a local range. -/
def Prog.localBad (p : Prog) (a n : Nat) : Bool := (linesOf a n).any (fun l => p.localPoison.contains l)

/-- Read one range; `segs` are the pieces of its needs. -/
def State.readRng (s : State) (d : Desc) (r : MtxRun) (g : Rng) (segs : List (List Seg)) (ext : List Byte) :
    State × List Byte × Bool × List Byte :=
  match g.place with
  | .loc =>
    let p := s.mtx.progs.get {} (r.slot.getD 0)
    (s, g.pieces.flatMap (fun x => p.local_.readN x.1 x.2), g.pieces.any (fun x => p.localBad x.1 x.2), ext)
  | .va =>
    (List.zip g.pieces segs).foldl (fun (a : State × List Byte × Bool × List Byte) e =>
      let (s, acc, bad, ext) := a
      if caCompressed g.cattr then
        if !s.descServed d then (s.staleAccess, acc ++ s.poisonBytes e.1.1 e.1.2, true, ext)
        else
          let (s, l, b) := s.readCoded (dKeySlot d.bits) (dSlice d.bits) g.cattr (e.1.1 % 4096) e.1.2 (blocksIn e.2)
          (s, acc ++ l, bad || b, ext)
      else
        let (s, l, b, ext) := State.readSegs d e.2 ext s
        (s, acc ++ l, bad || b, ext)) (s, [], false, ext)
  | .dpa key epoch =>
    if caCompressed g.cattr then
      (List.zip g.pieces segs).foldl (fun (a : State × List Byte × Bool × List Byte) e =>
        let (s, acc, bad, ext) := a
        if !s.keyServes key epoch then (s.staleAccess, acc ++ s.poisonBytes e.1.1 e.1.2, true, ext)
        else
          let (s, l, b) := s.readCoded key (dSlice d.bits) g.cattr (e.1.1 % 4096) e.1.2 (blocksIn e.2)
          (s, acc ++ l, bad || b, ext)) (s, [], false, ext)
    else
      let (s, l, b) := State.readKeyed key epoch g.pieces s
      (s, l, b, ext)

def State.setProg (s : State) (n : Nat) (p : Prog) : State := { s with mtx := { s.mtx with progs := s.mtx.progs.put n p } }

/-- Write one range, its lines poisoned where the item consumed poison (R345). -/
def State.writeRng (s : State) (tok : Nat) (d : Desc) (r : MtxRun) (g : Rng) (segs : List (List Seg)) (bytes : List Byte)
    (poison : Bool) : State :=
  match g.place with
  | .loc =>
    let n := r.slot.getD 0
    (g.pieces.foldl (fun (a : State × List Byte) x =>
      let p := a.1.mtx.progs.get {} n
      let whole := wholeLines x.1 x.2
      let lines := linesOf x.1 x.2
      let p := { p with local_ := p.local_.writeN x.1 (a.2.take x.2)
                        localPoison := if poison then (p.localPoison ++ lines).eraseDups
                                       else p.localPoison.filter (fun l => !whole.contains l) }
      (a.1.setProg n p, a.2.drop x.2)) (s, bytes)).1
  | .va =>
    let s := State.writeSegs tok d (descCredit d) segs.flatten bytes s
    if poison then s.poisonPieces ((segs.flatten.filter (fun p => !p.host)).map (fun p => (p.addr, p.len))) else s
  | .dpa key epoch =>
    let s := State.writeKeyed tok key epoch (descCredit d) g.pieces bytes s
    if poison then s.poisonPieces g.pieces else s

/-- Cut a list of pieces into the lists of each range. -/
def splitNeeds : List Nat → List (List Seg) → List (List (List Seg))
  | [], _ => []
  | n :: t, l => l.take n :: splitNeeds t (l.drop n)

/-- How a work item comes out. -/
inductive ItemEnd where
  | wait (s : State)
  | stop (s : State) (c : Cpl)
  | done (s : State) (poison : Bool) (sat : Nat)

/-- Do a work item: its tile translated whole, its inputs read, its outputs written (R233, R345). -/
def State.doItem (s : State) (tok : Nat) (d : Desc) (r : MtxRun) (it : Item) (ext : List Byte) : ItemEnd :=
  let rn := it.reads.map (fun g => g.needs false)
  let wn := it.writes.map (fun g => g.needs true)
  let needs := rn.flatten ++ wn.flatten
  match s.xlateTiles tok d [needs] [] with
  | (s, none) => .wait s
  | (s, some (_, some c)) => .stop s c
  | (s, some (done, none)) =>
    let segs := done.headD []
    let parts := splitNeeds ((rn ++ wn).map List.length) segs
    let hosted := (List.zip it.reads parts).findSome? (fun e =>
      if caCompressed e.1.cattr && e.2.flatten.any (fun p => p.host) then some ((e.1.pieces.headD (0, 0)).1) else none)
    match hosted with
    | some va => .stop s { status := ST_PERMISSION, reason := CDC_HOST, result := va }
    | none =>
      match s.engineReady tok (deviceRanges needs segs) with
      | (s, false) => .wait s
      | (s, true) =>
        let (s, ins, poison, _) := (List.zip it.reads parts).foldl
          (fun (a : State × List (List Byte) × Bool × List Byte) e =>
            let (s, l, b, ext) := a.1.readRng d r e.1 e.2 a.2.2.2
            (s, a.2.1 ++ [l], a.2.2.1 || b, ext)) (s, [], false, ext)
        let (outs, sat) := it.go ins
        let s := (List.zip (List.zip it.writes (parts.drop it.reads.length)) outs).foldl
          (fun (s : State) e => s.writeRng tok d r e.1.1 e.1.2 e.2 poison) s
        .done s poison sat

end Sys2Proof.Machine
end

