-- ==== Sys2Proof/Machine/MtxRows.lean ====
section
/-! DEFINITION. TP_LOAD, TP_RUN, TP_UNLOAD and the end of a work item (chapter 10; R13, R128). -/

namespace Sys2Proof.Machine

def State.setMtx (s : State) (f : MtxState → MtxState) : State := { s with mtx := f s.mtx }
def State.prog (s : State) (n : Nat) : Prog := s.mtx.progs.get {} n

/-- MTX_LAST_ERROR. -/
def State.mtxError (s : State) (handle op reason loc : Nat) : State :=
  s.setMtx (fun m => { m with lastError := (handle, op, reason, loc, s.tick.now % 2 ^ 32) })

/-! ## Loads (R339 to R341) -/

def tlBin (d : DescBits) : Nat := dfield d 16 8
def tlBinLen (d : DescBits) : Nat := dfield d 24 4
def tlKey (d : DescBits) : Nat := dfield d 28 2
def tlImg (d : DescBits) : Nat := dfield d 32 8
def tlImgLen (d : DescBits) : Nat := dfield d 40 8
def tlArea (d : DescBits) : Nat := dfield d 48 8
def tlAreaLen (d : DescBits) : Nat := dfield d 56 8

/-- The lowest FREE program slot. -/
def State.freeProg (s : State) : Option Nat := firstFree (fun n => (s.prog n).phase == .free) 256

/-- The slice holds global matrix cluster `k`. -/
def State.holdsMtx (s : State) (slice k : Nat) : Bool :=
  (s.sliceViews slice).all (fun v => sliceExistsBits v && (sliceMtx v).testBit k)

def State.liveProgs (s : State) : List Prog := (s.mtx.progs.filter (fun e => e.2.phase != .free)).map Prod.snd

/-- Scratch KiB allocated in a region; buffer KiB allocated in a cluster. -/
def State.scratchUsed (s : State) (h : Nat) : Nat :=
  ((s.liveProgs.filter (fun p => p.places.any (fun x => x.home == h))).map (fun p => p.scratchKib)).foldl (· + ·) 0
def State.bufUsed (s : State) (k : Nat) : Nat :=
  ((s.liveProgs.filter (fun p => p.places.any (fun x => x.all.contains k))).map (fun p => p.bufKib)).foldl (· + ·) 0

/-- The plans that a reservation is held against: the slice's active plan and its pending one. -/
def State.heldPlans (s : State) (slice : Nat) : List Plan :=
  (s.slicePlans slice).active.toList ++ (s.slicePlans slice).pending.toList

/-- `f` of every cycle record of the slice's plans is at least `n`. -/
def State.plansCover (s : State) (slice n : Nat) (f : Cost → Nat) : Bool :=
  (s.heldPlans slice).all (fun p => p.cycle.all (fun c => decide (n ≤ f c)))

/-- Checks 1 to 8 of Table 10-11. -/
def State.loadFails (s : State) (d : DescBits) (l : List Byte) (b : Binary) : Option Cpl :=
  let slice := dSlice d
  let fit := fun (r : Nat) => some (cpl ST_REFUSED_FIT r)
  let clusters := b.places.flatMap Placement.all
  let room : Room := { nPlace := b.nPlace, scratch := 1024 * b.scratchKib, buf := 1024 * b.bufKib, weight := b.weightBytes }
  if tlBin d % 64 ≠ 0 ∨ tlArea d % 4096 ≠ 0 ∨ tlAreaLen d % 4096 ≠ 0
      ∨ b.formatOk l (tlBinLen d) = false then fit MTX_FORMAT
  else if s.freeProg.isNone then fit MTX_SLOTS
  else if clusters.any (fun k => !s.holdsMtx slice k || !s.mtxIn k) then some (cpl ST_PERMISSION MTX_PLACEMENT)
  else if b.ops.any (fun o => !o.operandsOk room) then fit MTX_OPERAND
  else if b.places.any (fun p => decide (1024 * (s.split p.home).scratch < s.scratchUsed p.home + b.scratchKib)) then
    fit MTX_FIT_SCRATCH
  else if clusters.any (fun k => decide (4096 < s.bufUsed k + b.bufKib)) then fit MTX_FIT_BUFFER
  else if b.ops.any (fun o => decide (tickCycles9 s.period < 10 * o.recorded.run)) then fit MTX_FIT_TICK
  else if !s.plansCover slice (b.reserve + ((s.liveProgs.filter (fun p => p.slice == slice)).map (fun p => p.reserve)).foldl
      (· + ·) 0) Cost.mtx then fit MTX_FIT_PLAN
  else none

/-- Length of an encapsulated image (R583). -/
def sealedLen (w : Nat) : Nat := 64 + w + 16 * ceilDiv w (2 ^ 20)

/-- Check 9 of Table 10-11, once the weight area is translated. -/
def State.areaFails (s : State) (d : DescBits) (w : Nat) (segs : List Seg) : Bool :=
  decide (tlAreaLen d < w) || tlImgLen d != (if tlKey d = 0 then w else sealedLen w)
    || segs.any (fun p => p.host || !s.holdsRange (dSlice d) p.addr p.len)

/-- The entry that a model-key handle names, when a TP_LOAD may use it (R582). -/
def State.modelKey (s : State) (d : DescBits) (program : Nat) : Option ModelKey :=
  let h := tlKey d
  match s.sec.modelKeys.find (h % 64) with
  | none => none
  | some k =>
    if h / 64 % 4 = 0 ∧ k.live = true ∧ k.gen = h / 256 ∧ k.slot = dKeySlot d ∧ k.epoch = dKeyEpoch d
        ∧ (k.program = 0 ∨ k.program = program) then some k else none

/-- Chunk i of a sealed image, opened (R583). -/
def openChunk (key img : List Byte) (n i len : Nat) : Option (List Byte) :=
  let iv := (img.drop 24).take 12
  let iv := iv.take 8 ++ leBytes 4 ((leNat (iv.drop 8) + i) % 2 ^ 32)
  let aad := img.take 36 ++ leBytes 8 i ++ [if i + 1 = n then 1 else 0]
  Config.gcmOpen key iv aad ((img.drop (64 + i * (2 ^ 20 + 16))).take (len + 16))

def openChunks (key img : List Byte) (w n : Nat) : Nat → Nat → Option (List Byte)
  | 0, _ => some []
  | k + 1, i =>
    match openChunk key img n i (min (2 ^ 20) (w - i * 2 ^ 20)), openChunks key img w n k (i + 1) with
    | some a, some b => some (a ++ b)
    | _, _ => none

/-- The plaintext of a weight image (R584). -/
def openImage (key img : List Byte) (program w : Nat) : Option (List Byte) :=
  let f := fun o n => leNat ((img.drop o).take n)
  let n := ceilDiv w (2 ^ 20)
  if f 0 2 = 0x3EE1 ∧ f 2 2 = 1 ∧ f 8 8 = program ∧ f 16 8 = w then openChunks key img w n n 0 else none

/-- A load ends refused: MTX_EVT.LOAD_REFUSED and MTX_LAST_ERROR. -/
def State.loadRefused (s : State) (tok : Nat) (c : Cpl) : State :=
  ((s.mtxError 0 0 c.reason LOC_MD).setEvt F.MTX_EVT_LOAD_REFUSED).opEnd tok c

/-- The slot and its allocations are freed. -/
def Prog.release (p : Prog) : Prog := { gen := p.gen }

/-- Checks passed: the slot is LOADING, its scratch and buffers hold zeros, its weights are to be copied in pieces. -/
def State.startLoad (s : State) (tok : Nat) (d : Desc) (b : Binary) (segs : List Seg) : State :=
  match s.freeProg with
  | none => s
  | some n =>
    let p : Prog := { phase := .loading, gen := ((s.prog n).gen + 1) % 256, slice := dSlice d.bits, programId := b.programId
                      weightBytes := b.weightBytes, reserve := b.reserve, scratchKib := b.scratchKib, bufKib := b.bufKib
                      places := b.places, ops := b.ops, warea := segs.map (fun x => (x.addr, x.len))
                      key := dKeySlot d.bits, keyEpoch := dKeyEpoch d.bits, loader := some tok
                      wkey := (s.modelKey d.bits b.programId).map (fun k => k.key) }
    let s := s.setProg n p
    if b.weightBytes = 0 then s
    else { s with tick := { s.tick with loads := s.tick.loads ++
           [{ tok := tok, slice := dSlice d.bits, left := b.weightBytes, requested := s.roundTick }] } }

/-- The slot that a TP_LOAD is loading. -/
def State.loadingSlot (s : State) (tok : Nat) : Option Nat :=
  ((s.mtx.progs.filter (fun e => e.2.loader == some tok)).map Prod.fst).head?

/-- Pieces of a load are still to be moved. -/
def State.loadPending (s : State) (tok : Nat) : Bool := s.tick.loads.any (fun j => j.tok == tok && 0 < j.left)

/-- The first row of a TP_LOAD: the binary read and checked. -/
def State.beginLoad (s : State) (tok : Nat) (ext : List Byte) : State :=
  match s.desc tok with
  | none => s
  | some d =>
    let refuse := fun (s : State) (c : Cpl) => (s.runDesc tok 0x30 (fun _ s => (s, none))).loadRefused tok c
    if dOpcode d.bits ≠ 0x30 ∨ s.mayBegin tok d = false then s
    else match s.acquire tok d [⟨tlBin d.bits, tlBinLen d.bits, 1, false⟩] with
      | .wait s => s
      | .stop s c => refuse s c
      | .ready s segs =>
        let (s', l, poison, _) := State.readSegs d (segs.headD []) ext s
        let b := parseBinary l
        if poison then refuse s' (cpl ST_REFUSED_FIT MTX_FORMAT)
        else match s'.loadFails d.bits l b with
          | some c => refuse s' c
          | none =>
            match s'.xlateRange tok d (tlArea d.bits) (tlAreaLen d.bits) 2 with
            | (_, .wait) => s
            | (s', .fault _ _) => refuse s' (cpl ST_REFUSED_FIT MTX_FIT_WEIGHTS)
            | (s', .ok area) =>
              if s'.areaFails d.bits b.weightBytes area then refuse s' (cpl ST_REFUSED_FIT MTX_FIT_WEIGHTS)
              else (s'.runDesc tok 0x30 (fun _ s => (s, none))).startLoad tok d b area

/-- The last row of a TP_LOAD, once its pieces are moved: check 10, the weights and their digest. -/
def State.endLoad (s : State) (tok n : Nat) (d : Desc) (ext : List Byte) : State :=
  let p := s.prog n
  let free := fun (s : State) (c : Cpl) => (s.setProg n p.release).loadRefused tok c
  match s.xlateNeeds tok d [⟨tlImg d.bits, tlImgLen d.bits, 1, false⟩] [] with
  | .wait s => s
  | .stop s c => free s c
  | .ready s segs =>
    let img := segs.headD []
    let dst := cutPieces p.warea 0 p.weightBytes
    let ranges := (img.filter (fun x => !x.host)).map (fun x => (x.addr, x.len, false)) ++ dst.map (fun x => (x.1, x.2, true))
    match s.engineReady tok ranges with
    | (s, false) => s
    | (s, true) =>
      let bad := if img.any (fun x => x.host) then [] else s.badOffsets 0 (img.map (fun x => (x.addr, x.len)))
      let (s, l, poison, _) := State.readSegs d img ext s
      let plain := if tlKey d.bits = 0 then some l
        else if poison then none
        else match p.wkey with
          | none => none
          | some k => openImage k l p.programId p.weightBytes
      match plain with
      | none =>
        -- R340: the contents of the weight area are then undefined
        let (w, s) := s.drawBytes p.weightBytes
        free (State.writeKeyed tok p.key p.keyEpoch none dst w s) (cpl ST_PERMISSION MTX_WEIGHT_AUTH)
      | some w =>
        let s := State.writeKeyed tok p.key p.keyEpoch (descCredit d) dst w s
        let s := bad.foldl (fun (s : State) b => s.poisonPieces (cutPieces p.warea b.1 (b.2 - b.1))) s
        let s := s.setProg n { p with phase := .loaded, loader := none, wkey := none, digest := Config.sha384 w }
        (s.setEvt F.MTX_EVT_LOADED).opEnd tok { result := n + at_ 8 p.gen }

/-- TP_LOAD: taken once to check the binary and make the allocations, and again when the weights' pieces are moved. -/
def execTpLoad (tok : Nat) (ext : List Byte) (s : State) : Host.Outcome State Fault Refusal :=
  .next (match s.loadingSlot tok, s.desc tok with
    | some n, some d =>
      if s.loadPending tok then s
      else
        let s := s.endLoad tok n d ext
        { s with tick := { s.tick with loads := s.tick.loads.filter (fun j => j.tok != tok) } }
    | _, _ => s.beginLoad tok ext)

/-! ## Handles and runs (R342 to R346) -/

/-- The program that a handle names for a slice. -/
def State.progOf (s : State) (handle slice : Nat) : Option Prog :=
  let p := s.prog (handle % 256)
  if p.phase = .loaded ∧ p.gen = handle / 256 ∧ p.slice = slice then some p else none

def trHandle (d : DescBits) : Nat := dfield d 16 2
def trFirst (d : DescBits) : Nat := dfield d 18 2
def trOps (d : DescBits) : Nat := dfield d 20 2
def trBases (d : DescBits) : List Nat := (List.range 5).map (fun i => dfield d (24 + 8 * i) 8)

/-- The operations a TP_RUN runs. -/
def Prog.range (p : Prog) (d : DescBits) : List TileOp := (p.ops.drop (trFirst d)).take (trOps d)

/-- Global cluster number of an operation. -/
def clusterOf (places : List Placement) (o : TileOp) : Nat :=
  match places[o.place]? with | some p => p.cluster o.cluster | none => 0

def Prog.critical (p : Prog) (d : DescBits) : Nat :=
  criticalPath (clusterOf p.places) (fun o => o.recorded.run) (p.range d) [] 0

/-- Clusters that a run uses. -/
def Prog.clusters (p : Prog) (d : DescBits) : List Nat := ((p.range d).map (clusterOf p.places)).eraseDups

/-- What refuses a TP_RUN on arrival (R342, R343). -/
def runCheck (d : Desc) (s : State) : Option Cpl :=
  match s.progOf (trHandle d.bits) (dSlice d.bits) with
  | none => some (cpl ST_PERMISSION MTX_HANDLE)
  | some p =>
    if trOps d.bits = 0 ∨ p.ops.length < trFirst d.bits + trOps d.bits then
      some (cpl ST_REFUSED_FIT MTX_OPERAND)
    else if tickCycles9 s.period < 10 * p.critical d.bits then some (cpl ST_REFUSED_FIT MTX_CRITICAL)
    else none

def unloadCheck (d : Desc) (s : State) : Option Cpl :=
  if (s.progOf (trHandle d.bits) (dSlice d.bits)).isNone then some (cpl ST_PERMISSION MTX_HANDLE) else none

/-- R338: the charge of a TP_RUN. -/
def runCost (d : Desc) (s : State) : Cost :=
  match s.progOf (trHandle d.bits) (dSlice d.bits) with
  | none => {}
  | some p =>
    ((p.range d.bits).map (fun o => o.recorded)).foldl (fun (c : Cost) r =>
      c.add { mtx := r.mtx, stk := r.stk, cdc := r.cdc }) {}

/-- The program of a run already admitted: LOADED, or UNLOADING since (R347). -/
def State.progRunning (s : State) (d : Desc) : Option Prog :=
  let p := s.prog (trHandle d.bits % 256)
  if (p.phase = .loaded ∨ p.phase = .unloading) ∧ p.gen = trHandle d.bits / 256 ∧ p.slice = dSlice d.bits then some p
  else none

/-- What refuses a run at its round, and as it starts: its handle, and the KV references it names (R342, R460). -/
def State.runRefsFail (s : State) (d : Desc) : Option Cpl :=
  match s.progRunning d with
  | none => some (cpl ST_PERMISSION MTX_HANDLE)
  | some p =>
    ((p.range d.bits).filter (fun o => o.b.space == SP_KV)).findSome? (fun o =>
      let ref := (trBases d.bits).getD o.b.base 0
      (s.refRefuses ref (dSlice d.bits) (dKeySlot d.bits) true).orElse (fun _ =>
        -- HEADS and HDIM are the pool's
        if (s.pool (rfPool ref)).heads ≠ o.n ∨ (s.pool (rfPool ref)).hdim ≠ o.k then some (cpl ST_PERMISSION KV_SEQ)
        else match s.kvSeq (rfSeq ref) with
          | some q => if q.remote then some (cpl ST_PERMISSION KV_REMOTE) else none
          | none => none))

/-! ## Progress of a run -/

def MtxRun.items (r : MtxRun) : Nat := (r.ops.map TileOp.items).foldl (· + ·) 0
def MtxRun.finished (r : MtxRun) : Nat := (r.done.vals).foldl (· + ·) 0

/-- Operation at position `p` of the run has finished; a fence has when it has been passed. -/
def MtxRun.opDone (r : MtxRun) (p : Nat) : Bool :=
  match r.ops[p]? with
  | some o => if o.opc = TFENCE then r.done.has p else decide (o.items ≤ r.done.get 0 p)
  | none => true

def MtxRun.allDone (r : MtxRun) : Bool := (List.range r.ops.length).all r.opDone

/-- The next operation of the run on a cluster. -/
def MtxRun.nextOp (r : MtxRun) (k : Nat) : Option Nat :=
  (List.range r.ops.length).find? (fun p =>
    !r.opDone p && (match r.ops[p]? with | some o => clusterOf r.places o == k | none => false))

/-- Operation `p` may start or go on: with JOIN, only when every earlier one has finished and its writes are applied. -/
def MtxRun.joined (r : MtxRun) (d : Desc) (p : Nat) : Bool :=
  match r.ops[p]? with
  | some o => !o.join || r.done.has p || ((List.range p).all r.opDone && decide (d.awaiting ≤ 1))
  | none => false

def State.setRun (s : State) (tok : Nat) (r : MtxRun) : State := s.setMtx (fun m => { m with runs := m.runs.put tok r })

/-- The run ends with `c`, at the operation of index `op`; whole runs say 0xFFFF (R346). -/
def State.endRun (s : State) (tok : Nat) (r : MtxRun) (c : Cpl) (op : Nat) : State :=
  let poison := if r.poison ∧ c.status = ST_OK then cpl ST_POISONED MTX_POISON else c
  let result := if poison.reason / 256 = 0x07 ∨ poison.reason = CDC_HOST then poison.result
    else if r.slot.isNone then r.attended else op
  let s := if c.status = ST_OK then s
    else s.mtxError (match r.slot with | some n => n + at_ 8 (s.prog n).gen | none => 0) op c.reason LOC_MD
  (s.setMtx (fun m => { m with runs := m.runs.del tok })).opEnd tok
    { poison with done := r.finished, dropped := r.items - r.finished, result := result }

/-- Pass the fences that a run has come to: a UNIT fence at once, the others when its earlier writes are visible (R335). -/
def MtxRun.passFences (r : MtxRun) (d : Desc) : MtxRun :=
  (List.range r.ops.length).foldl (fun (r : MtxRun) p =>
    match r.ops[p]? with
    | some o =>
      if o.opc = TFENCE ∧ r.nextOp (clusterOf r.places o) = some p ∧ r.joined d p = true ∧ (o.subop = 0 ∨ d.awaiting ≤ 1) then
        { r with done := r.done.put p 0 }
      else r
    | none => r) r

/-- Record a run's progress; the run ends when its operations have all finished. -/
def State.settleRun (s : State) (tok : Nat) (r : MtxRun) : State :=
  match s.desc tok with
  | none => s
  | some d =>
    let r := r.passFences d
    if r.allDone then (s.setRun tok r).endRun tok r {} 0xFFFF else s.setRun tok r

/-- Earlier runs admitted that still have work on a cluster keep a later one off it (R335). -/
def State.clusterTurn (s : State) (tok : Nat) (d : Desc) (k : Nat) : Bool :=
  s.rings.descs.all (fun t e =>
    let before := decide (e.admitTick < d.admitTick) || (e.admitTick == d.admitTick && decide (t < tok))
    let counts := (dOpcode e.bits == 0x31 || dOpcode e.bits == 0x55) && (e.phase == .admitted || e.phase == .running)
    !(before && counts && t != tok && e.uses.contains k) ||
      (match s.mtx.runs.find t with | some r => (r.nextOp k).isNone | none => e.begun))

/-- An operation that may not run at all: its cluster has left service, or its sequence is too long (R344, R334). -/
def State.opStops (s : State) (r : MtxRun) (o : TileOp) : Option Cpl :=
  if !s.mtxIn (clusterOf r.places o) then some (cpl ST_ABORTED MTX_CLUSTER_LOST)
  else if o.opc = ATTEND ∧ (s.pool (rfPool (r.bases.getD o.b.base 0))).phase = .failed then
    some (cpl ST_POISONED KV_POOL_FAILED)
  else if o.opc = ATTEND ∧ o.arg < (s.kvLayer (r.bases.getD o.b.base 0)).len then some (cpl ST_REFUSED_FIT MTX_ATTEND_LEN)
  else none

/-- A run is stopped at its first operation that has not finished on cluster `k` (R16, R344). -/
def State.loseCluster (s : State) (k : Nat) : State :=
  (s.mtx.runs.filter (fun e => (e.2.nextOp k).isSome)).foldl (fun (s : State) e =>
    (s.setEvt F.MTX_EVT_CLUSTER_LOST).endRun e.1 e.2 (cpl ST_ABORTED MTX_CLUSTER_LOST)
      (e.2.first + (e.2.nextOp k).getD 0)) s

/-- A run is stopped from outside (R67): at its first operation that has not finished. -/
def State.stopRun (s : State) (tok : Nat) (c : Cpl) : State :=
  match s.mtx.runs.find tok with
  | none => s
  | some r => s.endRun tok r c (r.first + ((List.range r.ops.length).find? (fun p => !r.opDone p)).getD 0)

/-- The KV pages that an operation reads when it starts (R462, R470). -/
def State.opStarts (s : State) (r : MtxRun) (o : TileOp) : State :=
  if o.opc = ATTEND then
    let ref := r.bases.getD o.b.base 0
    let lay := s.kvLayer ref
    (lay.pages.take (ceilDiv lay.len (s.pool (rfPool ref)).perPage)).foldl (fun (s : State) pg => s.readPage (rfPool ref) pg) s
  else s

/-- A run begins: its operations wait on their clusters. -/
def State.beginRun (s : State) (tok : Nat) (r : MtxRun) : State :=
  match (List.range r.ops.length).find? (fun p => match r.ops[p]? with
      | some o => !s.mtxIn (clusterOf r.places o) | none => false) with
  | some p => (s.setEvt F.MTX_EVT_CLUSTER_LOST).endRun tok r (cpl ST_ABORTED MTX_CLUSTER_LOST) (r.first + p)
  | none => s.settleRun tok r

/-- TP_RUN: the run starts. It waits for earlier writers of the sequences it names (R463). -/
def execTpRun (tok : Nat) (s : State) : Host.Outcome State Fault Refusal :=
  .next (match s.desc tok with
    | none => s
    | some d =>
      if dOpcode d.bits = 0x31 ∧ s.mayBegin tok d = true ∧ s.kvOrdered tok d = true then
        match (creditRefused d s).orElse (fun _ => s.runRefsFail d) with
        | some c => s.runDesc tok 0x31 (fun _ s => (s, some c))
        | none =>
          let p := s.prog (trHandle d.bits % 256)
          (s.runDesc tok 0x31 (fun _ s => (s, none))).beginRun tok
            { slot := some (trHandle d.bits % 256), first := trFirst d.bits, places := p.places, ops := p.range d.bits
              bases := trBases d.bits }
      else s)

/-- TP_UNLOAD (R347): when every run admitted earlier has completed, the slot and its allocations are freed. -/
def execTpUnload (tok : Nat) (s : State) : Host.Outcome State Fault Refusal :=
  .next (match s.desc tok with
    | none => s
    | some d =>
      let n := trHandle d.bits % 256
      let p := s.prog n
      if p.unloader = some tok then
        if s.rings.descs.any (fun _ e => dOpcode e.bits == 0x31 && trHandle e.bits % 256 == n && !e.finished
            && (e.phase == .admitted || e.phase == .running)) then s
        else s.runDesc tok 0x32 (fun _ s => ((s.setProg n p.release).setEvt F.MTX_EVT_UNLOADED, some {}))
      else s.runDesc tok 0x32 (fun _ s => (s, some (cpl ST_PERMISSION MTX_HANDLE))))

/-! ## Work items (R13, R128) -/

/-- A result of a superseded attempt is discarded (R128). -/
def State.countStale (s : State) : State :=
  ({ s with ord := { s.ord with staleCount := s.ord.staleCount + 1 } }).setEvt F.FAB_ORD_EVT_STALE

/-- R301: the bubbles of an operation that decodes are counted when its last item is done. The cycles that its units waited are
not stated, only bounded (R302): a free number (assumption 26). -/
def State.countBubbles (s : State) (o : TileOp) (done : Nat) : State :=
  if o.dec = 0 ∨ done < o.items then s
  else
    let (n, s) := s.draw
    { s with cdc := { s.cdc with bubbles := s.cdc.bubbles + n } }

/-- A work item of a run finishes on a cluster, its attempt being current and without an error. -/
def State.workItem (s : State) (tok k : Nat) (d : Desc) (r : MtxRun) (ext : List Byte) : State :=
  let r := r.passFences d
  match r.nextOp k with
  | none => s.settleRun tok r
  | some p =>
    match r.ops[p]? with
    | none => s
    | some o =>
      if o.opc = TFENCE ∨ r.joined d p = false ∨ s.clusterTurn tok d k = false then s.settleRun tok r
      else match s.opStops r o with
        | some c =>
          let s := if c.reason = MTX_CLUSTER_LOST then s.setEvt F.MTX_EVT_CLUSTER_LOST else s
          s.endRun tok r c (r.first + p)
        | none =>
          let s' := if r.done.has p then s else s.opStarts r o
          let i := r.done.get 0 p
          match s'.doItem tok d r (opItem s' r o i) ext with
          | .wait s => s
          | .stop s c => s.endRun tok r c (r.first + p)
          | .done s poison sat =>
            let s := s.setMtx (fun m => { m with tiles := m.tiles + 1, intSat := m.intSat + sat
                                                 poisoned := m.poisoned + boolNat poison })
            let s := s.countBubbles o (i + 1)
            let s := if sat = 0 then s else s.setEvt F.MTX_EVT_INT_SAT
            let s := if poison then s.setEvt F.MTX_EVT_POISON else s
            let len := if o.opc = ATTEND then (s.kvLayer (r.bases.getD o.b.base 0)).len else r.attended
            s.settleRun tok { r with done := r.done.put p (i + 1), poison := r.poison || poison, attended := len }

/-- A work item is to run again under the next attempt number (R13). -/
def State.retryItem (s : State) (tok k : Nat) (r : MtxRun) : State :=
  (s.setRun tok { r with attempts := r.attempts.updD 0 k (fun x => x + 1) }).setMtx (fun m => { m with retries := m.retries + 1 })

end Sys2Proof.Machine
end

