-- ==== Sys2Proof/Machine/KvRows.lean ====
section
/-! DEFINITION. The requests of the KV service (chapter 14). -/

namespace Sys2Proof.Machine

/-! ## Operands (Table 14-6) -/

def kvRef (d : DescBits) : Nat := dfield d 16 8
def kvCount (d : DescBits) : Nat := dfield d 24 4
/-- POOL of the requests that name a pool: byte 24 of KV_POOL_CREATE, byte 16 of the others. -/
def kvPoolField (d : DescBits) : Nat := if dOpcode d = 0x50 then dfield d 24 1 else dfield d 16 1

/-- The pools that a descriptor names. -/
def State.kvPools (s : State) (d : DescBits) : List Nat :=
  let op := dOpcode d
  if op = 0x51 ∨ op = 0x52 ∨ op = 0x5A then [dfield d 16 1]
  else if op ∈ [0x53, 0x54, 0x55, 0x56, 0x57, 0x58, 0x59] then [rfPool (kvRef d)]
  else if op = 0x31 then
    (((s.prog (trHandle d % 256)).range d).filter (fun o => o.b.space == SP_KV)).map (fun o =>
      rfPool ((trBases d).getD o.b.base 0))
  else []

/-- Operand ranges, found at arrival (R471), and a pool that is being destroyed (R459). -/
def kvOperandsOk (d : DescBits) : Bool :=
  let op := dOpcode d
  if op = 0x50 then dfield d 16 8 % 64 == 0
  else if op = 0x53 then decide (1 ≤ kvCount d ∧ kvCount d ≤ 65536) && dfield d 32 8 % 64 == 0
  else if op = 0x54 then decide (1 ≤ dfield d 28 4 ∧ dfield d 28 4 ≤ 65536) && dfield d 32 8 % 64 == 0
  else if op = 0x55 then
    dfield d 40 4 / 2 ^ 23 % 256 != 255 && decide (1 ≤ dfield d 44 4 ∧ dfield d 44 4 ≤ 2 ^ 24) && decide (1 ≤ dfield d 48 1)
      && (dfield d 49 1 == 2 || dfield d 49 1 == 3) && decide (1 ≤ dfield d 50 1 ∧ dfield d 50 1 ≤ 3)
      && decide (1 ≤ dfield d 51 1 ∧ dfield d 51 1 ≤ 8)
  else if op = 0x58 then decide (dfield d 24 1 ≤ 1) && decide (1 ≤ dfield d 28 4 ∧ dfield d 28 4 ≤ 2 ^ 24)
  else if op = 0x5A then decide (1 ≤ dfield d 18 2 ∧ dfield d 18 2 ≤ 4096)
  else true

/-- The operation that a KV_ATTEND runs (R472). -/
def attendOp (d : DescBits) (p : KvPool) (cluster : Nat) : TileOp :=
  let none_ : Opnd := { addr := 0, saddr := 0, space := SP_NONE, base := 0, fmt := 0, cattr := 0, stride := 0, clean := true }
  { opc := ATTEND, oflags := 0, units := dfield d 51 1, dec := 0, place := 0, cluster := cluster % 4, act := 0, subop := 0
    alpha := dfield d 40 4, arg := dfield d 44 4, m := dfield d 48 1, n := p.heads, k := p.hdim, batch := 1
    a := { none_ with space := SP_MEM, base := 0, fmt := dfield d 49 1 }
    b := { none_ with space := SP_KV, base := 2 }
    out := { none_ with space := SP_MEM, base := 1, fmt := dfield d 50 1 }
    aux := none_ }

/-- RUN of a KV_ATTEND. -/
def State.attendRun (s : State) (d : DescBits) : Nat :=
  let p := s.pool (rfPool (kvRef d))
  ((attendOp d p 0).record p.tokenSize).run

/-- Matrix clusters in service that the slice holds. -/
def State.sliceClusters (s : State) (slice : Nat) : List Nat := (List.range 96).filter (fun k => s.mtxIn k && s.holdsMtx slice k)

def kvCheck (d : Desc) (s : State) : Option Cpl :=
  let b := d.bits
  if !kvOperandsOk b then some (cpl ST_REFUSED_FIT KV_OPERAND)
  else if (s.kvPools b).any (fun n => (s.pool n).phase == .destroying) then some (cpl ST_PERMISSION KV_POOL)
  else if dOpcode b = 0x55 then
    let p := s.pool (rfPool (kvRef b))
    if (s.sliceClusters (dSlice b)).isEmpty then some (cpl ST_REFUSED_FIT KV_NO_CLUSTER)
    else if p.phase = .live ∧ (dfield b 48 1 % p.heads ≠ 0 ∨ 128 < dfield b 48 1 / p.heads) then
      some (cpl ST_REFUSED_FIT KV_OPERAND)
    else if tickCycles9 s.period < 10 * s.attendRun b then some (cpl ST_REFUSED_FIT MTX_CRITICAL)
    else none
  else none

/-- Charges of KV requests (Table 14-7). -/
def kvCost (d : Desc) (s : State) : Cost :=
  let b := d.bits
  let op := dOpcode b
  let p := s.pool (rfPool (kvRef b))
  let n := kvCount b
  if op = 0x53 then
    { stk := 2 * round64 (n * p.tokenSize) + 2 * p.pageSize + 64 * (ceilDiv n p.perPage + 2) }
  else if op = 0x54 then
    let c := dfield b 28 4
    Cost.add { stk := 2 * round64 (c * p.tokenSize) + 64 * (ceilDiv c p.perPage + 1) }
      (s.fabCost (dSlice b) (dfield b 32 8) (fabUnits (dfield b 32 8) (c * p.tokenSize)))
  else if op = 0x55 then
    let r := (attendOp b p 0).record p.tokenSize
    { mtx := r.mtx, stk := r.stk + 64 * ceilDiv (dfield b 44 4) p.perPage }
  else if op = 0x56 then { stk := 2 * p.recSize + 64 * p.layers * p.pps }
  else if op = 0x57 then { stk := p.recSize + 64 * p.layers * p.pps }
  else if op = 0x58 then
    let k := dfield b 28 4
    let fab := if dfield b 24 1 = 0 then k * (p.pageSize + 64 * p.pageSize / 4096) / 64
      else k * ceilDiv p.pageSize 65536
    Cost.add { stk := k * (p.pageSize + 64) } (s.fabCost (dSlice b) p.ovf fab)
  else {}

/-! ## Pool failure (R474) -/

/-- A line of the pool's control area reads uncorrectable. -/
def State.ctrlBad (s : State) (n : Nat) : Bool :=
  (s.pool n).ctrl.any (fun a =>
    s.mem.poison.any (fun l => decide (a.1 ≤ 64 * l) && decide (64 * l < a.1 + a.2))
      || (!s.mem.lost.isEmpty && (linesOf a.1 a.2).any s.readsPoison))

/-- A running append or move ends before its commit: its pages go back at once. -/
def State.kvStop (s : State) (tok : Nat) (c : Cpl) : State :=
  match s.kv.reqs.find? (fun r => r.tok == tok) with
  | none => s
  | some r =>
    ((s.setKv (fun k => { k with reqs := k.reqs.filter (fun x => x.tok != tok) })).giveBack r.pool r.taken).opEnd tok c

/-- The pool becomes FAILED; its running requests end. -/
def State.failPool (s : State) (n : Nat) : State :=
  if (s.pool n).phase != .live then s
  else
    let s := s.setPool n { s.pool n with phase := .failed }
    let s := s.setEvt F.KVS_EVT_POOL_FAILED
    let s := s.queueFault { cls := 0x30, reason := KV_POOL_FAILED, location := locDie (n % 6) }
    let c := cpl ST_POISONED KV_POOL_FAILED
    let s := (s.kv.reqs.filter (fun r => r.pool == n)).foldl (fun (s : State) r => s.kvStop r.tok c) s
    (s.mtx.runs.filter (fun e => e.2.slot.isNone && rfPool (e.2.bases.getD 2 0) == n)).foldl
      (fun (s : State) e => s.endRun e.1 e.2 c 0) s

/-- Take a KV request up: it may begin, it is its turn, and its pools' control state is read. -/
def State.kvRow (s : State) (tok op : Nat) (k : Desc → State → State) : State :=
  match s.desc tok with
  | none => s
  | some d =>
    if dOpcode d.bits = op ∧ s.mayBegin tok d = true ∧ s.kvOrdered tok d = true then
      k d ((s.kvPools d.bits).foldl (fun (s : State) n => if s.ctrlBad n then s.failPool n else s) s)
    else s

/-- End a KV request at once with `c`. -/
def State.kvEnd (s : State) (tok op : Nat) (c : Cpl) : State := s.runDesc tok op (fun _ s => (s, some c))

/-- End it refused, with the loss or refusal kept in KVS_LAST_ERROR. -/
def State.kvRefuse (s : State) (tok op ref : Nat) (c : Cpl) : State := (s.kvError ref c.reason LOC_MD).kvEnd tok op c

/-! ## Pools (R454 to R459) -/

/-- A pool descriptor, as read: the pool, its areas' VAs, and whether it is well formed (Table 14-1). -/
def parsePool (l : List Byte) : KvPool × Nat × Nat × Bool :=
  let f := fun o n => leNat ((l.drop o).take n)
  let p : KvPool := { phase := .live, fmt := f 2 1, pageLog := f 3 1, heads := f 4 2, hdim := f 6 2, layers := f 8 1
                      hot := f 9 1 % 2 == 1, seqMax := f 12 4, maxTokens := f 16 4, pages := f 20 4, ovf := f 40 8
                      ovfPages := f 48 4, reserveStk := f 56 8, reserveMtx := f 64 8, name := f 72 8 }
  let ok := f 0 2 == 1 && p.fmt ∈ [2, 13, 14, 9] && decide (14 ≤ p.pageLog ∧ p.pageLog ≤ 18)
    && decide (1 ≤ p.heads ∧ p.heads ≤ 64) && p.hdim ∈ [64, 128, 256] && decide (1 ≤ p.layers) && decide (f 9 1 < 2)
    && f 10 2 == 0 && decide (1 ≤ p.seqMax ∧ p.seqMax ≤ 2 ^ 24) && decide (1 ≤ p.maxTokens ∧ p.maxTokens ≤ 2 ^ 24)
    && decide (1 ≤ p.pages ∧ p.pages ≤ 2 ^ 27) && f 24 8 % 4096 == 0 && f 32 8 % 4096 == 0 && p.ovf % 4096 == 0
    && decide (p.ovfPages ≤ 2 ^ 27) && (p.ovf == 0) == (p.ovfPages == 0) && f 52 4 == 0 && f 80 48 == 0
    && decide (1 ≤ p.perPage)
  (p, f 24 8, f 32 8, ok)

def State.poolsBut (s : State) (n : Nat) : List KvPool :=
  (s.kv.pools.filter (fun e => e.1 != n && e.2.phase != .free)).map Prod.snd

/-- Checks 1 to 4 of Table 14-3. -/
def State.createFails (s : State) (d : DescBits) (p : KvPool) (ok : Bool) : Option Cpl :=
  let n := kvPoolField d
  let mine := (s.poolsBut n).filter (fun x => x.slice == dSlice d)
  let sum := fun (f : KvPool → Nat) (l : List KvPool) => (l.map f).foldl (· + ·) 0
  if !ok then some (cpl ST_REFUSED_FIT KV_FORMAT)
  else if (s.pool n).phase ≠ .free then some (cpl ST_REFUSED_FIT KV_SLOT)
  else if 2 ^ 24 < p.seqMax + sum (fun x => x.seqMax) (s.poolsBut n) then some (cpl ST_REFUSED_FIT KV_SEQ_LIMIT)
  else if !s.plansCover (dSlice d) (p.reserveStk + sum (fun x => x.reserveStk) mine) (fun c => c.stk)
      || !s.plansCover (dSlice d) (p.reserveMtx + sum (fun x => x.reserveMtx) mine) (fun c => c.mtx) then
    some (cpl ST_REFUSED_FIT KV_FIT_PLAN)
  else none

def piecesMeet (a b : List (Nat × Nat)) : Bool := a.any (fun x => b.any (fun y => decide (x.1 < y.1 + y.2) && decide (y.1 < x.1 + x.2)))

/-- An area translates wholly to device memory of the slice's shares. -/
def State.areaOk (s : State) (slice : Nat) (segs : List Seg) : Bool :=
  segs.all (fun p => !p.host && s.holdsRange slice p.addr p.len)

def execKvPoolCreate (tok : Nat) (ext : List Byte) (s : State) : Host.Outcome State Fault Refusal :=
  .next (match s.desc tok with
    | none => s
    | some d =>
      let n := kvPoolField d.bits
      let refuse := fun (s : State) (c : Cpl) =>
        (s.setEvt F.KVS_EVT_CREATE_REFUSED).kvRefuse tok 0x50 (at_ 40 n) c
      if dOpcode d.bits ≠ 0x50 ∨ s.mayBegin tok d = false then s
      else match s.acquire tok d [⟨dfield d.bits 16 8, 128, 1, false⟩] with
        | .wait s => s
        | .stop s c => refuse s c
        | .ready s0 segs =>
          let (s1, l, poison, _) := State.readSegs d (segs.headD []) ext s0
          let (p, pageVa, ctrlVa, ok) := parsePool l
          match s1.createFails d.bits p (ok && !poison) with
          | some c => refuse s1 c
          | none =>
            match s1.xlateRange tok d pageVa (p.pages * p.pageSize) 3 with
            | (_, .wait) => s
            | (s2, .fault _ _) => refuse s2 (cpl ST_REFUSED_FIT KV_AREA)
            | (s2, .ok area) =>
              match s2.xlateRange tok d ctrlVa p.ctrlSize 3 with
              | (_, .wait) => s
              | (s3, .fault _ _) => refuse s3 (cpl ST_REFUSED_FIT KV_AREA)
              | (s3, .ok ctrl) =>
                let a := area.map (fun x => (x.addr, x.len))
                let c := ctrl.map (fun x => (x.addr, x.len))
                if !s3.areaOk (dSlice d.bits) area || !s3.areaOk (dSlice d.bits) ctrl || piecesMeet a c then
                  refuse s3 (cpl ST_REFUSED_FIT KV_AREA)
                else
                  let p := { p with slice := dSlice d.bits, key := dKeySlot d.bits, keyEpoch := dKeyEpoch d.bits
                                    assisted := s3.assisted 3, area := a, ctrl := c }
                  (((s3.setPool n p).setAlloc n {}).setEvt F.KVS_EVT_POOL_CREATED).kvEnd tok 0x50 {})

/-- The pool's sequences, copies and areas are released and it is FREE. -/
def State.freePool (s : State) (n : Nat) : State :=
  s.setKv (fun k =>
    let mine := k.seqs.filter (fun e => e.2.pool == n)
    { k with pools := k.pools.put n {}, allocs := k.allocs.del n
             seqs := k.seqs.keep (fun _ q => q.pool != n)
             gens := mine.foldl (fun (g : Tab Nat) e => g.put e.1 ((e.2.gen + 1) % 256)) k.gens
             freeing := k.freeing.filter (fun q => !(mine.any (fun e => e.1 == q))) })

def execKvPoolDestroy (tok : Nat) (s : State) : Host.Outcome State Fault Refusal :=
  .next (match s.desc tok with
    | none => s
    | some d =>
      let n := dfield d.bits 16 1
      if (s.kvAlloc n).destroyer = some tok then
        if s.rings.descs.any (fun t e => t != tok && !e.finished && (s.kvPools e.bits).contains n
            && (e.phase == .admitted || e.phase == .running || e.begun)) then s
        else s.runDesc tok 0x51 (fun _ s => ((s.freePool n).setEvt F.KVS_EVT_POOL_DESTROYED, some {}))
      else s.kvEnd tok 0x51 (cpl ST_PERMISSION KV_POOL))

/-- R459: a KV_POOL_DESTROY is admitted: the pool is DESTROYING. -/
def State.admitDestroy (s : State) (tok : Nat) (d : Desc) : State :=
  let n := dfield d.bits 16 1
  let p := s.pool n
  if (p.phase = .live ∨ p.phase = .failed) ∧ p.slice = dSlice d.bits ∧ p.key = dKeySlot d.bits then
    (s.setPool n { p with phase := .destroying }).setAlloc n { s.kvAlloc n with destroyer := some tok }
  else s

/-- R347: a TP_UNLOAD is admitted: the slot is UNLOADING. -/
def State.admitUnload (s : State) (tok : Nat) (d : Desc) : State :=
  match s.progOf (trHandle d.bits) (dSlice d.bits) with
  | some p => s.setProg (trHandle d.bits % 256) { p with phase := .unloading, unloader := some tok }
  | none => s

/-! ## Sequences -/

def execKvSeqCreate (tok : Nat) (s : State) : Host.Outcome State Fault Refusal :=
  .next (s.kvRow tok 0x52 (fun d s =>
    let n := dfield d.bits 16 1
    match s.poolRefuses n (dSlice d.bits) (dKeySlot d.bits) with
    | some c => s.kvRefuse tok 0x52 (at_ 40 n) c
    | none =>
      if (s.pool n).seqMax ≤ s.poolSeqs n then s.kvRefuse tok 0x52 (at_ 40 n) (cpl ST_REFUSED_FIT KV_SEQ_LIMIT)
      else match firstFree (fun q => !s.kv.seqs.has q) (2 ^ 24) with
        | none => s.kvRefuse tok 0x52 (at_ 40 n) (cpl ST_REFUSED_FIT KV_SEQ_LIMIT)
        | some q =>
          let g := s.kv.gens.get 0 q
          (s.setSeq q { pool := n, gen := g, layers := List.replicate (s.pool n).layers {} }).kvEnd tok 0x52
            { result := kvReference n g q }))

/-- Request-state entries held on a pool's allocator. -/
def State.reqsOn (s : State) (n : Nat) : Nat := (s.kv.reqs.filter (fun r => r.pool % 6 == n % 6)).length

/-- What an append needs: whether it copies the last page, and how many new pages it takes (R464 step 3). -/
def State.appendNeeds (s : State) (n : Nat) (lay : KvLayer) (count : Nat) : Bool × Nat :=
  let tp := (s.pool n).perPage
  let used := ceilDiv lay.len tp
  (lay.len % tp != 0 && decide (1 < (s.kvAlloc n).counts.get 0 (lay.pages.getD (used - 1) 0)),
   ceilDiv (lay.len + count) tp - used)

/-- Copy a local page onto another, poison with it. -/
def State.copyKvPage (s : State) (tok n from_ into : Nat) : State :=
  let p := s.pool n
  let src := p.pageRange from_ 0 p.pageSize
  let dst := p.pageRange into 0 p.pageSize
  let bad := s.badOffsets 0 src
  let (s, bytes, _) := State.readKeyed p.key p.keyEpoch src s
  let s := State.writeKeyed tok p.key p.keyEpoch none dst bytes s
  bad.foldl (fun (s : State) b => s.poisonPieces (cutPieces dst b.1 (b.2 - b.1))) s

/-- Write tokens from their dense layout into pages: `pages` by index, first token `first`; `bad` the poisoned offsets of the
source. -/
def State.writeTokens (s : State) (tok n first count : Nat) (pages : List Nat) (bytes : List Byte) (bad : List (Nat × Nat)) :
    State :=
  let p := s.pool n
  (p.runsOf first count).foldl (fun (s : State) r =>
    let (ix, slot, k, i) := r
    (List.zip (p.parts p.perPage slot k) (p.parts count i k)).foldl (fun (s : State) e =>
      let dst := p.pageRange (pages.getD ix 0) e.1.1 e.1.2
      let s := State.writeKeyed tok p.key p.keyEpoch none dst ((bytes.drop e.2.1).take e.2.2) s
      bad.foldl (fun (s : State) b =>
        let lo := max b.1 e.2.1
        let hi := min b.2 (e.2.1 + e.2.2)
        if lo < hi then s.poisonPieces (cutPieces dst (lo - e.2.1) (hi - lo)) else s) s) s) s

/-- KV_APPEND: the Reserve and Write phases (Table 14-5). KV_COMMIT follows. -/
def execKvAppend (tok : Nat) (s : State) : Host.Outcome State Fault Refusal :=
  .next (s.kvRow tok 0x53 (fun d s =>
    let b := d.bits
    let ref := kvRef b
    let n := rfPool ref
    let p := s.pool n
    let count := kvCount b
    let lay := s.kvLayer ref
    let refuse := fun (s : State) (c : Cpl) => s.kvRefuse tok 0x53 ref c
    match s.refRefuses ref (dSlice b) (dKeySlot b) true, s.kvSeq (rfSeq ref) with
    | some c, _ => refuse s c
    | none, none => s
    | none, some q =>
      if q.resync then refuse s (cpl ST_STATE_LOST KV_RESYNC_NEEDED)
      else if q.remote then refuse s (cpl ST_PERMISSION KV_REMOTE)
      else if 4096 ≤ s.reqsOn n then s
      else if p.maxTokens < lay.len + count then refuse s (cpl ST_REFUSED_FIT KV_RANGE)
      else
        let (copy, new) := s.appendNeeds n lay count
        match s.takeLocal n (new + boolNat copy) with
        | none => refuse s.kvFull (cpl ST_REFUSED_FIT KV_POOL_FULL)
        | some (taken, s1) =>
          match s.acquire tok d [⟨dfield b 32 8, count * p.tokenSize, 1, false⟩] with
          | .wait s => s
          | .stop s c => refuse s c
          | .ready s' segs =>
            let src := segs.headD []
            if src.any (fun x => x.host) then refuse s' (cpl ST_REFUSED_FIT KV_OPERAND)
            else
              let s := (s'.setAlloc n (s1.kvAlloc n)).runDesc tok 0x53 (fun _ s => (s, none))
              let bad := s.badOffsets 0 (src.map (fun x => (x.addr, x.len)))
              let (s, bytes, poison, _) := State.readSegs d src [] s
              let last := ceilDiv lay.len p.perPage - 1
              let old := lay.pages.getD last 0
              let pages := (if copy then lay.pages.take last ++ taken.take 1 else lay.pages) ++ taken.drop (boolNat copy)
              let s := s.setKv (fun k => { k with
                reqs := k.reqs ++ [{ tok := tok, pool := n, seq := rfSeq ref, layer := rfLayer ref, newLen := lay.len + count
                                     copy := if copy then some (old, taken.headD 0) else none, taken := taken
                                     poison := poison }]
                cowCopies := k.cowCopies + boolNat copy })
              let s := if copy then s.copyKvPage tok n old (taken.headD 0) else s
              s.writeTokens tok n lay.len count pages bytes bad))

/-- Replace one entry of a list of layers. -/
def setLayer (l : List KvLayer) (i : Nat) (x : KvLayer) : List KvLayer := l.set i x

/-- The commit of an append or move, in one step at the allocator (R464 step 7). -/
def State.kvCommit (s : State) (r : KvReq) : State :=
  match s.kvSeq r.seq with
  | none => s
  | some q =>
    let s := s.setKv (fun k => { k with reqs := k.reqs.filter (fun x => x.tok != r.tok) })
    let a := s.kvAlloc r.pool
    if r.moves.isEmpty && r.newLen != 0 then
      let lay := q.layers.getD r.layer {}
      let last := ceilDiv lay.len (s.pool r.pool).perPage - 1
      let pages := (match r.copy with
        | some (_, new) => lay.pages.take last ++ [new]
        | none => lay.pages) ++ r.taken.drop (if r.copy.isSome then 1 else 0)
      let a := r.taken.foldl KvAlloc.raise a
      let a := match r.copy with | some (old, _) => a.lower old | none => a
      let s := (s.setAlloc r.pool a).setSeq r.seq { q with layers := setLayer q.layers r.layer { len := r.newLen, pages := pages } }
      s.setKv (fun k => { k with appends := k.appends + 1, tokens := k.tokens + (r.newLen - lay.len) })
    else
      let layers := r.moves.foldl (fun (l : List KvLayer) m =>
        let x := l.getD m.1 {}
        setLayer l m.1 { x with pages := x.pages.set m.2.1 m.2.2 }) q.layers
      let olds := r.moves.map (fun m => ((q.layers.getD m.1 {}).pages.getD m.2.1 0))
      let a := r.taken.foldl KvAlloc.raise a
      let a := (olds.foldl KvAlloc.lower a).dropHot olds
      (s.setAlloc r.pool a).setSeq r.seq { q with layers := layers }

/-- R465: the request-state entry of a request is lost before its commit. -/
def State.kvLost (s : State) (tok : Nat) (r : KvReq) : State :=
  let s := s.setKv (fun k => { k with reqs := k.reqs.filter (fun x => x.tok != tok), stateLost := k.stateLost + 1
                                      seqs := k.seqs.upd r.seq (fun q => { q with resync := true }) })
  let s := s.setAlloc r.pool { s.kvAlloc r.pool with rollback := (s.kvAlloc r.pool).rollback ++ r.taken }
  let s := (s.setEvt F.KVS_EVT_STATE_LOST).event KV_STATE_LOST (locDie (r.pool % 6))
  let q := s.kv.seqs.find r.seq
  let s := s.kvError (kvReference r.pool ((q.map (fun x => x.gen)).getD 0) r.seq + at_ 32 r.layer) KV_STATE_LOST
    (locDie (r.pool % 6))
  -- what it still awaits counts for nothing
  match s.desc tok with
  | some d => (s.setDesc tok { d with awaiting := 1, cpl := {} }).opEnd tok (cpl ST_STATE_LOST KV_STATE_LOST)
  | none => s

/-- KV_COMMIT: an append or move commits once its writes are visible; `lost` says that its request-state entry is found
uncorrectable, at this step or before it, `journal` that a record of the allocator journal is. -/
def execKvCommit (tok : Nat) (lost journal : Bool) (s : State) : Host.Outcome State Fault Refusal :=
  .next (match s.kv.reqs.find? (fun r => r.tok == tok), s.desc tok with
    | some r, some d =>
      if journal || s.ctrlBad r.pool then s.failPool r.pool
      else if lost then s.kvLost tok r
      else if 1 < d.awaiting then s
      else if d.cpl.status ≠ ST_OK then s.kvStop tok d.cpl
      else
        let s := s.kvCommit r
        if r.poison then
          ((s.setKv (fun k => { k with poisoned := k.poisoned + 1 })).setEvt F.KVS_EVT_POISON).opEnd tok
            (cpl ST_POISONED KV_POISON)
        else s.opEnd tok {}
    | _, _ => s)

/-! ## Reads -/

/-- Ask for bytes of a fabric address, in requests of at most 64 KiB: `to` says where offset `o` of them goes. -/
def State.fabGet (s : State) (tok : Nat) (d : Desc) (src len : Nat) (dst : Nat → Into) : State :=
  (List.range (ceilDiv len 65536)).foldl (fun (s : State) i =>
    let o := 65536 * i
    let n := min 65536 (len - o)
    if s.isSelf src then
      match s.loadSelf (src + o) n with
      | (s, some (bytes, m), _, _) =>
        let s := if m != 0 then s.failOp tok (cpl ST_POISONED 0) else s
        (match dst o with
         | .mem key a => s.creditWrite (.desc tok) key a bytes none
         | .fab a _ => s.fabPut tok d a bytes
         | .host _ _ => s)
      | (s, none, st, r) => s.selfRefused tok st r
    else
      s.originateFor tok { type := T_BULK_GET, dest := 0xC000 + faDevice src, addr := src + o, length := n
                           key := s.keyField (dKeySlot d.bits) }
        (segments (src + o) 18 0 n).length (some (dst o))) s

/-- Runs of tokens of a layer read in turn to a fabric address, and whether one is poisoned. -/
def State.kvReadOver (s : State) (tok : Nat) (d : Desc) (p : KvPool) (lay : KvLayer) (count dst : Nat)
    (runs : List (Nat × Nat × Nat × Nat)) : State × Bool :=
  runs.foldl (fun (a : State × Bool) r =>
    let (ix, slot, k, i) := r
    let pg := lay.pages.getD ix 0
    (List.zip (p.parts p.perPage slot k) (p.parts count i k)).foldl (fun (a : State × Bool) e =>
      if isRemote pg then
        (a.1.fabGet tok d (p.ovf + (pg - OVF_PAGE) * p.pageSize + e.1.1) e.1.2
          (fun o => .fab (dst + e.2.1 + o) (a.1.keyField (dKeySlot d.bits))), a.2)
      else
        let (s, bytes, bad) := State.readKeyed p.key p.keyEpoch (p.pageRange pg e.1.1 e.1.2) a.1
        (s.fabPut tok d (dst + e.2.1) bytes, a.2 || bad)) a) (s, false)

/-- The device ranges that a KV_READ reads. -/
def KvPool.readRanges (p : KvPool) (lay : KvLayer) (runs : List (Nat × Nat × Nat × Nat)) : List (Nat × Nat × Bool) :=
  (runs.filter (fun r => !isRemote (lay.pages.getD r.1 0))).flatMap (fun r =>
    (p.parts p.perPage r.2.1 r.2.2.1).flatMap (fun e =>
      (p.pageRange (lay.pages.getD r.1 0) e.1 e.2).map (fun x => (x.1, x.2, false))))

/-- KV_READ. -/
def execKvRead (tok : Nat) (s : State) : Host.Outcome State Fault Refusal :=
  .next (s.kvRow tok 0x54 (fun d s =>
    let b := d.bits
    let ref := kvRef b
    let n := rfPool ref
    let p := s.pool n
    let first := kvCount b
    let count := dfield b 28 4
    let lay := s.kvLayer ref
    let dst := dfield b 32 8
    match (s.refRefuses ref (dSlice b) (dKeySlot b) true).orElse (fun _ =>
        if lay.len < first + count then some (cpl ST_REFUSED_FIT KV_RANGE)
        else if s.isSelf dst then creditRefused d s else none) with
    | some c => s.kvRefuse tok 0x54 ref c
    | none =>
      let runs := p.runsOf first count
      match s.engineReady tok (p.readRanges lay runs) with
      | (s, false) => s
      | (s, true) =>
        let s := runs.foldl (fun (s : State) r => s.readPage n (lay.pages.getD r.1 0)) s
        s.runDesc tok 0x54 (fun d s =>
          let (s, poison) := s.kvReadOver tok d p lay count dst runs
          (s, some (if poison then cpl ST_POISONED 0 else {})))))

/-- KV_ATTEND: a run of one operation on the cluster its round chose (R472). -/
def execKvAttend (tok : Nat) (s : State) : Host.Outcome State Fault Refusal :=
  .next (s.kvRow tok 0x55 (fun d s =>
    let b := d.bits
    let ref := kvRef b
    let p := s.pool (rfPool ref)
    match (s.refRefuses ref (dSlice b) (dKeySlot b) true).orElse (fun _ =>
        match s.kvSeq (rfSeq ref) with
        | some q => if q.remote then some (cpl ST_PERMISSION KV_REMOTE) else creditRefused d s
        | none => none) with
    | some c => s.kvRefuse tok 0x55 ref c
    | none =>
      match d.uses with
      | [] => s.kvEnd tok 0x55 (cpl ST_REFUSED_FIT KV_NO_CLUSTER)
      | k :: _ =>
        (s.runDesc tok 0x55 (fun _ s => (s, none))).beginRun tok
          { slot := none, first := 0, places := [{ die := k / 16, region := k / 4 % 4, clusters := 2 ^ (k % 4) }]
            ops := [attendOp b p k], bases := [dfield b 24 8, dfield b 32 8, ref] }))

/-! ## Sharing and freeing (R468) -/

/-- The child's layer: the first F tokens of the parent's. -/
def forkLayer (tp pfx : Nat) (l : KvLayer) : KvLayer :=
  let f := if pfx = 0 then l.len else min pfx l.len
  { len := f, pages := l.pages.take (ceilDiv f tp) }

def execKvFork (tok : Nat) (s : State) : Host.Outcome State Fault Refusal :=
  .next (s.kvRow tok 0x56 (fun d s =>
    let b := d.bits
    let ref := kvRef b
    let n := rfPool ref
    let refuse := fun (c : Cpl) => s.kvRefuse tok 0x56 ref c
    match s.refRefuses ref (dSlice b) (dKeySlot b) false, s.kvSeq (rfSeq ref) with
    | some c, _ => refuse c
    | none, none => s
    | none, some q =>
      let layers := q.layers.map (forkLayer (s.pool n).perPage (kvCount b))
      let pgs := layers.flatMap (fun l => l.pages)
      if q.resync then refuse (cpl ST_STATE_LOST KV_RESYNC_NEEDED)
      else if q.remote then refuse (cpl ST_PERMISSION KV_REMOTE)
      else if (s.pool n).seqMax ≤ s.poolSeqs n then refuse (cpl ST_REFUSED_FIT KV_SEQ_LIMIT)
      else if pgs.any (fun pg => decide (65535 ≤ (s.kvAlloc n).counts.get 0 pg)) then refuse (cpl ST_REFUSED_FIT KV_REFCOUNT)
      else match firstFree (fun q => !s.kv.seqs.has q) (2 ^ 24) with
        | none => refuse (cpl ST_REFUSED_FIT KV_SEQ_LIMIT)
        | some c =>
          let g := s.kv.gens.get 0 c
          let s := s.setAlloc n (pgs.foldl KvAlloc.raise (s.kvAlloc n))
          (s.setSeq c { pool := n, gen := g, layers := layers }).kvEnd tok 0x56 { result := kvReference n g c }))

def execKvFree (tok : Nat) (s : State) : Host.Outcome State Fault Refusal :=
  .next (s.kvRow tok 0x57 (fun d s =>
    let ref := kvRef d.bits
    match s.refRefuses ref (dSlice d.bits) (dKeySlot d.bits) false, s.kvSeq (rfSeq ref) with
    | some c, _ => s.kvRefuse tok 0x57 ref c
    | none, none => s
    | none, some q =>
      let s := s.setAlloc q.pool (q.pagesOf.foldl KvAlloc.lower (s.kvAlloc q.pool))
      let s := s.setSeq (rfSeq ref) { q with freeing := true }
      (s.setKv (fun k => { k with freeing := k.freeing ++ [rfSeq ref] })).kvEnd tok 0x57 {}))

/-! ## Moves (R469) -/

/-- The pages a move takes from their places: layer, index, page. -/
def State.movePages (s : State) (n : Nat) (q : KvSeq) (out : Bool) : List (Nat × Nat × Nat) :=
  (List.range q.layers.length).flatMap (fun l =>
    let pages := (q.layers.getD l {}).pages
    ((List.range pages.length).map (fun i => (l, i, pages.getD i 0))).filter (fun e =>
      if out then !isRemote e.2.2 && (s.kvAlloc n).counts.get 0 e.2.2 == 1 else isRemote e.2.2))

/-- The descriptor without its counter credit: a move credits nothing. -/
def Desc.uncredited (d : Desc) : Desc :=
  { d with bits := d.bits &&& ~~~(BitVec.ofNat 512 (2 ^ 95)) }

/-- Pages copied in turn, out to the overflow area or back from it. -/
def State.kvMoveOver (s : State) (tok : Nat) (d : Desc) (p : KvPool) (out : Bool) (pairs : List ((Nat × Nat × Nat) × Nat)) : State :=
  pairs.foldl (fun (s : State) e =>
    if out then
      let (s, bytes, bad) := State.readKeyed p.key p.keyEpoch (p.pageRange e.1.2.2 0 p.pageSize) s
      if bad then s.failOp tok (cpl ST_POISONED 0)
      else s.fabPut tok d.uncredited (p.ovf + (e.2 - OVF_PAGE) * p.pageSize) bytes
    else
      (p.pageRange e.2 0 p.pageSize).foldl (fun (a : State × Nat) x =>
        (a.1.fabGet tok d.uncredited (p.ovf + (e.1.2.2 - OVF_PAGE) * p.pageSize + a.2) x.2
          (fun o => .mem p.key (x.1 + o)), a.2 + x.2)) (s, 0) |>.1) s

/-- The device ranges that a move reads or writes. -/
def KvPool.moveRanges (p : KvPool) (out : Bool) (pairs : List ((Nat × Nat × Nat) × Nat)) : List (Nat × Nat × Bool) :=
  pairs.flatMap (fun e => (p.pageRange (if out then e.1.2.2 else e.2) 0 p.pageSize).map (fun x => (x.1, x.2, !out)))

def execKvMove (tok : Nat) (s : State) : Host.Outcome State Fault Refusal :=
  .next (s.kvRow tok 0x58 (fun d s =>
    let b := d.bits
    let ref := kvRef b
    let n := rfPool ref
    let p := s.pool n
    let out := dfield b 24 1 == 0
    let refuse := fun (s : State) (c : Cpl) => s.kvRefuse tok 0x58 ref c
    match s.refRefuses ref (dSlice b) (dKeySlot b) false, s.kvSeq (rfSeq ref) with
    | some c, _ => refuse s c
    | none, none => s
    | none, some q =>
      if q.resync then refuse s (cpl ST_STATE_LOST KV_RESYNC_NEEDED)
      else if 4096 ≤ s.reqsOn n then s
      else
        let pgs := s.movePages n q out
        if dfield b 28 4 < pgs.length then refuse s (cpl ST_REFUSED_FIT KV_RANGE)
        else match (if out then s.takeOverflow n pgs.length else s.takeLocal n pgs.length) with
          | none => refuse s.kvFull (cpl ST_REFUSED_FIT KV_POOL_FULL)
          | some (taken, s1) =>
            let pairs := List.zip pgs taken
            match s.engineReady tok (p.moveRanges out pairs) with
            | (s, false) => s
            | (s', true) =>
              let s := (s'.setAlloc n (s1.kvAlloc n)).runDesc tok 0x58 (fun _ s => (s, none))
              let s := s.setKv (fun k => { k with
                reqs := k.reqs ++ [{ tok := tok, pool := n, seq := rfSeq ref, layer := 0, newLen := 0, taken := taken
                                     moves := pairs.map (fun e => (e.1.1, e.1.2.1, e.2)) }] })
              s.kvMoveOver tok d p out pairs))

/-! ## KV_RESYNC and KV_GRANT -/

def execKvResync (tok : Nat) (s : State) : Host.Outcome State Fault Refusal :=
  .next (s.kvRow tok 0x59 (fun d s =>
    let ref := kvRef d.bits
    match s.refRefuses ref (dSlice d.bits) (dKeySlot d.bits) true, s.kvSeq (rfSeq ref) with
    | some c, _ => s.kvRefuse tok 0x59 ref c
    | none, none => s
    | none, some q =>
      if q.resync && !(s.kvAlloc q.pool).rollback.isEmpty then s
      else (s.setSeq (rfSeq ref) { q with resync := false }).kvEnd tok 0x59 { result := (s.kvLayer ref).len }))

/-- One granted page number: queued, or dropped. -/
def State.grantPage (s : State) (n pg : Nat) : State × Bool :=
  let a := s.kvAlloc n
  if pg < (s.pool n).pages ∧ s.pageUsed n pg = false ∧ a.grants.contains pg = false ∧ a.grants.length < 4096 then
    (s.setAlloc n { a with grants := a.grants ++ [pg] }, true)
  else (s, false)

/-- Granted page numbers in turn, and whether all were queued. -/
def State.grantOver (s : State) (n count : Nat) (l : List Byte) : State × Bool :=
  (List.range count).foldl (fun (a : State × Bool) i =>
    let (s, good) := a.1.grantPage n (leNat ((l.drop (4 * i)).take 4))
    (s, a.2 && good)) (s, true)

def execKvGrant (tok : Nat) (ext : List Byte) (s : State) : Host.Outcome State Fault Refusal :=
  .next (s.kvRow tok 0x5A (fun d s =>
    let n := dfield d.bits 16 1
    let count := dfield d.bits 18 2
    match (s.poolRefuses n (dSlice d.bits) (dKeySlot d.bits)).orElse (fun _ =>
        if (s.pool n).assisted then none else some (cpl ST_REFUSED_FIT KV_OPERAND)) with
    | some c => s.kvRefuse tok 0x5A (at_ 40 n) c
    | none => s.runMem tok 0x5A (fun _ _ => none) (fun d _ => [⟨dfield d.bits 24 8, 4 * count, 1, false⟩]) (fun d segs s =>
        let (s, l, _, _) := State.readSegs d (segs.headD []) ext s
        let (s, ok) := s.grantOver n count l
        (s, some (if ok then {} else cpl ST_PARTIAL KV_GRANT_BAD)))))

/-! ## Boundary -/

/-- Step 7 of Table 2-6 at boundary `t`, the one before being `old`: pages, sequence numbers and lost requests' pages return; ALLOC_LOW; the ageing of
read counters (R458, R465, R468, R470). -/
def State.kvBoundary (s : State) (old t : Nat) : State :=
  let s := s.kv.allocs.foldl (fun (s : State) e =>
    let a := s.kvAlloc e.1
    let back := a.returning ++ a.rollback
    let s := if a.rollback.isEmpty then s
      else (s.setKv (fun k => { k with rollbackPages := k.rollbackPages + a.rollback.length })).setEvt F.KVS_EVT_ROLLBACK
    (s.setAlloc e.1 { a.dropHot back with returning := [], rollback := [] }).postFreed e.1 back) s
  let s := s.setKv (fun k =>
    { k with gens := k.freeing.foldl (fun (g : Tab Nat) q => g.put q ((((k.seqs.find q).map (fun x => x.gen)).getD 0 + 1) % 256)) k.gens
             seqs := k.seqs.keep (fun q _ => !k.freeing.contains q), freeing := [] })
  let age := s.fld F.KVS_HOT_AGE_TICKS
  let s := s.setKv (fun k => { k with allocs := k.allocs.mapV (fun _ a =>
    { a with reads := a.reads.mapV (fun _ c => c / 2 ^ agings old t age) }) })
  (s.kv.pools.filter (fun e => e.2.phase == .live && e.2.assisted)).foldl (fun (s : State) e =>
    let fill := (s.kvAlloc e.1).grants.length
    if fill < s.fld F.KVS_ASSIST_LOW_WATER then
      s.postAssist s.assistPort 3 0x40 (assistOperands 0x40 [(16, 1, e.1), (20, 4, fill)])
    else s) s

end Sys2Proof.Machine
end

