-- ==== Sys2Proof/Machine/EmbOps.lean ====
section
/-! DEFINITION. Tables, row slices, versions and the row cache: what the embedding descriptors are written over
(chapter 11). -/

namespace Sys2Proof.Machine

/-! ## Reasons (Tables 11-10, 12-9) -/

def EMB_OPERAND : Nat := 0x0B01
def EMB_TABLE : Nat := 0x0B02
def EMB_FORMAT : Nat := 0x0B03
def EMB_SLOT : Nat := 0x0B04
def EMB_STORAGE : Nat := 0x0B05
def EMB_POLICY_PRIV : Nat := 0x0B06
def EMB_FIT_PLAN : Nat := 0x0B07
def EMB_NO_CLUSTERS : Nat := 0x0B08
def EMB_OFFSETS : Nat := 0x0B09
def EMB_INDEX_DROPPED : Nat := 0x0B0A
def EMB_POISON : Nat := 0x0B0B
def EMB_VERSION_GONE : Nat := 0x0B0C
def EMB_VERSIONS : Nat := 0x0B0D
def EMB_PUBLISH_BUSY : Nat := 0x0B0E
def EMB_IMAGE : Nat := 0x0B0F
def EMB_KEY : Nat := 0x0B10
def EMB_CLUSTER_LOST : Nat := 0x0B11
def UPD_OPERAND : Nat := 0x0C01
def UPD_FORMAT : Nat := 0x0C02
def UPD_RUNNING : Nat := 0x0C03
def UPD_TABLE : Nat := 0x0C04
def UPD_AREA : Nat := 0x0C05
def UPD_FIT_PLAN : Nat := 0x0C06
def UPD_NOT_RUNNING : Nat := 0x0C07
def MERGE_FULL : Nat := 0x0C08

/-! ## State access -/

def State.setEmb (s : State) (f : EmbState → EmbState) : State := { s with emb := f s.emb }
def State.table (s : State) (n : Nat) : EmbTable := s.emb.tables.get {} n
def State.setTable (s : State) (n : Nat) (t : EmbTable) : State := s.setEmb (fun e => { e with tables := e.tables.put n t })
def State.embCount (s : State) (n : Nat) (f : TblCounts → TblCounts) : State :=
  s.setTable n { s.table n with counts := f (s.table n).counts }

/-- EMB_LAST_ERROR. -/
def State.embError (s : State) (n reason loc : Nat) : State :=
  s.setEmb (fun e => { e with lastError := (n, reason, loc, s.tick.now % 2 ^ 32) })

/-! ## Table descriptors (R351 to R354) -/

def TblDesc.deadlinePath (t : TblDesc) : Bool := t.tflags.testBit 0
def TblDesc.wantsDefault (t : TblDesc) : Bool := t.tflags.testBit 1
def TblDesc.updatable (t : TblDesc) : Bool := t.tflags.testBit 2
def TblDesc.cached (t : TblDesc) : Bool := t.tflags.testBit 3
def TblDesc.pitch (t : TblDesc) : Nat := 2 ^ t.pitchLog

/-- S: bytes of a row slice (Table 11-1). -/
def TblDesc.size (t : TblDesc) : Nat :=
  if t.elem = 1 then 4 * t.cols
  else if t.elem = 2 ∨ t.elem = 3 then 2 * t.cols
  else if t.elem = 9 then t.cols + 4
  else if t.elem = 11 then t.cols / 2
  else t.cols

def round4k (n : Nat) : Nat := ceilDiv n 4096 * 4096

/-- Lengths of the storage and of the undo area. -/
def TblDesc.storageLen (t : TblDesc) : Nat := round4k (t.rows * t.pitch)
def TblDesc.undoLen (t : TblDesc) : Nat := round4k (t.maxWin * (t.pitch + 16))

/-- A table descriptor as read, and whether it is well formed (Table 11-2). -/
def parseTable (l : List Byte) : TblDesc × Bool :=
  let f := fun o n => leNat ((l.drop o).take n)
  let t : TblDesc := { elem := f 2 1, tflags := f 3 1, colOff := f 4 2, cols := f 6 2, total := f 8 2, group := f 10 1
                       member := f 11 1, pitchLog := f 12 1, keep := f 13 1, rows := f 16 8, defaultRow := f 24 8
                       storage := f 32 8, undo := f 40 8, maxWin := f 48 4, reserve := f 56 8
                       codebook := (l.drop 64).take 32, name := f 96 8 }
  let ok := f 0 2 == 1 && [1, 2, 3, 9, 11, 13, 14].contains t.elem && decide (t.tflags < 16)
    && decide (1 ≤ t.cols ∧ t.cols ≤ 4096) && (t.elem != 11 || t.cols % 2 == 0)
    && decide (1 ≤ t.total ∧ t.colOff + t.cols ≤ t.total) && decide (1 ≤ t.group ∧ t.group ≤ 64)
    && decide (t.member < t.group) && decide (4 ≤ t.pitchLog ∧ t.pitchLog ≤ 12) && decide (t.keep ≤ 3) && f 14 2 == 0
    && decide (1 ≤ t.rows ∧ t.rows ≤ 2 ^ 40) && decide (t.defaultRow < t.rows)
    && (t.wantsDefault || t.defaultRow == 0) && t.storage % 4096 == 0 && t.undo % 4096 == 0
    && (t.updatable || (t.undo == 0 && t.maxWin == 0)) && f 52 4 == 0
    && (t.elem == 11 || f 64 32 == 0) && f 104 24 == 0 && decide (t.size ≤ t.pitch)
  (t, ok)

/-- (slice, table) is privileged (R359). -/
def State.embPriv (s : State) (slice table : Nat) : Bool :=
  s.emb.privileged.any (fun e w => e / 16 == slice && w.getLsbD 31 && bitsOf w 0 16 == table)

/-- Embedding clusters of a slice in service, by ascending die, region and cluster. -/
def State.embClusters (s : State) (slice : Nat) : List Nat :=
  (List.range 48).filter (fun k => s.embIn k && (s.sliceViews slice).all (fun v => sliceExistsBits v && (sliceEmb v).testBit k))

/-- The cluster that gathers a row, and its region's home index (R365). -/
def State.rowCluster (s : State) (slice table row : Nat) : Option Nat :=
  let l := s.embClusters slice
  l[Config.rowHash table row % l.length]?
def State.rowRegion (s : State) (slice table row : Nat) : Option Nat :=
  (s.rowCluster slice table row).map (fun k => k / 8 + 6 * (k / 2 % 4))

/-! ## Elements (R352) -/

/-- The terms of each column of a row slice: an INT8 element is two, q × SCALE and BIAS. -/
def TblDesc.terms (t : TblDesc) (bytes : List Byte) : List (List FV) :=
  if t.elem = 9 then
    let f := fun o => fmtFp16.decode (leNat ((bytes.drop o).take 2))
    let scale := f t.cols
    let bias := f (t.cols + 2)
    (decodeElems 9 t.cols (bytes.take t.cols) []).map (fun q => [q.mul scale, bias])
  else (decodeElems t.elem t.cols (bytes.take t.size) t.codebook).map (fun v => [v])

/-- The exact value of each column. -/
def TblDesc.values (t : TblDesc) (bytes : List Byte) : List FV :=
  (t.terms bytes).map (fun l => match l with | [v] => v | l => FV.sum l)

/-! ## Pooling (R366) -/

/-- The value of an accumulator, exact (R326). -/
def Accum.exact (a : Accum) : FV :=
  if a.nan || a.overflow || (a.posInf && a.negInf) then .nan
  else if a.posInf then .inf false
  else if a.negInf then .inf true
  else .fin (decide (a.value < 0)) a.value.natAbs (-298)

/-- A quotient with 64 more bits than the divisor and a sticky bit: rounds to any element format as the exact one does. -/
def FV.divSticky : FV → Nat → FV
  | .fin a m e, n =>
    if n = 0 ∨ m = 0 then .fin false 0 0
    else
      let k := 64 + Nat.log2 n
      let x := m * 2 ^ k
      .fin a (2 * (x / n) + (if x % n = 0 then 0 else 1)) (e - k - 1)
  | v, _ => v

/-- The larger of two, +0 above −0, NaN when either is. -/
def maxPool (a b : FV) : FV :=
  if a.isNan || b.isNan then .nan
  else if a.lt b then b
  else if a.isZero && b.isZero && a.isNeg then b
  else a

/-- One bag: for each supplied row its terms by column and its weight. -/
def poolBag (mode cols : Nat) (rows : List (List (List FV) × FV)) : List FV :=
  if rows.isEmpty then List.replicate cols FV.zero
  else (List.range cols).map (fun c =>
    let x := rows.map (fun r => (r.1.getD c [], r.2))
    if mode = 3 then
      let v := x.map (fun e => match e.1 with | [v] => v | l => FV.sum l)
      (v.drop 1).foldl maxPool (v.headD FV.zero)
    else if mode = 0 then (match x with | (l, _) :: _ => (match l with | [v] => v | l => FV.sum l) | [] => FV.zero)
    else
      let acc := x.foldl (fun (a : Accum) e => e.1.foldl (fun (a : Accum) v => a.add (if mode = 4 then e.2.mul v else v)) a) {}
      if mode = 2 then acc.exact.divSticky rows.length else acc.exact)

/-- An output row in FP32, BF16 or FP16. -/
def encodeRow (fmt : Nat) (l : List FV) : List Byte :=
  match floatFmt fmt with
  | some f => packElems f.width (l.map f.encode)
  | none => []

def outBytes (fmt : Nat) : Nat := if fmt = 1 then 4 else 2

/-! ## Images and versions (R374 to R377) -/

def cutSegs : List (Bool × Nat × Nat) → Nat → Nat → List (Bool × Nat × Nat)
  | [], _, _ => []
  | (h, a, n) :: t, off, len =>
    if len = 0 then []
    else if n ≤ off then cutSegs t (off - n) len
    else
      let k := min len (n - off)
      (h, a + off, k) :: cutSegs t 0 (len - k)

def segTuple (p : Seg) : Bool × Nat × Nat := (p.host, p.addr, p.len)

/-- The pieces of a row slice in an image. -/
def TblDesc.rowSegs (t : TblDesc) (img : TblImage) (row : Nat) : List (Bool × Nat × Nat) := cutSegs img.segs (row * t.pitch) t.size

def devicePieces (l : List (Bool × Nat × Nat)) : List (Nat × Nat) := (l.filter (fun p => !p.1)).map Prod.snd

/-- Read versions of the lookups of a table that have not completed. -/
def State.readVersions (s : State) (n : Nat) : List Nat :=
  (s.rings.descs.filter (fun e => dOpcode e.2.bits == 0x22 && dfield e.2.bits 16 2 == n && e.2.phase == .running)).map
    (fun e => e.2.pinned)

/-- The last versions of the images kept (R377). -/
def EmbTable.kept (t : EmbTable) : List Nat := ((t.images.drop 1).take t.desc.keep).map (fun i => i.last)

/-- Every live version. -/
def State.liveVersions (s : State) (n : Nat) : List Nat :=
  let t := s.table n
  if t.phase = .free then [] else t.version :: (t.kept ++ s.readVersions n)

def TblImage.holds (i : TblImage) (v : Nat) : Bool := decide (i.first ≤ v) && decide (v ≤ i.last)

def EmbTable.imageOf (t : EmbTable) (v : Nat) : Option TblImage := t.images.find? (fun i => i.holds v)

def State.oldestLive (s : State) (n : Nat) : Nat := (s.liveVersions n).foldl Nat.min (s.table n).version

/-- The images that hold a live version. -/
def State.liveImages (s : State) (n : Nat) : List TblImage :=
  (s.table n).images.filter (fun i => (s.liveVersions n).any i.holds)

/-! ## The row cache (R380 to R384) -/

def State.rcEntries (s : State) (h : Nat) : List RcEntry := s.emb.cache.get [] h
def State.setRc (s : State) (h : Nat) (l : List RcEntry) : State := s.setEmb (fun e => { e with cache := e.cache.put h l })

/-- log2 of the entry size of row slices of `n` bytes. -/
def rcSize (n : Nat) : Nat := if n ≤ 64 then 6 else Nat.log2 (n - 1) + 1

/-- R381: the entry that serves a row at a read version. -/
def State.rcFind (s : State) (h n row v : Nat) : Option RcEntry :=
  (s.rcEntries h).find? (fun e => e.table == n && e.row == row && !e.stale && decide (e.ver ≤ v)
    && (match (s.table n).imageOf v with | some i => i.holds e.ver | none => false))

/-- R372: the copy of the row from an earlier version. -/
def State.rcStale (s : State) (h n row v : Nat) : Option RcEntry :=
  (s.rcEntries h).find? (fun e => e.table == n && e.row == row && decide (e.ver ≤ v))

def rsKeys (h n row : Nat) : List Nat := (List.range 4).map (fun r => (4 * h + r) * 16384 + Config.rowSketch r n row % 16384)

/-- R383: a gathered row slice counts. -/
def State.rcTouch (s : State) (h n row : Nat) : State :=
  s.setEmb (fun e => { e with sketch := (rsKeys h n row).foldl (fun (t : Tab Nat) k => t.updD 0 k (fun c => addSat c 1)) e.sketch })

def State.rcEstimate (s : State) (h n row : Nat) : Nat := (rsKeys h n row).foldl (fun m k => min m (s.emb.sketch.get 0 k)) 255

/-- Blocks of a region that hold entries of a size; blocks of the region not so used. -/
def State.rcBlocks (s : State) (h z : Nat) : Nat :=
  if (s.rcEntries h).any (fun e => e.size == z) then s.emb.blocks.get 0 (16 * h + z) else 0
def State.rcFree (s : State) (h : Nat) : Nat :=
  (s.split h).rcache - ((List.range 13).map (s.rcBlocks h)).foldl (· + ·) 0

/-- Sets of one block of entries of a size. -/
def rcSets (z : Nat) : Nat := 2 ^ 20 / 2 ^ z / 16

/-- Place a row slice in its set (R384 steps 1 and 2; `force` replaces the lowest estimate whatever the row's own). A block
not yet used takes entries of the size where the set has no room. -/
def State.rcPlace (s : State) (h : Nat) (e : RcEntry) (force : Bool) : State × Bool :=
  let l := s.rcEntries h
  let z := e.size
  let n := s.rcBlocks h z
  let setIn := fun (first count : Nat) => first * rcSets z + Config.rowSet e.table e.row % (count * rcSets z)
  let est := fun (x : RcEntry) => s.rcEstimate h x.table x.row
  let done := fun (s : State) => s.setEmb (fun m => { m with admits := m.admits + 1 })
  let put := fun (s : State) (l : List RcEntry) (set : Nat) => done (s.setRc h (l ++ [{ e with set := set }]))
  let lowest := fun (c : List RcEntry) => c.foldl (fun (b : Option RcEntry) x => match b with
    | none => some x
    | some y => if est x < est y then some x else b) none
  let set := setIn 0 n
  let ways := l.filter (fun x => x.size == z && x.set == set)
  match (if n = 0 then none else l.find? (fun x => x.table == e.table && x.row == e.row)) with
  | some old => (put s (l.erase old) old.set, true)
  | none =>
    if 0 < n ∧ ways.length < 16 then (put s l set, true)
    else match (if n = 0 then none else lowest (ways.filter (fun x => x.stale))) with
      | some old => (put s (l.erase old) set, true)
      | none =>
        if 0 < s.rcFree h then
          let s := s.setEmb (fun m => { m with blocks := m.blocks.put (16 * h + z) (n + 1) })
          (put s l (setIn n 1), true)
        else match (if n = 0 then none else lowest ways) with
          | some old => if force || decide (est old < est e) then (put s (l.erase old) set, true) else (s, false)
          | none => (s, false)

/-- A row slice gathered from storage is offered to the cache (R384, R385). -/
def State.rcOffer (s : State) (h n row : Nat) (bytes : List Byte) : State :=
  let t := s.table n
  let est := s.rcEstimate h n row
  if est < s.fld F.EMB_RC_POLICY_ADMIT_MIN then s
  else if s.assisted 6 then
    if s.emb.cands.any (fun c => c.2.1 == n && c.2.2 == row) then
      s.setEmb (fun e => { e with cands := e.cands.map (fun c => if c.2.1 == n && c.2.2 == row then (est, n, row) else c) })
    else s.setEmb (fun e => { e with cands := e.cands ++ [(est, n, row)] })
  else (s.rcPlace h { table := n, row := row, ver := t.version, bytes := bytes, size := rcSize t.desc.size, set := 0 } false).1

/-- Drop every row-cache entry of a table. -/
def State.rcDrop (s : State) (n : Nat) : State :=
  s.setEmb (fun e => { e with cache := e.cache.mapV (fun _ l => l.filter (fun x => x.table != n))
                              cands := e.cands.filter (fun c => c.2.1 != n) })

/-! ## Reading rows -/

/-- Where the bytes of a row come from. -/
inductive RowSrc where
  | undo (bytes : List Byte)
  | cached (bytes : List Byte)
  | storage (segs : List (Bool × Nat × Nat))
  deriving DecidableEq, Repr

/-- The old bytes of a row that a committed window has overwritten, for a read version before it (R378, R406). -/
def State.undoRow (s : State) (n first row v : Nat) : Option (List Byte) :=
  match s.emb.updates.find n with
  | none => none
  | some u =>
    match (u.windows.filter (fun w => w.stage == .committed && w.image == first && decide (v < w.version)
        && w.undo.has row)).head? with
    | some w => w.undo.find row
    | none => none

/-- A row of a committed window not yet written back, for a read version not before it. -/
def State.newRow (s : State) (n first row v : Nat) : Option (List Byte) :=
  match s.emb.updates.find n with
  | none => none
  | some u =>
    match (u.windows.filter (fun w => w.stage == .committed && !w.written && w.image == first && decide (w.version ≤ v)
        && w.fresh.has row)).getLast? with
    | some w => w.fresh.find row
    | none => none

/-- Where row `row` is read from at version `v`; `cache`: the row cache may serve it. -/
def State.rowSource (s : State) (n row v : Nat) (region : Option Nat) (cache : Bool) : RowSrc :=
  let t := s.table n
  match t.imageOf v with
  | none => .storage []
  | some img =>
    match s.undoRow n img.first row v with
    | some b => .undo b
    | none =>
      match s.newRow n img.first row v with
      | some b => .undo b
      | none =>
        match region with
        | some h =>
          (match (if cache && t.desc.cached then s.rcFind h n row v else none) with
           | some e => .cached e.bytes
           | none => .storage (t.desc.rowSegs img row))
        | none => .storage (t.desc.rowSegs img row)

/-- Read pieces under the table's key slot: host bytes come from `ext`. -/
def State.readPieces (key epoch : Nat) : List (Bool × Nat × Nat) → List Byte → State → State × List Byte × Bool × List Byte
  | [], ext, s => (s, [], false, ext)
  | (true, _, n) :: t, ext, s =>
    let got := ext.take n ++ zeros (n - ext.length)
    let (s, rest, bad, ext) := State.readPieces key epoch t (ext.drop n) s
    (s, got ++ rest, bad, ext)
  | (false, a, n) :: t, ext, s =>
    let (s, bytes, bad) := State.readKeyed key epoch [(a, n)] s
    let (s, rest, bad', ext) := State.readPieces key epoch t ext s
    (s, bytes ++ rest, bad || bad', ext)

end Sys2Proof.Machine
end

