-- ==== Sys2Proof/Machine/EmbRows.lean ====
section
/-! DEFINITION. Tables, lookups, publishes and the row cache: the embedding descriptors (chapter 11). -/

namespace Sys2Proof.Machine

/-! ## Operands -/

/-- The bag form that LOOKUP and SCATTER_GRAD share (Tables 11-5, 12-5). -/
structure BagForm where
  table : Nat
  pool : Nat
  fmt : Nat
  bags : Nat
  idx : Nat
  index : Nat
  offsets : Nat
  weights : Nat

def bagForm (d : DescBits) : BagForm :=
  let b := if dOpcode d = 0x22 then 24 else 20
  { table := dfield d 16 2, pool := dfield d 18 1, fmt := dfield d 19 1, bags := dfield d b 4, idx := dfield d (b + 4) 4
    index := dfield d 32 6, offsets := dfield d 38 6, weights := dfield d 44 6 }

def BagForm.ok (f : BagForm) (maxPool : Bool) : Bool :=
  decide (f.pool ≤ 4) && (maxPool || f.pool != 3) && decide (1 ≤ f.fmt ∧ f.fmt ≤ 3)
    && (if f.pool = 0 then f.bags == 0 else decide (1 ≤ f.bags ∧ f.bags ≤ 2 ^ 20))
    && decide (1 ≤ f.idx ∧ f.idx ≤ 2 ^ 24) && f.index % 8 == 0 && f.offsets % 4 == 0 && (f.pool != 0 || f.offsets == 0)
    && f.weights % 4 == 0 && (f.pool == 4 || f.weights == 0)

/-- Output rows of a lookup, gradient rows of a scatter. -/
def BagForm.rows (f : BagForm) : Nat := if f.pool = 0 then f.idx else f.bags

def BagForm.needs (f : BagForm) : List Need :=
  [⟨f.index, 8 * f.idx, 1, false⟩] ++ (if f.pool = 0 then [] else [⟨f.offsets, 4 * (f.bags + 1), 1, false⟩])
    ++ (if f.pool = 4 then [⟨f.weights, 4 * f.idx, 1, false⟩] else [])

/-- STK of the arrays. -/
def BagForm.arrays (f : BagForm) : Nat :=
  round64 (8 * f.idx) + (if f.pool = 0 then 0 else round64 (4 * (f.bags + 1))) + (if f.pool = 4 then round64 (4 * f.idx) else 0)

def lkVersion (d : DescBits) : Nat := dfield d 20 4
def lkOut (d : DescBits) : Nat := dfield d 56 8
def rcCount (d : DescBits) : Nat := dfield d 18 2

/-- The table that an embedding descriptor names. -/
def embTableOf (d : DescBits) : Option Nat :=
  if [0x21, 0x22, 0x23, 0x24, 0x25, 0x26, 0x27].contains (dOpcode d) then some (dfield d 16 2) else none

/-- The table is LOADED and the descriptor's slice's. -/
def State.tableServes (s : State) (d : DescBits) : Bool :=
  (s.table (dfield d 16 2)).phase == .loaded && (s.table (dfield d 16 2)).slice == dSlice d

/-- What is found at arrival (R362, R376, R385, R394, R409). -/
def embCheck (d : Desc) (s : State) : Option Cpl :=
  let b := d.bits
  let op := dOpcode b
  let f := bagForm b
  let operands :=
    if op = 0x22 then (if f.ok true && lkOut b % outBytes f.fmt == 0 then none else some EMB_OPERAND)
    else if op = 0x24 then (if f.ok false && dfield b 56 6 % outBytes f.fmt == 0 then none else some UPD_OPERAND)
    else if op = 0x23 then (if dfield b 24 8 % 4096 = 0 then none else some EMB_OPERAND)
    else if op = 0x25 then (if 1 ≤ rcCount b ∧ rcCount b ≤ 4096 then none else some EMB_OPERAND)
    else none
  match operands with
  | some r => some (cpl ST_REFUSED_FIT r)
  | none => if s.tableServes b then none else some (cpl ST_PERMISSION EMB_TABLE)

/-- Charges (R369, R385, Table 12-7). -/
def embCost (d : Desc) (s : State) : Cost :=
  let b := d.bits
  let op := dOpcode b
  let f := bagForm b
  let t := (s.table f.table).desc
  let r := round64 t.size
  if op = 0x22 then
    let row := t.cols * outBytes f.fmt
    Cost.add { emb := f.idx * r, stk := f.arrays + f.idx * r } (s.fabCost (dSlice b) (lkOut b) (f.rows * (ceilDiv row 64 + 1)))
  else if op = 0x25 then { emb := rcCount b * r, stk := round64 (8 * rcCount b) + rcCount b * r }
  else if op = 0x24 then
    { emb := f.idx * r, stk := f.arrays + f.rows * round64 (t.cols * outBytes f.fmt) + f.idx * 2 * (80 * t.cols + 64) }
  else {}

/-! ## Loading (R356, R357) -/

/-- RESERVE of every table loaded in a slice; EMB and STK that the slice's updates reserve (R410). -/
def State.embReserved (s : State) (slice : Nat) : Nat :=
  ((s.emb.tables.filter (fun e => e.2.phase != .free && e.2.slice == slice)).map (fun e => e.2.desc.reserve)).foldl (· + ·) 0

/-- Checks 1 to 5 of Table 11-3. -/
def State.tblLoadFails (s : State) (d : DescBits) (t : TblDesc) (ok : Bool) : Option Cpl :=
  let n := dfield d 24 2
  let slice := dSlice d
  if !ok then some (cpl ST_REFUSED_FIT EMB_FORMAT)
  else if (s.table n).phase ≠ .free then some (cpl ST_REFUSED_FIT EMB_SLOT)
  else if (s.embClusters slice).isEmpty then some (cpl ST_REFUSED_FIT EMB_NO_CLUSTERS)
  else if t.wantsDefault && !s.embPriv slice n then some (cpl ST_PERMISSION EMB_POLICY_PRIV)
  else if !s.plansCover slice (t.reserve + s.embReserved slice) (fun c => c.emb) then some (cpl ST_REFUSED_FIT EMB_FIT_PLAN)
  else none

/-- Storage: every piece on a HOST output, or on a DEVICE output in the slice's shares. -/
def State.storageOk (s : State) (slice : Nat) (l : List (Bool × Nat × Nat)) : Bool :=
  l.all (fun p => p.1 || s.holdsRange slice p.2.1 p.2.2)

/-- The pieces of two images meet: on the device, or on a HOST output. -/
def segsMeet (a b : List (Bool × Nat × Nat)) : Bool :=
  a.any (fun x => b.any (fun y => x.1 == y.1 && decide (x.2.1 < y.2.1 + y.2.2) && decide (y.2.1 < x.2.1 + x.2.2)))

/-- The default row as it stands in the current image: bytes and poison. -/
def State.defaultBytes (s : State) (t : EmbTable) (ext : List Byte) : State × (List Byte × Bool) :=
  match t.images with
  | [] => (s, [], false)
  | img :: _ =>
    match State.readPieces t.key t.keyEpoch (t.desc.rowSegs img t.desc.defaultRow) ext s with
    | (s, b, bad, _) => (s, b, bad)

/-- TBL_LOAD. -/
def execTblLoad (tok : Nat) (ext : List Byte) (s : State) : Host.Outcome State Fault Refusal :=
  .next (match s.desc tok with
    | none => s
    | some d =>
      let n := dfield d.bits 24 2
      let slice := dSlice d.bits
      let refuse := fun (s : State) (c : Cpl) =>
        ((s.setEvt F.EMB_EVT_LOAD_REFUSED).embError n c.reason LOC_MD).runDesc tok 0x20 (fun _ s => (s, some c))
      if dOpcode d.bits ≠ 0x20 ∨ s.mayBegin tok d = false then s
      else match s.acquire tok d [⟨dfield d.bits 16 8, 128, 1, false⟩] with
        | .wait s => s
        | .stop s c => refuse s c
        | .ready s0 segs =>
          let (s1, l, poison, ext) := State.readSegs d (segs.headD []) ext s0
          let (t, ok) := parseTable l
          match s1.tblLoadFails d.bits t (ok && !poison && dfield d.bits 16 8 % 64 == 0) with
          | some c => refuse s1 c
          | none =>
            match s1.xlateRange tok d t.storage t.storageLen (if t.updatable then 3 else 1) with
            | (_, .wait) => s
            | (s2, .fault _ _) => refuse s2 (cpl ST_REFUSED_FIT EMB_STORAGE)
            | (s2, .ok st) =>
              match (if t.updatable then s2.xlateRange tok d t.undo t.undoLen 3 else (s2, .ok [])) with
              | (_, .wait) => s
              | (s3, .fault _ _) => refuse s3 (cpl ST_REFUSED_FIT EMB_STORAGE)
              | (s3, .ok un) =>
                let img : TblImage := { va := t.storage, segs := st.map segTuple, first := 1, last := 1 }
                let undo := un.map (fun x => (x.addr, x.len))
                if !s3.storageOk slice img.segs || !s3.areaOk slice un || piecesMeet (devicePieces img.segs) undo then
                  refuse s3 (cpl ST_REFUSED_FIT EMB_STORAGE)
                else
                  let tb : EmbTable := { phase := .loaded, slice := slice, key := dKeySlot d.bits, keyEpoch := dKeyEpoch d.bits
                                         desc := t, defaulting := t.wantsDefault, images := [img], undoArea := undo
                                         version := 1, counts := (s3.table n).counts }
                  let (s4, c) := if t.wantsDefault then s3.defaultBytes tb ext else (s3, [], false)
                  let s5 := s4.setTable n { tb with copies := if t.wantsDefault then [(1, c)] else [] }
                  (s5.setEvt F.EMB_EVT_LOADED).runDesc tok 0x20 (fun _ s => (s, some { result := 1 })))

/-! ## Unloading (R358) -/

/-- R358, from the round that admits a TBL_UNLOAD: the table is UNLOADING. -/
def State.admitTblUnload (s : State) (tok : Nat) (d : Desc) : State :=
  let n := dfield d.bits 16 2
  if s.tableServes d.bits then s.setTable n { s.table n with phase := .unloading, unloader := some tok } else s

/-- Contributions in windows that have not committed. -/
def EmbUpdate.uncommitted (u : EmbUpdate) : Nat :=
  ((u.windows.filter (fun w => w.stage != .committed)).map (fun w => (w.rows.map (fun e => e.2.count)).foldl (· + ·) 0)).foldl
    (· + ·) 0

/-- The table's update ends: what has not committed is discarded (R409). -/
def State.dropUpdate (s : State) (n : Nat) : State :=
  match s.emb.updates.find n with
  | none => s
  | some u =>
    let s := s.embCount n (fun c => { c with withdrawn := c.withdrawn + u.uncommitted })
    let s := s.setEmb (fun e => { e with updates := e.updates.del n })
    match u.stopper with
    | some tok => s.opEnd tok {}
    | none => s

/-- The table's rows leave the cache, its images and undo area are released, its number is FREE. -/
def State.freeTable (s : State) (n : Nat) : State :=
  let s := (s.dropUpdate n).rcDrop n
  s.setTable n { counts := (s.table n).counts }

/-- An operation on the table that was admitted earlier has not completed. -/
def State.tableBusy (s : State) (n : Nat) : Bool :=
  s.rings.descs.any (fun _ e => embTableOf e.bits == some n && [0x22, 0x23, 0x24, 0x25].contains (dOpcode e.bits)
    && (e.phase == .admitted || e.phase == .running))

/-- TBL_UNLOAD, and its end once the table is at rest. -/
def State.tblUnload (s : State) (tok : Nat) : State :=
  match s.desc tok with
  | none => s
  | some d =>
    let n := dfield d.bits 16 2
    if (s.table n).unloader = some tok then
      if s.tableBusy n then s
      else s.runDesc tok 0x21 (fun _ s => ((s.freeTable n).setEvt F.EMB_EVT_UNLOADED, some {}))
    else s.runDesc tok 0x21 (fun _ s => (s, some (cpl ST_PERMISSION EMB_TABLE)))

def execTblUnload (tok : Nat) (s : State) : Host.Outcome State Fault Refusal := .next (s.tblUnload tok)

/-! ## Lookups (R360 to R373) -/

/-- Bag offsets check (R364). -/
def offsetsOk (f : BagForm) (o : List Nat) : Bool :=
  o.headD 1 == 0 && (List.zip o (o.drop 1)).all (fun e => decide (e.1 ≤ e.2)) && o.getLastD 0 == f.idx

/-- The index entries of each output row, with their weights. -/
def BagForm.items (f : BagForm) (index offsets weights : List Nat) : List (List (Nat × Nat)) :=
  let pairs := List.zip index (if f.pool = 4 then weights else List.replicate f.idx 0)
  if f.pool = 0 then pairs.map (fun p => [p])
  else (List.zip offsets (offsets.drop 1)).map (fun e => (pairs.drop e.1).take (e.2 - e.1))

/-- The arrays as numbers, from their bytes. -/
def BagForm.parse (f : BagForm) (l : List (List Byte)) : List (List (Nat × Nat)) × Bool :=
  let cut := fun (w n : Nat) (b : List Byte) => (chunksOf w n b).map leNat
  let index := cut 8 f.idx (l.headD [])
  let offsets := if f.pool = 0 then [] else cut 4 (f.bags + 1) (l.getD 1 [])
  let weights := if f.pool = 4 then cut 4 f.idx (l.getD 2 []) else []
  (f.items index offsets weights, f.pool == 0 || offsetsOk f offsets)

/-- Read the arrays of an acquired bag form: their bytes, whether one is poisoned, what is left of the host bytes. -/
def State.readArrays (s : State) (d : Desc) (segs : List (List Seg)) (ext : List Byte) : State × List (List Byte) × Bool × List Byte :=
  segs.foldl (fun (a : State × List (List Byte) × Bool × List Byte) x =>
    let (s, l, bad, ext) := a
    let (s, b, p, ext) := State.readSegs d x ext s
    (s, l ++ [b], bad || p, ext)) (s, [], false, ext)

/-- What the policy in force at admission makes of an index (R360). -/
inductive IdxUse where
  | row (r : Nat)
  | default_
  | drop

def idxUse (t : TblDesc) (defaulting : Bool) (raw : Nat) : IdxUse :=
  if raw < t.rows then .row raw else if defaulting then .default_ else .drop

/-- The row is a deadline fetch (R372). -/
def State.isDeadlineFetch (s : State) (l : List (Bool × Nat × Nat)) : Bool :=
  l.any (fun p => p.1 || (linesOf p.2.1 p.2.2).any s.needsRebuild)

/-- Counts that a lookup keeps. -/
structure LkTally where
  served : Nat := 0
  stale : Nat := 0
  defaulted : Nat := 0
  dropped : Nat := 0
  poisoned : Nat := 0
  missing : Bool := false

/-- The late fetch of a row is noted; lines still being rebuilt for it are discarded when they come (R269). -/
def State.noteLate (s : State) (d : Desc) (l : List (Bool × Nat × Nat)) : State :=
  let lines := (devicePieces l).flatMap (fun p => (linesOf p.1 p.2).filter (fun x => s.pg.gathers.any (fun g => g.line == x)))
  (s.lateFetch d.overrun).setTier (fun t => { t with lateLines := (t.lateLines ++ lines).eraseDups })

/-- One index of a lookup at version `v`: the terms it supplies, whether they are poisoned. -/
def State.fetchIndex (s : State) (d : Desc) (n v : Nat) (tally : LkTally) (ext : List Byte) (raw : Nat) :
    State × LkTally × List Byte × Option (List (List FV)) × Bool :=
  let t := s.table n
  let policy := fun (s : State) (tally : LkTally) (ext : List Byte) =>
    if d.crit = 1 then
      let (b, bad) := t.copies.get ([], false) v
      (s, { tally with served := tally.served + 1, defaulted := tally.defaulted + 1 }, ext, some (t.desc.terms b), bad)
    else (s, { tally with dropped := tally.dropped + 1 }, ext, none, false)
  match idxUse t.desc (d.crit == 1) raw with
  | .drop => policy s tally ext
  | .default_ => policy s tally ext
  | .row row =>
    let region := s.rowRegion t.slice n row
    let s := match region with | some h => if t.desc.cached then s.rcTouch h n row else s | none => s
    let use := fun (s : State) (b : List Byte) (ext : List Byte) (bad : Bool) =>
      (s, { tally with served := tally.served + 1, poisoned := tally.poisoned + boolNat bad }, ext, some (t.desc.terms b), bad)
    let cheaper := fun (s : State) (ext : List Byte) =>
      match region.bind (fun h => s.rcStale h n row v) with
      | some e =>
        (s.setEmb (fun m => { m with staleServed := m.staleServed + 1 }),
          { tally with served := tally.served + 1, stale := tally.stale + 1 }, ext, some (t.desc.terms e.bytes), false)
      | none => policy s { tally with missing := true } ext
    match s.rowSource n row v region true with
    | .undo b => use s b ext false
    | .cached b => use (s.setEmb (fun m => { m with hits := m.hits + 1 })) b ext false
    | .storage segs =>
      let s := if t.desc.cached && region.isSome then s.setEmb (fun m => { m with misses := m.misses + 1 }) else s
      if t.desc.deadlinePath && (d.late || d.overrun) && s.isDeadlineFetch segs then cheaper (s.noteLate d segs) ext
      else
        match State.readPieces t.key t.keyEpoch segs ext s with
        | (s, b, bad, ext) =>
          if bad && t.desc.deadlinePath then cheaper s ext
          else
            let s := match region with
              | some h => if t.desc.cached && !bad && !d.overrun && v == t.version then s.rcOffer h n row b else s
              | none => s
            use s b ext bad

/-- One output row: fetch its indices, pool them, write the member's columns. -/
def State.lookupRow (s : State) (tok : Nat) (d : Desc) (f : BagForm) (v j : Nat) (tally : LkTally) (ext : List Byte)
    (items : List (Nat × Nat)) : State × LkTally × List Byte :=
  let t := (s.table f.table).desc
  let (s, tally, ext, rows, bad) := items.foldl
    (fun (a : State × LkTally × List Byte × List (List (List FV) × FV) × Bool) it =>
      let (s, tally, ext, rows, bad) := a
      let (s, tally, ext, terms, p) := s.fetchIndex d f.table v tally ext it.1
      (s, tally, ext, (match terms with | some x => rows ++ [(x, f32 it.2)] | none => rows), bad || p))
    (s, tally, ext, [], false)
  let bytes := encodeRow f.fmt (poolBag f.pool t.cols rows)
  let addr := lkOut d.bits + (j * t.total + t.colOff) * outBytes f.fmt
  (if bad then s.fabPutPoisoned tok d addr bytes else s.fabPut tok d addr bytes, tally, ext)

/-- The completion of a lookup that ran to its end (Table 11-7). -/
def lookupCpl (t : LkTally) : Cpl :=
  let c : Cpl := { done := t.served, dropped := t.dropped, result := t.stale + at_ 32 t.defaulted }
  if 0 < t.poisoned then { c with status := ST_POISONED, reason := EMB_POISON }
  else if t.missing then { c with status := ST_DEGRADED, reason := DL_EMB_MISSING_ROW }
  else if 0 < t.stale then { c with status := ST_DEGRADED, reason := DL_EMB_STALE_ROW }
  else if 0 < t.dropped then { c with status := ST_PARTIAL, reason := EMB_INDEX_DROPPED }
  else c

/-- The device ranges that a lookup reads rows from. -/
def State.lookupRanges (s : State) (d : Desc) (n v : Nat) (items : List (List (Nat × Nat))) : List (Nat × Nat × Bool) :=
  let t := s.table n
  items.flatten.flatMap (fun it =>
    match idxUse t.desc (d.crit == 1) it.1 with
    | .row row =>
      match s.rowSource n row v (s.rowRegion t.slice n row) true with
      | .storage segs =>
        if t.desc.deadlinePath && (d.late || d.overrun) && s.isDeadlineFetch segs then []
        else (devicePieces segs).map (fun p => (p.1, p.2, false))
      | _ => []
    | _ => [])

/-- Output rows of a lookup in turn. -/
def State.lookupOver (s : State) (tok : Nat) (d : Desc) (f : BagForm) (items : List (List (Nat × Nat))) (ext : List Byte) :
    State × LkTally × List Byte :=
  (List.zip (List.range items.length) items).foldl
    (fun (a : State × LkTally × List Byte) e => a.1.lookupRow tok d f d.pinned e.1 a.2.1 a.2.2 e.2) (s, {}, ext)

/-- The table's counts and flags after a lookup. -/
def State.noteLookup (s : State) (f : BagForm) (tally : LkTally) : State :=
  let s := s.embCount f.table (fun c => { c with indices := c.indices + f.idx, drops := c.drops + tally.dropped
                                                 defaulted := c.defaulted + tally.defaulted
                                                 poisoned := c.poisoned + tally.poisoned })
  let s := if 0 < tally.poisoned then s.setEvt F.EMB_EVT_POISON else s
  if 0 < tally.dropped then s.setEvt F.EMB_EVT_DROP else s

/-- LOOKUP. -/
def execLookup (tok : Nat) (ext : List Byte) (s : State) : Host.Outcome State Fault Refusal :=
  .next (match s.desc tok with
    | none => s
    | some d =>
      let f := bagForm d.bits
      let t := s.table f.table
      let finish := fun (s : State) (c : Cpl) => s.runDesc tok 0x22 (fun _ s => (s, some c))
      if dOpcode d.bits ≠ 0x22 ∨ s.mayBegin tok d = false then s
      else if t.phase = .free ∨ t.slice ≠ dSlice d.bits then finish s (cpl ST_PERMISSION EMB_TABLE)
      else match s.acquire tok d f.needs with
        | .wait s => s
        | .stop s c => finish s c
        | .ready s0 segs =>
          match s0.readArrays d segs ext with
          | (s1, arrays, bad, ext) =>
            let (items, ok) := f.parse arrays
            if bad then finish s1 (cpl ST_POISONED 0)
            else if !ok then finish s1 (cpl ST_ABORTED EMB_OFFSETS)
            else if (s1.embClusters t.slice).isEmpty then finish s1 (cpl ST_ABORTED EMB_CLUSTER_LOST)
            else
              match s0.engineReady tok (s0.lookupRanges d f.table d.pinned items) with
              | (s2, false) => s2
              | (s2, true) =>
                s2.runDesc tok 0x22 (fun d s =>
                  let s := (s.readArrays d segs ext).1
                  let (s, tally, _) := s.lookupOver tok d f items ext
                  (s.noteLookup f tally, some (lookupCpl tally))))

/-- The version that a lookup admitted into the tick now beginning reads; none: it names a version that is gone (R375). -/
def EmbTable.readVersion (t : EmbTable) (want : Nat) : Option Nat :=
  if want = 0 then some t.version
  else if want = t.version ∨ t.kept.contains want = true then some want else none

/-! ## Publishing an image (R376) -/

/-- What refuses a new image. -/
def State.imageFails (s : State) (n : Nat) (d : DescBits) (l : List (Bool × Nat × Nat)) : Option Cpl :=
  let t := s.table n
  if !s.storageOk t.slice l || t.images.any (fun i => segsMeet i.segs l) || piecesMeet (devicePieces l) t.undoArea
      || (s.emb.updates.has n && l.any (fun p => p.1)) then some (cpl ST_REFUSED_FIT EMB_IMAGE)
  else if dKeySlot d ≠ t.key ∨ dKeyEpoch d ≠ t.keyEpoch then some (cpl ST_PERMISSION EMB_KEY)
  else if t.publish.isSome then some (cpl ST_REFUSED_FIT EMB_PUBLISH_BUSY)
  else none

/-- TABLE_PUBLISH: the image is checked; step 5 of the next boundary makes it current. -/
def execTablePublish (tok : Nat) (ext : List Byte) (s : State) : Host.Outcome State Fault Refusal :=
  .next (match s.desc tok with
    | none => s
    | some d =>
      let n := dfield d.bits 16 2
      let t := s.table n
      let va := dfield d.bits 24 8
      let finish := fun (s : State) (c : Cpl) => s.runDesc tok 0x23 (fun _ s => (s, some c))
      if dOpcode d.bits ≠ 0x23 ∨ s.mayBegin tok d = false then s
      else if t.phase = .free ∨ t.slice ≠ dSlice d.bits then finish s (cpl ST_PERMISSION EMB_TABLE)
      else match s.xlateRange tok d va t.desc.storageLen (if t.desc.updatable then 3 else 1) with
        | (s, .wait) => s
        | (s, .fault _ _) => finish s (cpl ST_REFUSED_FIT EMB_IMAGE)
        | (s, .ok segs) =>
          let l := segs.map segTuple
          match s.imageFails n d.bits l with
          | some c => finish s c
          | none => s.runDesc tok 0x23 (fun _ s =>
              (s.setTable n { t with publish := some { tok := tok, va := va, segs := l, row := ext } }, none)))

/-! ## The row cache's descriptor (R385) -/

/-- The device ranges that a row is read from. -/
def RowSrc.ranges : RowSrc → List (Nat × Nat × Bool)
  | .storage l => (devicePieces l).map (fun p => (p.1, p.2, false))
  | _ => []

/-- Rows read from where `src` says they lie and placed in the row cache in turn: how many were placed. -/
def State.rcAdmitOver (s : State) (n : Nat) (t : EmbTable) (src : Nat → RowSrc) (rows : List Nat) (ext : List Byte) :
    State × Nat × List Byte :=
  rows.foldl (fun (a : State × Nat × List Byte) r =>
    let (s, placed, ext) := a
    let (s, b, bad, ext) := (match src r with
      | .undo b => (s, b, false, ext)
      | .cached b => (s, b, false, ext)
      | .storage l => State.readPieces t.key t.keyEpoch l ext s)
    match s.rowRegion t.slice n r with
    | none => (s, placed, ext)
    | some h =>
      if bad then (s, placed, ext)
      else
        let (s, ok) := s.rcPlace h { table := n, row := r, ver := t.version, bytes := b, size := rcSize t.desc.size
                                     set := 0 } true
        (s, placed + boolNat ok, ext)) (s, 0, ext)

/-- RC_ADMIT. -/
def execRcAdmit (tok : Nat) (ext : List Byte) (s : State) : Host.Outcome State Fault Refusal :=
  .next (match s.desc tok with
    | none => s
    | some d =>
      let n := dfield d.bits 16 2
      let t := s.table n
      let v := t.version
      let finish := fun (s : State) (c : Cpl) => s.runDesc tok 0x25 (fun _ s => (s, some c))
      if dOpcode d.bits ≠ 0x25 ∨ s.mayBegin tok d = false then s
      else if t.phase = .free ∨ t.slice ≠ dSlice d.bits then finish s (cpl ST_PERMISSION EMB_TABLE)
      else match s.acquire tok d [⟨dfield d.bits 24 6, 8 * rcCount d.bits, 1, false⟩] with
        | .wait s => s
        | .stop s c => finish s c
        | .ready s0 segs =>
          match State.readSegs d (segs.headD []) ext s0 with
          | (s1, bytes, bad, ext) =>
            let rows := (chunksOf 8 (rcCount d.bits) bytes).map leNat
            let good := rows.filter (fun r => decide (r < t.desc.rows))
            let src := fun (r : Nat) => s0.rowSource n r v none false
            let ranges := good.flatMap (fun r => (src r).ranges)
            if bad then finish s1 (cpl ST_POISONED 0)
            else match s0.engineReady tok ranges with
              | (s2, false) => s2
              | (s2, true) => s2.runDesc tok 0x25 (fun d s =>
                  let s := (State.readSegs d (segs.headD []) [] s).1
                  let (s, placed, _) := s.rcAdmitOver n t src good ext
                  let dropped := rows.length - good.length
                  let c : Cpl := { done := placed, dropped := dropped }
                  (s, some (if 0 < dropped then { c with status := ST_PARTIAL, reason := EMB_INDEX_DROPPED } else c))))

/-! ## Privileged tables (R359) -/

/-- EMB_PRIV_ENTRY_WRITE. -/
def effEmbPriv : RegEffect := fun v s =>
  let e := s.fld F.EMB_PRIV_SEL_ENTRY
  let old := s.emb.privileged.get 0 e
  let s := s.setEmb (fun m => { m with privileged := m.privileged.put e (v &&& 0x8000FFFF) })
  let n := bitsOf old 0 16
  (if old.getLsbD 31 && (s.table n).phase != .free && (s.table n).slice == e / 16 && (s.table n).defaulting
      && !s.embPriv (e / 16) n then s.setTable n { s.table n with policyDue := true } else s, none)

def execEmbPrivEntryWrite (path : Nat) (value : Word) (cycle : Nat) (s : State) : Host.Outcome State Fault Refusal :=
  .next (s.guardPair path Reg.EMB_PRIV_ENTRY value cycle (fun _ => true) effEmbPriv)

end Sys2Proof.Machine
end

