-- ==== Sys2Proof/Machine/UpdRows.lean ====
section
/-! DEFINITION. The update service (chapter 12), and what the tick boundary does to tables (R359, R361, R374 to R379, R392 to
R409). -/

namespace Sys2Proof.Machine

def State.update (s : State) (n : Nat) : Option EmbUpdate := s.emb.updates.find n
def State.setUpdate (s : State) (n : Nat) (u : EmbUpdate) : State := s.setEmb (fun e => { e with updates := e.updates.put n u })

/-! ## The update descriptor (R389, R390) -/

/-- FP32 fields of an update descriptor, read as values. -/
def finite (bits : Nat) : Bool := match f32 bits with | .fin _ _ _ => true | _ => false
def notNeg (bits : Nat) : Bool := finite bits && ((f32 bits).isZero || !(f32 bits).isNeg)
def above0 (bits : Nat) : Bool := notNeg bits && !(f32 bits).isZero
def below1 (bits : Nat) : Bool := notNeg bits && (f32 bits).lt (FV.ofInt 1)

def parseUpdate (l : List Byte) (now : Nat) : EmbUpdate × Nat × Nat × Bool :=
  let f := fun o n => leNat ((l.drop o).take n)
  let u : EmbUpdate := { opt := f 2 1, master := (f 3 1).testBit 0, stoch := (f 3 1).testBit 1, ticks := f 4 2, start := f 8 8
                         lr := f 32 4, beta1 := f 36 4, beta2 := f 40 4, eps := f 44 4, decay := f 48 4, seed := f 56 8
                         stateArea := [], mergeArea := [], key := 0, keyEpoch := 0 }
  let ok := f 0 2 == 1 && decide (u.opt ≤ 4) && decide (f 3 1 < 4) && decide (1 ≤ u.ticks ∧ u.ticks ≤ 256) && f 6 2 == 0
    && decide (now + 2 ≤ u.start) && f 16 8 % 4096 == 0 && f 24 8 % 4096 == 0 && finite u.lr
    && (if u.opt = 1 ∨ u.opt = 4 then below1 u.beta1 else u.beta1 == 0)
    && (if u.opt = 4 then below1 u.beta2 else u.beta2 == 0)
    && (if 2 ≤ u.opt then above0 u.eps else u.eps == 0) && notNeg u.decay && f 52 4 == 0 && f 64 64 == 0
  (u, f 16 8, f 24 8, ok)

/-- Z and ZP (Table 12-2). -/
def EmbUpdate.z (u : EmbUpdate) (cols : Nat) : Nat :=
  let m := boolNat u.master
  if u.opt = 0 then 4 * cols * m
  else if u.opt = 2 then 4 * cols * m + 4
  else if u.opt = 4 then 4 * cols * (m + 2) + 8
  else 4 * cols * (m + 1)

def EmbUpdate.zp (u : EmbUpdate) (cols : Nat) : Nat := round64 (u.z cols)

/-- Bytes of a merge entry. -/
def mergeEntry (cols : Nat) : Nat := 80 * cols + 64

def EmbUpdate.stateLen (u : EmbUpdate) (t : TblDesc) : Nat := round4k (t.rows * u.zp t.cols)
def mergeLen (t : TblDesc) : Nat := 4 * round4k (t.maxWin * (mergeEntry t.cols + 16))

/-- EMB and STK that an update reserves per tick (R410). -/
def EmbUpdate.reserves (u : EmbUpdate) (t : TblDesc) : Nat × Nat :=
  let r := round64 t.size
  (t.maxWin * r, t.maxWin * (mergeEntry t.cols + 5 * r + round64 (t.size + 16) + 2 * u.zp t.cols))

/-- What the slice's updates reserve. -/
def State.updReserved (s : State) (slice : Nat) : Nat × Nat :=
  (s.emb.updates.filter (fun e => (s.table e.1).slice == slice)).foldl (fun a e =>
    let r := e.2.reserves (s.table e.1).desc
    (a.1 + r.1, a.2 + r.2)) (0, 0)

/-- Checks 1 to 4 of Table 12-3. -/
def State.updStartFails (s : State) (d : DescBits) (ok : Bool) : Option Cpl :=
  let n := dfield d 16 2
  let t := s.table n
  if !ok then some (cpl ST_REFUSED_FIT UPD_FORMAT)
  else if !s.tableServes d then some (cpl ST_PERMISSION EMB_TABLE)
  else if s.emb.updates.has n then some (cpl ST_REFUSED_FIT UPD_RUNNING)
  else if !t.desc.updatable || t.desc.elem == 11 || (t.images.take 1).any (fun i => i.segs.any (fun p => p.1)) then
    some (cpl ST_REFUSED_FIT UPD_TABLE)
  else none

/-- Check 5: the areas are the slice's, and meet neither each other nor a live image or the undo area. -/
def State.updAreasOk (s : State) (n slice : Nat) (st mg : List Seg) : Bool :=
  let t := s.table n
  let a := st.map (fun x => (x.addr, x.len))
  let b := mg.map (fun x => (x.addr, x.len))
  let others := t.undoArea ++ t.images.flatMap (fun i => devicePieces i.segs)
  s.areaOk slice st && s.areaOk slice mg && !(piecesMeet a b) && !(piecesMeet a others) && !(piecesMeet b others)

/-- Check 6 (R410). -/
def State.updFits (s : State) (slice : Nat) (u : EmbUpdate) (t : TblDesc) : Bool :=
  let (emb, stk) := u.reserves t
  let (emb', stk') := s.updReserved slice
  s.plansCover slice (emb + s.embReserved slice + emb') (fun c => c.emb) && s.plansCover slice (stk + stk') (fun c => c.stk)

/-- UPD_START. -/
def execUpdStart (tok : Nat) (ext : List Byte) (s : State) : Host.Outcome State Fault Refusal :=
  .next (match s.desc tok with
    | none => s
    | some d =>
      let n := dfield d.bits 16 2
      let slice := dSlice d.bits
      let finish := fun (s : State) (c : Cpl) => s.runDesc tok 0x26 (fun _ s => (s, some c))
      if dOpcode d.bits ≠ 0x26 ∨ s.mayBegin tok d = false then s
      else match s.acquire tok d [⟨dfield d.bits 24 8, 128, 1, false⟩] with
        | .wait s => s
        | .stop s c => finish s c
        | .ready s0 segs =>
          let (s1, l, poison, _) := State.readSegs d (segs.headD []) ext s0
          let (u, stVa, mgVa, ok) := parseUpdate l s1.tick.now
          let t := (s1.table n).desc
          let ok := ok && !poison && dfield d.bits 24 8 % 64 == 0 && (stVa == 0 || decide (0 < u.z t.cols))
          match s1.updStartFails d.bits ok with
          | some c => finish s1 c
          | none =>
            match s1.xlateRange tok d stVa (u.stateLen t) 3 with
            | (_, .wait) => s
            | (s2, .fault _ _) => finish s2 (cpl ST_REFUSED_FIT UPD_AREA)
            | (s2, .ok st) =>
              match s2.xlateRange tok d mgVa (mergeLen t) 3 with
              | (_, .wait) => s
              | (s3, .fault _ _) => finish s3 (cpl ST_REFUSED_FIT UPD_AREA)
              | (s3, .ok mg) =>
                if !s3.updAreasOk n slice st mg then finish s3 (cpl ST_REFUSED_FIT UPD_AREA)
                else if !s3.updFits slice u t then finish s3 (cpl ST_REFUSED_FIT UPD_FIT_PLAN)
                else finish (s3.setUpdate n { u with stateArea := st.map (fun x => (x.addr, x.len))
                                                     mergeArea := mg.map (fun x => (x.addr, x.len))
                                                     key := dKeySlot d.bits, keyEpoch := dKeyEpoch d.bits }) {})

/-- R409, from the round that admits an UPD_STOP: the update is STOPPING. -/
def State.admitUpdStop (s : State) (tok : Nat) (d : Desc) : State :=
  let n := dfield d.bits 16 2
  match s.update n with
  | some u => if u.stopping then s else s.setUpdate n { u with stopping := true, stopper := some tok }
  | none => s

/-- UPD_STOP: it completes when the last window is released (R409). -/
def execUpdStop (tok : Nat) (s : State) : Host.Outcome State Fault Refusal :=
  .next (match s.desc tok with
    | none => s
    | some d =>
      if (match s.update (dfield d.bits 16 2) with | some u => u.stopper == some tok | none => false) then
        s.runDesc tok 0x27 (fun _ s => (s, none))
      else s.runDesc tok 0x27 (fun _ s => (s, some (cpl ST_PERMISSION UPD_NOT_RUNNING))))

/-! ## Scattering gradients (R394 to R398) -/

/-- The gathering window of an update. -/
def EmbUpdate.gathering (u : EmbUpdate) : Option MergeWindow := u.windows.find? (fun w => w.stage == .gather)

def EmbUpdate.setWindow (u : EmbUpdate) (w : MergeWindow) : EmbUpdate :=
  { u with windows := u.windows.map (fun x => if x.k = w.k then w else x) }

/-- Add one contribution to a merge set: a term per column (R398). -/
def MergeWindow.merge (w : MergeWindow) (row : Nat) (terms : List FV) : MergeWindow :=
  { w with rows := w.rows.updD { accs := terms.map (fun _ => {}), count := 0 } row (fun m =>
      { accs := (List.zip m.accs terms).map (fun e => e.1.add e.2), count := m.count + 1 }) }

/-- The term of a contribution in one column (Table 12-6). -/
def gradTerm (pool m weight : Nat) (g : FV) : FV :=
  if pool = 2 then g.divRnd (FV.ofInt m) else if pool = 4 then (f32 weight).mul g else g

/-- The rows that one bag contributes to, with weights: those of invalid indices are dropped or the default row's. -/
def bagRows (t : TblDesc) (defaulting : Bool) (items : List (Nat × Nat)) : List (Nat × Nat) × Nat × Nat :=
  items.foldl (fun (a : List (Nat × Nat) × Nat × Nat) it =>
    match idxUse t defaulting it.1 with
    | .row r => (a.1 ++ [(r, it.2)], a.2.1, a.2.2)
    | .default_ => (a.1 ++ [(t.defaultRow, it.2)], a.2.1, a.2.2 + 1)
    | .drop => (a.1, a.2.1 + 1, a.2.2)) ([], 0, 0)

/-- The gradients of bags merged in turn. -/
def MergeWindow.mergeBags (w : MergeWindow) (f : BagForm) (t : TblDesc) (bags : List (List (Nat × Nat) × Nat × Nat))
    (grads : List (List Byte)) : MergeWindow :=
  (List.zip bags grads).foldl (fun (w : MergeWindow) e =>
    let g := decodeElems f.fmt t.cols e.2 []
    e.1.1.foldl (fun (w : MergeWindow) r => w.merge r.1 (g.map (gradTerm f.pool e.1.1.length r.2))) w) w

/-- The ranges of the gradient rows. -/
def gradNeeds (d : DescBits) (t : TblDesc) : List Need :=
  let f := bagForm d
  let ob := outBytes f.fmt
  (List.range f.rows).map (fun j => ⟨dfield d 56 6 + (j * t.total + t.colOff) * ob, t.cols * ob, 1, false⟩)

/-- SCATTER_GRAD. -/
def execScatterGrad (tok : Nat) (ext : List Byte) (s : State) : Host.Outcome State Fault Refusal :=
  .next (match s.desc tok with
    | none => s
    | some d =>
      let f := bagForm d.bits
      let n := f.table
      let t := (s.table n).desc
      let finish := fun (s : State) (c : Cpl) => s.runDesc tok 0x24 (fun _ s => (s, some c))
      if dOpcode d.bits ≠ 0x24 ∨ s.mayBegin tok d = false then s
      else if (s.table n).phase = .free ∨ (s.table n).slice ≠ dSlice d.bits then finish s (cpl ST_PERMISSION EMB_TABLE)
      else match (s.update n).bind (fun u => (u.gathering).bind (fun w => if w.k + 1 = d.pinned then some (u, w) else none)) with
        | none => finish s (cpl ST_PERMISSION UPD_NOT_RUNNING)
        | some (u, w) =>
          match s.acquire tok d (f.needs ++ gradNeeds d.bits t) with
          | .wait s => s
          | .stop s c => finish s c
          | .ready s segs =>
            match s.readArrays d segs ext with
            | (s, arrays, bad, _) =>
              let (items, ok) := f.parse arrays
              let grads := arrays.drop (f.needs.length)
              if bad then finish s (cpl ST_POISONED 0)
              else if !ok then finish s (cpl ST_ABORTED EMB_OFFSETS)
              else
                let bags := items.map (bagRows t (d.crit == 1))
                let rows := bags.flatMap (fun b => b.1)
                let dropped := (bags.map (fun b => b.2.1)).foldl (· + ·) 0
                let deflt := (bags.map (fun b => b.2.2)).foldl (· + ·) 0
                let new := ((rows.map Prod.fst).filter (fun r => !(w.rows.has r))).eraseDups
                let s := s.embCount n (fun c => { c with drops := c.drops + dropped })
                if t.maxWin < w.rows.length + new.length then
                  finish ((s.embCount n (fun c => { c with mergeFull := c.mergeFull + 1 })).setEvt F.EMB_UPD_EVT_MERGE_FULL)
                    (cpl ST_MERGE_FULL MERGE_FULL)
                else
                  let w := w.mergeBags f t bags grads
                  let s := s.setUpdate n (u.setWindow w)
                  let s := s.embCount n (fun c => { c with contributions := c.contributions + rows.length })
                  let c : Cpl := { done := rows.length, dropped := dropped, result := w.k % 2 ^ 32 + at_ 32 deflt }
                  finish s (if 0 < dropped then { c with status := ST_PARTIAL, reason := EMB_INDEX_DROPPED } else c))

/-! ## The update of one row (R401 to R404) -/

/-- The 32-bit value of R404. -/
def stochU (seed row col last : Nat) : Nat :=
  let m := 2 ^ 64
  let z := (seed ^^^ (row * 0x9E3779B97F4A7C15 % m)) ^^^ (col * 0xC2B2AE3D27D4EB4F % m) ^^^ (last * 0x165667B19E3779F9 % m)
  let z := (z ^^^ (z / 2 ^ 30)) * 0xBF58476D1CE4E5B9 % m
  let z := (z ^^^ (z / 2 ^ 27)) * 0x94D049BB133111EB % m
  (z ^^^ (z / 2 ^ 31)) / 2 ^ 32

/-- Stochastic rounding of a value to a format (R403): a finite value within range goes to one of the two adjacent values;
anything else is converted by R323. -/
def stochRound (f : Fmt) (u : Nat) (v : FV) : Nat :=
  match v with
  | .fin neg m e =>
    if m = 0 then f.encode v
    else
      let low : Int := f.emin - f.man
      let q := max (e + (Nat.log2 m : Int) - f.man) low
      if q ≤ e then f.encode v
      else
        let sh := (q - e).toNat
        let k := m / 2 ^ sh
        let r := m % 2 ^ sh
        let max_ := f.decode f.maxBits
        let out := FV.lt max_ (.fin false m e)
        if r = 0 ∨ out = true then f.encode v
        else
          -- b is the larger of the two values; x lies (x − a) ÷ (b − a) of the way to it
          let num := if neg then 2 ^ sh - r else r
          let up := decide (u < num * 2 ^ 32 / 2 ^ sh)
          f.encode (.fin neg (if up != neg then k + 1 else k) q)
  | v => f.encode v

/-- The FP32 values of a row's state at byte `o`: `n` of them. -/
def stateVals (l : List Byte) (o n : Nat) : List FV := (chunksOf 4 n ((l.drop o).take (4 * n))).map (fun b => f32 (leNat b))

def FV.plus (a b : FV) : FV := (a.add b).rnd
def FV.minus (a b : FV) : FV := (a.add b.neg).rnd
def FV.times (a b : FV) : FV := (a.mul b).rnd

/-- What the optimizer makes of a row: its weights, and its state without MASTER, as values in the order of Table 12-2. -/
def EmbUpdate.optimize (u : EmbUpdate) (cols : Nat) (state : List Byte) (g w : List FV) : List FV × List FV :=
  let lr := f32 u.lr
  let b1 := f32 u.beta1
  let b2 := f32 u.beta2
  let eps := f32 u.eps
  let decay := f32 u.decay
  let one := FV.ofInt 1
  let base := if u.master then 4 * cols else 0
  let g := if u.opt ≠ 4 ∧ decay.isZero = false then (List.zip g w).map (fun e => e.1.plus (decay.times e.2)) else g
  let gw := List.zip g w
  let zip3 := fun (a : List FV) => List.zip a gw
  if u.opt = 0 then (gw.map (fun e => e.2.minus (lr.times e.1)), [])
  else if u.opt = 1 then
    let mom := (List.zip (stateVals state base cols) g).map (fun e => (b1.times e.1).plus e.2)
    ((List.zip w mom).map (fun e => e.1.minus (lr.times e.2)), mom)
  else if u.opt = 2 then
    let sum := f32 ((g.foldl (fun (a : Accum) x => a.add (x.mul x)) {}).read)
    let acc := ((stateVals state base 1).headD FV.zero).plus (sum.divRnd (FV.ofInt cols))
    (gw.map (fun e => e.2.minus ((lr.times e.1).divRnd (acc.sqrtRnd.plus eps))), [acc])
  else if u.opt = 3 then
    let acc := (List.zip (stateVals state base cols) g).map (fun e => e.1.plus (e.2.times e.2))
    ((zip3 acc).map (fun e => e.2.2.minus ((lr.times e.2.1).divRnd (e.1.sqrtRnd.plus eps))), acc)
  else
    let m1 := (List.zip (stateVals state base cols) g).map (fun e => (b1.times e.1).plus ((one.minus b1).times e.2))
    let m2 := (List.zip (stateVals state (base + 4 * cols) cols) g).map (fun e =>
      (b2.times e.1).plus (((one.minus b2).times e.2).times e.2))
    let c := stateVals state (base + 8 * cols) 2
    let c1 := (b1.times (c.headD FV.zero)).plus (one.minus b1)
    let c2 := (b2.times (c.getD 1 FV.zero)).plus (one.minus b2)
    ((List.zip (List.zip m1 m2) w).map (fun e =>
      let step := ((e.1.1.divRnd c1).divRnd ((e.1.2.divRnd c2).sqrtRnd.plus eps)).plus (decay.times e.2)
      e.2.minus (lr.times step)), m1 ++ m2 ++ [c1, c2])

/-- convert(w) of a whole row (R403): the new row slice and the saturations. -/
def EmbUpdate.convert (u : EmbUpdate) (t : TblDesc) (old : List Byte) (row last : Nat) (w : List FV) : List Byte × Nat :=
  if t.elem = 9 then
    let f := fun o => fmtFp16.decode (leNat ((old.drop o).take 2))
    let q := encodeElems 9 (w.map (fun x => (x.minus (f (t.cols + 2))).divRnd (f t.cols)))
    (q.1 ++ (old.drop t.cols).take 4, q.2.2)
  else match floatFmt t.elem with
    | none => (old, 0)
    | some fm =>
      if t.elem = 1 ∨ u.stoch = false then ((encodeElems t.elem w).1, 0)
      else (packElems fm.width ((List.zip (List.range w.length) w).map (fun e =>
        stochRound fm (stochU u.seed row (t.colOff + e.1) last) e.2)), 0)

/-- An accumulator that leaves its row unchanged (R402). -/
def Accum.flagged (a : Accum) : Bool := a.nan || a.posInf || a.negInf || a.overflow

/-- What the apply makes of one row: its new row slice, its new state, the saturations. -/
def EmbUpdate.newRow (u : EmbUpdate) (t : TblDesc) (m : MergeRow) (old state : List Byte) (row last : Nat) :
    List Byte × List Byte × Nat :=
  let g := m.accs.map (fun a => f32 a.read)
  let w := if u.master then stateVals state 0 t.cols else (t.values old).map FV.rnd
  let (w, st) := u.optimize t.cols state g w
  let (bytes, sat) := u.convert t old row last w
  let vals := (if u.master then w else []) ++ st
  (bytes, vals.flatMap (fun v => leBytes 4 (toF32 v)), sat)

/-- Write under a key slot while its key serves, for no descriptor. -/
def State.writeQuiet (s : State) (key epoch : Nat) : List (Nat × Nat) → List Byte → State
  | [], _ => s
  | (a, n) :: t, bytes =>
    (if s.keyServes key epoch then s.homeWrite .none key a (bytes.take n) else s.staleAccess).writeQuiet key epoch t (bytes.drop n)

/-- R402: the row is left unchanged, and reported. The reason code of EMB_UPD_LAST_ERROR is not stated: a free value. -/
def State.updSkip (s : State) (n row : Nat) (poison : Bool) : State :=
  let (reason, s) := s.draw
  let s := s.setEmb (fun e => { e with updError := (n, reason % 65536, row, s.tick.now % 2 ^ 32) })
  if poison then
    ((s.embCount n (fun c => { c with poisonRows := c.poisonRows + 1 })).setEvt F.EMB_UPD_EVT_POISON_ROW).event EMB_POISON
      LOC_MD row
  else (s.embCount n (fun c => { c with nonfinite := c.nonfinite + 1 })).setEvt F.EMB_UPD_EVT_NONFINITE

/-- The apply of one row. -/
def State.applyRow (s : State) (n : Nat) (u : EmbUpdate) (img : TblImage) (w : MergeWindow) (e : Nat × MergeRow) :
    State × MergeWindow :=
  let t := s.table n
  let row := e.1
  let z := u.z t.desc.cols
  if e.2.accs.any Accum.flagged then (s.updSkip n row false, w)
  else
    match State.readKeyed t.key t.keyEpoch (devicePieces (t.desc.rowSegs img row)) s with
    | (s, old, bad) =>
      let area := cutPieces u.stateArea (row * u.zp t.desc.cols) z
      match State.readKeyed u.key u.keyEpoch area s with
      | (s, st, bad') =>
        if bad || bad' then (s.updSkip n row true, w)
        else
          let (new, st, sat) := u.newRow t.desc e.2 old st row w.last
          let s := s.writeQuiet u.key u.keyEpoch area st
          let s := s.embCount n (fun c => { c with rowsUpdated := c.rowsUpdated + 1, saturations := c.saturations + sat })
          (s, { w with fresh := w.fresh.put row new })

/-- The apply tick of a sealed window. -/
def State.applyWindow (s : State) (n : Nat) (w : MergeWindow) : State :=
  match s.update n, (s.table n).images with
  | some u, img :: _ =>
    let (s, w) := w.rows.foldl (fun (a : State × MergeWindow) e => a.1.applyRow n u img a.2 e) (s, w)
    s.setUpdate n (u.setWindow { w with stage := .applied, image := img.first })
  | _, _ => s

/-- The write-back of a committed window: old contents saved, new rows written (R378). -/
def State.writeBack (s : State) (n : Nat) (w : MergeWindow) : State :=
  let t := s.table n
  match s.update n, t.images.find? (fun i => i.first == w.image) with
  | some u, some img =>
    let (s, undo) := w.fresh.foldl (fun (a : State × Tab (List Byte)) e =>
      let l := devicePieces (t.desc.rowSegs img e.1)
      match State.readKeyed t.key t.keyEpoch l a.1 with
      | (s, old, _) => (s.writeQuiet t.key t.keyEpoch l e.2, a.2.put e.1 old)) (s, [])
    s.setUpdate n (u.setWindow { w with written := true, undo := undo })
  | some u, none => s.setUpdate n (u.setWindow { w with written := true })
  | none, _ => s

/-! ## The boundary: windows (Table 2-6 step 4) -/

/-- Release of committed windows whose write-back has finished; a STOPPING update with none left is OFF. -/
def State.releaseWindows (s : State) (n : Nat) : State :=
  match s.update n with
  | none => s
  | some u =>
    let u := { u with windows := u.windows.filter (fun w => !(w.stage == .committed && w.written)) }
    s.setUpdate n u

/-- Commit: the window's new rows become current; step 5 advances the version. -/
def State.commitWindow (s : State) (n t : Nat) : State :=
  match s.update n with
  | none => s
  | some u =>
    match u.windows.find? (fun w => w.stage == .applied), u.windows.any (fun w => w.stage == .committed) with
    | some w, false =>
      let s := s.setUpdate n (u.setWindow { w with stage := .committed, version := (s.table n).version + 1 })
      let s := s.embCount n (fun c => { c with lastWindow := w.k, lastCommit := t })
      let s := s.setEmb (fun e => { e with cache := e.cache.mapV (fun _ l => l.map (fun x =>
        if x.table == n && w.fresh.has x.row then { x with stale := true } else x)) })
      s.setEvt F.EMB_UPD_EVT_COMMITTED
    | _, _ => s

/-- A SCATTER_GRAD of the window is still running (R393). -/
def State.scatterRuns (s : State) (n k : Nat) : Bool :=
  s.rings.descs.any (fun _ e => dOpcode e.bits == 0x24 && dfield e.bits 16 2 == n && e.phase == .running && e.pinned == k + 1)

/-- Seal of the gathering window at boundary `t`, and the opening of the next (R392, R393). -/
def State.sealWindow (s : State) (n t : Nat) : State :=
  match s.update n with
  | none => s
  | some u =>
    match u.gathering with
    | none =>
      if u.opened = 0 ∧ u.stopping = false ∧ u.start ≤ t then
        s.setUpdate n { u with opened := 1, windows := u.windows ++ [{ k := 0, opened := t }] }
      else s
    | some w =>
      if (t < w.opened + u.ticks ∧ u.stopping = false) ∨ s.scatterRuns n w.k = true then s
      else if u.stopping then s.setUpdate n (u.setWindow { w with stage := .sealed, last := t - 1 })
      else if 4 ≤ u.windows.length then
        (s.embCount n (fun c => { c with extended := c.extended + 1 })).setEvt F.EMB_UPD_EVT_EXTENDED
      else
        let u := u.setWindow { w with stage := .sealed, last := t - 1 }
        s.setUpdate n { u with opened := u.opened + 1, windows := u.windows ++ [{ k := w.k + 1, opened := t }] }

/-- A STOPPING update whose last window is released is OFF. -/
def State.endUpdate (s : State) (n : Nat) : State :=
  match s.update n with
  | none => s
  | some u =>
    if u.stopping && u.windows.isEmpty then
      let s := s.setEmb (fun e => { e with updates := e.updates.del n })
      match u.stopper with
      | some tok => (match s.desc tok with
          | some d => if d.begun then s.opEnd tok {} else s.runDesc tok 0x27 (fun _ s => (s, some {}))
          | none => s)
      | none => s
    else s

/-- Step 4: merge windows release, commit and seal. -/
def State.windowsStep (s : State) (t : Nat) : State :=
  s.emb.updates.keys.foldl (fun (s : State) n =>
    ((((s.releaseWindows n).commitWindow n t).sealWindow n t).endUpdate n)) s

/-- The work of the tick that begins: write-back of the windows that committed, then apply of those that sealed. -/
def State.windowsWork (s : State) : State :=
  s.emb.updates.keys.foldl (fun (s : State) n =>
    let ws := fun (s : State) => match s.update n with | some u => u.windows | none => []
    let s := ((ws s).filter (fun w => w.stage == .committed && !w.written)).foldl (fun (s : State) w => s.writeBack n w) s
    ((ws s).filter (fun w => w.stage == .sealed)).foldl (fun (s : State) w => s.applyWindow n w) s) s

/-! ## The boundary: versions (step 5) -/

/-- Versions and images that are no longer live are freed (R377, R379). -/
def State.freeVersions (s : State) (n : Nat) : State :=
  let t := s.table n
  if t.phase = .free then s
  else
    let live := s.liveImages n
    let gone := t.images.filter (fun i => !(live.contains i))
    let versions := s.liveVersions n
    let s := s.setTable n { t with images := live, copies := t.copies.keep (fun v _ => versions.contains v) }
    gone.foldl (fun (s : State) i =>
      let s := s.setEvt F.EMB_EVT_VERSION_FREED
      if s.assisted 5 then
        s.postAssist s.assistPort 5 0x21 (assistOperands 0x21 [(16, 2, n), (20, 4, i.last % 2 ^ 32), (24, 6, i.va)])
      else s) s

/-- The version advances: the default row's copy is refreshed (R361). `ext`: its bytes where they lie on a HOST output. -/
def State.refreshDefault (s : State) (n : Nat) (ext : List Byte) : State :=
  if (s.table n).desc.wantsDefault then
    match s.defaultBytes (s.table n) ext with
    | (s, c) => s.setTable n { s.table n with copies := (s.table n).copies.put (s.table n).version c }
  else s

/-- A window publish: the version of the window that has just committed (R374). -/
def State.windowPublish (s : State) (n : Nat) : State :=
  match s.update n with
  | none => s
  | some u =>
    if u.windows.any (fun w => w.stage == .committed && !w.written) then
      let t := s.table n
      let v := t.version + 1
      let s := s.setTable n { t with version := v, images := match t.images with
        | i :: r => { i with last := v } :: r
        | [] => [] }
      -- the copy holds the committed row where the window changed it
      match u.windows.find? (fun w => w.stage == .committed && !w.written) with
      | some w =>
        match w.fresh.find t.desc.defaultRow with
        | some b => if t.desc.wantsDefault then s.setTable n { s.table n with copies := (s.table n).copies.put v (b, false) } else s
        | none => s.refreshDefault n []
      | none => s
    else s

/-- An image publish (R376). -/
def State.imagePublish (s : State) (n : Nat) : State :=
  let t := s.table n
  match t.publish with
  | none => s
  | some p =>
    let v := t.version + 1
    let t' := { t with publish := none, version := v
                       images := { va := p.va, segs := p.segs, first := v, last := v } :: t.images }
    let s' := s.setTable n t'
    if 4 < (s'.liveImages n).length then
      (s.setTable n { t with publish := none }).opEnd p.tok (cpl ST_REFUSED_FIT EMB_VERSIONS)
    else
      let s := s'.refreshDefault n p.row
      s.opEnd p.tok { result := v % 2 ^ 32 + at_ 32 (s.oldestLive n % 2 ^ 32) }

def State.versionsStep (s : State) : State :=
  s.emb.tables.keys.foldl (fun (s : State) n => ((s.freeVersions n).windowPublish n).imagePublish n) s

/-! ## The boundary: what begins, and the policy (step 7) -/

/-- A LOOKUP or SCATTER_GRAD of the tick that begins takes its version or its window (R375, R394). -/
def State.embStart (s : State) (e : Nat × Desc) : State :=
  let (tok, d) := e
  let n := dfield d.bits 16 2
  if dOpcode d.bits = 0x22 then
    match (s.table n).readVersion (lkVersion d.bits) with
    | some v => s.setDesc tok { d with pinned := v }
    | none => s.finish tok (cpl ST_VERSION_GONE EMB_VERSION_GONE)
  else if dOpcode d.bits = 0x24 then
    s.setDesc tok { d with pinned := match (s.update n).bind EmbUpdate.gathering with | some w => w.k + 1 | none => 0 }
  else s

/-- R359: cleared privileges take effect. -/
def State.policyStep (s : State) : State :=
  s.setEmb (fun e => { e with tables := e.tables.mapV (fun _ t =>
    if t.policyDue then { t with policyDue := false, defaulting := false } else t) })

/-- R383: the sketches are halved every AGE_TICKS ticks. -/
def State.rcAge (s : State) (old t : Nat) : State :=
  s.setEmb (fun e => { e with sketch := e.sketch.mapV (fun _ c => c / 2 ^ agings old t (s.fld F.EMB_RC_AGE_AGE_TICKS)) })

/-- Row-cache candidates, hottest first. -/
def sortCands (l : List (Nat × Nat × Nat)) : List (Nat × Nat × Nat) :=
  l.foldl (fun acc n => acc.takeWhile (fun m => decide (n.1 ≤ m.1)) ++ [n] ++ acc.dropWhile (fun m => decide (n.1 ≤ m.1))) []

/-- R385: candidate records of the tick just ended. -/
def State.rcAssist (s : State) : State :=
  let l := (sortCands s.emb.cands).take (5 * s.fld F.EMB_RC_ASSIST_MAX_RECORDS)
  let s := s.setEmb (fun e => { e with cands := [] })
  if !s.assisted 6 then s
  else (chunksOf 5 (l.length + 1) l).foldl (fun (s : State) c =>
    let f := (List.range c.length).map (fun i =>
      let x := c.getD i (0, 0, 0)
      (if i < 2 then 16 + 8 * i else 24 + 8 * i, 8, x.2.2 + at_ 40 x.2.1 + at_ 56 x.1)) ++ [(39, 1, c.length)]
    s.postAssist s.assistPort 6 0x20 (assistOperands 0x20 f)) s

/-- R250: row-cache entries of a region are dropped as blocks leave that use. -/
def State.rcShrink (s : State) (h blocks : Nat) : State :=
  let used := ((List.range 13).map (s.rcBlocks h)).foldl (· + ·) 0
  if used ≤ blocks then s else s.setRc h []

/-! ## Admission -/

/-- The policy in force at a lookup's or scatter's admission (R360). -/
def State.admitEmb (s : State) (tok : Nat) (d : Desc) : State :=
  if dOpcode d.bits = 0x22 ∨ dOpcode d.bits = 0x24 then
    s.setDesc tok { d with crit := boolNat (s.table (dfield d.bits 16 2)).defaulting }
  else s

/-- R410: what the update service takes in the round of tick `t`, by slice: the apply of windows that seal at its boundary,
the write-back of windows that commit there. -/
def State.updateCharges (s : State) (t : Nat) : List (Nat × Cost) :=
  s.emb.updates.flatMap (fun e =>
    let u := e.2
    let tb := s.table e.1
    let r := round64 tb.desc.size
    u.windows.filterMap (fun w =>
      if w.stage == .gather && (decide (w.opened + u.ticks ≤ t) || u.stopping) then
        some (tb.slice, { emb := w.rows.length * r, stk := w.rows.length * (mergeEntry tb.desc.cols + 2 * r + 2 * u.zp tb.desc.cols) })
      else if w.stage == .applied then
        some (tb.slice, { stk := w.rows.length * (3 * r + round64 (tb.desc.size + 16)) })
      else none))

end Sys2Proof.Machine
end

