-- ==== Sys2Proof/Machine/SrhOps.lean ====
section
/-! DEFINITION. Flash pages, indexes, scores and the walk of the tree (chapter 13). -/

namespace Sys2Proof.Machine

/-! ## Reasons (Table 13-11) -/

def SRH_OPERAND : Nat := 0x0D01
def SRH_INDEX : Nat := 0x0D02
def SRH_FORMAT : Nat := 0x0D03
def SRH_SLOT : Nat := 0x0D04
def SRH_CHANNELS : Nat := 0x0D05
def SRH_FIT_PLAN : Nat := 0x0D06
def SRH_AREA : Nat := 0x0D07
def SRH_FIT_FLASH : Nat := 0x0D08
def SRH_LEAF_FORMAT : Nat := 0x0D09
def SRH_LEAF_WRITTEN : Nat := 0x0D0A
def SRH_LEAVES_MISSING : Nat := 0x0D0B
def SRH_VNUM_PRESENT : Nat := 0x0D0C
def SRH_VNUM_ABSENT : Nat := 0x0D0D
def SRH_DELETE_RATE : Nat := 0x0D0E
def SRH_SIDE_FULL : Nat := 0x0D0F
def SRH_NODE_FORMAT : Nat := 0x0D10
def SRH_NODE_POISON : Nat := 0x0D11
def SRH_PAGE_LOST : Nat := 0x0D12
def SRH_MERGE_ABANDONED : Nat := 0x0D13
def INDEX_DISCARDED : Nat := 0x1516

/-! ## State access -/

def State.setSrh (s : State) (f : SrhState → SrhState) : State := { s with srh := f s.srh }
def State.index (s : State) (n : Nat) : SrhIndex := s.srh.indexes.get {} n
def State.setIndex (s : State) (n : Nat) (x : SrhIndex) : State := s.setSrh (fun e => { e with indexes := e.indexes.put n x })
def State.chan (s : State) (c : Nat) : FlashChan := s.srh.chans.get {} c
def State.setChan (s : State) (c : Nat) (x : FlashChan) : State := s.setSrh (fun e => { e with chans := e.chans.put c x })

/-- Location code of a flash channel (Table 1-6). -/
def locChannel (c : Nat) : Nat := at_ 24 (0x30 + c / 16) + 0xFF0000 + at_ 8 (c % 16) + 0xFF

/-! ## Sizes (R420) -/

/-- VB: bytes of a vector. -/
def IdxDesc.vb (d : IdxDesc) : Nat := if d.vtype = 2 then 2 * d.dim else if d.vtype = 0x20 then d.dim / 8 else d.dim
def IdxDesc.es (d : IdxDesc) : Nat := ceilDiv (12 + d.vb) 4 * 4
def IdxDesc.cap (d : IdxDesc) : Nat := 16320 / d.es
def IdxDesc.scap (d : IdxDesc) : Nat := 16320 / (d.es + 8)
def IdxDesc.nodePitch (d : IdxDesc) : Nat := round64 (64 + 256 * d.es)
def IdxDesc.nodeLen (d : IdxDesc) : Nat := round4k (d.nNodes * d.nodePitch)
def IdxDesc.mapLen (d : IdxDesc) : Nat := round4k (d.leaves * 16)
def IdxDesc.sidePages (d : IdxDesc) : Nat := ceilDiv d.sideMax d.scap
def IdxDesc.sideLen (d : IdxDesc) : Nat := d.sidePages * 16384
def IdxDesc.bitLen (d : IdxDesc) : Nat := 2 * ceilDiv d.vnumMax 32768 * 4096
def IdxDesc.deadlinePath (d : IdxDesc) : Bool := d.iflags.testBit 0
def IdxDesc.chanList (d : IdxDesc) : List Nat := maskBits d.channels 64
def IdxDesc.nch (d : IdxDesc) : Nat := d.chanList.length

/-- c(L): the channel of a leaf (R423). -/
def IdxDesc.chanOf (d : IdxDesc) (leaf : Nat) : Nat := d.chanList.getD (leaf % d.nch) 0

/-- Pages that an index reserves on each of its channels (Table 13-6 check 6). -/
def IdxDesc.pagesPer (d : IdxDesc) : Nat := ceilDiv d.leaves d.nch + d.mergePages

/-- An index descriptor as read, and whether it is well formed (Tables 13-1, 13-2). -/
def parseIndex (l : List Byte) : IdxDesc × Bool :=
  let f := fun o n => leNat ((l.drop o).take n)
  let d : IdxDesc := { vtype := f 2 1, metric := f 3 1, dim := f 4 2, depth := f 6 1, iflags := f 7 1, shard := f 8 2
                       scale := f 12 4, nodes := f 16 8, nNodes := f 24 4, leaves := f 28 4, leafmap := f 32 8, side := f 40 8
                       sideMax := f 48 4, mergePages := f 52 4, bitmaps := f 56 8, vnumMax := f 64 8, channels := f 72 8
                       resFls := f 80 4, resStk := f 88 8, name := f 96 8 }
  let ok := f 0 2 == 1 && [9, 13, 14, 2, 0x20].contains d.vtype && decide (d.metric ≤ 2)
    && (if d.vtype = 0x20 then decide (64 ≤ d.dim ∧ d.dim ≤ 16384) && d.dim % 64 == 0 else decide (8 ≤ d.dim ∧ d.dim ≤ 4096))
    && decide (1 ≤ d.depth ∧ d.depth ≤ 8) && decide (d.iflags < 2) && f 10 2 == 0
    && (if d.vtype = 9 then finite d.scale && !(f32 d.scale).isZero else d.scale == 0)
    && d.nodes % 4096 == 0 && decide (1 ≤ d.nNodes ∧ d.nNodes ≤ 2 ^ 24) && decide (1 ≤ d.leaves ∧ d.leaves ≤ 2 ^ 31)
    && d.leafmap % 4096 == 0 && d.side % 4096 == 0 && decide (d.sideMax ≤ 2 ^ 26) && (d.sideMax != 0 || d.side == 0)
    && decide (1 ≤ d.mergePages ∧ d.mergePages ≤ 65536) && d.bitmaps % 4096 == 0
    && decide (1 ≤ d.vnumMax ∧ d.vnumMax ≤ 2 ^ 40) && d.channels != 0 && f 84 4 == 0 && f 104 24 == 0
  (d, ok)

/-! ## Scores (R425, R426) -/

/-- The element values of a stored vector (Table 13-2). -/
def IdxDesc.vector (d : IdxDesc) (bytes : List Byte) : List FV :=
  if d.vtype = 0x20 then
    (unpackElems 1 d.dim bytes).map (fun b => FV.ofInt (if b = 1 then 1 else -1))
  else if d.vtype = 9 then (decodeElems 9 d.dim bytes []).map (fun q => q.mul (f32 d.scale))
  else decodeElems d.vtype d.dim bytes []

def FV.isFinite : FV → Bool | .fin _ _ _ => true | _ => false

/-- A sum of finite values; an exact zero is +0. -/
def sumF (l : List FV) : FV := let v := FV.sum l; if v.isZero then FV.zero else v

/-- 1 ÷ √x of a positive value, rounded to FP32 once; 0 for 0. -/
def rsqrtRnd : FV → FV
  | .fin _ m e =>
    if m = 0 then FV.zero
    else
      let m' := if e % 2 = 0 then m else 2 * m
      let e' := if e % 2 = 0 then e else e - 1
      let k := 66 + Nat.log2 m'
      let q := isqrt (2 ^ (2 * k) / m')
      FV.rnd (.fin false (2 * q + (if q * q * m' = 2 ^ (2 * k) then 0 else 1)) (-(k : Int) - 1 - e' / 2))
  | v => v

/-- QN of a query. -/
def queryNorm (q : List FV) : FV := rsqrtRnd (sumF (q.map (fun v => v.mul v)))

/-- The score of a vector, as an FP32 encoding. -/
def IdxDesc.score (d : IdxDesc) (q : List FV) (qn : FV) (x : List FV) (aux : Nat) : Nat :=
  if q.any (fun v => !v.isFinite) || x.any (fun v => !v.isFinite) then NAN32
  else
    let dot := sumF (List.zipWith FV.mul q x)
    if d.metric = 0 then toF32 (sumF ((List.zipWith (fun a b => let t := a.add b.neg; t.mul t) q x)))
    else if d.metric = 1 then toF32 (if dot.isZero then FV.zero else dot.neg)
    else if d.vtype = 0x20 then toF32 ((sumF [FV.ofInt d.dim, dot.neg]).divRnd (FV.ofInt d.dim))
    else toF32 (let v := FV.sum [FV.ofInt 1, ((dot.mul (f32 aux)).mul qn).neg]; if v.isZero then FV.zero else v)

/-- R426: lower scores first, then lower keys; +Inf after finite scores, NaN last. -/
def Cand.before (a b : Cand) : Bool :=
  let x := f32 a.score
  let y := f32 b.score
  if x.isNan then y.isNan && decide (a.key < b.key)
  else if y.isNan then true
  else if x.lt y then true
  else if y.lt x then false
  else decide (a.key < b.key)

/-- Put a candidate into a ranked list of at most `k`. -/
def rankIn (k : Nat) (l : List Cand) (c : Cand) : List Cand :=
  (l.takeWhile (fun x => x.before c) ++ c :: l.dropWhile (fun x => x.before c)).take k

/-- The best `n` distinct keys among candidates. -/
def bestDistinct (n : Nat) (l : List Cand) : List Nat :=
  let ranked := l.foldl (rankIn l.length) []
  ((ranked.map (fun c => c.key)).eraseDups).take n

/-! ## Pages (R422) -/

/-- Entries of a leaf page or an insert: vector number and stored bytes. -/
def entryVnum (e : List Byte) : Nat := leNat (e.take 8) % 2 ^ 40
def entryAux (e : List Byte) : Nat := leNat ((e.drop 8).take 4)
def IdxDesc.entryVec (d : IdxDesc) (e : List Byte) : List Byte := (e.drop 12).take d.vb

def pageCount (l : List Byte) : Nat := leNat ((l.drop 2).take 2)
def IdxDesc.entries (d : IdxDesc) (l : List Byte) : List (List Byte) := (chunksOf d.es (pageCount l) ((l.drop 64).take (pageCount l * d.es)))

def IdxDesc.pageCrc (d : IdxDesc) (l : List Byte) : Nat := crc32c (l.take 60 ++ (l.drop 64).take (pageCount l * d.es))

/-- A leaf page with its CRC, from its entries. -/
def buildLeafPage (leaf : Nat) (es : List (List Byte)) : List Byte :=
  let head := leBytes 60 (0x1EAF + at_ 16 es.length + at_ 32 leaf)
  let body := es.flatten
  head ++ leBytes 4 (crc32c (head ++ body)) ++ body ++ zeros (16320 - body.length)

/-- R429, the first check. -/
def IdxDesc.pageOk (d : IdxDesc) (leaf : Nat) (l : List Byte) : Bool :=
  leNat (l.take 2) == 0x1EAF && decide (pageCount l ≤ d.cap) && leNat ((l.drop 4).take 4) == leaf
    && leNat ((l.drop 60).take 4) == d.pageCrc l && (d.entries l).all (fun e => decide (entryVnum e < d.vnumMax))

/-! ## Placement of pages (R415, R423) -/

def fpaOf (channel page : Nat) : Nat := channel * 2 ^ 27 + page
def fpaChan (fpa : Nat) : Nat := fpa / 2 ^ 27

/-- A page of a channel that nothing uses: the lowest. -/
def State.flashFree (s : State) (c : Nat) : Option Nat :=
  (firstFree (fun n => let f := fpaOf c n
    !(s.srh.pages.has f) && !(s.srh.programs.any (fun p => p.fpa == f)) && !(s.srh.forwards.any (fun w => w.old == f)))
    (s.chan c).usable).map (fpaOf c)

/-- Free pages of a channel: those neither reserved by an index nor retained for another number than `n` (R428, R647). -/
def State.freeFor (s : State) (n c : Nat) : Nat :=
  let res := ((s.srh.indexes.filter (fun e => e.2.phase != .free && e.2.desc.channels.testBit c)).map
    (fun e => e.2.desc.pagesPer)).foldl (· + ·) 0
  let kept := (s.srh.pages.filter (fun e => fpaChan e.1 == c && e.2.index != n && (s.index e.2.index).phase == .free)).length
  (s.chan c).usable - res - kept

/-- The page that an FPA leads to: its own, or a moved page's copy (R445). -/
def State.pageAt (s : State) (fpa : Nat) : Option (Nat × FlashPage) :=
  match s.srh.pages.find fpa with
  | some p => some (fpa, p)
  | none =>
    match s.srh.forwards.find? (fun w => w.old == fpa) with
    | some w => (s.srh.pages.find w.copy).map (fun p => (w.copy, p))
    | none => none

/-- A slice's pages read in the tick (R633). -/
def State.countPages (s : State) (slice k : Nat) : State :=
  { s with slices := { s.slices with pagesRead := s.slices.pagesRead.updD 0 slice (fun x => x + k) } }

/-! ## The walk (R432) -/

/-- How a walk ends. -/
inductive Stepped (α : Type) where
  | ok (a : α)
  | wait
  | stop (c : Cpl)

/-- The lines of a walk are ready: for a descriptor it waits; a merge pass does not. -/
def State.linesReady (s : State) (tok : Option Nat) (ranges : List (Nat × Nat)) : State × Bool :=
  match tok with
  | some t => s.engineReady t (ranges.map (fun r => (r.1, r.2, false)))
  | none => (s, !(ranges.any (fun r => (linesOf r.1 r.2).any s.needsRebuild)))

/-- Read part of the node area. -/
def State.nodeBytes (s : State) (tok : Option Nat) (x : SrhIndex) (off len : Nat) : State × Stepped (List Byte) :=
  let l := cutPieces x.nodeArea off len
  match s.linesReady tok l with
  | (s, false) => (s, .wait)
  | (s, true) =>
    match State.readKeyed x.key x.keyEpoch l s with
    | (s, b, bad) => (s, if bad then .stop (cpl ST_POISONED SRH_NODE_POISON) else .ok b)

/-- The entries of one node, once checked. -/
def State.readNode (s : State) (tok : Option Nat) (x : SrhIndex) (n level : Nat) : State × Stepped (List (List Byte)) :=
  let d := x.desc
  let bad : Stepped (List (List Byte)) := .stop (cpl ST_ABORTED SRH_NODE_FORMAT)
  match s.nodeBytes tok x (n * d.nodePitch) 64 with
  | (s, .wait) => (s, .wait)
  | (s, .stop c) => (s, .stop c)
  | (s, .ok h) =>
    let count := leNat ((h.drop 4).take 2)
    if leNat (h.take 2) ≠ 0x4E0D ∨ leNat ((h.drop 2).take 1) ≠ level ∨ count = 0 ∨ 256 < count then (s, bad)
    else match s.nodeBytes tok x (n * d.nodePitch + 64) (count * d.es) with
      | (s, .wait) => (s, .wait)
      | (s, .stop c) => (s, .stop c)
      | (s, .ok b) =>
        let es := chunksOf d.es count b
        let limit := if level + 1 < d.depth then d.nNodes else d.leaves
        if es.any (fun e => decide (limit ≤ leNat (e.take 4))) then (s, bad) else (s, .ok es)

/-- Every child of the beam, scored. -/
def State.scoreBeam (s : State) (tok : Option Nat) (x : SrhIndex) (q : List FV) (qn : FV) (level : Nat) (beam : List Nat) :
    State × Stepped (List Cand) :=
  beam.foldl (fun (a : State × Stepped (List Cand)) n =>
    match a with
    | (s, .ok l) =>
      (match s.readNode tok x n level with
       | (s, .ok es) => (s, .ok (l ++ es.map (fun e =>
           { score := x.desc.score q qn (x.desc.vector (x.desc.entryVec e)) (entryAux e), key := leNat (e.take 4) })))
       | (s, .wait) => (s, .wait)
       | (s, .stop c) => (s, .stop c))
    | _ => a) (s, .ok [])

/-- Stepped the levels from `level` on: the probes. -/
def State.walkTree (tok : Option Nat) (x : SrhIndex) (q : List FV) (qn : FV) (beamN probes : Nat) :
    Nat → Nat → List Nat → State → State × Stepped (List Nat)
  | 0, _, _, s => (s, .ok [])
  | n + 1, level, beam, s =>
    match s.scoreBeam tok x q qn level beam with
    | (s, .wait) => (s, .wait)
    | (s, .stop c) => (s, .stop c)
    | (s, .ok l) =>
      if n = 0 then (s, .ok (bestDistinct probes l))
      else State.walkTree tok x q qn beamN probes n (level + 1) (bestDistinct beamN l) s

/-- The probes of one query vector. -/
def State.probesOf (s : State) (tok : Option Nat) (x : SrhIndex) (vec : List Byte) (beam probes : Nat) : State × Stepped (List Nat) :=
  let q := x.desc.vector vec
  State.walkTree tok x q (queryNorm q) beam probes x.desc.depth 0 [0] s

/-! ## What a query sees (R435, R442) -/

/-- The page of a leaf for a query of tick `t`. -/
def SrhIndex.leafPage (x : SrhIndex) (leaf t : Nat) : Option Nat :=
  if t < x.lastSwap then (x.prev.find leaf).orElse (fun _ => x.leaves.find leaf) else x.leaves.find leaf

/-- The side entries that a query of tick `t` sees. -/
def SrhIndex.sideAt (x : SrhIndex) (t : Nat) : List SideEntry :=
  x.side.filter (fun e => decide (e.since ≤ t) && (match e.gone with | some b => decide (t < b) | none => true))

/-- The number is deleted for a query of tick `t` (R438). -/
def SrhIndex.deletedAt (x : SrhIndex) (t v : Nat) : Bool :=
  match x.tombs.find v with | some b => decide (b ≤ t) | none => false

/-- Score entries for one query. -/
def SrhIndex.scoreFor (x : SrhIndex) (t k : Nat) (q : SrhQ) (es : List (List Byte)) : SrhQ :=
  let v := x.desc.vector q.vec
  let qn := queryNorm v
  { q with best := (es.filter (fun e => !x.deletedAt t (entryVnum e))).foldl (fun l e =>
      rankIn k l { score := x.desc.score v qn (x.desc.vector (x.desc.entryVec e)) (entryAux e)
                   key := entryVnum e + at_ 40 x.desc.shard }) q.best }

/-- Slots of the side list in use (R437). -/
def SrhIndex.slotsUsed (x : SrhIndex) : Nat :=
  match x.side with
  | [] => 0
  | e :: t => x.nextSlot - t.foldl (fun m y => min m y.slot) e.slot

/-- Result block of a query (Table 13-7). -/
def resultBlock (k : Nat) (q : SrhQ) : List Byte :=
  leBytes 4 q.best.length ++ leBytes 2 q.scored ++ leBytes 2 q.skipped ++ leBytes 8 q.unscored
    ++ q.best.flatMap (fun c => leBytes 8 c.key ++ leBytes 4 c.score ++ zeros 4)
    ++ (List.replicate (k - q.best.length) (leBytes 8 (2 ^ 64 - 1) ++ leBytes 4 0x7F800000 ++ zeros 4)).flatten

end Sys2Proof.Machine
end

