-- ==== Sys2Proof/Machine/SrhRows.lean ====
section
/-! DEFINITION. The search descriptors, flash events and merge passes (chapter 13), and the fetch deadline. -/

namespace Sys2Proof.Machine

/-! ## Operands (Table 13-5) -/

def srIndex (d : DescBits) : Nat := dfield d 16 1
def sqNq (d : DescBits) : Nat := dfield d 17 1
def sqK (d : DescBits) : Nat := dfield d 18 2
def sqBeam (d : DescBits) : Nat := dfield d 20 1
def sqProbes (d : DescBits) : Nat := dfield d 22 2
def srNv (d : DescBits) : Nat := dfield d 20 4
def srSrc (d : DescBits) : Nat := dfield d 24 8
def srOut (d : DescBits) : Nat := dfield d 32 8
def rdNs (d : DescBits) : Nat := dfield d 16 1
def rdKout (d : DescBits) : Nat := dfield d 20 2
def rdIn (d : DescBits) : Nat := 16 + 16 * sqK d
def rdOut (d : DescBits) : Nat := 16 + 16 * rdKout d

def srhOperandsOk (d : DescBits) (x : IdxDesc) : Bool :=
  let op := dOpcode d
  if op = 0x42 then
    decide (1 ≤ dfield d 24 2 ∧ dfield d 24 2 ≤ 4096 ∧ dfield d 20 4 + dfield d 24 2 ≤ x.leaves) && srOut d % 4096 == 0
  else if op = 0x44 then
    decide (1 ≤ sqNq d ∧ sqNq d ≤ 64 ∧ 1 ≤ sqK d ∧ sqK d ≤ 256 ∧ 1 ≤ sqBeam d ∧ sqBeam d ≤ 64 ∧ 1 ≤ sqProbes d
      ∧ sqProbes d ≤ 1024 ∧ sqProbes d ≤ sqBeam d * 256) && srSrc d % 64 == 0 && srOut d % 16 == 0
  else if op = 0x45 then decide (1 ≤ srNv d ∧ srNv d ≤ 65536) && srSrc d % 4 == 0
  else if op = 0x46 then decide (1 ≤ srNv d ∧ srNv d ≤ 65536) && srSrc d % 8 == 0
  else if op = 0x47 then decide (1 ≤ srNv d ∧ srNv d ≤ x.mergePages)
  else if op = 0x48 then
    decide (2 ≤ rdNs d ∧ rdNs d ≤ 64 ∧ 1 ≤ sqNq d ∧ sqNq d ≤ 64 ∧ 1 ≤ sqK d ∧ sqK d ≤ 256 ∧ 1 ≤ rdKout d ∧ rdKout d ≤ sqK d)
      && srOut d % 16 == 0
  else true

/-- The index is the slice's, in a state that the descriptor allows (R427). -/
def State.indexServes (s : State) (d : DescBits) : Bool :=
  let x := s.index (srIndex d)
  let op := dOpcode d
  x.slice == dSlice d && (if op = 0x41 then x.phase == .building || x.phase == .live
    else if op = 0x42 ∨ op = 0x43 then x.phase == .building else x.phase == .live)

def namesIndex (op : Nat) : Bool := decide (0x41 ≤ op) && decide (op ≤ 0x47)

def srhCheck (d : Desc) (s : State) : Option Cpl :=
  let x := (s.index (srIndex d.bits)).desc
  if !srhOperandsOk d.bits x then some (cpl ST_REFUSED_FIT SRH_OPERAND)
  else if namesIndex (dOpcode d.bits) && !s.indexServes d.bits then some (cpl ST_PERMISSION SRH_INDEX)
  else none

/-- Charges (Table 13-8). -/
def srhCost (d : Desc) (s : State) : Cost :=
  let b := d.bits
  let op := dOpcode b
  let x := (s.index (srIndex b)).desc
  if op = 0x42 then { fls := 4 * dfield b 24 2, stk := dfield b 24 2 * (16384 + 128) }
  else if op = 0x44 then
    let sp := x.sidePages
    let q := sqNq b
    let len := 16 + 16 * sqK b
    Cost.add
      { fls := q * sqProbes b + sp
        stk := q * round64 x.vb + q * (1 + (x.depth - 1) * sqBeam b) * x.nodePitch + 64 * (q * sqProbes b)
          + 64 * (q * sqProbes b + sp) + sp * 16384 + q * round64 len }
      (s.fabCost (dSlice b) (srOut b) (fabUnits (srOut b) (q * len)))
  else if op = 0x45 then { stk := srNv b * round64 (x.es + 8 + 64) }
  else if op = 0x46 then { stk := srNv b * 128 }
  else if op = 0x48 then
    Cost.add { stk := round64 (rdNs b * sqNq b * rdIn b) + round64 (sqNq b * rdOut b) }
      (s.fabCost (dSlice b) (srOut b) (fabUnits (srOut b) (sqNq b * rdOut b)))
  else {}

/-! ## Loading (R428, R647) -/

/-- The slice holds channel `c`, which is in service. -/
def State.holdsChannel (s : State) (slice c : Nat) : Bool :=
  (s.sliceViews slice).all (fun v => sliceExistsBits v && (sliceChannels v).testBit c) && (s.chan c).inService

def State.srhReserved (s : State) (slice : Nat) (f : IdxDesc → Nat) : Nat :=
  ((s.srh.indexes.filter (fun e => e.2.phase != .free && e.2.slice == slice)).map (fun e => f e.2.desc)).foldl (· + ·) 0

/-- Checks 1 to 4 of Table 13-6. -/
def State.idxLoadFails (s : State) (d : DescBits) (x : IdxDesc) (ok : Bool) : Option Cpl :=
  let slice := dSlice d
  if !ok then some (cpl ST_REFUSED_FIT SRH_FORMAT)
  else if (s.index (dfield d 24 1)).phase ≠ .free then some (cpl ST_REFUSED_FIT SRH_SLOT)
  else if x.chanList.any (fun c => !s.holdsChannel slice c) then some (cpl ST_PERMISSION SRH_CHANNELS)
  else if !s.plansCover slice (x.resFls + s.srhReserved slice (fun y => y.resFls)) (fun c => c.fls)
      || !s.plansCover slice (x.resStk + s.srhReserved slice (fun y => y.resStk)) (fun c => c.stk) then
    some (cpl ST_REFUSED_FIT SRH_FIT_PLAN)
  else none

/-- No two of the areas meet. -/
def areasApart : List (List (Nat × Nat)) → Bool
  | [] => true
  | a :: t => t.all (fun b => !piecesMeet a b) && areasApart t

/-- The catalogue's entry of an index number is dropped and its pages freed. -/
def State.dropRetained (s : State) (n : Nat) : State :=
  s.setSrh (fun e => { e with catalogue := e.catalogue.del n, pages := e.pages.keep (fun _ p => p.index != n) })

/-- The home die of an index: the lowest in service that holds a channel of it (R418). -/
def State.homeDieOf (s : State) (x : IdxDesc) : Nat :=
  ((List.range 4).find? (fun f => !(s.units.lostDies.contains (0x30 + f)) && x.chanList.any (fun c => c / 16 == f))).getD 0

/-- The index that a load makes: attached to its retained pages, or clear. -/
def State.newIndex (s : State) (n : Nat) (x : SrhIndex) : State :=
  let x := { x with home := s.homeDieOf x.desc }
  match s.srh.catalogue.find n with
  | none => s.setIndex n x
  | some c =>
    let slot := s.slot x.key
    if c.digest = x.digest ∧ c.owner = slot.owner ∧ c.check = slot.flashKey then
      let pages := c.leaves.filterMap (fun e => s.srh.pages.find e.2)
      let vnums := pages.flatMap (fun p => (x.desc.entries p.bytes).map entryVnum)
      let s := c.leaves.foldl (fun (s : State) e =>
        let k := fpaChan e.2
        s.setChan k { s.chan k with pagesRead := (s.chan k).pagesRead + 1 }) s
      s.setIndex n { x with leaves := c.leaves, present := vnums.eraseDups }
    else ((s.dropRetained n).event INDEX_DISCARDED LOC_MD n).setIndex n x

/-- IDX_LOAD. -/
def execIdxLoad (tok : Nat) (ext : List Byte) (s : State) : Host.Outcome State Fault Refusal :=
  .next (match s.desc tok with
    | none => s
    | some d =>
      let n := dfield d.bits 24 1
      let slice := dSlice d.bits
      let refuse := fun (s : State) (c : Cpl) =>
        ((s.setEvt F.SRH_EVT_LOAD_REFUSED).setSrh (fun e => { e with lastError := (0, n, c.reason, LOC_MD, s.tick.now % 2 ^ 32) })).runDesc
          tok 0x40 (fun _ s => (s, some c))
      if dOpcode d.bits ≠ 0x40 ∨ s.mayBegin tok d = false then s
      else match s.acquire tok d [⟨dfield d.bits 16 8, 128, 1, false⟩] with
        | .wait s => s
        | .stop s c => refuse s c
        | .ready s0 segs =>
          let (s1, l, poison, _) := State.readSegs d (segs.headD []) ext s0
          let (x, ok) := parseIndex l
          match s1.idxLoadFails d.bits x (ok && !poison && dfield d.bits 16 8 % 64 == 0) with
          | some c => refuse s1 c
          | none =>
            let areas := [(x.nodes, x.nodeLen), (x.leafmap, x.mapLen), (x.side, x.sideLen), (x.bitmaps, x.bitLen)]
            match s1.xlateNeeds tok d (areas.map (fun a => ⟨a.1, a.2, 3, false⟩)) [] with
            | .wait _ => s
            | .stop s2 _ => refuse s2 (cpl ST_REFUSED_FIT SRH_AREA)
            | .ready s2 got =>
              let dpas := got.map (fun l => l.map (fun p => (p.addr, p.len)))
              if got.any (fun l => !s2.areaOk slice l) || !areasApart dpas then refuse s2 (cpl ST_REFUSED_FIT SRH_AREA)
              else if x.chanList.any (fun c => decide (s2.freeFor n c < x.pagesPer)) then refuse s2 (cpl ST_REFUSED_FIT SRH_FIT_FLASH)
              else
                let idx : SrhIndex := { phase := .building, slice := slice, key := dKeySlot d.bits, keyEpoch := dKeyEpoch d.bits
                                        desc := x, digest := Config.sha384 l, nodeArea := dpas.headD []
                                        areas := (dpas.drop 1).flatten }
                ((s2.newIndex n idx).setEvt F.SRH_EVT_LOADED).runDesc tok 0x40 (fun _ s => (s, some {})))

/-! ## Writing leaves (R429, R417) -/

/-- Start a page program. -/
def State.program (s : State) (p : FlashProgram) : State := s.setSrh (fun e => { e with programs := e.programs ++ [p] })

/-- One page of a LEAF_WRITE: why it is dropped, if it is. -/
def State.leafOne (s : State) (tok n leaf : Nat) (l : List Byte) : State × Option Nat :=
  let x := s.index n
  let vnums := (x.desc.entries l).map entryVnum
  if !x.desc.pageOk leaf l then (s, some SRH_LEAF_FORMAT)
  else if x.leaves.has leaf || s.srh.programs.any (fun p => p.index == n && p.leaf == leaf) then (s, some SRH_LEAF_WRITTEN)
  else if vnums.any (fun v => x.present.contains v) then (s, some SRH_VNUM_PRESENT)
  else match s.flashFree (x.desc.chanOf leaf) with
    | none => let (r, s) := s.draw; (s, some (r % 65536))
    | some f =>
      ((s.setIndex n { x with present := x.present ++ vnums }).program { fpa := f, index := n, leaf := leaf, bytes := l
                                                                         tok := some tok }, none)

/-- A LEAF_WRITE with no program outstanding ends. -/
def State.endLeafWrite (s : State) (tok : Nat) : State :=
  match s.srh.writes.find? (fun w => w.tok == tok) with
  | none => s
  | some w =>
    if s.srh.programs.any (fun p => p.tok == some tok) then s
    else
      (s.setSrh (fun e => { e with writes := e.writes.filter (fun x => x.tok != tok) })).opEnd tok
        { status := if w.dropped = 0 then ST_OK else ST_PARTIAL, reason := w.reason, done := w.done, dropped := w.dropped }

/-- The pages of a LEAF_WRITE in turn, from leaf `leaf`. -/
def State.leafOver (s : State) (tok n leaf count : Nat) (bytes : List Byte) : State × LeafJob :=
  (List.range count).foldl (fun (a : State × LeafJob) i =>
    match a.1.leafOne tok n (leaf + i) ((bytes.drop (16384 * i)).take 16384) with
    | (s, none) => (s, a.2)
    | (s, some r) => (s, { a.2 with dropped := a.2.dropped + 1, reason := Nat.max a.2.reason r }))
    (s, { tok := tok })

/-- LEAF_WRITE. -/
def execLeafWrite (tok : Nat) (ext : List Byte) (s : State) : Host.Outcome State Fault Refusal :=
  .next (match s.desc tok with
    | none => s
    | some d =>
      let n := srIndex d.bits
      let count := dfield d.bits 24 2
      let finish := fun (s : State) (c : Cpl) => s.runDesc tok 0x42 (fun _ s => (s, some c))
      if dOpcode d.bits ≠ 0x42 ∨ s.mayBegin tok d = false then s
      else if !s.indexServes d.bits then finish s (cpl ST_PERMISSION SRH_INDEX)
      else match s.acquire tok d [⟨srOut d.bits, count * 16384, 1, false⟩] with
        | .wait s => s
        | .stop s c => finish s c
        | .ready s segs =>
          match State.readSegs d (segs.headD []) ext s with
          | (s, bytes, poison, _) =>
            if poison then finish s (cpl ST_POISONED 0)
            else
              let s := s.runDesc tok 0x42 (fun _ s => (s, none))
              let (s, w) := s.leafOver tok n (dfield d.bits 20 4) count bytes
              (s.setSrh (fun e => { e with writes := e.writes ++ [w] })).endLeafWrite tok)

/-- FLASH_PAGE_PROGRAM_DONE: a program has ended; one that failed is retried on another free page of its channel (R417). -/
def execFlashPageProgramDone (fpa : Nat) (ok : Bool) (s : State) : Host.Outcome State Fault Refusal :=
  .next (match s.srh.programs.find? (fun p => p.fpa == fpa) with
    | none => s
    | some p =>
      if !ok then
        match s.flashFree (fpaChan fpa) with
        | none => s
        | some f => s.setSrh (fun e => { e with programs := e.programs.map (fun q => if q.fpa = fpa then { q with fpa := f } else q) })
      else
        let key := (s.slot (s.index p.index).key).flashKey
        let s := s.setSrh (fun e => { e with
          programs := e.programs.filter (fun q => q.fpa != fpa)
          pages := e.pages.put fpa { index := p.index, leaf := p.leaf, key := key, bytes := p.bytes } })
        match p.tok with
        | some tok =>
          let s := s.setIndex p.index { s.index p.index with leaves := (s.index p.index).leaves.put p.leaf fpa }
          let s := s.setSrh (fun e => { e with writes := e.writes.map (fun w => if w.tok = tok then { w with done := w.done + 1 } else w) })
          s.endLeafWrite tok
        | none =>
          let mark := fun (l : PassLeaf) => if l.leaf = p.leaf then { l with new := some fpa, done := true } else l
          let put := fun (m : MergePass) => if m.index = p.index then { m with leaves := m.leaves.map mark } else m
          s.setSrh (fun e => { e with mWritten := e.mWritten + 1, passes := e.passes.map put }))

/-! ## Activation and unloading (R430, R431) -/

/-- Every leaf has been written. -/
def SrhIndex.complete (x : SrhIndex) : Bool := x.leaves.length == x.desc.leaves

/-- IDX_ACTIVATE: the index becomes LIVE at step 6 of the next boundary. -/
def execIdxActivate (tok : Nat) (s : State) : Host.Outcome State Fault Refusal :=
  .next (s.runDesc tok 0x43 (fun d s =>
    let n := srIndex d.bits
    let x := s.index n
    if !s.indexServes d.bits || x.activator.isSome then (s, some (cpl ST_PERMISSION SRH_INDEX))
    else if !x.complete then (s, some (cpl ST_REFUSED_FIT SRH_LEAVES_MISSING))
    else (s.setIndex n { x with activator := some tok }, none)))

/-- R646: the index's catalogue entry, as its leaf pointers now stand. -/
def State.catalogue (s : State) (n : Nat) : State :=
  let x := s.index n
  let entry : CatEntry := { digest := x.digest, owner := (s.slot x.key).owner, check := (s.slot x.key).flashKey
                            leaves := x.leaves, channels := x.desc.channels }
  s.setSrh (fun e => { e with catalogue := e.catalogue.put n entry })

/-- R431, from the round that admits an IDX_UNLOAD. -/
def State.admitIdxUnload (s : State) (tok : Nat) (d : Desc) : State :=
  let n := srIndex d.bits
  if s.indexServes d.bits then s.setIndex n { s.index n with phase := .unloading, unloader := some tok } else s

/-- A pass on an index ends without effect: its new pages are freed. -/
def State.abandonPass (s : State) (n : Nat) : State :=
  s.setSrh (fun e =>
    let new := (e.passes.filter (fun m => m.index == n)).flatMap (fun m => m.leaves.filterMap (fun l => l.new))
    { e with passes := e.passes.filter (fun m => m.index != n)
             pages := e.pages.keep (fun f _ => !(new.contains f))
             programs := e.programs.filter (fun p => !(p.index == n && p.tok.isNone)) })

/-- SRH_MERGEs end because their pass did not finish. -/
def State.endMerges (s : State) (toks : List Nat) (c : Cpl) : State := toks.foldl (fun (s : State) t => s.opEnd t c) s

/-- The index is FREE: its pages, areas and catalogue entry are gone. -/
def State.freeIndex (s : State) (n : Nat) : State :=
  let toks := (s.index n).mergeReqs.map Prod.fst ++ (s.srh.passes.filter (fun m => m.index == n)).flatMap (fun m => m.toks)
  let s := (s.abandonPass n).endMerges toks (cpl ST_ABORTED SRH_MERGE_ABANDONED)
  (s.dropRetained n).setIndex n {}

def State.indexBusy (s : State) (n : Nat) : Bool :=
  s.rings.descs.any (fun _ e => [0x42, 0x44, 0x45, 0x46].contains (dOpcode e.bits) && srIndex e.bits == n
    && (e.phase == .admitted || e.phase == .running))

/-- IDX_UNLOAD, and its end once the index is at rest. -/
def State.idxUnload (s : State) (tok : Nat) : State :=
  match s.desc tok with
  | none => s
  | some d =>
    let n := srIndex d.bits
    if (s.index n).unloader = some tok then
      if s.indexBusy n then s
      else s.runDesc tok 0x41 (fun _ s => ((s.freeIndex n).setEvt F.SRH_EVT_UNLOADED, some {}))
    else s.runDesc tok 0x41 (fun _ s => (s, some (cpl ST_PERMISSION SRH_INDEX)))

def execIdxUnload (tok : Nat) (s : State) : Host.Outcome State Fault Refusal := .next (s.idxUnload tok)

/-! ## Queries (R432 to R436, R447 to R449) -/

def SrhQ.skip (q : SrhQ) (leaf channel : Nat) : SrhQ :=
  if q.probes.contains leaf then { q with skipped := q.skipped + 1, unscored := q.unscored ||| 2 ^ channel } else q

/-- The probes of a page are not scored. -/
def SrhJob.skip (j : SrhJob) (leaf channel reason : Nat) : SrhJob :=
  { j with queries := j.queries.map (fun q => q.skip leaf channel), degraded := Nat.max j.degraded reason
           wait := j.wait.filter (fun w => w.2 != leaf) }

/-- A page has come: every query that probes it is scored against it; a page that holds tombstoned vectors marks its leaf. -/
def State.scorePage (s : State) (j : SrhJob) (leaf : Nat) (bytes : List Byte) : State × SrhJob :=
  let x := s.index j.index
  let es := x.desc.entries bytes
  let score := fun (q : SrhQ) =>
    if q.probes.contains leaf then { x.scoreFor j.tick j.k q es with scored := q.scored + 1 } else q
  let j := { j with queries := j.queries.map score, wait := j.wait.filter (fun w => w.2 != leaf) }
  if es.any (fun e => x.tombs.has (entryVnum e)) && !(x.marked.contains leaf) then
    (s.setIndex j.index { x with marked := leaf :: x.marked }, j)
  else (s, j)

/-- A batch stops. -/
def State.srhStop (s : State) (tok : Nat) (c : Cpl) : State :=
  (s.setSrh (fun e => { e with jobs := e.jobs.filter (fun j => j.tok != tok) })).opEnd tok c

/-- Keep a batch; once it waits for no page, its result blocks are written and it ends. -/
def State.settleJob (s : State) (j : SrhJob) : State :=
  let others := s.srh.jobs.filter (fun x => x.tok != j.tok)
  if !j.wait.isEmpty then s.setSrh (fun e => { e with jobs := others ++ [j] })
  else
    let s := s.setSrh (fun e => { e with jobs := others })
    match s.desc j.tok with
    | none => s
    | some d =>
      let s := (List.zip (List.range j.queries.length) j.queries).foldl (fun (s : State) e =>
        s.fabPut j.tok d (srOut d.bits + e.1 * (16 + 16 * j.k)) (resultBlock j.k e.2)) s
      let sum := fun (f : SrhQ → Nat) => (j.queries.map f).foldl (· + ·) 0
      s.opEnd j.tok { status := if j.degraded = 0 then ST_OK else ST_DEGRADED, reason := j.degraded
                      done := sum (fun q => q.scored), dropped := sum (fun q => q.skipped)
                      result := (j.queries.map (fun q => q.unscored)).foldl (· ||| ·) 0 }

/-- Issue the page reads of a batch: those that cannot be made are skipped, or stop it. -/
def State.issueReads (s : State) (d : Desc) (j : SrhJob) : State :=
  let x := s.index j.index
  let leaves := (j.queries.flatMap (fun q => q.probes)).eraseDups
  let late := x.desc.deadlinePath && (d.late || d.overrun)
  let step := fun (a : State × SrhJob × Option Cpl) (leaf : Nat) =>
    let (s, j, stop) := a
    let c := x.desc.chanOf leaf
    if stop.isSome then a
    else if !(s.chan c).inService then (s, j.skip leaf c DL_SRH_CHANNEL, none)
    else match x.leafPage leaf j.tick with
      | none => (s, j.skip leaf c DL_SRH_LEAVES, none)
      | some f =>
        let lost := match s.pageAt f with | some (_, p) => p.lost | none => true
        if lost then
          if x.desc.deadlinePath then (s, j.skip leaf c DL_SRH_LEAVES, none) else (s, j, some (cpl ST_POISONED SRH_PAGE_LOST))
        else if late then (s.lateFetch true, j.skip leaf c DL_SRH_LEAVES, none)
        else (s, { j with wait := j.wait ++ [(f, leaf)] }, none)
  match leaves.foldl step (s, j, none) with
  | (s, j, some c) => s.srhStop j.tok c
  | (s, j, none) => s.settleJob j

/-- The walks of every query vector of a batch. -/
def State.walkBatch (tok : Nat) (x : SrhIndex) (beam probes : Nat) : List (List Byte) → List SrhQ → State → State × Stepped (List SrhQ)
  | [], acc, s => (s, .ok acc.reverse)
  | v :: t, acc, s =>
    match s.probesOf (some tok) x v beam probes with
    | (s, .ok p) => State.walkBatch tok x beam probes t ({ vec := v, probes := p, best := [] } :: acc) s
    | (s, .wait) => (s, .wait)
    | (s, .stop c) => (s, .stop c)

/-- SRH_QUERY: the walks, the side list, and the reads of the probed pages. -/
def execSrhQuery (tok : Nat) (ext : List Byte) (s : State) : Host.Outcome State Fault Refusal :=
  .next (match s.desc tok with
    | none => s
    | some d =>
      let n := srIndex d.bits
      let x := s.index n
      let pitch := round64 x.desc.vb
      let finish := fun (s : State) (c : Cpl) => s.runDesc tok 0x44 (fun _ s => (s, some c))
      if dOpcode d.bits ≠ 0x44 ∨ s.mayBegin tok d = false then s
      else if x.phase = .free ∨ x.slice ≠ dSlice d.bits then finish s (cpl ST_PERMISSION SRH_INDEX)
      else match s.acquire tok d [⟨srSrc d.bits, sqNq d.bits * pitch, 1, false⟩] with
        | .wait s => s
        | .stop s c => finish s c
        | .ready s segs =>
          match State.readSegs d (segs.headD []) ext s with
          | (s, bytes, poison, _) =>
            if poison then finish s (cpl ST_POISONED 0)
            else
              let vecs := (chunksOf pitch (sqNq d.bits) bytes).map (fun v => v.take x.desc.vb)
              match State.walkBatch tok x (sqBeam d.bits) (sqProbes d.bits) vecs [] s with
              | (s, .wait) => s
              | (s, .stop c) => finish s c
              | (s, .ok qs) =>
                let s := s.runDesc tok 0x44 (fun _ s => (s, none))
                let s := s.setIndex n { s.index n with queries := (s.index n).queries + sqNq d.bits }
                let s := s.countPages x.slice (ceilDiv x.slotsUsed x.desc.scap)
                let side := (x.sideAt d.admitTick).map (fun e => e.bytes)
                let qs := qs.map (fun q => x.scoreFor d.admitTick (sqK d.bits) q side)
                s.issueReads d { tok := tok, index := n, tick := d.admitTick, k := sqK d.bits, queries := qs, wait := [] })

/-! ## Page reads (R417, R433) -/

/-- A pass has read a leaf's old page: what stays, what is dropped, what is placed and carried (R440). -/
def State.passRead (s : State) (m : MergePass) (l : PassLeaf) (bytes : List Byte) : State :=
  let x := s.index m.index
  let es := x.desc.entries bytes
  let live := es.filter (fun e => !(x.tombs.has (entryVnum e)))
  let dead := (es.filter (fun e => x.tombs.has (entryVnum e))).map entryVnum
  let new := l.incoming.filterMap (fun k => x.side.find? (fun e => e.slot == k))
  let room := x.desc.cap - live.length
  let page := buildLeafPage l.leaf (live ++ (new.take room).map (fun e => e.bytes))
  let l := { l with read := true, dropped := dead, carried := (new.drop room).map (fun e => e.slot) }
  let put := fun (q : MergePass) =>
    if q.index = m.index then { q with leaves := q.leaves.map (fun y => if y.leaf = l.leaf then l else y) } else q
  let s := s.setSrh (fun e => { e with passes := e.passes.map put })
  match s.flashFree (x.desc.chanOf l.leaf) with
  | none => s
  | some f => s.program { fpa := f, index := m.index, leaf := l.leaf, bytes := page, tok := none }

/-- A page is lost: counted, shown, reported (R417). -/
def State.losePage (s : State) (fpa : Nat) (p : FlashPage) : State :=
  let c := fpaChan fpa
  let s := s.setChan c { s.chan c with uncorrectable := (s.chan c).uncorrectable + 1 }
  let s := s.setSrh (fun e => { e with pages := e.pages.put fpa { p with lost := true }
                                       lastError := (fpa, p.index, SRH_PAGE_LOST, locChannel c, s.tick.now % 2 ^ 32) })
  (s.setEvt F.SRH_EVT_PAGE_LOST).queueFault { cls := 0x10, reason := SRH_PAGE_LOST, location := locChannel c, detail := p.leaf }

/-- FLASH_PAGE_READ_DONE: the read of a page has completed; `lost`: it is not correctable. Queries and passes that wait for
it go on; data of a late read is discarded. -/
def execFlashPageReadDone (fpa : Nat) (lost : Bool) (s : State) : Host.Outcome State Fault Refusal :=
  .next (
    let jobs := s.srh.jobs.filter (fun j => j.wait.any (fun w => w.1 == fpa))
    let passes := s.srh.passes.filter (fun m => m.leaves.any (fun l => l.old == fpa && !l.read))
    let isLate := s.srh.lateReads.contains fpa
    if jobs.isEmpty && passes.isEmpty && !isLate then s
    else match s.pageAt fpa with
      | none => s
      | some (at_, p) =>
        let c := fpaChan fpa
        let s := s.setChan c { s.chan c with pagesRead := (s.chan c).pagesRead + 1 }
        let s := s.countPages (s.index p.index).slice 1
        let s := if isLate then
            (s.setSrh (fun e => { e with lateReads := e.lateReads.erase fpa })).setTier (fun t => { t with lateDiscards := t.lateDiscards + 1 })
          else s
        let lost := lost || p.lost
        let s := if lost && !p.lost then s.losePage at_ p else s
        let s := if lost then s else passes.foldl (fun (s : State) m =>
          (m.leaves.filter (fun l => l.old == fpa && !l.read)).foldl (fun (s : State) l => s.passRead m l p.bytes) s) s
        jobs.foldl (fun (s : State) j =>
          let leaf := (((j.wait.filter (fun w => w.1 == fpa)).map Prod.snd).headD 0)
          if lost then
            if (s.index j.index).desc.deadlinePath then s.settleJob (j.skip leaf c DL_SRH_LEAVES)
            else s.srhStop j.tok (cpl ST_POISONED SRH_PAGE_LOST)
          else match s.scorePage j leaf p.bytes with | (s, j) => s.settleJob j) s)

/-- FLASH_PAGE_MOVE (R445). -/
def execFlashPageMove (fpa : Nat) (s : State) : Host.Outcome State Fault Refusal :=
  .next (match s.srh.pages.find fpa, s.flashFree (fpaChan fpa) with
    | some p, some f =>
      let c := fpaChan fpa
      let x := s.index p.index
      let named := fun (t : Tab Nat) => t.any (fun _ v => v == fpa)
      let full := decide (4096 ≤ (s.srh.forwards.filter (fun w => fpaChan w.old / 16 == c / 16)).length)
      if full || !(s.chan c).inService || !(named x.leaves || named x.prev) then s
      else
        let re := fun (t : Tab Nat) => t.mapV (fun _ v => if v = fpa then f else v)
        let s := s.setIndex p.index { x with leaves := re x.leaves, prev := re x.prev }
        let s := s.setChan c { s.chan c with moves := (s.chan c).moves + 1 }
        s.setSrh (fun e => { e with pages := (e.pages.del fpa).put f p
                                    forwards := e.forwards ++ [{ old := fpa, copy := f, tick := s.tick.now }]
                                    catalogue := e.catalogue.mapV (fun _ c => { c with leaves := re c.leaves }) })
    | _, _ => s)

/-- A flash channel, or its scorer, has failed (R417, R447). -/
def State.failChannel (s : State) (channel : Nat) (scorer : Bool) : State :=
  let x := s.chan channel
  if !x.inService then s
  else
    let s := s.setChan channel { x with inService := false, scorerFailed := x.scorerFailed || scorer }
    let s := s.setEvt F.SRH_EVT_CHANNEL_DOWN
    let left := ((List.range 16).filter (fun i => (s.chan (channel / 16 * 16 + i)).inService)).length
    let s := s.queueFault { cls := 0x21, location := locChannel channel, detail := left }
    let gone := s.srh.programs.filter (fun p => fpaChan p.fpa == channel)
    let s := s.setSrh (fun e => { e with programs := e.programs.filter (fun p => fpaChan p.fpa != channel) })
    let s := gone.foldl (fun (s : State) p => match p.tok with
      | none => s
      | some tok =>
        let (r, s) := s.draw
        let put := fun (w : LeafJob) =>
          if w.tok = tok then { w with dropped := w.dropped + 1, reason := Nat.max w.reason (r % 65536) } else w
        (s.setSrh (fun e => { e with writes := e.writes.map put })).endLeafWrite tok) s
    (s.srh.jobs.filter (fun j => j.wait.any (fun w => fpaChan w.1 == channel))).foldl (fun (s : State) j =>
      s.settleJob ((j.wait.filter (fun w => fpaChan w.1 == channel)).foldl (fun (j : SrhJob) w =>
        j.skip w.2 channel DL_SRH_CHANNEL) j)) s

/-- FLASH_CHANNEL_FAILURE. -/
def execFlashChannelFailure (channel : Nat) (scorer : Bool) (s : State) : Host.Outcome State Fault Refusal :=
  .next (s.failChannel channel scorer)

/-- FETCH_DEADLINE (R267, R268): what admitted work still waits for is late. -/
def execFetchDeadline (s : State) : Host.Outcome State Fault Refusal :=
  .next (
    let s := s.markLate
    (s.srh.jobs.filter (fun j => decide (j.tick ≤ s.tick.now) && (s.index j.index).desc.deadlinePath && !j.wait.isEmpty)).foldl
      (fun (s : State) j =>
        let s := j.wait.foldl (fun (s : State) _ => s.lateFetch false) s
        let s := s.setSrh (fun e => { e with lateReads := (e.lateReads ++ j.wait.map Prod.fst).eraseDups })
        s.settleJob (j.wait.foldl (fun (j : SrhJob) w => j.skip w.2 (fpaChan w.1) DL_SRH_LEAVES) j)) s)

/-! ## Inserts and deletes (R437 to R439) -/

/-- No insert or delete of the index that a round admitted earlier is still to act. -/
def State.srhOrdered (s : State) (d : Desc) : Bool :=
  !(s.rings.descs.any (fun _ e => (dOpcode e.bits == 0x45 || dOpcode e.bits == 0x46) && srIndex e.bits == srIndex d.bits
    && (e.phase == .admitted || e.phase == .running) && !e.begun && decide (e.admitSeq < d.admitSeq)))

def dropCpl (done dropped reason : Nat) : Cpl :=
  { status := if dropped = 0 then ST_OK else ST_PARTIAL, reason := reason, done := done, dropped := dropped }

/-- Read the array of an insert or delete and run it. -/
def State.srhArray (s : State) (tok op size : Nat) (ext : List Byte) (k : Nat → List (List Byte) → State → State × Cpl) : State :=
  match s.desc tok with
  | none => s
  | some d =>
    let n := srIndex d.bits
    let x := s.index n
    let finish := fun (s : State) (c : Cpl) => s.runDesc tok op (fun _ s => (s, some c))
    if dOpcode d.bits ≠ op ∨ s.mayBegin tok d = false ∨ s.srhOrdered d = false then s
    else if x.phase = .free ∨ x.slice ≠ dSlice d.bits then finish s (cpl ST_PERMISSION SRH_INDEX)
    else match s.acquire tok d [⟨srSrc d.bits, srNv d.bits * size, 1, false⟩] with
      | .wait s => s
      | .stop s c => finish s c
      | .ready s segs =>
        match State.readSegs d (segs.headD []) ext s with
        | (s, bytes, poison, _) =>
          if poison then finish s (cpl ST_POISONED 0)
          else s.runDesc tok op (fun _ s => match k n (chunksOf size (srNv d.bits) bytes) s with | (s, c) => (s, some c))

/-- Vectors inserted in turn, seen from tick `since` on: the index, and how many were added and dropped. -/
def SrhIndex.insertOver (x : SrhIndex) (since : Nat) (l : List (List Byte)) : SrhIndex × Nat × Nat :=
  l.foldl (fun (a : SrhIndex × Nat × Nat) e =>
    let (x, done, dropped) := a
    let v := entryVnum e
    if x.desc.vnumMax ≤ v ∨ x.present.contains v = true then (x, done, dropped + 1)
    else ({ x with present := x.present ++ [v], nextSlot := x.nextSlot + 1
                   side := x.side ++ [{ slot := x.nextSlot, bytes := e, vnum := v, since := since }] },
          done + 1, dropped)) (x, 0, 0)

/-- Numbers deleted in turn: the index, how many were deleted and dropped, and the largest reason. -/
def SrhIndex.deleteOver (x : SrhIndex) (l : List (List Byte)) : SrhIndex × Nat × Nat × Nat :=
  l.foldl (fun (a : SrhIndex × Nat × Nat × Nat) e =>
    let (x, done, dropped, reason) := a
    let v := entryVnum e
    if x.present.contains v = false ∨ x.tombs.has v = true ∨ x.tombsDue.contains v = true then
      (x, done, dropped + 1, Nat.max reason SRH_VNUM_ABSENT)
    else if 262144 < x.deleted then (x, done, dropped + 1, Nat.max reason SRH_DELETE_RATE)
    else ({ x with tombsDue := x.tombsDue ++ [v], deleted := x.deleted + 1 }, done + 1, dropped, reason)) (x, 0, 0, 0)

/-- SRH_INSERT. -/
def execSrhInsert (tok : Nat) (ext : List Byte) (s : State) : Host.Outcome State Fault Refusal :=
  let es := match s.desc tok with | some d => (s.index (srIndex d.bits)).desc.es | none => 0
  .next (s.srhArray tok 0x45 es ext (fun n l s =>
    let x := s.index n
    if x.desc.sideMax < x.slotsUsed + l.length then (s, cpl ST_REFUSED_FIT SRH_SIDE_FULL)
    else
      let (x, done, dropped) := x.insertOver (s.tick.now + 1) l
      (s.setIndex n { x with inserts := x.inserts + done },
        dropCpl done dropped (if dropped = 0 then 0 else SRH_VNUM_PRESENT))))

/-- SRH_DELETE. -/
def execSrhDelete (tok : Nat) (ext : List Byte) (s : State) : Host.Outcome State Fault Refusal :=
  .next (s.srhArray tok 0x46 8 ext (fun n l s =>
    let (x, done, dropped, reason) := (s.index n).deleteOver l
    (s.setIndex n { x with deletes := x.deletes + done }, dropCpl done dropped reason)))

/-! ## Merge passes (R440 to R443) -/

/-- SRH_MERGE: the next lull tick runs a pass on the index. -/
def execSrhMerge (tok : Nat) (s : State) : Host.Outcome State Fault Refusal :=
  .next (s.runDesc tok 0x47 (fun d s =>
    let n := srIndex d.bits
    let x := s.index n
    if x.phase = .free ∨ x.slice ≠ dSlice d.bits then (s, some (cpl ST_PERMISSION SRH_INDEX))
    else (s.setIndex n { x with mergeReqs := x.mergeReqs ++ [(tok, srNv d.bits)] }, none)))

/-- Take side entries and marked leaves until `p` leaves are affected. -/
def State.gatherPass (s : State) (x : SrhIndex) (p : Nat) : State × Option (List PassLeaf × List Nat × List Nat) :=
  let add := fun (l : List PassLeaf) (leaf slot : Nat) =>
    if l.any (fun y => y.leaf == leaf) then
      some (l.map (fun y => if y.leaf = leaf then { y with incoming := y.incoming ++ [slot] } else y))
    else if l.length < p then some (l ++ [{ leaf := leaf, old := x.leaves.get 0 leaf, incoming := [slot] }])
    else none
  let step := fun (a : State × Option (List PassLeaf × List Nat × List Nat) × Bool) (e : SideEntry) =>
    match a with
    | (s, some (l, taken, dead), true) =>
      if x.tombs.has e.vnum then (s, some (l, taken ++ [e.slot], dead ++ [e.slot]), true)
      else
        (match s.probesOf none x (x.desc.entryVec e.bytes) 1 1 with
         | (s, .ok (leaf :: _)) =>
           (match add l leaf e.slot with
            | some l => (s, some (l, taken ++ [e.slot], dead), true)
            | none => (s, some (l, taken, dead), false))
         | (s, _) => (s, none, false))
    | _ => a
  match (x.sideAt s.tick.now).foldl step (s, some ([], [], []), true) with
  | (s, some (l, taken, dead), _) =>
    let more := ((x.marked.filter (fun k => !(l.any (fun y => y.leaf == k)))).mergeSort (fun a b => decide (a ≤ b))).take (p - l.length)
    (s, some (l ++ more.map (fun k => { leaf := k, old := x.leaves.get 0 k, incoming := [] }), taken, dead))
  | (s, none, _) => (s, none)

/-- The fifth of the FLS maintenance share of an index's channels (R440 step 4, R62). -/
def State.passPages (s : State) (x : SrhIndex) : Nat :=
  9 * x.desc.nch * 230400 * s.period * s.fld F.TIK_LULL_MAINT_PCT / (10 * 64 * 16384 * 100) / 5

/-- Start a pass on an index in the lull tick now running. -/
def State.startPass (s : State) (n : Nat) : State :=
  let x := s.index n
  if x.phase ≠ .live ∨ !x.prev.isEmpty ∨ s.srh.passes.any (fun m => m.index == n) = true then s
  else
    let max_ := match x.mergeReqs with | [] => x.desc.mergePages | r :: t => t.foldl (fun a b => Nat.max a b.2) r.2
    match s.gatherPass x (min max_ (s.passPages x)) with
    | (s, none) => s
    | (s, some (l, taken, dead)) =>
      let toks := x.mergeReqs.map Prod.fst
      let pass : MergePass := { index := n, tick := s.tick.now, toks := toks, leaves := l, taken := taken, deadSide := dead }
      (s.setIndex n { s.index n with mergeReqs := [] }).setSrh (fun e => { e with passes := e.passes ++ [pass] })

/-- The index is over a threshold of SRH_MERGE_POLICY. -/
def State.wantsMerge (s : State) (x : SrhIndex) : Bool :=
  x.phase == .live &&
    ((decide (0 < x.desc.sideMax) && decide (x.desc.sideMax * s.fld F.SRH_MERGE_POLICY_SIDE_PCT ≤ x.slotsUsed * 100))
      || decide (s.fld F.SRH_MERGE_POLICY_STALE_MIN ≤ x.marked.length))

/-- The start of a lull tick: passes begin, the indexes with the highest share of slots in use first (R443). -/
def State.mergeStart (s : State) : State :=
  let due := s.srh.indexes.filter (fun e => !e.2.mergeReqs.isEmpty || (!s.assisted 4 && s.wantsMerge e.2))
  let ranked := due.mergeSort (fun a b => decide (b.2.slotsUsed * a.2.desc.sideMax ≤ a.2.slotsUsed * b.2.desc.sideMax))
  ranked.foldl (fun (s : State) e => s.startPass e.1) s

/-- R443, host-assisted: MERGE_CANDIDATE records. -/
def State.mergeAssist (s : State) : State :=
  if !s.assisted 4 then s
  else ((s.srh.indexes.filter (fun e => s.wantsMerge e.2)).take (s.fld F.SRH_ASSIST_MAX_RECORDS)).foldl (fun (s : State) e =>
    s.postAssist s.assistPort 4 0x30 (assistOperands 0x30
      [(16, 2, e.1), (20, 4, e.2.slotsUsed), (24, 4, e.2.marked.length)])) s

/-- A pass that has written every page commits at boundary `t` (R441). -/
def State.commitPass (s : State) (m : MergePass) (t : Nat) : State :=
  let x := s.index m.index
  let carried := m.leaves.flatMap (fun l => l.carried)
  let copies := carried.filterMap (fun k => x.side.find? (fun e => e.slot == k))
  let side := x.side.map (fun e => if m.taken.contains e.slot then { e with gone := some t } else e)
  let (side, next) := copies.foldl (fun (a : List SideEntry × Nat) e =>
    (a.1 ++ [{ e with slot := a.2, since := t }], a.2 + 1)) (side, x.nextSlot)
  let deadV := m.leaves.flatMap (fun l => l.dropped)
    ++ m.deadSide.filterMap (fun k => (x.side.find? (fun e => e.slot == k)).map (fun e => e.vnum))
  let x := { x with
    leaves := m.leaves.foldl (fun (p : Tab Nat) l => match l.new with | some f => p.put l.leaf f | none => p) x.leaves
    prev := m.leaves.foldl (fun (p : Tab Nat) l => p.put l.leaf ((x.leaves.find l.leaf).getD l.old)) x.prev
    lastSwap := t, side := side, nextSlot := next, carried := x.carried + carried.length
    marked := x.marked.filter (fun k => !(m.leaves.any (fun l => l.leaf == k)))
    retired := x.retired ++ [(t, m.leaves.map (fun l => l.leaf), deadV)] }
  let s := (s.setIndex m.index x).setSrh (fun e => { e with mPasses := e.mPasses + 1 })
  let s := (s.catalogue m.index).setEvt F.SRH_EVT_MERGE_COMMITTED
  let s := if carried.isEmpty then s else s.setEvt F.SRH_EVT_LEAF_FULL
  s.endMerges m.toks {}

/-- What a swap superseded is reclaimed one boundary later (R444). -/
def State.reclaim (s : State) (n t : Nat) : State :=
  let x := s.index n
  let due := x.retired.filter (fun r => decide (r.1 < t))
  if due.isEmpty then s
  else
    let leaves := due.flatMap (fun r => r.2.1)
    let vnums := due.flatMap (fun r => r.2.2)
    let pages := leaves.filterMap (fun l => x.prev.find l)
    let s := s.setSrh (fun e => { e with pages := e.pages.keep (fun f _ => !(pages.contains f))
                                         mReclaimed := e.mReclaimed + pages.length })
    s.setIndex n { x with
      retired := x.retired.filter (fun r => !decide (r.1 < t))
      prev := x.prev.keep (fun l _ => !(leaves.contains l))
      side := x.side.filter (fun e => match e.gone with | some b => !decide (b < t) | none => true)
      present := x.present.filter (fun v => !(vnums.contains v))
      tombs := x.tombs.keep (fun v _ => !(vnums.contains v)) }

/-- Step 6 of boundary `t`: reclaim, tombstones, swaps or abandonments, activations, forward entries (R430, R438, R441, R444,
R445). -/
def State.searchStep (s : State) (t : Nat) : State :=
  let s := s.srh.indexes.keys.foldl (fun (s : State) n =>
    let s := s.reclaim n t
    let x := s.index n
    s.setIndex n { x with tombs := x.tombsDue.foldl (fun (m : Tab Nat) v => m.put v t) x.tombs, tombsDue := [], deleted := 0
                          home := if x.phase = .free then 0 else s.homeDieOf x.desc }) s
  let s := s.srh.passes.foldl (fun (s : State) m =>
    if m.leaves.all (fun l => l.done) then
      (s.commitPass m t).setSrh (fun e => { e with passes := e.passes.filter (fun q => q.index != m.index) })
    else
      let s := (s.abandonPass m.index).setSrh (fun e => { e with mAbandoned := e.mAbandoned + 1 })
      (s.setEvt F.SRH_EVT_MERGE_ABANDONED).endMerges m.toks (cpl ST_ABORTED SRH_MERGE_ABANDONED)) s
  let s := s.srh.indexes.keys.foldl (fun (s : State) n =>
    match (s.index n).activator with
    | none => s
    | some tok =>
      let x := s.index n
      let s := s.setIndex n { x with activator := none, phase := if x.phase = .building then .live else x.phase }
      ((s.catalogue n).opEnd tok {})) s
  s.setSrh (fun e => { e with forwards := e.forwards.filter (fun w => !decide (w.tick + 2 ≤ t)) })

/-! ## Merging shards (R450) -/

/-- The entries of a source block that are not empty; none when its FOUND exceeds K_IN. -/
def blockEntries (k : Nat) (b : List Byte) : Option (List Cand) :=
  let found := leNat (b.take 4)
  if k < found then none
  else some ((chunksOf 16 k (b.drop 16)).filterMap (fun e =>
    let key := leNat (e.take 8)
    if key = 2 ^ 64 - 1 then none else some { score := leNat ((e.drop 8).take 4), key := key }))

/-- The result blocks of a reduction written in turn, and the probes skipped. -/
def State.reduceOver (s : State) (tok : Nat) (d : Desc) (blocks : List (List Byte)) : State × Nat :=
  let b := d.bits
  (List.range (sqNq b)).foldl (fun (a : State × Nat) j =>
    let mine := (List.range (rdNs b)).map (fun i => blocks.getD (i * sqNq b + j) [])
    let es := mine.flatMap (fun x => (blockEntries (sqK b) x).getD [])
    let f := fun (o : Nat) => (mine.map (fun x => leNat ((x.drop o).take 2))).foldl (· + ·) 0
    let q : SrhQ := { vec := [], probes := [], best := es.foldl (rankIn (rdKout b)) [], scored := f 4, skipped := f 6 }
    (a.1.fabPut tok d (srOut b + j * rdOut b) (resultBlock (rdKout b) q), a.2 + f 6)) (s, 0)

/-- SRH_REDUCE. -/
def execSrhReduce (tok : Nat) (ext : List Byte) (s : State) : Host.Outcome State Fault Refusal :=
  .next (match s.desc tok with
    | none => s
    | some d =>
      let b := d.bits
      let nq := sqNq b
      let finish := fun (s : State) (c : Cpl) => s.runDesc tok 0x48 (fun _ s => (s, some c))
      if dOpcode b ≠ 0x48 ∨ s.mayBegin tok d = false then s
      else match s.acquire tok d [⟨srSrc b, rdNs b * nq * rdIn b, 1, false⟩] with
        | .wait s => s
        | .stop s c => finish s c
        | .ready s segs =>
          match State.readSegs d (segs.headD []) ext s with
          | (s, bytes, poison, _) =>
            let blocks := chunksOf (rdIn b) (rdNs b * nq) bytes
            if poison then finish s (cpl ST_POISONED 0)
            else if blocks.any (fun x => (blockEntries (sqK b) x).isNone) then finish s (cpl ST_ABORTED SRH_OPERAND)
            else s.runDesc tok 0x48 (fun d s =>
              let (s, skipped) := s.reduceOver tok d blocks
              (s, some { status := if skipped = 0 then ST_OK else ST_DEGRADED, reason := if skipped = 0 then 0 else DL_SRH_LEAVES
                         done := nq })))

end Sys2Proof.Machine
end

