-- ==== Sys2Proof/Machine/QueueRows.lean ====
section
/-! DEFINITION. The queue service (chapter 15). -/

namespace Sys2Proof.Machine

def Q_OPERAND : Nat := 0x0F01
def Q_FORMAT : Nat := 0x0F02
def Q_SLOT : Nat := 0x0F03
def Q_AREA : Nat := 0x0F04
def Q_QUEUE : Nat := 0x0F05
def Q_FULL : Nat := 0x0F06
def Q_FLUSHED : Nat := 0x0F07
def Q_MODE : Nat := 0x0F08
def Q_MARK_GONE : Nat := 0x0F09
def Q_POP_SMALL : Nat := 0x0F0A
def Q_POISON : Nat := 0x0F0B
def Q_LOST : Nat := 0x0F0C

def State.setQue (s : State) (f : QueueState → QueueState) : State := { s with que := f s.que }
def State.queue (s : State) (n : Nat) : Queue := s.que.queues.get {} n
def State.setQueue (s : State) (n : Nat) (q : Queue) : State := s.setQue (fun e => { e with queues := e.queues.put n q })

/-! ## Operands (Tables 15-2, 15-4) -/

def qNum (d : DescBits) : Nat := dfield d 16 2
def qInline (d : DescBits) : Bool := d.getLsbD 144
def qLen (d : DescBits) : Nat := dfield d 20 4
def qMark (d : DescBits) : Nat := dfield d 18 1
def qMaxItems (d : DescBits) : Nat := dfield d 18 2
def qMaxBytes (d : DescBits) : Nat := dfield d 20 4
def qAddr (d : DescBits) : Nat := dfield d 24 8

/-- The queue is LIVE, of the descriptor's slice and key slot (R480, R485). -/
def State.queueServes (s : State) (d : DescBits) : Bool :=
  let q := s.queue (qNum d)
  (q.phase == .live || (q.phase == .failed && dOpcode d == 0x61)) && q.slice == dSlice d && q.key == dKeySlot d

/-- A queue of the slice whose link die is lost (R490). -/
def State.queueLost (s : State) (d : DescBits) : Bool :=
  let q := s.queue (qNum d)
  q.phase == .failed && q.slice == dSlice d && dOpcode d != 0x61

/-- Item size of LEN bytes. -/
def itemSize (len : Nat) : Nat := ceilDiv (8 + len) 64 * 64

def queOperandsOk (d : DescBits) : Bool :=
  let op := dOpcode d
  qNum d < 4096 &&
  (if op = 0x62 then decide (1 ≤ qLen d ∧ qLen d ≤ 65536) && (!qInline d || decide (qLen d ≤ 40))
   else if op = 0x63 then decide (1 ≤ qMaxItems d) && qMaxBytes d % 64 == 0 && decide (64 ≤ qMaxBytes d ∧ qMaxBytes d ≤ 2 ^ 24)
     && qAddr d % 64 == 0
   else if op = 0x65 ∨ op = 0x66 then decide (qMark d ≤ 3)
   else if op = 0x67 then decide (qMark d ≤ 3) || qMark d == 255
   else true)

/-- Found at arrival. -/
def queCheck (d : Desc) (s : State) : Option Cpl :=
  let b := d.bits
  if dOpcode b = 0x60 then none
  else if !queOperandsOk b then some (cpl ST_REFUSED_FIT Q_OPERAND)
  else if s.queueLost b then some (cpl ST_STATE_LOST Q_LOST)
  else if !s.queueServes b then some (cpl ST_PERMISSION Q_QUEUE)
  else if dOpcode b = 0x62 ∧ (s.queue (qNum b)).maxItem < qLen b then some (cpl ST_REFUSED_FIT Q_OPERAND)
  else none

/-- Charges (Table 15-6). -/
def queCost (d : Desc) (s : State) : Cost :=
  let b := d.bits
  if dOpcode b = 0x62 then { stk := itemSize (qLen b) + (if qInline b then 0 else round64 (qLen b)) }
  else if dOpcode b = 0x63 then
    Cost.add { stk := qMaxBytes b + (if s.isSelf (qAddr b) then qMaxBytes b else 0) }
      (s.fabCost (dSlice b) (qAddr b) (fabUnits (qAddr b) (qMaxBytes b)))
  else {}

/-! ## Creation (R480) -/

def qcFormatOk (d : DescBits) : Bool :=
  let cap := dfield d 32 8
  decide (qNum d < 4096) && decide (dfield d 18 1 < 2) && dfield d 19 1 == 0 && decide (1 ≤ dfield d 20 4 ∧ dfield d 20 4 ≤ 65536)
    && qAddr d % 4096 == 0 && cap % 4096 == 0 && decide (8192 ≤ cap ∧ cap ≤ 2 ^ 32 - 4096) && decide (itemSize (dfield d 20 4) ≤ cap)
    && dfield d 40 8 % 8 == 0 && dfield d 48 16 == 0

/-- Q_CREATE. -/
def execQCreate (tok : Nat) (s : State) : Host.Outcome State Fault Refusal :=
  .next (match s.desc tok with
    | none => s
    | some d =>
      let b := d.bits
      let n := qNum b
      let refuse := fun (s : State) (r : Nat) =>
        ((s.setEvt F.QUE_EVT_CREATE_REFUSED).setQue (fun e => { e with lastError := (n, r, LOC_MD, s.tick.now % 2 ^ 32) })).runDesc
          tok 0x60 (fun _ s => (s, some (cpl ST_REFUSED_FIT r)))
      if dOpcode b ≠ 0x60 ∨ s.mayBegin tok d = false then s
      else if !qcFormatOk b then refuse s Q_FORMAT
      else if (s.queue n).phase ≠ .free then refuse s Q_SLOT
      else match s.xlateRange tok d (qAddr b) (dfield b 32 8) 3 with
        | (s, .wait) => s
        | (s, .fault _ _) => refuse s Q_AREA
        | (s1, .ok sp) =>
          match (if dfield b 40 8 = 0 then (s1, .ok []) else s1.xlateRange tok d (dfield b 40 8) 8 3) with
          | (s, .wait) => s
          | (s, .fault _ _) => refuse s Q_AREA
          | (s, .ok mi) =>
            let spill := sp.map (fun x => (x.addr, x.len))
            let mirror := mi.map (fun x => (x.addr, x.len))
            if !s.areaOk (dSlice b) sp || !s.areaOk (dSlice b) mi || piecesMeet spill mirror then refuse s Q_AREA
            else
              let q : Queue := { phase := .live, slice := dSlice b, key := dKeySlot b, keyEpoch := dKeyEpoch b
                                 retain := b.getLsbD 144, maxItem := dfield b 20 4, cap := dfield b 32 8, spill := spill
                                 mirror := mirror }
              ((s.setQueue n q).setEvt F.QUE_EVT_CREATED).runDesc tok 0x60 (fun _ s => (s, some {})))

/-! ## Items, COUNT, the mirror (R482, R483) -/

/-- The items a pop could take, in order: those committed before the first that is not. -/
def Queue.ready (q : Queue) : List QItem :=
  (if q.retain then q.items.filter (fun i => decide (q.read.1 ≤ i.iseq)) else q.items).takeWhile (fun i => i.push.isNone)

def Queue.count (q : Queue) : Nat := q.ready.length

/-- Byte position of the head. -/
def Queue.head (q : Queue) : Nat := match q.items with | i :: _ => i.pos | [] => q.tail
def Queue.used (q : Queue) : Nat := q.tail - q.head

/-- Items whose space retaining mode holds after they were taken. -/
def Queue.retained (q : Queue) : Nat := if q.retain then (q.items.filter (fun i => decide (i.iseq < q.read.1))).length else 0

/-- The pieces of the spill area that bytes [pos, pos + len) of the ring occupy. -/
def Queue.pieces (q : Queue) (pos len : Nat) : List (Nat × Nat) :=
  let o := pos % q.cap
  let k := min len (q.cap - o)
  cutPieces q.spill o k ++ cutPieces q.spill 0 (len - k)

/-- Change a queue; a change of its COUNT is written to its mirror (R483). -/
def State.putQueue (s : State) (n : Nat) (q : Queue) : State :=
  let old := (s.queue n).count
  let s := s.setQueue n q
  if q.count = old ∨ q.mirror.isEmpty then s
  else s.writeQuiet q.key q.keyEpoch q.mirror (leBytes 8 q.count)

/-- Every request of the queue that a round admitted earlier has made its take (R481, R463). -/
def State.queOrdered (s : State) (tok : Nat) (d : Desc) : Bool :=
  !(s.rings.descs.any (fun k e => [0x62, 0x63, 0x65, 0x66, 0x67].contains (dOpcode e.bits) && qNum e.bits == qNum d.bits
    && (e.phase == .admitted || e.phase == .running) && !e.begun
    && (decide (e.admitTick < d.admitTick) || (e.admitTick == d.admitTick && decide (k < tok)))))

/-- Take up a queue request: it may begin, it is its turn, and its queue serves it. -/
def State.queRow (s : State) (tok op : Nat) (k : Desc → Queue → State → State) : State :=
  match s.desc tok with
  | none => s
  | some d =>
    let q := s.queue (qNum d.bits)
    if dOpcode d.bits ≠ op ∨ s.mayBegin tok d = false ∨ s.queOrdered tok d = false then s
    else if q.phase = .failed then s.runDesc tok op (fun _ s => (s, some (cpl ST_STATE_LOST Q_LOST)))
    else if q.phase = .free ∨ q.slice ≠ dSlice d.bits ∨ q.key ≠ dKeySlot d.bits then
      s.runDesc tok op (fun _ s => (s, some (cpl ST_PERMISSION Q_QUEUE)))
    else k d q s

def State.queEnd (s : State) (tok op : Nat) (c : Cpl) : State := s.runDesc tok op (fun _ s => (s, some c))

/-! ## Push (R481, R482) -/

/-- The data of a push: its inline bytes, or its source's. -/
def State.pushSource (s : State) (d : Desc) (src : List Seg) (ext : List Byte) : State × List Byte × Bool :=
  if qInline d.bits then (s, leBytes (qLen d.bits) (bitsOf d.bits 192 320), false)
  else match State.readSegs d src ext s with | (s, l, p, _) => (s, l, p)

/-- A push reserves its item at the tail and writes it; `bad` are the poisoned ranges of its data. -/
def State.pushOver (s : State) (tok : Nat) (d : Desc) (q : Queue) (bad : List (Nat × Nat)) (data : List Byte) (poison : Bool) :
    State :=
  let n := qNum d.bits
  let len := qLen d.bits
  let size := itemSize len
  let dst := q.pieces q.tail size
  let item : QItem := { iseq := q.nextSeq, len := len, pos := q.tail, push := some tok }
  let s := s.setQueue n { q with items := q.items ++ [item], nextSeq := q.nextSeq + 1, tail := q.tail + size }
  let s := if poison then s.setQue (fun e => { e with poisonedPushes := tok :: e.poisonedPushes }) else s
  let bytes := leBytes 4 len ++ leBytes 4 item.iseq ++ data ++ zeros (size - 8 - len)
  let s := State.writeKeyed tok q.key q.keyEpoch none dst bytes s
  if poison then
    (if bad.isEmpty then [(0, len)] else bad).foldl (fun (s : State) r =>
      s.poisonPieces (cutPieces dst (8 + r.1) (r.2 - r.1))) s
  else s

/-- Q_PUSH: the reservation of its item, and its write. QUEUE_ITEM_COMMIT follows. -/
def execQPush (tok : Nat) (ext : List Byte) (s : State) : Host.Outcome State Fault Refusal :=
  .next (s.queRow tok 0x62 (fun d q s =>
    let b := d.bits
    let n := qNum b
    let len := qLen b
    let size := itemSize len
    if q.cap - q.used < size then
      ((s.setQueue n { q with full := q.full + 1 }).setEvt F.QUE_EVT_FULL).queEnd tok 0x62 (cpl ST_ABORTED Q_FULL)
    else match s.acquire tok d (if qInline b then [] else [⟨qAddr b, len, 1, false⟩]) with
      | .wait s => s
      | .stop s c => s.queEnd tok 0x62 c
      | .ready s0 segs =>
        match s0.engineReady tok ((q.pieces q.tail size).map (fun p => (p.1, p.2, true))) with
        | (s, false) => s
        | (s, true) =>
          let src := segs.headD []
          match (s.runDesc tok 0x62 (fun _ s => (s, none))).pushSource d src ext with
          | (t, data, poison) => t.pushOver tok d q (s.badOffsets 0 ((src.filter (fun x => !x.host)).map (fun x => (x.addr, x.len)))) data poison))

/-- A push ends before its item commits: the item goes. -/
def State.pushStop (s : State) (tok : Nat) (c : Cpl) : State :=
  match s.desc tok with
  | none => s
  | some d =>
    let n := qNum d.bits
    let q := s.queue n
    let items := q.items.filter (fun i => i.push != some tok)
    let s := s.putQueue n { q with items := items }
    let s := s.setQue (fun e => { e with poisonedPushes := e.poisonedPushes.filter (fun t => t != tok) })
    (s.setDesc tok { d with awaiting := 1, cpl := {} }).opEnd tok c

/-- QUEUE_ITEM_COMMIT: the item of a push commits once its bytes are visible and every earlier item has committed. -/
def execQueueItemCommit (tok : Nat) (s : State) : Host.Outcome State Fault Refusal :=
  .next (match s.desc tok with
    | none => s
    | some d =>
      let n := qNum d.bits
      let q := s.queue n
      match q.items.find? (fun i => i.push == some tok) with
      | none => s
      | some i =>
        if dOpcode d.bits ≠ 0x62 ∨ 1 < d.awaiting
            ∨ q.items.any (fun x => x.push.isSome && decide (x.iseq < i.iseq)) = true then s
        else if d.cpl.status ≠ ST_OK then s.pushStop tok d.cpl
        else
          let put := fun (x : QItem) => if x.iseq = i.iseq then { x with push := none } else x
          let s := s.putQueue n { q with items := q.items.map put, pushed := q.pushed + 1 }
          let bad := s.que.poisonedPushes.contains tok
          (s.setQue (fun e => { e with poisonedPushes := e.poisonedPushes.filter (fun t => t != tok) })).opEnd tok
            (if bad then cpl ST_POISONED 0 else {}))

/-! ## Pop (R484, R487, R490) -/

/-- The items that a pop takes. -/
def takeItems : Nat → Nat → List QItem → List QItem
  | _, _, [] => []
  | count, bytes, i :: t => if count = 0 ∨ bytes < i.size then [] else i :: takeItems (count - 1) (bytes - i.size) t

/-- The pieces of the spill area that items occupy. -/
def Queue.itemRanges (q : Queue) (got : List QItem) : List (Nat × Nat) := got.flatMap (fun i => q.pieces i.pos i.size)

/-- The queue once these items are taken. -/
def Queue.take (q : Queue) (got : List QItem) : Queue :=
  if q.retain then
    { q with read := match got.getLast? with | some i => (i.iseq + 1, i.pos + i.size) | none => q.read
             popped := q.popped + got.length }
  else { q with items := q.items.filter (fun i => !got.any (fun x => x.iseq == i.iseq)), popped := q.popped + got.length }

/-- A line of what a pop delivers is poisoned. -/
def lineBad (poison : Bool) (bad : List (Nat × Nat)) (i : Nat) : Bool :=
  poison && (bad.isEmpty || bad.any (fun r => decide (r.1 < 64 * i + 64) && decide (64 * i < r.2)))

/-- Offsets and sizes of items at the destination. -/
def itemPlaces (got : List QItem) : List (Nat × Nat) :=
  (got.foldl (fun (a : List (Nat × Nat) × Nat) i => (a.1 ++ [(a.2, i.size)], a.2 + i.size)) ([], 0)).1

/-- A pop takes these items: their bytes are sent, and it ends. -/
def State.popOver (s : State) (tok : Nat) (d : Desc) (q : Queue) (got : List QItem) : State × Option Cpl :=
  let n := qNum d.bits
  let bad := s.badOffsets 0 (q.itemRanges got)
  match State.readKeyed q.key q.keyEpoch (q.itemRanges got) s with
  | (s, bytes, poison) =>
    let s := (s.putQueue n (q.take got)).fabPutLines tok d (qAddr d.bits) bytes (lineBad poison bad)
    let s := s.setQue (fun e => { e with pops := { tok := tok, queue := n, items := itemPlaces got } :: e.pops.filter (fun p =>
      (s.desc p.tok).isSome && p.tok != tok) })
    let c : Cpl := { done := got.length, result := bytes.length + at_ 32 (q.take got).count }
    if poison then (s.setEvt F.QUE_EVT_POISON, some { c with status := ST_POISONED, reason := Q_POISON })
    else (s, some c)

/-- Q_POP. -/
def execQPop (tok : Nat) (s : State) : Host.Outcome State Fault Refusal :=
  .next (s.queRow tok 0x63 (fun d q s =>
    match q.ready, takeItems (qMaxItems d.bits) (qMaxBytes d.bits) q.ready with
    | i :: _, [] => s.queEnd tok 0x63 { status := ST_REFUSED_FIT, reason := Q_POP_SMALL, result := i.size }
    | _, got =>
      match s.engineReady tok ((q.itemRanges got).map (fun p => (p.1, p.2, false))) with
      | (s, false) => s
      | (s, true) => s.runDesc tok 0x63 (fun d s => s.popOver tok d q got)))

/-! ## Flush (R486) -/

/-- Fabric address ranges of a descriptor's writes that are not yet visible. -/
def State.writesLeft (s : State) (tok : Nat) : List (Nat × Nat) :=
  let mine := fun (o : Origin) => o == .desc tok
  let at_ := fun (p : Packet) => (p.addr + p.segOff, p.data.length)
  ((s.fab.outstanding.vals ++ s.fab.tagWait).filter (fun r => mine r.origin)).map (fun r => at_ r.pkt)
    ++ s.ord.send.vals.flatMap (fun q => (q.waiting.filter (fun e => mine e.1)).map (fun e => at_ e.2))

/-- A held write of a stopped pop: the bytes at its destination are undefined, and credit no counter. -/
def State.blurHeld (s : State) (tok lo hi : Nat) (h : HeldWrite) : State :=
  let (l, s) := s.blur (64 * h.line) lo hi h.data
  { s with pg := { s.pg with held := s.pg.held.map (fun x =>
    if x.line = h.line ∧ x.origin = .desc tok then { x with data := l, credit := none } else x) } }

/-- A pop stops: the items whose writes are all visible are delivered. -/
def State.popStop (s : State) (p : QPop) (c : Cpl) : State :=
  match s.desc p.tok with
  | none => s
  | some d =>
    if d.finished then s
    else
      let a := qAddr d.bits
      let own := winBase (s.window (faWindow a)) + faOffset a
      let left := s.writesLeft p.tok
      let held := if s.isSelf a then s.pg.held.filter (fun h => h.origin == .desc p.tok) else []
      let done := (p.items.filter (fun i =>
        !(left.any (fun r => decide (r.1 < a + i.1 + i.2) && decide (a + i.1 < r.1 + r.2)))
          && !(held.any (fun h => decide (64 * h.line < own + i.1 + i.2) && decide (own + i.1 < 64 * h.line + 64))))).length
      let len := (p.items.map Prod.snd).foldl (· + ·) 0
      let s := held.foldl (fun s h => s.blurHeld p.tok own (own + len) h) s
      (s.setDesc p.tok { d with awaiting := 1, cpl := {} }).opEnd p.tok { c with done := done }

/-- The queue becomes empty. -/
def State.emptyQueue (s : State) (n : Nat) (c : Cpl) : State :=
  let q := s.queue n
  let pushes := q.items.filterMap (fun i => i.push)
  let gone := (if q.retain then q.items.filter (fun i => decide (q.read.1 ≤ i.iseq)) else q.items).filter (fun i => i.push.isNone)
  let s := pushes.foldl (fun (s : State) t => s.pushStop t c) s
  let s := (s.que.pops.filter (fun p => p.queue == n)).foldl (fun (s : State) p => s.popStop p c) s
  let s := s.setQue (fun e => { e with pops := e.pops.filter (fun p => p.queue != n) })
  let q := s.queue n
  s.putQueue n { q with items := [], read := (q.nextSeq, q.tail), marks := [], flushed := q.flushed + gone.length }

/-- Q_FLUSH. -/
def execQFlush (tok : Nat) (s : State) : Host.Outcome State Fault Refusal :=
  .next (match s.desc tok with
    | none => s
    | some d =>
      let n := qNum d.bits
      if dOpcode d.bits ≠ 0x64 ∨ s.mayBegin tok d = false then s
      else if s.queueLost d.bits then s.queEnd tok 0x64 (cpl ST_STATE_LOST Q_LOST)
      else if !s.queueServes d.bits then s.queEnd tok 0x64 (cpl ST_PERMISSION Q_QUEUE)
      else ((s.emptyQueue n (cpl ST_ABORTED Q_FLUSHED)).setEvt F.QUE_EVT_FLUSHED).queEnd tok 0x64 {})

/-! ## Retaining requests (R487, R488) -/

/-- The point a mark names; 0xFF names the read point. -/
def Queue.markAt (q : Queue) (m : Nat) : Option (Nat × Nat) := if m = 255 then some q.read else q.marks.find m

/-- A retaining request, on a retaining queue. -/
def State.retainRow (s : State) (tok op : Nat) (k : Desc → Queue → Option Queue) : State :=
  s.queRow tok op (fun d q s =>
    if !q.retain then s.queEnd tok op (cpl ST_PERMISSION Q_MODE)
    else match k d q with
      | some q => (s.putQueue (qNum d.bits) q).queEnd tok op {}
      | none => s.queEnd tok op (cpl ST_ABORTED Q_MARK_GONE))

def execQMark (tok : Nat) (s : State) : Host.Outcome State Fault Refusal :=
  .next (s.retainRow tok 0x65 (fun d q => some { q with marks := q.marks.put (qMark d.bits) q.read }))

def execQRewind (tok : Nat) (s : State) : Host.Outcome State Fault Refusal :=
  .next (s.retainRow tok 0x66 (fun d q => (q.markAt (qMark d.bits)).map (fun p => { q with read := p })))

def execQRelease (tok : Nat) (s : State) : Host.Outcome State Fault Refusal :=
  .next (s.retainRow tok 0x67 (fun d q => (q.markAt (qMark d.bits)).map (fun p =>
    { q with items := q.items.filter (fun i => decide (p.1 ≤ i.iseq)), marks := q.marks.keep (fun _ m => decide (p.1 ≤ m.1))
             read := if q.read.1 < p.1 then p else q.read })))

/-! ## Destroying (R489) and loss (R490) -/

/-- R489, from the round that admits a Q_DESTROY. -/
def State.admitQDestroy (s : State) (tok : Nat) (d : Desc) : State :=
  let n := qNum d.bits
  if s.queueServes d.bits then s.setQueue n { s.queue n with phase := .destroying, destroyer := some tok } else s

/-- The queue is FREE. -/
def State.freeQueue (s : State) (n : Nat) : State :=
  (s.setQue (fun e => { e with pops := e.pops.filter (fun p => p.queue != n) })).setQueue n {}

def State.queueBusy (s : State) (n : Nat) : Bool :=
  s.rings.descs.any (fun _ e => [0x62, 0x63, 0x65, 0x66, 0x67].contains (dOpcode e.bits) && qNum e.bits == n
    && (e.phase == .admitted || e.phase == .running))

/-- Q_DESTROY, and its end once the queue is at rest. -/
def State.qDestroy (s : State) (tok : Nat) : State :=
  match s.desc tok with
  | none => s
  | some d =>
    let n := qNum d.bits
    if (s.queue n).destroyer = some tok then
      if s.queueBusy n then s
      else s.runDesc tok 0x61 (fun _ s => ((s.freeQueue n).setEvt F.QUE_EVT_DESTROYED, some {}))
    else s.runDesc tok 0x61 (fun _ s => (s, some (cpl ST_PERMISSION Q_QUEUE)))

def execQDestroy (tok : Nat) (s : State) : Host.Outcome State Fault Refusal := .next (s.qDestroy tok)

/-- A link die is lost: its queues become FAILED, and their requests end (R490). -/
def State.loseQueues (s : State) (die : Nat) : State :=
  let mine := (s.que.queues.filter (fun e => e.1 / 1024 == die && e.2.phase != .free)).map Prod.fst
  let c := cpl ST_STATE_LOST Q_LOST
  let s := mine.foldl (fun (s : State) n =>
    let s := s.emptyQueue n c
    let s := s.setQueue n { s.queue n with phase := .failed }
    (s.rings.descs.filter (fun e => [0x62, 0x63, 0x64, 0x65, 0x66, 0x67].contains (dOpcode e.2.bits) && qNum e.2.bits == n
      && !e.2.finished)).foldl (fun (s : State) e =>
        if e.2.phase == .running then s.finish e.1 c else s.refuse e.1 c.status c.reason s.roundTick) s) s
  if mine.isEmpty then s else s.setEvt F.QUE_EVT_LOST

/-! ## Objects that unload (R347, R358, R431, R459, R489) -/

/-- UNLOAD_DRAIN_COMPLETE: the operations admitted before an unload have completed: its object is freed and it completes. -/
def execUnloadDrainComplete (tok : Nat) (s : State) : Host.Outcome State Fault Refusal :=
  match s.desc tok with
  | none => .next s
  | some d =>
    if dOpcode d.bits = 0x32 then execTpUnload tok s
    else if dOpcode d.bits = 0x21 then execTblUnload tok s
    else if dOpcode d.bits = 0x41 then execIdxUnload tok s
    else if dOpcode d.bits = 0x51 then execKvPoolDestroy tok s
    else if dOpcode d.bits = 0x61 then execQDestroy tok s
    else .next s

end Sys2Proof.Machine
end

