-- ==== Sys2Proof/Machine/Stop.lean ====
section
/-! DEFINITION. Stopping the work of a descriptor from outside: by an ABORT, at the overrun limit, when its key slot retires
or debug opens (R67, R514, R515). -/

namespace Sys2Proof.Machine

/-- What waits on behalf of a descriptor waits no more: pieces of a load, an invalidation, an assist request. -/
def State.forgetWork (s : State) (tok : Nat) : State :=
  { s with
    tick := { s.tick with loads := s.tick.loads.filter (fun j => j.tok != tok) }
    xlt := { s.xlt with invs := s.xlt.invs.filter (fun i => i.tok != tok)
                        assist := s.xlt.assist.keep (fun _ a => a.tok != some tok) } }

/-- A load under way is given up: its slot is free again. -/
def State.forgetLoad (s : State) (tok : Nat) : State :=
  s.setMtx (fun m => { m with progs := m.progs.mapV (fun _ p => if p.loader = some tok then p.release else p) })

/-- Items of an operation none of which has run (R515). -/
def State.itemsOf (s : State) (d : Desc) : Nat :=
  let op := dOpcode d.bits
  if op = 0x10 ∨ op = 0x11 then (copyPieces (op == 0x11) d.bits).length
  else if op = 0x31 then
    match s.progOf (trHandle d.bits) (dSlice d.bits) with
    | some p => ((p.range d.bits).map TileOp.items).foldl (· + ·) 0
    | none => 0
  else if op = 0x22 then (bagForm d.bits).rows
  else if 0x80 ≤ op ∧ op ≤ 0x84 then ccLen d.bits / 4096
  else if op = 0xA1 ∨ op = 0xA2 then ceilDiv (dfield d.bits 32 8) 4096
  else 0

/-- An operation whose writes are all released and not all visible yet ends with `c` in place of its success (R515). -/
def State.markStopped (s : State) (tok : Nat) (c : Cpl) : State :=
  match s.desc tok with
  | none => s
  | some d => s.setDesc tok { d with cpl := if d.cpl.status = ST_OK then
      { d.cpl with status := c.status, reason := c.reason } else d.cpl }

/-- A started operation has work left to start or to release, beyond the visibility of its writes. -/
def State.workLeft (s : State) (tok : Nat) (d : Desc) : Bool :=
  let op := dOpcode d.bits
  !d.begun || s.mtx.runs.has tok || s.kv.reqs.any (fun r => r.tok == tok) || s.srh.jobs.any (fun j => j.tok == tok)
    || s.tier.jobs.any (fun j => j.tok == tok) || s.que.pops.any (fun p => p.tok == tok)
    || (op == 0x62 && (s.queue (qNum d.bits)).items.any (fun i => i.push == some tok))
    || s.xlt.assist.any (fun _ a => a.tok == some tok) || op == 0x02 || op == 0x03

/-- A descriptor of kind T ends without having started: admitted, it keeps its ADMIT; waiting, it ends in the tick now
running. -/
def State.neverRun (s : State) (tok : Nat) (c : Cpl) : State :=
  match s.desc tok with
  | none => s
  | some d =>
    let t := if d.phase = .admitted then d.admitTick else s.tick.now
    s.setDesc tok { d with phase := .finished, cpl := c, admitTick := t, doneTick := t
                           delay := min (if d.phase = .admitted then t - d.requested else d.rounds) 0xFFFF }

/-- R515: the operation of a descriptor stops, with status and reason `c`. Work items that are running finish; none starts. -/
def State.stopWork (s : State) (tok : Nat) (c : Cpl) : State :=
  match s.desc tok with
  | none => s
  | some d =>
    if d.finished then s
    else
      let op := dOpcode d.bits
      let s0 := s.forgetWork tok
      if !d.begun then
        if opKind op == some .t && d.phase != .running then s0.neverRun tok { c with dropped := s.itemsOf d }
        else s0.finish tok { c with dropped := s.itemsOf d }
      else if s.mtx.runs.has tok then s0.stopRun tok c
      else if s.kv.reqs.any (fun r => r.tok == tok) then s0.kvStop tok c
      else if s.srh.jobs.any (fun j => j.tok == tok) then s0.srhStop tok c
      else if op = 0x62 ∧ (s.queue (qNum d.bits)).items.any (fun i => i.push == some tok) = true then s0.pushStop tok c
      else match s.que.pops.find? (fun p => p.tok == tok), s.tier.jobs.find? (fun j => j.tok == tok) with
        | some p, _ => (s0.popStop p c).setQue (fun e => { e with pops := e.pops.filter (fun x => x.tok != tok) })
        | none, some j =>
          let moving := (j.granules.filter (fun g => match s.granuleOf g with | some x => x.moving | none => false)).length
          (s0.setTier (fun t => { t with jobs := t.jobs.filter (fun x => x.tok != tok) })).opEnd tok
            { c with done := j.done - moving, dropped := j.dropped + moving }
        | none, none =>
          if op = 0x30 then (s0.forgetLoad tok).opEnd tok c
          else if op = 0x02 ∨ op = 0x03 ∨ op = 0x70 ∨ op = 0x74 ∨ s.workLeft tok d = true then s0.opEnd tok c
          else s0.markStopped tok c

/-- A descriptor ends at once, in whatever it was doing, at tick `t`: one of kind T that had started keeps its ADMIT (R569,
R581). -/
def State.cutOff (s : State) (tok : Nat) (c : Cpl) (t : Nat) : State :=
  let started : Bool := match s.desc tok with
    | some d => opKind (dOpcode d.bits) == some .t && d.phase == .running
    | none => false
  let s := (s.stopWork tok c).forgetLoad tok
  match s.desc tok with
  | none => s
  | some d =>
    s.setDesc tok { d with phase := .finished, admitTick := if started then d.admitTick else t, doneTick := t
                           delay := min (if started then d.admitTick - d.requested else d.rounds) 0xFFFF
                           cpl := { d.cpl with status := c.status, reason := c.reason } }

/-- Table 16-6: an ABORT that comes now stops the descriptor: its settle point is still to come. -/
def State.abortStops (s : State) (tok : Nat) (d : Desc) : Bool :=
  let op := dOpcode d.bits
  if d.finished then false
  else match opKind op with
    | some .t =>
      if d.phase == .waiting || d.phase == .admitted then true
      else if op ∈ [0x10, 0x11, 0x22, 0x25, 0x31, 0x42, 0x44, 0x48, 0x54, 0x55, 0x63, 0x71, 0x72, 0x24, 0x53, 0x58, 0x62] then
        s.workLeft tok d
      else if 0x80 ≤ op ∧ op ≤ 0x8B then s.workLeft tok d
      else false
    | some .n => op == 0x02 || op == 0x03
    | _ => false

end Sys2Proof.Machine
end

