-- ==== Sys2Proof/Machine/SecOps.lean ====
section
/-! DEFINITION. Key slots: activation, retirement and zeroisation; OTP records; the boundary-scan TAP (chapter 19). -/

namespace Sys2Proof.Machine

/-! ## Reasons (Table 19-15) -/

def SEC_RETIRING : Nat := 0x1201
def SEC_PRIV : Nat := 0x1203
def SEC_OPERAND : Nat := 0x1204
def SEC_DEBUG : Nat := 0x1205
def SEC_SLOT_STATE : Nat := 0x1206
def SEC_SLICE : Nat := 0x1207
def SEC_NOT_CONF : Nat := 0x1208
def SEC_BOUNCE_AUTH : Nat := 0x1209
def SEC_ZEROISED : Nat := 0x120C

def State.setSec (s : State) (f : SecState → SecState) : State := { s with sec := f s.sec }
def State.setSlot (s : State) (k : Nat) (x : KeySlot) : State := { s with slots := s.slots.put k x }

/-- The serial of a random key drawn now: no two keys share one (assumption 24). -/
def State.newKey (s : State) : Nat × State := (s.fresh + 1, { s with fresh := s.fresh + 1 })

/-- Serial of a random flash key: no number of a supplied 512-bit key is one. -/
def flashSerial (n : Nat) : Nat := 2 ^ 512 + n

/-! ## SLOT_ACTIVATE (R579) -/

/-- Something names the slot (Table 19-9, check 4). -/
def State.slotNamed (s : State) (k : Nat) : Bool :=
  s.win.committed.any (fun _ e => winValid e && winKey e == k)
    || s.host.ext.any (fun _ w => extInUse w && extKey w == k)
    || s.host.shrLive.any (fun _ e => e.getLsbD 0 && shKey e == k)
    || s.rings.rings.any (fun _ r => r.state != .disabled && rgKey r.record == k)
    || s.rings.subqs.any (fun _ q => q.state != .disabled && sqKey q.record == k)

/-- Check 2 of Table 19-9, but for the record's translation. -/
def slotOperandsOk (b : DescBits) : Bool :=
  dfield b 16 1 != 0 && decide (dfield b 17 1 ≤ 63) && dfield b 18 6 == 0 && dfield b 24 8 % 64 == 0 && dfield b 32 32 == 0

def nextEpoch (e : Nat) : Nat := if e = 0xFFFF then 1 else e + 1

/-- The slot becomes ACTIVE with fresh keys. -/
def State.activateSlot (s : State) (k slice : Nat) (owner : BitVec 384) : State :=
  let (m, s) := s.newKey
  let (f, s) := s.newKey
  s.setSlot k { phase := .active, slice := slice, epoch := nextEpoch (s.slot k).epoch, owner := owner, memKey := m,
                flashKey := flashSerial f }

/-- SLOT_ACTIVATE. -/
def execSlotActivate (tok : Nat) (ext : List Byte) (s : State) : Host.Outcome State Fault Refusal :=
  .next (match s.desc tok with
    | none => s
    | some d =>
      let b := d.bits
      let stop := fun (s : State) (c : Cpl) => s.runDesc tok 0xA0 (fun _ s => (s, some c))
      if dOpcode b ≠ 0xA0 ∨ s.mayBegin tok d = false then s
      else if dKeySlot b ≠ 0 then stop s (cpl ST_PERMISSION SEC_PRIV)
      else if slotOperandsOk b = false then stop s (cpl ST_REFUSED_FIT SEC_OPERAND)
      else match s.acquire tok d [⟨dfield b 24 8, 64, 1, false⟩] with
        | .wait s => s
        | .stop s _ => stop s (cpl ST_REFUSED_FIT SEC_OPERAND)
        | .ready s segs =>
          let (s', l, poison, _) := State.readSegs d (segs.headD []) ext s
          let k := dfield b 16 1
          if poison then stop s' (cpl ST_REFUSED_FIT SEC_OPERAND)
          else if s'.sec.fuses.getLsbD 8 then stop s' (cpl ST_PERMISSION SEC_DEBUG)
          else if (s'.slot k).phase ≠ .free ∨ s'.slotNamed k = true then stop s' (cpl ST_REFUSED_FIT SEC_SLOT_STATE)
          else if s'.sliceExists (dfield b 17 1) = false then stop s' (cpl ST_REFUSED_FIT SEC_SLICE)
          else s'.runDesc tok 0xA0 (fun _ s =>
            let s := s.activateSlot k (dfield b 17 1) (BitVec.ofNat 384 (leNat (l.take 48)))
            (s, some { result := (s.slot k).epoch })))

/-! ## Confidential mode (R590) -/

/-- The host port a descriptor's ring pair is on. -/
def State.srcPort (s : State) : Src → Option Nat
  | .ring n => some (rgPort (s.ring n).record)
  | .subq _ => none

def isBounce (d : Desc) : Bool := dOpcode d.bits == 0xA1 || dOpcode d.bits == 0xA2

/-- Confidential mode ends on a port: its bounce key is destroyed, and its BOUNCE descriptors that run stop. -/
def State.endConf (s : State) (port : Nat) : State :=
  let s := s.setSec (fun x => { x with conf := x.conf.del port, bounce := x.bounce.del port })
  (s.rings.descs.filter (fun e => isBounce e.2 && e.2.phase == .running && s.srcPort e.2.src == some port)).foldl
    (fun (s : State) e => s.stopWork e.1 (cpl ST_KEY_RETIRED SEC_RETIRING)) s

/-! ## Retirement (R581, Table 19-11) -/

/-- A write of SEC_SLOT_CTRL in force: RETIRE acts on the slot that SEC_SLOT_SEL selects. -/
def effSlotCtrl : RegEffect := fun v s =>
  let k := s.fld F.SEC_SLOT_SEL_SLOT
  if !bitOf v 0 then (s, none)
  else if k = 0 ∨ (s.slot k).phase ≠ .active then (s, some REG_STATE)
  else (s.setSlot k { s.slot k with retirePending := true }, none)

def execSlotRetire (path : Nat) (value : Word) (cycle : Nat) (s : State) : Host.Outcome State Fault Refusal :=
  .next (s.guardPair path Reg.SEC_SLOT_CTRL value cycle (fun v => bitOf v 0) effSlotCtrl)

/-- The descriptors of a slot that have arrived and have no completion yet, but for those that `p` leaves. -/
def State.slotDescs (s : State) (k : Nat) (p : Desc → Bool) : List (Nat × Desc) :=
  s.rings.descs.filter (fun e => dKeySlot e.2.bits == k && !e.2.finished && p e.2)

/-- Step 1: the slot becomes RETIRING; its descriptors that have not started, and those of kind N, complete. -/
def State.beginRetire (s : State) (k : Nat) : State :=
  let s := s.setSlot k { s.slot k with phase := .retiring, retirePending := false, drainFrom := none }
  let s := s.setEvt F.SEC_EVT_SLOT_RETIRING
  (s.slotDescs k (fun d => d.phase == .waiting || d.phase == .admitted || opKind (dOpcode d.bits) == some .n)).foldl
    (fun (s : State) e => s.cutOff e.1 (cpl ST_KEY_RETIRED SEC_RETIRING) s.tick.now) s

/-- A request that a slot's descriptors, windows or extents made, by its KEY field. -/
def ofSlot (k : Nat) (p : Packet) : Bool := p.key % 256 == k

/-- An inbound request looked up under the slot has not completed (R87). -/
def State.inboundOf (s : State) (k : Nat) : Bool :=
  s.dir.waiters.any (fun w => match w with
      | .fabric _ e _ => winKey e == k
      | .host _ _ key _ => key == k
      | _ => false)
    || s.ord.held.any (fun h => match h.entry with
      | some e => winKey e == k
      | none => winKey (s.window (faWindow h.pkt.addr)) == k && winValid (s.window (faWindow h.pkt.addr)))
    || s.pg.held.any (fun h => h.key == k)

/-- The conditions of step 4 hold at a boundary whose MCLK time is `ns`. -/
def State.drained (s : State) (k ns : Nat) : Bool :=
  (match (s.slot k).drainFrom with
   | some t => decide (t + 1000 * s.fld F.FAB_REQ_CTRL_TIMEOUT_US ≤ ns)
   | none => false)
  && !s.fab.outstanding.any (fun _ r => ofSlot k r.pkt) && !s.inboundOf k

/-- Step 4: the slot becomes ZEROISING; what names it stops; confidential mode ends on its ports. -/
def State.beginZeroise (s : State) (k : Nat) : State :=
  let s := s.setSlot k { s.slot k with phase := .zeroising, retirePending := false, drainFrom := none }
  let s := (s.rings.rings.filter (fun e => rgKey e.2.record == k && (e.2.state == .active || e.2.state == .error))).foldl
    (fun (s : State) e => (s.setRing e.1 { s.ring e.1 with state := .stopping }).ringStopCheck e.1) s
  let s := (s.rings.subqs.filter (fun e => sqKey e.2.record == k && (e.2.state == .active || e.2.state == .error))).foldl
    (fun (s : State) e => (s.setSubq e.1 { s.subq e.1 with state := .stopping }).subqStopCheck e.1) s
  (s.sec.conf.filter (fun e => e.2 == k)).foldl (fun (s : State) e => s.endConf e.1) s

/-- Step 3 of a boundary whose MCLK time is `ns`, for one slot. -/
def State.retireSlot (s : State) (k ns : Nat) : State :=
  let x := s.slot k
  match x.phase with
  | .active => if x.retirePending then s.beginRetire k else s
  | .retiring =>
    let s := if x.drainFrom.isNone then
        s.setSlot k { x with drainFrom := some ns } else s
    if s.drained k ns then s.beginZeroise k else s
  | _ => s

/-- Step 3 of a tick boundary (Table 2-6). -/
def State.retireStep (s : State) (ns : Nat) : State := (s.slots.map Prod.fst).foldl (fun (s : State) k => s.retireSlot k ns) s

/-! ## Zeroisation (Table 19-11, steps 5 and 6) -/

/-- The objects created under a slot are released, as if unloaded. -/
def State.releaseObjects (s : State) (k : Nat) : State :=
  let s := (s.emb.tables.filter (fun e => e.2.phase != .free && e.2.key == k)).foldl (fun (s : State) e => s.freeTable e.1) s
  let s := (s.emb.updates.filter (fun e => e.2.key == k)).foldl (fun (s : State) e => s.dropUpdate e.1) s
  let s := s.setMtx (fun m => { m with progs := m.progs.mapV (fun _ p => if p.phase != .free && p.key == k then p.release else p) })
  let s := (s.srh.indexes.filter (fun e => e.2.phase != .free && e.2.key == k)).foldl (fun (s : State) e => s.freeIndex e.1) s
  let s := (s.kv.pools.filter (fun e => e.2.phase != .free && e.2.key == k)).foldl (fun (s : State) e => s.freePool e.1) s
  (s.que.queues.filter (fun e => e.2.phase != .free && e.2.key == k)).foldl (fun (s : State) e => s.freeQueue e.1) s

/-- Steps 5 and 6: the slot's descriptors that are left end, its objects, its on-die copies and its keys go; the slot is
FREE, which is reported. -/
def State.endZeroise (s : State) (k : Nat) : State :=
  let epoch := (s.slot k).epoch
  let s := (s.slotDescs k (fun _ => true)).foldl
    (fun (s : State) e => s.cutOff e.1 (cpl ST_KEY_RETIRED SEC_RETIRING) s.tick.now) s
  let s := (s.releaseObjects k).tierForget k
  let s := s.setSec (fun x => { x with modelKeys := x.modelKeys.mapV (fun _ m =>
    if m.slot = k then { m with live := false, key := [] } else m) })
  let s := (s.setSlot k { epoch := epoch }).setEvt F.SEC_EVT_SLOT_ZEROISED
  s.event SEC_ZEROISED LOC_MD (k + at_ 8 epoch)

/-- ZEROISATION_DONE. -/
def execZeroisationDone (slot : Nat) (s : State) : Host.Outcome State Fault Refusal :=
  .next (if (s.slot slot).phase = .zeroising then s.endZeroise slot else s)

/-! ## OTP (R565 to R567) -/

def otpMarker (w : Wide) : Nat := bitsOf w 248 8
def otpVal (w : Wide) : Nat := bitsOf w 32 192

/-- MARKER is 0xA5 and the CRC matches (R566). -/
def otpValid (w : Wide) : Bool := otpMarker w == 0xA5 && bitsOf w 0 32 == crc32c (leBytes 28 (bitsOf w 32 224))

/-- The winning generation of a record. -/
def SecState.otpWinner (x : SecState) (r : Nat) : Option Nat :=
  [3, 2, 1, 0].find? (fun g => match x.otp.find (4 * r + g) with | some w => otpValid w | none => false)

/-- The winning VALUE of a record. -/
def SecState.otpValue (x : SecState) (r : Nat) : Nat :=
  match x.otpWinner r with | some g => otpVal (x.otp.get 0 (4 * r + g)) | none => 0

/-- SEC_OTP_GEN (Table 18-12). -/
def SecState.genWord (x : SecState) : Wide :=
  BitVec.ofNat 256 (((List.range 128).map (fun r => at_ (2 * r) ((x.otpWinner r).getD 0))).foldl (· + ·) 0)

/-- A slot of the record with nothing programmed or being programmed in it: the lowest. -/
def SecState.otpFree (x : SecState) (r : Nat) : Option Nat :=
  [0, 1, 2, 3].find? (fun g => !x.otp.has (4 * r + g) && !x.otpBusy.any (fun b => b.1 == 4 * r + g))

/-- Vendor signing keys that are usable when record 3 holds `v` (R565). -/
def SecState.usableKeys (x : SecState) (v : Nat) : Nat := bitsOf x.fuses 16 4 &&& (15 - v % 16)

/-- R567: why a program request is refused. -/
def SecState.otpRefused (x : SecState) (r : Nat) : Option Nat :=
  let w := x.otpData
  let new := otpVal w
  let old := x.otpValue r
  if otpValid w = false ∨ 127 < r ∨ (4 ≤ r ∧ r ≤ 15) then some REG_VALUE
  else if r ≤ 2 ∧ new % 2 ^ 32 < old % 2 ^ 32 then some REG_VALUE
  else if r = 3 ∧ (old &&& new ≠ old ∨ x.usableKeys new = 0) then some REG_VALUE
  else if (x.otpFree r).isNone then some REG_STATE
  else none

/-- A write of SEC_OTP_CTRL in force. -/
def effOtpCtrl : RegEffect := fun v s =>
  let r := bitsOf v 0 8
  if !bitOf v 31 then (s.setFld F.SEC_OTP_CTRL_RECORD r, none)
  else match s.sec.otpRefused r with
    | some e => (s, some e)
    | none =>
      ((s.setFld F.SEC_OTP_CTRL_RECORD r).setSec (fun x =>
        { x with otpBusy := x.otpBusy ++ [(4 * r + (x.otpFree r).getD 0, x.otpData)] }), none)

def execOtpProgram (path : Nat) (value : Word) (cycle : Nat) (s : State) : Host.Outcome State Fault Refusal :=
  .next (s.guardPair path Reg.SEC_OTP_CTRL value cycle (fun v => bitOf v 31) effOtpCtrl)

/-- OTP_PROGRAM_DONE: the oldest programming completes. -/
def execOtpProgramDone (s : State) : Host.Outcome State Fault Refusal :=
  .next (match s.sec.otpBusy with
    | [] => s
    | (k, w) :: t =>
      (s.setSec (fun x =>
        let x := { x with otp := x.otp.put k w, otpBusy := t }
        { x with otpGen := x.genWord })).setEvt F.SEC_EVT_OTP_PROGRAMMED)

/-! ## The boundary-scan TAP (R569) -/

/-- TAP instructions, as the model names them in `tapInstr`. -/
def TAP_BYPASS : Nat := 0
def TAP_SAMPLE : Nat := 1
def TAP_EXTEST : Nat := 2
def TAP_IDCODE : Nat := 3
def TAP_DEBUG : Nat := 4

/-- `count` bits of TDI through the one-bit bypass register: they come out a clock later, behind a 0. -/
def State.shiftBypass (s : State) (tdi count : Nat) : State :=
  (s.setSec (fun x => { x with tapInstr := TAP_BYPASS, extest := false })).emit (.tdo (2 * tdi % 2 ^ count) count)

def execBypass (tdi count : Nat) (s : State) : Host.Outcome State Fault Refusal := .next (s.shiftBypass tdi count)

/-- SAMPLE/PRELOAD: the levels at the lands shift out, and the boundary cells take `cells`. -/
def execSamplePreload (cells count : Nat) (s : State) : Host.Outcome State Fault Refusal :=
  let (x, s) := s.draw
  .next ((s.setSec (fun y => { y with tapInstr := TAP_SAMPLE, extest := false, scanCells := cells % 2 ^ count })).emit
    (.tdo (x % 2 ^ count) count))

/-- EXTEST: the lands are driven from the boundary cells, the levels at them shift out, and the cells take `cells`. -/
def execExtest (cells count : Nat) (s : State) : Host.Outcome State Fault Refusal :=
  let (x, s) := s.draw
  .next ((s.setSec (fun y => { y with tapInstr := TAP_EXTEST, extest := true, scanCells := cells % 2 ^ count })).emit
    (.tdo (x % 2 ^ count) count))

/-- IDCODE: the 32-bit code, which the specification does not give, shifts out. -/
def execIdcode (s : State) : Host.Outcome State Fault Refusal :=
  let (x, s) := s.draw
  .next ((s.setSec (fun y => { y with tapInstr := TAP_IDCODE, extest := false })).emit (.tdo (x % 2 ^ 32) 32))

/-- Steps 1 to 3 of R569, before the first debug instruction takes effect. -/
def State.openDebug (s : State) : State :=
  let s := s.setSec (fun x => { x with fuses := x.fuses ||| 0x100 })
  let ks := (s.slots.filter (fun e => e.1 != 0 && e.2.phase != .free)).map Prod.fst
  let s := ks.foldl (fun (s : State) k =>
    let s := (s.slotDescs k (fun _ => true)).foldl
      (fun (s : State) e => s.cutOff e.1 (cpl ST_KEY_RETIRED SEC_DEBUG) s.tick.now) s
    (s.beginZeroise k).endZeroise k) s
  let s := s.sec.conf.foldl (fun (s : State) e => s.endConf e.1) s
  s.setSec (fun x => { x with modelKeys := x.modelKeys.mapV (fun _ m => { m with live := false, key := [] }), bounce := [] })

/-- DEBUG_INSTRUCTION: as BYPASS where the fuse is blown. Otherwise the first since cold reset opens debug; what a debug
instruction reads out the specification does not say. -/
def execDebugInstruction (code tdi count : Nat) (s : State) : Host.Outcome State Fault Refusal :=
  .next (if s.sec.fuses.getLsbD 0 then s.shiftBypass tdi count
    else
      let s := if s.sec.fuses.getLsbD 8 then s else s.openDebug
      let (x, s) := s.draw
      (s.setSec (fun y => { y with tapInstr := TAP_DEBUG + code, extest := false })).emit (.tdo (x % 2 ^ count) count))

end Sys2Proof.Machine
end

