-- ==== Sys2Proof/Machine/BounceRows.lean ====
section
/-! DEFINITION. Bounce frames of confidential hosts: BOUNCE_IN and BOUNCE_OUT (R587 to R589). -/

namespace Sys2Proof.Machine

def bnHost (d : DescBits) : Nat := dfield d 16 8
def bnVa (d : DescBits) : Nat := dfield d 24 8
def bnLen (d : DescBits) : Nat := dfield d 32 8

/-- Frames of a transfer, and the bytes that frame `i` carries (R588). -/
def bnFrames (d : DescBits) : Nat := ceilDiv (bnLen d) 4096
def bnBytes (d : DescBits) (i : Nat) : Nat := min 4096 (bnLen d - 4096 * i)

/-- The port is confidential for the descriptor's key slot. -/
def State.bounceServed (s : State) (d : Desc) : Bool :=
  match s.srcPort d.src with
  | some p => s.sec.conf.find p == some (dKeySlot d.bits)
  | none => false

/-- Checks on arrival (R588). -/
def bounceCheck (d : Desc) (s : State) : Option Cpl :=
  if s.bounceServed d = false then some (cpl ST_PERMISSION SEC_NOT_CONF)
  else if bnLen d.bits = 0 ∨ 2 ^ 32 < bnLen d.bits ∨ bnHost d.bits % 64 ≠ 0 then some (cpl ST_REFUSED_FIT SEC_OPERAND)
  else none

/-- R589. -/
def bounceCost (d : Desc) (_ : State) : Cost := { stk := round64 (bnLen d.bits) }

/-- The header of a frame, with no tag (Table 19-14). -/
def frameHeader (dir len seq key off : Nat) : List Byte :=
  leBytes 48 (0xB0F1 + at_ 16 dir + at_ 32 len + at_ 64 seq + at_ 128 key + at_ 160 off)

/-- IV of a frame (R587). -/
def frameIv (dir port seq : Nat) : List Byte := leBytes 12 (dir + at_ 8 port + at_ 32 seq)

/-- A frame of the host, opened: its SEQ and its payload, when every test of R589 passes. -/
def openFrame (b : BouncePort) (port key i len : Nat) (frame : List Byte) : Option (Nat × List Byte) :=
  let f := fun o n => leNat ((frame.drop o).take n)
  let seq := f 8 8
  if f 0 2 = 0xB0F1 ∧ f 2 1 = 1 ∧ f 4 4 = len ∧ f 20 8 = 4096 * i ∧ f 16 4 = key ∧ b.last < seq then
    (Config.gcmOpen b.key (frameIv 1 port seq) (frame.take 48) ((frame.drop 64).take len ++ (frame.drop 48).take 16)).map
      (fun l => (seq, l))
  else none

/-- A frame for the host: header, tag, ciphertext, pad. -/
def sealFrame (key : List Byte) (port keyField i seq : Nat) (bytes : List Byte) : List Byte :=
  let h := frameHeader 2 bytes.length seq keyField (4096 * i)
  let c := Config.gcmSeal key (frameIv 2 port seq) h bytes
  h ++ (c.drop bytes.length).take 16 ++ c.take bytes.length ++ zeros (round64 bytes.length - bytes.length)

def bounceTiles (access : Nat) (d : Desc) (_ : State) : List (List Need) :=
  (List.range (bnFrames d.bits)).map (fun i => [⟨bnVa d.bits + 4096 * i, bnBytes d.bits i, access, false⟩])

/-- The port is no longer confidential for the slot (R590), or the writes may credit no such counter (R114). -/
def bounceStops (credits : Bool) (d : Desc) (s : State) : Option Cpl :=
  if s.bounceServed d = false then
    some { status := ST_KEY_RETIRED, reason := SEC_RETIRING, dropped := bnFrames d.bits }
  else if credits && s.creditBarred d then some { status := ST_PERMISSION, reason := CTR_SLICE, dropped := bnFrames d.bits }
  else none

/-- Tiles before the first that lies in host memory: bounce data moves to and from DEVICE outputs only (R588). -/
def deviceTiles (done : List (List (List Seg))) (stop : Option Cpl) : List (List (List Seg)) × Option Cpl :=
  let ok := done.takeWhile (fun t => !(t.flatten.any (fun x => x.host)))
  if ok.length = done.length then (done, stop) else (ok, some (cpl ST_REFUSED_FIT SEC_OPERAND))

/-- An earlier BOUNCE_IN of the port is admitted and has not run (R589). -/
def State.bounceWaits (s : State) (tok port : Nat) (d : Desc) : Bool :=
  s.rings.descs.any (fun t e => t != tok && dOpcode e.bits == 0xA1 && (e.phase == .admitted || e.phase == .running)
    && decide (e.admitSeq < d.admitSeq) && s.srcPort e.src == some port)

/-- The frames of a BOUNCE_IN in order, up to the first that fails: frames written. -/
def State.takeFrames (s : State) (tok port : Nat) (d : Desc) :
    Nat → List (List (List Seg)) → List (List Byte) → State × Nat × Bool
  | i, t :: ts, f :: fs =>
    match openFrame (s.sec.bounce.get { key := [] } port) port (dfield d.bits 12 4) i (bnBytes d.bits i) f with
    | none => (s, i, true)
    | some (seq, l) =>
      let s := State.writeSegs tok d (descCredit d) (t.headD []) l s
      let s := s.setSec (fun x => { x with bounce := x.bounce.upd port (fun b => { b with last := seq }) })
      s.takeFrames tok port d (i + 1) ts fs
  | i, _, _ => (s, i, false)

/-- BOUNCE_IN: `ext` holds the frames read from host memory. -/
def execBounceIn (tok : Nat) (ext : List Byte) (s : State) : Host.Outcome State Fault Refusal :=
  .next (match s.desc tok with
    | none => s
    | some d =>
      let port := (s.srcPort d.src).getD 0
      if s.bounceWaits tok port d then s
      else s.runTiles tok 0xA1 (bounceStops true) (bounceTiles 2) (fun d done stop s =>
        let n := bnFrames d.bits
        let (tiles, stop) := deviceTiles done stop
        let frames := (List.range n).map (fun i => (ext.drop (4160 * i)).take 4160)
        let (s, k, failed) := s.takeFrames tok port d 0 tiles frames
        let bytes := ((List.range k).map (bnBytes d.bits)).foldl (· + ·) 0
        let c := if failed then cpl ST_PERMISSION SEC_BOUNCE_AUTH else stop.getD {}
        (s, some { c with done := k, dropped := n - k, result := bytes })))

/-- The frames of a BOUNCE_OUT in order, up to the first whose data is poisoned. -/
def State.giveFrames (s : State) (port first : Nat) (key : List Byte) (d : Desc) :
    Nat → List (List (List Seg)) → State × Nat × Bool
  | i, t :: ts =>
    match State.readSegs d (t.headD []) [] s with
    | (s, _, true, _) => (s, i, true)
    | (s, l, false, _) =>
      let f := sealFrame key port (dfield d.bits 12 4) i (first + i) l
      ((s.emit (.hostWrite port (bnHost d.bits + 4160 * i) f)).notePosted d.src port).giveFrames port first key d (i + 1) ts
  | i, [] => (s, i, false)

/-- BOUNCE_OUT. -/
def execBounceOut (tok : Nat) (s : State) : Host.Outcome State Fault Refusal :=
  .next (s.runTiles tok 0xA2 (bounceStops false) (bounceTiles 1) (fun d done stop s =>
    let n := bnFrames d.bits
    let (tiles, stop) := deviceTiles done stop
    let port := (s.srcPort d.src).getD 0
    let b := s.sec.bounce.get { key := [] } port
    let s := s.setSec (fun x => { x with bounce := x.bounce.put port { b with next := b.next + n } })
    let (s, k, poison) := s.giveFrames port b.next b.key d 0 tiles
    let c := if poison then cpl ST_POISONED 0 else stop.getD {}
    (s, some { c with done := k, dropped := n - k, result := b.next })))

end Sys2Proof.Machine
end

