-- ==== Sys2Proof/Machine/Flr.lean ====
section
/-! DEFINITION. Function-level reset of a host port, and host links that come up and go down (R636, R639, R640). -/

namespace Sys2Proof.Machine

/-- A descriptor ends without a completion (R639): one that runs stops under R515, and goes when it has finished. -/
def State.discardDesc (s : State) (tok : Nat) : State :=
  match s.desc tok with
  | none => s
  | some d =>
    let s := { s with host := { s.host with shr := s.host.shr.mapV (fun _ (x : SharedRange) =>
      { x with publish := x.publish.filter (fun t => t != tok), discard := x.discard.filter (fun t => t != tok) }) } }
    let s := if d.phase = .running then s.stopWork tok (cpl ST_ABORTED 0) else (s.forgetWork tok).forgetLoad tok
    match s.desc tok with
    | none => s
    | some d => if d.finished || d.phase != .running then s.dropDesc tok else s.setDesc tok { d with gone := true }

/-- Every descriptor of some sources ends without a completion. -/
def State.discardOf (s : State) (mine : Src → Bool) : State :=
  (s.rings.descs.filter (fun e => mine e.2.src)).foldl (fun (s : State) e => s.discardDesc e.1) s

/-- The source is a ring pair of host port `p`. -/
def State.onPort (s : State) (p : Nat) : Src → Bool
  | .ring n => rgPort (s.ring n).record == p
  | .subq _ => false

/-- Steps 1 and 2 of R640: the port's pairs become DISABLED and keep their records, their descriptors end. -/
def State.dropPairs (s : State) (p : Nat) : State :=
  let s := s.discardOf (s.onPort p)
  { s with rings := { s.rings with rings := s.rings.rings.mapV (fun _ r =>
      if rgPort r.record = p then { r with state := .disabled, modArmed := false } else r) } }

/-- Step 3: assist records bound for the port are dropped, and what contexts of the port asked for fails. -/
def State.dropAssists (s : State) (p : Nat) : State :=
  let recs := s.rings.assist.filter (fun a => a.port == p)
  let s := { s with rings := { s.rings with assist := s.rings.assist.filter (fun a => a.port != p) } }
  let s := recs.foldl (fun (s : State) _ => s.dropAssist p) s
  (s.xlt.assist.filter (fun e => xcPortValid (s.context e.2.ctx) && xcPort (s.context e.2.ctx) == p)).foldl
    (fun (s : State) e =>
      ({ s with xlt := { s.xlt with assist := s.xlt.assist.del e.1 } }).fillFail e.2 XL_ASSIST_FAIL) s

/-- Step 5: the versions that port `p` holds are released; the next boundary frees them (R210). -/
def State.dropVersions (s : State) (p : Nat) : State :=
  { s with host := { s.host with shr := s.host.shr.mapV (fun _ (x : SharedRange) =>
      { x with slots := x.slots.mapV (fun _ sl =>
          if sl.holders.testBit p then { sl with holders := othersOf sl.holders p } else sl) }) } }

/-- Step 6: the guard and the mailbox of path `p` are as after reset, and the port's MSI-X entries are masked. -/
def State.resetPath (s : State) (p : Nat) : State :=
  { s with regs := { s.regs with
      guards := s.regs.guards.del p
      mbx := s.regs.mbx.del p
      msix := s.regs.msix.mapV (fun k e => if k / 1024 = p then (e.1, e.2.1, true) else e) } }

/-- A function-level reset of host port `p` (R640); one that is in progress takes another in (R637). -/
def State.fnReset (s : State) (p : Nat) : State :=
  if s.boot.fnReset.contains p then s
  else
    let s := { s with boot := { s.boot with fnReset := s.boot.fnReset ++ [p] } }
    let s := s.setEvt F.IDN_RESET_CAUSE_FUNCTION
    ((((s.dropPairs p).dropAssists p).endConf p).dropVersions p).resetPath p

/-- FN_RESET_DONE: no descriptor of the port's pairs is left. -/
def execFnResetDone (port : Nat) (s : State) : Host.Outcome State Fault Refusal :=
  .next (if !s.boot.fnReset.contains port then s
    else
      let s := (s.rings.descs.filter (fun e => s.onPort port e.2.src && e.2.gone && e.2.finished)).foldl
        (fun (s : State) e => s.dropDesc e.1) s
      if s.rings.descs.any (fun _ d => s.onPort port d.src && d.gone) then s
      else
        ({ s with boot := { s.boot with fnReset := s.boot.fnReset.filter (fun p => p != port) } }).setEvt
          F.IDN_EVT_FN_RESET_DONE)

/-- A write of IDN_FN_RESET in force. -/
def effFnReset : RegEffect := fun v s =>
  let p := bitsOf v 0 3
  let s := s.setFld F.IDN_FN_RESET_PORT p
  (if bitOf v 8 then s.fnReset p else s, none)

/-- IDN_FN_RESET. -/
def execIdnFnReset (path : Nat) (value : Word) (cycle : Nat) (s : State) : Host.Outcome State Fault Refusal :=
  .next (s.guardPair path Reg.IDN_FN_RESET value cycle (fun v => bitOf v 8) effFnReset)

/-- PCIE_FUNCTION_LEVEL_RESET. -/
def execPcieFunctionLevelReset (port : Nat) (s : State) : Host.Outcome State Fault Refusal := .next (s.fnReset port)

/-! ## Host links (R180, R661) -/

/-- A port's link takes this rate and width; a link that goes down is a function-level reset of the port. -/
def State.linkChange (s : State) (p rate width : Nat) : State :=
  let h := s.hport p
  let up := rate != 0 && width != 0
  let s := s.setHport p { h with up := up, rate := rate, width := width }
  let s := (s.setEvt F.HIF_EVT_LINK_CHANGE).event 0 (locHostPort p) (rate + at_ 8 width)
  if h.up && !up then s.fnReset p else s

def State.linkDown (s : State) (p : Nat) : State := if (s.hport p).up then s.linkChange p 0 0 else s

/-- HOST_LINK_CHANGE (R180): RATE as HIF_PORT_STAT codes it, and lanes. -/
def execHostLinkChange (port rate width : Nat) (s : State) : Host.Outcome State Fault Refusal :=
  .next (s.linkChange port rate width)

/-- PERST_ASSERT (R661). -/
def execPerstAssert (port : Nat) (s : State) : Host.Outcome State Fault Refusal := .next (s.linkDown port)

end Sys2Proof.Machine
end

