-- ==== Sys2Proof/Machine/PowerRows.lean ====
section
/-! DEFINITION. Stack controllers, power, islands and region SRAM splits (chapter 18; R248 to R250). -/

namespace Sys2Proof.Machine

/-! ## Stacks (R551, Table 20-1) -/

def State.setStk (s : State) (f : StkState → StkState) : State := { s with stk := f s.stk }
def State.dchan (s : State) (c : Nat) : ChanState := s.stk.chans.get {} c
def State.setDchan (s : State) (c : Nat) (x : ChanState) : State := s.setStk (fun k => { k with chans := k.chans.put c x })

/-- Location code of global DRAM channel `c`. -/
def locDram (c : Nat) : Nat := at_ 24 (0x10 + c / 16) + 0xFF0000 + at_ 8 (c % 16) + 0xFF

/-- The channel serves memory: trained, not retired, on a stack and an engine die that are not lost. -/
def State.dchanIn (s : State) (c : Nat) : Bool :=
  (s.dchan c).trained && !(s.dchan c).retired && !s.mem.lost.contains c

/-- A temperature reading of a stack: its refresh is doubled above 85 °C, and no longer at 85 °C or below. -/
def State.stackTemp (s : State) (k c : Nat) : State :=
  let x := s.stk.stackTab.get {} k
  let s := s.setStk (fun e => { e with stackTab := e.stackTab.put k { x with tempC := c, hot := decide (85 < c) } })
  if 85 < c && !x.hot then s.setEvt F.STK_EVT_TEMP_HIGH else s

/-- STACK_HOT (R551). -/
def execStackHot (stack tempC : Nat) (s : State) : Host.Outcome State Fault Refusal :=
  .next (if stack < 12 ∧ 85 < tempC then s.stackTemp stack tempC else s)

/-- HOT_REFRESH_CLEAR (R551). -/
def execHotRefreshClear (stack tempC : Nat) (s : State) : Host.Outcome State Fault Refusal :=
  .next (if stack < 12 ∧ tempC ≤ 85 then s.stackTemp stack tempC else s)

/-- R599: predictive actions are the device's own only in on-device fault triage. -/
def State.triages (s : State) : Bool := !s.assisted 8

/-- A row is to be spared at step 2 of the next boundary (Table 20-4, rows 4 and 5). -/
def State.rowDue (s : State) (c row : Nat) : State :=
  if s.stk.rowDue.contains (c, row) then s else s.setStk (fun k => { k with rowDue := k.rowDue ++ [(c, row)] })

/-- 24 hours, in ns. -/
def dayNs : Nat := 86400 * 10 ^ 9

/-- A corrected error: rule 5 of Table 20-4 counts four at one row within 24 hours. -/
def State.eccCorrected (s : State) (c row ns : Nat) : State :=
  let s := s.setDchan c { s.dchan c with corrected := (s.dchan c).corrected + 1 }
  let s := s.setEvt F.STK_EVT_CORRECTED
  let l := (c, row, ns) :: s.stk.rowErrors.filter (fun e => decide (ns < e.2.2 + dayNs))
  let s := s.setStk (fun k => { k with rowErrors := l })
  if (l.filter (fun e => e.1 == c && e.2.1 == row)).length < 4 then s
  else
    let s := s.setStk (fun k => { k with rowErrors := l.filter (fun e => !(e.1 == c && e.2.1 == row)) })
    if s.triages then s.rowDue c row
    else s.queueFault { cls := 0x22, location := locDram c, detail := 5 }

/-- R611: a line of a redundancy role that is poisoned is listed for rebuilding; beyond 65,536 lines the extent is built
anew. -/
def State.listPoison (s : State) (line : Nat) : State :=
  let ext := 64 * line / extentSize
  if s.pg.poisonList.contains line then s
  else if s.pg.poisonList.length < 65536 then { s with pg := { s.pg with poisonList := s.pg.poisonList ++ [line] } }
  else
    let e := putBits (putBits (s.pg.committed.get 0 ext) 2 2 PG_BUILDING) 200 19 0
    { s with pg := { s.pg with committed := s.pg.committed.put ext e } }

/-- An uncorrectable error in a line (Table 20-1, R611): a data role of a group in state NORMAL rebuilds it, a redundancy
role lists it, any other line is marked poisoned and reported. -/
def State.eccUncorrectable (s : State) (c : Nat) (x : EccError) : State :=
  let s := s.setDchan c { s.dchan c with uncorrectable := (s.dchan c).uncorrectable + 1 }
  let s := s.setEvt F.STK_EVT_UNCORRECTABLE
  let e := s.pgAt (64 * x.line)
  let s := if dataRole e && pgState e == PG_NORMAL && !s.isPoisoned x.line then
      if s.pg.repair.contains x.line then s
      else ({ s with pg := { s.pg with repair := s.pg.repair ++ [x.line] } }).startGather x.line
    else if redundancyRole e then (s.poisonLine x.line).listPoison x.line
    else (s.markPoison .none x.line).queueFault
      { cls := 0x10, location := locDram c, addr := 64 * x.line, detail := 1 }
  if x.again then s.rowDue c x.row else s

/-- One error that patrol scrub finds. -/
def State.eccFound (c ns : Nat) (s : State) (x : EccError) : State :=
  let h := homeOf (64 * x.line)
  if 16 * h.stack + h.channel ≠ c ∨ dramEnd ≤ 64 * x.line then s
  else
    let s := s.setStk (fun k => { k with lastError := (64 * x.line, 3, locDram c, s.tick.now % 2 ^ 32) })
    if x.corrected then s.eccCorrected c x.row ns else s.eccUncorrectable c x

/-- PATROL_SCRUB (R551): a pass of patrol scrub over a channel in service, and the errors it finds. -/
def execPatrolScrub (channel ns : Nat) (found : List EccError) (s : State) : Host.Outcome State Fault Refusal :=
  .next (if channel < 192 ∧ s.dchanIn channel = true then
      let s := found.foldl (State.eccFound channel ns) s
      s.setDchan channel { s.dchan channel with scrubPasses := (s.dchan channel).scrubPasses + 1 }
    else s)

/-- A channel is retired (R601): its lines are lost. -/
def State.retireChannel (s : State) (c : Nat) : State :=
  if (s.dchan c).retired then s
  else
    let s := s.setDchan c { s.dchan c with retired := true }
    let s := if s.mem.lost.contains c then s else { s with mem := { s.mem with lost := c :: s.mem.lost } }
    let s := s.setEvt F.STK_EVT_CHANNEL_RETIRED
    let left := ((List.range 16).filter (fun i => s.dchanIn (c / 16 * 16 + i))).length
    s.queueFault { cls := 0x21, location := locDram c, detail := left }

/-- A row is spared, or its channel retired where no spare row is left (Table 20-4, rows 4 to 6). -/
def State.spareRow (s : State) (e : Nat × Nat) : State :=
  let (c, row) := e
  let x := s.dchan c
  if x.retired then s
  else if x.spareRows = 0 then s.retireChannel c
  else
    let s := s.setDchan c { x with spareRows := x.spareRows - 1, rowsSpared := x.rowsSpared + 1 }
    let s := s.setStk (fun k => { k with rowErrors := k.rowErrors.filter (fun e => !(e.1 == c && e.2.1 == row)) })
    (s.setEvt F.STK_EVT_ROW_SPARED).queueFault { cls := 0x20, location := locDram c, detail := locDram c }

/-! ## The power cap and temperature (R552 to R554) -/

/-- The sum over all slices of the largest value of `f` over the plans held by each. -/
def State.planSum (s : State) (f : Plan → Nat) : Nat :=
  ((s.tick.plans.map (fun e => ((s.heldPlans e.1).map f).foldl Nat.max 0))).foldl (· + ·) 0

/-- R553: the plans in force fit under a cap of `w` watts. -/
def State.capCovers (s : State) (w : Nat) : Bool :=
  let c := (w - s.fld F.PWR_FLOOR_FLOOR_W) * s.period
  decide (s.planSum (fun p => p.largest.pwr) ≤ c)
    && decide (s.planSum (fun p => p.lull.pwr) ≤ c * (100 - s.fld F.TIK_LULL_MAINT_PCT) / 100)

/-- PWR_CAP: checked now, applied at step 7 of the next boundary. -/
def effPwrCap : RegEffect := fun v s =>
  let w := bitsOf v 0 12
  if w < 100 ∨ 2900 < w then (s, some REG_VALUE)
  else if !s.capCovers w then (s, some REG_STATE)
  else ({ s with tick := { s.tick with capPending := some (writeWord Reg.PWR_CAP 0 v) } }, none)

def execPwrCapWrite (path : Nat) (value : Word) (cycle : Nat) (s : State) : Host.Outcome State Fault Refusal :=
  .next (s.guardPair path Reg.PWR_CAP value cycle (fun _ => true) effPwrCap)

/-- PWR_THERM (R552). -/
def effPwrTherm : RegEffect := fun v s =>
  let hot := bitsOf v 8 8
  let hyst := bitsOf v 16 8
  let step := bitsOf v 0 8
  if hot < 85 ∨ 104 < hot ∨ hyst < 1 ∨ 20 < hyst ∨ step < 1 ∨ 50 < step then (s, some REG_VALUE)
  else (s.setWord Reg.PWR_THERM (writeWord Reg.PWR_THERM (s.word Reg.PWR_THERM) v), none)

def execPwrThermWrite (path : Nat) (value : Word) (cycle : Nat) (s : State) : Host.Outcome State Fault Refusal :=
  .next (s.guardPair path Reg.PWR_THERM value cycle (fun _ => true) effPwrTherm)

/-! Output lands (`Out.pin`). -/
def PIN_TICK_OUT : Nat := 0
def PIN_THERMTRIP_N : Nat := 1
def PIN_PWR_ALERT_N : Nat := 2
def PIN_TDO : Nat := 3

/-- R554 step 1: a pending cap is applied. -/
def State.applyCap (s : State) : State :=
  match s.tick.capPending with
  | none => s
  | some w =>
    let s := { s with tick := { s.tick with capPending := none } }
    let s := s.setWord Reg.PWR_CAP w
    let cap := s.fld F.PWR_CAP_CAP_W
    let eff := if s.flag F.PWR_EFF_REDUCED then min (s.fld F.PWR_EFF_EFF_W) cap else cap
    (s.setFld F.PWR_EFF_EFF_W eff).setEvt F.PWR_EVT_CAP_APPLIED

/-- R554 steps 2 to 4, over what was measured; R661: PWR_ALERT_N follows REDUCED. -/
def State.thermalStep (s : State) (env : BoundaryEnv) : State :=
  let s := s.setFld F.PWR_FLOOR_FLOOR_W env.floorW
  let s := s.setFld F.PWR_TEMP_TJ_Q8 env.tjQ8
  let s := s.setFld F.PWR_TEMP_HOT_DIE env.hotDie
  let s := s.setFld F.PWR_LAST_LAST_W env.lastW
  let s := s.setStk (fun k => { k with energyMJ := k.energyMJ + env.energyMJ })
  let old := s.fld F.PWR_EFF_EFF_W
  let cap := s.fld F.PWR_CAP_CAP_W
  let step := 10 * s.fld F.PWR_THERM_STEP_10W
  let hot := s.fld F.PWR_THERM_HOT_C
  let new := if 8 * hot ≤ env.tjQ8 then max (s.fld F.PWR_FLOOR_FLOOR_W) (old - step)
    else if env.tjQ8 ≤ 8 * (hot - s.fld F.PWR_THERM_HYST_C) then min cap (old + step) else old
  let was := s.flag F.PWR_EFF_REDUCED
  let red := decide (new < cap)
  let s := s.setFld F.PWR_EFF_EFF_W new
  let s := s.setFld F.PWR_EFF_REDUCED (boolNat red)
  let s := if (red && !was) || decide (new < old) then s.setEvt F.PWR_EVT_THERM_REDUCED else s
  let s := if was && !red then s.setEvt F.PWR_EVT_THERM_RESTORED else s
  let s := if was != red then s.emit (.pin PIN_PWR_ALERT_N (!red)) else s
  (List.range (min 12 env.stackC.length)).foldl (fun (s : State) k => s.stackTemp k (env.stackC.getD k 0)) s

/-- LATENESS, METERS and the rest of step 7 stand in the boundary; this is its power part (R554). -/
def State.powerControl (s : State) (env : BoundaryEnv) : State :=
  let s := (s.applyCap).thermalStep env
  if s.flag F.PWR_EFF_REDUCED then s.setStk (fun k => { k with reducedTicks := k.reducedTicks + 1 }) else s

/-- POWER_SAMPLE_TIMER (R554): while no boundary passes, steps 2 to 4 run every 1 ms. -/
def execPowerSampleTimer (env : BoundaryEnv) (s : State) : Host.Outcome State Fault Refusal :=
  .next (if s.tick.sync = .stopped ∨ s.tick.ticking = false then s.thermalStep env else s)

/-! ## Islands (R20, R556) -/

/-- The bits of region h's clusters in a slice's masks. -/
def islandMtx (h : Nat) : List Nat := (List.range 4).map (fun c => 16 * (h % 6) + 4 * (h / 6) + c)
def islandEmb (h : Nat) : List Nat := (List.range 2).map (fun c => 8 * (h % 6) + 2 * (h / 6) + c)

/-- R20: no slice holds a cluster of the region, and none of its SRAM has a use. -/
def State.islandIdle (s : State) (h : Nat) : Bool :=
  (List.range 64).all (fun n => (s.sliceViews n).all (fun d =>
    (islandMtx h).all (fun k => !(sliceMtx d).testBit k) && (islandEmb h).all (fun k => !(sliceEmb d).testBit k)))
  && (s.split h).tier == 0 && (s.split h).rcache == 0 && (s.split h).kvhot == 0 && (s.split h).scratch == 0

/-- PWR_ISLAND_REQ, written at MCLK time `ns`. -/
def effIslandReq (ns : Nat) : RegEffect := fun v s =>
  let old := s.fld F.PWR_ISLAND_REQ_ON
  let new := bitsOf v 0 24
  let stat := s.fld F.PWR_ISLAND_STAT_ON
  let off := (List.range 24).filter (fun h => old.testBit h && !new.testBit h && stat.testBit h)
  if off.all s.islandIdle then
    let on := (List.range 24).filter (fun h => new.testBit h && !stat.testBit h)
    let keep := s.tick.islandOn.filter (fun e => on.contains e.1)
    let fresh := (on.filter (fun h => !keep.any (fun e => e.1 == h))).map (fun h => (h, ns))
    let s := s.setFld F.PWR_ISLAND_REQ_ON new
    ({ s with tick := { s.tick with islandOn := keep ++ fresh } }, none)
  else (s, some REG_STATE)

def execPwrIslandReqWrite (path : Nat) (value : Word) (cycle : Nat) (s : State) : Host.Outcome State Fault Refusal :=
  .next (s.plainWrite path Reg.PWR_ISLAND_REQ value (effIslandReq cycle))

/-- An island switches. -/
def State.switchIsland (s : State) (h v : Nat) : State :=
  let s := s.setFld F.PWR_ISLAND_STAT_ON (maskOf (((List.range 24).filter (fun k => k != h &&
    (s.fld F.PWR_ISLAND_STAT_ON).testBit k)) ++ (if v = 1 then [h] else [])))
  (s.setStk (fun k => { k with islandSwitches := k.islandSwitches + 1 })).setEvt F.PWR_EVT_ISLAND_CHANGED

/-- R556 at step 7, after every other change of it: requests to switch off are checked again, islands powered for 40 µs
come on. -/
def State.islandStep (s : State) (ns : Nat) : State :=
  (List.range 24).foldl (fun (s : State) h =>
    let req := (s.fld F.PWR_ISLAND_REQ_ON).testBit h
    let stat := (s.fld F.PWR_ISLAND_STAT_ON).testBit h
    if !req && stat then
      if s.islandIdle h then s.switchIsland h 0
      else (s.setFld F.PWR_ISLAND_REQ_ON (s.fld F.PWR_ISLAND_REQ_ON + 2 ^ h)).setEvt F.PWR_EVT_ISLAND_CANCELLED
    else if req && !stat then
      match s.tick.islandOn.find? (fun e => e.1 == h) with
      | some e =>
        if e.2 + 40000 ≤ ns then
          ({ s with tick := { s.tick with islandOn := s.tick.islandOn.filter (fun x => x.1 != h) } }).switchIsland h 1
        else s
      | none => s
    else s) s

/-! ## Region SRAM splits (R249, R250) -/

def splitSum (x : Split) : Nat := x.tier + x.rcache + x.kvhot + x.scratch

/-- TIR_SPLIT: checked now against the region selected, applied at step 7 of the next boundary. -/
def effTirSplit : RegEffect := fun v s =>
  let h := s.fld F.TIR_REGION_SEL_REGION
  let x : Split := { tier := bitsOf v 24 8, rcache := bitsOf v 16 8, kvhot := bitsOf v 8 8, scratch := bitsOf v 0 8 }
  let fail := if 128 < splitSum x then some SPLIT_SUM
    else if x.scratch < ceilDiv (s.scratchUsed h) 1024 then some SPLIT_SCRATCH
    else if s.tier.splitPending.has h then some SPLIT_BUSY
    else if splitSum x ≠ 0 ∧ (s.fld F.PWR_ISLAND_STAT_ON).testBit h = false then some SPLIT_ISLAND
    else none
  match fail with
  | some r => (((s.setFld F.TIR_ERR_REASON r).setFld F.TIR_ERR_REGION h).setEvt F.TIR_EVT_SPLIT_REFUSED, some REG_STATE)
  | none => (s.setTier (fun t => { t with splitPending := t.splitPending.put h x }), none)

/-- TIR_SPLIT_WRITE. -/
def execTirSplitWrite (path : Nat) (value : Word) (cycle : Nat) (s : State) : Host.Outcome State Fault Refusal :=
  .next (s.guardPair path Reg.TIR_SPLIT value cycle (fun _ => true) effTirSplit)

/-- Hot copies in region `h` are dropped as blocks leave that use (R250, R470). -/
def State.kvHotShrink (s : State) (h blocks : Nat) : State :=
  if s.hotUsed h ≤ blocks * 2 ^ 20 then s
  else s.setKv (fun k => { k with allocs := k.allocs.mapV (fun _ (a : KvAlloc) =>
    { a with copies := a.copies.keep (fun _ r => r != h) }) })

/-- One accepted split takes effect: blocks leaving a use are drained. -/
def State.applySplit (s : State) (h : Nat) (x : Split) : State :=
  let s := s.setTier (fun t => { t with split := t.split.put h x, splitPending := t.splitPending.del h })
  let s := s.drainTier h (256 * x.tier)
  let s := s.rcShrink h x.rcache
  (s.kvHotShrink h x.kvhot).setEvt F.TIR_EVT_SPLIT_APPLIED

def State.splitStep (s : State) : State :=
  s.tier.splitPending.foldl (fun (s : State) e => s.applySplit e.1 e.2) s

end Sys2Proof.Machine
end

