-- ==== Sys2Proof/Machine/RasOps.lean ====
section
/-! DEFINITION. Spares and retirement, the loss of a die, device swap and the lateness of ticks: what they do to the device
(R15, R16, R32, R599 to R602, R615 to R619). -/

namespace Sys2Proof.Machine

def State.setUnits (s : State) (f : UnitsState → UnitsState) : State := { s with units := f s.units }
def State.setRas (s : State) (f : RasState → RasState) : State := { s with ras := f s.ras }

/-! ## Parts of Table 20-4, by location code (Table 1-6) -/

/-- A part that can be spared or retired. -/
inductive Part where
  /-- unit key (`UnitsState`), whether it is a codec lane group -/
  | unit (key : Nat)
  | lanes (key : Nat)
  | dram (c : Nat)
  | sram (h : Nat)
  | pair (p : Nat)
  | fabric (port lane : Nat)
  | flash (c : Nat)
  deriving DecidableEq, Repr

/-- The part that a location code names; none where it is invalid or names no part of Table 20-4. -/
def partOf (loc : Nat) : Option Part :=
  let die := loc / 2 ^ 24
  let region := loc / 2 ^ 20 % 16
  let cluster := loc / 2 ^ 16 % 16
  let unit := loc / 2 ^ 8 % 256
  let key := loc / 256 * 256
  if 2 ^ 32 ≤ loc then none
  else if die ≤ 5 then
    if 4 ≤ region then none
    else if cluster = 15 ∧ unit = 255 then some (.sram (die + 6 * region))
    else if cluster ≤ 3 ∧ unit ≤ 8 then some (.unit key)
    else if (cluster = 4 ∨ cluster = 5) ∧ unit ≤ 3 then some (.unit key)
    else if cluster = 6 ∧ unit ≤ 4 then some (.lanes key)
    else none
  else if 0x10 ≤ die ∧ die ≤ 0x1B ∧ unit ≤ 15 then some (.dram (16 * (die - 0x10) + unit))
  else if 0x20 ≤ die ∧ die ≤ 0x23 ∧ unit / 8 = die - 0x20 ∧ loc % 256 < 8 then some (.fabric unit (loc % 256))
  else if 0x30 ≤ die ∧ die ≤ 0x33 ∧ unit ≤ 15 then some (.flash (16 * (die - 0x30) + unit))
  else if die = 0x50 ∧ unit ≤ 15 then some (.pair (unit / 2))
  else none

/-- A part is to be spared or retired at step 2 of the next boundary. -/
def State.dueLoc (s : State) (loc : Nat) : State :=
  if s.units.due.contains loc then s else s.setUnits (fun u => { u with due := u.due ++ [loc] })

/-- Die, region and cluster of a unit key. -/
def keyDie (key : Nat) : Nat := key / 2 ^ 24
def keyRegion (key : Nat) : Nat := key / 2 ^ 20 % 16
def keyCluster (key : Nat) : Nat := key / 2 ^ 16 % 16
def keyUnit (key : Nat) : Nat := key / 2 ^ 8 % 256
/-- The cluster as `UnitsState.leftService` numbers it. -/
def keyHolder (key : Nat) : Nat := keyDie key * 256 + keyRegion key * 16 + keyCluster key

/-- A unit's record: it runs in its reset slot until a spare takes its place (Table 1-5). -/
def State.unitOf (s : State) (key : Nat) : UnitState := s.units.units.get { slot := keyUnit key } key
def State.setUnit (s : State) (key : Nat) (u : UnitState) : State :=
  s.setUnits (fun x => { x with units := x.units.put key u })

/-- Location code of a unit where it runs now. -/
def State.locOf (s : State) (key : Nat) : Nat :=
  key + (if keyUnit key = 8 ∧ keyCluster key ≤ 3 then 0xFF else (s.unitOf key).slot)

/-! ## Sparing (R15, R16) -/

/-- A cluster leaves service as a whole (R16): runs on it stop; updates on an embedding cluster move (R669). -/
def State.leaveService (s : State) (key : Nat) : State :=
  let c := keyHolder key
  if s.units.leftService.contains c then s
  else
    let s := s.setUnits (fun u => { u with leftService := u.leftService ++ [c] })
    let s := if keyCluster key ≤ 3 then s.loseCluster (16 * keyDie key + 4 * keyRegion key + keyCluster key)
      else if keyCluster key ≤ 5 ∧ s.emb.updates ≠ [] then s.setEvt F.EMB_UPD_EVT_CLUSTER_MOVED else s
    s.queueFault { cls := 0x21, location := s.locOf key, detail := 0 }

/-- The failed unit's cluster has its spare left: it takes the unit's place. -/
def State.spareUnit (s : State) (key : Nat) : State :=
  let c := keyHolder key
  let spare := if keyCluster key ≤ 3 then 8 else 4
  if s.units.leftService.contains c then s
  else if s.units.spared.contains c ∨ (keyUnit key = 8 ∧ keyCluster key ≤ 3) then s.leaveService key
  else
    let old := s.locOf key
    let u := s.unitOf key
    let s := s.setUnit key { u with slot := spare, failed := false, intermittent := [] }
    let s := s.setUnits (fun x => { x with spared := x.spared ++ [c] })
    s.queueFault { cls := 0x20, location := old, detail := key + spare }

/-- A lane of a codec lane group: its spare lane, or the codec cluster leaves service. -/
def State.spareLane (s : State) (key : Nat) : State :=
  if s.units.leftService.contains (keyHolder key) then s
  else if s.units.laneSpared.contains key then s.leaveService key
  else
    let s := s.setUnits (fun x => { x with laneSpared := x.laneSpared ++ [key] })
    s.queueFault { cls := 0x20, location := key + 0xFF, detail := key + 16 }

/-- A block of a region's SRAM leaves its use (R600): an unassigned one, or else the tier's, the row cache's, the hot
pages', scratch's, in this order (assumption 27). -/
def State.retireBlock (s : State) (h : Nat) : State :=
  let n := s.tier.retired.get 0 h + 1
  let s := s.setTier (fun t => { t with retired := t.retired.put h n })
  let x := s.split h
  let s := if splitSum x + n ≤ 128 then s
    else
      let y := if 0 < x.tier then { x with tier := x.tier - 1 }
        else if 0 < x.rcache then { x with rcache := x.rcache - 1 }
        else if 0 < x.kvhot then { x with kvhot := x.kvhot - 1 }
        else { x with scratch := x.scratch - 1 }
      let s := s.setTier (fun t => { t with split := t.split.put h y })
      ((s.drainTier h (256 * y.tier)).rcShrink h y.rcache).kvHotShrink h y.kvhot
  s.queueFault { cls := 0x21, location := at_ 24 (h % 6) + at_ 20 (h / 6) + 0xFFFFF, detail := 128 - n }

/-! ## Ports and lanes -/

/-- A fabric lane is retired: the port chooses its width again (R140). -/
def State.retireLane (s : State) (port lane : Nat) : State :=
  let p := s.port port
  let good := maskOf ((maskBits p.good 8).filter (fun l => l != lane))
  let s := { s with fab := { s.fab with ports := s.fab.ports.put port { p with good := good } } }
  let s := if p.up then s.movePort port .retrain else s
  s.queueFault { cls := 0x21, location := at_ 24 (0x20 + port / 8) + 0xFF0000 + at_ 8 port + lane, detail := popCount good 8 }

/-! ## The loss of a die (R32, Table 1-11) -/

/-- The lines of some channels are lost. -/
def State.loseChannels (s : State) (cs : List Nat) : State :=
  { s with mem := { s.mem with lost := (cs.filter (fun c => !s.mem.lost.contains c)) ++ s.mem.lost } }

/-- An engine die is lost. -/
def State.loseEngineDie (s : State) (n : Nat) : State :=
  let s := s.loseChannels ((List.range 32).map (fun i => 32 * n + i))
  let s := s.setUnits (fun u => { u with standInDue := u.standInDue ++ [n] })
  let s := (List.range 16).foldl (fun (s : State) k => s.loseCluster (16 * n + k)) s
  let s := if s.emb.updates ≠ [] then s.setEvt F.EMB_UPD_EVT_CLUSTER_MOVED else s
  let here := fun (g i : Nat) => tierHome g i % 6 == n
  let gone := fun (g m : Nat) => maskOf ((maskBits m 16).filter (fun i => !here g i))
  let s := s.setTier (fun t => { t with granules := t.granules.mapV (fun g x =>
      { x with on := gone g x.on, copying := gone g x.copying, leaving := gone g x.leaving })
                                        partsLost := t.partsLost + (t.granules.map (fun e =>
      ((maskBits (e.2.on ||| e.2.copying ||| e.2.leaving) 16).filter (fun i => here e.1 i)).length)).foldl (· + ·) 0 })
  let s := { s with emb := { s.emb with cache := s.emb.cache.keep (fun h _ => h % 6 != n) } }
  let s := (s.kv.pools.filter (fun e => e.1 % 6 == n)).foldl (fun (s : State) e => s.failPool e.1) s
  s.endTierJobs.pump

/-- The host die is lost: every host port is down, and the coherent domain with it. -/
def State.loseHostDie (s : State) : State :=
  ((List.range 8).foldl (fun (s : State) p => s.linkDown p) s).domainDown 0 0

/-- A link die is lost: its ports, its hardware queues and its fabric submission queues (R500, R639); the service cores go
back to thread-switch mode (R174). -/
def State.loseLinkDie (s : State) (k : Nat) : State :=
  let s := (List.range 8).foldl (fun (s : State) i => s.failPort (8 * k + i)) s
  let s := s.loseQueues k
  let mine := (s.rings.subqs.filter (fun e => e.1 / 64 == k && e.2.state != .disabled)).map Prod.fst
  let s := mine.foldl (fun (s : State) n =>
    ((s.setSubq n { s.subq n with queue := [] }).subqError n).discardOf (fun src => src == .subq n)) s
  (s.setFld F.FAB_TS_CTRL_NORMAL 0).setFld F.FAB_TS_CTRL_FORCED 1

/-- The management die is lost: admission and tick discipline end, and the device leaves the fabric. -/
def State.loseManagement (s : State) : State :=
  let s := if s.fab.joined then s.leaveFabric else s
  { s with tick := { s.tick with sync := .stopped, expected := none, relock := false } }

/-- A die is lost: its record, and what Table 1-11 withdraws. -/
def State.loseDie (s : State) (die : Nat) : State :=
  if s.units.lostDies.contains die then s
  else
    let s := s.setUnits (fun u => { u with lostDies := u.lostDies ++ [die] })
    let s := s.queueFault { cls := 0x40, location := locDie die, detail := die }
    if die ≤ 5 then s.loseEngineDie die
    else if 0x10 ≤ die ∧ die ≤ 0x1B then (s.loseChannels ((List.range 16).map (fun i => 16 * (die - 0x10) + i))).pump
    else if 0x20 ≤ die ∧ die ≤ 0x23 then
      s.loseLinkDie (die - 0x20)
    else if 0x30 ≤ die ∧ die ≤ 0x33 then
      (List.range 16).foldl (fun (s : State) i => s.failChannel (16 * (die - 0x30) + i) false) s
    else if die = 0x40 then s.loseHostDie
    else if die = 0x50 then s.loseManagement
    else s

/-- DIE codes of Table 1-6. -/
def dieExists (die : Nat) : Bool :=
  decide (die ≤ 5) || (decide (0x10 ≤ die) && decide (die ≤ 0x1B)) || (decide (0x20 ≤ die) && decide (die ≤ 0x23))
    || (decide (0x30 ≤ die) && decide (die ≤ 0x33)) || die == 0x40 || die == 0x50

/-! ## Service-core pairs (R602) -/

/-- Pairs in service. -/
def State.pairsIn (s : State) : Nat :=
  ((List.range 8).filter (fun p => !s.units.pairsOut.contains p && !s.units.pairsHalted.contains p)).length

/-- With fewer than four pairs in service the management die is treated as lost. -/
def State.checkPairs (s : State) : State := if s.pairsIn < 4 then s.loseDie 0x50 else s

def State.retirePair (s : State) (p : Nat) : State :=
  if s.units.pairsOut.contains p then s
  else
    let s := s.setUnits (fun u => { u with pairsOut := u.pairsOut ++ [p], pairsHalted := u.pairsHalted.filter (fun x => x != p) })
    let s := s.queueFault { cls := 0x21, location := 0x50FF0000 + at_ 8 (2 * p) + 0xFF, detail := s.pairsIn }
    s.checkPairs

/-! ## Step 2 of a boundary -/

/-- One part that is due is spared or retired (Table 20-4). -/
def State.dealWith (s : State) (loc : Nat) : State :=
  match partOf loc with
  | some (.unit key) => s.spareUnit key
  | some (.lanes key) => s.spareLane key
  | some (.dram c) => s.retireChannel c
  | some (.sram h) => s.retireBlock h
  | some (.pair p) => s.retirePair p
  | some (.fabric port lane) => s.retireLane port lane
  | some (.flash c) => s.failChannel c false
  | none => s

/-- Spares, retirements, row spares, stand-in homes (R599, R601). -/
def State.sparesStep (s : State) : State :=
  let due := s.units.due
  let rows := s.stk.rowDue
  let s := s.setUnits (fun u => { u with due := [], standInDue := [] })
  let s := s.setStk (fun k => { k with rowDue := [] })
  let s := due.foldl State.dealWith s
  (rows.foldl State.spareRow s).pump

/-! ## Protection commits (R604, R614) -/

/-- BUILD_READY and BUILD_DONE records (R614). -/
def State.postBuild (s : State) (kind ext : Nat) : State :=
  if s.assisted 9 then
    s.postAssist s.assistPort 9 kind (assistOperands kind [(16, 2, ext), (20, 4, pgCursor (s.pg.committed.get 0 ext))])
  else s

/-- An accepted commit takes effect: CURSOR starts at 0 for BUILDING, and otherwise stays. -/
def State.applyPg (s : State) (ext : Nat) (e : BitVec 256) : State :=
  let e := putBits e 200 19 (if pgState e = PG_BUILDING then 0 else pgCursor (s.pg.committed.get 0 ext))
  let s := { s with pg := { s.pg with committed := s.pg.committed.put ext e } }
  let s := if pgState e = PG_BUILDING then s.postBuild 0x70 ext else s
  s.setEvt F.RAS_EVT_PG_APPLIED

def State.pgStep (s : State) : State :=
  let l := s.pg.pending
  if l.isEmpty then s
  else (l.foldl (fun (s : State) e => s.applyPg e.1 e.2) { s with pg := { s.pg with pending := [] } }).pump

/-! ## Swaps (R618, R619) -/

/-- From this tick on no descriptor is admitted (R618). -/
def State.draining (s : State) (t : Nat) : Bool :=
  match s.ras.swapOut with | some x => decide (x ≤ t + 1) | none => false

/-- A spare takes over device ID `d`. -/
def State.takeOver (s : State) (d : Nat) : State :=
  let s := s.setFld F.FAB_DEVID_DEVID d
  let clear := fun (e : BitVec 256) => if pgSwapValid e then putBits (putBits e 194 1 0) 2 2 PG_NORMAL else e
  let s := { s with
    fab := { s.fab with devidSet := true }
    pg := { s.pg with committed := s.pg.committed.mapV (fun _ e => clear e) }
    ord := { s.ord with send := s.ord.send.mapV (fun _ q => { q with resync := true }) } }
  s.queueFault { cls := 0x70, location := LOC_MD, detail := d + 2 ^ 16 }

/-- Swaps at step 2 of boundary `t`, the one before being `old`. -/
def State.swapStep (s : State) (old t : Nat) : State :=
  let s := if (match s.ras.swapOut with | some x => decide (old < x ∧ x ≤ t) | none => false) && s.fab.joined then
      s.leaveFabric.queueFault { cls := 0x70, location := LOC_MD, detail := s.fld F.FAB_DEVID_DEVID }
    else s
  match s.ras.swapTake with
  | some (d, x, _) => if x ≤ t then (s.setRas (fun r => { r with swapTake := none })).takeOver d else s
  | none => s

/-! ## Lateness (R615, R616) -/

def RasState.lateTicks (r : RasState) : Nat := (r.window.filter (fun x => x.late.isSome)).length
def RasState.sumLate (r : RasState) : Nat := (r.window.map (fun x => x.late.getD 0)).foldl (· + ·) 0
def RasState.maxLate (r : RasState) : Nat := (r.window.map (fun x => x.late.getD 0)).foldl Nat.max 0
def RasState.overrunTicks (r : RasState) : Nat := (r.window.filter (fun x => x.overrun)).length

/-- RAS_LATENESS (Table 20-9). -/
def RasState.lateness (r : RasState) : Wide :=
  BitVec.ofNat 256 (r.windowEnd % 2 ^ 32 + at_ 32 r.lateTicks + at_ 64 (min r.maxLate 0xFFFF) + at_ 96 (min r.sumLate (2 ^ 32 - 1))
    + at_ 128 r.overrunTicks + at_ 160 (r.suspectSince % 2 ^ 32))

/-- Count tick `t` - 2 at boundary `t`; `overran`: an operation admitted into tick `t` - 1 has not finished. -/
def State.countLate (s : State) (t lateUs : Nat) (overran : Bool) : State :=
  s.setRas (fun r =>
    let x : LateTick := { late := if r.overran then some (if r.unsync then Nat.max lateUs s.period else lateUs)
                                  else if r.unsync then some s.period else none
                          overrun := r.overran }
    let r := if r.seen < 2 then r else { r with window := (x :: r.window).take 1024, windowEnd := t - 2 }
    { r with overran := overran, unsync := s.tick.sync != .locked, seen := min (r.seen + 1) 2 })

/-- SUSPECT is raised or cleared at boundary `t` (R616). -/
def State.suspectStep (s : State) (t : Nat) : State :=
  let n := s.ras.lateTicks
  let raise := decide (32 ≤ n) || s.ras.stopped
  let s := if raise && !s.ras.suspect then
      (s.setRas (fun r => { r with suspect := true, suspectSince := t })).queueFault { cls := 0x60, location := LOC_MD, detail := n }
    else if !raise && s.ras.suspect && decide (n ≤ 8) then
      (s.setRas (fun r => { r with suspect := false, suspectSince := 0 })).queueFault { cls := 0x61, location := LOC_MD, detail := n }
    else s
  s.setRas (fun r => { r with stopped := false })

end Sys2Proof.Machine
end

