-- ==== Sys2Proof/Machine/SpdmRows.lean ====
section
/-! DEFINITION. Attestation over SPDM and the vendor-defined requests of a key broker (R570 to R572, R580, R585). Transports 0
to 7 are the DOE mailboxes of the host ports, 8 and 9 the management ports. Message codes and error codes are those of the DMTF
SPDM specification (assumption 25). -/

namespace Sys2Proof.Machine

/-! ## Answers -/

def SPDM_VERSION : Nat := 0x04
def SPDM_CAPABILITIES : Nat := 0x61
def SPDM_ALGORITHMS : Nat := 0x63
def SPDM_DIGESTS : Nat := 0x01
def SPDM_CERTIFICATE : Nat := 0x02
def SPDM_CHALLENGE_AUTH : Nat := 0x03
def SPDM_MEASUREMENTS : Nat := 0x60
def SPDM_KEY_EXCHANGE_RSP : Nat := 0x64
def SPDM_FINISH_RSP : Nat := 0x65
def SPDM_HEARTBEAT_ACK : Nat := 0x68
def SPDM_KEY_UPDATE_ACK : Nat := 0x69
def SPDM_END_SESSION_ACK : Nat := 0x6C
def SPDM_CHUNK_SEND_ACK : Nat := 0x05
def SPDM_CHUNK_RESPONSE : Nat := 0x06
def SPDM_VENDOR_RESPONSE : Nat := 0x7E
def SPDM_ERROR : Nat := 0x7F
def ERR_INVALID_REQUEST : Nat := 0x01
def ERR_INVALID_SESSION : Nat := 0x02
def ERR_UNEXPECTED : Nat := 0x04
def ERR_DECRYPT : Nat := 0x06
def ERR_SESSION_LIMIT : Nat := 0x0A
def ERR_LARGE_RESPONSE : Nat := 0x0F

def State.conn (s : State) (t : Nat) : SpdmConn := s.sec.spdm.get {} t
def State.setConn (s : State) (t : Nat) (c : SpdmConn) : State := s.setSec (fun x => { x with spdm := x.spdm.put t c })

/-- Send one SPDM message on a transport. -/
def State.spdmSend (s : State) (t code : Nat) (payload : List Byte) : State :=
  if t < 8 then s.emit (.host t H_SPDM (code :: payload.map BitVec.toNat))
  else s.emit (.mgmtReply (t - 8) 0x10 (s.conn t).mseq (BitVec.ofNat 8 code :: payload))

/-- Answer a request: what exceeds 4,096 B is kept for CHUNK_GET (R570). -/
def State.spdmReply (s : State) (t code : Nat) (payload : List Byte) : State :=
  if payload.length < 4096 then s.spdmSend t code payload
  else (s.setConn t { s.conn t with response := BitVec.ofNat 8 code :: payload }).spdmSend t SPDM_ERROR
    (leBytes 1 ERR_LARGE_RESPONSE)

def State.spdmError (s : State) (t code : Nat) : State := s.spdmSend t SPDM_ERROR (leBytes 1 code)

/-- The connection has come to the requests that follow NEGOTIATE_ALGORITHMS. -/
def SpdmConn.ready (c : SpdmConn) : Bool := c.version && c.capabilities && c.algorithms

/-- Take a request up: out of turn it is answered with an error. -/
def State.spdmRequest (s : State) (via : Via) (ok : SpdmConn → Bool) (k : State → State) : State :=
  let t := via.transport
  if 10 ≤ t then s
  else
    let s := s.setConn t { s.conn t with mseq := via.mseq }
    if ok (s.conn t) then k s else s.spdmError t ERR_UNEXPECTED

/-! ## Connection -/

/-- GET_VERSION: 1.3 only. A connection begins anew, with no session. -/
def execGetVersion (via : Via) (s : State) : Host.Outcome State Fault Refusal :=
  .next (s.spdmRequest via (fun _ => true) (fun s =>
    (s.setConn via.transport { version := true, mseq := via.mseq, nextId := (s.conn via.transport).nextId }).spdmReply via.transport SPDM_VERSION
      (leBytes 2 0x1300)))

/-- GET_CAPABILITIES: data transfer size 4,096 B. -/
def execGetCapabilities (via : Via) (s : State) : Host.Outcome State Fault Refusal :=
  .next (s.spdmRequest via (fun c => c.version) (fun s =>
    (s.setConn via.transport { s.conn via.transport with capabilities := true }).spdmReply via.transport SPDM_CAPABILITIES (leBytes 4 4096)))

/-- NEGOTIATE_ALGORITHMS: the one set of Table 19-5. -/
def execNegotiateAlgorithms (via : Via) (s : State) : Host.Outcome State Fault Refusal :=
  .next (s.spdmRequest via (fun c => c.version && c.capabilities) (fun s =>
    (s.setConn via.transport { s.conn via.transport with algorithms := true }).spdmReply via.transport SPDM_ALGORITHMS []))

/-! ## Identity (R562 to R564) -/

/-- The certificate chain of SPDM slot 0. -/
def State.chain (s : State) : List Byte := Config.certChain s.boot.m1 s.boot.number

/-- A signature by the Alias key. -/
def State.sign (s : State) (msg : List Byte) : List Byte := Config.aliasSign s.boot.m1 msg

/-- GET_DIGESTS: slot 0 only is provisioned. -/
def execGetDigests (via : Via) (s : State) : Host.Outcome State Fault Refusal :=
  .next (s.spdmRequest via SpdmConn.ready (fun s =>
    s.spdmReply via.transport SPDM_DIGESTS (leBytes 1 0x01 ++ Config.sha384 s.chain)))

/-- GET_CERTIFICATE: part of the chain of slot 0, and how many bytes remain. -/
def execGetCertificate (via : Via) (slot offset length : Nat) (s : State) : Host.Outcome State Fault Refusal :=
  .next (s.spdmRequest via SpdmConn.ready (fun s =>
    if slot ≠ 0 ∨ s.chain.length ≤ offset then s.spdmError via.transport ERR_INVALID_REQUEST
    else
      let part := (s.chain.drop offset).take (min length 4000)
      s.spdmReply via.transport SPDM_CERTIFICATE
        (leBytes 1 0 ++ leBytes 2 part.length ++ leBytes 2 (s.chain.length - offset - part.length) ++ part)))

/-- CHALLENGE: the digest of the chain, signed with the nonce by the Alias key. -/
def execChallenge (via : Via) (slot : Nat) (nonce : List Byte) (s : State) : Host.Outcome State Fault Refusal :=
  .next (s.spdmRequest via SpdmConn.ready (fun s =>
    if slot ≠ 0 then s.spdmError via.transport ERR_INVALID_REQUEST
    else
      let body := leBytes 1 0 ++ Config.sha384 s.chain
      s.spdmReply via.transport SPDM_CHALLENGE_AUTH (body ++ s.sign (nonce ++ body))))

/-! ## Measurements (R571, R572) -/

/-- What blocks 5 to 9 report of the state now. -/
def State.capture (s : State) : Report :=
  { tick := s.tick.now, fuses := s.sec.fuses, otpGen := s.sec.otpGen
    records := (List.range 4).map (fun r => s.sec.otpValue r % 2 ^ 32)
    windows := s.win.committed, ext := s.host.ext, ports := s.host.ports.mapV (fun _ p => (p.layout, p.cfg))
    slices := s.slices.committed, shr := s.host.shrLive, slots := s.slots, conf := s.sec.conf }

/-- The images of R572 in their order. -/
def Report.layoutImage (r : Report) : List Byte :=
  (List.range 1024).flatMap (fun n => leBytes 16 (r.windows.get 0 n).toNat)
    ++ (List.range 1152).flatMap (fun k => leBytes 4 (r.ext.get 0 k).toNat)
    ++ (List.range 8).flatMap (fun p => leBytes 4 (r.ports.get (0, 0) p).1.toNat ++ leBytes 4 (r.ports.get (0, 0) p).2.toNat)
    ++ (List.range 64).flatMap (fun n => leBytes 256 (r.slices.get 0 n).toNat)
    ++ (List.range 64).flatMap (fun n => leBytes 16 (r.shr.get 0 n).toNat)

/-- The entry of a slot in block 8. -/
def Report.slotEntry (r : Report) (e : Nat × KeySlot) : List Byte :=
  leBytes 1 e.1 ++ leBytes 1 e.2.phase.code ++ leBytes 2 e.2.epoch ++ leBytes 1 (if e.1 = 0 then 0xFF else e.2.slice)
    ++ leBytes 1 (maskOf ((r.conf.filter (fun c => c.2 == e.1)).map Prod.fst)) ++ leBytes 2 0 ++ leBytes 48 e.2.owner.toNat

def Report.slotsBlock (r : Report) : List Byte :=
  let l := r.slots.filter (fun e => e.2.phase != .free)
  leBytes 2 l.length ++ l.flatMap r.slotEntry

/-- The content of a measurement block (Table 19-6). -/
def State.block (s : State) (r : Report) (i : Nat) : List Byte :=
  if i ≤ 4 then s.boot.digests.getD (i - 1) []
  else if i = 5 then leBytes 16 r.fuses.toNat
  else if i = 6 then leBytes 32 r.otpGen.toNat ++ (List.range 4).flatMap (fun k => leBytes 4 (r.records.getD k 0))
  else if i = 7 then leBytes 8 r.tick ++ Config.sha384 r.layoutImage
  else if i = 8 then r.slotsBlock
  else (List.range 8).flatMap (fun p => match r.conf.find p with
    | some k => leBytes 1 1 ++ leBytes 1 k
    | none => leBytes 2 0)

/-- A block in the DMTF measurement form. -/
def State.blockForm (s : State) (r : Report) (i : Nat) : List Byte :=
  let v := s.block r i
  let type := if i = 1 then 0x00 else if i ≤ 4 then 0x01 else if i = 5 then 0x82 else 0x83
  leBytes 1 i ++ leBytes 1 0x01 ++ leBytes 2 (v.length + 3) ++ leBytes 1 type ++ leBytes 2 v.length ++ v

/-- R571: the state that a response made now reports. -/
def State.reported (s : State) : Report :=
  if s.tick.sync = .stopped ∨ s.tick.ticking = false then s.capture else s.sec.report

/-- GET_MEASUREMENTS: block 1 to 9, 0xFF for all, 0 for their count. -/
def execGetMeasurements (via : Via) (block : Nat) (nonce : List Byte) (s : State) : Host.Outcome State Fault Refusal :=
  .next (s.spdmRequest via SpdmConn.ready (fun s =>
    let r := s.reported
    if 9 < block ∧ block ≠ 0xFF then s.spdmError via.transport ERR_INVALID_REQUEST
    else
      let body := if block = 0 then leBytes 1 9
        else if block = 0xFF then ((List.range 9).map (fun i => s.blockForm r (i + 1))).flatten
        else s.blockForm r block
      s.spdmReply via.transport SPDM_MEASUREMENTS (body ++ s.sign (nonce ++ body))))

/-! ## Sessions -/

def SpdmConn.session (c : SpdmConn) (id : Nat) : Option SpdmSession := c.sessions.find? (fun x => x.id == id)

def SpdmConn.setSession (c : SpdmConn) (x : SpdmSession) : SpdmConn :=
  { c with sessions := c.sessions.map (fun y => if y.id = x.id then x else y) }

/-- KEY_EXCHANGE: `authentic` when the requester's chain, obtained by encapsulated requests, verified; `leaf` is then the
SHA-384 digest of its leaf public key, and `rooted` says that the chain is rooted in the key MGMT_ROOT names (R648). -/
def execKeyExchange (via : Via) (slot : Nat) (authentic : Bool) (leaf : BitVec 384) (rooted : Bool) (s : State) :
    Host.Outcome State Fault Refusal :=
  .next (s.spdmRequest via SpdmConn.ready (fun s =>
    let c := s.conn via.transport
    if slot ≠ 0 then s.spdmError via.transport ERR_INVALID_REQUEST
    else if 16 ≤ c.sessions.length then s.spdmError via.transport ERR_SESSION_LIMIT
    else
      let id := c.nextId
      let x : SpdmSession := { id := id, authentic := authentic, leaf := leaf, rooted := authentic && rooted }
      let s := s.setConn via.transport { c with sessions := c.sessions ++ [x], nextId := id + 1 }
      let body := leBytes 4 id
      s.spdmReply via.transport SPDM_KEY_EXCHANGE_RSP (body ++ s.sign body)))

/-- FINISH: the session is established when the requester's message verifies; otherwise it ends. -/
def execFinish (via : Via) (session : Nat) (verified : Bool) (s : State) : Host.Outcome State Fault Refusal :=
  .next (s.spdmRequest via SpdmConn.ready (fun s =>
    let c := s.conn via.transport
    match c.session session with
    | none => s.spdmError via.transport ERR_INVALID_SESSION
    | some x =>
      if x.done then s.spdmError via.transport ERR_UNEXPECTED
      else if verified then (s.setConn via.transport (c.setSession { x with done := true })).spdmReply via.transport SPDM_FINISH_RSP []
      else (s.setConn via.transport { c with sessions := c.sessions.filter (fun y => y.id != session) }).spdmError via.transport
        ERR_DECRYPT))

/-- A request within an established session. -/
def State.inSession (s : State) (via : Via) (id : Nat) (k : SpdmSession → State → State) : State :=
  s.spdmRequest via SpdmConn.ready (fun s =>
    match (s.conn via.transport).session id with
    | some x => if x.done then k x s else s.spdmError via.transport ERR_INVALID_SESSION
    | none => s.spdmError via.transport ERR_INVALID_SESSION)

def execHeartbeat (via : Via) (session : Nat) (s : State) : Host.Outcome State Fault Refusal :=
  .next (s.inSession via session (fun _ s => s.spdmReply via.transport SPDM_HEARTBEAT_ACK []))

def execKeyUpdate (via : Via) (session : Nat) (s : State) : Host.Outcome State Fault Refusal :=
  .next (s.inSession via session (fun x s =>
    (s.setConn via.transport ((s.conn via.transport).setSession { x with updates := x.updates + 1 })).spdmReply via.transport
      SPDM_KEY_UPDATE_ACK []))

/-- END_SESSION: the session's keys are destroyed (Table 19-8). -/
def execEndSession (via : Via) (session : Nat) (s : State) : Host.Outcome State Fault Refusal :=
  .next (s.inSession via session (fun _ s =>
    (s.setConn via.transport { s.conn via.transport with
      sessions := (s.conn via.transport).sessions.filter (fun y => y.id != session) }).spdmReply via.transport SPDM_END_SESSION_ACK []))

/-- CHUNK_SEND: a chunk of a large request, which takes effect by its own command once the last has come. -/
def execChunkSend (via : Via) (data : List Byte) (last : Bool) (s : State) : Host.Outcome State Fault Refusal :=
  .next (s.spdmRequest via SpdmConn.ready (fun s =>
    let c := s.conn via.transport
    (s.setConn via.transport { c with request := if last then [] else c.request ++ data }).spdmReply via.transport SPDM_CHUNK_SEND_ACK []))

/-- CHUNK_GET: the next chunk of a large response. -/
def execChunkGet (via : Via) (s : State) : Host.Outcome State Fault Refusal :=
  .next (s.spdmRequest via SpdmConn.ready (fun s =>
    let c := s.conn via.transport
    if c.response.isEmpty then s.spdmError via.transport ERR_UNEXPECTED
    else (s.setConn via.transport { c with response := c.response.drop 4000 }).spdmReply via.transport SPDM_CHUNK_RESPONSE
      (c.response.take 4000)))

/-! ## Vendor-defined requests (R580, Table 19-10) -/

def V_OK : Nat := 0x00
def V_NOT_OWNER : Nat := 0x01
def V_SLOT_STATE : Nat := 0x02
def V_FULL : Nat := 0x03
def V_BUSY : Nat := 0x04
def V_FORMAT : Nat := 0x05

def State.vendorReply (s : State) (t vcode status handle : Nat) : State :=
  s.spdmReply t SPDM_VENDOR_RESPONSE (leBytes 1 vcode ++ leBytes 1 status ++ leBytes 2 0 ++ leBytes 2 handle)

/-- A field of a vendor-defined payload. -/
def vfield (p : List Byte) (o n : Nat) : Nat := leNat ((p.drop o).take n)

/-- The tests of R580 for a slot and epoch. -/
def State.vendorBars (s : State) (t session k epoch : Nat) : Option Nat :=
  match (s.conn t).session session with
  | none => some V_NOT_OWNER
  | some x =>
    if !x.done || !x.authentic || x.leaf != (s.slot k).owner then some V_NOT_OWNER
    else if !s.keyActive k || (s.slot k).epoch != epoch then some V_SLOT_STATE
    else none

/-- A vendor-defined request of `len` payload bytes that names slot and epoch in bytes 4 and 6: `k` answers its VSTATUS and
handle. -/
def State.vendor (s : State) (via : Via) (session vcode len : Nat) (p : List Byte) (k : Nat → Nat → State → State × Nat × Nat) : State :=
  s.spdmRequest via SpdmConn.ready (fun s =>
    let t := via.transport
    if p.length < len then s.vendorReply t vcode V_FORMAT 0
    else match s.vendorBars t session (vfield p 4 1) (vfield p 6 2) with
      | some v => s.vendorReply t vcode v 0
      | none => match k (vfield p 4 1) (vfield p 6 2) s with | (s, v, h) => s.vendorReply t vcode v h)

/-- The lowest free entry of the model-key table (R582). -/
def State.freeModelKey (s : State) : Option Nat :=
  firstFree (fun n => match s.sec.modelKeys.find n with | some m => !m.live | none => true) 64

def nextGen (g : Nat) : Nat := if g = 255 then 1 else g + 1

/-- MODEL_KEY_SET. -/
def execModelKeySet (via : Via) (session : Nat) (payload : List Byte) (s : State) : Host.Outcome State Fault Refusal :=
  .next (s.vendor via session 0x01 48 payload (fun k epoch s =>
    match s.freeModelKey with
    | none => (s, V_FULL, 0)
    | some n =>
      let g := nextGen ((s.sec.modelKeys.find n).map (fun m => m.gen) |>.getD 0)
      let m : ModelKey := { gen := g, live := true, slot := k, epoch := epoch, program := vfield payload 8 8
                            key := (payload.drop 16).take 32 }
      (s.setSec (fun x => { x with modelKeys := x.modelKeys.put n m }), V_OK, n + at_ 8 g)))

/-- MODEL_KEY_DROP: the slot is that of the key. -/
def execModelKeyDrop (via : Via) (session : Nat) (payload : List Byte) (s : State) : Host.Outcome State Fault Refusal :=
  .next (s.spdmRequest via SpdmConn.ready (fun s =>
    let h := vfield payload 4 2
    match s.sec.modelKeys.find (h % 64) with
    | none => s.vendorReply via.transport 0x02 V_FORMAT 0
    | some m =>
      if payload.length < 6 ∨ m.live = false ∨ m.gen ≠ h / 256 ∨ h / 64 % 4 ≠ 0 then s.vendorReply via.transport 0x02 V_FORMAT 0
      else match s.vendorBars via.transport session m.slot m.epoch with
        | some v => s.vendorReply via.transport 0x02 v 0
        | none => (s.setSec (fun x => { x with modelKeys := x.modelKeys.put (h % 64) { m with live := false, key := [] } })).vendorReply
            via.transport 0x02 V_OK 0))

/-- FLASH_KEY_SET: the key is told apart by its number. -/
def execFlashKeySet (via : Via) (session : Nat) (payload : List Byte) (s : State) : Host.Outcome State Fault Refusal :=
  .next (s.vendor via session 0x03 80 payload (fun k _ s =>
    if s.srh.indexes.any (fun _ x => x.phase != .free && x.key == k) then (s, V_BUSY, 0)
    else (s.setSlot k { s.slot k with flashKey := vfield payload 16 64 }, V_OK, 0)))

/-- R585: CONF_ENABLE is refused with BUSY. -/
def State.confBusy (s : State) (port k : Nat) : Bool :=
  (match s.sec.conf.find port with | some j => j != k | none => false)
    || s.rings.descs.any (fun _ d => isBounce d && d.phase != .waiting && s.srcPort d.src == some port)
    || s.rings.rings.any (fun _ r => r.state != .disabled && rgPort r.record == port && rgKey r.record != k)

/-- CONF_ENABLE. -/
def execConfEnable (via : Via) (session : Nat) (payload : List Byte) (s : State) : Host.Outcome State Fault Refusal :=
  .next (s.vendor via session 0x04 48 payload (fun k _ s =>
    let port := vfield payload 5 1
    if 7 < port then (s, V_FORMAT, 0)
    else if s.confBusy port k then (s, V_BUSY, 0)
    else (s.setSec (fun x => { x with conf := x.conf.put port k, bounce := x.bounce.put port { key := (payload.drop 16).take 32 } }),
          V_OK, 0)))

end Sys2Proof.Machine
end

