-- ==== Sys2Proof/Machine/RasRows.lean ====
section
/-! DEFINITION. Work items and unit failures, the safety mechanisms, fault records, protection groups and the fault manager's
orders (chapter 20, R13, R32, R128). -/

namespace Sys2Proof.Machine

/-! ## Reasons of orders (Table 20-11) -/

def ORDER_FORMAT : Nat := 0x130A
def ORDER_STATE : Nat := 0x130B
def ORDER_TICK : Nat := 0x130C

/-! ## Work items (R13, R128, R599) -/

/-- Unit key of a unit of matrix cluster `k`. -/
def mtxUnitKey (k unit : Nat) : Nat := at_ 24 (k / 16) + at_ 20 (k / 4 % 4) + at_ 16 (k % 4) + at_ 8 unit

/-- A unit whose work item failed a check is tested in place. -/
def State.testUnit (s : State) (key : Nat) : State :=
  let s := s.setUnit key { s.unitOf key with attempt := (s.unitOf key).attempt + 1 }
  if s.units.testing.contains key then s else s.setUnits (fun u => { u with testing := u.testing ++ [key] })

/-- WORK_ITEM_DONE: unit `unit` of a matrix cluster has finished a work item of a run, under attempt `attempt`, with or without
an error that a check found. -/
def execWorkItemDone (tok cluster attempt : Nat) (ok : Bool) (unit : Nat) (ext : List Byte) (s : State) :
    Host.Outcome State Fault Refusal :=
  .next (match s.desc tok, s.mtx.runs.find tok with
    | some d, some r =>
      if attempt ≠ r.attempts.get 0 cluster then s.countStale
      else if ok then s.workItem tok cluster d r ext
      else (s.retryItem tok cluster r).testUnit (mtxUnitKey cluster unit)
    | _, _ => s.countStale)

/-- The work of a failed unit runs again whole, under the next attempt number. -/
def State.rerun (s : State) (tok loc : Nat) : State :=
  let key := loc / 256 * 256
  let k := 16 * keyDie key + 4 * keyRegion key + keyCluster key
  let s := match s.mtx.runs.find tok with
    | some r => if keyDie key ≤ 5 ∧ keyCluster key ≤ 3 then s.retryItem tok k r else s
    | none => s
  match partOf loc with
  | some (.unit key) =>
    (s.setUnit key { s.unitOf key with attempt := (s.unitOf key).attempt + 1, failed := true }).dueLoc loc
  | some _ => s.dueLoc loc
  | none => s

/-- UNIT_FAILURE: the unit at `loc` fails during a work item of descriptor `tok`; its spare takes its place at the next
boundary. -/
def execUnitFailure (tok loc : Nat) (s : State) : Host.Outcome State Fault Refusal := .next (s.rerun tok loc)

/-- ENGINE_WATCHDOG: no progress for 1 ms: the engine has failed. -/
def execEngineWatchdog (tok loc : Nat) (s : State) : Host.Outcome State Fault Refusal := .next (s.rerun tok loc)

/-- A predictive rule is met: the part is due, or in host-assisted triage a CANDIDATE (R599). -/
def State.predictive (s : State) (row loc : Nat) : State :=
  if s.assisted 8 then s.queueFault { cls := 0x22, location := loc, detail := row } else s.dueLoc loc

/-- UNIT_TEST_DONE: a unit that fails its test is spared; one that passes has had an intermittent failure, and the second
within 1,024 ticks meets rule 2 of Table 20-4. -/
def execUnitTestDone (loc : Nat) (passed : Bool) (s : State) : Host.Outcome State Fault Refusal :=
  let key := loc / 256 * 256
  -- the tests of embedding and codec units follow checks that no command of the table reports
  .next (if s.units.testing.contains key || decide (4 ≤ keyCluster key) then
      let s := s.setUnits (fun u => { u with testing := u.testing.filter (fun k => k != key) })
      if !passed then (s.setUnit key { s.unitOf key with failed := true }).dueLoc (s.locOf key)
      else
        let l := s.tick.now :: (s.unitOf key).intermittent.filter (fun t => decide (s.tick.now < t + 1024))
        if l.length < 2 then s.setUnit key { s.unitOf key with intermittent := l }
        else (s.setUnit key { s.unitOf key with intermittent := [] }).predictive 2 (s.locOf key)
    else s)

/-! ## Service cores (R602) -/

/-- LOCKSTEP_MISMATCH: the pair halts, and its work restarts on another. -/
def execLockstepMismatch (pair : Nat) (s : State) : Host.Outcome State Fault Refusal :=
  .next (if 8 ≤ pair ∨ s.units.pairsOut.contains pair = true ∨ s.units.pairsHalted.contains pair = true then s
    else (s.setUnits (fun u => { u with pairsHalted := u.pairsHalted ++ [pair] })).checkPairs)

/-- PAIR_RESTART_TEST_DONE: the pair returns to service, or is retired at the next boundary. -/
def execPairRestartTestDone (pair : Nat) (passed : Bool) (s : State) : Host.Outcome State Fault Refusal :=
  .next (if s.units.pairsHalted.contains pair then
      if passed then s.setUnits (fun u => { u with pairsHalted := u.pairsHalted.filter (fun p => p != pair) })
      else s.dueLoc (0x50FF0000 + at_ 8 (2 * pair) + 0xFF)
    else s)

/-! ## Scrubbing and clocks (R594) -/

/-- An entry of a configuration table is made invalid: windows 0, extents 1, routes 2, multicast groups 3, slices 4, contexts
5, protection entries 6; a control register, 7, keeps what it held. -/
def State.invalidateEntry (s : State) (table index : Nat) : State :=
  if table = 0 then { s with win := { s.win with committed := s.win.committed.del index } }
  else if table = 1 then { s with host := { s.host with ext := s.host.ext.del index } }
  else if table = 2 then { s with fab := { s.fab with route := s.fab.route.del index } }
  else if table = 3 then { s with fab := { s.fab with mcast := s.fab.mcast.del index } }
  else if table = 4 then { s with slices := { s.slices with committed := s.slices.committed.del index } }
  else if table = 5 then { s with xlt := { s.xlt with committed := s.xlt.committed.del index } }
  else if table = 6 then { s with pg := { s.pg with committed := s.pg.committed.del index } }
  else s

/-- CONFIGURATION_SCRUB: the scrub finds an error in an entry, corrected from its check code or not. -/
def execConfigurationScrub (table index : Nat) (corrected : Bool) (s : State) : Host.Outcome State Fault Refusal :=
  .next (if corrected then s
    else (s.invalidateEntry table index).queueFault { cls := 0x30, location := LOC_MD, detail := 9 })

/-- CLOCK_DEVIATION: the die is treated as lost. -/
def execClockDeviation (die : Nat) (s : State) : Host.Outcome State Fault Refusal :=
  .next (if dieExists die then s.loseDie die else s)

/-- DIE_LOSS (R32). -/
def execDieLoss (die : Nat) (s : State) : Host.Outcome State Fault Refusal :=
  .next (if dieExists die then s.loseDie die else s)

/-! ## Fault records (R597) -/

/-- RAS_CTRL.POP: the oldest record held is discarded. -/
def effRasCtrl : RegEffect := fun v s => (if bitOf v 0 then { s with faults := s.faults.drop 1 } else s, none)

def execRasPop (path : Nat) (value : Word) (_cycle : Nat) (s : State) : Host.Outcome State Fault Refusal :=
  .next (s.plainWrite path Reg.RAS_CTRL value effRasCtrl)

/-! ## Protection commits (R604) -/

/-- Positions a mode has. -/
def pgPositions (e : BitVec 256) : Nat := if pgMode e = 1 then 2 else if pgMode e = 2 then 10 else 16

/-- An entry with only the bits of these fields: MODE, POS, WINDOW, EXT_OFF, members. -/
def pgShape (e : BitVec 256) : List Nat :=
  [pgMode e, pgPos e, pgWindow e, pgExtOff e] ++ (List.range 10).map (pgMember e)

/-- The changes that a commit may make. A NORMAL or DEGRADED entry may also take or drop SWAP_VALID (assumption 28). -/
def pgAllowed (old new : BitVec 256) : Bool :=
  pgMode new == 0 || pgState new == PG_LOST || pgState new == PG_BUILDING
    || (pgMode old == 0 && pgState new == (if dataRole new then PG_NORMAL else PG_BUILDING))
    || ((pgState old == PG_NORMAL || pgState old == PG_DEGRADED) && (pgState new == PG_NORMAL || pgState new == PG_DEGRADED)
        && pgShape old == pgShape new)

/-- Why a commit of a shadow entry is refused. -/
def State.pgRefused (s : State) (old new : BitVec 256) : Option Nat :=
  let lost := fun (p : Nat) => p != 15 && decide (pgPositions new ≤ p)
  let members := (List.range (if pgMode new = 1 then 2 else if pgMode new = 2 then 10 else 0)).map (pgMember new)
  let own := s.fld F.FAB_DEVID_DEVID
  let self := pgMember new (pgPos new)
  if pgMode new = 3 ∨ (pgMode new ≠ 0 ∧ (pgPositions new ≤ pgPos new ∨ lost (pgLostA new) = true ∨ lost (pgLostB new) = true)) then
    some PG_FIELD
  else if (pgMode new ≠ 0 ∨ pgSwapValid new = true) ∧ self ≠ own ∧ ¬(pgSwapValid new = true ∧ self = pgSwapDev new) then some PG_SELF
  else if members.eraseDups.length ≠ members.length then some PG_MEMBERS
  else if pgAllowed old new = false then some PG_TRANSITION
  else none

/-- A write of RAS_PG_COMMIT in force. -/
def effPgCommit : RegEffect := fun v s =>
  let n := s.fld F.RAS_PG_SEL_EXTENT
  if bitOf v 0 && bitOf v 1 then (s, some REG_VALUE)
  else if bitOf v 1 then
    ({ s with pg := { s.pg with shadow := s.pg.shadow.put n (s.pg.committed.get 0 n) } }, none)
  else if bitOf v 0 then
    let e := s.pg.shadow.get 0 n
    match s.pgRefused (s.pg.committed.get 0 n) e with
    | some r =>
      (((s.setFld F.RAS_ERR_REASON r).setFld F.RAS_ERR_EXTENT n).setEvt F.RAS_EVT_PG_REFUSED, some REG_STATE)
    | none => ({ s with pg := { s.pg with pending := s.pg.pending.put n e } }, none)
  else (s, none)

def execPgCommit (path : Nat) (value : Word) (cycle : Nat) (s : State) : Host.Outcome State Fault Refusal :=
  .next (s.guardPair path Reg.RAS_PG_COMMIT value cycle (fun v => bitOf v 0) effPgCommit)

def execPgDiscard (path : Nat) (value : Word) (cycle : Nat) (s : State) : Host.Outcome State Fault Refusal :=
  .next (s.guardPair path Reg.RAS_PG_COMMIT value cycle (fun v => bitOf v 1 && !bitOf v 0) effPgCommit)

/-! ## Building (R611 to R614) -/

/-- The positions a block of the entry is built from; 15 for SWAP_DEV (R613). -/
def State.buildSources (s : State) (e : BitVec 256) : List Nat :=
  if s.swapTarget e then [15]
  else if dataRole e then parityNeeded e ++ peersNeeded e
  else if pgMode e = 1 then [0]
  else List.range 8

/-- One line of the block, from the lines of its sources. -/
def State.buildLine (s : State) (e : BitVec 256) (got : Tab (List Byte)) : List Byte :=
  if s.swapTarget e then got.get (zeros 64) 15
  else if dataRole e then solveStripe e got
  else if pgMode e = 1 then got.get (zeros 64) 0
  else (List.range 8).foldl (fun a p =>
    let l := got.get (zeros 64) p
    xorBytes a (if pgPos e = 9 then scaleBytes (gfExp p) l else l)) (zeros 64)

/-- Lines `j` of the sources' 4 KiB blocks. -/
def sourceLines (src : List (Nat × List Byte)) (j : Nat) : Tab (List Byte) :=
  src.foldl (fun (t : Tab (List Byte)) x => t.put x.1 ((x.2.drop (64 * j)).take 64)) []

/-- Build line `j` of the 4 KiB block at `d`. -/
def State.storeBuilt (s : State) (e : BitVec 256) (d j : Nat) (src : List (Nat × List Byte)) (bad : List (Nat × Nat)) : State :=
  let key := winKey (s.window (pgWindow e))
  let a := d + 64 * j
  if bad.any (fun b => b.2 == j) then s.poisonLine (lineOf a)
  else (s.applyWrite key a (s.buildLine e (sourceLines src j)) []).unpoison (lineOf a)

/-- Blocks the device may still build in this tick, for one extent (R614). -/
def State.mayBuild (s : State) (ext : Nat) : Bool :=
  if s.assisted 9 then decide (s.pg.builtBy.get 0 ext < s.pg.pace.get 0 ext)
  else
    decide (s.pg.built < 4096 * s.period / 1000)
      && !s.pg.committed.any (fun k e => decide (k < ext) && pgState e == PG_BUILDING && decide (pgCursor e < 262144))

/-- The next block of a BUILDING extent is built, and CURSOR advances. -/
def State.buildNext (s : State) (ext : Nat) (e : BitVec 256) (src : List (Nat × List Byte)) (bad : List (Nat × Nat)) : State :=
  let c := pgCursor e
  let s := (List.range 64).foldl (fun (s : State) j => s.storeBuilt e (ext * extentSize + 4096 * c) j src bad) s
  let done := c + 1 == 262144
  let e' := putBits e 200 19 (c + 1)
  let e' := if done && !s.swapTarget e then putBits e' 2 2 PG_NORMAL else e'
  let s := { s with pg := { s.pg with committed := s.pg.committed.put ext e', built := s.pg.built + 1
                                      builtBy := s.pg.builtBy.updD 0 ext (fun n => n + 1) } }
  if done then
    (s.queueFault { cls := 0x51, addr := ext * extentSize, location := LOC_MD, detail := ext }).postBuild 0x71 ext
  else s

/-- R611: in a lull tick, the listed poisoned lines of one block of a redundancy extent are rebuilt, those whose stripe holds no
poisoned data line. -/
def State.rebuildListed (s : State) (ext : Nat) (e : BitVec 256) (src : List (Nat × List Byte)) (bad : List (Nat × Nat)) : State :=
  match s.pg.poisonList.find? (fun l => 64 * l / extentSize == ext) with
  | none => s
  | some l =>
    let d := 64 * l / 4096 * 4096
    let mine := s.pg.poisonList.filter (fun x => 64 * x / 4096 * 4096 == d && !bad.any (fun b => b.2 == x % 64))
    let s := mine.foldl (fun (s : State) x => s.storeBuilt e d (x % 64) src bad) s
    { s with pg := { s.pg with poisonList := s.pg.poisonList.filter (fun x => !mine.contains x) } }

/-- PG_BUILD_BLOCK: `src` holds what the group reads of its sources returned, a 4 KiB block by position, `bad` the lines of
them that were poisoned, by position and line in the block. -/
def execPgBuildBlock (ext : Nat) (src : List (Nat × List Byte)) (bad : List (Nat × Nat)) (s : State) :
    Host.Outcome State Fault Refusal :=
  let e := s.pg.committed.get 0 ext
  .next (if !(s.buildSources e).all (fun p => src.any (fun x => x.1 == p)) then s
    else if pgState e = PG_BUILDING then
      if pgCursor e < 262144 ∧ s.mayBuild ext = true then (s.buildNext ext e src bad).pump else s
    else if redundancyRole e && s.isLull s.tick.now then s.rebuildListed ext e src bad
    else s)

/-- STRIPE_HOLD_LAPSE (R609): a hold not released within 50 µs of its grant. -/
def execStripeHoldLapse (line : Nat) (s : State) : Host.Outcome State Fault Refusal := .next (s.freeHold line).pump

/-! ## Secured messages and orders (R617, R648) -/

/-- A message of a secured type: within a session that R648 admits it is taken up, otherwise discarded and counted. -/
def State.secured (s : State) (m : Msg) (k : State → State) : State :=
  match (s.conn (8 + m.port)).session m.session with
  | some x => if m.port < 2 ∧ x.done = true ∧ x.authentic = true ∧ x.rooted = true then k s
    else s.setRas (fun r => { r with discarded := r.discarded + 1 })
  | none => s.setRas (fun r => { r with discarded := r.discarded + 1 })

/-- Take an order up, and answer it: status 0 when it is accepted. -/
def State.order (s : State) (m : Msg) (oseq : Nat) (refused : Option Nat) (k : State → State) : State :=
  s.secured m (fun s =>
    let s := if refused.isNone then k s else s
    s.emit (.mgmtReply m.port 0x22 m.mseq (leBytes 2 oseq ++ leBytes 2 (refused.getD 0))))

def execRetire (m : Msg) (oseq arg : Nat) (s : State) : Host.Outcome State Fault Refusal :=
  .next (s.order m oseq (if (partOf arg).isNone then some ORDER_FORMAT else none) (fun s => s.dueLoc arg))

def execSwapOut (m : Msg) (oseq tick : Nat) (s : State) : Host.Outcome State Fault Refusal :=
  .next (s.order m oseq (if tick < s.tick.now + 4 then some ORDER_TICK else none)
    (fun s => s.setRas (fun r => { r with swapOut := some tick })))

/-- SWAP_TAKE. -/
def execSwapTake (m : Msg) (oseq device tick : Nat) (dead : Bool) (s : State) : Host.Outcome State Fault Refusal :=
  let unbuilt := s.pg.committed.any (fun _ e => pgSwapValid e && !(pgState e == PG_BUILDING && pgCursor e == 262144))
  .next (s.order m oseq
    (if tick < s.tick.now + 4 then some ORDER_TICK else if !dead && unbuilt then some ORDER_STATE else none)
    (fun s => s.setRas (fun r => { r with swapTake := some (device % 2 ^ 14, tick, dead) })))

/-- EPOCH_ANNOUNCE: the tick master announces the advance in its tick packets, and applies it itself. -/
def execEpochAnnounce (m : Msg) (oseq device tick : Nat) (s : State) : Host.Outcome State Fault Refusal :=
  .next (s.order m oseq
    (if s.fld F.TIK_CTRL_MASTER = 0 then some ORDER_STATE else if tick < s.tick.now + 3 then some ORDER_TICK else none)
    (fun s =>
      let d := device % 2 ^ 14
      let e := ((s.epochOf d).accepted + 1) % 256
      (s.setRas (fun r => { r with announce := r.announce.filter (fun a => a.1 != d) ++ [(d, e, tick)] })).announceEpoch
        (d, e, tick)))

/-- BUILD_PACE. -/
def execBuildPace (m : Msg) (oseq extent arg : Nat) (s : State) : Host.Outcome State Fault Refusal :=
  .next (s.order m oseq
    (if 1151 < extent ∨ 65535 < arg then some ORDER_FORMAT else if s.assisted 9 = false then some ORDER_STATE else none)
    (fun s => { s with pg := { s.pg with pace := s.pg.pace.put extent arg } }))

/-- SUSPECT_CLEAR (R616). -/
def execSuspectClear (m : Msg) (oseq : Nat) (s : State) : Host.Outcome State Fault Refusal :=
  .next (s.order m oseq none (fun s =>
    let n := s.ras.lateTicks
    let s := if s.ras.suspect then s.queueFault { cls := 0x61, location := LOC_MD, detail := n } else s
    s.setRas (fun r => { r with suspect := false, suspectSince := 0, window := [] })))

end Sys2Proof.Machine
end

