-- ==== Sys2Proof/Machine/SliceRows.lean ====
section
/-! DEFINITION. Slice commits and metering (chapter 21). -/

namespace Sys2Proof.Machine

def CMP_FIELD : Nat := 0x1401
def CMP_BUSY : Nat := 0x1402
def CMP_CONFLICT : Nat := 0x1403
def CMP_OUT_OF_SERVICE : Nat := 0x1404
def CMP_SHARE_IN_USE : Nat := 0x1405
def CMP_CLUSTER_IN_USE : Nat := 0x1406
def CMP_PLAN : Nat := 0x1407
def CMP_NAMED : Nat := 0x1408

def State.setSlices (s : State) (f : SliceState → SliceState) : State := { s with slices := f s.slices }

/-- R624: the ports a slice holds. -/
def sliceAllPorts (d : BitVec 2048) : Nat := ((List.range 4).map (slicePorts d)).foldl (· ||| ·) 0

def maskDisjoint (a b : Nat) : Bool := a &&& b == 0

/-- The reserved bits of a slice descriptor (Table 21-1), as places and lengths in bits. -/
def sliceRsvd : List (Nat × Nat) :=
  [(1, 7), (8, 8), (24, 8), (80, 48), (224, 32), (304, 16), (576, 64), (704, 32), (800, 32), (896, 32), (992, 32), (1088, 960)]

/-- Check 1 of Table 21-2. -/
def sliceFieldsOk (d : BitVec 2048) : Bool :=
  sliceRsvd.all (fun e => bitsOf d e.1 e.2 == 0) && decide (sliceCdc d ≤ 96)
    && decide (sliceCtrBase d + sliceCtrCount d ≤ 4096) && decide (sliceRsReserve d ≤ 4096)
    && (List.range 4).all (fun i => (List.range i).all (fun j => maskDisjoint (slicePorts d i) (slicePorts d j)))
    && (sliceExistsBits d || d == 0)

/-- Two descriptors hold a resource in common. -/
def sliceMeets (a b : BitVec 2048) : Bool :=
  !(maskDisjoint (sliceMtx a) (sliceMtx b) && maskDisjoint (sliceEmb a) (sliceEmb b)
    && maskDisjoint (sliceChannels a) (sliceChannels b) && maskDisjoint (sliceShares a) (sliceShares b)
    && maskDisjoint (sliceAllPorts a) (sliceAllPorts b)
    && (sliceCtrCount a == 0 || sliceCtrCount b == 0 || decide (sliceCtrBase a + sliceCtrCount a ≤ sliceCtrBase b)
        || decide (sliceCtrBase b + sliceCtrCount b ≤ sliceCtrBase a)))

/-- Bits of `a` that `b` does not have, among the first `n`. -/
def maskMinus (a b n : Nat) : List Nat := (maskBits a n).filter (fun i => !b.testBit i)

/-- What other slices hold or claim: committed and pending descriptors. -/
def State.otherViews (s : State) (n : Nat) : List (BitVec 2048) :=
  ((List.range 64).filter (fun k => k != n)).flatMap s.sliceViews

/-- Check 3. What a slice already holds no other slice holds or claims, so the whole of `d` may be compared. -/
def State.sliceConflict (s : State) (n : Nat) (d : BitVec 2048) : Bool :=
  let others := (List.range 64).filter (fun k => k != n)
  let most : (BitVec 2048 → Nat) → Nat := fun f =>
    (others.map (fun k => ((s.sliceViews k).map f).foldl Nat.max 0)).foldl (· + ·) 0
  (s.otherViews n).any (sliceMeets d) || decide (96 < most sliceCdc + sliceCdc d)
    || decide (4096 < most sliceRsReserve + sliceRsReserve d)

/-- Check 4: an added cluster or channel is out of service. -/
def State.sliceOutOfService (s : State) (n : Nat) (d : BitVec 2048) : Bool :=
  let c := s.slice n
  (maskMinus (sliceMtx d) (sliceMtx c) 96).any (fun k => !s.mtxIn k)
    || (maskMinus (sliceEmb d) (sliceEmb c) 48).any (fun k => !s.embIn k)
    || (maskMinus (sliceChannels d) (sliceChannels c) 64).any (fun k => !(s.srh.chans.get {} k).inService)

/-- R628: the ranges of memory, base and length, in use by slice `n`. -/
def State.sliceRanges (s : State) (n : Nat) : List (Nat × Nat) :=
  let win := fun (e : BitVec 128) => if winValid e && winSlice e == n then [(winBase e, winSize e)] else []
  let pool := fun (r : BitVec 256) =>
    if xcValid r && xcSlice r == n then [(xcPoolExt r * extentSize, xcPoolGib r * extentSize)] else []
  let area := fun (own : Nat) (l : List (Nat × Nat)) => if own = n then l else []
  s.win.committed.flatMap (fun e => win e.2)
    ++ (match s.win.pending with | some (t, _) => t.flatMap (fun e => win e.2) | none => [])
    ++ s.win.old.flatMap win
    ++ s.host.ext.flatMap (fun e =>
        let own := if extDec e.2 = 2 then shSlice (s.shrLive (extShr e.2)) else s.portSlice (extPort e.2)
        if extInUse e.2 && own == n then [(e.1 * extentSize, extentSize)] else [])
    ++ s.xlt.committed.flatMap (fun e => pool e.2) ++ s.xlt.pending.flatMap (fun e => pool e.2.1)
    ++ s.mtx.progs.flatMap (fun e => if e.2.phase == .free then [] else area e.2.slice e.2.warea)
    ++ s.emb.tables.flatMap (fun e => if e.2.phase == .free then [] else
        area e.2.slice ((e.2.images.flatMap TblImage.segs).filterMap (fun x => if x.1 then none else some x.2) ++ e.2.undoArea))
    ++ s.emb.updates.flatMap (fun e => area (s.emb.tables.get {} e.1).slice (e.2.stateArea ++ e.2.mergeArea))
    ++ s.srh.indexes.flatMap (fun e => if e.2.phase == .free then [] else area e.2.slice (e.2.nodeArea ++ e.2.areas))
    ++ s.kv.pools.flatMap (fun e => if e.2.phase == .free then [] else area e.2.slice (e.2.area ++ e.2.ctrl))
    ++ s.que.queues.flatMap (fun e => if e.2.phase == .free then [] else area e.2.slice (e.2.spill ++ e.2.mirror))

/-- A range of memory lies wholly or partly in memory share `k`. -/
def inShare (k : Nat) (r : Nat × Nat) : Bool :=
  decide (0 < r.2) && decide (r.1 < (k + 1) * shareSize) && decide (k * shareSize < r.1 + r.2)

/-- Check 5. -/
def State.sliceShareInUse (s : State) (n : Nat) (d : BitVec 2048) : Bool :=
  let gone := maskMinus (sliceShares (s.slice n)) (sliceShares d) 192
  gone != [] && (s.sliceRanges n).any (fun r => gone.any (fun k => inShare k r))

/-- Check 6. -/
def State.sliceClusterInUse (s : State) (n : Nat) (d : BitVec 2048) : Bool :=
  let c := s.slice n
  let mtx := maskMinus (sliceMtx c) (sliceMtx d) 96
  let chans := maskMinus (sliceChannels c) (sliceChannels d) 64
  s.mtx.progs.any (fun _ p => p.phase != .free && p.places.any (fun x =>
      (maskBits x.clusters 4).any (fun k => mtx.contains (16 * x.die + 4 * x.region + k))))
    || s.srh.indexes.any (fun _ x => x.phase != .free && chans.any (fun k => x.desc.channels.testBit k))
    || (maskMinus (sliceEmb c) (sliceEmb d) 48 != [] && sliceEmb d == 0
        && s.emb.tables.any (fun _ t => t.phase != .free && t.slice == n))

/-- Check 7: the capacity of `d` covers the slice-bound charges of the slice's plans. -/
def State.slicePlansFit (s : State) (n : Nat) (d : BitVec 2048) : Bool :=
  let p := s.slicePlans n
  (p.active.toList ++ p.pending.toList).all (fun q =>
    (q.largest.bound.firstOver (s.capacityOf d false q.periodUs)).isNone
      && (q.lull.bound.firstOver (s.capacityOf d true q.periodUs)).isNone)

/-- Check 8: a slice that is deleted is still named. -/
def State.sliceNamed (s : State) (n : Nat) : Bool :=
  let p := s.slicePlans n
  p.active.isSome || p.pending.isSome
    || s.slots.any (fun k x => k != 0 && x.phase != .free && x.slice == n)
    || s.rings.rings.any (fun _ r => r.state != .disabled && (rgSlices r.record).testBit n)
    || s.rings.subqs.any (fun _ q => q.state != .disabled && (sqSlices q.record).testBit n)
    || s.xlt.committed.any (fun _ r => xcValid r && xcSlice r == n)
    || s.xlt.pending.any (fun _ r => xcValid r.1 && xcSlice r.1 == n)
    || s.host.shrLive.any (fun _ e => shValid e && shSlice e == n)

/-- R627: the first check of Table 21-2 that descriptor `d` for slice `n` fails; `again` at the recheck of R629, where the
commit itself is the one pending. -/
def State.sliceFails (s : State) (n : Nat) (d : BitVec 2048) (again : Bool) : Option Nat :=
  if !sliceFieldsOk d then some CMP_FIELD
  else if !again && s.slices.pending.has n then some CMP_BUSY
  else if s.sliceConflict n d then some CMP_CONFLICT
  else if s.sliceOutOfService n d then some CMP_OUT_OF_SERVICE
  else if s.sliceShareInUse n d then some CMP_SHARE_IN_USE
  else if s.sliceClusterInUse n d then some CMP_CLUSTER_IN_USE
  else if !s.slicePlansFit n d then some CMP_PLAN
  else if s.sliceExists n && !sliceExistsBits d && s.sliceNamed n then some CMP_NAMED
  else none

def State.sliceRefuse (s : State) (n reason : Nat) : State :=
  (s.setWord Reg.CMP_ERR (BitVec.ofNat 32 (reason + at_ 16 n))).setEvt F.CMP_EVT_REFUSED

/-- The slice that CMP_SLICE_SEL selects, and its shadow. -/
def State.sliceSel (s : State) : Nat := s.fld F.CMP_SLICE_SEL_SLICE
def State.sliceShadow (s : State) (n : Nat) : BitVec 2048 := s.slices.shadow.get (s.slice n) n

/-- A write of CMP_SLICE_COMMIT in force, at MCLK time `ns`. -/
def effSliceCommit (ns : Nat) : RegEffect := fun v s =>
  let n := s.sliceSel
  if bitOf v 0 && bitOf v 1 then (s, some REG_VALUE)
  else if bitOf v 1 then (s.setSlices (fun x => { x with shadow := x.shadow.put n (s.slice n) }), none)
  else if bitOf v 0 then
    let d := s.sliceShadow n
    match s.sliceFails n d false with
    | some r => (s.sliceRefuse n r, some REG_STATE)
    | none => (s.setSlices (fun x => { x with pending := x.pending.put n (d, ns) }), none)
  else (s, none)

/-- SLICE_COMMIT (R627, R629): a completed pair of CMP_SLICE_COMMIT with APPLY. -/
def execSliceCommit (path : Nat) (value : Word) (cycle : Nat) (s : State) : Host.Outcome State Fault Refusal :=
  .next (s.guardPair path Reg.CMP_SLICE_COMMIT value cycle (fun v => bitOf v 0) (effSliceCommit cycle))

/-- SLICE_DISCARD: a completed pair of CMP_SLICE_COMMIT with DISCARD alone. -/
def execSliceDiscard (path : Nat) (value : Word) (cycle : Nat) (s : State) : Host.Outcome State Fault Refusal :=
  .next (s.guardPair path Reg.CMP_SLICE_COMMIT value cycle (fun v => bitOf v 1 && !bitOf v 0) (effSliceCommit cycle))

/-! ## At a boundary -/

/-- R633: one slice's holdings over `ticks` ticks of the kind now ended, with its governing descriptor `d`. -/
def State.meterSlice (s : State) (ticks n : Nat) (d : BitVec 2048) : State :=
  let units := 8 * (maskBits (sliceMtx d &&& s.slices.mtxIn) 96).length + 4 * (maskBits (sliceEmb d &&& s.slices.embIn) 48).length
    + sliceCdc d
  let lanes := ((maskBits (sliceAllPorts d) 32).map (fun p => s.slices.lanes.get 0 p)).foldl (· + ·) 0
  let shares := (maskBits (sliceShares d) 192).length
  s.setSlices (fun x => { x with meters := x.meters.updD {} n (fun m =>
    { unitTicks := (m.unitTicks + ticks * units) % 2 ^ 64
      gibTicks := (m.gibTicks + ticks * 6 * shares) % 2 ^ 64
      laneTicks := (m.laneTicks + ticks * lanes) % 2 ^ 64
      flashReads := (m.flashReads + s.slices.pagesRead.get 0 n) % 2 ^ 64 }) })

/-- R633: metering of the tick that has ended, and of ticks skipped on relock. -/
def State.meter (s : State) (ticks : Nat) : State :=
  let s := (List.range 64).foldl (fun (s : State) n =>
    let d := s.slices.governed.get (s.slice n) n
    if sliceExistsBits d || s.slices.pagesRead.get 0 n != 0 then s.meterSlice ticks n d else s) s
  s.setSlices (fun x => { x with governed := [], pagesRead := [] })

/-- What the metering of the tick that now begins will need. -/
def State.meterStart (s : State) : State :=
  s.setSlices (fun x => { x with
    lanes := (List.range 32).filterMap (fun p => if (s.port p).up then some (p, (s.port p).width) else none)
    mtxIn := maskOf ((List.range 96).filter s.mtxIn)
    embIn := maskOf ((List.range 48).filter s.embIn) })

/-- R629: a commit that is due, checked again and applied or refused. -/
def State.applySlice (s : State) (n : Nat) (d : BitVec 2048) : State :=
  match s.sliceFails n d true with
  | some r => (s.setSlices (fun x => { x with pending := x.pending.del n })).sliceRefuse n r
  | none =>
    let old := s.slice n
    let s := s.setSlices (fun x => { x with
      committed := x.committed.put n d, pending := x.pending.del n, governed := x.governed.put n old
      deleted := if sliceExistsBits old && !sliceExistsBits d then n :: x.deleted else x.deleted.filter (fun k => k != n) })
    let moved := sliceEmb old != sliceEmb d && s.emb.updates.any (fun k _ => (s.emb.tables.get {} k).slice == n)
    let s := if moved then s.setEvt F.EMB_UPD_EVT_CLUSTER_MOVED else s
    s.setEvt F.CMP_EVT_APPLIED

/-- Step 7: the commits whose APPLY lies 5 µs back at MCLK time `ns`, in ascending slice number, and how many were
applied. -/
def State.slicesStep (s : State) (ns : Nat) : State × Bool :=
  let due := s.slices.pending.filter (fun e => decide (e.2.2 + 5000 ≤ ns))
  due.foldl (fun (a : State × Bool) e =>
    (a.1.applySlice e.1 e.2.1, a.2 || (a.1.sliceFails e.1 e.2.1 true).isNone)) (s, false)

/-- R634: the METER message of a slice at boundary `t` (Table 22-9). -/
def State.meterBytes (s : State) (t n : Nat) : List Byte :=
  let m := s.slices.meters.get {} n
  leBytes 16 (n + at_ 8 (boolNat (s.sliceExists n)) + at_ 32 (t % 2 ^ 32) + at_ 64 s.period)
    ++ leBytes 8 m.unitTicks ++ leBytes 8 m.gibTicks ++ leBytes 8 m.laneTicks ++ leBytes 8 m.flashReads

/-- R634: the METER messages of boundary `t`, every 1,024 ticks and where a commit has been applied; `old` is the tick before. -/
def State.sendMeters (s : State) (old t : Nat) (applied : Bool) : State :=
  if applied || decide (old / 1024 < t / 1024) then
    let s := ((List.range 64).filter (fun n => s.sliceExists n || s.slices.deleted.contains n)).foldl
      (fun (s : State) n => s.mgmt 0x23 (s.meterBytes t n)) s
    s.setSlices (fun x => { x with deleted := [] })
  else s

end Sys2Proof.Machine
end

