-- ==== Sys2Proof/Machine/PlanRows.lean ====
section
/-! DEFINITION. Loading and unloading tick plans (R49 to R52), the edges of TICK_IN (R41). -/

namespace Sys2Proof.Machine

/-! ## PLAN_LOAD (R49) -/

/-- Conditions 4 and 5, resource by resource: the first resource in which plan `q` of slice `n` does not fit. -/
def State.planOver (s : State) (n : Nat) (q : Plan) : Option Nat :=
  let others := s.tick.plans.keys.filter (fun k => k != n)
  let sum : (Plan → Cost) → Cost := fun f => Cost.sumAll (others.map (fun k => Cost.maxAll ((s.heldPlans k).map f)))
  let exceeds := fun (lull : Bool) (f : Plan → Cost) =>
    let cap := s.capacity n lull q.periodUs
    let want := Cost.add (f q).bound ((f q).add (sum f)).device
    List.zipWith (fun a b => decide (b < a)) want.list cap.list
  let bad := List.zipWith (· || ·) (exceeds false Plan.largest) (exceeds true Plan.lull)
  ((List.zip bad resourceReasons).find? (fun e => e.1)).map Prod.snd

/-- Condition 6 (R52): every kind of object loaded in the slice keeps its reservation in every cycle record of `q`. -/
def State.planKeeps (s : State) (n : Nat) (q : Plan) : Bool :=
  let every := fun (x : Nat) (f : Cost → Nat) => q.cycle.all (fun c => decide (x ≤ f c))
  let sum := fun (l : List Nat) => l.foldl (· + ·) 0
  let mtx := sum ((s.liveProgs.filter (fun p => p.slice == n)).map (fun p => p.reserve))
  let pools := (s.kv.pools.filter (fun e => e.2.phase != .free && e.2.slice == n)).map Prod.snd
  let (updEmb, updStk) := s.updReserved n
  every mtx (fun c => c.mtx) && every (s.embReserved n + updEmb) (fun c => c.emb) && every updStk (fun c => c.stk)
    && every (s.srhReserved n (fun y => y.resFls)) (fun c => c.fls) && every (s.srhReserved n (fun y => y.resStk)) (fun c => c.stk)
    && every (sum (pools.map (fun p => p.reserveStk))) (fun c => c.stk)
    && every (sum (pools.map (fun p => p.reserveMtx))) (fun c => c.mtx)

/-- R49: what refuses the plan that bytes `l`, read from a structure of `len` bytes, spell for slice `n` at start tick
`start`. -/
def State.planFails (s : State) (l : List Byte) (len n start : Nat) : Option Nat :=
  match parsePlan l len n start with
  | none => some PLAN_FORMAT
  | some q =>
    if q.periodUs ≠ s.periodAt start then some PLAN_PERIOD
    else if start < s.tick.now + 2 then some PLAN_START
    else match s.planOver n q with
      | some r => some r
      | none => if s.planKeeps n q then none else some PLAN_OBJECT

/-- The plan becomes the slice's pending plan; its handle. -/
def State.takePlan (s : State) (l : List Byte) (len n start : Nat) : State × Nat :=
  let p := s.slicePlans n
  let loads := (p.loads + 1) % 2 ^ 32
  (s.setPlans n { p with pending := parsePlan l len n start, loads := loads }, n + at_ 8 loads)

/-- PLAN_LOAD (R49): the whole structure is read before anything is checked. -/
def execPlanLoad (tok : Nat) (ext : List Byte) (s : State) : Host.Outcome State Fault Refusal :=
  .next (s.runMem tok 0xF0 (fun _ _ => none) (fun d _ => [⟨dfield d.bits 16 8, dfield d.bits 24 4, 1, false⟩])
    (fun d segs s =>
      let n := dSlice d.bits
      let len := dfield d.bits 24 4
      let start := dfield d.bits 32 8
      let (s, l, poison, _) := State.readSegs d (segs.headD []) ext s
      if poison then (s, some (cpl ST_POISONED PLAN_POISON))
      else match s.planFails l len n start with
        | some r => (s, some (cpl ST_REFUSED_FIT r))
        | none =>
          let (s, handle) := s.takePlan l len n start
          (s, some { result := handle })))

/-- PLAN_UNLOAD (R50): the pending plan goes; without one, the active plan stops at the next boundary but one. -/
def execPlanUnload (tok : Nat) (s : State) : Host.Outcome State Fault Refusal :=
  .next (s.runDesc tok 0xF1 (fun d s =>
    let n := dSlice d.bits
    let p := s.slicePlans n
    match p.pending, p.active, p.stopAt with
    | some _, _, _ => (s.setPlans n { p with pending := none }, some {})
    | none, none, _ => (s, some (cpl ST_ALREADY_DONE NO_PLAN))
    | none, some _, none => (s.setPlans n { p with stopAt := some (s.tick.now + 2) }, some {})
    | none, some _, some _ => (s, some (cpl ST_ALREADY_DONE 0))))

/-! ## TICK_IN (R41, R46, R670) -/

/-- An edge at MCLK time `ns` is the next boundary; the one after it is expected a period later. -/
def State.edgeTaken (s : State) (ns : Nat) : State :=
  { s with tick := { s.tick with expected := some (ns + 1000 * s.periodAt (s.tick.now + 1)), edgeDue := true } }

/-- TICK_IN_EDGE: a rising edge of TICK_IN at MCLK time `ns`, high for `highNs`. An accepted one calls for the boundary that
TICK_BOUNDARY then takes; 16 at consecutive expected boundaries lead to LOCKED. -/
def execTickInEdge (ns highNs : Nat) (s : State) : Host.Outcome State Fault Refusal :=
  .next (if s.tick.sync = .stopped ∨ s.tickSrc ≠ 2 then s
    else
      let ignored : State := { s with tick := { s.tick with edgesIgnored := s.tick.edgesIgnored + 1 } }
      if highNs < 20 then ignored
      else if s.tick.sync = .lost then s.enterLocking.edgeTaken ns
      else match s.tick.expected with
        | none => s.edgeTaken ns
        | some x =>
          if ns + 1000 < x ∨ x + 1000 < ns then ignored
          else if s.tick.sync = .locking ∨ s.tick.sync = .holdover then
            let s := { s with tick := { s.tick with lockCount := s.tick.lockCount + 1 } }
            (if 16 ≤ s.tick.lockCount then s.enterLocked else s).edgeTaken ns
          else s.edgeTaken ns)

/-- TICK_IN_EDGE_MISSING: at MCLK time `ns`, the window of the expected boundary has ended without an edge: the device makes
that boundary itself. -/
def execTickInEdgeMissing (ns : Nat) (s : State) : Host.Outcome State Fault Refusal :=
  .next (match s.tick.expected with
    | none => s
    | some x =>
      if s.tickSrc = 2 ∧ x + 1000 ≤ ns ∧ (s.tick.sync = .locking ∨ s.tick.sync = .locked ∨ s.tick.sync = .holdover) then
        let s := { s with tick := { s.tick with lockCount := 0 } }
        (if s.tick.sync = .locked then s.enterHoldover else s).edgeTaken x
      else s)

end Sys2Proof.Machine
end

