-- ==== Sys2Proof/Machine/Arrival.lean ====
section
/-! DEFINITION. The arrival of descriptors (R498, R504, R54 to R56), ABORT (R513, R514), the close of an admission round
(R57). -/

namespace Sys2Proof.Machine

/-! ## Checks on arrival (Table 16-2) -/

/-- Operands of the control descriptors (R120), and the counter they name (R118). -/
def ordCheck (d : Desc) (s : State) : Option Cpl :=
  let b := d.bits
  let op := dOpcode b
  let bad := if op = 0x02 then !(dfield b 16 1 == 1 || dfield b 16 1 == 2)
    else if op = 0x03 then dCredit b || dfield b 26 2 == 0
    else if op = 0x04 then dfield b 16 8 % 8 != 0
    else dCredit b || dfield b 32 8 % 8 != 0
  if bad then some (cpl ST_REFUSED_FIT 0x0401)
  else if (op = 0x03 ∨ op = 0x05) ∧ s.holdsCounter (dSlice b) (dCounter b) = false then some (cpl ST_PERMISSION CTR_SLICE)
  else none

/-- Check 6: the opcode's own checks. -/
def opCheck (d : Desc) (s : State) : Option Cpl :=
  let op := dOpcode d.bits
  if 0x02 ≤ op ∧ op ≤ 0x05 then ordCheck d s
  else if op = 0x10 ∨ op = 0x11 then copyCheck (op == 0x11) d s
  else if op ∈ [0x21, 0x22, 0x23, 0x24, 0x25, 0x27] then embCheck d s
  else if op = 0x31 then runCheck d s
  else if op = 0x32 then unloadCheck d s
  else if 0x41 ≤ op ∧ op ≤ 0x48 then srhCheck d s
  else if 0x51 ≤ op ∧ op ≤ 0x5A then kvCheck d s
  else if 0x60 ≤ op ∧ op ≤ 0x67 then queCheck d s
  else if op = 0x70 then invalidateCheck d s
  else if op = 0x71 ∨ op = 0x72 then prefetchCheck (op == 0x72) d s
  else if op = 0x73 then fillCheck d s
  else if op = 0x74 then setRootCheck d s
  else if 0x80 ≤ op ∧ op ≤ 0x87 then codecCheck d s
  else if 0x88 ≤ op ∧ op ≤ 0x8B then tierCheck d s
  else if 0x90 ≤ op ∧ op ≤ 0x93 then snapCheck d s
  else if op = 0xA1 ∨ op = 0xA2 then bounceCheck d s
  else none

/-- R53: the charge of a descriptor of kind T. -/
def opCost (d : Desc) (s : State) : Cost :=
  let op := dOpcode d.bits
  (if op = 0x04 then s.fabCost (dSlice d.bits) (dfield d.bits 16 8) (fabUnits (dfield d.bits 16 8) 8)
   else if op = 0x10 ∨ op = 0x11 then copyCost (op == 0x11) d s
   else if op ∈ [0x21, 0x22, 0x23, 0x24, 0x25, 0x27] then embCost d s
   else if op = 0x31 then runCost d s
   else if 0x41 ≤ op ∧ op ≤ 0x48 then srhCost d s
   else if 0x51 ≤ op ∧ op ≤ 0x58 then kvCost d s
   else if 0x61 ≤ op ∧ op ≤ 0x67 then queCost d s
   else if op = 0x71 ∨ op = 0x72 then prefetchCost d s
   else if 0x80 ≤ op ∧ op ≤ 0x87 then codecCost d s
   else if 0x88 ≤ op ∧ op ≤ 0x8B then tierCost d s
   else if op = 0xA1 ∨ op = 0xA2 then bounceCost d s
   else {}).withPower

/-- Table 16-2, in its order. -/
def State.arrivalCheck (s : State) (d : Desc) : Option Cpl :=
  let b := d.bits
  if (opKind (dOpcode b)).isNone then some (cpl ST_REFUSED_FIT RING_OPCODE)
  else if dClass b = 3 then some (cpl ST_REFUSED_CLASS RING_CLASS)
  else if !((s.srcSlices d.src).testBit (dSlice b) && s.sliceExists (dSlice b)) then some (cpl ST_PERMISSION RING_SLICE)
  else if dKeySlot b ≠ s.srcKey d.src then some (cpl ST_PERMISSION RING_KEY)
  else if !(s.keyActive (dKeySlot b) && (s.slot (dKeySlot b)).epoch == dKeyEpoch b) then
    some (cpl ST_KEY_RETIRED RING_KEY_EPOCH)
  else opCheck d s

/-! ## Arrival -/

/-- The earliest tick whose round has not closed. -/
def State.nextRound (s : State) : Nat := max s.tick.closed s.tick.now + 1

/-- R55: the requested tick of a descriptor whose target tick is `low` (0 for none). -/
def State.requestedTick (s : State) (low : Nat) : Nat :=
  if low = 0 then s.nextRound else max (nearestTick low s.tick.now) s.nextRound

/-- ELASTIC descriptors of a slice that wait (R59). -/
def State.waitingElastic (s : State) (n : Nat) : Nat :=
  (s.rings.descs.filter (fun e => e.2.phase == .waiting && opKind (dOpcode e.2.bits) == some .t
    && dClass e.2.bits == ELASTIC && dSlice e.2.bits == n)).length

/-- What refuses a descriptor of kind T at once, beside Table 16-2: R56, R54, R618, R59. -/
def State.admissionCheck (s : State) (d : Desc) : Option (Nat × Nat) :=
  let n := dSlice d.bits
  let low := dTarget d.bits
  if low ≠ 0 ∧ s.tick.now + 64 < nearestTick low s.tick.now then some (ST_REFUSED_BUDGET, HORIZON)
  else match d.cost.firstOver (s.capacity n false (s.periodAt d.requested)) with
    | some r => some (ST_REFUSED_FIT, r)
    | none =>
      if s.draining s.nextRound then some (ST_REFUSED_CLASS, SWAP_DRAIN)
      else match s.planFor n s.nextRound with
        | some p => if dClass d.bits = ELASTIC ∧ p.quota ≤ s.waitingElastic n then some (ST_REFUSED_CLASS, CLASS_QUOTA) else none
        | none => none

/-- The critical path of a run and the clusters it uses (R343, R472). -/
def State.withPath (s : State) (d : Desc) : Desc :=
  if dOpcode d.bits = 0x31 then
    match s.progOf (trHandle d.bits) (dSlice d.bits) with
    | some p => { d with crit := p.critical d.bits, uses := p.clusters d.bits }
    | none => d
  else if dOpcode d.bits = 0x55 then { d with crit := s.attendRun d.bits }
  else d

/-- A descriptor ends on arrival: ADMIT and DONE are TICK_NOW, DELAY 0 (R504). -/
def Desc.endNow (d : Desc) (now : Nat) (c : Cpl) : Desc :=
  { d with phase := .finished, cpl := c, admitTick := now, doneTick := now, delay := 0 }

/-- A descriptor arrives from a source: checked, and refused at once or taken as a candidate (R504). -/
def State.arrive (s : State) (src : Src) (bits : DescBits) : State :=
  let tok := s.rings.nextTok
  let index := s.rings.arrivals.get 0 src.code
  let d : Desc := { bits := bits, src := src, index := index, arrived := s.tick.now, phase := .waiting
                    requested := s.requestedTick (dTarget bits) }
  let s := { s with rings := { s.rings with nextTok := tok + 1, arrivals := s.rings.arrivals.put src.code (index + 1) } }
  match s.arrivalCheck d with
  | some c => s.setDesc tok (d.endNow s.tick.now c)
  | none =>
    if opKind (dOpcode bits) = some .t then
      let d := s.withPath { d with cost := opCost d s }
      match s.admissionCheck d with
      | some (st, r) =>
        (s.setDesc tok (d.endNow s.tick.now (cpl st r))).stats (dSlice bits) (fun x => { x with refused := x.refused + 1 })
      | none => s.setDesc tok d
    else s.setDesc tok d

/-- DESCRIPTOR_FETCH_DONE (R498): the read of the entry at a pair's SQ head has ended; the descriptor arrives, or the pair
enters ERROR. -/
def execDescriptorFetchDone (pair : Nat) (ok : Bool) (bits : DescBits) (s : State) : Host.Outcome State Fault Refusal :=
  let r := s.ring pair
  .next (if r.state = .active ∧ r.sqHead ≠ r.sqTail ∧ 0 < s.ringRoom pair then
      if ok then
        (s.setRing pair { r with sqHead := (r.sqHead + 1) % 2 ^ rgSqLog r.record }).arrive (.ring pair) bits
      else s.ringError pair FETCH_ERROR
    else s)

/-- A fabric queue's oldest descriptor is taken while a completion entry can be reserved for it (R500). -/
def State.takeSubq (s : State) (n : Nat) : State :=
  (s.subq n).queue.foldl (fun (s : State) _ =>
    match (s.subq n).queue with
    | b :: rest =>
      if (s.subq n).state = .active ∧ 0 < s.subqRoom n then
        (s.setSubq n { s.subq n with queue := rest }).arrive (.subq n) b
      else s
    | [] => s) s

/-- Every queue is served. -/
def State.takeSubqs (s : State) : State := s.rings.subqs.keys.foldl State.takeSubq s

/-! ## ABORT (R513, R514) -/

/-- The target among the descriptors whose completions are not written: its token and its number. -/
def State.liveTarget (s : State) (tok : Nat) (d : Desc) : Option (Nat × Nat) :=
  let seq := dfield d.bits 16 2
  (s.rings.descs.foldl (fun (best : Option (Nat × Nat)) e =>
    if e.1 ≠ tok ∧ e.2.src = d.src ∧ e.2.index < d.index ∧ d.index ≤ e.2.index + 65535 ∧ dSeq e.2.bits = seq then
      match best with
      | some b => if b.2 < e.2.index then some (e.1, e.2.index) else best
      | none => some (e.1, e.2.index)
    else best) none)

/-- The number of the target among the descriptors whose completions are written. -/
def State.pastTarget (s : State) (d : Desc) : Option Nat :=
  let seq := dfield d.bits 16 2
  ((s.rings.past.filter (fun e => e.1 == d.src.code && e.2.1 == seq && decide (e.2.2 < d.index)
    && decide (d.index ≤ e.2.2 + 65535))).map (fun e => e.2.2)).foldl
    (fun (best : Option Nat) i => match best with | some b => some (max b i) | none => some i) none

/-- The ABORT's completion is written after its target's (R510). -/
def State.abortAfter (s : State) (tok target : Nat) : State :=
  match s.desc tok with
  | none => s
  | some d => s.setDesc tok { d with after := some target }

/-- ABORT: its one outcome. -/
def execAbort (tok : Nat) (s : State) : Host.Outcome State Fault Refusal :=
  .next (s.runDesc tok 0x01 (fun d s =>
    match s.liveTarget tok d, s.pastTarget d with
    | none, none => (s, some (cpl ST_ALREADY_DONE ABORT_NO_TARGET))
    | none, some _ => (s, some (cpl ST_ALREADY_DONE 0))
    | some (t, i), past =>
      if (match past with | some j => decide (i < j) | none => false) then (s, some (cpl ST_ALREADY_DONE 0))
      else
        let s := s.abortAfter tok t
        match s.desc t with
        | none => (s, some (cpl ST_ALREADY_DONE 0))
        | some x =>
          if s.abortStops t x then (s.stopWork t (cpl ST_ABORTED ABORT_REQUESTED), some {})
          else (s, some (cpl ST_ALREADY_DONE 0))))

/-! ## The round closes (R57) -/

/-- R618: from the round before the last on, every candidate is refused. -/
def State.drainRound (s : State) (t : Nat) : State :=
  (s.rings.descs.filter (fun e => opKind (dOpcode e.2.bits) == some .t && e.2.phase == .waiting)).foldl
    (fun (s : State) e => s.turnAway e.1 ST_REFUSED_CLASS SWAP_DRAIN t) s

/-- R232: candidates whose pre-translation has faulted are refused at the round's close. -/
def State.refuseFaulted (s : State) (t : Nat) : State :=
  let s' := s.xlt.preFault.foldl (fun (s : State) e =>
    let (tok, st, r, va) := e
    match s.desc tok with
    | some d =>
      if opKind (dOpcode d.bits) = some .t ∧ d.phase = .waiting then
        let s := (s.xlFault (s.srcCtx d.src) r va).1.turnAway tok st r t
        match s.desc tok with
        | some d => s.setDesc tok { d with cpl := { d.cpl with result := va } }
        | none => s
      else s
    | none => s) s
  { s' with xlt := { s'.xlt with preFault := [] } }

/-- A cluster of the run's placements has left service (R16, R60). -/
def State.runDown (s : State) (d : Desc) : Bool :=
  match s.progOf (trHandle d.bits) (dSlice d.bits) with
  | some p => p.places.any (fun x => x.all.any (fun k => !s.mtxIn k))
  | none => false

/-- Runs that cannot be admitted into tick `t`: their handle or KV references fail (R342, R460), or their clusters. -/
def State.refuseRuns (s : State) (t : Nat) : State :=
  (s.rings.descs.filter (fun e => dOpcode e.2.bits == 0x31 && e.2.phase == .waiting && decide (e.2.requested ≤ t)
      && !s.heldBehind e.1 e.2)).foldl (fun (s : State) e =>
    if s.runDown e.2 then s.turnAway e.1 ST_REFUSED_BUDGET R_MTX t
    else match s.runRefsFail e.2 with
      | some c => s.turnAway e.1 c.status c.reason t
      | none => s) s

/-- An admitted request is refused after all in the same round: the object it names left with an earlier one. -/
def State.unadmit (s : State) (tok status reason t : Nat) : State :=
  match s.desc tok with
  | none => s
  | some d =>
    let was := d.phase == .admitted
    let s := (s.setDesc tok { d with phase := .waiting }).turnAway tok status reason t
    if was then s.stats (dSlice d.bits) (fun x => { x with admitted := x.admitted - 1
                                                           delayed := x.delayed - boolNat (decide (d.requested < t)) }) else s

/-- The requests that name the object whose end descriptor `d` begins, and how each is refused. -/
def State.namedBy (s : State) (d : Desc) (e : Desc) : Option (Nat × Nat) :=
  let op := dOpcode d.bits
  let x := dOpcode e.bits
  if op = 0x32 then if x = 0x31 ∧ trHandle e.bits = trHandle d.bits then some (ST_PERMISSION, MTX_HANDLE) else none
  else if op = 0x51 then
    if x ≠ 0x51 ∧ (s.kvPools e.bits).contains (dfield d.bits 16 1) then some (ST_PERMISSION, KV_POOL) else none
  else if op = 0x21 then
    if x ∈ [0x22, 0x23, 0x25] ∧ dfield e.bits 16 2 = dfield d.bits 16 2 then some (ST_PERMISSION, EMB_TABLE) else none
  else if op = 0x27 then
    if x = 0x24 ∧ dfield e.bits 16 2 = dfield d.bits 16 2 then some (ST_PERMISSION, UPD_NOT_RUNNING) else none
  else if op = 0x41 then
    if x ≠ 0x41 ∧ namesIndex x = true ∧ srIndex e.bits = srIndex d.bits then some (ST_PERMISSION, SRH_INDEX) else none
  else if op = 0x61 then
    if 0x62 ≤ x ∧ x ≤ 0x67 ∧ x ≠ 0x64 ∧ qNum e.bits = qNum d.bits then some (ST_PERMISSION, Q_QUEUE) else none
  else none

/-- The descriptor is the one that ends its object. -/
def State.isEnder (s : State) (tok : Nat) (d : Desc) : Bool :=
  let op := dOpcode d.bits
  if op = 0x32 then (s.prog (trHandle d.bits % 256)).unloader == some tok
  else if op = 0x51 then (s.kvAlloc (dfield d.bits 16 1)).destroyer == some tok
  else if op = 0x21 then (s.table (dfield d.bits 16 2)).unloader == some tok
  else if op = 0x27 then (match s.update (dfield d.bits 16 2) with | some u => u.stopper == some tok | none => false)
  else if op = 0x41 then (s.index (srIndex d.bits)).unloader == some tok
  else if op = 0x61 then (s.queue (qNum d.bits)).destroyer == some tok
  else false

/-- What the admission of one descriptor into tick `t` begins, in the order of admission. -/
def State.onAdmit (s : State) (t : Nat) (e : Nat × Desc) : State :=
  match s.desc e.1 with
  | none => s
  | some d =>
    if d.phase != .admitted then s
    else
      let op := dOpcode d.bits
      let tok := e.1
      let s := if op = 0x51 then s.admitDestroy tok d
        else if op = 0x32 then s.admitUnload tok d
        else if op = 0x21 then s.admitTblUnload tok d
        else if op = 0x27 then s.admitUpdStop tok d
        else if op = 0x41 then s.admitIdxUnload tok d
        else if op = 0x61 then s.admitQDestroy tok d
        else s.admitEmb tok d
      if s.isEnder tok d then
        (s.rings.descs.filter (fun x => opKind (dOpcode x.2.bits) == some .t && x.1 != tok && (x.2.phase == .waiting ||
            (x.2.phase == .admitted && x.2.admitTick == t && decide (d.admitSeq < x.2.admitSeq))))).foldl
          (fun (s : State) x => match s.namedBy d x.2 with
            | some (st, r) => s.unadmit x.1 st r t
            | none => s) s
      else s

/-- In the order of their admission. -/
def insertSeq (e : Nat × Desc) : List (Nat × Desc) → List (Nat × Desc)
  | [] => [e]
  | x :: l => if e.2.admitSeq < x.2.admitSeq then e :: x :: l else x :: insertSeq e l

def State.admittedIn (s : State) (t : Nat) : List (Nat × Desc) :=
  (s.rings.descs.filter (fun e => e.2.phase == .admitted && e.2.admitTick == t)).foldl (fun l e => insertSeq e l) []

/-- A FENCE has waited one more round (R121). -/
def State.fenceRound (s : State) : State :=
  { s with rings := { s.rings with descs := s.rings.descs.mapV (fun _ d =>
      if dOpcode d.bits == 0x02 && !d.finished then { d with rounds := d.rounds + 1 } else d) } }

/-- The close of the round of tick `t`. -/
def State.closeRound (s : State) (t : Nat) (maint : Cost) : State :=
  let s := (s.fenceRound.testWaits).refuseFaulted t
  if s.draining t then
    let s := s.drainRound t
    { s with tick := { s.tick with closed := t, debt := [] } }
  else
    let s := (s.refuseUnplanned t).refuseRuns t
    if s.admits then
      let s := s.runRound t (s.updateCharges t) maint
      (s.admittedIn t).foldl (fun s e => s.onAdmit t e) s
    else s.idleRound t

/-- ADMISSION_ROUND (R55, R57): the round of the next tick closes. `maint` is what maintenance leaves unused of its share
when that is a lull tick (R63). None is evaluated while STOPPED, or before TICK_NOW has taken the system's number (R45). -/
def execAdmissionRound (maint : Cost) (s : State) : Host.Outcome State Fault Refusal :=
  .next (if s.tick.sync = .stopped ∨ s.tick.relock = true ∨ s.tick.now + 1 ≤ s.tick.closed ∨ s.units.lostDies.contains 0x50 = true then s
    else s.closeRound (s.tick.now + 1) maint)

end Sys2Proof.Machine
end

