-- ==== Sys2Proof/Machine/Boundary.lean ====
section
/-! DEFINITION. The tick boundary (R69, Table 2-6) and the substitute boundary (R672). -/

namespace Sys2Proof.Machine

/-! ## Overruns (R66, R67) -/

/-- Operations that end at a boundary or with other operations, and so run on no unit (R358, R347, R374, R409, R430, R431, R443,
R459, R489). -/
def endsLater (op : Nat) : Bool := op ∈ [0x21, 0x23, 0x27, 0x32, 0x41, 0x43, 0x47, 0x51, 0x61, 0x92, 0x93]

/-- An operation still running. -/
def Desc.runsOn (d : Desc) : Bool :=
  d.phase == .running && opKind (dOpcode d.bits) == some .t && !endsLater (dOpcode d.bits)

/-- R66: the operations of the tick now ended that still run are marked. -/
def State.markOverruns (s : State) : State :=
  (s.rings.descs.filter (fun e => e.2.runsOn && !e.2.overrun)).foldl (fun (s : State) e =>
    ((s.setDesc e.1 { e.2 with overrun := true }).stats (dSlice e.2.bits)
      (fun x => { x with overrun := x.overrun + 1 })).setEvt F.TIK_EVT_OVERRUN) s

/-- R67: at boundary `t`, the operations admitted two ticks before that still run are stopped, and reported. -/
def State.stopOverruns (s : State) (old t : Nat) : State :=
  (s.rings.descs.filter (fun e => e.2.runsOn && decide (old < e.2.admitTick + 2) && decide (e.2.admitTick + 2 ≤ t))).foldl
    (fun (s : State) e =>
      let s := (s.stopWork e.1 (cpl ST_ABORTED OVERRUN_LIMIT)).setRas (fun r => { r with stopped := true })
      s.event OVERRUN_LIMIT (locDie (homeDie (s.srcCtx e.2.src))) (dOpcode e.2.bits + at_ 8 (dSlice e.2.bits))) s

/-! ## The period (R40, R51, R670) -/

/-- A change of period due at boundary `t`. -/
def State.periodStep (s : State) (t : Nat) : State :=
  let due : Option Nat := match s.tick.change with
    | some (p, c) => if c ≤ t then some p else none
    | none => none
  match due.orElse (fun _ => s.tick.takePeriod) with
  | none => s
  | some p =>
    let s := { s with tick := { s.tick with takePeriod := none, change := if due.isSome then none else s.tick.change } }
    ((s.setFld F.TIK_PERIOD_PERIOD_US p).setEvt F.TIK_EVT_PERIOD_CHANGE).endActivePlans t p

/-! ## The source (R37, R45, R670) -/

/-- Whether the device's own part of R39 holds: PTP messages arrive and the offset lies within ±100 ns. -/
def State.ptpGood (s : State) : Bool :=
  s.tick.ptpLive && s.tick.offsetKnown && decide (s.tick.offset.natAbs ≤ 100)

/-- Source FABRIC: the counts towards LOCKED at a boundary. `took`: the boundary has taken the source's period. -/
def State.syncStep (s : State) (took : Bool) : State :=
  if s.tickSrc ≠ 1 then s
  else
    let agrees : Bool := match s.tick.lastPkt with
      | some (_, p) => p == s.period
      | none => false
    let good : Bool := match s.tick.sync with
      | .locking => s.ptpGood && !took && (agrees || s.flag F.TIK_CTRL_MASTER)
      | _ => s.ptpGood
    let s := if s.tick.sync = .locking ∨ s.tick.sync = .holdover then
        { s with tick := { s.tick with lockCount := if good then s.tick.lockCount + 1 else 0 } }
      else s
    let s := { s with tick := { s.tick with lastPkt := none } }
    if (s.tick.sync = .locking ∨ s.tick.sync = .holdover) ∧ 16 ≤ s.tick.lockCount then s.enterLocked else s

/-- The number of the boundary now to pass; none where TICK_NOW waits for the system's number (R45). -/
def State.nextBoundary (s : State) : Option Nat :=
  if s.tick.relock then
    if s.tick.sourceTick < s.tick.now then none else some (s.tick.sourceTick + 1)
  else some (s.tick.now + 1)

/-- A boundary of the system at which TICK_NOW is held: the source comes one closer. -/
def State.holdTick (s : State) : State :=
  { s with tick := { s.tick with sourceTick := s.tick.sourceTick + 1, stopTick := s.tick.now, lastPkt := none
                                 change := s.tick.change.map (fun (c : Nat × Nat) => (c.1, max (c.2 - 1) (s.tick.now + 1))) } }

/-! ## Step 1 -/

/-- TICK_NOW takes its value, with what R45 says of ticks skipped. -/
def State.advance (s : State) (t : Nat) (env : BoundaryEnv) : State :=
  let skip := t - (s.tick.now + 1)
  let stopped := s.tick.relock || !s.admits
  let pulse := s.flag F.TIK_CTRL_TICK_OUT_EN
  let s := { s with tick := { s.tick with
    now := t, missed := (s.tick.missed + skip) % 2 ^ 64, relock := false, edgeDue := false, boundaryNs := env.ptpNs
    sourceTick := s.tick.sourceTick + 1, stopTick := if stopped then t else s.tick.stopTick
    change := s.tick.change.map (fun (c : Nat × Nat) => (c.1, c.2 + skip)) } }
  if pulse then s.emitAll [.pin PIN_TICK_OUT true, .pin PIN_TICK_OUT false] else s

/-- R37: the tick master announces the boundary after `t`, and the epoch advances still to come (R130). -/
def State.masterPacket (s : State) (t : Nat) (env : BoundaryEnv) : State :=
  if s.flag F.TIK_CTRL_MASTER then
    let s := s.setRas (fun r => { r with announce := r.announce.filter (fun a => decide (t < a.2.2)) })
    s.floodTick (s.tickPacket (t + 1) (env.ptpNs + 1000 * s.periodAt (t + 1)) (s.ras.announce.take 8))
  else s

/-! ## Step 7 -/

/-- R50: pending plans whose start has come become active; plans unloaded stop. -/
def State.plansStep (s : State) (t : Nat) : State :=
  s.tick.plans.foldl (fun (s : State) e =>
    match e.2.pending with
    | some q =>
      if q.start ≤ t then
        let s := s.setPlans e.1 { e.2 with active := some q, pending := none, stopAt := none }
        ({ s with rings := { s.rings with weights := s.rings.weights.del e.1 } }).setEvt F.TIK_EVT_PLAN_SWITCH
      else if (match e.2.stopAt with | some b => decide (b ≤ t) | none => false) then
        s.setPlans e.1 { e.2 with active := none, stopAt := none }
      else s
    | none =>
      if (match e.2.stopAt with | some b => decide (b ≤ t) | none => false) then
        s.setPlans e.1 { e.2 with active := none, stopAt := none }
      else s) s

/-- R62: a write of TIK_LULL comes into force. -/
def State.lullStep (s : State) : State :=
  match s.tick.lullPending with
  | none => s
  | some w => ({ s with tick := { s.tick with lullPending := none } }).setWord Reg.TIK_LULL w

/-- R519: a write of HIF_FN_MODE comes into force; ADMIT_WEIGHTS overrides end with host-assisted admission (R522). -/
def State.modeStep (s : State) : State :=
  match s.rings.fnModePending with
  | none => s
  | some w =>
    let was := s.assisted 2
    let s := ({ s with rings := { s.rings with fnModePending := none } }).setWord Reg.HIF_FN_MODE w
    if was && !s.assisted 2 then { s with rings := { s.rings with weights := [] } } else s

/-- R86: the window table, 5 µs after its APPLY. -/
def State.windowsDue (s : State) (ns : Nat) : State :=
  match s.win.pending with
  | some (_, at_) => if at_ + 5000 ≤ ns then s.applyWindows else s
  | none => s

/-! ## Step 8 -/

/-- R522: one ADMIT_SUMMARY of each slice of the round just closed. -/
def State.postSummaries (s : State) : State :=
  let l := s.tick.summary
  let s := { s with tick := { s.tick with summary := [] } }
  if !s.assisted 2 then s
  else l.foldl (fun (s : State) e =>
    let (n, waiting, refused, admitted, oldest, weight) := e
    s.postAssist s.assistPort 2 0x50 (assistOperands 0x50
      [(16, 1, n), (20, 4, waiting), (24, 4, refused), (28, 4, admitted), (32, 4, oldest), (39, 1, weight)])) s

/-- The admitted work of tick `t` starts, in the order of its admission. -/
def State.startWork (s : State) (t : Nat) : State :=
  ((s.rings.descs.filter (fun e => e.2.phase == .admitted && decide (e.2.admitTick ≤ t))).foldl (fun l e => insertSeq e l) []).foldl
    (fun (s : State) e =>
      let d := { e.2 with phase := .running }
      (s.setDesc e.1 d).embStart (e.1, d)) s

/-- Epoch advances due by boundary `t` (R130). -/
def State.epochStep (s : State) (t : Nat) : State :=
  (s.ord.epochs.filter (fun e => match e.2.pendingTick with | some b => decide (b ≤ t) | none => false)).foldl
    (fun (s : State) e => s.advanceEpoch e.1 e.2.announced) s

/-- Maintenance that a lull tick begins with (R63). -/
def State.lullWork (s : State) (t : Nat) : State := if s.isLull t then s.mergeStart.tierSweep else s

/-! ## The boundary -/

/-- Steps 2 to 6 of boundary `t`; the boundary before was `old`. -/
def State.commitSteps (s : State) (old t : Nat) (env : BoundaryEnv) : State :=
  let s := ((s.sparesStep.pgStep).swapStep old t).epochStep t
  let s := s.retireStep env.timeNs
  let s := s.windowsStep t
  let s := s.versionsStep.applyShared
  s.searchStep t

/-- Step 7. -/
def State.settings (s : State) (old t : Nat) (env : BoundaryEnv) : State :=
  let s := if s.tick.ticking then s.meter (t - old) else s
  let (s, applied) := s.slicesStep env.timeNs
  let s := ((s.windowsDue env.timeNs).applyContexts).policyStep
  let s := ((s.kvBoundary old t).codecBoundary.plansStep t).lullStep
  let s := (s.powerControl env).modeStep.splitStep
  (s.islandStep env.timeNs).sendMeters old t applied

/-- Step 8 of boundary `t`, and the counts of the tick that has ended. -/
def State.beginTick (s : State) (old t : Nat) (env : BoundaryEnv) (overran : Bool) : State :=
  let s := { s with tick := { s.tick with stkNow := s.tick.stkNext, stkNext := 0, ticking := true } }
  let s := s.setTier (fun x => { x.age (agings old t (s.fld F.TIR_AGE_AGE_TICKS)) with started := 0 })
  let s := { s.rcAge old t with pg := { s.pg with built := 0, builtBy := [] } }
  let s := (s.countLate t env.lateUs overran).suspectStep t
  let s := ((s.startWork t).windowsWork.lullWork t).meterStart
  { s with sec := { s.sec with report := s.capture } }

/-- Boundary `t` is passed. -/
def State.passBoundary (s : State) (t : Nat) (env : BoundaryEnv) : State :=
  let old := s.tick.now
  let took := s.tick.takePeriod.isSome
  let failed := if s.tick.ticking && s.isLull old then env.selfTestFailed else []
  let s := failed.foldl (fun (s : State) l => s.dueLoc l) s
  let s := (s.advance t env).periodStep t
  let overran := s.rings.descs.any (fun _ d => d.runsOn && !d.overrun)
  let s := (s.markOverruns.stopOverruns old t).refuseUnsynced t
  -- the records of the tick that has ended
  let s := s.dropUnposted.tierAssist.rcAssist.mergeAssist.postSummaries
  let s := s.commitSteps old t env
  let s := s.settings old t env
  let s := s.beginTick old t env overran
  (s.syncStep took).masterPacket t env

/-- R32: without the management die, nothing goes on beyond the tick that was running; why the work was aborted is not
stated. -/
def State.endWork (s : State) : State :=
  (s.rings.descs.filter (fun e => e.2.phase == .running || e.2.phase == .admitted)).foldl (fun (s : State) e =>
    let (r, s) := s.draw
    s.stopWork e.1 (cpl ST_ABORTED (r % 65536))) s

/-- TICK_BOUNDARY: the next tick boundary of the generator comes. Under source TICK_IN one comes only when an edge, or the lack
of one, calls for it (R41); while STOPPED none does. -/
def execTickBoundary (env : BoundaryEnv) (s : State) : Host.Outcome State Fault Refusal :=
  .next (if s.units.lostDies.contains 0x50 then s.endWork
    else if s.tick.sync = .stopped ∨ (s.tickSrc = 2 ∧ s.tick.sync ≠ .lost ∧ s.tick.edgeDue = false) then s
    else match s.nextBoundary with
      | none => s.holdTick
      | some t => s.passBoundary t env)

/-! ## The substitute boundary (R672) -/

/-- A period written while STOPPED comes into force. -/
def State.periodWhileStopped (s : State) : State :=
  match s.tick.periodPending with
  | none => s
  | some p =>
    let s := { s with tick := { s.tick with periodPending := none } }
    let s := (s.setFld F.TIK_PERIOD_PERIOD_US p).setEvt F.TIK_EVT_PERIOD_CHANGE
    (s.dropPendingPlans s.tick.now p).endActivePlans s.tick.now p

/-- The register writes, commits and orders that wait for a boundary take effect. -/
def State.substitute (s : State) (env : BoundaryEnv) : State :=
  let s := s.periodWhileStopped.sparesStep.pgStep.retireStep env.timeNs
  let s := s.host.shrClosing.foldl State.boundaryRange s
  let (s, applied) := s.slicesStep env.timeNs
  let s := ((s.windowsDue env.timeNs).applyContexts).policyStep.lullStep.applyCap.modeStep.splitStep
  (s.islandStep env.timeNs).sendMeters s.tick.now s.tick.now applied

/-- SUBSTITUTE_BOUNDARY. -/
def execSubstituteBoundary (env : BoundaryEnv) (s : State) : Host.Outcome State Fault Refusal :=
  .next (if s.tick.sync = .stopped ∧ s.units.lostDies.contains 0x50 = false then s.substitute env else s)

end Sys2Proof.Machine
end

