-- ==== Sys2Proof/Machine/Package.lean ====
section
/-! DEFINITION. The package: which land lies at each row and column of the grid, and the rails (R650 to R657, Tables 23-1 to
23-4). Fixed for the part; no command changes it. -/

namespace Sys2Proof.Machine

/-- The twelve rails (Table 23-4). -/
inductive Rail where
  | io18 | mgt | linkA | linkD | stk | eng | sram | stkq | flc | flio | host | hostA
  deriving DecidableEq, Repr

/-- Nominal voltage in mV, maximum current in mA, full-load power in mW, lands, first and last interior row (Table 23-4). -/
structure RailData where
  nominalMV : Nat
  maxMA : Nat
  fullMW : Nat
  lands : Nat
  first : Nat
  last : Nat
  deriving DecidableEq, Repr

def Rail.data : Rail → RailData
  | .io18 => ⟨1800, 2000, 3600, 102, 17, 18⟩
  | .mgt => ⟨800, 26750, 21400, 102, 19, 20⟩
  | .linkA => ⟨850, 200000, 170000, 306, 21, 26⟩
  | .linkD => ⟨750, 280000, 210000, 408, 27, 34⟩
  | .stk => ⟨1050, 280000, 294000, 408, 35, 42⟩
  | .eng => ⟨700, 2000000, 1400000, 2448, 43, 90⟩
  | .sram => ⟨750, 232000, 174000, 306, 91, 96⟩
  | .stkq => ⟨400, 285000, 114000, 408, 97, 104⟩
  | .flc => ⟨800, 230000, 184000, 306, 105, 110⟩
  | .flio => ⟨1200, 30000, 36000, 102, 111, 112⟩
  | .host => ⟨750, 72000, 54000, 204, 113, 116⟩
  | .hostA => ⟨800, 20000, 16000, 102, 117, 118⟩

def Rail.all : List Rail := [.io18, .mgt, .linkA, .linkD, .stk, .eng, .sram, .stkq, .flc, .flio, .host, .hostA]

/-- The rail whose interior rows include `r` (R653). -/
def railOfRow (r : Nat) : Option Rail := Rail.all.find? (fun x => decide (x.data.first ≤ r) && decide (r ≤ x.data.last))

/-- The lands of one flash channel (Table 23-3). -/
inductive FlashLand where
  | dq (n : Nat) | ce (n : Nat) | rb (n : Nat)
  | we | cle | ale | wp | dqs (pos : Bool) | re (pos : Bool)
  deriving DecidableEq, Repr

/-- What a position of the grid carries. `pos` marks the half of a pair that ends in _DP. -/
inductive Land where
  | vss
  | power (r : Rail)
  | fabric (port lane : Nat) (tx pos : Bool)
  | host (port lane : Nat) (tx pos : Bool)
  | flash (channel : Nat) (l : FlashLand)
  | hrefclk (p : Nat) (pos : Bool)
  | frefclk (k : Nat) (pos : Bool)
  | mrefclk
  | mgt (m : Nat) (tx pos : Bool)
  | tickIn | tickOut
  | i3cScl | i3cSda | spiClk | spiCs | spiIo (n : Nat)
  | tck | tms | tdi | tdo | trst
  | mgtPwrgood | mainPwrgood | resetN | thermtrip | pwrAlert | perst (p : Nat)
  | sense (r : Rail) (rtn : Bool)
  deriving DecidableEq, Repr

/-- R650: the unpopulated positions: four corner squares of 16 × 16 and the orientation key. -/
def unpopulated (r c : Nat) : Bool :=
  ((decide (r ≤ 16) || decide (119 ≤ r)) && (decide (c ≤ 16) || decide (119 ≤ c))) ||
  (decide (r ≤ 2) && decide (60 ≤ c) && decide (c ≤ 75))

/-- Table 23-3: the land of a flash channel at a north row and column offset. -/
def flashLand (r off : Nat) : Option FlashLand :=
  if off = 0 then
    if 3 ≤ r ∧ r ≤ 10 then some (.dq (r - 3))
    else [none, some (.dqs true), some (.dqs false), some (.re true), some (.re false)].getD (r - 10) none
  else if off = 2 then
    if 7 ≤ r ∧ r ≤ 10 then some (.ce (r - 7))
    else if 11 ≤ r ∧ r ≤ 14 then some (.rb (r - 11))
    else [none, some .we, some .cle, some .ale, some .wp].getD (r - 2) none
  else none

/-- R655: the north and south bands; `r` is the north row of the position. -/
def flashBand (south : Bool) (r c : Nat) : Land :=
  if r ≤ 2 ∨ c < 17 ∨ 112 < c then .vss
  else match flashLand r ((c - 17) % 3) with
    | some l => .flash ((if south then 32 else 0) + (c - 17) / 3) l
    | none => .vss

/-- Table 23-2: the edge rows, in column order from the outer edge. -/
def refclkRow (h f : Nat) : List Land :=
  [.hrefclk h true, .hrefclk h false, .vss, .hrefclk (h + 1) true, .hrefclk (h + 1) false, .vss,
   .hrefclk (h + 2) true, .hrefclk (h + 2) false, .vss, .hrefclk (h + 3) true, .hrefclk (h + 3) false, .vss,
   .frefclk f true, .frefclk f false, .vss, .vss]

def mgtRow (f m : Nat) : List Land :=
  [.frefclk f true, .frefclk f false, .vss, .mgt m true true, .mgt m true false, .vss, .mgt m false true, .mgt m false false]

def senseRow (l : List Rail) : List Land := l.flatMap (fun r => [.sense r false, .sense r true])

def edgeRow (east : Bool) (r : Nat) : Option (List Land) :=
  if r = 17 then some (if east then refclkRow 4 2 else refclkRow 0 0)
  else if r = 19 then
    some (if east then mgtRow 3 1 else mgtRow 1 0 ++ [.vss, .mrefclk, .vss, .tickIn, .vss, .tickOut, .vss, .vss])
  else if r = 116 then
    some (if east then senseRow [.eng, .sram, .stk, .stkq, .linkD, .linkA, .flc, .flio]
      else [.i3cScl, .i3cSda, .spiClk, .spiCs, .spiIo 0, .spiIo 1, .spiIo 2, .spiIo 3, .tck, .tms, .tdi, .tdo, .trst])
  else if r = 118 then
    some (if east then senseRow [.host, .hostA, .mgt, .io18]
      else [.mgtPwrgood, .mainPwrgood, .resetN, .thermtrip, .pwrAlert] ++ (List.range 8).map Land.perst)
  else none

/-- R654, R656: the west and east bands; `c` is the column counted from the outer edge, 1 to 16. -/
def sideBand (east : Bool) (r c : Nat) : Land :=
  match edgeRow east r with
  | some l => l.getD (c - 1) .vss
  | none =>
    let lane := (c - 1) / 2
    let pos := c % 2 == 1
    if 20 ≤ r ∧ r ≤ 83 then
      let k := (r - 20) / 4 + (if east then 16 else 0)
      if (r - 20) % 4 = 0 then .fabric k lane true pos
      else if (r - 20) % 4 = 2 then .fabric k lane false pos
      else .vss
    else if 84 ≤ r ∧ r ≤ 115 then
      let h := (r - 84) / 8 + (if east then 4 else 0)
      let o := (r - 84) % 8
      if o % 2 = 1 then .vss
      else .host h (lane + (if 4 ≤ o then 8 else 0)) (o % 4 == 0) pos
    else .vss

/-- R650 to R656: the land at row `r` and column `c`, 1 to 134; none where the position is unpopulated. -/
def landAt (r c : Nat) : Option Land :=
  if r = 0 ∨ c = 0 ∨ 134 < r ∨ 134 < c ∨ unpopulated r c = true then none
  else if r ≤ 16 then some (flashBand false r c)
  else if 119 ≤ r then some (flashBand true (135 - r) c)
  else if c ≤ 16 then some (sideBand false r c)
  else if 119 ≤ c then some (sideBand true r (135 - c))
  else if (r + c) % 2 = 0 then some .vss
  else match railOfRow r with
    | some x => some (.power x)
    | none => some .vss

/-- The centre of a land from the package centre, east and south, in units of 0.425 mm (R667). -/
def landCentre (r c : Nat) : Int × Int := (2 * (c : Int) - 135, 2 * (r : Int) - 135)

end Sys2Proof.Machine
end

