-- ==== Sys2Proof/Machine/Views.lean ====
section
/-! DEFINITION. What registers and wide values read as (chapter 18 and the register tables of every chapter). A register
with no line here reads as the word it holds. -/

namespace Sys2Proof.Machine

/-- A register's word from its fields' values. -/
def pack (l : List (Fld × Nat)) : Word :=
  BitVec.ofNat 32 (l.foldl (fun (v : Nat) (e : Fld × Nat) => v + at_ e.1.lo (e.2 % 2 ^ e.1.len)) 0)

/-- A wide value from the lowest bits and the values of its fields. -/
def wide (l : List (Nat × Nat)) : Wide :=
  BitVec.ofNat 256 (l.foldl (fun (v : Nat) (e : Nat × Nat) => v + at_ e.1 e.2) 0)

/-- Four 64-bit counts, modulo 2^64. -/
def counts4 (a b c d : Nat) : Wide :=
  wide [(0, a % 2 ^ 64), (64, b % 2 ^ 64), (128, c % 2 ^ 64), (192, d % 2 ^ 64)]

def low32 (t : Nat) : Nat := t % 2 ^ 32

def Tab.count {α : Type} (t : Tab α) (p : α → Bool) : Nat := (t.filter (fun e => p e.2)).length

/-! ## Registers -/

/-- TIK_STAT: the offset magnitude saturates; with no estimate it reads 0xFF. -/
def State.viewTikStat (s : State) : Word :=
  pack [(F.TIK_STAT_OFFSET_NS, if s.tick.offsetKnown then min 255 s.tick.offset.natAbs else 255),
    (F.TIK_STAT_SYNC, s.tick.sync.code)]

/-- The physical slots of a cluster's units that have failed: those left for the spare, and those failed in place. -/
def State.failedSlots (s : State) (die region cluster n : Nat) : Nat :=
  (List.range n).foldl (fun (m : Nat) u =>
    let x := s.unitOf (at_ 24 die + at_ 20 region + at_ 16 cluster + at_ 8 u)
    let m := if x.slot ≠ u then m ||| 2 ^ u else m
    if x.failed then m ||| 2 ^ x.slot else m) 0

/-- Registers of blocks IDN and HIF. -/
def State.viewHost (s : State) (off : Nat) : Word :=
  let p := s.hport (s.fld F.HIF_PORT_SEL_PORT)
  let ring := s.ring (s.fld F.HIF_RING_SEL_RING)
  if off = Reg.IDN_PART then s.word off ||| BitVec.ofNat 32 (boolNat (s.sec.fuses.getLsbD 1))
  else if off = Reg.IDN_EVT_SUM then
    pack [(F.IDN_EVT_SUM_BLOCKS, maskOf ((List.range blockCount).filter s.evtSum))]
  else if off = Reg.HIF_PORT_STAT then
    pack [(F.HIF_PORT_STAT_DEC_COMMITTED, p.committed), (F.HIF_PORT_STAT_RATE, p.rate), (F.HIF_PORT_STAT_WIDTH, p.width),
      (F.HIF_PORT_STAT_LINK_UP, boolNat p.up)]
  else if off = Reg.HIF_PORT_CFG then p.cfg
  else if off = Reg.HIF_LAYOUT then p.layout
  else if off = Reg.HIF_EXT_ENTRY then s.ext (s.fld F.HIF_EXT_SEL_EXT)
  else if off = Reg.HIF_RING_CTRL then
    pack [(F.HIF_RING_CTRL_ENABLE, boolNat (ring.state == .active || ring.state == .error))]
  else if off = Reg.HIF_RING_STAT then
    pack [(F.HIF_RING_STAT_STATE, ring.state.code), (F.HIF_RING_STAT_PHASE, boolNat ring.phase),
      (F.HIF_RING_STAT_OUTSTANDING, s.outstandingOf (.ring (s.fld F.HIF_RING_SEL_RING)))]
  else s.word off

/-- Registers of block FAB. -/
def State.viewFab (s : State) (off : Nat) : Word :=
  let p := s.port (s.fld F.FAB_PORT_SEL_PORT)
  let q := s.subq (s.fld F.FAB_SUBQ_SEL_QUEUE)
  let own := s.granule (s.fld F.FAB_OWN_SEL_GRANULE)
  if off = Reg.FAB_DEVID_STAT then
    pack [(F.FAB_DEVID_STAT_JOINED, boolNat s.fab.joined), (F.FAB_DEVID_STAT_SET, boolNat s.fab.devidSet)]
  else if off = Reg.FAB_WIN_STAT then
    pack [(F.FAB_WIN_STAT_PENDING, boolNat s.win.pending.isSome), (F.FAB_WIN_STAT_DRAINING, boolNat s.win.draining),
      (F.FAB_WIN_STAT_VALID_COUNT, Tab.count s.win.committed winValid)]
  else if off = Reg.FAB_ORD_STAT then pack [(F.FAB_ORD_STAT_FLAGS_HELD, s.ord.held.length)]
  else if off = Reg.FAB_PORT_CTRL then
    pack [(F.FAB_PORT_CTRL_MIN_LANES, p.minLanes), (F.FAB_PORT_CTRL_ENABLE, boolNat p.enable)]
  else if off = Reg.FAB_PORT_STAT then
    pack [(F.FAB_PORT_STAT_LANE_GOOD, p.good), (F.FAB_PORT_STAT_WIDTH, p.width), (F.FAB_PORT_STAT_STATE, p.state.code)]
  else if off = Reg.FAB_PORT_EVT then BitVec.ofNat 32 p.evt
  else if Reg.FAB_VC_CFG 0 ≤ off ∧ off ≤ Reg.FAB_VC_CFG 7 then p.vcCfg.getD ((off - Reg.FAB_VC_CFG 0) / 4) 0
  else if off = Reg.FAB_TAG_STAT then pack [(F.FAB_TAG_STAT_IN_USE, s.fab.outstanding.length)]
  else if off = Reg.FAB_OWN_ENTRY then pack [(F.FAB_OWN_ENTRY_MODE, own.2), (F.FAB_OWN_ENTRY_OWNER, own.1)]
  else if off = Reg.FAB_SUBQ_CTRL then
    pack [(F.FAB_SUBQ_CTRL_ENABLE, boolNat (q.state == .active || q.state == .error))]
  else if off = Reg.FAB_SUBQ_STAT then
    pack [(F.FAB_SUBQ_STAT_STATE, q.state.code), (F.FAB_SUBQ_STAT_PHASE, boolNat q.phase),
      (F.FAB_SUBQ_STAT_DEPTH, q.queue.length)]
  else s.word off

/-- Registers of blocks XLT, TIR and CDC. -/
def State.viewMemory (s : State) (off : Nat) : Word :=
  let h := s.fld F.TIR_REGION_SEL_REGION
  let x := s.split h
  let t := s.cdcTable (s.fld F.CDC_TABLE_SEL_TABLE)
  if off = Reg.XLT_STAT then
    pack [(F.XLT_STAT_MIG_ACTIVE, s.xlt.migrations.length), (F.XLT_STAT_ASSIST_PENDING, s.xlt.assist.length)]
  else if off = Reg.TIR_SPLIT then
    pack [(F.TIR_SPLIT_TIER, x.tier), (F.TIR_SPLIT_RCACHE, x.rcache), (F.TIR_SPLIT_KVHOT, x.kvhot),
      (F.TIR_SPLIT_SCRATCH, x.scratch)]
  else if off = Reg.TIR_SPLIT_STAT then
    pack [(F.TIR_SPLIT_STAT_PENDING, boolNat (s.tier.splitPending.has h)),
      (F.TIR_SPLIT_STAT_FREE, 128 - s.tier.retired.get 0 h - splitSum x),
      (F.TIR_SPLIT_STAT_SCRATCH_USED, ceilDiv (s.scratchUsed h) 1024)]
  else if off = Reg.TIR_STAT then
    pack [(F.TIR_STAT_PINNED, s.pinnedCount), (F.TIR_STAT_PROMOTED, Tab.count s.tier.granules (fun g => g.on != 0))]
  else if off = Reg.CDC_TABLE_STAT then
    if t.phase = .free then 0
    else pack [(F.CDC_TABLE_STAT_STATE, t.phase.code), (F.CDC_TABLE_STAT_SLICE, t.slice), (F.CDC_TABLE_STAT_FORMAT, t.format)]
  else if off = Reg.CDC_STAT then
    pack [(F.CDC_STAT_VALID_TABLES, Tab.count s.cdc.tables (fun t => t.phase == .valid)), (F.CDC_STAT_BUILDING, s.building)]
  else s.word off

/-- Registers of blocks MTX and EMB. -/
def State.viewEngine (s : State) (off : Nat) : Word :=
  let n := s.fld F.MTX_PROG_SEL_SLOT
  let k := s.fld F.MTX_CLUSTER_SEL_CLUSTER
  let t := s.fld F.EMB_TBL_SEL_TABLE
  let e := s.fld F.EMB_CLUSTER_SEL_CLUSTER
  let runs := Tab.count s.rings.descs (fun d => dOpcode d.bits == 0x31 && trHandle d.bits % 256 == n
    && (d.phase == .admitted || d.phase == .running))
  if off = Reg.MTX_PROG_STAT then
    pack [(F.MTX_PROG_STAT_STATE, (s.prog n).phase.code), (F.MTX_PROG_STAT_SLICE, (s.prog n).slice),
      (F.MTX_PROG_STAT_GEN, (s.prog n).gen), (F.MTX_PROG_STAT_RUNS, min 255 runs)]
  else if off = Reg.MTX_CLUSTER_STAT then
    pack [(F.MTX_CLUSTER_STAT_IN_SERVICE, boolNat (s.mtxIn k)),
      (F.MTX_CLUSTER_STAT_V_FAILED, boolNat (s.unitOf (at_ 24 (k / 16) + at_ 20 (k / 4 % 4) + at_ 16 (k % 4) + at_ 8 8)).failed),
      (F.MTX_CLUSTER_STAT_FAILED_SLOTS, s.failedSlots (k / 16) (k / 4 % 4) (k % 4) 8),
      (F.MTX_CLUSTER_STAT_BUF_USED_KIB, s.bufUsed k)]
  else if off = Reg.MTX_STAT then
    pack [(F.MTX_STAT_OUT_OF_SERVICE, ((List.range 96).filter (fun k => !s.mtxIn k)).length),
      (F.MTX_STAT_LOADED, Tab.count s.mtx.progs (fun p => p.phase == .loaded))]
  else if off = Reg.EMB_TBL_STAT then
    let x := s.table t
    if x.phase = .free then 0
    else pack [(F.EMB_TBL_STAT_STATE, x.phase.code), (F.EMB_TBL_STAT_PRIV, boolNat (s.embPriv x.slice t)),
      (F.EMB_TBL_STAT_POLICY, boolNat x.defaulting), (F.EMB_TBL_STAT_UPDATABLE, boolNat x.desc.updatable),
      (F.EMB_TBL_STAT_SLICE, x.slice), (F.EMB_TBL_STAT_LIVE_IMAGES, (s.liveImages t).length)]
  else if off = Reg.EMB_PRIV_ENTRY then s.emb.privileged.get 0 (s.fld F.EMB_PRIV_SEL_ENTRY)
  else if off = Reg.EMB_STAT then pack [(F.EMB_STAT_LOADED, Tab.count s.emb.tables (fun x => x.phase == .loaded))]
  else if off = Reg.EMB_CLUSTER_STAT then
    pack [(F.EMB_CLUSTER_STAT_IN_SERVICE, boolNat (s.embIn e)),
      (F.EMB_CLUSTER_STAT_FAILED_SLOTS, s.failedSlots (e / 8) (e / 2 % 4) (4 + e % 2) 4)]
  else if off = Reg.EMB_UPD_STAT then
    match s.update t with
    | none => 0
    | some u => pack [(F.EMB_UPD_STAT_STATE, if u.stopping then 2 else 1), (F.EMB_UPD_STAT_OPT, u.opt),
        (F.EMB_UPD_STAT_SETS_USED, u.windows.length), (F.EMB_UPD_STAT_WINDOW_TICKS, u.ticks)]
  else s.word off

/-- Registers of blocks SRH, KVS and QUE. -/
def State.viewService (s : State) (off : Nat) : Word :=
  let n := s.fld F.SRH_IDX_SEL_INDEX
  let c := s.chan (s.fld F.SRH_CHAN_SEL_CHANNEL)
  let p := s.pool (s.fld F.KVS_POOL_SEL_POOL)
  let q := s.queue (s.fld F.QUE_Q_SEL_QUEUE)
  if off = Reg.SRH_IDX_STAT then
    let x := s.index n
    if x.phase = .free then 0
    else pack [(F.SRH_IDX_STAT_STATE, x.phase.code), (F.SRH_IDX_STAT_MERGING, boolNat (s.srh.passes.any (fun m => m.index == n))),
      (F.SRH_IDX_STAT_HOME_DIE, x.home), (F.SRH_IDX_STAT_SLICE, x.slice)]
  else if off = Reg.SRH_CHAN_STAT then
    pack [(F.SRH_CHAN_STAT_IN_SERVICE, boolNat c.inService), (F.SRH_CHAN_STAT_SCORER_FAILED, boolNat c.scorerFailed),
      (F.SRH_CHAN_STAT_PRESENT, boolNat c.present)]
  else if off = Reg.SRH_STAT then
    pack [(F.SRH_STAT_CHANNELS_IN_SERVICE, s.channelsIn (2 ^ 64 - 1)),
      (F.SRH_STAT_LIVE, Tab.count s.srh.indexes (fun x => x.phase == .live))]
  else if off = Reg.KVS_POOL_STAT then
    if p.phase = .free then 0
    else pack [(F.KVS_POOL_STAT_STATE, p.phase.code), (F.KVS_POOL_STAT_ASSISTED, boolNat p.assisted),
      (F.KVS_POOL_STAT_SLICE, p.slice)]
  else if off = Reg.KVS_STAT then pack [(F.KVS_STAT_SEQUENCES, s.kv.seqs.length)]
  else if off = Reg.KVS_RS_STAT then pack [(F.KVS_RS_STAT_IN_USE, s.kv.reqs.length)]
  else if off = Reg.QUE_Q_STAT then
    if q.phase = .free then 0
    else pack [(F.QUE_Q_STAT_STATE, q.phase.code), (F.QUE_Q_STAT_RETAIN, boolNat q.retain), (F.QUE_Q_STAT_SLICE, q.slice),
      (F.QUE_Q_STAT_MARK_VALID, maskOf q.marks.keys)]
  else if off = Reg.QUE_Q_COUNT then pack [(F.QUE_Q_COUNT_COUNT, q.count)]
  else if off = Reg.QUE_STAT then pack [(F.QUE_STAT_LIVE, Tab.count s.que.queues (fun q => q.phase == .live))]
  else s.word off

/-- Registers of blocks TIK, DIR, STK, SEC, RAS and CMP. -/
def State.viewSystem (s : State) (off : Nat) : Word :=
  let c := s.fld F.STK_CHAN_SEL_CHANNEL
  let k := s.fld F.STK_STACK_SEL_STACK
  let st := s.stk.stackTab.get {} k
  let slot := s.slot (s.fld F.SEC_SLOT_SEL_SLOT)
  let inStack := fun (k : Nat) => (List.range 16).filter (fun i => s.dchanIn (16 * k + i))
  if off = Reg.TIK_STAT then s.viewTikStat
  else if off = Reg.DIR_STAT then
    pack [(F.DIR_STAT_DOMAIN, s.dir.domain.code), (F.DIR_STAT_IN_USE, s.dir.entries.length)]
  else if off = Reg.STK_CHAN_STAT then
    pack [(F.STK_CHAN_STAT_IN_SERVICE, boolNat (s.dchanIn c)), (F.STK_CHAN_STAT_TRAINED, boolNat (s.dchan c).trained),
      (F.STK_CHAN_STAT_RETIRED, boolNat (s.dchan c).retired), (F.STK_CHAN_STAT_SPARE_ROWS_FREE, (s.dchan c).spareRows)]
  else if off = Reg.STK_STACK_STAT then
    pack [(F.STK_STACK_STAT_TRAINED, boolNat st.trained), (F.STK_STACK_STAT_HOT_REFRESH, boolNat st.hot),
      (F.STK_STACK_STAT_TEMP_C, st.tempC), (F.STK_STACK_STAT_CHANNELS, maskOf (inStack k))]
  else if off = Reg.STK_STAT then
    pack [(F.STK_STAT_STACKS_TRAINED, Tab.count s.stk.stackTab (fun x => x.trained)),
      (F.STK_STAT_CHANNELS, (((List.range 12).map (fun k => (inStack k).length)).foldl (· + ·) 0))]
  else if off = Reg.SEC_STAT then
    pack [(F.SEC_STAT_CONF_PORTS, maskOf s.sec.conf.keys), (F.SEC_STAT_SAMPLE, boolNat (s.sec.fuses.getLsbD 1)),
      (F.SEC_STAT_DBG_DISABLED, boolNat (s.sec.fuses.getLsbD 0))]
  else if off = Reg.SEC_SLOT_STAT then
    if slot.phase = .free then 0
    else pack [(F.SEC_SLOT_STAT_STATE, slot.phase.code), (F.SEC_SLOT_STAT_EPOCH, slot.epoch),
      (F.SEC_SLOT_STAT_SLICE, if s.fld F.SEC_SLOT_SEL_SLOT = 0 then 0 else slot.slice)]
  else if off = Reg.RAS_STAT then
    pack [(F.RAS_STAT_SUSPECT, boolNat s.ras.suspect), (F.RAS_STAT_PENDING, s.faults.length)]
  else if off = Reg.CMP_SLICE_STAT then
    pack [(F.CMP_SLICE_STAT_EXISTS, boolNat (s.sliceExists s.sliceSel)),
      (F.CMP_SLICE_STAT_PENDING, boolNat (s.slices.pending.has s.sliceSel))]
  else if off = Reg.CMP_STAT then pack [(F.CMP_STAT_SLICES, Tab.count s.slices.committed sliceExistsBits)]
  else s.word off

/-- What a read of the register at `off` finds; 0 where there is none (R530). -/
def State.viewWord (s : State) (off : Nat) : Word :=
  if !isRegister off then 0
  else
    let b := off / 0x10000
    if b ≤ B_HIF then s.viewHost off
    else if b = B_FAB then s.viewFab off
    else if b = B_XLT ∨ b = B_TIR ∨ b = B_CDC then s.viewMemory off
    else if b = B_MTX ∨ b = B_EMB then s.viewEngine off
    else if b = B_SRH ∨ b = B_KVS ∨ b = B_QUE then s.viewService off
    else s.viewSystem off

/-! ## Wide values -/

/-- A last-error value whose first fields are `lo`: location code at bit 64, tick at bit 96. -/
def lastErr (lo : List (Nat × Nat)) (loc tick : Nat) : Wide := wide (lo ++ [(64, low32 loc), (96, low32 tick)])

/-- Wide values of blocks IDN, HIF, TIK and XLT. -/
def State.wideLow (s : State) (id : Nat) : Option Wide :=
  let port := s.fld F.HIF_PORT_SEL_PORT
  let p := s.hport port
  let range := s.fld F.HIF_SHR_SEL_RANGE
  let x := s.host.shr.get {} range
  let d := s.shrLive range
  let ring := s.ring (s.fld F.HIF_RING_SEL_RING)
  let c := s.fld F.XLT_CTX_SEL_CTX
  if id = 0x0000 then some (s.boot.serial.zeroExtend 256)
  else if id = 0x0001 then some (s.boot.firmware.zeroExtend 256)
  else if id = 0x0100 then some ((s.host.shrDesc.get 0 range).zeroExtend 256)
  else if id = 0x0101 then
    if x.slots = [] then some 0
    else some (wide [(0, low32 (x.slots.get { version := 0 } x.newest).version), (32, x.newest % 16), (36, x.draft % 16),
      (40, boolNat x.broken), (48, maskOf x.slots.keys), (64, x.spareCount (bitsOf d 16 7) (bitsOf d 24 7))])
  else if id = 0x0102 then some (counts4 p.poisonReads p.droppedWrites p.revokeDrops p.shrDrops)
  else if id = 0x0103 then
    let (dp, dec, reason, o, t) := s.host.lastDrop
    some (wide [(0, dp % 8), (3, dec % 4), (16, reason % 2 ^ 16), (32, o % 2 ^ 64), (96, low32 t)])
  else if id = 0x0110 then some ring.record
  else if id = 0x0111 then
    some (wide [(0, ring.sqHead), (16, ring.sqTail), (32, ring.cqHead), (48, ring.cqTail), (64, ring.completions % 2 ^ 64)])
  else if id = 0x0112 then
    let (r, w, dr) := s.rings.assistCounts.get (0, 0, 0) port
    some (wide [(0, r % 2 ^ 64), (64, w % 2 ^ 64), (128, dr % 2 ^ 64),
      (192, (s.rings.assist.filter (fun a => a.port == port)).length)])
  else if id = 0x0200 then some (BitVec.ofNat 256 s.tick.now)
  else if id = 0x0201 then some (wide [(0, s.tick.boundaryNs % 10 ^ 9), (32, s.tick.boundaryNs / 10 ^ 9 % 2 ^ 48)])
  else if id = 0x0202 then some (BitVec.ofNat 256 (s.tick.missed % 2 ^ 64))
  else if id = 0x0203 then
    some (wide [(0, s.tick.edgesIgnored % 2 ^ 64), (64, s.tick.pktDiscarded % 2 ^ 64),
      (128, (s.tick.change.getD (0, 0)).1), (160, (s.tick.change.getD (0, 0)).2 % 2 ^ 64)])
  else if 0x0240 ≤ id ∧ id ≤ 0x027F then
    let x := s.tick.stats.get {} (id - 0x0240)
    some (counts4 x.admitted x.delayed x.refused x.overrun)
  else if id = 0x0300 then some (s.xlt.committed.get 0 c)
  else if id = 0x0301 then some ((s.xlt.mranges.get 0 (8 * c + s.fld F.XLT_CTX_SEL_MR)).zeroExtend 256)
  else if id = 0x0302 then some (counts4 s.xlt.clusterMisses s.xlt.dieMisses s.xlt.walkCount s.xlt.migCount)
  else if id = 0x0303 then
    let (va, ctx, reason, t) := s.xlt.lastFault
    some (wide [(0, va % 2 ^ 64), (64, ctx % 1024), (80, reason % 2 ^ 16), (96, low32 t)])
  else none

/-- Wide values of blocks TIR, CDC, MTX and EMB. -/
def State.wideEngine (s : State) (id : Nat) : Option Wide :=
  let p := s.prog (s.fld F.MTX_PROG_SEL_SLOT)
  let n := s.fld F.EMB_TBL_SEL_TABLE
  let t := s.table n
  let live := t.phase != .free
  if id = 0x0400 then some (counts4 s.tier.promotions s.tier.demotions s.tier.skipped s.tier.keyCross)
  else if id = 0x0401 then some (counts4 s.tier.lateAtIssue s.tier.lateAtDeadline s.tier.lateDiscards s.tier.partsLost)
  else if id = 0x0402 then some (BitVec.ofNat 256 (s.tier.nomDrops % 2 ^ 64))
  else if id = 0x0500 then
    some (BitVec.ofNat 256 (leNat (((s.cdcTable (s.fld F.CDC_TABLE_SEL_TABLE)).image.drop (32 * s.fld F.CDC_TABLE_SEL_CHUNK)).take 32)))
  else if id = 0x0501 then some (counts4 s.cdc.decoded s.cdc.encoded s.cdc.rawStored s.cdc.bubbles)
  else if id = 0x0502 then some (counts4 s.cdc.decodeErrors s.cdc.classOver s.cdc.plainOverwrites s.cdc.adoptRejects)
  else if id = 0x0503 then
    let (d, reason, loc, tk) := s.cdc.lastError
    some (lastErr [(0, d % 2 ^ 44), (48, reason % 2 ^ 16)] loc tk)
  else if id = 0x0600 then
    if p.phase = .free then some 0
    else some (wide [(0, p.programId), (64, p.weightBytes), (128, p.reserve), (192, p.ops.length), (208, p.places.length)])
  else if id = 0x0601 then some (BitVec.ofNat 256 (leNat p.digest))
  else if id = 0x0602 then some (BitVec.ofNat 256 (leNat (p.digest.drop 32)))
  else if id = 0x0603 then some (counts4 s.mtx.tiles s.mtx.retries s.mtx.intSat s.mtx.poisoned)
  else if id = 0x0604 then
    let (h, i, reason, loc, tk) := s.mtx.lastError
    some (lastErr [(0, h % 2 ^ 16), (16, i % 2 ^ 16), (32, reason % 2 ^ 16)] loc tk)
  else if id = 0x0700 then
    if !live then some 0
    else some (wide [(0, low32 t.version), (32, low32 (s.oldestLive n)), (64, t.desc.rows % 2 ^ 41), (112, t.desc.colOff),
      (128, t.desc.cols), (144, t.desc.total), (160, t.desc.name), (224, t.desc.elem), (232, t.desc.tflags)])
  else if id = 0x0701 then some (counts4 t.counts.indices t.counts.drops t.counts.defaulted t.counts.poisoned)
  else if id = 0x0702 then some (counts4 s.emb.hits s.emb.misses s.emb.admits s.emb.staleServed)
  else if id = 0x0703 then
    let (tb, reason, loc, tk) := s.emb.lastError
    some (lastErr [(0, tb % 2 ^ 16), (16, reason % 2 ^ 16)] loc tk)
  else if id = 0x0710 then
    let g := (s.update n).bind EmbUpdate.gathering
    some (wide [(0, low32 t.counts.lastWindow), (32, low32 t.counts.lastCommit),
      (64, match g with | some w => low32 w.k | none => 0), (96, match g with | some w => w.rows.length | none => 0),
      (128, if live then low32 t.desc.maxWin else 0)])
  else if id = 0x0711 then
    some (counts4 t.counts.contributions t.counts.rowsUpdated t.counts.mergeFull t.counts.withdrawn)
  else if id = 0x0712 then
    some (counts4 t.counts.nonfinite t.counts.poisonRows t.counts.saturations t.counts.extended)
  else if id = 0x0713 then
    let (tb, reason, row, tk) := s.emb.updError
    some (wide [(0, tb % 2 ^ 16), (16, reason % 2 ^ 16), (32, row % 2 ^ 40), (96, low32 tk)])
  else none

/-- Wide values of blocks SRH, KVS, QUE and DIR. -/
def State.wideService (s : State) (id : Nat) : Option Wide :=
  let x := s.index (s.fld F.SRH_IDX_SEL_INDEX)
  let cn := s.fld F.SRH_CHAN_SEL_CHANNEL
  let c := s.chan cn
  let pn := s.fld F.KVS_POOL_SEL_POOL
  let p := s.pool pn
  let q := s.queue (s.fld F.QUE_Q_SEL_QUEUE)
  if id = 0x0800 then
    if x.phase = .free then some 0
    else some (wide [(0, low32 x.desc.leaves), (32, low32 x.slotsUsed), (64, low32 x.marked.length), (96, low32 x.lastSwap),
      (128, x.present.length), (192, x.desc.name)])
  else if id = 0x0801 then some (counts4 x.queries x.inserts x.deletes x.carried)
  else if id = 0x0802 then
    let used := (s.srh.pages.filter (fun e => fpaChan e.1 == cn)).length
      + (s.srh.programs.filter (fun e => fpaChan e.fpa == cn)).length
    some (wide [(0, low32 c.usable), (32, low32 (c.usable - used)), (64, c.pagesRead % 2 ^ 64),
      (128, c.uncorrectable % 2 ^ 64), (192, c.moves % 2 ^ 64)])
  else if id = 0x0803 then
    let (fpa, index, reason, loc, tk) := s.srh.lastError
    some (lastErr [(0, fpa % 2 ^ 33), (33, index % 256), (48, reason % 2 ^ 16)] loc tk)
  else if id = 0x0804 then some (counts4 s.srh.mPasses s.srh.mAbandoned s.srh.mWritten s.srh.mReclaimed)
  else if id = 0x0900 then
    if p.phase = .free then some 0
    else some (wide [(0, low32 p.pages), (32, low32 (s.freeLocal pn)), (64, low32 p.ovfPages), (96, low32 (s.freeOverflow pn)),
      (128, low32 (s.poolSeqs pn)), (160, low32 (s.kvAlloc pn).copies.length), (192, p.perPage % 2 ^ 16)])
  else if id = 0x0901 then some (counts4 s.kv.appends s.kv.tokens s.kv.cowCopies s.kv.hotReads)
  else if id = 0x0902 then some (counts4 s.kv.stateLost s.kv.rollbackPages s.kv.poolFull s.kv.poisoned)
  else if id = 0x0903 then
    let (r, reason, loc, tk) := s.kv.lastError
    some (lastErr [(0, r % 2 ^ 48), (48, reason % 2 ^ 16)] loc tk)
  else if id = 0x0A00 then
    if q.phase = .free then some 0
    else some (wide [(0, q.cap), (40, q.used % 2 ^ 40), (80, low32 q.retained), (112, q.maxItem % 2 ^ 17)])
  else if id = 0x0A01 then some (counts4 q.pushed q.popped q.flushed q.full)
  else if id = 0x0A02 then
    let (n, reason, loc, tk) := s.que.lastError
    some (lastErr [(0, n % 4096), (16, reason % 2 ^ 16)] loc tk)
  else if id = 0x0B00 then
    some (wide [(0, s.dir.downPort % 8), (8, s.dir.downLine % 2 ^ 38), (64, low32 s.dir.downTick), (96, low32 s.dir.poisoned)])
  else if id = 0x0B01 then some (counts4 s.dir.bisnpSent s.dir.capRecalls s.dir.staleSnoops s.dir.holdWaits)
  else none

/-- Wide values of block FAB. -/
def State.wideFab (s : State) (id : Nat) : Option Wide :=
  let w := s.fld F.FAB_WIN_SEL_WIN
  let c := s.counter (s.fld F.FAB_ARR_SEL_CTR)
  let e := s.epochOf (s.fld F.FAB_EPOCH_SEL_ORIGIN)
  let p := s.port (s.fld F.FAB_PORT_SEL_PORT)
  let q := s.subq (s.fld F.FAB_SUBQ_SEL_QUEUE)
  let cd := s.fab.congDst.get {} (s.fld F.FAB_CONG_SEL_DEST)
  let cw := s.fab.congWin.get {} (s.fld F.FAB_CONG_SEL_WIN)
  if id = 0x0C00 then some ((s.win.shadow.get 0 w).zeroExtend 256)
  else if id = 0x0C01 then some ((s.win.committed.get 0 w).zeroExtend 256)
  else if id = 0x0C02 then some (BitVec.ofNat 256 (s.win.refused % 2 ^ 64))
  else if id = 0x0C03 then
    some (wide [(0, s.win.lastFault.addr % 2 ^ 64), (64, s.win.lastFault.src % 2 ^ 16), (80, s.win.lastFault.reason % 2 ^ 16),
      (96, low32 s.win.lastFault.tick)])
  else if id = 0x0C10 then
    some (wide [(0, c.value), (64, c.threshold), (128, c.notify), (192, boolNat c.notifyEn), (193, boolNat c.armed)])
  else if id = 0x0C11 then
    some (wide [(0, e.accepted % 256), (8, e.announced % 256), (16, boolNat e.pendingTick.isSome),
      (32, low32 (e.pendingTick.getD 0))])
  else if id = 0x0C12 then some (BitVec.ofNat 256 (s.ord.staleCount % 2 ^ 64))
  else if id = 0x0C13 then some (BitVec.ofNat 256 (s.ord.flagTimeouts % 2 ^ 64))
  else if id = 0x0C14 then some (BitVec.ofNat 256 (s.ord.notifyFails % 2 ^ 64))
  else if id = 0x0C20 then some ((s.fab.route.get 0 (s.fld F.FAB_ROUTE_SEL_DEST)).zeroExtend 256)
  else if id = 0x0C21 then some ((s.fab.mcast.get 0 (s.fld F.FAB_MC_SEL_GROUP)).zeroExtend 256)
  else if id = 0x0C22 then some (counts4 cd.bytes cd.reqs cd.waitNs cd.refused)
  else if id = 0x0C23 then some (counts4 cw.bytes cw.reqs cw.waitNs cw.refused)
  else if id = 0x0C24 then some (counts4 p.corrected p.uncorrected p.retries p.creditStall)
  else if id = 0x0C25 then some (p.neighbour.zeroExtend 256)
  else if id = 0x0C26 then
    some (counts4 s.fab.drops.e2eCrc s.fab.drops.noRoute s.fab.drops.hopLimit s.fab.drops.badType)
  else if id = 0x0C27 then some (BitVec.ofNat 256 (s.fab.respTimeouts % 2 ^ 64))
  else if id = 0x0C28 then some (BitVec.ofNat 256 (s.fab.seqStale % 2 ^ 64))
  else if id = 0x0C30 then some q.record
  else if id = 0x0C31 then some (wide [(0, q.cqHead % 4096), (16, q.cqTail % 4096), (64, q.completions % 2 ^ 64)])
  else none

/-- Wide values of blocks STK, SEC, RAS, PWR and CMP. -/
def State.wideSystem (s : State) (id : Nat) : Option Wide :=
  let ch := s.dchan (s.fld F.STK_CHAN_SEL_CHANNEL)
  let ext := s.fld F.RAS_PG_SEL_EXTENT
  if id = 0x0D00 then some (counts4 ch.corrected ch.uncorrectable ch.rowsSpared ch.scrubPasses)
  else if id = 0x0D01 then
    let (d, kind, loc, tk) := s.stk.lastError
    some (lastErr [(0, d % 2 ^ 44), (48, kind % 256)] loc tk)
  else if id = 0x0E00 then some s.sec.otpData
  else if id = 0x0E01 then some s.sec.otpGen
  else if id = 0x0E02 then some (BitVec.ofNat 256 (s.sec.staleCount % 2 ^ 64))
  else if id = 0x0E03 then some (s.sec.fuses.zeroExtend 256)
  else if id = 0x0F00 then some (match s.faults with | [] => 0 | r :: _ => BitVec.ofNat 256 (leNat r.bytes))
  else if id = 0x0F01 then some (s.pg.shadow.get 0 ext)
  else if id = 0x0F02 then some (s.pg.committed.get 0 ext)
  else if id = 0x0F03 then some s.ras.lateness
  else if id = 0x1000 then some (counts4 819200 4000 13600 15600000000)
  else if id = 0x1001 then some (wide [(0, 2000000), (64, 30000)])
  else if id = 0x1002 then
    some (counts4 s.stk.energyMJ s.stk.reducedTicks s.stk.islandSwitches 0)
  else if 0x1100 ≤ id ∧ id ≤ 0x1107 then
    some (BitVec.ofNat 256 (bitsOf (s.sliceShadow s.sliceSel) (256 * (id - 0x1100)) 256))
  else if 0x1108 ≤ id ∧ id ≤ 0x110F then
    some (BitVec.ofNat 256 (bitsOf (s.slice s.sliceSel) (256 * (id - 0x1108)) 256))
  else if 0x1140 ≤ id ∧ id ≤ 0x117F then
    let m := s.slices.meters.get {} (id - 0x1140)
    some (counts4 m.unitTicks m.gibTicks m.laneTicks m.flashReads)
  else none

/-- The wide value of a mailbox ID, under the selectors as they stand (R537, R538); none where no value has the ID. -/
def State.wideValue (s : State) (id : Nat) : Option Wide :=
  let b := id / 256
  if b ≤ B_XLT then s.wideLow id
  else if b ≤ B_EMB then s.wideEngine id
  else if b ≤ B_DIR then s.wideService id
  else if b = B_FAB then s.wideFab id
  else s.wideSystem id

end Sys2Proof.Machine
end

