-- ==== Sys2Proof/Machine/RegRows.lean ====
section
/-! DEFINITION. Register access (chapter 17): writes of any register by any path, bit aliases, the guard protocol, mailboxes,
and the writes of ring enables that need what other chapters add. -/

namespace Sys2Proof.Machine

/-! ## Ring pairs (R496, R586) -/

/-- R586: the port of the selected pair is not confidential for another slot. -/
def State.ringConfOk (s : State) : Bool :=
  let r := (s.ring (s.fld F.HIF_RING_SEL_RING)).record
  match s.sec.conf.find (rgPort r) with
  | some k => k == rgKey r
  | none => true

def effRingCtrl : RegEffect := fun v s => s.ringCtrl s.ringConfOk v

/-- RING_ENABLE. -/
def execRingEnable (path : Nat) (value : Word) (cycle : Nat) (s : State) : Host.Outcome State Fault Refusal :=
  .next (s.guardPair path Reg.HIF_RING_CTRL value cycle (fun v => bitOf v 0) effRingCtrl)

/-- RING_DISABLE. -/
def execRingDisable (path : Nat) (value : Word) (cycle : Nat) (s : State) : Host.Outcome State Fault Refusal :=
  .next (s.guardPair path Reg.HIF_RING_CTRL value cycle (fun v => !bitOf v 0) effRingCtrl)

/-! ## The effect of a write, whatever the register -/

/-- A register stored as written where the value passes a check; REG_VALUE otherwise. -/
def effChecked (off : Nat) (ok : Word → State → Bool) : RegEffect := fun v s =>
  if ok v s then effStore off v s else (s, some REG_VALUE)

/-- A field of the value lies in a range. -/
def inRange (f : Fld) (lo hi : Nat) : Word → State → Bool := fun v _ =>
  decide (lo ≤ bitsOf v f.lo f.len) && decide (bitsOf v f.lo f.len ≤ hi)

/-- The ranges that chapters permit for registers with no other rule. -/
def regCheck (off : Nat) : Word → State → Bool :=
  if off = Reg.FAB_OWN_SEL then inRange F.FAB_OWN_SEL_GRANULE 0 18431
  else if off = Reg.FAB_ORD_CTRL then inRange F.FAB_ORD_CTRL_FLAG_TIMEOUT_US 100 65535
  else if off = Reg.FAB_ESC_CTRL then inRange F.FAB_ESC_CTRL_ESC_NS 20 65535
  else if off = Reg.FAB_REQ_CTRL then inRange F.FAB_REQ_CTRL_TIMEOUT_US 50 65535
  else if off = Reg.HIF_EXT_SEL then inRange F.HIF_EXT_SEL_EXT 0 1151
  else if off = Reg.DIR_CTRL then inRange F.DIR_CTRL_MIN_HOLD 1 64
  else if off = Reg.DIR_BI_TIMEOUT then inRange F.DIR_BI_TIMEOUT_US 100 3000
  else if off = Reg.XLT_MISS_TIMEOUT then inRange F.XLT_MISS_TIMEOUT_US 100 65535
  else if off = Reg.XLT_MIG_TIMEOUT then inRange F.XLT_MIG_TIMEOUT_US 100 65535
  else if off = Reg.TIR_REGION_SEL then inRange F.TIR_REGION_SEL_REGION 0 23
  else if off = Reg.TIR_POLICY then inRange F.TIR_POLICY_PROMOTE_AT 1 255
  else if off = Reg.TIR_AGE then inRange F.TIR_AGE_AGE_TICKS 1 65535
  else if off = Reg.TIR_RATE then fun v s =>
    inRange F.TIR_RATE_PIN_MAX_PCT 0 100 v s && inRange F.TIR_RATE_SKIP_PCT 0 100 v s
  else if off = Reg.TIR_DEADLINE then fun v s =>
    inRange F.TIR_DEADLINE_GUARD_US 1 65535 v s && decide (4 * bitsOf v F.TIR_DEADLINE_GUARD_US.lo F.TIR_DEADLINE_GUARD_US.len ≤ s.period)
  else if off = Reg.EMB_RC_POLICY then inRange F.EMB_RC_POLICY_ADMIT_MIN 1 255
  else if off = Reg.EMB_RC_AGE then inRange F.EMB_RC_AGE_AGE_TICKS 1 65535
  else if off = Reg.EMB_CLUSTER_SEL then inRange F.EMB_CLUSTER_SEL_CLUSTER 0 47
  else if off = Reg.MTX_CLUSTER_SEL then inRange F.MTX_CLUSTER_SEL_CLUSTER 0 95
  else if off = Reg.SRH_MERGE_POLICY then inRange F.SRH_MERGE_POLICY_SIDE_PCT 1 100
  else if off = Reg.KVS_HOT then fun v s => inRange F.KVS_HOT_HOT_MIN 1 255 v s && inRange F.KVS_HOT_AGE_TICKS 1 65535 v s
  else if off = Reg.STK_CHAN_SEL then inRange F.STK_CHAN_SEL_CHANNEL 0 191
  else if off = Reg.STK_STACK_SEL then inRange F.STK_STACK_SEL_STACK 0 11
  else if off = Reg.STK_SCRUB then inRange F.STK_SCRUB_PERIOD_H 1 65535
  else if off = Reg.RAS_PG_SEL then inRange F.RAS_PG_SEL_EXTENT 0 1151
  else fun _ _ => true

/-- FAB_PORT_EVT of the selected port: bits written 1 clear. -/
def effPortEvt : RegEffect := fun v s =>
  let n := s.fld F.FAB_PORT_SEL_PORT
  let p := s.port n
  (s.setPort n { p with evt := maskOf ((maskBits p.evt 5).filter (fun k => !bitOf v k)) }, none)

/-- The effect of a write of an unguarded register. -/
def effPlain (off cycle : Nat) : RegEffect :=
  if off = Reg.TIK_LEAD then effTikLead
  else if off = Reg.FAB_PORT_CTRL then effPortCtrl
  else if off = Reg.FAB_PORT_EVT then effPortEvt
  else if Reg.FAB_VC_CFG 0 ≤ off ∧ off ≤ Reg.FAB_VC_CFG 7 then effVcCfg ((off - Reg.FAB_VC_CFG 0) / 4)
  else if off = Reg.RAS_CTRL then effRasCtrl
  else if off = Reg.PWR_ISLAND_REQ then effIslandReq cycle
  else effChecked off (regCheck off)

/-- The effect of a completed pair of a guarded register (Table 18-2). -/
def effGuarded (off cycle : Nat) : RegEffect :=
  if off = Reg.IDN_FN_RESET then effFnReset
  else if off = Reg.HIF_PORT_CFG then effPortCfg
  else if off = Reg.HIF_LAYOUT then effLayout
  else if off = Reg.HIF_EXT_ENTRY then effExtEntry
  else if off = Reg.HIF_SHR_COMMIT then effShrCommit
  else if off = Reg.HIF_FN_MODE then effFnMode
  else if off = Reg.HIF_RING_CTRL then effRingCtrl
  else if off = Reg.TIK_CTRL then effTikCtrl
  else if off = Reg.TIK_PERIOD then effTikPeriod
  else if off = Reg.TIK_LULL then effTikLull
  else if off = Reg.XLT_CTX_COMMIT then effCtxCommit
  else if off = Reg.TIR_SPLIT then effTirSplit
  else if off = Reg.EMB_PRIV_ENTRY then effEmbPriv
  else if off = Reg.DIR_DOMAIN_RESET then effDomainReset
  else if off = Reg.FAB_CTRL then effFabCtrl
  else if off = Reg.FAB_DEVID then effDevid
  else if off = Reg.FAB_WIN_COMMIT then effWinCommit cycle
  else if off = Reg.FAB_OWN_ENTRY then effOwnEntry
  else if off = Reg.FAB_SUBQ_CTRL then effSubqCtrl
  else if off = Reg.SEC_SLOT_CTRL then effSlotCtrl
  else if off = Reg.SEC_OTP_CTRL then effOtpCtrl
  else if off = Reg.RAS_PG_COMMIT then effPgCommit
  else if off = Reg.PWR_CAP then effPwrCap
  else if off = Reg.PWR_THERM then effPwrTherm
  else if off = Reg.CMP_SLICE_COMMIT then effSliceCommit cycle
  else effStore off

/-- A write of `v` in force at the register at `off`, logged where it is refused under the address `addr` and data `data`; and
whether it is refused. -/
def State.tryEffect (s : State) (path off addr : Nat) (v data : Word) (eff : RegEffect) : State × Bool :=
  match eff v s with
  | (s', none) => (s', false)
  | (s', some reason) => (s'.logReject (off / 0x10000) addr data reason path, true)

/-! ## Mailboxes (R536 to R540) -/

def State.mbx (s : State) (m : Nat) : Mailbox := s.regs.mbx.get {} m
def State.setMbx (s : State) (m : Nat) (x : Mailbox) : State :=
  { s with regs := { s.regs with mbx := s.regs.mbx.put m x } }

/-- BAR0 offset of mailbox `m`. -/
def mbxAddr (m : Nat) : Nat := 0x120000 + 0x40 * m

/-- The mailbox is the path's (Table 17-1): m of path m up to 10, 11 to 15 of the service firmware's threads. -/
def ownsMbx (path m : Nat) : Bool := if path < 11 then m == path else decide (11 ≤ m) && decide (m < 16)

/-- Mailbox errors (Table 17-6) and the reasons they are logged with. -/
def MBX_ERR_UNKNOWN : Nat := 1
def MBX_ERR_READ_ONLY : Nat := 2
def MBX_ERR_REFUSED : Nat := 3
def MBX_ERR_NOT_VALID : Nat := 4
def MBX_ERR_PATH : Nat := 5

/-- Bits [lo + len − 1 : lo] of a wide value, for each range named; reserved bits read 0 (R5). -/
def keepBits (w : Wide) (l : List (Nat × Nat)) : Wide :=
  BitVec.ofNat 256 (l.foldl (fun (v : Nat) (e : Nat × Nat) => v + at_ e.1 (bitsOf w e.1 e.2)) 0)

/-- The fields of the wide values that may be written; none for a value that is read only. -/
def wideFields (id : Nat) : Option (List (Nat × Nat)) :=
  if id = 0x0100 then some [(0, 5), (8, 15), (24, 7), (32, 11), (48, 6), (64, 8)]
  else if id = 0x0110 then some [(0, 62), (64, 102), (192, 64)]
  else if id = 0x0200 then some [(0, 64)]
  else if id = 0x0300 then some [(0, 25), (64, 139), (208, 8)]
  else if id = 0x0301 then some [(0, 3), (12, 52), (76, 52)]
  else if id = 0x0C00 then some [(0, 4), (16, 28), (48, 24), (80, 6), (88, 40)]
  else if id = 0x0C10 then some [(0, 193)]
  else if id = 0x0C20 then some [(0, 37), (63, 1)]
  else if id = 0x0C21 then some [(0, 33), (40, 15), (63, 1)]
  else if id = 0x0C30 then some [(0, 50), (56, 72), (192, 64)]
  else if id = 0x0E00 then some [(0, 256)]
  else if id = 0x0F01 then some [(0, 36), (40, 155)]
  else if 0x1100 ≤ id ∧ id ≤ 0x1107 then some [(0, 256)]
  else none

/-- A WRITE of a wide value: the state after it, and REG_VALUE or REG_STATE where its own rule refuses it. -/
def State.wideWrite (s : State) (id : Nat) (w : Wide) : State × Option Nat :=
  let ring := s.fld F.HIF_RING_SEL_RING
  let q := s.fld F.FAB_SUBQ_SEL_QUEUE
  let c := s.fld F.XLT_CTX_SEL_CTX
  let b128 : BitVec 128 := BitVec.ofNat 128 (bitsOf w 0 128)
  let b64 : BitVec 64 := BitVec.ofNat 64 (bitsOf w 0 64)
  if id = 0x0100 then
    ({ s with host := { s.host with shrDesc := s.host.shrDesc.put (s.fld F.HIF_SHR_SEL_RANGE) b128 } }, none)
  else if id = 0x0110 then
    if (s.ring ring).state ≠ .disabled then (s, some REG_STATE) else (s.setRing ring { s.ring ring with record := w }, none)
  else if id = 0x0200 then setTickNow (bitsOf w 0 64) s
  else if id = 0x0300 then ({ s with xlt := { s.xlt with shadow := s.xlt.shadow.put c w } }, none)
  else if id = 0x0301 then
    ({ s with xlt := { s.xlt with mshadow := s.xlt.mshadow.put (8 * c + s.fld F.XLT_CTX_SEL_MR) b128 } }, none)
  else if id = 0x0C00 then
    if s.win.pending.isSome then (s, some REG_STATE)
    else ({ s with win := { s.win with shadow := s.win.shadow.put (s.fld F.FAB_WIN_SEL_WIN) b128 } }, none)
  else if id = 0x0C10 then
    let f := fun (x : Counter) =>
      { x with value := bitsOf w 0 64, threshold := bitsOf w 64 64, notify := bitsOf w 128 64, notifyEn := w.getLsbD 192 }
    (s.updateCounter (s.fld F.FAB_ARR_SEL_CTR) f, none)
  else if id = 0x0C20 then
    ({ s with fab := { s.fab with route := s.fab.route.put (s.fld F.FAB_ROUTE_SEL_DEST) b64 } }, none)
  else if id = 0x0C21 then
    ({ s with fab := { s.fab with mcast := s.fab.mcast.put (s.fld F.FAB_MC_SEL_GROUP) b64 } }, none)
  else if id = 0x0C30 then
    if (s.subq q).state ≠ .disabled then (s, some REG_STATE) else (s.setSubq q { s.subq q with record := w }, none)
  else if id = 0x0E00 then (s.setSec (fun x => { x with otpData := w }), none)
  else if id = 0x0F01 then ({ s with pg := { s.pg with shadow := s.pg.shadow.put (s.fld F.RAS_PG_SEL_EXTENT) w } }, none)
  else
    let n := s.sliceSel
    if s.slices.pending.has n then (s, some REG_STATE)
    else
      let d := putBits (s.sliceShadow n) (256 * (id - 0x1100)) 256 w.toNat
      (s.setSlices (fun x => { x with shadow := x.shadow.put n d }), none)

/-- The block that a mailbox ID names, or MBX. -/
def mbxBlock (id : Nat) : Nat := if id / 256 < blockCount then id / 256 else B_MBX

/-- The operation of a WRITE: the state after it, and the error code and reason it fails with. -/
def State.mbxDoWrite (s : State) (path id : Nat) (w : Wide) : State × Option (Nat × Nat) :=
  if (s.wideValue id).isNone then (s, some (MBX_ERR_UNKNOWN, MBX_UNKNOWN_ID))
  else if !s.mayWrite path (id / 256) then (s, some (MBX_ERR_PATH, REG_PATH))
  else match wideFields id with
    | none => (s, some (MBX_ERR_READ_ONLY, MBX_READ_ONLY))
    | some l => match s.wideWrite id (keepBits w l) with
      | (s', none) => (s', none)
      | (s', some r) => (s', some (MBX_ERR_REFUSED, r))

/-- A write of MBX_SEL that starts an operation (R538): what it does to the value, or copies of it, is done now; BUSY is 1 until
MAILBOX_OP_DONE. -/
def State.mbxStart (s : State) (path m : Nat) (v : Word) : State :=
  let id := bitsOf v 0 16
  let x := { s.mbx m with sel := v &&& 0xC000FFFF, started := v, valid := false, err := false, errCode := 0, busy := true
                          result := none }
  if bitsOf v 30 2 = 1 then
    match s.wideValue id with
    | some w => s.setMbx m { x with data := w }
    | none => s.setMbx m { x with result := some (MBX_ERR_UNKNOWN, 0) }
  else
    match s.mbxDoWrite path id x.data with
    | (s', r) => s'.setMbx m { x with result := r }

/-- A write of the register at offset `o` of mailbox `m`, logged under `addr` and `data`; and whether it is rejected. -/
def State.mbxWrite (s : State) (path m o addr : Nat) (v data : Word) : State × Bool :=
  let x := s.mbx m
  if 0x28 ≤ o then (s, false)
  else if !ownsMbx path m then (s.logReject B_MBX addr data MBX_PATH path, true)
  else if o = 0 then
    if bitsOf v 30 2 = 1 ∨ bitsOf v 30 2 = 2 then
      if x.busy then (s.logReject B_MBX addr data MBX_BUSY path, true) else (s.mbxStart path m v, false)
    else (s.setMbx m { x with sel := v &&& 0xC000FFFF }, false)
  else if o = 4 then (s, false)
  else if x.busy then (s.logReject B_MBX addr data MBX_BUSY path, true)
  else (s.setMbx m { x with data := putBits x.data (32 * ((o - 8) / 4)) 32 v.toNat }, false)

/-- A read of that register: the word, and the state after it (R539). -/
def State.mbxRead (s : State) (m o : Nat) : Word × State :=
  let x := s.mbx m
  if o = 0 then (x.sel, s)
  else if o = 4 then
    (BitVec.ofNat 32 (boolNat x.valid + at_ 1 (boolNat x.err) + at_ 2 (boolNat x.busy) + at_ 8 x.errCode), s)
  else if 0x28 ≤ o then (0, s)
  else if x.valid then (BitVec.ofNat 32 (bitsOf x.data (32 * ((o - 8) / 4)) 32), s)
  else (0, s.setMbx m { x with err := true, errCode := MBX_ERR_NOT_VALID })

/-- MAILBOX_READ: a write of MBX_SEL with OP READ. -/
def execMailboxRead (path m : Nat) (value : Word) (s : State) : Host.Outcome State Fault Refusal :=
  .next (if bitsOf value 30 2 = 1 ∧ m < 16 then (s.mbxWrite path m 0 (mbxAddr m) value value).1 else s)

/-- MAILBOX_WRITE: a write of MBX_SEL with OP WRITE. -/
def execMailboxWrite (path m : Nat) (value : Word) (s : State) : Host.Outcome State Fault Refusal :=
  .next (if bitsOf value 30 2 = 2 ∧ m < 16 then (s.mbxWrite path m 0 (mbxAddr m) value value).1 else s)

/-- MAILBOX_OP_DONE: the operation completes; a WRITE that failed is logged (R544). -/
def execMailboxOpDone (m : Nat) (s : State) : Host.Outcome State Fault Refusal :=
  let x := s.mbx m
  .next (if !x.busy then s
    else match x.result with
      | none => s.setMbx m { x with busy := false, valid := true }
      | some (code, reason) =>
        let s := s.setMbx m { x with busy := false, err := true, errCode := code, result := none }
        let id := bitsOf x.started 0 16
        if bitsOf x.started 30 2 = 2 then
          s.logReject (mbxBlock id) id (BitVec.ofNat 32 (bitsOf x.data 0 32)) reason (min m 11) true
        else s)

/-- MBX_DATA_READ: a read of MBX_DATAi of mailbox `m`. -/
def execMbxDataRead (path m w : Nat) (s : State) : Host.Outcome State Fault Refusal :=
  .next (if m < 16 ∧ w < 8 then
      match s.mbxRead m (8 + 4 * w) with
      | (v, s') => s'.emit (.regData path v.toNat)
    else s)

/-- TICK_NOW_WRITE (R71): a mailbox WRITE of TICK_NOW. -/
def execTickNowWrite (path m : Nat) (s : State) : Host.Outcome State Fault Refusal :=
  .next (if m < 16 then (s.mbxWrite path m 0 (mbxAddr m) 0x80000200 0x80000200).1 else s)

/-- ARRIVAL_COUNTER_WRITE (R132): a mailbox WRITE of FAB_ARR_COUNTER. -/
def execArrivalCounterWrite (path m : Nat) (s : State) : Host.Outcome State Fault Refusal :=
  .next (if m < 16 then (s.mbxWrite path m 0 (mbxAddr m) 0x80000C10 0x80000C10).1 else s)

/-! ## MSI-X arrays (R549) -/

/-- The port whose arrays a path reaches. -/
def State.msixPort (s : State) (path : Nat) : Nat := if path < 8 then path else s.fld F.HIF_PORT_SEL_PORT

def State.setMsix (s : State) (k : Nat) (e : Nat × Nat × Bool) : State :=
  { s with regs := { s.regs with msix := s.regs.msix.put k e } }

/-- A write of word `w` of entry `e` of port `p`'s table; an entry that is unmasked with its pending bit set sends. -/
def State.msixWrite (s : State) (p e w : Nat) (v : Word) : State :=
  let k := 1024 * p + e
  let (addr, data, masked) := s.regs.msix.get (0, 0, true) k
  if w = 0 then s.setMsix k (addr / 2 ^ 32 * 2 ^ 32 + v.toNat, data, masked)
  else if w = 1 then s.setMsix k (addr % 2 ^ 32 + at_ 32 v.toNat, data, masked)
  else if w = 2 then s.setMsix k (addr, v.toNat, masked)
  else
    let s := s.setMsix k (addr, data, bitOf v 0)
    if !bitOf v 0 && s.regs.pba.contains k then
      ({ s with regs := { s.regs with pba := s.regs.pba.filter (fun x => x != k) } }).sendMsix p e
    else s

def State.msixRead (s : State) (p e w : Nat) : Word :=
  let (addr, data, masked) := s.regs.msix.get (0, 0, true) (1024 * p + e)
  BitVec.ofNat 32 (if w = 0 then addr else if w = 1 then addr / 2 ^ 32 else if w = 2 then data else boolNat masked)

/-- Word `w` of port `p`'s pending-bit array. -/
def State.pbaRead (s : State) (p w : Nat) : Word :=
  BitVec.ofNat 32 (maskOf ((List.range 32).filter (fun i => s.regs.pba.contains (1024 * p + 32 * w + i))))

/-! ## Reads and writes of one word (R529 to R535) -/

/-- Offset of a register that a bit alias names, and the bit (R534). -/
def aliasReg (off : Nat) : Nat × Nat :=
  let a := off - 0x800000
  (a / 0x8000 * 0x10000 + a % 0x8000 / 0x80 * 4, a % 0x80 / 4)

def inAlias (off : Nat) : Bool := decide (0x800000 ≤ off) && decide (off < 0x898000)
def inMsix (off : Nat) : Bool := decide (0x14000 ≤ off) && decide (off < 0x18000)
def inPba (off : Nat) : Bool := decide (0x18000 ≤ off) && decide (off < 0x18080)
def inMbx (off : Nat) : Bool := decide (0x120000 ≤ off) && decide (off < 0x120400)

/-- A read of the aligned word at `off` outside the bit aliases by a path. -/
def State.plainRead (s : State) (path off : Nat) : Word × State :=
  if inMbx off then s.mbxRead (off % 0x400 / 0x40) (off % 0x40)
  else if inMsix off then (s.msixRead (s.msixPort path) ((off - 0x14000) / 16) (off % 16 / 4), s)
  else if inPba off then (s.pbaRead (s.msixPort path) ((off - 0x18000) / 4), s)
  else (s.viewWord off, s)

/-- A read of bit `k` of the register at `off`, as an alias word reads it (R535). -/
def State.bitRead (s : State) (path off k : Nat) : Word × State :=
  match s.plainRead path off with
  | (w, s) => (BitVec.ofNat 32 (boolNat (bitOf w k)), s)

/-- A read of the aligned word at `off` by a path. -/
def State.readWord (s : State) (path off : Nat) : Word × State :=
  if inAlias off then s.bitRead path (aliasReg off).1 (aliasReg off).2 else s.plainRead path off

/-- The guard page's PORT_EN may be written from paths 8 to 11 only; every other register by R533. -/
def State.pathMay (s : State) (path off : Nat) : Bool :=
  if off % 0x10000 = 0x0F00 then decide (8 ≤ path) else s.mayWrite path (off / 0x10000)

/-- A register all of whose fields are read only. -/
def allReadOnly (off : Nat) : Bool := (fieldsAt off).all (fun f => f.acc == .ro)

/-- The access code of a bit of a register; none for a reserved bit. -/
def accOf (off k : Nat) : Option Acc :=
  ((fieldsAt off).find? (fun f => decide (f.lo ≤ k) && decide (k < f.lo + f.len))).map (fun f => f.acc)

/-- A write of `data` to the alias word at `addr`, that of bit `k` of the register at `off` (R535); and whether it is
rejected. -/
def State.bitWrite (s : State) (path off k addr : Nat) (data : Word) (cycle : Nat) : State × Bool :=
  let b := off / 0x10000
  if inMbx off then
    let m := off % 0x400 / 0x40
    let o := off % 0x40
    let old := if o = 0 then (s.mbx m).sel else BitVec.ofNat 32 (bitsOf (s.mbx m).data (32 * ((o - 8) / 4)) 32)
    s.mbxWrite path m o addr (putBits old k 1 (boolNat (bitOf data 0))) data
  else if !isRegister off then (s, false)
  else if !s.pathMay path off then (s.logReject b addr data REG_PATH path, true)
  else match accOf off k with
    | some .rwg => (s.logReject b addr data GUARD_ALIAS path, true)
    | some .rw => s.tryEffect path off addr (putBits (s.viewWord off) k 1 (boolNat (bitOf data 0))) data (effPlain off cycle)
    | some .w1c => if bitOf data 0 then (s, false) else s.tryEffect path off addr (BitVec.ofNat 32 (2 ^ k)) data (effPlain off cycle)
    | some .wo => if bitOf data 0 then
        s.tryEffect path off addr (putBits (s.viewWord off) k 1 1) data (effPlain off cycle)
      else (s, false)
    | _ => (s, false)

/-- A write of an alias word (Table 17-4, R535); and whether it is rejected. -/
def State.aliasWrite (s : State) (path addr : Nat) (data : Word) (cycle : Nat) : State × Bool :=
  s.bitWrite path (aliasReg addr).1 (aliasReg addr).2 addr data cycle

/-- The write that completes a pair armed with (G, V) (R541); and whether the pair is rejected. -/
def State.completePair (s : State) (path : Nat) (g : Guard) (v : Word) (cycle : Nat) : State × Bool :=
  let s := s.setGuard path none
  if v = ~~~g.value then s.tryEffect path g.off g.off g.value g.value (effGuarded g.off cycle)
  else (s.logReject (g.off / 0x10000) g.off g.value GUARD_COMPLEMENT path, true)

/-- A write of the aligned word at `off` by a path at an MCLK cycle; and whether it is rejected. -/
def State.wordWrite (s : State) (path off : Nat) (v : Word) (cycle : Nat) : State × Bool :=
  let s := s.expireGuard path cycle
  if inAlias off then s.aliasWrite path off v cycle
  else if inMbx off then s.mbxWrite path (off % 0x400 / 0x40) (off % 0x40) off v v
  else if inMsix off ∨ inPba off then
    if !s.mayWrite path B_HIF then (s.logReject B_HIF off v REG_PATH path, true)
    else if inMsix off then (s.msixWrite (s.msixPort path) ((off - 0x14000) / 16) (off % 16 / 4) v, false)
    else (s, false)
  else match s.armed path (off - 4) cycle with
    | some g =>
      if g.off + 4 = off then
        if s.mayWrite path (off / 0x10000) then s.completePair path g v cycle
        else (s.logReject (off / 0x10000) off v REG_PATH path, true)
      else (s, false)
    | none =>
      if !isRegister off then (s, false)
      else if !s.pathMay path off then (s.logReject (off / 0x10000) off v REG_PATH path, true)
      else if isGuarded off then (s.armGuard path off v cycle, false)
      else if allReadOnly off then (s, false)
      else s.tryEffect path off off v v (effPlain off cycle)

/-- The block that holds an address, its alias included. -/
def blockOf (addr : Nat) : Nat := if inAlias addr then (addr - 0x800000) / 0x8000 else addr / 0x10000

/-- REGISTER_WRITE (R529): a write of `len` bytes at BAR0 offset `addr`; and whether any of it is rejected. -/
def State.regWrite (s : State) (path addr len data cycle : Nat) : State × Bool :=
  if 2 ^ 24 ≤ addr then (s, false)
  else if len = 4 ∧ addr % 4 = 0 then s.wordWrite path addr (BitVec.ofNat 32 data) cycle
  else if len = 8 ∧ addr % 8 = 0 then
    match s.wordWrite path addr (BitVec.ofNat 32 data) cycle with
    | (s, r) => match s.wordWrite path (addr + 4) (BitVec.ofNat 32 (data / 2 ^ 32)) cycle with
      | (s, r') => (s, r || r')
  else if blockOf addr < blockCount then
    ((s.expireGuard path cycle).logReject (blockOf addr) addr (BitVec.ofNat 32 data) REG_WIDTH path, true)
  else (s, false)

def execRegisterWrite (path addr len data cycle : Nat) (s : State) : Host.Outcome State Fault Refusal :=
  .next (s.regWrite path addr len data cycle).1

/-- BIT_ALIAS_WRITE (R534): a write of an alias word. -/
def execBitAliasWrite (path addr : Nat) (data : Word) (cycle : Nat) (s : State) : Host.Outcome State Fault Refusal :=
  .next (if inAlias addr && addr % 4 == 0 then (s.wordWrite path addr data cycle).1 else s)

/-- GUARD_ARM (R541): a write of V to a guarded register. -/
def execGuardArm (path off : Nat) (value : Word) (cycle : Nat) (s : State) : Host.Outcome State Fault Refusal :=
  .next (if isGuarded off then (s.wordWrite path off value cycle).1 else s)

/-- GUARD_TIMEOUT (R541). -/
def execGuardTimeout (path cycle : Nat) (s : State) : Host.Outcome State Fault Refusal := .next (s.expireGuard path cycle)

end Sys2Proof.Machine
end

