-- ==== Sys2Proof/Machine/Boot.lean ====
section
/-! DEFINITION. Resets of the whole device, boot, management register access, and the control lands (chapters 22 and 23). -/

namespace Sys2Proof.Machine

/-! ## Codes (Tables 22-5 and 23-9) -/

def NO_IMAGE : Nat := 0x1501
def UDS_ABSENT : Nat := 0x1502
def MICROCODE_REFUSED : Nat := 0x1503
def LOADER_REFUSED : Nat := 0x1504
def BOOT_CORES : Nat := 0x1505
def NO_MEMORY : Nat := 0x1506
def MD_SELF_TEST : Nat := 0x1507
def BOOT_STAGE_LIMIT : Nat := 0x1508
def FABRIC_UNJOINED : Nat := 0x1510
def TICK_UNLOCKED : Nat := 0x1511
def HOST_PORT_DOWN : Nat := 0x1512
def STACK_LOST : Nat := 0x1513
def FLASH_CHANNEL_DOWN : Nat := 0x1514
def WARM_RESET : Nat := 0x1515
def THERM_TRIPPED : Nat := 0x1601
def RAIL_FAULTED : Nat := 0x1602

/-! Boot stages (Table 18-3). -/
def STAGE_ROM : Nat := 0
def STAGE_FIRMWARE : Nat := 1
def STAGE_OTP : Nat := 2
def STAGE_CORES : Nat := 3
def STAGE_STACKS : Nat := 4
def STAGE_FLASH : Nat := 5
def STAGE_HOST_LINKS : Nat := 6
def STAGE_FABRIC : Nat := 7
def STAGE_TICK_SYNC : Nat := 8
def STAGE_SELF_TEST : Nat := 9
def STAGE_READY : Nat := 10
def STAGE_FAILED : Nat := 15

def State.setBoot (s : State) (f : BootState → BootState) : State := { s with boot := f s.boot }
def State.stage (s : State) : Nat := s.fld F.IDN_BOOT_STAGE

/-! ## The lands of dies in reset (R663) -/

/-! More output lands, one number for all of a kind. -/
def PIN_FLASH_CE_N : Nat := 4
def PIN_FLASH_WP_N : Nat := 5
def PIN_FLASH_OUT : Nat := 6
def PIN_SPI_CS_N : Nat := 7

def State.heldLands (s : State) : State :=
  s.emitAll [.pin PIN_TICK_OUT false, .pin PIN_PWR_ALERT_N true, .pin PIN_FLASH_CE_N true, .pin PIN_SPI_CS_N true,
    .pin PIN_FLASH_WP_N false, .pin PIN_FLASH_OUT false]

/-- Every die but the management die is held in reset (R662, R665). -/
def BootState.holds (b : BootState) : Bool := b.tripped || b.resetLow || !b.mainGood || !b.mgtGood

/-! ## Cold reset (R35, R641) -/

/-- Pages that the catalogue names stay, every other page is freed (R646). -/
def SrhState.retained (x : SrhState) : Tab FlashPage := x.pages.keep (fun _ p => x.catalogue.has p.index)

/-- OTP slots whose programming a reset cuts short: used, and never valid (R567). -/
def SecState.otpAfter (x : SecState) : Tab Wide := x.otpBusy.foldl (fun (t : Tab Wide) e => t.put e.1 0) x.otp

/-- The device as a cold reset leaves it: what Table 22-3 keeps is fuses, OTP, and flash pages of retained indexes. -/
def State.coldState (s : State) : State :=
  { State.reset with
    pending := s.pending
    fresh := s.fresh
    out := s.out
    srh := { pages := s.srh.retained, catalogue := s.srh.catalogue }
    sec := { fuses := BitVec.ofNat 128 (s.sec.fuses.toNat - at_ 8 (boolNat (s.sec.fuses.getLsbD 8)))
             serialFuses := s.sec.serialFuses, otp := s.sec.otpAfter }
    boot := { number := s.boot.number, mgtGood := s.boot.mgtGood, mainGood := s.boot.mainGood, resetLow := s.boot.resetLow
              tripped := s.boot.tripped } }

/-- A cold reset: boot starts at stage ROM, or waits there while the dies are held. -/
def State.coldReset (s : State) : State :=
  (s.coldState.setBoot (fun b => { b with number := b.number + 1, held := b.holds })).heldLands

/-! ## Warm reset (R638, R641) -/

/-- Register words that a warm reset keeps: TIK, PWR, STK_SCRUB, HIF_FN_MODE, FAB_DEVID, the tick tree, GRD_PORT_EN and the
counts of rejected writes (Table 22-3); the causes of resets, to which this one is added. -/
def warmKeeps (off : Nat) : Bool :=
  (off % 0x10000 < 0x400 && (off / 0x10000 == B_TIK || off / 0x10000 == B_PWR))
    || off % 0x10000 == 0x0F00 || off % 0x10000 == 0x0F04 || off == Reg.STK_SCRUB || off == Reg.HIF_FN_MODE
    || off == Reg.FAB_DEVID || off == Reg.FAB_TICK_TREE || off == Reg.FAB_TICK_CHILD || off == Reg.IDN_RESET_CAUSE

/-- The newest version of a shared range stays, the draft maps as it does, nothing is held. -/
def SharedRange.afterWarm (x : SharedRange) : SharedRange :=
  let y := ({ x with slots := x.slots.mapV (fun _ sl => { sl with holders := 0 }), cows := [], publish := [], discard := [] }
    : SharedRange).discardNow
  { y with broken := false }.freeVersions

def HostPort.afterReset (h : HostPort) : HostPort :=
  { cfg := h.cfg, layout := h.layout, poisonReads := h.poisonReads, droppedWrites := h.droppedWrites
    revokeDrops := h.revokeDrops, shrDrops := h.shrDrops }

def Port.afterReset (p : Port) : Port :=
  { portReset with vcCfg := p.vcCfg, corrected := p.corrected, uncorrected := p.uncorrected, retries := p.retries
                   creditStall := p.creditStall }

/-- Tables 22-2 and 22-3: the state of a device that a warm reset has reset, its directory walked and its retiring slots
zeroised before. -/
def State.warmState (s : State) : State :=
  { State.reset with
    pending := s.pending
    fresh := s.fresh
    out := s.out
    regs := { words := s.regs.words.keep (fun off _ => warmKeeps off) }
    rings := {
      rings := s.rings.rings.mapV (fun _ r => { record := r.record, completions := r.completions })
      subqs := s.rings.subqs.mapV (fun _ q => { record := q.record, completions := q.completions })
      nextTok := s.rings.nextTok, arrivals := s.rings.arrivals, assistCounts := s.rings.assistCounts }
    tick := { now := s.tick.now, closed := s.tick.now, stopTick := s.tick.now, missed := s.tick.missed
              edgesIgnored := s.tick.edgesIgnored, pktDiscarded := s.tick.pktDiscarded, stats := s.tick.stats
              plans := s.tick.plans.mapV (fun _ p => { loads := p.loads }) }
    mem := s.mem
    win := { committed := s.win.committed, shadow := s.win.committed, refused := s.win.refused }
    ord := { epochs := s.ord.epochs.mapV (fun _ e => { accepted := e.accepted })
             staleCount := s.ord.staleCount, flagTimeouts := s.ord.flagTimeouts, notifyFails := s.ord.notifyFails
             send := s.ord.send.mapV (fun _ q => { gen := q.gen, resync := true }) }
    fab := { ports := s.fab.ports.mapV (fun _ p => p.afterReset)
             route := s.fab.route, mcast := s.fab.mcast, own := s.fab.own, devidSet := s.fab.devidSet
             congDst := s.fab.congDst, congWin := s.fab.congWin, drops := s.fab.drops
             respTimeouts := s.fab.respTimeouts, unmatched := s.fab.unmatched, seqStale := s.fab.seqStale }
    dir := { s.dir with recalls := [], waiters := [], current := [] }
    host := { ports := s.host.ports.mapV (fun _ p => p.afterReset)
              ext := s.host.ext, shrDesc := s.host.shrLive, shrLive := s.host.shrLive
              shr := (s.host.shr.keep (fun r _ => !s.host.shrClosing.contains r)).mapV (fun _ x => x.afterWarm) }
    xlt := { committed := s.xlt.committed, shadow := s.xlt.committed, mranges := s.xlt.mranges, mshadow := s.xlt.mranges
             clusterMisses := s.xlt.clusterMisses, dieMisses := s.xlt.dieMisses, walkCount := s.xlt.walkCount
             migCount := s.xlt.migCount }
    tier := { split := s.tier.split, retired := s.tier.retired, promotions := s.tier.promotions
              demotions := s.tier.demotions, skipped := s.tier.skipped, keyCross := s.tier.keyCross
              nomDrops := s.tier.nomDrops, lateAtIssue := s.tier.lateAtIssue, lateAtDeadline := s.tier.lateAtDeadline
              lateDiscards := s.tier.lateDiscards, partsLost := s.tier.partsLost }
    cdc := { s.cdc with tables := [], lastError := (0, 0, 0, 0) }
    mtx := { s.mtx with progs := [], runs := [], lastError := (0, 0, 0, 0, 0) }
    kv := { s.kv with pools := [], allocs := [], seqs := [], gens := [], reqs := [], freeing := [], lastError := (0, 0, 0, 0) }
    emb := { tables := s.emb.tables.mapV (fun _ t => { counts := t.counts }), privileged := s.emb.privileged
             hits := s.emb.hits, misses := s.emb.misses, admits := s.emb.admits, staleServed := s.emb.staleServed }
    srh := { pages := s.srh.retained, catalogue := s.srh.catalogue
             chans := s.srh.chans.mapV (fun _ c => { pagesRead := c.pagesRead, uncorrectable := c.uncorrectable, moves := c.moves })
             indexes := s.srh.indexes.mapV (fun _ x =>
               { queries := x.queries, inserts := x.inserts, deletes := x.deletes, carried := x.carried })
             mPasses := s.srh.mPasses, mAbandoned := s.srh.mAbandoned, mWritten := s.srh.mWritten
             mReclaimed := s.srh.mReclaimed }
    que := { queues := s.que.queues.mapV (fun _ q => { pushed := q.pushed, popped := q.popped, flushed := q.flushed, full := q.full }) }
    pg := { committed := s.pg.committed, shadow := s.pg.committed, poisonList := s.pg.poisonList }
    sec := { staleCount := s.sec.staleCount, modelKeys := s.sec.modelKeys, fuses := s.sec.fuses
             serialFuses := s.sec.serialFuses, otp := s.sec.otpAfter, otpGen := s.sec.otpGen }
    slots := s.slots.mapV (fun _ k => { k with retirePending := false })
    slices := { committed := s.slices.committed, meters := s.slices.meters }
    units := { s.units with testing := [] }
    stk := { s.stk with chans := s.stk.chans.mapV (fun _ c => { c with trained := false }), stackTab := []
                        lastError := (0, 0, 0, 0) }
    ras := { discarded := s.ras.discarded, mseq := s.ras.mseq }
    boot := { number := s.boot.number + 1, records := s.boot.records, warm := true, stacksDone := s.boot.stacksDone
              mgtGood := s.boot.mgtGood, mainGood := s.boot.mainGood, resetLow := s.boot.resetLow
              tripped := s.boot.tripped }
    faults := s.faults
    faultSeq := s.faultSeq }

/-- The coherent domain goes down and its walk ends (R196). -/
def State.walkDomain (s : State) : State :=
  match execDomainWalkDone (s.domainDown 0 0) with
  | .next t => t
  | _ => s

/-- A warm reset (Table 22-2): the device leaves the fabric, descriptors end without completions, the domain goes down,
slots on their way out are zeroised, and the dies are reset. -/
def State.warmSteps (s : State) : State :=
  let s := { s with rings := { s.rings with descs := [], assist := [] } }
  let s := if s.fab.joined then s.leaveFabric else s
  let s := s.walkDomain
  let s := (s.slots.filter (fun e => e.2.phase == .retiring || e.2.phase == .zeroising)).foldl
    (fun (s : State) e => s.endZeroise e.1) s
  (s.warmState.setEvt F.IDN_RESET_CAUSE_WARM).heldLands

/-- R637: before stage STACKS has completed it acts as a cold reset; stage FAILED is left by a cold reset only. -/
def State.warmReset (s : State) : State :=
  if !s.boot.stacksDone then s.coldReset else if s.stage = STAGE_FAILED then s else s.warmSteps

/-- COLD: a RESET message. -/
def execCold (m : Msg) (s : State) : Host.Outcome State Fault Refusal := .next (s.secured m State.coldReset)

/-- WARM: a RESET message. -/
def execWarm (m : Msg) (s : State) : Host.Outcome State Fault Refusal := .next (s.secured m State.warmReset)

/-- LEMTUS_WATCHDOG. -/
def execLemtusWatchdog (s : State) : Host.Outcome State Fault Refusal := .next s.warmReset

/-! ## Boot stages (R642, R643) -/

/-- BOOT_STATUS (Table 22-9). -/
def State.bootStatus (s : State) : State :=
  s.mgmt 0x31 (leBytes 4 (s.viewWord Reg.IDN_BOOT).toNat ++ leBytes 16 s.boot.serial.toNat)

/-- Boot fails in the stage in progress. -/
def State.bootFail (s : State) (code : Nat) : State :=
  let stage := s.stage
  let s := ((s.setFld F.IDN_BOOT_STAGE STAGE_FAILED).setFld F.IDN_BOOT_FAIL_STAGE stage).setFld F.IDN_BOOT_FAIL_CODE code
  let s := s.setEvt F.IDN_EVT_BOOT_FAILED
  let ports := s.fab.ports.mapV (fun _ (p : Port) => { p with enable := false, state := .disabled, width := 0, good := 0 })
  let hosts := s.host.ports.mapV (fun _ (p : HostPort) => { p with up := false, rate := 0, width := 0 })
  { s with fab := { s.fab with ports := ports }, host := { s.host with ports := hosts } }

/-- The next stage starts, with what Lemtus does at its start. -/
def State.nextStage (s : State) : State :=
  let n := s.stage + 1
  let s := s.setFld F.IDN_BOOT_STAGE n
  if n = STAGE_FABRIC then
    (List.range 32).foldl (fun (s : State) k => (s.setPort k { s.port k with enable := true }).movePort k .detect) s
  else if n = STAGE_TICK_SYNC then (effTikCtrl (putBits (s.word Reg.TIK_CTRL) 0 1 1) s).1
  else if n = STAGE_READY then
    let s := (s.setFld F.FAB_TS_CTRL_NORMAL 1).setEvt F.IDN_EVT_READY
    let s := if s.boot.warm then s.event WARM_RESET LOC_MD else s
    s.bootStatus
  else s

/-- VALUE[31:0] of OTP record `r` as the last cold reset read it. -/
def State.floor (s : State) (r : Nat) : Nat := s.boot.records.getD r 0

/-- R565: an image is loaded when its signature verifies under a usable key and its SVN reaches the floor of record `r`. -/
def State.imageOk (s : State) (r : Nat) (i : BootImage) : Bool :=
  i.signed && (s.sec.usableKeys (s.floor 3)).testBit i.key && decide (s.floor r ≤ i.svn)

def State.validImage (s : State) (r : Nat) (i : Option BootImage) : Option BootImage :=
  match i with | some x => if s.imageOk r x then some x else none | none => none

/-- Stage ROM: the fuses and OTP records are read, at a cold reset; the UDS must be there. -/
def State.stageRom (s : State) (rep : StageReport) : State :=
  if !s.sec.fuses.getLsbD 2 then s.bootFail UDS_ABSENT
  else
    let s := if s.boot.warm then s
      else s.setBoot (fun b => { b with records := (List.range 4).map (fun r => s.sec.otpValue r % 2 ^ 32) })
    (s.setBoot (fun b => { b with serial := s.sec.serialFuses, firmware := BitVec.ofNat 128 (rep.romRelease % 2 ^ 32)
                                  digests := [rep.romDigest, [], [], []] })).nextStage

/-- M1 (R562). -/
def State.measure (s : State) (digest : List Byte) : List Byte :=
  Config.sha384 (digest ++ leBytes 16 s.sec.fuses.toNat ++ (List.range 4).flatMap (fun r => leBytes 4 (s.floor r)))

/-- Lemtus starts from image slot `n`. -/
def State.startLemtus (s : State) (n : Nat) (i : BootImage) : State :=
  (s.setBoot (fun b => { b with image := n, m1 := s.measure i.digest, wantsImage := false
                                firmware := putBits b.firmware 32 32 i.release
                                digests := b.digests.set 1 i.digest })).nextStage

/-- Stage FIRMWARE: the valid image of the higher SVN, slot A where they are equal; without one, an image is awaited in IMAGE
messages. -/
def State.stageFirmware (s : State) (rep : StageReport) : State :=
  match s.validImage 0 rep.slotA, s.validImage 0 rep.slotB with
  | some a, some b => if a.svn < b.svn then s.startLemtus 1 b else s.startLemtus 0 a
  | some a, none => s.startLemtus 0 a
  | none, some b => s.startLemtus 1 b
  | none, none =>
    if !s.boot.imageEnd then s.setBoot (fun b => { b with wantsImage := true })
    else match s.validImage 0 rep.sent with
      | some x => s.startLemtus 2 x
      | none => s.bootFail NO_IMAGE

/-- The board configuration passes its CRC, and is one (Table 22-7). -/
def boardOk (l : List Byte) : Bool :=
  l.length == 256 && leNat (l.take 2) == 0xB0CF && leNat ((l.drop 2).take 2) == 1
    && crc32c (l.take 252) == leNat (l.drop 252)

/-- Stage OTP. -/
def State.stageOtp (s : State) (rep : StageReport) : State :=
  let s := s.setBoot (fun b => { b with boardOk := boardOk rep.board, board := rep.board })
  let s := if s.boot.warm then s else s.setSec (fun x => { x with otpGen := x.genWord })
  match s.validImage 1 rep.microcode, s.validImage 2 rep.loader with
  | none, _ => s.bootFail MICROCODE_REFUSED
  | _, none => s.bootFail LOADER_REFUSED
  | some u, some l =>
    (s.setBoot (fun b => { b with firmware := putBits (putBits b.firmware 64 32 u.release) 96 32 l.release
                                  digests := (b.digests.set 2 u.digest).set 3 l.digest })).nextStage

/-- Stage CORES: pairs that fail are retired (Table 20-4, row 9). -/
def State.stageCores (s : State) (rep : StageReport) : State :=
  let bad := (rep.badPairs.filter (fun p => decide (p < 8) && !s.units.pairsOut.contains p)).eraseDups
  let s := bad.foldl (fun (s : State) p =>
    let s := s.setUnits (fun u => { u with pairsOut := u.pairsOut ++ [p] })
    s.queueFault { cls := 0x21, location := 0x50FF0000 + at_ 8 (2 * p) + 0xFF, detail := s.pairsIn }) s
  if s.pairsIn < 4 then s.bootFail BOOT_CORES else s.nextStage

/-- Metadata entries that name a FREE key slot become PLAIN (R643). -/
def State.plainFree (s : State) : State :=
  let blocks := ((s.mem.bytes.filter (fun c => decide (dramEnd ≤ c.1) && decide (c.1 < metaAddr dramEnd))).map
    (fun c => (c.1 - dramEnd) / 8)).eraseDups
  (blocks.filter (fun b => (s.slot (metaKey (s.metaOf b))).phase == .free)).foldl (fun (s : State) b => s.setMeta b 0) s

/-- Stage STACKS: channels are trained, those that fail are retired; after a cold reset memory is initialised and slot 0
activated. -/
def State.stageStacks (s : State) (rep : StageReport) : State :=
  let ok := rep.chans.filter (fun e => decide (e.1 < 192) && !(s.dchan e.1).retired)
  let s := ok.foldl (fun (s : State) e =>
    s.setDchan e.1 { s.dchan e.1 with trained := true, spareRows := if s.boot.warm then (s.dchan e.1).spareRows else e.2 }) s
  let s := (List.range 12).foldl (fun (s : State) k =>
    let up := (List.range 16).any (fun i => s.dchanIn (16 * k + i))
    let s := s.setStk (fun x => { x with stackTab := x.stackTab.put k { x.stackTab.get {} k with trained := up } })
    if up then s else s.event STACK_LOST (locDie (0x10 + k))) s
  let s := (List.range 192).foldl (fun (s : State) c =>
    if (s.dchan c).trained || (s.dchan c).retired then s else s.retireChannel c) s
  if !(s.stk.stackTab.any (fun _ x => x.trained)) then s.bootFail NO_MEMORY
  else
    let s := if s.boot.warm then s.plainFree
      else ({ s with mem := { lost := s.mem.lost } }).activateSlot 0 0 0
    (s.setBoot (fun b => { b with stacksDone := true })).nextStage

/-- Stage FLASH: what discovery finds; pages that the catalogue does not name are free (R646). -/
def State.stageFlash (s : State) (rep : StageReport) : State :=
  let s := s.setSrh (fun x => { x with pages := x.retained })
  let s := (List.range 64).foldl (fun (s : State) c =>
    match rep.flash.find? (fun e => e.1 == c) with
    | some (_, usable, scorer) =>
      let s := s.setChan c { s.chan c with present := true, inService := scorer, scorerFailed := !scorer, usable := usable }
      if scorer then s else s.event FLASH_CHANNEL_DOWN (locChannel c)
    | none =>
      (s.setChan c { s.chan c with present := false, inService := false, usable := 0 }).event FLASH_CHANNEL_DOWN (locChannel c)) s
  s.nextStage

/-- Stage HOST_LINKS: GRD_PORT_EN of every block, after a cold reset, and the host ports. -/
def State.stageLinks (s : State) (rep : StageReport) : State :=
  let s := if s.boot.warm || !s.boot.boardOk then s
    else (List.range blockCount).foldl (fun (s : State) b =>
      s.setFld (F.GRD_PORT_EN_PORT_EN b) (maskOf ((List.range 8).filter (fun p =>
        (s.boot.board.getD (100 + 8 * b + p) 0) == 1)))) s
  let s := (List.range 8).foldl (fun (s : State) p =>
    match rep.links.find? (fun e => e.1 == p && e.2.1 != 0 && e.2.2 != 0) with
    | some (_, rate, width) => (s.setHport p { s.hport p with up := true, rate := rate, width := width }).setEvt F.HIF_EVT_LINK_CHANGE
    | none => s.event HOST_PORT_DOWN (locHostPort p)) s
  s.nextStage

/-- Stage FABRIC ends at JOINED; after a warm reset that kept the device ID Lemtus writes JOIN itself. -/
def State.stageFabric (s : State) : State :=
  let s := if s.boot.warm && s.fab.devidSet && !s.fab.joined then (effFabCtrl 1 s).1 else s
  if s.fab.joined then s.nextStage else s

/-- Stage SELF_TEST: parts that fail are spared or retired. -/
def State.stageTest (s : State) (rep : StageReport) : State :=
  if !rep.mdOk then s.bootFail MD_SELF_TEST else (rep.failed.foldl State.dealWith s).nextStage

/-- The actions of the stage in progress are over. -/
def State.stageDone (s : State) (rep : StageReport) : State :=
  let n := s.stage
  if n = STAGE_ROM then s.stageRom rep
  else if n = STAGE_FIRMWARE then s.stageFirmware rep
  else if n = STAGE_OTP then s.stageOtp rep
  else if n = STAGE_CORES then s.stageCores rep
  else if n = STAGE_STACKS then s.stageStacks rep
  else if n = STAGE_FLASH then s.stageFlash rep
  else if n = STAGE_HOST_LINKS then s.stageLinks rep
  else if n = STAGE_FABRIC then s.stageFabric
  else if n = STAGE_TICK_SYNC then
    if s.tick.sync = .locked ∨ s.tick.sync = .free then s.nextStage else s
  else if n = STAGE_SELF_TEST then s.stageTest rep
  else s

/-- Boot can go on: the dies are out of reset and clocked. -/
def State.booting (s : State) : Bool := !s.boot.held && !s.boot.clockStopped && decide (s.stage ≤ STAGE_SELF_TEST)

/-- BOOT_STAGE_DONE. -/
def execBootStageDone (rep : StageReport) (s : State) : Host.Outcome State Fault Refusal :=
  .next (if s.booting then s.stageDone rep else s)

/-- STAGE_TIMEOUT: a stage that exceeds its limit fails the boot; those that never fail it end with what they have found. -/
def execStageTimeout (rep : StageReport) (s : State) : Host.Outcome State Fault Refusal :=
  let n := s.stage
  .next (if !s.booting then s
    else if n = STAGE_FLASH ∨ n = STAGE_HOST_LINKS then s.stageDone rep
    else if n = STAGE_FABRIC then (s.event FABRIC_UNJOINED LOC_MD).nextStage
    else if n = STAGE_TICK_SYNC then (s.event TICK_UNLOCKED LOC_MD).nextStage
    else s.bootFail BOOT_STAGE_LIMIT)

/-- BOOT_STATUS_TIMER: once a second, a boot that failed in stage OTP or later reports itself. -/
def execBootStatusTimer (s : State) : Host.Outcome State Fault Refusal :=
  .next (if s.stage = STAGE_FAILED ∧ STAGE_OTP ≤ s.fld F.IDN_BOOT_FAIL_STAGE then s.bootStatus else s)

/-- IMAGE (R645): a chunk of a Lemtus image, while stage FIRMWARE waits for one. Bytes that no chunk has brought are free. -/
def execImage (port addr : Nat) (chunk : List Byte) (s : State) : Host.Outcome State Fault Refusal :=
  .next (if 2 ≤ port ∨ s.boot.wantsImage = false ∨ s.boot.imageEnd = true then s
    else if chunk = [] then s.setBoot (fun b => { b with imageEnd := true })
    else
      let (gap, t) := s.drawBytes (addr - s.boot.received.length)
      let old := s.boot.received ++ gap
      t.setBoot (fun b => { b with received := old.take addr ++ chunk ++ old.drop (addr + chunk.length) }))

/-- UPDATE (R645): Lemtus rewrites the SPI NOR image slot it names, but never the one it booted from. -/
def execUpdate (m : Msg) (oseq slot : Nat) (s : State) : Host.Outcome State Fault Refusal :=
  .next (s.order m oseq (if 2 ≤ slot then some ORDER_FORMAT else if slot = s.boot.image then some ORDER_STATE else none)
    (fun s => s.setBoot (fun b => { b with updating := b.updating.filter (fun x => x != slot) ++ [slot] })))

/-! ## Register access by management message and I3C (R648, R649) -/

/-- REG_READ: answered by REG_RESP; a read that is not of an aligned word answers 0 (R529). -/
def execRegRead (m : Msg) (addr : Nat) (s : State) : Host.Outcome State Fault Refusal :=
  .next (s.secured m (fun s =>
    if addr % 4 ≠ 0 ∨ 2 ^ 24 ≤ addr then s.emit (.mgmtReply m.port 0x03 m.mseq (leBytes 4 addr ++ leBytes 4 0 ++ leBytes 4 0))
    else match s.readWord (8 + m.port) addr with
      | (w, s') => s'.emit (.mgmtReply m.port 0x03 m.mseq (leBytes 4 addr ++ leBytes 4 w.toNat ++ leBytes 4 0))))

/-- REG_WRITE: answered by REG_RESP with status 0 applied or 1 rejected; what its data word holds is not stated. -/
def execRegWrite (m : Msg) (addr data cycle : Nat) (s : State) : Host.Outcome State Fault Refusal :=
  .next (s.secured m (fun s =>
    match s.regWrite (8 + m.port) addr 4 data cycle with
    | (s', r) =>
      let (w, s') := s'.draw
      s'.emit (.mgmtReply m.port 0x03 m.mseq (leBytes 4 addr ++ leBytes 4 w ++ leBytes 4 (boolNat r)))))

/-- I3C_REGISTER_WRITE. -/
def execI3cRegisterWrite (addr data cycle : Nat) (s : State) : Host.Outcome State Fault Refusal :=
  .next (s.regWrite 10 addr 4 data cycle).1

/-! ## Clock, power-good and reset lands, thermal trip (R658, R661, R662, R665) -/

/-- MGT_PWRGOOD_RISE. -/
def execMgtPwrgoodRise (s : State) : Host.Outcome State Fault Refusal :=
  .next (if s.boot.mgtGood then s else (s.setBoot (fun b => { b with mgtGood := true })).coldReset)

/-- MGT_PWRGOOD_FALL: every die is held in reset, and the thermal latch clears. -/
def execMgtPwrgoodFall (s : State) : Host.Outcome State Fault Refusal :=
  .next (
    let was := s.boot.tripped
    let s := (s.coldState.setBoot (fun b => { b with mgtGood := false, tripped := false, held := true })).heldLands
    if was then s.emit (.pin PIN_THERMTRIP_N true) else s)

/-- MAIN_PWRGOOD_RISE: the main dies are released, but for the thermal latch. -/
def execMainPwrgoodRise (s : State) : Host.Outcome State Fault Refusal :=
  .next (
    let s := s.setBoot (fun b => { b with mainGood := true })
    s.setBoot (fun b => { b with held := b.holds }))

/-- MAIN_PWRGOOD falling acts as RESET_N low. -/
def State.mainFall (s : State) : State := (s.setBoot (fun b => { b with mainGood := false })).coldReset

def execMainPwrgoodFall (s : State) : Host.Outcome State Fault Refusal := .next s.mainFall

/-- RESET_N_ASSERT: low for 1 µs or more. -/
def execResetNAssert (s : State) : Host.Outcome State Fault Refusal :=
  .next (s.setBoot (fun b => { b with resetLow := true })).coldReset

/-- RESET_N_RELEASE. -/
def execResetNRelease (s : State) : Host.Outcome State Fault Refusal :=
  .next (
    let s := s.setBoot (fun b => { b with resetLow := false })
    s.setBoot (fun b => { b with held := b.holds }))

/-- RAIL_FAULT: a record with the rail's interior row, then as MAIN_PWRGOOD falling. -/
def execRailFault (row : Nat) (s : State) : Host.Outcome State Fault Refusal :=
  .next (if s.boot.mainGood && (railOfRow row).isSome then (s.event RAIL_FAULTED LOC_MD row).mainFall else s)

/-- REFCLK_LOSS: lands 0 to 7 are HREFCLKp, 8 to 11 FREFCLKk, 12 MREFCLK. -/
def execRefclkLoss (land : Nat) (s : State) : Host.Outcome State Fault Refusal :=
  .next (if land < 8 then s.linkDown land
    else if land < 12 then s.loseDie (0x20 + (land - 8))
    else if land = 12 then (s.setBoot (fun b => { b with clockStopped := true })).heldLands
    else s)

/-- The dies but the management die go into reset, with nothing written back (R665). -/
def State.tripDies (s : State) : State :=
  { s.coldState with
    regs := { words := s.regs.words }
    tick := { now := s.tick.now, closed := s.tick.now, stopTick := s.tick.now }
    sec := { s.sec with conf := [], bounce := [] }
    slots := s.slots
    units := s.units
    ras := s.ras
    boot := s.boot
    faults := s.faults
    faultSeq := s.faultSeq }

/-- THERM_TRIP: the land is latched low, the dies are held, and a record names the hot die. -/
def execThermTrip (loc : Nat) (s : State) : Host.Outcome State Fault Refusal :=
  .next (if s.boot.tripped then s
    else
      let s := s.emit (.pin PIN_THERMTRIP_N false)
      let s := (s.tripDies.setBoot (fun b => { b with tripped := true, held := true })).heldLands
      s.event THERM_TRIPPED loc)

end Sys2Proof.Machine
end

