-- ==== Sys2Proof/Machine/PacketRows.lean ====
section
/-! DEFINITION. The rows of packets and link frames that arrive, and the timeouts of requests and flagged stores (chapters 4
and 5). -/

namespace Sys2Proof.Machine

/-- LINK_FRAME (R138). -/
def execLinkFrame (port : Nat) (frame : Frame) (s : State) : Host.Outcome State Fault Refusal :=
  .next (s.recvFrame port frame).takeSubqs

/-! ## The rows of single packets -/

def execLoad (port : Nat) (pkt : Packet) (s : State) : Host.Outcome State Fault Refusal :=
  .next (s.recvIf (pkt.type == T_LOAD) port pkt).takeSubqs
def execStore (port : Nat) (pkt : Packet) (s : State) : Host.Outcome State Fault Refusal :=
  .next (s.recvIf (pkt.type == T_STORE) port pkt).takeSubqs
def execFlaggedStore (port : Nat) (pkt : Packet) (s : State) : Host.Outcome State Fault Refusal :=
  .next (s.recvIf (pkt.type == T_FLAGGED_STORE) port pkt).takeSubqs
def execBulkGet (port : Nat) (pkt : Packet) (s : State) : Host.Outcome State Fault Refusal :=
  .next (s.recvIf (pkt.type == T_BULK_GET) port pkt).takeSubqs
def execBulkPut (port : Nat) (pkt : Packet) (s : State) : Host.Outcome State Fault Refusal :=
  .next (s.recvIf (pkt.type == T_BULK_PUT) port pkt).takeSubqs
def execAtomic (port : Nat) (pkt : Packet) (s : State) : Host.Outcome State Fault Refusal :=
  .next (s.recvIf (pkt.type == T_ATOMIC) port pkt).takeSubqs
def execAccAdd (port : Nat) (pkt : Packet) (s : State) : Host.Outcome State Fault Refusal :=
  .next (s.recvIf (pkt.type == T_ACC_ADD) port pkt).takeSubqs
def execAccRead (port : Nat) (pkt : Packet) (s : State) : Host.Outcome State Fault Refusal :=
  .next (s.recvIf (pkt.type == T_ACC_READ) port pkt).takeSubqs
def execSubmit (port : Nat) (pkt : Packet) (s : State) : Host.Outcome State Fault Refusal :=
  .next (s.recvIf (pkt.type == T_SUBMIT) port pkt).takeSubqs
def execOwnClaim (port : Nat) (pkt : Packet) (s : State) : Host.Outcome State Fault Refusal :=
  .next (s.recvIf (pkt.type == T_OWN && pkt.op == 1) port pkt).takeSubqs
def execOwnHandoff (port : Nat) (pkt : Packet) (s : State) : Host.Outcome State Fault Refusal :=
  .next (s.recvIf (pkt.type == T_OWN && pkt.op == 2) port pkt).takeSubqs
def execOwnRelease (port : Nat) (pkt : Packet) (s : State) : Host.Outcome State Fault Refusal :=
  .next (s.recvIf (pkt.type == T_OWN && pkt.op == 3) port pkt).takeSubqs
def execSeqSync (port : Nat) (pkt : Packet) (s : State) : Host.Outcome State Fault Refusal :=
  .next (s.recvIf (pkt.type == T_SEQ_SYNC) port pkt).takeSubqs
def execMcPut (port : Nat) (pkt : Packet) (s : State) : Host.Outcome State Fault Refusal :=
  .next (s.recvIf (pkt.type == T_MC_PUT) port pkt).takeSubqs
def execReadData (port : Nat) (pkt : Packet) (s : State) : Host.Outcome State Fault Refusal :=
  .next (s.recvIf (pkt.type == T_READ_DATA) port pkt).takeSubqs
def execBulkData (port : Nat) (pkt : Packet) (s : State) : Host.Outcome State Fault Refusal :=
  .next (s.recvIf (pkt.type == T_BULK_DATA) port pkt).takeSubqs
def execAck (port : Nat) (pkt : Packet) (s : State) : Host.Outcome State Fault Refusal :=
  .next (s.recvIf (pkt.type == T_ACK) port pkt).takeSubqs

/-! ## Timeouts -/

/-- REQUEST_TIMEOUT (R158, R162): the request that holds a tag ends; the next write to its destination resynchronises. -/
def execRequestTimeout (tag : Nat) (s : State) : Host.Outcome State Fault Refusal :=
  .next (match s.fab.outstanding.find tag with
    | none => s
    | some r =>
      let s := { s with fab := { s.fab with respTimeouts := s.fab.respTimeouts + 1 } }
      let s := { s with ord := { s.ord with send := s.ord.send.upd r.pkt.dest (fun q => { q with resync := true }) } }
      ((s.setEvt F.FAB_EVT_TIMEOUT).endRequest tag ST_ABORTED RESP_TIMEOUT).pump.takeSubqs)

/-- FLAG_TIMEOUT (R108): the held packet of a source and SEQ is dropped. -/
def execFlagTimeout (src seq : Nat) (s : State) : Host.Outcome State Fault Refusal :=
  .next (match s.ord.held.find? (fun h => h.pkt.src == src && h.pkt.wsnSeq == seq) with
    | none => s
    | some h =>
      let s := { s with ord := { s.ord with held := s.ord.held.erase h, flagTimeouts := s.ord.flagTimeouts + 1 } }
      ((s.setEvt F.FAB_ORD_EVT_FLAG_TIMEOUT).endPacket h.pkt ST_ABORTED FLAG_TIMEOUT).pump.takeSubqs)

end Sys2Proof.Machine
end

