-- ==== Sys2Proof/Machine/Dispatch.lean ====
section
/-! DEFINITION. One arm per command: the table of meanings. -/

namespace Sys2Proof.Machine

def exec (i : Instr) (s : State) : Host.Outcome State Fault Refusal :=
  match i with
  | .tickBoundary env => Sys2Proof.Machine.execTickBoundary env s
  | .pgBuildBlock ext src bad => Sys2Proof.Machine.execPgBuildBlock ext src bad s
  | .substituteBoundary env => Sys2Proof.Machine.execSubstituteBoundary env s
  | .admissionRound maint => Sys2Proof.Machine.execAdmissionRound maint s
  | .tickInEdge ns highNs => Sys2Proof.Machine.execTickInEdge ns highNs s
  | .tickInEdgeMissing ns => Sys2Proof.Machine.execTickInEdgeMissing ns s
  | .ptpMessage offsetNs => Sys2Proof.Machine.execPtpMessage offsetNs s
  | .ptpMessageLoss => Sys2Proof.Machine.execPtpMessageLoss s
  | .holdoverLimit elapsedNs => Sys2Proof.Machine.execHoldoverLimit elapsedNs s
  | .tickRunStart path value cycle => Sys2Proof.Machine.execTickRunStart path value cycle s
  | .tickRunStop path value cycle => Sys2Proof.Machine.execTickRunStop path value cycle s
  | .tickSrcChange path value cycle => Sys2Proof.Machine.execTickSrcChange path value cycle s
  | .tikPeriodWrite path value cycle => Sys2Proof.Machine.execTikPeriodWrite path value cycle s
  | .tikLullWrite path value cycle => Sys2Proof.Machine.execTikLullWrite path value cycle s
  | .tikLeadWrite path value cycle => Sys2Proof.Machine.execTikLeadWrite path value cycle s
  | .tickNowWrite path m => Sys2Proof.Machine.execTickNowWrite path m s
  | .planLoad tok ext => Sys2Proof.Machine.execPlanLoad tok ext s
  | .planUnload tok => Sys2Proof.Machine.execPlanUnload tok s
  | .fabDevidWrite path value cycle => Sys2Proof.Machine.execFabDevidWrite path value cycle s
  | .windowCommitApplyWrite path value cycle => Sys2Proof.Machine.execWindowCommitApplyWrite path value cycle s
  | .windowCommitDiscard path value cycle => Sys2Proof.Machine.execWindowCommitDiscard path value cycle s
  | .windowDrainComplete => Sys2Proof.Machine.execWindowDrainComplete s
  | .arrivalCounterWrite path m => Sys2Proof.Machine.execArrivalCounterWrite path m s
  | .flagTimeout src seq => Sys2Proof.Machine.execFlagTimeout src seq s
  | .linkFrame port frame => Sys2Proof.Machine.execLinkFrame port frame s
  | .portEnable path value cycle => Sys2Proof.Machine.execPortEnable path value cycle s
  | .portDisable path value cycle => Sys2Proof.Machine.execPortDisable path value cycle s
  | .portRetrain path value cycle => Sys2Proof.Machine.execPortRetrain path value cycle s
  | .portSignalDetect port lanes => Sys2Proof.Machine.execPortSignalDetect port lanes s
  | .portEqualisationDone port lanes => Sys2Proof.Machine.execPortEqualisationDone port lanes s
  | .portAlignDone port good => Sys2Proof.Machine.execPortAlignDone port good s
  | .laneFault port => Sys2Proof.Machine.execLaneFault port s
  | .portBringupTimeout port => Sys2Proof.Machine.execPortBringupTimeout port s
  | .portRetrainTimeout port => Sys2Proof.Machine.execPortRetrainTimeout port s
  | .escapeTimeout k => Sys2Proof.Machine.execEscapeTimeout k s
  | .neighbourTimer port => Sys2Proof.Machine.execNeighbourTimer port s
  | .load port pkt => Sys2Proof.Machine.execLoad port pkt s
  | .store port pkt => Sys2Proof.Machine.execStore port pkt s
  | .flaggedStore port pkt => Sys2Proof.Machine.execFlaggedStore port pkt s
  | .bulkGet port pkt => Sys2Proof.Machine.execBulkGet port pkt s
  | .bulkPut port pkt => Sys2Proof.Machine.execBulkPut port pkt s
  | .atomic port pkt => Sys2Proof.Machine.execAtomic port pkt s
  | .accAdd port pkt => Sys2Proof.Machine.execAccAdd port pkt s
  | .accRead port pkt => Sys2Proof.Machine.execAccRead port pkt s
  | .submit port pkt => Sys2Proof.Machine.execSubmit port pkt s
  | .ownClaim port pkt => Sys2Proof.Machine.execOwnClaim port pkt s
  | .ownHandoff port pkt => Sys2Proof.Machine.execOwnHandoff port pkt s
  | .ownRelease port pkt => Sys2Proof.Machine.execOwnRelease port pkt s
  | .seqSync port pkt => Sys2Proof.Machine.execSeqSync port pkt s
  | .mcPut port pkt => Sys2Proof.Machine.execMcPut port pkt s
  | .readData port pkt => Sys2Proof.Machine.execReadData port pkt s
  | .bulkData port pkt => Sys2Proof.Machine.execBulkData port pkt s
  | .ack port pkt => Sys2Proof.Machine.execAck port pkt s
  | .tick port pkt => Sys2Proof.Machine.execTick port pkt s
  | .neighbour port pkt => Sys2Proof.Machine.execNeighbour port pkt s
  | .requestTimeout tag => Sys2Proof.Machine.execRequestTimeout tag s
  | .join path value cycle => Sys2Proof.Machine.execJoin path value cycle s
  | .leave path value cycle => Sys2Proof.Machine.execLeave path value cycle s
  | .fabOwnEntryWrite path value cycle => Sys2Proof.Machine.execFabOwnEntryWrite path value cycle s
  | .threadSwitchNormal path value cycle => Sys2Proof.Machine.execThreadSwitchNormal path value cycle s
  | .fabVcCfgWrite path vc value cycle => Sys2Proof.Machine.execFabVcCfgWrite path vc value cycle s
  | .memRd port dec off m => Sys2Proof.Machine.execMemRd port dec off m s
  | .memRdData port dec off => Sys2Proof.Machine.execMemRdData port dec off s
  | .memInv port dec off => Sys2Proof.Machine.execMemInv port dec off s
  | .memInvNt port dec off => Sys2Proof.Machine.execMemInvNt port dec off s
  | .memClnEvct port dec off => Sys2Proof.Machine.execMemClnEvct port dec off s
  | .memWr port dec off m data => Sys2Proof.Machine.execMemWr port dec off m data s
  | .memWrPtl port dec off m data mask => Sys2Proof.Machine.execMemWrPtl port dec off m data mask s
  | .memRdFwd port dec off m => Sys2Proof.Machine.execMemRdFwd port dec off m s
  | .memWrFwd port dec off m data => Sys2Proof.Machine.execMemWrFwd port dec off m data s
  | .memSpecRd port dec off => Sys2Proof.Machine.execMemSpecRd port dec off s
  | .biRspI port line held => Sys2Proof.Machine.execBiRspI port line held s
  | .biRspS port line => Sys2Proof.Machine.execBiRspS port line s
  | .biRspE port line => Sys2Proof.Machine.execBiRspE port line s
  | .biConflict port line => Sys2Proof.Machine.execBiConflict port line s
  | .minHoldExpiry line => Sys2Proof.Machine.execMinHoldExpiry line s
  | .biTimeout port line => Sys2Proof.Machine.execBiTimeout port line s
  | .domainWalkDone => Sys2Proof.Machine.execDomainWalkDone s
  | .dirDomainReset path value cycle => Sys2Proof.Machine.execDirDomainReset path value cycle s
  | .hifExtEntryWrite path value cycle => Sys2Proof.Machine.execHifExtEntryWrite path value cycle s
  | .revocationComplete ext => Sys2Proof.Machine.execRevocationComplete ext s
  | .hifLayoutWrite path value cycle => Sys2Proof.Machine.execHifLayoutWrite path value cycle s
  | .hifPortCfgWrite path value cycle => Sys2Proof.Machine.execHifPortCfgWrite path value cycle s
  | .hdmDecoderCommit port dec base sizeGib => Sys2Proof.Machine.execHdmDecoderCommit port dec base sizeGib s
  | .hifShrCommit path value cycle => Sys2Proof.Machine.execHifShrCommit path value cycle s
  | .cowCopyDone range granule => Sys2Proof.Machine.execCowCopyDone range granule s
  | .bar4Access port off len write data => Sys2Proof.Machine.execBar4Access port off len write data s
  | .hostLinkChange port rate width => Sys2Proof.Machine.execHostLinkChange port rate width s
  | .identify port => Sys2Proof.Machine.execIdentify port s
  | .getPartitionInfo port => Sys2Proof.Machine.execGetPartitionInfo port s
  | .getEventRecords port => Sys2Proof.Machine.execGetEventRecords port s
  | .clearEventRecords port => Sys2Proof.Machine.execClearEventRecords port s
  | .getPoisonList port => Sys2Proof.Machine.execGetPoisonList port s
  | .cdatRead port => Sys2Proof.Machine.execCdatRead port s
  | .snapOpen tok => Sys2Proof.Machine.execSnapOpen tok s
  | .snapClose tok => Sys2Proof.Machine.execSnapClose tok s
  | .snapPublish tok => Sys2Proof.Machine.execSnapPublish tok s
  | .snapDiscard tok => Sys2Proof.Machine.execSnapDiscard tok s
  | .xltCtxCommit path value cycle => Sys2Proof.Machine.execXltCtxCommit path value cycle s
  | .tlbMiss tok va access => Sys2Proof.Machine.execTlbMiss tok va access s
  | .walkDone ctx va host => Sys2Proof.Machine.execWalkDone ctx va host s
  | .missTimeout req => Sys2Proof.Machine.execMissTimeout req s
  | .migrationStart ctx va host leaf => Sys2Proof.Machine.execMigrationStart ctx va host leaf s
  | .migrationCopyDone ctx va data leaf => Sys2Proof.Machine.execMigrationCopyDone ctx va data leaf s
  | .migrationTimeout ctx va => Sys2Proof.Machine.execMigrationTimeout ctx va s
  | .invalidate tok => Sys2Proof.Machine.execInvalidate tok s
  | .invalidateComplete tok => Sys2Proof.Machine.execInvalidateComplete tok s
  | .prefetch tok host ext => Sys2Proof.Machine.execPrefetch tok host ext s
  | .advise tok host => Sys2Proof.Machine.execAdvise tok host s
  | .xltFill tok => Sys2Proof.Machine.execXltFill tok s
  | .xltSetRoot tok => Sys2Proof.Machine.execXltSetRoot tok s
  | .tirSplitWrite path value cycle => Sys2Proof.Machine.execTirSplitWrite path value cycle s
  | .tierPromotion => Sys2Proof.Machine.execTierPromotion s
  | .tierPartCopyDone granule part => Sys2Proof.Machine.execTierPartCopyDone granule part s
  | .tierPromote tok => Sys2Proof.Machine.execTierPromote tok s
  | .tierDemote tok => Sys2Proof.Machine.execTierDemote tok s
  | .tierPin tok => Sys2Proof.Machine.execTierPin tok s
  | .tierUnpin tok => Sys2Proof.Machine.execTierUnpin tok s
  | .fetchDeadline => Sys2Proof.Machine.execFetchDeadline s
  | .cdcProfile tok ext => Sys2Proof.Machine.execCdcProfile tok ext s
  | .cdcEncode tok ext => Sys2Proof.Machine.execCdcEncode tok ext s
  | .cdcDecode tok => Sys2Proof.Machine.execCdcDecode tok s
  | .cdcSend tok => Sys2Proof.Machine.execCdcSend tok s
  | .cdcAdopt tok => Sys2Proof.Machine.execCdcAdopt tok s
  | .cdcTableLoad tok ext => Sys2Proof.Machine.execCdcTableLoad tok ext s
  | .cdcTableFree tok => Sys2Proof.Machine.execCdcTableFree tok s
  | .cdcTableRead tok => Sys2Proof.Machine.execCdcTableRead tok s
  | .tpLoad tok ext => Sys2Proof.Machine.execTpLoad tok ext s
  | .tpRun tok => Sys2Proof.Machine.execTpRun tok s
  | .tpUnload tok => Sys2Proof.Machine.execTpUnload tok s
  | .unloadDrainComplete tok => Sys2Proof.Machine.execUnloadDrainComplete tok s
  | .tblLoad tok ext => Sys2Proof.Machine.execTblLoad tok ext s
  | .tblUnload tok => Sys2Proof.Machine.execTblUnload tok s
  | .lookup tok ext => Sys2Proof.Machine.execLookup tok ext s
  | .tablePublish tok ext => Sys2Proof.Machine.execTablePublish tok ext s
  | .rcAdmit tok ext => Sys2Proof.Machine.execRcAdmit tok ext s
  | .embPrivEntryWrite path value cycle => Sys2Proof.Machine.execEmbPrivEntryWrite path value cycle s
  | .scatterGrad tok ext => Sys2Proof.Machine.execScatterGrad tok ext s
  | .updStart tok ext => Sys2Proof.Machine.execUpdStart tok ext s
  | .updStop tok => Sys2Proof.Machine.execUpdStop tok s
  | .idxLoad tok ext => Sys2Proof.Machine.execIdxLoad tok ext s
  | .idxUnload tok => Sys2Proof.Machine.execIdxUnload tok s
  | .leafWrite tok ext => Sys2Proof.Machine.execLeafWrite tok ext s
  | .idxActivate tok => Sys2Proof.Machine.execIdxActivate tok s
  | .srhQuery tok ext => Sys2Proof.Machine.execSrhQuery tok ext s
  | .srhInsert tok ext => Sys2Proof.Machine.execSrhInsert tok ext s
  | .srhDelete tok ext => Sys2Proof.Machine.execSrhDelete tok ext s
  | .srhMerge tok => Sys2Proof.Machine.execSrhMerge tok s
  | .srhReduce tok ext => Sys2Proof.Machine.execSrhReduce tok ext s
  | .flashPageReadDone fpa lost => Sys2Proof.Machine.execFlashPageReadDone fpa lost s
  | .flashPageProgramDone fpa ok => Sys2Proof.Machine.execFlashPageProgramDone fpa ok s
  | .flashPageMove fpa => Sys2Proof.Machine.execFlashPageMove fpa s
  | .flashChannelFailure channel scorer => Sys2Proof.Machine.execFlashChannelFailure channel scorer s
  | .kvPoolCreate tok ext => Sys2Proof.Machine.execKvPoolCreate tok ext s
  | .kvPoolDestroy tok => Sys2Proof.Machine.execKvPoolDestroy tok s
  | .kvSeqCreate tok => Sys2Proof.Machine.execKvSeqCreate tok s
  | .kvAppend tok => Sys2Proof.Machine.execKvAppend tok s
  | .kvCommit tok lost journal => Sys2Proof.Machine.execKvCommit tok lost journal s
  | .kvRead tok => Sys2Proof.Machine.execKvRead tok s
  | .kvAttend tok => Sys2Proof.Machine.execKvAttend tok s
  | .kvFork tok => Sys2Proof.Machine.execKvFork tok s
  | .kvFree tok => Sys2Proof.Machine.execKvFree tok s
  | .kvMove tok => Sys2Proof.Machine.execKvMove tok s
  | .kvResync tok => Sys2Proof.Machine.execKvResync tok s
  | .kvGrant tok ext => Sys2Proof.Machine.execKvGrant tok ext s
  | .qCreate tok => Sys2Proof.Machine.execQCreate tok s
  | .qDestroy tok => Sys2Proof.Machine.execQDestroy tok s
  | .qPush tok ext => Sys2Proof.Machine.execQPush tok ext s
  | .queueItemCommit tok => Sys2Proof.Machine.execQueueItemCommit tok s
  | .qPop tok => Sys2Proof.Machine.execQPop tok s
  | .qFlush tok => Sys2Proof.Machine.execQFlush tok s
  | .qMark tok => Sys2Proof.Machine.execQMark tok s
  | .qRewind tok => Sys2Proof.Machine.execQRewind tok s
  | .qRelease tok => Sys2Proof.Machine.execQRelease tok s
  | .sqTailDoorbell port pair value => Sys2Proof.Machine.execSqTailDoorbell port pair value s
  | .cqHeadDoorbell port pair value => Sys2Proof.Machine.execCqHeadDoorbell port pair value s
  | .descriptorFetchDone pair ok bits => Sys2Proof.Machine.execDescriptorFetchDone pair ok bits s
  | .nop tok => Sys2Proof.Machine.execNop tok s
  | .abort tok => Sys2Proof.Machine.execAbort tok s
  | .fence tok => Sys2Proof.Machine.execFence tok s
  | .fenceComplete tok => Sys2Proof.Machine.execFenceComplete tok s
  | .waitCounter tok => Sys2Proof.Machine.execWaitCounter tok s
  | .setFlag tok => Sys2Proof.Machine.execSetFlag tok s
  | .counterSet tok => Sys2Proof.Machine.execCounterSet tok s
  | .copy tok ext => Sys2Proof.Machine.execCopy tok ext s
  | .fill tok ext => Sys2Proof.Machine.execFill tok ext s
  | .admitWeights tok => Sys2Proof.Machine.execAdmitWeights tok s
  | .workItemDone tok cluster attempt ok unit ext => Sys2Proof.Machine.execWorkItemDone tok cluster attempt ok unit ext s
  | .unitFailure tok loc => Sys2Proof.Machine.execUnitFailure tok loc s
  | .descriptorComplete tok ok => Sys2Proof.Machine.execDescriptorComplete tok ok s
  | .msixModerationTimer pair => Sys2Proof.Machine.execMsixModerationTimer pair s
  | .ringEnable path value cycle => Sys2Proof.Machine.execRingEnable path value cycle s
  | .ringDisable path value cycle => Sys2Proof.Machine.execRingDisable path value cycle s
  | .subqEnable path value cycle => Sys2Proof.Machine.execSubqEnable path value cycle s
  | .subqDisable path value cycle => Sys2Proof.Machine.execSubqDisable path value cycle s
  | .hifFnModeWrite path value cycle => Sys2Proof.Machine.execHifFnModeWrite path value cycle s
  | .registerWrite path addr len data cycle => Sys2Proof.Machine.execRegisterWrite path addr len data cycle s
  | .bitAliasWrite path addr data cycle => Sys2Proof.Machine.execBitAliasWrite path addr data cycle s
  | .guardArm path off value cycle => Sys2Proof.Machine.execGuardArm path off value cycle s
  | .guardTimeout path cycle => Sys2Proof.Machine.execGuardTimeout path cycle s
  | .mailboxRead path m value => Sys2Proof.Machine.execMailboxRead path m value s
  | .mailboxWrite path m value => Sys2Proof.Machine.execMailboxWrite path m value s
  | .mailboxOpDone m => Sys2Proof.Machine.execMailboxOpDone m s
  | .mbxDataRead path m w => Sys2Proof.Machine.execMbxDataRead path m w s
  | .idnFnReset path value cycle => Sys2Proof.Machine.execIdnFnReset path value cycle s
  | .fnResetDone port => Sys2Proof.Machine.execFnResetDone port s
  | .pwrCapWrite path value cycle => Sys2Proof.Machine.execPwrCapWrite path value cycle s
  | .pwrThermWrite path value cycle => Sys2Proof.Machine.execPwrThermWrite path value cycle s
  | .pwrIslandReqWrite path value cycle => Sys2Proof.Machine.execPwrIslandReqWrite path value cycle s
  | .powerSampleTimer env => Sys2Proof.Machine.execPowerSampleTimer env s
  | .patrolScrub channel ns found => Sys2Proof.Machine.execPatrolScrub channel ns found s
  | .stackHot stack tempC => Sys2Proof.Machine.execStackHot stack tempC s
  | .slotActivate tok ext => Sys2Proof.Machine.execSlotActivate tok ext s
  | .slotRetire path value cycle => Sys2Proof.Machine.execSlotRetire path value cycle s
  | .zeroisationDone slot => Sys2Proof.Machine.execZeroisationDone slot s
  | .otpProgram path value cycle => Sys2Proof.Machine.execOtpProgram path value cycle s
  | .otpProgramDone => Sys2Proof.Machine.execOtpProgramDone s
  | .bounceIn tok ext => Sys2Proof.Machine.execBounceIn tok ext s
  | .bounceOut tok => Sys2Proof.Machine.execBounceOut tok s
  | .bypass tdi count => Sys2Proof.Machine.execBypass tdi count s
  | .samplePreload cells count => Sys2Proof.Machine.execSamplePreload cells count s
  | .extest cells count => Sys2Proof.Machine.execExtest cells count s
  | .idcode => Sys2Proof.Machine.execIdcode s
  | .debugInstruction code tdi count => Sys2Proof.Machine.execDebugInstruction code tdi count s
  | .getVersion via => Sys2Proof.Machine.execGetVersion via s
  | .getCapabilities via => Sys2Proof.Machine.execGetCapabilities via s
  | .negotiateAlgorithms via => Sys2Proof.Machine.execNegotiateAlgorithms via s
  | .getDigests via => Sys2Proof.Machine.execGetDigests via s
  | .getCertificate via slot offset length => Sys2Proof.Machine.execGetCertificate via slot offset length s
  | .challenge via slot nonce => Sys2Proof.Machine.execChallenge via slot nonce s
  | .getMeasurements via block nonce => Sys2Proof.Machine.execGetMeasurements via block nonce s
  | .keyExchange via slot authentic leaf rooted => Sys2Proof.Machine.execKeyExchange via slot authentic leaf rooted s
  | .finish via session verified => Sys2Proof.Machine.execFinish via session verified s
  | .heartbeat via session => Sys2Proof.Machine.execHeartbeat via session s
  | .keyUpdate via session => Sys2Proof.Machine.execKeyUpdate via session s
  | .endSession via session => Sys2Proof.Machine.execEndSession via session s
  | .chunkSend via data last => Sys2Proof.Machine.execChunkSend via data last s
  | .chunkGet via => Sys2Proof.Machine.execChunkGet via s
  | .modelKeySet via session payload => Sys2Proof.Machine.execModelKeySet via session payload s
  | .modelKeyDrop via session payload => Sys2Proof.Machine.execModelKeyDrop via session payload s
  | .flashKeySet via session payload => Sys2Proof.Machine.execFlashKeySet via session payload s
  | .confEnable via session payload => Sys2Proof.Machine.execConfEnable via session payload s
  | .unitTestDone loc passed => Sys2Proof.Machine.execUnitTestDone loc passed s
  | .lockstepMismatch pair => Sys2Proof.Machine.execLockstepMismatch pair s
  | .engineWatchdog tok loc => Sys2Proof.Machine.execEngineWatchdog tok loc s
  | .configurationScrub table index corrected => Sys2Proof.Machine.execConfigurationScrub table index corrected s
  | .clockDeviation die => Sys2Proof.Machine.execClockDeviation die s
  | .dieLoss die => Sys2Proof.Machine.execDieLoss die s
  | .rasPop path value cycle => Sys2Proof.Machine.execRasPop path value cycle s
  | .pgCommit path value cycle => Sys2Proof.Machine.execPgCommit path value cycle s
  | .pgDiscard path value cycle => Sys2Proof.Machine.execPgDiscard path value cycle s
  | .stripeHoldLapse line => Sys2Proof.Machine.execStripeHoldLapse line s
  | .retire m oseq arg => Sys2Proof.Machine.execRetire m oseq arg s
  | .swapOut m oseq tick => Sys2Proof.Machine.execSwapOut m oseq tick s
  | .swapTake m oseq device tick dead => Sys2Proof.Machine.execSwapTake m oseq device tick dead s
  | .epochAnnounce m oseq device tick => Sys2Proof.Machine.execEpochAnnounce m oseq device tick s
  | .buildPace m oseq extent arg => Sys2Proof.Machine.execBuildPace m oseq extent arg s
  | .suspectClear m oseq => Sys2Proof.Machine.execSuspectClear m oseq s
  | .sliceCommit path value cycle => Sys2Proof.Machine.execSliceCommit path value cycle s
  | .sliceDiscard path value cycle => Sys2Proof.Machine.execSliceDiscard path value cycle s
  | .cold m => Sys2Proof.Machine.execCold m s
  | .warm m => Sys2Proof.Machine.execWarm m s
  | .lemtusWatchdog => Sys2Proof.Machine.execLemtusWatchdog s
  | .bootStageDone rep => Sys2Proof.Machine.execBootStageDone rep s
  | .stageTimeout rep => Sys2Proof.Machine.execStageTimeout rep s
  | .bootStatusTimer => Sys2Proof.Machine.execBootStatusTimer s
  | .regRead m addr => Sys2Proof.Machine.execRegRead m addr s
  | .regWrite m addr data cycle => Sys2Proof.Machine.execRegWrite m addr data cycle s
  | .image port addr chunk => Sys2Proof.Machine.execImage port addr chunk s
  | .i3cRegisterWrite addr data cycle => Sys2Proof.Machine.execI3cRegisterWrite addr data cycle s
  | .mgtPwrgoodRise => Sys2Proof.Machine.execMgtPwrgoodRise s
  | .mgtPwrgoodFall => Sys2Proof.Machine.execMgtPwrgoodFall s
  | .mainPwrgoodRise => Sys2Proof.Machine.execMainPwrgoodRise s
  | .mainPwrgoodFall => Sys2Proof.Machine.execMainPwrgoodFall s
  | .resetNAssert => Sys2Proof.Machine.execResetNAssert s
  | .resetNRelease => Sys2Proof.Machine.execResetNRelease s
  | .perstAssert port => Sys2Proof.Machine.execPerstAssert port s
  | .refclkLoss land => Sys2Proof.Machine.execRefclkLoss land s
  | .railFault row => Sys2Proof.Machine.execRailFault row s
  | .thermTrip loc => Sys2Proof.Machine.execThermTrip loc s
  | .retrainLockRegained port good => Sys2Proof.Machine.execRetrainLockRegained port good s
  | .tierPartDemotionDone granule part => Sys2Proof.Machine.execTierPartDemotionDone granule part s
  | .pcieFunctionLevelReset port => Sys2Proof.Machine.execPcieFunctionLevelReset port s
  | .update m oseq slot => Sys2Proof.Machine.execUpdate m oseq slot s
  | .pairRestartTestDone pair passed => Sys2Proof.Machine.execPairRestartTestDone pair passed s
  | .hotRefreshClear stack tempC => Sys2Proof.Machine.execHotRefreshClear stack tempC s

end Sys2Proof.Machine
end

