-- ==== Sys2Proof/Safety.lean ====
section
/-! DEFINITION. What counts as a safe run, in the terms the statements use. -/

namespace Sys2Proof.Machine

/-- The command completes: it has a next state. -/
def completes (i : Instr) (s : State) : Prop := ∃ t, exec i s = .next t

/-- The memory is in its canonical form: one representation for each content, so that equal memories are equal data. -/
def State.memOk (s : State) : Prop := s.mem.bytes.wf = true

/-- R597: the device holds at most 4,096 fault records, and in the last place the OVERFLOW record. -/
def faultsOk (l : List FaultRec) : Prop := l.length ≤ 4096 ∧ (l.length = 4096 → ∃ r ∈ l, r.cls = 0x7F)

/-- A run of `n` commands from `s` neither faults nor is refused. -/
def safeRun (n : Nat) (s : State) : Prop := ∃ t, Host.Core.run Sys2Proof.core n s = .next t

/-! ## Words of the statements -/

/-- Nothing but registers and sent messages differs. -/
def OnlyRegs (s t : State) : Prop := t = { s with regs := t.regs, out := t.out }

/-- The pair that writes `v` to the guarded register at `off` may complete at `cycle`: the path's guard is armed with it and
the path may write the block. -/
def State.pairReady (s : State) (path off : Nat) (v : Word) (cycle : Nat) : Prop :=
  (∃ g, s.armed path off cycle = some g ∧ g.value = v) ∧ s.mayWrite path (off / 0x10000) = true

/-- A register stands at this offset, outside the bit aliases, the mailboxes and the MSI-X arrays. -/
def inRegs (off : Nat) : Prop :=
  off < 2 ^ 24 ∧ inAlias off = false ∧ inMbx off = false ∧ inMsix off = false ∧ inPba off = false ∧ isRegister off = true

/-- The descriptor `tok` is `d`, of this opcode, may begin, and nothing of it has failed. -/
def State.ready (s : State) (tok op : Nat) (d : Desc) : Prop :=
  s.desc tok = some d ∧ dOpcode d.bits = op ∧ s.mayBegin tok d = true ∧ d.cpl.status = ST_OK

/-- The state as its operation begins. -/
def State.begun (s : State) (tok : Nat) (d : Desc) : State := s.setDesc tok { d with begun := true, awaiting := 1 }

/-- The descriptor `tok` is `d`, of this opcode, may begin, and everything its operands ask for is ready: the state once
they are, and the pieces of each operand. -/
def State.granted (s : State) (tok op : Nat) (d : Desc) (needs : List Need) (s1 : State) (segs : List (List Seg)) : Prop :=
  s.ready tok op d ∧ s.acquire tok d needs = .ready s1 segs ∧ s1.ready tok op d

/-- The same for an operation that runs tile by tile: the pieces of the tiles before the first that faults, and that fault. -/
def State.grantedTiles (s : State) (tok op : Nat) (d : Desc) (tiles : List (List Need)) (s1 : State)
    (done : List (List (List Seg))) (stop : Option Cpl) : Prop :=
  s.ready tok op d ∧ (∃ s0, s.xlateTiles tok d tiles [] = (s0, some (done, stop)) ∧
    s0.engineReady tok ((List.zip tiles done).flatMap (fun e => deviceRanges e.1 e.2)) = (s1, true)) ∧ s1.ready tok op d

/-- The KV descriptor may begin, its turn has come, and the control state of its pools reads good. -/
def State.kvReady (s : State) (tok op : Nat) (d : Desc) : Prop :=
  s.ready tok op d ∧ s.kvOrdered tok d = true ∧ (s.kvPools d.bits).all (fun n => !s.ctrlBad n) = true

/-- The queue request may begin, its turn has come, and it names the queue `q` of its own slice and key slot, in service. -/
def State.queReady (s : State) (tok op : Nat) (d : Desc) (q : Queue) : Prop :=
  s.ready tok op d ∧ s.queOrdered tok d = true ∧ s.queue (qNum d.bits) = q ∧ (q.phase = .live ∨ q.phase = .destroying) ∧
    q.slice = dSlice d.bits ∧ q.key = dKeySlot d.bits

/-- A message of a secured type comes within a session that R648 admits: established, authentic, of a rooted chain. -/
def State.admitted (s : State) (m : Msg) : Prop :=
  m.port < 2 ∧ ∃ x, (s.conn (8 + m.port)).session m.session = some x ∧ x.done = true ∧ x.authentic = true ∧ x.rooted = true

/-- The answer to an order. -/
def State.orderReply (s : State) (m : Msg) (oseq status : Nat) : State :=
  s.emit (.mgmtReply m.port 0x22 m.mseq (leBytes 2 oseq ++ leBytes 2 status))

/-- A packet for this device, which has joined: its end-to-end CRC is good and it came on its type's virtual channel. -/
def State.forMe (s : State) (p : Packet) : Prop :=
  s.fab.joined = true ∧ s.fab.devidSet = true ∧ p.dest = s.ownId ∧ p.mc = false ∧ p.crcOk = true ∧
    (p.vc = none ∨ p.vc = some (vcOf p.type))

/-- The device address of the part of a request that this packet carries. -/
def State.inboundAddr (s : State) (p : Packet) : Nat :=
  winBase (s.window (faWindow p.addr)) + faOffset p.addr + (servedPart p).1

/-- An inbound request passes every check, touches no line with a redundancy role, and its lines are free. -/
def State.servable (s : State) (p : Packet) : Prop :=
  s.inboundFails p (s.window (faWindow p.addr)) p.src = none ∧
    s.keyServes (winKey (s.window (faWindow p.addr))) (s.slot (winKey (s.window (faWindow p.addr)))).epoch = true ∧
    s.domainBars (s.inboundAddr p) (servedPart p).2 = false ∧ redundancyRole (s.pgAt (s.inboundAddr p)) = false ∧
    s.swapTarget (s.pgAt (s.inboundAddr p)) = false ∧ pgPeer (s.pgAt (s.inboundAddr p)) p.src = none ∧
    ∀ l ∈ linesOf (s.inboundAddr p) (servedPart p).2, s.lineBusy l = false ∧ s.needsRebuild l = false ∧
      s.recallNeed (.fabric p (s.window (faWindow p.addr)) (s.slot (winKey (s.window (faWindow p.addr)))).epoch) l
        (writesMemory p.type) = none

/-- An inbound request has been counted, its written lines left by the directory, and served. -/
def State.servedInbound (s : State) (p : Packet) : State :=
  ((s.counted p).leaveLines [(s.inboundAddr p, (servedPart p).2, writesMemory p.type)]).applyInbound p
    (winKey (s.window (faWindow p.addr))) (winBase (s.window (faWindow p.addr)) + faOffset p.addr)

/-- The granule an OWN packet names, the counts of its window after it, and a granule's new owner and mode. -/
def State.ownGranule (s : State) (p : Packet) : Nat :=
  (winBase (s.window (faWindow p.addr)) + faOffset p.addr) / granuleSize
def State.setOwner (s : State) (g : Nat) (x : Nat × Nat) : State := { s with fab := { s.fab with own := s.fab.own.put g x } }

/-- A host's request through a partition or coherent decoder resolves to this line under this key slot; nothing occupies
the line, and the request is no writeback that a recall awaits. -/
def State.hostReaches (s : State) (port dec off line slot : Nat) : Prop :=
  s.sec.conf.has port = false ∧ dec ≠ 2 ∧ s.keyActive slot = true ∧ s.lineBusy line = false ∧ s.needsRebuild line = false ∧
    ∃ k e, s.findExt port dec (off / extentSize) = some (k, e) ∧ extState e ≠ EXT_REVOKING ∧ extKey e = slot ∧
      lineOf (k * extentSize + off % extentSize) = line

end Sys2Proof.Machine
end

