-- ==== Sys2Proof/WellFormed.lean ====
section
/-! DEFINITION. Which commands are well formed: every operand within the range its rule gives it. -/

namespace Sys2Proof

open Sys2Proof.Machine

/-- An access path: 0 to 10, and one for each of the 64 hardware threads of the service cores (Table 17-1). -/
def pathOk (path : Nat) : Bool := decide (path < 75)

/-- A host port (HP0 to HP7), a fabric port (R136), a mailbox (R536). -/
def hostPort (p : Nat) : Bool := decide (p < 8)
def fabPort (p : Nat) : Bool := decide (p < 32)
def mailbox (m : Nat) : Bool := decide (m < 16)

/-- A management message: one of the two ports, 32-bit MSEQ and session (R648). -/
def msgOk (m : Msg) : Bool := decide (m.port < 2) && decide (m.mseq < 2 ^ 32) && decide (m.session < 2 ^ 32)

/-- An SPDM transport: eight DOE mailboxes and two management ports (R570). -/
def viaOk (v : Via) : Bool := decide (v.transport < 10) && decide (v.mseq < 2 ^ 32)

/-- A packet whose fields fit their places in the header (Table 5-3), of the type given. -/
def packetOk (p : Packet) : Bool :=
  decide (p.src < 2 ^ 16) && decide (p.dest < 2 ^ 16) && decide (p.epoch < 2 ^ 8) && decide (p.hops < 2 ^ 8) &&
  decide (p.tag < 2 ^ 16) && decide (p.gen < 16) && decide (p.op < 2 ^ 8) && decide (p.key < 2 ^ 32) &&
  decide (p.addr < 2 ^ 64) && decide (p.wsnGen < 2 ^ 8) && decide (p.wsnSeq < 2 ^ 24) && decide (p.counter < 2 ^ 12) &&
  decide (p.length < 2 ^ 32) && decide (p.segOff < 2 ^ 16) && decide (p.segLen ≤ 4096)
def pktOk (type : Nat) (p : Packet) : Bool := p.type == type && packetOk p

/-- A link frame: every packet's fields in their places (R137). -/
def frameOk (f : Frame) : Bool := f.pkts.all packetOk

/-- What a boundary reports: at most one temperature per stack, location codes of 32 bits. -/
def envOk (e : BoundaryEnv) : Bool := decide (e.stackC.length ≤ 12) && e.selfTestFailed.all (fun l => decide (l < 2 ^ 32))

/-- What a boot stage reports: pairs, channels and ports that the device has. -/
def reportOk (r : StageReport) : Bool :=
  r.badPairs.all (fun p => decide (p < 8)) && r.chans.all (fun c => decide (c.1 < 192)) &&
  r.flash.all (fun c => decide (c.1 < 64)) && r.links.all (fun l => hostPort l.1) &&
  r.failed.all (fun l => decide (l < 2 ^ 32))

/-- The command's operands lie in their ranges. -/
def Instr.wellFormed (i : Instr) : Bool :=
  match i with
  | .tickBoundary env => envOk env
  | .pgBuildBlock ext _ _ => decide (ext < 65536)
  | .substituteBoundary env => envOk env
  | .admissionRound _ => true
  | .tickInEdge _ _ => true
  | .tickInEdgeMissing _ => true
  | .ptpMessage _ => true
  | .ptpMessageLoss => true
  | .holdoverLimit _ => true
  | .tickRunStart path _ _ => pathOk path
  | .tickRunStop path _ _ => pathOk path
  | .tickSrcChange path _ _ => pathOk path
  | .tikPeriodWrite path _ _ => pathOk path
  | .tikLullWrite path _ _ => pathOk path
  | .tikLeadWrite path _ _ => pathOk path
  | .tickNowWrite path m => pathOk path && mailbox m
  | .planLoad _ _ => true
  | .planUnload _ => true
  | .fabDevidWrite path _ _ => pathOk path
  | .windowCommitApplyWrite path _ _ => pathOk path
  | .windowCommitDiscard path _ _ => pathOk path
  | .windowDrainComplete => true
  | .arrivalCounterWrite path m => pathOk path && mailbox m
  | .flagTimeout _ _ => true
  | .linkFrame port frame => fabPort port && frameOk frame
  | .portEnable path _ _ => pathOk path
  | .portDisable path _ _ => pathOk path
  | .portRetrain path _ _ => pathOk path
  | .portSignalDetect port lanes => fabPort port && decide (lanes < 256)
  | .portEqualisationDone port lanes => fabPort port && decide (lanes < 256)
  | .portAlignDone port good => fabPort port && decide (good < 256)
  | .laneFault port => fabPort port
  | .portBringupTimeout port => fabPort port
  | .portRetrainTimeout port => fabPort port
  | .escapeTimeout _ => true
  | .neighbourTimer port => fabPort port
  | .load port pkt => fabPort port && pktOk 0x01 pkt
  | .store port pkt => fabPort port && pktOk 0x02 pkt
  | .flaggedStore port pkt => fabPort port && pktOk 0x03 pkt
  | .bulkGet port pkt => fabPort port && pktOk 0x04 pkt
  | .bulkPut port pkt => fabPort port && pktOk 0x05 pkt
  | .atomic port pkt => fabPort port && pktOk 0x06 pkt
  | .accAdd port pkt => fabPort port && pktOk 0x07 pkt
  | .accRead port pkt => fabPort port && pktOk 0x08 pkt
  | .submit port pkt => fabPort port && pktOk 0x09 pkt
  | .ownClaim port pkt => fabPort port && pktOk 0x0a pkt && pkt.op == 1
  | .ownHandoff port pkt => fabPort port && pktOk 0x0a pkt && pkt.op == 2
  | .ownRelease port pkt => fabPort port && pktOk 0x0a pkt && pkt.op == 3
  | .seqSync port pkt => fabPort port && pktOk 0x0b pkt
  | .mcPut port pkt => fabPort port && pktOk 0x0c pkt
  | .readData port pkt => fabPort port && pktOk 0x10 pkt
  | .bulkData port pkt => fabPort port && pktOk 0x11 pkt
  | .ack port pkt => fabPort port && pktOk 0x12 pkt
  | .tick port pkt => fabPort port && pktOk 0x20 pkt
  | .neighbour port pkt => fabPort port && pktOk 0x30 pkt
  | .requestTimeout tag => decide (tag < 65536)
  | .join path _ _ => pathOk path
  | .leave path _ _ => pathOk path
  | .fabOwnEntryWrite path _ _ => pathOk path
  | .threadSwitchNormal path _ _ => pathOk path
  | .fabVcCfgWrite path vc _ _ => pathOk path && decide (vc < 8)
  | .memRd port dec _ _ => hostPort port && decide (dec < 4)
  | .memRdData port dec _ => hostPort port && decide (dec < 4)
  | .memInv port dec _ => hostPort port && decide (dec < 4)
  | .memInvNt port dec _ => hostPort port && decide (dec < 4)
  | .memClnEvct port dec _ => hostPort port && decide (dec < 4)
  | .memWr port dec _ _ data => hostPort port && decide (dec < 4) && data.length == 64
  | .memWrPtl port dec _ _ data mask => hostPort port && decide (dec < 4) && data.length == 64 && decide (mask < 2 ^ 64)
  | .memRdFwd port dec _ _ => hostPort port && decide (dec < 4)
  | .memWrFwd port dec _ _ data => hostPort port && decide (dec < 4) && data.length == 64
  | .memSpecRd port dec _ => hostPort port && decide (dec < 4)
  | .biRspI port _ _ => hostPort port
  | .biRspS port _ => hostPort port
  | .biRspE port _ => hostPort port
  | .biConflict port _ => hostPort port
  | .minHoldExpiry _ => true
  | .biTimeout port _ => hostPort port
  | .domainWalkDone => true
  | .dirDomainReset path _ _ => pathOk path
  | .hifExtEntryWrite path _ _ => pathOk path
  | .revocationComplete ext => decide (ext < 65536)
  | .hifLayoutWrite path _ _ => pathOk path
  | .hifPortCfgWrite path _ _ => pathOk path
  | .hdmDecoderCommit port dec _ _ => hostPort port && decide (dec < 4)
  | .hifShrCommit path _ _ => pathOk path
  | .cowCopyDone range _ => decide (range < 64)
  | .bar4Access port _ _ _ _ => hostPort port
  | .hostLinkChange port _ _ => hostPort port
  | .identify port => hostPort port
  | .getPartitionInfo port => hostPort port
  | .getEventRecords port => hostPort port
  | .clearEventRecords port => hostPort port
  | .getPoisonList port => hostPort port
  | .cdatRead port => hostPort port
  | .snapOpen _ => true
  | .snapClose _ => true
  | .snapPublish _ => true
  | .snapDiscard _ => true
  | .xltCtxCommit path _ _ => pathOk path
  | .tlbMiss _ _ _ => true
  | .walkDone ctx _ _ => decide (ctx < 1024)
  | .missTimeout _ => true
  | .migrationStart ctx _ _ _ => decide (ctx < 1024)
  | .migrationCopyDone ctx _ _ _ => decide (ctx < 1024)
  | .migrationTimeout ctx _ => decide (ctx < 1024)
  | .invalidate _ => true
  | .invalidateComplete _ => true
  | .prefetch _ _ _ => true
  | .advise _ _ => true
  | .xltFill _ => true
  | .xltSetRoot _ => true
  | .tirSplitWrite path _ _ => pathOk path
  | .tierPromotion => true
  | .tierPartCopyDone _ _ => true
  | .tierPromote _ => true
  | .tierDemote _ => true
  | .tierPin _ => true
  | .tierUnpin _ => true
  | .fetchDeadline => true
  | .cdcProfile _ _ => true
  | .cdcEncode _ _ => true
  | .cdcDecode _ => true
  | .cdcSend _ => true
  | .cdcAdopt _ => true
  | .cdcTableLoad _ _ => true
  | .cdcTableFree _ => true
  | .cdcTableRead _ => true
  | .tpLoad _ _ => true
  | .tpRun _ => true
  | .tpUnload _ => true
  | .unloadDrainComplete _ => true
  | .tblLoad _ _ => true
  | .tblUnload _ => true
  | .lookup _ _ => true
  | .tablePublish _ _ => true
  | .rcAdmit _ _ => true
  | .embPrivEntryWrite path _ _ => pathOk path
  | .scatterGrad _ _ => true
  | .updStart _ _ => true
  | .updStop _ => true
  | .idxLoad _ _ => true
  | .idxUnload _ => true
  | .leafWrite _ _ => true
  | .idxActivate _ => true
  | .srhQuery _ _ => true
  | .srhInsert _ _ => true
  | .srhDelete _ _ => true
  | .srhMerge _ => true
  | .srhReduce _ _ => true
  | .flashPageReadDone _ _ => true
  | .flashPageProgramDone _ _ => true
  | .flashPageMove _ => true
  | .flashChannelFailure channel _ => decide (channel < 64)
  | .kvPoolCreate _ _ => true
  | .kvPoolDestroy _ => true
  | .kvSeqCreate _ => true
  | .kvAppend _ => true
  | .kvCommit _ _ _ => true
  | .kvRead _ => true
  | .kvAttend _ => true
  | .kvFork _ => true
  | .kvFree _ => true
  | .kvMove _ => true
  | .kvResync _ => true
  | .kvGrant _ _ => true
  | .qCreate _ => true
  | .qDestroy _ => true
  | .qPush _ _ => true
  | .queueItemCommit _ => true
  | .qPop _ => true
  | .qFlush _ => true
  | .qMark _ => true
  | .qRewind _ => true
  | .qRelease _ => true
  | .sqTailDoorbell port pair _ => hostPort port && decide (pair < 1024)
  | .cqHeadDoorbell port pair _ => hostPort port && decide (pair < 1024)
  | .descriptorFetchDone pair _ _ => decide (pair < 1024)
  | .nop _ => true
  | .abort _ => true
  | .fence _ => true
  | .fenceComplete _ => true
  | .waitCounter _ => true
  | .setFlag _ => true
  | .counterSet _ => true
  | .copy _ _ => true
  | .fill _ _ => true
  | .admitWeights _ => true
  | .workItemDone _ _ _ _ _ _ => true
  | .unitFailure _ loc => decide (loc < 2 ^ 32)
  | .descriptorComplete _ _ => true
  | .msixModerationTimer pair => decide (pair < 1024)
  | .ringEnable path _ _ => pathOk path
  | .ringDisable path _ _ => pathOk path
  | .subqEnable path _ _ => pathOk path
  | .subqDisable path _ _ => pathOk path
  | .hifFnModeWrite path _ _ => pathOk path
  | .registerWrite path addr _ _ _ => pathOk path && decide (addr < 16777216)
  | .bitAliasWrite path addr _ _ => pathOk path && decide (addr < 16777216)
  | .guardArm path off _ _ => pathOk path && decide (off < 16777216)
  | .guardTimeout path _ => pathOk path
  | .mailboxRead path m _ => pathOk path && mailbox m
  | .mailboxWrite path m _ => pathOk path && mailbox m
  | .mailboxOpDone m => mailbox m
  | .mbxDataRead path m w => pathOk path && mailbox m && decide (w < 8)
  | .idnFnReset path _ _ => pathOk path
  | .fnResetDone port => hostPort port
  | .pwrCapWrite path _ _ => pathOk path
  | .pwrThermWrite path _ _ => pathOk path
  | .pwrIslandReqWrite path _ _ => pathOk path
  | .powerSampleTimer env => envOk env
  | .patrolScrub channel _ _ => decide (channel < 192)
  | .stackHot stack _ => decide (stack < 12)
  | .slotActivate _ _ => true
  | .slotRetire path _ _ => pathOk path
  | .zeroisationDone slot => decide (slot < 256)
  | .otpProgram path _ _ => pathOk path
  | .otpProgramDone => true
  | .bounceIn _ _ => true
  | .bounceOut _ => true
  | .bypass _ _ => true
  | .samplePreload _ _ => true
  | .extest _ _ => true
  | .idcode => true
  | .debugInstruction code _ _ => decide (code < 4294967296)
  | .getVersion via => viaOk via
  | .getCapabilities via => viaOk via
  | .negotiateAlgorithms via => viaOk via
  | .getDigests via => viaOk via
  | .getCertificate via slot _ _ => viaOk via && decide (slot < 8)
  | .challenge via slot nonce => viaOk via && decide (slot < 8) && nonce.length == 32
  | .getMeasurements via _ nonce => viaOk via && nonce.length == 32
  | .keyExchange via slot _ _ _ => viaOk via && decide (slot < 8)
  | .finish via session _ => viaOk via && decide (session < 4294967296)
  | .heartbeat via session => viaOk via && decide (session < 4294967296)
  | .keyUpdate via session => viaOk via && decide (session < 4294967296)
  | .endSession via session => viaOk via && decide (session < 4294967296)
  | .chunkSend via _ _ => viaOk via
  | .chunkGet via => viaOk via
  | .modelKeySet via session _ => viaOk via && decide (session < 4294967296)
  | .modelKeyDrop via session _ => viaOk via && decide (session < 4294967296)
  | .flashKeySet via session _ => viaOk via && decide (session < 4294967296)
  | .confEnable via session _ => viaOk via && decide (session < 4294967296)
  | .unitTestDone loc _ => decide (loc < 2 ^ 32)
  | .lockstepMismatch pair => decide (pair < 8)
  | .engineWatchdog _ loc => decide (loc < 2 ^ 32)
  | .configurationScrub _ _ _ => true
  | .clockDeviation die => decide (die < 256)
  | .dieLoss die => decide (die < 256)
  | .rasPop path _ _ => pathOk path
  | .pgCommit path _ _ => pathOk path
  | .pgDiscard path _ _ => pathOk path
  | .stripeHoldLapse _ => true
  | .retire m oseq _ => msgOk m && decide (oseq < 4294967296)
  | .swapOut m oseq _ => msgOk m && decide (oseq < 4294967296)
  | .swapTake m oseq _ _ _ => msgOk m && decide (oseq < 4294967296)
  | .epochAnnounce m oseq _ _ => msgOk m && decide (oseq < 4294967296)
  | .buildPace m oseq _ _ => msgOk m && decide (oseq < 4294967296)
  | .suspectClear m oseq => msgOk m && decide (oseq < 4294967296)
  | .sliceCommit path _ _ => pathOk path
  | .sliceDiscard path _ _ => pathOk path
  | .cold m => msgOk m
  | .warm m => msgOk m
  | .lemtusWatchdog => true
  | .bootStageDone rep => reportOk rep
  | .stageTimeout rep => reportOk rep
  | .bootStatusTimer => true
  | .regRead m addr => msgOk m && decide (addr < 16777216)
  | .regWrite m addr data _ => msgOk m && decide (addr < 16777216) && decide (data < 4294967296)
  | .image port _ chunk => decide (port < 2) && decide (chunk.length ≤ 1024)
  | .i3cRegisterWrite addr data _ => decide (addr < 16777216) && decide (data < 4294967296)
  | .mgtPwrgoodRise => true
  | .mgtPwrgoodFall => true
  | .mainPwrgoodRise => true
  | .mainPwrgoodFall => true
  | .resetNAssert => true
  | .resetNRelease => true
  | .perstAssert port => hostPort port
  | .refclkLoss land => decide (land < 13)
  | .railFault _ => true
  | .thermTrip loc => decide (loc < 2 ^ 32)
  | .retrainLockRegained port good => fabPort port && decide (good < 256)
  | .tierPartDemotionDone _ _ => true
  | .pcieFunctionLevelReset port => hostPort port
  | .update m oseq slot => msgOk m && decide (oseq < 4294967296) && decide (slot < 256)
  | .pairRestartTestDone pair _ => decide (pair < 8)
  | .hotRefreshClear stack _ => decide (stack < 12)

end Sys2Proof
end

