-- ==== Sys2Proof/Certificates/Slice0/Obligations.lean ====
section
/-! DEFINITION. The statements for the provers. -/

open Sys2Proof Sys2Proof.Machine

/-- A step runs the command at the front of the queue (Scope, Operations and events).
Where the rules leave a choice it is the model's own, in assumption 8. -/
def Obligations.StepRunsFrontCommand : Prop :=
  ∀ (c : Instr) (rest : List Instr) (s : State), s.pending = c :: rest → step s = exec c { s with pending := rest }

/-- With no command waiting the device idles (Operations and events).
Where the rules leave a choice it is the model's own, in assumption 2. -/
def Obligations.EmptyQueueIdles : Prop := ∀ s : State, s.pending = [] → step s = .next s

/-- After a cold reset no host path may write, no guard is armed, no write has been logged (R546). -/
def Obligations.ColdResetRegisterAccess : Prop :=
  (∀ path b : Nat, path < 8 → b < blockCount → b ≠ B_MBX → State.reset.mayWrite path b = false) ∧
  (∀ b : Nat, b < blockCount → State.reset.word (Reg.GRD_PORT_EN b) = 0 ∧ State.reset.word (Reg.GRD_REJECTS b) = 0 ∧
    State.reset.word (Reg.GRD_LAST_ADDR b) = 0 ∧ State.reset.word (Reg.GRD_LAST_DATA b) = 0 ∧
    State.reset.word (Reg.GRD_LAST_INFO b) = 0 ∧ State.reset.word (Reg.GRD_LAST_TICK b) = 0) ∧
  (∀ path off cycle : Nat, State.reset.armed path off cycle = none) ∧
  (∀ m : Nat, State.reset.mbx m = {})

/-- What the device holds right after a cold reset (R7, R36, R42, R496, R500, R573, Power-up, boot and bring-up).
Where the rules leave a choice it is the model's own, in assumptions 6, 9. -/
def Obligations.ColdResetState : Prop :=
  State.reset.pending = [] ∧ State.reset.out = [] ∧ State.reset.tick.now = 0 ∧ State.reset.tick.sync = .stopped ∧
  (∀ tok, State.reset.desc tok = none) ∧ (∀ n, (State.reset.ring n).state = .disabled) ∧
  (∀ n, (State.reset.subq n).state = .disabled) ∧ (∀ n, (State.reset.port n).state = .disabled) ∧
  State.reset.fab.joined = false ∧ (∀ k, (State.reset.slot k).phase = .free ∧ (State.reset.slot k).epoch = 0) ∧ State.reset.faults = [] ∧
  (∀ off, State.reset.word off = resetWord off) ∧ (∀ a, State.reset.mem.bytes.read a = Mem.blank)

/-- The tick registers: starting, stopping and re-sourcing the generator; period, lull and lead (R37, R40, R42, R55, R62, R541, R542).
Where the rules leave a choice it is the model's own, in assumptions 14, 15. -/
def Obligations.TickControlWrites : Prop :=
  (∀ (s : State) (path cycle : Nat) (v : Word), s.pairReady path Reg.TIK_CTRL v cycle → bitOf v 0 = true →
    s.fld F.TIK_CTRL_RUN = 0 → bitsOf v 4 2 ≠ 3 →
    ∃ t, exec (.tickRunStart path (~~~v) cycle) s = .next t ∧ t.tick.now = s.tick.now ∧
      t.tick.sync = (if bitsOf v 4 2 = 0 then .free else .locking) ∧ t.tickSrc = bitsOf v 4 2 ∧ t.fld F.TIK_CTRL_RUN = 1 ∧
      t = { s with regs := t.regs, tick := t.tick }) ∧
  (∀ (s : State) (path cycle : Nat) (v : Word), s.pairReady path Reg.TIK_CTRL v cycle → bitOf v 0 = false →
    bitsOf v 4 2 ≠ 3 →
    ∃ t, exec (.tickRunStop path (~~~v) cycle) s = .next t ∧ t.tick.now = s.tick.now ∧ t.tick.sync = .stopped ∧
      t.fld F.TIK_CTRL_RUN = 0 ∧ t = { s with regs := t.regs, tick := t.tick, ras := t.ras }) ∧
  (∀ (s : State) (path cycle : Nat) (v : Word), s.pairReady path Reg.TIK_CTRL v cycle → bitOf v 0 = true →
    s.fld F.TIK_CTRL_RUN = 1 → bitsOf v 4 2 ≠ s.tickSrc → bitsOf v 4 2 ≠ 3 →
    ∃ t, exec (.tickSrcChange path (~~~v) cycle) s = .next t ∧ t.tick.now = s.tick.now ∧
      t.tick.sync = (if bitsOf v 4 2 = 0 then .free else .locking) ∧ t.tickSrc = bitsOf v 4 2 ∧
      t = { s with regs := t.regs, tick := t.tick }) ∧
  (∀ (s : State) (path cycle : Nat) (v : Word), s.pairReady path Reg.TIK_PERIOD v cycle →
    50 ≤ bitsOf v 0 17 → bitsOf v 0 17 ≤ 100000 → (s.fld F.TIK_CTRL_MASTER = 0 → s.tickSrc ≠ 1) → s.tick.change = none →
    ∃ t, exec (.tikPeriodWrite path (~~~v) cycle) s = .next t ∧ t.mem = s.mem ∧ t.tick.now = s.tick.now ∧
      (s.tick.sync = .stopped → t.tick.periodPending = some (bitsOf v 0 17) ∧ t.tick.change = none) ∧
      (s.tick.sync ≠ .stopped → t.tick.change = some (bitsOf v 0 17, s.tick.now + 65))) ∧
  (∀ (s : State) (path cycle : Nat) (v : Word), s.pairReady path Reg.TIK_PERIOD v cycle →
    bitsOf v 0 17 < 50 ∨ 100000 < bitsOf v 0 17 →
    ∃ t, exec (.tikPeriodWrite path (~~~v) cycle) s = .next t ∧ OnlyRegs s t) ∧
  (∀ (s : State) (path cycle : Nat) (v : Word), s.pairReady path Reg.TIK_LULL v cycle →
    2 ≤ bitsOf v 0 12 → bitsOf v 12 12 < bitsOf v 0 12 → bitsOf v 24 7 ≤ 100 →
    exec (.tikLullWrite path (~~~v) cycle) s = .next { s.setGuard path none with
      tick := { s.tick with lullPending := some (writeWord Reg.TIK_LULL 0 v) } }) ∧
  (∀ (s : State) (path cycle : Nat) (v : Word), s.mayWrite path B_TIK = true → s.armed path Reg.TIK_PERIOD cycle = none →
    2 ≤ bitsOf v 0 17 → 2 * bitsOf v 0 17 ≤ s.period →
    ∃ t, exec (.tikLeadWrite path v cycle) s = .next t ∧
      t = s.setWord Reg.TIK_LEAD (writeWord Reg.TIK_LEAD (s.word Reg.TIK_LEAD) v) ∧
      t.fld F.TIK_LEAD_LEAD_US = bitsOf v 0 17)

/-- What the edges of TICK_IN and the PTP messages do to the tick generator (R37, R41, R42, R43, R46, R670).
Where the rules leave a choice it is the model's own, in assumptions 8, 10, 15. -/
def Obligations.TickInputs : Prop :=
  (∀ (s : State) (ns high : Nat), s.tick.sync ≠ .stopped → s.tickSrc = 2 → high < 20 →
    exec (.tickInEdge ns high) s = .next { s with tick := { s.tick with edgesIgnored := s.tick.edgesIgnored + 1 } }) ∧
  (∀ (s : State) (ns high : Nat), s.tick.sync = .lost → s.tickSrc = 2 → 20 ≤ high →
    ∃ t, exec (.tickInEdge ns high) s = .next t ∧ t.tick.sync = .locking ∧ t.tick.edgeDue = true ∧
      t.tick.expected = some (ns + 1000 * s.periodAt (s.tick.now + 1)) ∧ t.tick.now = s.tick.now ∧ t = { s with tick := t.tick }) ∧
  (∀ (s : State) (ns high x : Nat), s.tick.sync = .locked → s.tickSrc = 2 → 20 ≤ high → s.tick.expected = some x →
    exec (.tickInEdge ns high) s = .next { s with tick := (if ns + 1000 < x ∨ x + 1000 < ns
      then { s.tick with edgesIgnored := s.tick.edgesIgnored + 1 }
      else { s.tick with expected := some (ns + 1000 * s.periodAt (s.tick.now + 1)), edgeDue := true }) }) ∧
  (∀ (s : State) (ns high x : Nat), s.tick.sync = .locking ∨ s.tick.sync = .holdover → s.tickSrc = 2 → 20 ≤ high →
    s.tick.expected = some x → x ≤ ns + 1000 → ns ≤ x + 1000 →
    ∃ t, exec (.tickInEdge ns high) s = .next t ∧
      t.tick.sync = (if 15 ≤ s.tick.lockCount then .locked else s.tick.sync) ∧
      t.tick.lockCount = (if 15 ≤ s.tick.lockCount then 0 else s.tick.lockCount + 1) ∧ t.tick.edgeDue = true ∧
      t.tick.now = s.tick.now ∧ t = { s with tick := t.tick }) ∧
  (∀ (s : State) (ns x : Nat), s.tickSrc = 2 → s.tick.expected = some x → x + 1000 ≤ ns → s.tick.sync = .locking →
    exec (.tickInEdgeMissing ns) s = .next { s with
      tick := { s.tick with lockCount := 0, expected := some (x + 1000 * s.periodAt (s.tick.now + 1)), edgeDue := true } }) ∧
  (∀ (s : State) (ns x : Nat), s.tickSrc = 2 → s.tick.expected = some x → x + 1000 ≤ ns → s.tick.sync = .locked →
    exec (.tickInEdgeMissing ns) s = .next ((({ s with tick := { s.tick with sync := .holdover, lockCount := 0 } }).setEvt
      F.TIK_EVT_HOLDOVER).edgeTaken x)) ∧
  (∀ (s : State) (off : Int), s.fld F.TIK_CTRL_PTP_EN = 1 → s.tick.sync = .locked → s.tickSrc = 1 →
    exec (.ptpMessage off) s = .next (if 100 < off.natAbs
      then ({ s with tick := { s.tick with offset := off, offsetKnown := true, ptpLive := true, ptpSinceLost := true
                                           sync := .holdover, lockCount := 0 } }).setEvt F.TIK_EVT_HOLDOVER
      else { s with tick := { s.tick with offset := off, offsetKnown := true, ptpLive := true, ptpSinceLost := true } })) ∧
  (∀ s : State, s.tick.sync = .locked → s.tickSrc = 1 →
    exec .ptpMessageLoss s = .next (({ s with tick := { s.tick with ptpLive := false, sync := .holdover, lockCount := 0 } }).setEvt
      F.TIK_EVT_HOLDOVER)) ∧
  (∀ (s : State) (elapsed : Nat), s.tick.sync = .holdover → s.tickSrc = 1 →
    exec (.holdoverLimit elapsed) s = .next (
      if 125 * 10 ^ 9 < s.tick.offset.natAbs * 10 ^ 9 + elapsed * s.fld F.TIK_DRIFT_DRIFT_PPB
      then (({ s with tick := { s.tick with sync := .lost, ptpSinceLost := false, pktSinceLost := false, lockCount := 0
                                            expected := none } }).setEvt F.TIK_EVT_LOST).event SYNC_LOST LOC_MD
      else s))

/-- Device ID, joining and leaving, ownership entries, virtual channels, the thread switch (R73, R147, R169, R173, R175, R176, R542).
Where the rules leave a choice it is the model's own, in assumptions 14, 39. -/
def Obligations.FabricIdentityWrites : Prop :=
  (∀ (s : State) (path cycle : Nat) (v : Word), s.pairReady path Reg.FAB_DEVID v cycle →
    exec (.fabDevidWrite path (~~~v) cycle) s = if s.fab.joined
      then .next ((s.setGuard path none).logReject B_FAB Reg.FAB_DEVID v REG_STATE path)
      else .next { (s.setGuard path none).setWord Reg.FAB_DEVID (writeWord Reg.FAB_DEVID 0 v) with
        fab := { s.fab with devidSet := true } }) ∧
  (∀ (s : State) (path cycle : Nat) (v : Word), s.pairReady path Reg.FAB_CTRL v cycle → bitOf v 0 = true → bitOf v 1 = false →
    s.fab.joined = false →
    exec (.join path (~~~v) cycle) s = if s.fab.devidSet && s.fab.ports.any (fun _ p => p.up)
      then .next (({ s.setGuard path none with fab := { s.fab with joined := true, leaving := false } }).setEvt F.FAB_EVT_JOINED)
      else .next ((s.setGuard path none).logReject B_FAB Reg.FAB_CTRL v REG_STATE path)) ∧
  (∀ (s : State) (path cycle : Nat) (v : Word), s.pairReady path Reg.FAB_CTRL v cycle → bitOf v 0 = false → bitOf v 1 = true →
    s.fab.joined = true →
    exec (.leave path (~~~v) cycle) s = .next
      (({ s.setGuard path none with fab := { s.fab with joined := false, leaving := true } }).setEvt F.FAB_EVT_LEFT)) ∧
  (∀ (s : State) (path cycle : Nat) (v : Word), s.pairReady path Reg.FAB_OWN_ENTRY v cycle →
    exec (.fabOwnEntryWrite path (~~~v) cycle) s = if bitsOf v 16 2 = 3
      then .next ((s.setGuard path none).logReject B_FAB Reg.FAB_OWN_ENTRY v REG_VALUE path)
      else .next { s.setGuard path none with fab := { s.fab with
        own := s.fab.own.put (s.fld F.FAB_OWN_SEL_GRANULE) (bitsOf v 0 16, bitsOf v 16 2) } }) ∧
  (∀ (s : State) (path vc cycle : Nat) (v : Word), s.mayWrite path B_FAB = true → vc < 8 →
    (s.port (s.fld F.FAB_PORT_SEL_PORT)).state = .disabled →
    (((s.port (s.fld F.FAB_PORT_SEL_PORT)).vcCfg.set vc (BitVec.ofNat 32 (bitsOf v 0 12 + at_ 16 (bitsOf v 16 12)))).map
      (fun x => bitsOf x 0 12 + bitsOf x 16 12)).foldl (· + ·) 0 ≤ 8192 →
    exec (.fabVcCfgWrite path vc v cycle) s = .next (s.setPort (s.fld F.FAB_PORT_SEL_PORT) { s.port (s.fld F.FAB_PORT_SEL_PORT) with
      vcCfg := (s.port (s.fld F.FAB_PORT_SEL_PORT)).vcCfg.set vc (BitVec.ofNat 32 (bitsOf v 0 12 + at_ 16 (bitsOf v 16 12))) })) ∧
  (∀ (s : State) (path cycle : Nat) (v : Word), s.mayWrite path B_FAB = true →
    exec (.threadSwitchNormal path v cycle) s =
      .next (s.setWord Reg.FAB_TS_CTRL (writeWord Reg.FAB_TS_CTRL (s.word Reg.FAB_TS_CTRL) v)))

/-- Committing, discarding and draining the window table (R84, R85, R86, R87, R542).
Where the rules leave a choice it is the model's own, in assumption 14. -/
def Obligations.WindowCommits : Prop :=
  (∀ (s : State) (path cycle : Nat) (v : Word), s.pairReady path Reg.FAB_WIN_COMMIT v cycle → bitOf v 0 = true → bitOf v 1 = false →
    s.win.pending = none → s.winCommitFails s.win.shadow = none →
    exec (.windowCommitApplyWrite path (~~~v) cycle) s = .next { s.setGuard path none with
      win := { s.win with pending := some (s.win.shadow, cycle) } }) ∧
  (∀ (s : State) (path cycle n reason : Nat) (v : Word), s.pairReady path Reg.FAB_WIN_COMMIT v cycle → bitOf v 0 = true →
    bitOf v 1 = false →
    (if s.win.pending.isSome then some (0, COMMIT_BUSY) else s.winCommitFails s.win.shadow) = some (n, reason) →
    exec (.windowCommitApplyWrite path (~~~v) cycle) s = .next (((((s.setGuard path none).setWord Reg.FAB_WIN_ERR
      (BitVec.ofNat 32 (reason + at_ 16 n))).setEvt F.FAB_WIN_EVT_COMMIT_REFUSED)).logReject B_FAB Reg.FAB_WIN_COMMIT v REG_STATE path)) ∧
  (∀ (s : State) (path cycle : Nat) (v : Word), s.pairReady path Reg.FAB_WIN_COMMIT v cycle → bitOf v 0 = false → bitOf v 1 = true →
    exec (.windowCommitDiscard path (~~~v) cycle) s = .next { s.setGuard path none with
      win := { s.win with shadow := s.win.committed } }) ∧
  (∀ s : State, s.win.draining = true →
    exec .windowDrainComplete s = .next (({ s with win := { s.win with draining := false, old := [] } }).setEvt
      F.FAB_WIN_EVT_DRAINED))

/-- How a fabric port comes up, trains again and fails (R139, R140, R141, R142, R156).
Where the rules leave a choice it is the model's own, in assumptions 8, 37. -/
def Obligations.PortStates : Prop :=
  (∀ (s : State) (path cycle : Nat) (v : Word), s.mayWrite path B_FAB = true → bitsOf v 8 2 ≠ 3 → bitOf v 0 = true → bitOf v 1 = false →
    (s.port (s.fld F.FAB_PORT_SEL_PORT)).enable = false →
    exec (.portEnable path v cycle) s = .next ((s.setPort (s.fld F.FAB_PORT_SEL_PORT)
      { s.port (s.fld F.FAB_PORT_SEL_PORT) with enable := true, minLanes := bitsOf v 8 2 }).movePort (s.fld F.FAB_PORT_SEL_PORT) .detect)) ∧
  (∀ (s : State) (path cycle : Nat) (v : Word), s.mayWrite path B_FAB = true → bitsOf v 8 2 ≠ 3 → bitOf v 0 = false → bitOf v 1 = false →
    (s.port (s.fld F.FAB_PORT_SEL_PORT)).enable = true →
    exec (.portDisable path v cycle) s = .next (((s.setPort (s.fld F.FAB_PORT_SEL_PORT)
      { s.port (s.fld F.FAB_PORT_SEL_PORT) with enable := false, minLanes := bitsOf v 8 2, width := 0, good := 0 }).movePort
        (s.fld F.FAB_PORT_SEL_PORT) .disabled).requeue (s.fld F.FAB_PORT_SEL_PORT))) ∧
  (∀ (s : State) (path cycle : Nat) (v : Word), s.mayWrite path B_FAB = true → bitsOf v 8 2 ≠ 3 → bitOf v 0 = true → bitOf v 1 = true →
    (s.port (s.fld F.FAB_PORT_SEL_PORT)).enable = true →
    (s.port (s.fld F.FAB_PORT_SEL_PORT)).state = .active ∨ (s.port (s.fld F.FAB_PORT_SEL_PORT)).state = .failed →
    exec (.portRetrain path v cycle) s = .next ((s.setPort (s.fld F.FAB_PORT_SEL_PORT)
      { s.port (s.fld F.FAB_PORT_SEL_PORT) with enable := true, minLanes := bitsOf v 8 2 }).movePort (s.fld F.FAB_PORT_SEL_PORT)
        (if (s.port (s.fld F.FAB_PORT_SEL_PORT)).state = .active then .retrain else .detect))) ∧
  (∀ (s : State) (n lanes : Nat), (s.port n).state = .detect → 4 ≤ lanes →
    exec (.portSignalDetect n lanes) s = .next (s.movePort n .train)) ∧
  (∀ (s : State) (n lanes : Nat), (s.port n).state = .train → 4 ≤ lanes →
    exec (.portEqualisationDone n lanes) s = .next (s.movePort n .align)) ∧
  (∀ (s : State) (n good : Nat), (s.port n).state = .align →
    exec (.portAlignDone n good) s = .next (match chooseWidth (good % 256) (s.port n).minLanes with
      | some w => ((s.setPort n { s.port n with good := good % 256, width := w }).movePort n .init).sendNeighbour n
      | none => (s.setPort n { s.port n with good := good % 256 }).failPort n)) ∧
  (∀ (s : State) (n : Nat), (s.port n).up = true → exec (.laneFault n) s = .next (s.movePort n .retrain)) ∧
  (∀ (s : State) (n good w : Nat), (s.port n).state = .retrain → chooseWidth (good % 256) (s.port n).minLanes = some w →
    exec (.retrainLockRegained n good) s =
      let t := (s.setPort n { s.port n with good := good % 256, width := w, resends := 0 }).movePort n
        (if w = 8 then .active else .degraded)
      if w = (s.port n).width then .next ((t.resendFrames n).drainPort n)
      else .next (((t.event 0 (locPort n) w).resendFrames n).drainPort n)) ∧
  (∀ (s : State) (n good : Nat), (s.port n).state = .retrain → chooseWidth (good % 256) (s.port n).minLanes = none →
    exec (.retrainLockRegained n good) s = .next ((s.setPort n { s.port n with good := good % 256 }).failPort n)) ∧
  (∀ (s : State) (n : Nat), (s.port n).state ∈ [.detect, .train, .align, .init] →
    exec (.portBringupTimeout n) s = .next (s.failPort n)) ∧
  (∀ (s : State) (n : Nat), (s.port n).state = .retrain → exec (.portRetrainTimeout n) s = .next (s.failPort n)) ∧
  (∀ (s : State) (n : Nat), (s.port n).up = true ∨ (s.port n).state = .init →
    exec (.neighbourTimer n) s = .next (s.emit (.packet (some n) (s.neighbourPacket n)))) ∧
  (∀ (s : State) (n : Nat) (p : Packet), p.type = T_NEIGHBOUR → (s.port n).state = .init →
    exec (.neighbour n p) s = .next ((s.setPort n { s.port n with neighbour := BitVec.ofNat 64 (p.operand % 2 ^ 22) }).movePort n
      (if (s.port n).width = 8 then .active else .degraded)))

/-- Register writes: widths, paths, guarded and read-only registers, the effect of each other register (R529, R530, R532, R533, R534, R535, R541, Table 17-4).
Where the rules leave a choice it is the model's own, in assumptions 13, 14. -/
def Obligations.RegisterWrites : Prop :=
  (∀ (s : State) (path off data cycle : Nat), s.regs.guards.find path = none → inRegs off → off % 4 = 0 →
    exec (.registerWrite path off 4 data cycle) s =
      if s.pathMay path off = false then .next (s.logReject (off / 0x10000) off (BitVec.ofNat 32 data) REG_PATH path)
      else if isGuarded off then
        .next (s.setGuard path (some { off := off, value := BitVec.ofNat 32 data, cycle := cycle }))
      else if allReadOnly off then .next s
      else .next (s.runEffect path off (BitVec.ofNat 32 data) (effPlain off cycle))) ∧
  (∀ (s : State) (path addr len data cycle : Nat), s.regs.guards.find path = none → addr < 2 ^ 24 → blockOf addr < blockCount →
    ¬(len = 4 ∧ addr % 4 = 0) → ¬(len = 8 ∧ addr % 8 = 0) →
    exec (.registerWrite path addr len data cycle) s =
      .next (s.logReject (blockOf addr) addr (BitVec.ofNat 32 data) REG_WIDTH path)) ∧
  (∀ (s t : State) (path addr data cycle : Nat), addr % 8 = 0 → exec (.registerWrite path addr 4 data cycle) s = .next t →
    exec (.registerWrite path addr 8 data cycle) s = exec (.registerWrite path (addr + 4) 4 (data / 2 ^ 32) cycle) t) ∧
  (∀ (s : State) (addr data cycle : Nat),
    exec (.i3cRegisterWrite addr data cycle) s = exec (.registerWrite 10 addr 4 data cycle) s) ∧
  (∀ (s : State) (path addr off k cycle : Nat) (data : Word), s.regs.guards.find path = none → inAlias addr = true →
    addr % 4 = 0 → aliasReg addr = (off, k) → inRegs off → s.pathMay path off = true →
    (accOf off k = some .rwg → exec (.bitAliasWrite path addr data cycle) s =
      .next (s.logReject (off / 0x10000) addr data GUARD_ALIAS path)) ∧
    (∀ t, accOf off k = some .rw → effPlain off cycle (putBits (s.viewWord off) k 1 (boolNat (bitOf data 0))) s = (t, none) →
      exec (.bitAliasWrite path addr data cycle) s = .next t))

/-- The guard protocol: arming, completing, breaking, timing out (R541, R542, R543, R544). -/
def Obligations.GuardProtocol : Prop :=
  (∀ (s : State) (path off cycle : Nat) (v : Word), s.regs.guards.find path = none → inRegs off → isGuarded off = true →
    s.pathMay path off = true →
    ∃ t, exec (.guardArm path off v cycle) s = .next t ∧ t = s.setGuard path (some { off := off, value := v, cycle := cycle }) ∧
      (∀ c, c < cycle + 64 → t.armed path off c = some { off := off, value := v, cycle := cycle }) ∧
      (∀ c, cycle + 64 ≤ c → t.armed path off c = none) ∧ (∀ p, p ≠ path → t.regs.guards.find p = s.regs.guards.find p)) ∧
  (∀ (s : State) (path cycle : Nat) (g : Guard) (data : Nat), s.armed path g.off cycle = some g → inRegs g.off → inRegs (g.off + 4) →
    g.off % 4 = 0 → s.mayWrite path ((g.off + 4) / 0x10000) = true →
    exec (.registerWrite path (g.off + 4) 4 data cycle) s =
      if BitVec.ofNat 32 data = ~~~g.value
      then .next ((s.setGuard path none).runEffect path g.off g.value (effGuarded g.off cycle))
      else .next ((s.setGuard path none).logReject (g.off / 0x10000) g.off g.value GUARD_COMPLEMENT path)) ∧
  (∀ (s : State) (path off cycle : Nat) (g : Guard) (v : Word), s.regs.guards.find path = some g → cycle < g.cycle + 64 →
    inRegs off → isGuarded off = true → s.pathMay path off = true → g.off + 4 ≠ off →
    exec (.guardArm path off v cycle) s =
      .next ((s.logReject (g.off / 0x10000) g.off g.value GUARD_BROKEN path).setGuard path
        (some { off := off, value := v, cycle := cycle }))) ∧
  (∀ (s : State) (path cycle : Nat) (g : Guard), s.regs.guards.find path = some g →
    exec (.guardTimeout path cycle) s = if g.cycle + 64 ≤ cycle
      then .next ((s.setGuard path none).logReject (g.off / 0x10000) g.off g.value GUARD_TIMEOUT path) else .next s) ∧
  (∀ (s : State) (b addr reason path o : Nat) (v : Word) (m : Bool), o / 0x10000 ≠ b →
    (s.logReject b addr v reason path m).word o = s.word o) ∧
  (∀ (s : State) (b addr reason path : Nat) (v : Word) (m : Bool), b < blockCount → addr < 2 ^ 24 → reason < 2 ^ 16 →
    OnlyRegs s (s.logReject b addr v reason path m) ∧
    (s.logReject b addr v reason path m).fld (F.GRD_LAST_ADDR_ADDR b) = addr ∧
    (s.logReject b addr v reason path m).word (Reg.GRD_LAST_DATA b) = v ∧
    (s.logReject b addr v reason path m).fld (F.GRD_LAST_INFO_REASON b) = reason ∧
    (s.logReject b addr v reason path m).fld (F.GRD_EVT_REJECT b) = 1)

/-- Mailbox operations: a READ copies a wide value, a WRITE stores one, and completion shows the result (R71, R132, R536, R537, R538, R539, R540, Table 17-6).
Where the rules leave a choice it is the model's own, in assumption 13. -/
def Obligations.MailboxOperations : Prop :=
  (∀ (s : State) (path m : Nat) (v : Word), m < 16 → ownsMbx path m = true → (s.mbx m).busy = false → bitsOf v 30 2 = 1 →
    exec (.mailboxRead path m v) s = match s.wideValue (bitsOf v 0 16) with
      | some w => .next (s.setMbx m { s.mbx m with sel := v &&& 0xC000FFFF, started := v, valid := false, err := false, errCode := 0
                                                   busy := true, result := none, data := w })
      | none => .next (s.setMbx m { s.mbx m with sel := v &&& 0xC000FFFF, started := v, valid := false, err := false, errCode := 0
                                                 busy := true, result := some (MBX_ERR_UNKNOWN, 0) })) ∧
  (∀ (s t : State) (path m : Nat) (v : Word) (l : List (Nat × Nat)) (r : Option Nat), m < 16 → ownsMbx path m = true →
    (s.mbx m).busy = false → bitsOf v 30 2 = 2 → (s.wideValue (bitsOf v 0 16)).isSome = true →
    s.mayWrite path (bitsOf v 0 16 / 256) = true → wideFields (bitsOf v 0 16) = some l →
    s.wideWrite (bitsOf v 0 16) (keepBits (s.mbx m).data l) = (t, r) →
    exec (.mailboxWrite path m v) s = .next (t.setMbx m { s.mbx m with sel := v &&& 0xC000FFFF, started := v, valid := false
                                                                       err := false, errCode := 0, busy := true
                                                                       result := r.map (fun x => (MBX_ERR_REFUSED, x)) })) ∧
  (∀ (s : State) (path m : Nat) (v : Word), m < 16 → bitsOf v 30 2 = 2 →
    (ownsMbx path m = false → exec (.mailboxWrite path m v) s = .next (s.logReject B_MBX (mbxAddr m) v MBX_PATH path)) ∧
    (ownsMbx path m = true → (s.mbx m).busy = true →
      exec (.mailboxWrite path m v) s = .next (s.logReject B_MBX (mbxAddr m) v MBX_BUSY path))) ∧
  (∀ (s : State) (path m : Nat), m < 16 → ownsMbx path m = true → (s.mbx m).busy = false → s.mayWrite path B_TIK = true →
    s.tick.sync = .stopped →
    exec (.tickNowWrite path m) s = .next (({ s with tick := { s.tick with
      now := bitsOf (s.mbx m).data 0 64, closed := min s.tick.closed (bitsOf (s.mbx m).data 0 64) } }).setMbx m
        { s.mbx m with sel := 0x80000200, started := 0x80000200, valid := false, err := false, errCode := 0, busy := true
                       result := none })) ∧
  (∀ (s : State) (path m : Nat), m < 16 → ownsMbx path m = true → (s.mbx m).busy = false → s.mayWrite path B_FAB = true →
    exec (.arrivalCounterWrite path m) s = .next ((s.updateCounter (s.fld F.FAB_ARR_SEL_CTR) (fun x =>
      { x with value := bitsOf (s.mbx m).data 0 64, threshold := bitsOf (s.mbx m).data 64 64
               notify := bitsOf (s.mbx m).data 128 64, notifyEn := (s.mbx m).data.getLsbD 192 })).setMbx m
        { s.mbx m with sel := 0x80000C10, started := 0x80000C10, valid := false, err := false, errCode := 0, busy := true
                       result := none })) ∧
  (∀ (s : State) (m : Nat), (s.mbx m).busy = true → (s.mbx m).result = none →
    exec (.mailboxOpDone m) s = .next (s.setMbx m { s.mbx m with busy := false, valid := true })) ∧
  (∀ (s : State) (m code reason : Nat), (s.mbx m).busy = true → (s.mbx m).result = some (code, reason) →
    exec (.mailboxOpDone m) s = if bitsOf (s.mbx m).started 30 2 = 2
      then .next ((s.setMbx m { s.mbx m with busy := false, err := true, errCode := code, result := none }).logReject
        (mbxBlock (bitsOf (s.mbx m).started 0 16)) (bitsOf (s.mbx m).started 0 16) (BitVec.ofNat 32 (bitsOf (s.mbx m).data 0 32))
        reason (min m 11) true)
      else .next (s.setMbx m { s.mbx m with busy := false, err := true, errCode := code, result := none })) ∧
  (∀ (s : State) (path m w : Nat), m < 16 → w < 8 →
    exec (.mbxDataRead path m w) s = if (s.mbx m).valid
      then .next (s.emit (.regData path (bitsOf (s.mbx m).data (32 * w) 32)))
      else .next ((s.setMbx m { s.mbx m with err := true, errCode := MBX_ERR_NOT_VALID }).emit (.regData path 0)))

/-- A 32-bit tick field names the tick with those low bits that lies nearest to TICK_NOW, the earlier of two (R4). -/
def Obligations.ShortTickNames : Prop :=
  ∀ low now : Nat, nearestTick low now % 2 ^ 32 = low % 2 ^ 32 ∧
    ∀ x : Nat, x % 2 ^ 32 = low % 2 ^ 32 →
      max (nearestTick low now) now - min (nearestTick low now) now ≤ max x now - min x now ∧
      (max (nearestTick low now) now - min (nearestTick low now) now = max x now - min x now → nearestTick low now ≤ x)

/-- What a TICK packet does: taken from the parent port only, copied to the children, acted on, epochs announced (R37, R40, R46, R130, R155, R670).
Where the rules leave a choice it is the model's own, in assumption 15. -/
def Obligations.TickPackets : Prop :=
  (∀ (s : State) (port : Nat) (p : Packet), p.type = T_TICK →
    ¬(s.fld F.FAB_TICK_TREE_PARENT_VALID = 1 ∧ s.fld F.FAB_TICK_TREE_PARENT = port) →
    exec (.tick port p) s = .next { s with tick := { s.tick with pktDiscarded := s.tick.pktDiscarded + 1 } }) ∧
  (∀ (s : State) (port : Nat) (p : Packet), p.type = T_TICK → s.fld F.FAB_TICK_TREE_PARENT_VALID = 1 →
    s.fld F.FAB_TICK_TREE_PARENT = port → s.tickSrc ≠ 1 →
    exec (.tick port p) s = .next ((p.epochAnn.take 8).foldl State.announceEpoch (s.floodTick p))) ∧
  (∀ (s : State) (port : Nat) (p : Packet), p.type = T_TICK → s.fld F.FAB_TICK_TREE_PARENT_VALID = 1 →
    s.fld F.FAB_TICK_TREE_PARENT = port → s.tickSrc = 1 → s.tick.sync = .locked → s.tick.relock = false →
    p.tick ≠ s.tick.now + 1 → p.nextPeriodUs = 0 → p.epochAnn = [] →
    exec (.tick port p) s = .next (({ s.floodTick p with tick := { s.tick with
      lastPkt := some (p.tick, p.periodUs), sourceTick := p.tick - 1, pktSinceLost := true } }).enterLost)) ∧
  (∀ (s : State) (port : Nat) (p : Packet), p.type = T_TICK → s.fld F.FAB_TICK_TREE_PARENT_VALID = 1 →
    s.fld F.FAB_TICK_TREE_PARENT = port → s.tickSrc = 1 → s.tick.sync = .locking → p.nextPeriodUs = 0 → p.epochAnn = [] →
    exec (.tick port p) s = if p.periodUs = s.period then
      .next { s.floodTick p with tick := { s.tick with
        lastPkt := some (p.tick, p.periodUs), sourceTick := p.tick - 1, pktSinceLost := true } }
    else .next (({ s.floodTick p with tick := { s.tick with
        lastPkt := some (p.tick, p.periodUs), sourceTick := p.tick - 1, pktSinceLost := true
        takePeriod := some p.periodUs } }).dropPendingPlans (s.tick.now + 1) p.periodUs)) ∧
  (∀ (s : State) (p : Packet), s.floodTick p = { s with out := (s.floodTick p).out } ∧
    ∀ n, n < 32 → (s.fld F.FAB_TICK_CHILD_CHILD).testBit n = true → (s.port n).up = true →
      Out.packet (some n) p ∈ (s.floodTick p).out) ∧
  (∀ (s : State) (dev e low : Nat), (s.epochOf dev).accepted ≠ e →
    (nearestTick low s.tick.now ≤ s.tick.now → ((s.announceEpoch (dev, e, low)).epochOf dev).accepted = e ∧
      ((s.announceEpoch (dev, e, low)).epochOf dev).pendingTick = none ∧
      (s.announceEpoch (dev, e, low)).fld F.FAB_ORD_EVT_EPOCH_ADVANCE = 1) ∧
    (s.tick.now < nearestTick low s.tick.now → s.announceEpoch (dev, e, low) = s.setEpoch dev { s.epochOf dev with
      announced := e, pendingTick := some (nearestTick low s.tick.now) }))

/-- PLAN_LOAD and PLAN_UNLOAD: a plan that passes its checks becomes the pending plan, with a new handle (R47, R49, R50).
Where the rules leave a choice it is the model's own, in assumption 33. -/
def Obligations.PlanDescriptors : Prop :=
  (∀ (s s1 s2 : State) (tok : Nat) (d : Desc) (segs : List (List Seg)) (ext l rest : List Byte) (poison : Bool),
    s.granted tok 0xF0 d [⟨dfield d.bits 16 8, dfield d.bits 24 4, 1, false⟩] s1 segs →
    State.readSegs d (segs.headD []) ext (s1.begun tok d) = (s2, l, poison, rest) →
    exec (.planLoad tok ext) s =
      if poison then .next (s2.opEnd tok (cpl ST_POISONED PLAN_POISON))
      else match s2.planFails l (dfield d.bits 24 4) (dSlice d.bits) (dfield d.bits 32 8) with
        | some r => .next (s2.opEnd tok (cpl ST_REFUSED_FIT r))
        | none => .next ((s2.setPlans (dSlice d.bits) { s2.slicePlans (dSlice d.bits) with
            pending := parsePlan l (dfield d.bits 24 4) (dSlice d.bits) (dfield d.bits 32 8)
            loads := ((s2.slicePlans (dSlice d.bits)).loads + 1) % 2 ^ 32 }).opEnd tok
          { result := dSlice d.bits + at_ 8 (((s2.slicePlans (dSlice d.bits)).loads + 1) % 2 ^ 32) })) ∧
  (∀ (s : State) (l : List Byte) (len n start : Nat) (q : Plan), parsePlan l len n start = some q →
    (q.periodUs ≠ s.periodAt start → s.planFails l len n start = some PLAN_PERIOD) ∧
    (q.periodUs = s.periodAt start → start < s.tick.now + 2 → s.planFails l len n start = some PLAN_START)) ∧
  (∀ (s : State) (tok : Nat) (d : Desc), s.ready tok 0xF1 d →
    exec (.planUnload tok) s = match (s.slicePlans (dSlice d.bits)).pending, (s.slicePlans (dSlice d.bits)).active,
        (s.slicePlans (dSlice d.bits)).stopAt with
      | some _, _, _ => .next (((s.begun tok d).setPlans (dSlice d.bits)
          { s.slicePlans (dSlice d.bits) with pending := none }).opEnd tok {})
      | none, none, _ => .next ((s.begun tok d).opEnd tok (cpl ST_ALREADY_DONE NO_PLAN))
      | none, some _, none => .next (((s.begun tok d).setPlans (dSlice d.bits)
          { s.slicePlans (dSlice d.bits) with stopAt := some (s.tick.now + 2) }).opEnd tok {})
      | none, some _, some _ => .next ((s.begun tok d).opEnd tok (cpl ST_ALREADY_DONE 0)))

/-- When a tick boundary, a substitute boundary or an admission round is taken, and what it begins with (R36, R44, R45, R50, R55, R64, R69, R672).
Where the rules leave a choice it is the model's own, in assumptions 8, 16, 17, 31, 32. -/
def Obligations.BoundariesAndRounds : Prop :=
  (∀ (s : State) (env : BoundaryEnv), s.units.lostDies.contains 0x50 = true → exec (.tickBoundary env) s = .next s.endWork) ∧
  (∀ (s : State) (env : BoundaryEnv) (t : Nat), s.units.lostDies.contains 0x50 = false → s.tick.sync ≠ .stopped →
    (s.tickSrc = 2 → s.tick.sync = .lost ∨ s.tick.edgeDue = true) → s.nextBoundary = some t →
    exec (.tickBoundary env) s = .next (s.passBoundary t env)) ∧
  (∀ (s : State) (env : BoundaryEnv), s.units.lostDies.contains 0x50 = false → s.tick.sync ≠ .stopped →
    (s.tickSrc = 2 → s.tick.sync = .lost ∨ s.tick.edgeDue = true) → s.nextBoundary = none →
    exec (.tickBoundary env) s = .next { s with tick := { s.tick with
      sourceTick := s.tick.sourceTick + 1, stopTick := s.tick.now, lastPkt := none
      change := s.tick.change.map (fun c => (c.1, max (c.2 - 1) (s.tick.now + 1))) } }) ∧
  (∀ s : State, (s.tick.relock = false → s.nextBoundary = some (s.tick.now + 1)) ∧
    (∀ t, s.nextBoundary = some t → s.tick.now < t)) ∧
  (∀ (s : State) (t : Nat) (env : BoundaryEnv), s.tick.now < t →
    (s.advance t env).tick.now = t ∧ (s.advance t env).tick.relock = false ∧
    (s.advance t env).tick.missed = (s.tick.missed + (t - (s.tick.now + 1))) % 2 ^ 64 ∧
    s.advance t env = { s with tick := (s.advance t env).tick, out := (s.advance t env).out } ∧
    (s.fld F.TIK_CTRL_TICK_OUT_EN = 1 →
      (s.advance t env).out = .pin PIN_TICK_OUT false :: .pin PIN_TICK_OUT true :: s.out)) ∧
  (∀ (s : State) (env : BoundaryEnv), s.units.lostDies.contains 0x50 = false → s.tick.sync = .stopped →
    exec (.substituteBoundary env) s = .next (s.substitute env)) ∧
  (∀ (s : State) (maint : Cost), s.units.lostDies.contains 0x50 = false → s.tick.sync ≠ .stopped → s.tick.relock = false →
    s.tick.closed ≤ s.tick.now → exec (.admissionRound maint) s = .next (s.closeRound (s.tick.now + 1) maint)) ∧
  (∀ (s : State) (tok t : Nat) (d : Desc), d.piece = false →
    ∃ e, (s.takeIn tok d t).desc tok = some e ∧ e.phase = .admitted ∧ e.admitTick = t ∧ e.delay = t - d.requested ∧
      e.bits = d.bits)

/-- Requests that arrive for the device: checked, ordered, and served at their homes (R83, R99, R106, R129, R145, R153, R160, R163, R165, R167).
Where the rules leave a choice it is the model's own, in assumptions 35, 36. -/
def Obligations.RequestPacketsServed : Prop :=
  (∀ (s : State) (port : Nat) (p : Packet), s.forMe p → s.servable p →
    (p.type = T_LOAD → exec (.load port p) s = .next (s.servedInbound p).pump.takeSubqs) ∧
    (p.type = T_BULK_GET → exec (.bulkGet port p) s = .next (s.servedInbound p).pump.takeSubqs) ∧
    (p.type = T_ACC_READ → exec (.accRead port p) s = .next (s.servedInbound p).pump.takeSubqs)) ∧
  (∀ (s s1 : State) (port : Nat) (p : Packet), s.forMe p → s.seqCheck p = none → s.epochCheck p = (s1, true) → s1.servable p →
    (p.type = T_STORE → exec (.store port p) s = .next (s1.servedInbound p).pump.takeSubqs) ∧
    (p.type = T_BULK_PUT → exec (.bulkPut port p) s = .next (s1.servedInbound p).pump.takeSubqs) ∧
    (p.type = T_ATOMIC → exec (.atomic port p) s = .next (s1.servedInbound p).pump.takeSubqs) ∧
    (p.type = T_ACC_ADD → exec (.accAdd port p) s = .next (s1.servedInbound p).pump.takeSubqs) ∧
    (p.type = T_FLAGGED_STORE → s1.turnOf p = true → formatFails p = none →
      exec (.flaggedStore port p) s = .next (s1.servedInbound p).pump.takeSubqs)) ∧
  (∀ (s s1 : State) (port : Nat) (p : Packet), s.forMe p → s.seqCheck p = none → s.epochCheck p = (s1, true) →
    p.type = T_FLAGGED_STORE → s1.turnOf p = false → formatFails p = none → s1.ord.held.length < 4096 →
    exec (.flaggedStore port p) s = .next (({ s1 with ord := { s1.ord with
      held := s1.ord.held ++ [({ pkt := p, entry := none } : Held)] } }).pump.takeSubqs)) ∧
  (∀ (s : State) (port : Nat) (p : Packet), s.fab.joined = true → p.type = T_MC_PUT → mcValid (s.mcast p.dest) = true →
    mcChild (s.mcast p.dest) = 0 → mcLocal (s.mcast p.dest) = true → p.crcOk = true → s.servable p →
    exec (.mcPut port p) s = .next (s.servedInbound p).pump.takeSubqs) ∧
  (∀ (s : State) (port : Nat) (p : Packet), s.forMe p → p.type = T_STORE → s.seqCheck p = some SEQ_STALE →
    exec (.store port p) s = .next ((({ s with fab := { s.fab with seqStale := s.fab.seqStale + 1 } }).answer p T_ACK
      ST_ABORTED SEQ_STALE).pump.takeSubqs)) ∧
  (∀ (s s1 : State) (port : Nat) (p : Packet), s.forMe p → p.type = T_STORE → s.seqCheck p = none → s.epochCheck p = (s1, false) →
    exec (.store port p) s = .next (((({ s1 with ord := { s1.ord with staleCount := s1.ord.staleCount + 1 } }).setEvt
      F.FAB_ORD_EVT_STALE).endPacket p ST_ABORTED STALE_PLACEMENT).pump.takeSubqs)) ∧
  (∀ (s : State) (port st r : Nat) (p : Packet), s.forMe p → p.type = T_LOAD →
    s.inboundFails p (s.window (faWindow p.addr)) p.src = some (st, r) →
    exec (.load port p) s = .next (((s.counted p).refuseInbound p st r).pump.takeSubqs))

/-- What serving a request does at its home: reads, stores, atomics, accumulators (R98, R99, R100, R163, R165, R576).
Where the rules leave a choice it is the model's own, in assumptions 4, 40, 41. -/
def Obligations.RequestEffectsAtHome : Prop :=
  (∀ (t : State) (p : Packet) (k d : Nat), p.type = T_LOAD →
    t.applyInbound p k d = (t.touch k d p.length false).endPacket p ST_OK 0 0 (t.homeRead k d p.length).2
      (t.homeRead k d p.length).1) ∧
  (∀ (t : State) (p : Packet) (k d : Nat), p.type = T_ATOMIC → t.readsPoison (lineOf d) = true →
    t.applyInbound p k d = t.endPacket p ST_POISONED ORD_POISON) ∧
  (∀ (t u : State) (p : Packet) (k d old : Nat), p.type = T_ATOMIC → t.readsPoison (lineOf d) = false → p.credit = false →
    leNat (t.homeBytes k d p.length) = old →
    t.homeWrite (.packet p) k d (leBytes p.length (atomicValue p.op p.length old p.operand p.compare)) = u →
    t.applyInbound p k d = ({ u with pg := { u.pg with held := u.pg.held.map (fun (h : HeldWrite) =>
      if h.origin == HoldOrigin.packet p then { h with old := old } else h) } }).endWrite p old) ∧
  (∀ (t : State) (p : Packet) (k d : Nat), p.type = T_STORE ∨ p.type = T_FLAGGED_STORE → p.credit = false →
    t.applyInbound p k d = (t.homeWrite (.packet p) k d p.data (packetMask p)).endWrite p) ∧
  (∀ (t : State) (p : Packet) (k d : Nat), p.type = T_BULK_PUT ∨ p.type = T_MC_PUT → p.credit = false →
    t.applyInbound p k d = (t.homeWrite (.packet p) k (d + p.segOff) p.data).endWrite p) ∧
  (∀ (t : State) (p : Packet) (k d : Nat), p.type = T_ACC_ADD →
    t.applyInbound p k d = (((linesOf d (80 * accCells p)).filter t.isPoisoned).foldl State.poisonLine
      (t.homeWrite (.packet p) k d (accResult p (t.homeBytes k d (80 * accCells p))))).endWrite p) ∧
  (∀ (t : State) (p : Packet) (k d : Nat), p.type = T_ACC_READ →
    t.applyInbound p k d = (t.touch k d (80 * accCells p) false).endPacket p ST_OK 0 0 (t.accRead k d p).2 (t.accRead k d p).1) ∧
  (∀ len old x c : Nat, atomicValue 1 len old x c = (old + x % 2 ^ (8 * len)) % 2 ^ (8 * len) ∧
    atomicValue 2 len old x c = x % 2 ^ (8 * len) ∧
    atomicValue 3 len old x c = (if old = c % 2 ^ (8 * len) then x % 2 ^ (8 * len) else old) ∧
    atomicValue 6 len old x c = min old (x % 2 ^ (8 * len)) ∧ atomicValue 7 len old x c = max old (x % 2 ^ (8 * len)))

/-- SUBMIT, the three OWN operations and SEQ_SYNC (R106, R110, R161, R166, R168, R170).
Where the rules leave a choice it is the model's own, in assumptions 35, 36. -/
def Obligations.FlaggedRequests : Prop :=
  (∀ (s s1 : State) (port : Nat) (p : Packet), s.forMe p → s.seqCheck p = none → s.epochCheck p = (s1, true) →
    p.type = T_SUBMIT → formatFails p = none → s1.turnOf p = true → (s1.subq (p.addr % 256)).state = .active →
    p.src &&& sqSrcMask (s1.subq (p.addr % 256)).record =
      sqSrcMatch (s1.subq (p.addr % 256)).record &&& sqSrcMask (s1.subq (p.addr % 256)).record →
    dOpcode (BitVec.ofNat 512 (leNat p.data)) ≠ 0 →
    exec (.submit port p) s =
      if 2 ^ sqLog (s1.subq (p.addr % 256)).record ≤ (s1.subq (p.addr % 256)).queue.length
      then .next ((s1.endPacket p ST_ABORTED SUBQ_FULL).pump.takeSubqs)
      else .next (((s1.setSubq (p.addr % 256) { s1.subq (p.addr % 256) with
        queue := (s1.subq (p.addr % 256)).queue ++ [BitVec.ofNat 512 (leNat p.data)] }).endPacket p ST_OK 0).pump.takeSubqs)) ∧
  (∀ (s s1 : State) (port : Nat) (p : Packet), s.forMe p → s.seqCheck p = none → s.epochCheck p = (s1, true) →
    p.type = T_OWN → s1.inboundFails p (s1.window (faWindow p.addr)) p.src = none → s1.turnOf p = true →
    (p.op = 1 → (s1.granule (s1.ownGranule p)).2 = 0 ∨ s1.granule (s1.ownGranule p) = (p.src, 1) →
      exec (.ownClaim port p) s = .next (((s1.counted p).setOwner (s1.ownGranule p) (p.src, 1)).endPacket p ST_OK 0).pump.takeSubqs) ∧
    (p.op = 2 → s1.granule (s1.ownGranule p) = (p.src, 1) →
      exec (.ownHandoff port p) s = .next (((s1.counted p).setOwner (s1.ownGranule p) (p.newOwner, 1)).endPacket p ST_OK 0).pump.takeSubqs) ∧
    (p.op = 3 → s1.granule (s1.ownGranule p) = (p.src, 1) →
      exec (.ownRelease port p) s = .next (((s1.counted p).setOwner (s1.ownGranule p) (0, 0)).endPacket p ST_OK 0).pump.takeSubqs) ∧
    (p.op = 3 → (s1.granule (s1.ownGranule p)).2 = 0 →
      exec (.ownRelease port p) s = .next ((s1.counted p).endPacket p ST_OWNERSHIP OWN_STATE).pump.takeSubqs)) ∧
  (∀ (s : State) (port : Nat) (p : Packet), s.forMe p → p.type = T_SEQ_SYNC →
    exec (.seqSync port p) s = .next (s.recvSync p).pump.takeSubqs ∧
    ((∀ h ∈ s.ord.held, h.pkt.src ≠ p.src) → s.recvSync p =
      ({ s with ord := { s.ord with track := s.ord.track.put p.src { gen := p.newGen % 256, mark := 0 } } }).endPacket p ST_OK 0))

/-- Responses to the device's own requests, and the timeouts of requests, held stores and parked packets (R108, R138, R148, R150, R157, R158, R159).
Where the rules leave a choice it is the model's own, in assumptions 8, 36, 38, 39, 40. -/
def Obligations.ResponsesAndTimeouts : Prop :=
  (∀ (s : State) (port : Nat) (p : Packet) (r : Request), s.forMe p → s.fab.outstanding.find p.tag = some r → r.gen = p.gen →
    r.expect ≤ 1 → r.status = ST_OK →
    (p.type = T_READ_DATA → exec (.readData port p) s =
      .next (((if p.status = ST_OK then s.deliverData r p else s).endRequest p.tag p.status p.reason).pump.takeSubqs)) ∧
    (p.type = T_BULK_DATA → exec (.bulkData port p) s =
      .next (((if p.status = ST_OK then s.deliverData r p else s).endRequest p.tag p.status p.reason).pump.takeSubqs)) ∧
    (p.type = T_ACK → exec (.ack port p) s =
      .next (((if p.status = ST_OK then s.deliverData r p else s).endRequest p.tag p.status p.reason).pump.takeSubqs))) ∧
  (∀ (s : State) (port : Nat) (p : Packet) (r : Request), s.forMe p → s.fab.outstanding.find p.tag = some r → r.gen = p.gen →
    1 < r.expect → p.type = T_BULK_DATA → p.status ≠ ST_OK → r.status = ST_OK →
    exec (.bulkData port p) s = .next (({ s with fab := { s.fab with
      outstanding := s.fab.outstanding.put p.tag ({ r with expect := r.expect - 1, status := p.status, reason := p.reason } : Request) } }).pump.takeSubqs)) ∧
  (∀ (s : State) (port : Nat) (p : Packet), s.forMe p → s.fab.outstanding.find p.tag = none → p.type = T_ACK →
    exec (.ack port p) s = .next (({ s with fab := { s.fab with unmatched := s.fab.unmatched + 1 } }).pump.takeSubqs)) ∧
  (∀ (s : State) (tag : Nat) (r : Request), s.fab.outstanding.find tag = some r →
    exec (.requestTimeout tag) s = .next (((({ s with
      fab := { s.fab with respTimeouts := s.fab.respTimeouts + 1 }
      ord := { s.ord with send := s.ord.send.upd r.pkt.dest (fun q => { q with resync := true }) } }).setEvt
        F.FAB_EVT_TIMEOUT).endRequest tag ST_ABORTED RESP_TIMEOUT).pump.takeSubqs)) ∧
  (∀ (s : State) (src seq : Nat) (h : Held), s.ord.held.find? (fun h => h.pkt.src == src && h.pkt.wsnSeq == seq) = some h →
    exec (.flagTimeout src seq) s = .next (((({ s with ord := { s.ord with
      held := s.ord.held.erase h, flagTimeouts := s.ord.flagTimeouts + 1 } }).setEvt F.FAB_ORD_EVT_FLAG_TIMEOUT).endPacket h.pkt
        ST_ABORTED FLAG_TIMEOUT).pump.takeSubqs)) ∧
  (∀ (s : State) (k : Nat) (p : Packet), s.fab.parked[k]? = some p → s.hasRoute p.dest = true →
    exec (.escapeTimeout k) s = .next (({ s with fab := { s.fab with parked := s.fab.parked.eraseIdx k } }).sendBy
      (rtEsc (s.route p.dest)) true p)) ∧
  (∀ (s : State) (n : Nat) (f : Frame), (s.port n).up = false → (s.port n).state ≠ .init →
    exec (.linkFrame n f) s = .next s.takeSubqs) ∧
  (∀ (s : State) (n : Nat) (f : Frame), (s.port n).up = true → f.fecOk = false ∨ f.crcOk = false →
    exec (.linkFrame n f) s = .next ((s.setPort n { s.port n with
      corrected := (s.port n).corrected + f.corrected,
      uncorrected := (s.port n).uncorrected + boolNat (!f.fecOk), nakSent := true }).takeSubqs)) ∧
  (∀ (s : State) (n : Nat) (f : Frame), (s.port n).up = true → f.fecOk = true → f.crcOk = true →
    f.seq % 4096 = (s.port n).rxNext → f.ackValid = false →
    exec (.linkFrame n f) s = .next (((f.pkts.foldl (fun s p => s.recv n p) (s.setPort n { s.port n with
      corrected := (s.port n).corrected + f.corrected, rxNext := ((s.port n).rxNext + 1) % 4096, nakSent := false,
      credits := (List.range 16).map (fun i => (s.port n).credits.getD i 0 + f.credits.getD i 0) })).drainPort n).retryParked.takeSubqs))

/-- Host requests on lines of partitions and on coherent lines (R181, R183, R185, R189, R190, Table 6-3, R586).
Where the rules leave a choice it is the model's own, in assumptions 42, 45, 87. -/
def Obligations.HostRequests : Prop :=
  (∀ (s : State) (port dec off line slot : Nat) (m : MetaVal) (data : List Byte) (mask : Nat),
    s.hostReaches port dec off line slot → s.coherent (64 * line) = false →
    exec (.memRd port dec off m) s = .next (s.hostData port line slot 0).pump ∧
    exec (.memRdData port dec off) s = .next (s.hostData port line slot 0).pump ∧
    exec (.memRdFwd port dec off m) s = .next (s.hostData port line slot 0).pump ∧
    exec (.memWr port dec off m data) s = .next (s.hostStoreCmp port line slot data fullMask).pump ∧
    exec (.memWrPtl port dec off m data mask) s = .next (s.hostStoreCmp port line slot data mask).pump ∧
    exec (.memWrFwd port dec off m data) s = .next (s.hostStoreCmp port line slot data fullMask).pump ∧
    exec (.memInv port dec off) s = .next (s.hostCmp port line).pump ∧
    exec (.memInvNt port dec off) s = .next (s.hostCmp port line).pump ∧
    exec (.memClnEvct port dec off) s = .next (s.hostCmp port line).pump) ∧
  (∀ (s s1 : State) (port dec off line slot : Nat) (m : MetaVal), s.hostReaches port dec off line slot →
    s.coherent (64 * line) = true → s.dir.domain = .up → s.makeRoom line = (s1, true) → m ≠ .invalid →
    s.hostNeeds (.host port line slot (.rd m)) port line (.rd m) = none →
    exec (.memRd port dec off m) s = .next (s1.hostApply port line slot (.rd m)).pump) ∧
  (∀ (s : State) (port dec off line slot : Nat) (m : MetaVal) (data : List Byte) (mask : Nat),
    s.hostReaches port dec off line slot → s.coherent (64 * line) = true → s.dir.domain = .up →
    s.hostNeeds (.host port line slot (.wr m data mask)) port line (.wr m data mask) = none →
    exec (.memWrPtl port dec off m data mask) s = .next (s.hostApply port line slot (.wr m data mask)).pump) ∧
  (∀ (s : State) (port dec off line slot : Nat) (m : MetaVal) (snp : Snp) (hosts : Nat), s.hostReaches port dec off line slot →
    s.coherent (64 * line) = true → s.dir.domain = .up → s.anyHold [line] = false →
    s.hostNeeds (.host port line slot (.rd m)) port line (.rd m) = some (snp, hosts) →
    (s.openRecall line snp hosts).anyHold [line] = false →
    exec (.memRd port dec off m) s = .next ((s.openRecall line snp hosts).park (.host port line slot (.rd m)) false).pump) ∧
  (∀ (s : State) (h line slot : Nat),
    (s.hostApply h line slot (.rd .any)).dir.entries.find line = some { kind := .owned h, hold := true, granted := s.dir.grants } ∧
    (s.hostApply h line slot .inv).dir.entries.find line = some { kind := .owned h, hold := true, granted := s.dir.grants } ∧
    (s.hostApply h line slot .invNt).dir.entries.find line = none) ∧
  (∀ (s : State) (port dec off : Nat) (m : MetaVal), dec ≠ 2 →
    (s.sec.conf.has port = true → exec (.memRd port dec off m) s = .next (s.hostDrop port dec off SEC_CONF_HDM (.rd m))) ∧
    (s.sec.conf.has port = false → s.findExt port dec (off / extentSize) = none →
      exec (.memRd port dec off m) s = .next (s.hostDrop port dec off HDM_UNMAPPED (.rd m)))) ∧
  (∀ (s : State) (port dec off reason : Nat) (m : MetaVal),
    s.hostDrop port dec off reason (.rd m) = ((({ s.setHport port { s.hport port with poisonReads := (s.hport port).poisonReads + 1 } with
      host := { (s.setHport port { s.hport port with poisonReads := (s.hport port).poisonReads + 1 }).host with
        lastDrop := (port, dec, reason, off, s.tick.now % 2 ^ 32) } }).setEvt F.HIF_EVT_DROP).hostPoison port (lineOf off))) ∧
  (∀ (s : State) (port dec off : Nat), exec (.memSpecRd port dec off) s = .next s) ∧
  (∀ (s : State) (port off len : Nat) (data : List Byte), 0 < len → off % 64 + len ≤ 64 → ¬ s.decGib port 0 * extentSize ≤ off →
    exec (.bar4Access port off len false data) s = exec (.memRd port 0 (off / 64 * 64) .invalid) s)

/-- Answers to recalls, conflicts, the hold of a grant, and the coherent domain going down and being reset (R187, R188, R191, R192, R193, R195, R196, R199).
Where the rules leave a choice it is the model's own, in assumption 42. -/
def Obligations.RecallsAndDomain : Prop :=
  (∀ (s : State) (port line g n : Nat) (r : Recall) (hold : Bool), s.dir.recalls.find line = some r → r.hosts = 2 ^ port → port < 8 → r.snp = .inv →
    r.evict = false → s.dir.entries.find line = some { kind := .owned g, hold := hold, granted := n } → g = port →
    exec (.biRspI port line true) s = .next (({ s.clearEntry line with
      dir := { (s.clearEntry line).dir with recalls := s.dir.recalls.del line } }).pump)) ∧
  (∀ (s : State) (port line : Nat) (r : Recall), s.dir.recalls.find line = some r → r.hosts.testBit port = true →
    othersOf r.hosts port ≠ 0 → r.snp = .inv →
    exec (.biRspE port line) s = .next { s with dir := { s.dir with
      recalls := s.dir.recalls.put line { r with hosts := othersOf r.hosts port } } }) ∧
  (∀ (s : State) (port line n : Nat) (r : Recall) (hold : Bool), s.dir.recalls.find line = some r → r.hosts = 2 ^ port → port < 8 → r.snp = .data →
    r.evict = false → s.dir.entries.find line = some { kind := .owned port, hold := hold, granted := n } →
    exec (.biRspS port line) s = .next (({ s with dir := { s.dir with
      entries := s.dir.entries.put line { kind := .shared (2 ^ port), hold := hold, granted := n }
      recalls := s.dir.recalls.del line } }).pump)) ∧
  (∀ (s : State) (port line : Nat) (r : Recall), s.dir.recalls.find line = some r → r.hosts.testBit port = true →
    exec (.biConflict port line) s = .next (s.emit (.host port H_CONFLICT_ACK [line]))) ∧
  (∀ (s : State) (line : Nat) (e : DirEntry), s.dir.entries.find line = some e → e.hold = true →
    exec (.minHoldExpiry line) s = .next (({ s with dir := { s.dir with
      entries := s.dir.entries.put line { e with hold := false } } }).pump)) ∧
  (∀ (s : State) (port line : Nat) (r : Recall), s.dir.recalls.find line = some r → r.hosts.testBit port = true →
    s.dir.domain = .up →
    exec (.biTimeout port line) s = .next (((({ s with dir := { s.dir with
      domain := .walking, downPort := port, downLine := line, downTick := s.tick.now % 2 ^ 32, recalls := [], current := [] } }).setEvt
        F.DIR_EVT_DOMAIN_DOWN).event DOMAIN_DOWN (locHostPort port) 0 (64 * line)).pump)) ∧
  (∀ s : State, s.dir.domain = .walking → s.dir.entries = [] →
    exec .domainWalkDone s = .next ((({ s with dir := { s.dir with
      entries := [], domain := .down
      waiters := s.dir.waiters.filter (fun w => !w.isRevoke) } }).setEvt
        F.DIR_EVT_WALK_DONE).pump)) ∧
  (∀ (s : State) (line h n : Nat) (hold : Bool), s.dir.domain = .walking → s.dir.entries = [(line, ⟨.owned h, hold, n⟩)] →
    s.holdsWrites (64 * line) = false →
    exec .domainWalkDone s = .next ((({ s.poisonLine line with dir := { s.dir with
      entries := [], domain := .down, poisoned := s.dir.poisoned + 1
      waiters := s.dir.waiters.filter (fun w => !w.isRevoke) } }).setEvt
        F.DIR_EVT_WALK_DONE).pump)) ∧
  (∀ (s : State) (path cycle : Nat) (v : Word), s.pairReady path Reg.DIR_DOMAIN_RESET v cycle → v.getLsbD 0 = true →
    exec (.dirDomainReset path (~~~v) cycle) s = if s.dir.domain = .down
      then .next ((({ s.setGuard path none with dir := { s.dir with domain := .up, entries := [] } }).setEvt
        F.DIR_EVT_RESET_DONE).setEvt F.IDN_RESET_CAUSE_DOMAIN)
      else .next ((s.setGuard path none).logReject B_DIR Reg.DIR_DOMAIN_RESET v REG_STATE path))

/-- Extents, layouts, port slices, decoders and shared ranges (R182, R184, R200, R203, R206, R208, R632).
Where the rules leave a choice it is the model's own, in assumption 45. -/
def Obligations.HostRegisters : Prop :=
  (∀ (s : State) (path cycle : Nat) (v : Word), s.pairReady path Reg.HIF_EXT_ENTRY v cycle → extDec v ≠ 3 →
    extState (s.ext (s.fld F.HIF_EXT_SEL_EXT)) = EXT_FREE → extState v = EXT_ACTIVE →
    exec (.hifExtEntryWrite path (~~~v) cycle) s = match (s.setGuard path none).extFails (s.fld F.HIF_EXT_SEL_EXT) v with
      | none => .next { s.setGuard path none with host := { s.host with
          ext := s.host.ext.put (s.fld F.HIF_EXT_SEL_EXT) v } }
      | some r => .next (((s.setGuard path none).setWord Reg.HIF_EXT_ERR
          (BitVec.ofNat 32 (r + at_ 16 (s.fld F.HIF_EXT_SEL_EXT)))).logReject B_HIF Reg.HIF_EXT_ENTRY v REG_STATE path)) ∧
  (∀ (s : State) (path cycle : Nat) (v : Word), s.pairReady path Reg.HIF_EXT_ENTRY v cycle → extDec v ≠ 3 →
    extState (s.ext (s.fld F.HIF_EXT_SEL_EXT)) = EXT_ACTIVE → extState v = EXT_REVOKING →
    exec (.hifExtEntryWrite path (~~~v) cycle) s = .next ((s.setGuard path none).startRevoke (s.fld F.HIF_EXT_SEL_EXT))) ∧
  (∀ (s : State) (ext : Nat), extState (s.ext ext) = EXT_REVOKING → s.extBusy ext = false →
    exec (.revocationComplete ext) s = .next (({ s with host := { s.host with
      ext := s.host.ext.put ext (putBits (s.ext ext) 30 2 EXT_FREE) } }).setEvt F.HIF_EVT_REVOKED)) ∧
  (∀ (s : State) (path cycle : Nat) (v : Word), s.pairReady path Reg.HIF_LAYOUT v cycle → bitsOf v 0 11 ≤ 1152 → bitsOf v 22 10 ≤ 512 →
    exec (.hifLayoutWrite path (~~~v) cycle) s = if (s.hport (s.fld F.HIF_PORT_SEL_PORT)).committed = 0
      then .next ((s.setGuard path none).setHport (s.fld F.HIF_PORT_SEL_PORT)
        { s.hport (s.fld F.HIF_PORT_SEL_PORT) with layout := v })
      else .next ((s.setGuard path none).logReject B_HIF Reg.HIF_LAYOUT v REG_STATE path)) ∧
  (∀ (s : State) (path cycle : Nat) (v : Word), s.pairReady path Reg.HIF_PORT_CFG v cycle → s.sliceExists (bitsOf v 0 6) = true →
    s.host.ext.any (fun _ e => extInUse e && extPort e == s.fld F.HIF_PORT_SEL_PORT && decide (extDec e < 2)) = false →
    exec (.hifPortCfgWrite path (~~~v) cycle) s = .next ((s.setGuard path none).setHport (s.fld F.HIF_PORT_SEL_PORT)
      { s.hport (s.fld F.HIF_PORT_SEL_PORT) with cfg := BitVec.ofNat 32 (bitsOf v 0 6) })) ∧
  (∀ (s : State) (port dec base sizeGib : Nat), dec < 3 →
    exec (.hdmDecoderCommit port dec base sizeGib) s = if sizeGib = s.decGib port dec
      then .next (s.setHport port { s.hport port with
        committed := (s.hport port).committed ||| 2 ^ dec
        decErr := maskOf ((maskBits (s.hport port).decErr 3).filter (· != dec))
        decBase := (s.hport port).decBase.set dec (base / 2 ^ 28 * 2 ^ 28) })
      else .next (s.setHport port { s.hport port with decErr := (s.hport port).decErr ||| 2 ^ dec })) ∧
  (∀ (s : State) (path cycle : Nat) (v : Word), s.pairReady path Reg.HIF_SHR_COMMIT v cycle → v.getLsbD 0 = true →
    shValid (s.shrLive (s.fld F.HIF_SHR_SEL_RANGE)) = false → shValid (s.host.shrDesc.get 0 (s.fld F.HIF_SHR_SEL_RANGE)) = true →
    exec (.hifShrCommit path (~~~v) cycle) s =
      match (s.setGuard path none).shrFails (s.fld F.HIF_SHR_SEL_RANGE) (s.host.shrDesc.get 0 (s.fld F.HIF_SHR_SEL_RANGE)) with
      | some x => .next (((s.setGuard path none).setWord Reg.HIF_EXT_ERR
          (BitVec.ofNat 32 (x + at_ 16 (s.fld F.HIF_SHR_SEL_RANGE)))).logReject B_HIF Reg.HIF_SHR_COMMIT v REG_STATE path)
      | none => .next (({ s.setGuard path none with host := { s.host with
          shrLive := s.host.shrLive.put (s.fld F.HIF_SHR_SEL_RANGE) (s.host.shrDesc.get 0 (s.fld F.HIF_SHR_SEL_RANGE))
          shrClosing := s.host.shrClosing.filter (· != s.fld F.HIF_SHR_SEL_RANGE) } }).setShared (s.fld F.HIF_SHR_SEL_RANGE)
            { slots := [(0, { version := 1 }), (1, { version := 0 })], newest := 0, draft := 1 })) ∧
  (∀ (s : State) (range granule : Nat) (c : Cow), (s.shared range).cows.find? (fun c => c.granule == granule) = some c →
    (s.shared range).slots.find (s.shared range).draft = none →
    exec (.cowCopyDone range granule) s = .next (s.setShared range { s.shared range with cows := (s.shared range).cows.erase c })) ∧
  (∀ (s : State) (range granule : Nat) (c : Cow) (sl : ShrSlot), (s.shared range).cows.find? (fun c => c.granule == granule) = some c →
    (s.shared range).slots.find (s.shared range).draft = some sl → s.shrAddr range c.spare 0 = none → c.held = [] →
    exec (.cowCopyDone range granule) s = .next (s.setShared range { s.shared range with
      slots := (s.shared range).slots.put (s.shared range).draft { sl with map := sl.map.put granule c.spare }
      cows := (s.shared range).cows.erase c })) ∧
  (∀ (s t : State) (range granule a b : Nat) (c : Cow) (sl : ShrSlot) (w w' : Word),
    (s.shared range).cows.find? (fun c => c.granule == granule) = some c → c.held = [] →
    (s.shared range).slots.find (s.shared range).draft = some sl → s.shrAddr range (sl.phys granule) 0 = some (a, w) →
    s.shrAddr range c.spare 0 = some (b, w') →
    ((List.range 1024).filter (fun i => s.readsPoison (lineOf a + i))).foldl (fun s i => s.markPoison .none (lineOf b + i))
      (s.homeWrite .none (shKey (s.shrLive range)) b (s.homeRead (shKey (s.shrLive range)) a 65536).1) = t →
    exec (.cowCopyDone range granule) s = .next (t.setShared range { s.shared range with
      slots := (s.shared range).slots.put (s.shared range).draft { sl with map := sl.map.put granule c.spare }
      cows := (s.shared range).cows.erase c }))

/-- CXL memory-device commands, the CDAT, and the four snapshot descriptors (R181, Table 6-1, R208, R209, R210, R211).
Where the rules leave a choice it is the model's own, in assumptions 43, 44. -/
def Obligations.HostCommandsAndSnapshots : Prop :=
  (∀ (s : State) (port : Nat),
    exec (.identify port) s = .next (({ s with fresh := s.fresh + 1 }).emit (.host port H_CXL [0x4000, Config.freeNat s.fresh])) ∧
    exec (.getPartitionInfo port) s = .next (({ s with fresh := s.fresh + 1 }).emit (.host port H_CXL [0x4100, Config.freeNat s.fresh])) ∧
    exec (.cdatRead port) s = .next (({ s with fresh := s.fresh + 1 }).emit (.host port H_DOE [Config.freeNat s.fresh])) ∧
    exec (.getEventRecords port) s = .next (s.emit (.host port H_CXL (0x0100 :: (s.host.cxlEvents.flatten).map BitVec.toNat))) ∧
    exec (.clearEventRecords port) s = .next (({ s with host := { s.host with cxlEvents := [] } }).emit (.host port H_CXL [0x0101])) ∧
    exec (.getPoisonList port) s = .next (s.emit (.host port H_CXL (0x4300 :: s.mem.poison.filter (fun l =>
      extInUse (s.ext (64 * l / extentSize)) && (if extDec (s.ext (64 * l / extentSize)) = 2
        then shMember (s.shrLive (extShr (s.ext (64 * l / extentSize)))) port
        else extPort (s.ext (64 * l / extentSize)) == port)))))) ∧
  (∀ (s : State) (tok n : Nat) (d : Desc), s.ready tok 0x90 d → d.src = .ring n → snapCheck d s = none → snLatest d.bits = true →
    exec (.snapOpen tok) s = match (s.shared (snRange d.bits)).slots.find (s.shared (snRange d.bits)).newest with
      | some sl => .next (((s.begun tok d).setShared (snRange d.bits) { s.shared (snRange d.bits) with
          slots := (s.shared (snRange d.bits)).slots.put (s.shared (snRange d.bits)).newest
            { sl with holders := sl.holders ||| 2 ^ rgPort (s.ring n).record } }).opEnd tok
              { result := sl.version + at_ 32 (s.shared (snRange d.bits)).newest })
      | none => .next ((s.begun tok d).opEnd tok (cpl ST_VERSION_GONE SNAP_GONE))) ∧
  (∀ (s : State) (tok n : Nat) (d : Desc) (sl : ShrSlot), s.ready tok 0x91 d → d.src = .ring n → snapCheck d s = none →
    (s.shared (snRange d.bits)).slots.find (snSlot d.bits) = some sl →
    exec (.snapClose tok) s = if sl.holders.testBit (rgPort (s.ring n).record)
      then .next (((s.begun tok d).setShared (snRange d.bits) { s.shared (snRange d.bits) with
        slots := (s.shared (snRange d.bits)).slots.put (snSlot d.bits)
          { sl with holders := othersOf sl.holders (rgPort (s.ring n).record) } }).opEnd tok {})
      else .next ((s.begun tok d).opEnd tok (cpl ST_PERMISSION SNAP_NOT_HELD))) ∧
  (∀ (s : State) (tok : Nat) (d : Desc), s.ready tok 0x92 d → snapCheck d s = none →
    exec (.snapPublish tok) s = .next ((s.begun tok d).setShared (snRange d.bits) { s.shared (snRange d.bits) with
      publish := (s.shared (snRange d.bits)).publish ++ [tok] })) ∧
  (∀ (s : State) (tok : Nat) (d : Desc), s.ready tok 0x93 d → snapCheck d s = none →
    exec (.snapDiscard tok) s = .next ((s.begun tok d).setShared (snRange d.bits) { s.shared (snRange d.bits) with
      discard := (s.shared (snRange d.bits)).discard ++ [tok] })) ∧
  (∀ (s : State) (tok n : Nat) (d : Desc), s.ready tok 0x92 d → d.src = .subq n →
    exec (.snapPublish tok) s = .next ((s.begun tok d).opEnd tok (cpl ST_PERMISSION SNAP_HOST))) ∧
  (∀ (x : SharedRange) (d n : ShrSlot) (k : Nat), x.broken = false → x.slots.find x.draft = some d → x.slots.find x.newest = some n →
    firstFree (fun k => !x.slots.has k) 16 = some k → k ≠ x.draft →
    (x.publishNow).1.newest = x.draft ∧ (x.publishNow).1.draft = k ∧
    (x.publishNow).1.slots.find x.draft = some { d with version := n.version + 1 } ∧
    (x.publishNow).1.slots.find k = some { version := 0, map := d.map })

/-- Context commits, TLB misses, the ends of walks, and migrations (R217, R225, R226, R228, R229, R232, R234, R236, R237, R238).
Where the rules leave a choice it is the model's own, in assumptions 12, 46, 47. -/
def Obligations.ContextsMissesAndMigrations : Prop :=
  (∀ (s : State) (path cycle : Nat) (v : Word), s.pairReady path Reg.XLT_CTX_COMMIT v cycle → bitOf v 0 = true →
    exec (.xltCtxCommit path (~~~v) cycle) s =
      match s.ctxFails (s.xlt.shadow.get 0 (s.fld F.XLT_CTX_SEL_CTX))
        ((List.range 8).map (fun i => s.xlt.mshadow.get 0 (8 * s.fld F.XLT_CTX_SEL_CTX + i))) with
      | some reason => .next ((((s.setGuard path none).setWord Reg.XLT_CTX_ERR
          (BitVec.ofNat 32 (reason + at_ 16 (s.fld F.XLT_CTX_SEL_CTX)))).setEvt F.XLT_EVT_CTX_REFUSED).logReject B_XLT
            Reg.XLT_CTX_COMMIT v REG_STATE path)
      | none => .next { s.setGuard path none with
        xlt := { s.xlt with
          pending := s.xlt.pending.put (s.fld F.XLT_CTX_SEL_CTX)
            (s.xlt.shadow.get 0 (s.fld F.XLT_CTX_SEL_CTX),
            (List.range 8).map (fun i => s.xlt.mshadow.get 0 (8 * s.fld F.XLT_CTX_SEL_CTX + i))) } }) ∧
  (∀ (s : State) (c : Nat) (r : BitVec 256) (ms : List (BitVec 128)), s.xlt.pending = [(c, r, ms)] →
    s.applyContexts = ((({ s with xlt := { s.xlt with
      committed := s.xlt.committed.put c r
      mranges := (List.range 8).foldl (fun t i => t.put (8 * c + i) (ms.getD i 0)) s.xlt.mranges
      pending := [] } }).tlbDrop (fun x => x.ctx == c) (fun c' _ => c' == c)).setEvt F.XLT_EVT_CTX_APPLIED)) ∧
  (∀ (s t : State) (tok va access : Nat) (d : Desc) (x : X1), s.desc tok = some d → d.finished = false →
    s.translate1 tok d va access = (t, x) →
    exec (.tlbMiss tok va access) s = match x with
      | .fault r => if d.phase = .waiting then .next { t with xlt := { t.xlt with preFault := t.xlt.preFault.put tok (xlStatus r, r, va) } }
          else .next { t with xlt := { t.xlt with failed := t.xlt.failed ++ [(tok, t.srcCtx d.src, va / 4096, r)] } }
      | _ => .next t) ∧
  (∀ (s : State) (ctx va : Nat) (host : List Nat) (w : Walk) (x : Xlat) (e a : Nat) (lh : Bool),
    s.xlt.walks.find? (fun w => w.ctx == ctx && w.va / 4096 == va / 4096) = some w → w.gen = s.xltGen ctx →
    s.walk w.key ctx w.va host = .ok x e lh a →
    exec (.walkDone ctx va host) s = .next (({ s with xlt := { s.xlt with
      walks := s.xlt.walks.erase w, walkCount := s.xlt.walkCount + 1 } }).tlbInstall (homeDie w.ctx) x)) ∧
  (∀ (s : State) (ctx va : Nat) (host : List Nat) (w : Walk) (r e level a : Nat) (last lh : Bool),
    s.xlt.walks.find? (fun w => w.ctx == ctx && w.va / 4096 == va / 4096) = some w → w.gen = s.xltGen ctx →
    s.walk w.key ctx w.va host = .fault r last e level lh a → (last && asksMigration e level && s.migMode w.ctx w.va != 0) = false →
    exec (.walkDone ctx va host) s = .next (({ s with xlt := { s.xlt with
      walks := s.xlt.walks.erase w, walkCount := s.xlt.walkCount + 1 } }).failWaits w.ctx w.va 1 r)) ∧
  (∀ (s : State) (req : Nat) (a : AssistReq), s.xlt.assist.find req = some a → a.kind = 1 →
    exec (.missTimeout req) s = .next ((({ s with xlt := { s.xlt with assist := s.xlt.assist.del req } }).failWaits
      a.ctx a.va 1 XL_MISS_TIMEOUT).setEvt F.XLT_EVT_MISS_TIMEOUT)) ∧
  (∀ (s u : State) (ctx va leaf : Nat) (host : List Nat) (m : Nat × Nat × Nat × Nat) (r e level a pool : Nat) (lh : Bool),
    s.xlt.migWanted.find? (fun m => m.1 == ctx && m.2.1 / 4096 == va / 4096) = some m → s.xlt.migrations.length < 256 →
    s.walk m.2.2.2 ctx m.2.1 host = .fault r true e level lh a → asksMigration e level = true →
    s.freePage ctx (levelSize level) = some pool → s.leafNow m.2.2.2 lh a leaf = e →
    State.writeLeaf { s with xlt := { s.xlt with migWanted := s.xlt.migWanted.erase m } } ctx m.2.2.2 lh a (leafClear e) = u →
    exec (.migrationStart ctx va host leaf) s = .next
      (State.dropPage { u with xlt := { u.xlt with
        migrations := u.xlt.migrations ++ [{
          ctx := ctx, va := m.2.1 / levelSize level * levelSize level, size := levelSize level
          leafHost := lh, leafAddr := a, leaf := e, pool := pool, key := m.2.2.2 }]
        poolUsed := u.xlt.poolUsed.put pool (levelSize level) } }
        ctx (m.2.1 / levelSize level * levelSize level) (levelSize level))) ∧
  (∀ (s : State) (ctx va leaf : Nat) (data : List Byte) (m : Migration),
    s.xlt.migrations.find? (fun m => m.ctx == ctx && decide (m.va ≤ va) && decide (va < m.va + m.size)) = some m →
    s.heldBy none (fun x => x.ctx == ctx && decide (x.va < m.va + m.size) && decide (m.va < x.va + x.size * x.run)) = false →
    exec (.migrationCopyDone ctx va data leaf) s = .next (s.endMigration m data leaf)) ∧
  (∀ (s t u : State) (m : Migration) (data : List Byte) (now : Nat),
    (({ s with xlt := { s.xlt with migrations := s.xlt.migrations.erase m } }).homeWrite .none m.key m.pool
      (data.take m.size ++ List.replicate (m.size - data.length) 0)) = t →
    t.homeWrite .none m.key (returnRecord (t.context m.ctx) m.pool) (leBytes 8 (teAddr m.leaf)) = u →
    (u.leafNow m.key m.leafHost m.leafAddr now = leafClear m.leaf → s.endMigration m data now =
      { u.writeLeaf m.ctx m.key m.leafHost m.leafAddr (leafMoved m.leaf 0 m.pool) with
        xlt := { (u.writeLeaf m.ctx m.key m.leafHost m.leafAddr (leafMoved m.leaf 0 m.pool)).xlt with
          migCount := (u.writeLeaf m.ctx m.key m.leafHost m.leafAddr (leafMoved m.leaf 0 m.pool)).xlt.migCount + 1 } }) ∧
    (u.leafNow m.key m.leafHost m.leafAddr now ≠ leafClear m.leaf → s.endMigration m data now =
      { u with xlt := { u.xlt with poolUsed := u.xlt.poolUsed.del m.pool } })) ∧
  (∀ (s : State) (ctx va : Nat) (m : Migration),
    s.xlt.migrations.find? (fun m => m.ctx == ctx && decide (m.va ≤ va) && decide (va < m.va + m.size)) = some m →
    exec (.migrationTimeout ctx va) s = .next ((({ s with xlt := { s.xlt with
      migrations := s.xlt.migrations.erase m, poolUsed := s.xlt.poolUsed.del m.pool } }).failWaits ctx m.va m.size
        XL_MIG_TIMEOUT).setEvt F.XLT_EVT_MIG_FAILED))

/-- INVALIDATE and its completion, XLT_SET_ROOT, PREFETCH, ADVISE and XLT_FILL (R220, R227, R229, R236, R239, R240, R241, R242, R243, R244).
Where the rules leave a choice it is the model's own, in assumptions 12, 46. -/
def Obligations.TranslationDescriptors : Prop :=
  (∀ (s : State) (tok : Nat) (d : Desc), s.ready tok 0x70 d →
    exec (.invalidate tok) s = .next ((s.begun tok d).applyInv
      { tok := tok, s2 := decide (2 ≤ ivScope d.bits), all := ivScope d.bits % 2 == 1, ctx := s.srcCtx d.src
        vmid := ivVmid d.bits, addr := ivAddr d.bits, len := ivLen d.bits })) ∧
  (∀ (s : State) (i : InvScope), s.applyInv i =
    { s.tlbDrop i.covers (fun c va => s.invCovers i c va) with
      xlt := { (s.tlbDrop i.covers (fun c va => s.invCovers i c va)).xlt with invs := s.xlt.invs ++ [i] } }) ∧
  (∀ (s : State) (tok : Nat) (i : InvScope) (d : Desc), s.xlt.invs.find? (fun i => i.tok == tok) = some i →
    s.heldBy none i.covers = false → s.desc tok = some d →
    exec (.invalidateComplete tok) s = .next ((({ s with xlt := { s.xlt with invs := s.xlt.invs.erase i } }).flushReads
      d.src).opEnd tok {})) ∧
  (∀ (s : State) (tok : Nat) (d : Desc), s.ready tok 0x74 d →
    exec (.xltSetRoot tok) s = .next (State.applyInv ({ s.begun tok d with xlt := { s.xlt with
      committed := s.xlt.committed.put (s.srcCtx d.src) (putBits (putBits (putBits (s.context (s.srcCtx d.src)) 64 64
        (dfield d.bits 16 8)) 1 1 (bitsOf d.bits 192 1)) 24 1 (bitsOf d.bits 193 1)) } } : State)
      { tok := tok, s2 := false, all := true, ctx := s.srcCtx d.src, vmid := 0, addr := 0, len := 0 })) ∧
  (∀ (s u t : State) (tok : Nat) (d : Desc) (host : List Nat) (ext : List Byte) (c0 c : Cpl), s.ready tok 0x71 d →
    xcValid (s.context (s.srcCtx d.src)) = true → s.rangeBarred (s.srcCtx d.src) (pfVa d.bits) (pfLen d.bits) = false →
    s.ctxConf (s.srcCtx d.src) = false → s.assisted 1 = false →
    State.moveRange (fun u va host ext => u.prefetchPage tok (dKeySlot d.bits) (s.srcCtx d.src) va host ext) (pfLen d.bits / 4096)
      (pfVa d.bits) (pfVa d.bits + pfLen d.bits) 0 host ext s = (u, some c0) →
    State.moveRange (fun u va host ext => u.prefetchPage tok (dKeySlot d.bits) (s.srcCtx d.src) va host ext) (pfLen d.bits / 4096)
      (pfVa d.bits) (pfVa d.bits + pfLen d.bits) 0 host ext (s.begun tok d) = (t, some c) →
    exec (.prefetch tok host ext) s = .next (t.opEnd tok c)) ∧
  (∀ (s : State) (tok : Nat) (d : Desc) (host : List Nat) (ext : List Byte), s.ready tok 0x71 d →
    xcValid (s.context (s.srcCtx d.src)) = true → s.rangeBarred (s.srcCtx d.src) (pfVa d.bits) (pfLen d.bits) = true →
    exec (.prefetch tok host ext) s = .next ((s.begun tok d).opEnd tok (cpl ST_PERMISSION XL_MIG_MODE))) ∧
  (∀ (s u t : State) (tok : Nat) (d : Desc) (host : List Nat) (c0 c : Cpl), s.ready tok 0x72 d →
    xcValid (s.context (s.srcCtx d.src)) = true → adAdvice d.bits ≠ 0 → s.assisted 1 = false →
    State.moveRange (fun u va host _ => u.advisePage (adAdvice d.bits) tok (dKeySlot d.bits) (s.srcCtx d.src) va host) (pfLen d.bits / 4096)
      (pfVa d.bits) (pfVa d.bits + pfLen d.bits) 0 host [] s = (u, some c0) →
    State.moveRange (fun u va host _ => u.advisePage (adAdvice d.bits) tok (dKeySlot d.bits) (s.srcCtx d.src) va host) (pfLen d.bits / 4096)
      (pfVa d.bits) (pfVa d.bits + pfLen d.bits) 0 host [] (s.begun tok d) = (t, some c) →
    exec (.advise tok host) s = .next (t.opEnd tok c)) ∧
  (∀ (step : State → Nat → List Nat → List Byte → Moved) (n va last k : Nat) (host : List Nat) (ext : List Byte) (s : State), va < last →
    State.moveRange step (n + 1) va last k host ext s = match step s va host ext with
      | .wait t => (t, none)
      | .stop t r => (t, some { status := xlStatus r, reason := r, result := k })
      | .ok t j size h e => State.moveRange step n (va + max size 4096) last (k + j) h e t) ∧
  (∀ (s : State) (tok key c va : Nat) (host : List Nat) (ext : List Byte) (x : Xlat) (e a : Nat) (lh : Bool),
    s.walk key c va host = .ok x e lh a → x.host = false →
    s.prefetchPage tok key c va host ext = .ok s 0 (x.va + x.size - va) host ext) ∧
  (∀ (s t : State) (tok key c va pool : Nat) (host : List Nat) (ext : List Byte) (x : Xlat) (e a : Nat) (lh : Bool),
    s.walk key c va host = .ok x e lh a → x.host = true → x.size ≠ 2 ^ 30 → s.pageHeld tok c x.va x.size = false →
    s.freePage c x.size = some pool → (s.writeLeaf c key lh a (leafClear e)).dropPage c x.va x.size = t →
    s.prefetchPage tok key c va host ext = .ok (({ t with xlt := { t.xlt with poolUsed := t.xlt.poolUsed.put pool x.size } }).endMigration
      { ctx := c, va := x.va, size := x.size, leafHost := lh, leafAddr := a, leaf := e, pool := pool, key := key } ext (leafClear e))
      1 x.size host (ext.drop x.size)) ∧
  (∀ (s : State) (tok : Nat) (d : Desc), s.ready tok 0x73 d → s.xlt.assist.find (flReq d.bits) = none →
    exec (.xltFill tok) s = .next (((s.begun tok d).setEvt F.XLT_EVT_FILL_STALE).opEnd tok (cpl ST_ABORTED XL_FILL_STALE))) ∧
  (∀ (s : State) (tok n : Nat) (d : Desc) (a : AssistReq), s.ready tok 0x73 d → s.xlt.assist.find (flReq d.bits) = some a →
    a.gen = s.xltGen a.ctx → d.src = .ring n →
    (rgPort (s.ring n).record ≠ xcPort (s.context a.ctx) →
      exec (.xltFill tok) s = .next ((s.begun tok d).opEnd tok (cpl ST_PERMISSION XL_PRIV))) ∧
    (rgPort (s.ring n).record = xcPort (s.context a.ctx) → flFail d.bits = false → flRewalk d.bits = false → a.tok = none →
      flVa d.bits = a.va / fillPage d.bits * fillPage d.bits → teType (flLeaf d.bits) < 2 →
      (fillXlat d.bits a (xcVmid (s.context a.ctx))).out % (fillXlat d.bits a (xcVmid (s.context a.ctx))).size = 0 →
      s.xlatCheck (s.context a.ctx) (fillXlat d.bits a (xcVmid (s.context a.ctx))) = none →
      exec (.xltFill tok) s = .next ((State.tlbInstall ({ s.begun tok d with xlt := { s.xlt with assist := s.xlt.assist.del (flReq d.bits) } } : State)
        (homeDie a.ctx) (fillXlat d.bits a (xcVmid (s.context a.ctx)))).opEnd tok {})))

/-- Promotions, demotions and the four tier descriptors (R252, R253, R254, R260, R261, R264, R265).
Where the rules leave a choice it is the model's own, in assumptions 12, 48. -/
def Obligations.TierMoves : Prop :=
  (∀ (s : State) (granule part : Nat) (x y : TierGranule), s.granuleOf granule = some x → x.copying.testBit part = true →
    y = { x with on := x.on ||| 2 ^ part, copying := x.copying ^^^ 2 ^ part, heat := x.heat.put part 0 } →
    exec (.tierPartCopyDone granule part) s = .next (State.pump (State.endTierJobs { s with tier := { s.tier with
      granules := s.tier.granules.put granule y
      promotions := s.tier.promotions + boolNat (y.on == 0xFFFF && !y.moving) } }))) ∧
  (∀ (s : State) (granule part : Nat) (x y : TierGranule), s.granuleOf granule = some x → x.leaving.testBit part = true →
    y = { x with on := x.on &&& (0xFFFF ^^^ 2 ^ part), leaving := x.leaving ^^^ 2 ^ part, dirty := x.dirty.del part, heat := x.heat.del part } →
    exec (.tierPartDemotionDone granule part) s = .next (State.pump (State.endTierJobs
      (State.setTier { s with tier := { s.tier with
        granules := if (y.on == 0 && y.leaving == 0 && y.copying == 0) = true then s.tier.granules.del granule else s.tier.granules.put granule y
        demotions := s.tier.demotions + boolNat (y.on == 0 && y.leaving == 0 && y.copying == 0) } }
        (fun t => { t with granules := t.granules.mapV (fun _ z => if z.after = some granule then
          { z with copying := z.copying ||| 2 ^ part
                   after := if (y.on == 0 && y.leaving == 0 && y.copying == 0) = true then none else z.after } else z) }))))) ∧
  (∀ (s : State) (n : Nomination) (rest : List Nomination), s.tier.noms = n :: rest → s.assisted 7 = false →
    s.tier.started < s.fld F.TIR_RATE_MAX_PROMOTE →
    exec .tierPromotion s = if s.tierSkips then .next { s with tier := { s.tier with noms := rest, skipped := s.tier.skipped + 1 } }
      else match State.promote { s with tier := { s.tier with noms := rest } } n.granule n.key (some n.estimate) with
        | (u, .started) => .next { u with tier := { u.tier with started := u.tier.started + 1 } }
        | (u, _) => .next u) ∧
  (∀ (s : State) (g key : Nat) (hyst : Option Nat), s.tier.granules.has g = false →
    ((List.range 16).all (fun i => decide (s.slotsUsed (tierHome g i) < s.tierSlots (tierHome g i))) = true →
      s.promote g key hyst = ({ s with tier := { s.tier with granules := s.tier.granules.put g { key := key, copying := 0xFFFF } } }, .started)) ∧
    ((List.range 16).all (fun i => decide (s.slotsUsed (tierHome g i) < s.tierSlots (tierHome g i))) = false → s.tierVictim (g % 3) = none →
      s.promote g key hyst = (s, .noSlot))) ∧
  (∀ (s : State) (g : Nat) (x : TierGranule), s.granuleOf g = some x →
    ((s.demote g).granuleOf g) = some { x with leaving := x.on, pinned := false }) ∧
  (∀ (s s1 t : State) (op tok n r : Nat) (d : Desc) (segs : List (List (List Seg))), s1.ready tok op d → s.ready tok op d →
    s.xlateTiles tok d (tierTiles (tdVa d.bits) (tdLen d.bits / 65536 + 2) 0 (tdLen d.bits)) [] = (s1, some (segs, none)) →
    (granulesOf segs.flatten.flatten).any s1.granuleMoves = false →
    (s1.begun tok d).tierOver op (dKeySlot d.bits) (granulesOf segs.flatten.flatten) = (t, n, r) →
    let next := State.endTierJobs { t with tier := { t.tier with jobs := t.tier.jobs ++
      [{ tok := tok, granules := granulesOf segs.flatten.flatten, done := (granulesOf segs.flatten.flatten).length - n
         dropped := n, reason := r }] } }
    (op = 0x88 → exec (.tierPromote tok) s = .next next) ∧ (op = 0x89 → exec (.tierDemote tok) s = .next next) ∧
    (op = 0x8A → exec (.tierPin tok) s = .next next) ∧ (op = 0x8B → exec (.tierUnpin tok) s = .next next)) ∧
  (∀ (s : State) (key g : Nat) (x : TierGranule), s.granuleOf g = some x →
    s.tierOne 0x89 key g = (if x.pinned then (s, some TIR_PINNED) else (s.demote g, none)) ∧
    (∀ l, s.tierOver 0x89 key (g :: l) = if x.pinned then ((s.tierOver 0x89 key l).1, (s.tierOver 0x89 key l).2.1 + 1,
      Nat.max TIR_PINNED (s.tierOver 0x89 key l).2.2) else (s.demote g).tierOver 0x89 key l) ∧
    s.tierOne 0x8B key g = ({ s with tier := { s.tier with granules := s.tier.granules.upd g (fun x => { x with pinned := false }) } }, none))

/-- The codec descriptors: encode, decode, send, adopt, profile, and the code tables (R279, R286, R287, R288, R291, R292, R303, R304, R305, Table 9-8).
Where the rules leave a choice it is the model's own, in assumptions 3, 11, 50, 51. -/
def Obligations.CodecDescriptors : Prop :=
  (∀ (s s1 t : State) (tok n cls raw : Nat) (d : Desc) (ext e : List Byte) (done tiles : List (List (List Seg))) (stop stop' : Option Cpl),
    s.grantedTiles tok 0x81 d (encodeNeeds d.bits) s1 done stop → s.encodeRefused d = none → s.creditBarred d = false →
    cutHost 1 (dfield d.bits 24 8) done stop = (tiles, stop') → (s1.begun tok d).encodeOver tok d ext tiles = (t, e, n, cls, raw) →
    exec (.cdcEncode tok ext) s = .next (t.opEnd tok (blocksEnd (ccLen d.bits / 4096) tiles.length stop'
      { result := n % 2 ^ 32 + at_ 32 cls + at_ 40 (raw % 2 ^ 24) }))) ∧
  (∀ (s t : State) (tok sa a : Nat) (d : Desc) (ext data e : List Byte) (x : Coded), t.descServed d = true →
    State.readSegs d [⟨false, sa, 4096⟩] ext s = (t, data, false, e) →
    encodeBlock (dfield d.bits 40 1) (ccTable d.bits 42) ((t.cdcTable (ccTable d.bits 42)).image) data = x →
    s.encodeTile tok d ext [[⟨false, sa, 4096⟩], [⟨false, a, 4096⟩]] =
      ((t.creditWrite (.desc tok) (dKeySlot d.bits) a x.bytes (descCredit d) (some (x.entry (dKeySlot d.bits)))).setCdc (fun c =>
        { c with encoded := c.encoded + 1, rawStored := c.rawStored + boolNat (x.codec == 1) }), e, x.sectors, x.cls, boolNat (x.codec == 1))) ∧
  (∀ (s s1 t : State) (tok : Nat) (d : Desc) (poison : Bool) (done tiles : List (List (List Seg))) (stop stop' : Option Cpl),
    s.grantedTiles tok 0x82 d (encodeNeeds d.bits) s1 done stop → s.creditBarred d = false →
    cutHost 0 (dfield d.bits 16 8) done stop = (tiles, stop') → (s1.begun tok d).decodeOver tok d tiles = (t, poison) →
    exec (.cdcDecode tok) s = .next (t.opEnd tok (blocksEnd (ccLen d.bits / 4096) tiles.length stop'
      (if poison then cpl ST_POISONED CDC_DECODE_ERROR else {})))) ∧
  (∀ (s s1 t : State) (tok off coded : Nat) (d : Desc) (poison : Bool) (done tiles : List (List (List Seg))) (stop stop' : Option Cpl),
    s.grantedTiles tok 0x83 d (sendNeeds d.bits) s1 done stop →
    cutHost 0 (dfield d.bits 16 8) done stop = (tiles, stop') → (s1.begun tok d).sendOver tok d tiles = (t, off, coded, poison) →
    exec (.cdcSend tok) s = .next ((if d.bits.getLsbD 328 && stop'.isNone
        then t.submitTo tok (dfield d.bits 24 8) (dfield d.bits 40 1) (adoptBits d.bits coded) (t.keyField (dKeySlot d.bits))
        else t).opEnd tok (blocksEnd (ccLen d.bits / 4096) tiles.length stop' (if poison then cpl ST_POISONED CDC_DECODE_ERROR else {})))) ∧
  (∀ (s s1 t : State) (tok a a1 key key1 k : Nat) (d : Desc) (done : List (List (List Seg))),
    s.grantedTiles tok 0x84 d (adoptNeeds d.bits a) s1 done none → s.adoptBase d = .ok (a, key) → s1.adoptBase d = .ok (a1, key1) →
    (s1.begun tok d).adoptOver d key1 a1 (ccLen d.bits / 4096) = (t, k) →
    exec (.cdcAdopt tok) s = if k < dfield d.bits 32 4
      then .next ((t.setEvt F.CDC_EVT_ADOPT_SHORT).opEnd tok
        { status := ST_PARTIAL, reason := CDC_ADOPT_SHORT, done := k, dropped := ccLen d.bits / 4096 - k })
      else .next (t.opEnd tok { done := k, dropped := ccLen d.bits / 4096 - k })) ∧
  (∀ (s s1 t : State) (tok : Nat) (d : Desc) (ext e : List Byte) (h : Tab Nat) (done : List (List (List Seg))),
    s.grantedTiles tok 0x80 d (sendNeeds d.bits) s1 done none → profileRefused d s = none →
    d.bits.getLsbD 280 = true → d.bits.getLsbD 281 = true →
    ((s1.begun tok d).setCdcTable (ccTable d.bits 32) { phase := .building, slice := dSlice d.bits, format := dfield d.bits 34 1 }).profileOver d
      (dfield d.bits 34 1) ext [] done = (t, e, h, false) → h.all (fun _ c => c == 0) = false →
    (t.cdcTable (ccTable d.bits 32)).format = dfield d.bits 34 1 →
    exec (.cdcProfile tok ext) s = .next ((t.setCdcTable (ccTable d.bits 32) { t.cdcTable (ccTable d.bits 32) with
      phase := .valid, image := makeImage (profileLens h) (dfield d.bits 34 1), hist := [] }).opEnd tok
        (blocksEnd (ccLen d.bits / 4096) done.length none { result := imageCrc (makeImage (profileLens h) (dfield d.bits 34 1)) }))) ∧
  (∀ (s s1 t : State) (tok : Nat) (d : Desc) (ext img e : List Byte) (segs : List (List Seg)) (poison : Bool),
    s.granted tok 0x85 d [⟨dfield d.bits 16 8, 256, 1, false⟩] s1 segs → (s.cdcTable (ccTable d.bits 24)).phase = .free →
    State.readSegs d (segs.headD []) ext (s1.begun tok d) = (t, img, poison, e) →
    exec (.cdcTableLoad tok ext) s = if poison || !validImage img
      then .next (t.opEnd tok (cpl ST_REFUSED_FIT CDC_TABLE_FORMAT))
      else .next ((t.setCdcTable (ccTable d.bits 24) { phase := .valid, slice := dSlice d.bits, format := imageFormat img, image := img }).opEnd
        tok { result := imageCrc img })) ∧
  (∀ (s : State) (tok : Nat) (d : Desc), s.ready tok 0x86 d → (s.cdcTable (ccTable d.bits 16)).phase = .valid →
    exec (.cdcTableFree tok) s = if (s.cdcTable (ccTable d.bits 16)).slice = dSlice d.bits
      then .next (((s.begun tok d).setCdcTable (ccTable d.bits 16) { s.cdcTable (ccTable d.bits 16) with
        phase := .freeing, freed := s.tick.now }).opEnd tok {})
      else .next ((s.begun tok d).opEnd tok (cpl ST_PERMISSION CDC_TABLE_STATE))) ∧
  (∀ (s s1 : State) (tok : Nat) (d : Desc) (segs : List (List Seg)) (img : List Byte),
    s.granted tok 0x87 d [⟨dfield d.bits 16 8, 256, 2, false⟩] s1 segs → s.codecImage (dSlice d.bits) (ccTable d.bits 24) = some img →
    s.creditBarred d = false →
    exec (.cdcTableRead tok) s = .next ((State.writeSegs tok d (descCredit d) (segs.headD [])
      ((s1.begun tok d).cdcTable (ccTable d.bits 24)).image (s1.begun tok d)).opEnd tok {}))

/-- TP_LOAD, TP_RUN, TP_UNLOAD and the end of a work item (R13, R128, R301, R335, R339, R340, R341, R342, R347, Table 10-11).
Where the rules leave a choice it is the model's own, in assumptions 3, 11, 12, 52, 54. -/
def Obligations.TilePrograms : Prop :=
  (∀ (s s1 t : State) (tok : Nat) (d : Desc) (ext l e : List Byte) (segs : List (List Seg)) (c : Cpl), s.loadingSlot tok = none →
    s.granted tok 0x30 d [⟨tlBin d.bits, tlBinLen d.bits, 1, false⟩] s1 segs →
    State.readSegs d (segs.headD []) ext s1 = (t, l, false, e) → t.ready tok 0x30 d → t.loadFails d.bits l (parseBinary l) = some c →
    exec (.tpLoad tok ext) s = .next (((((t.begun tok d).mtxError 0 0 c.reason LOC_MD).setEvt F.MTX_EVT_LOAD_REFUSED).opEnd tok c))) ∧
  (∀ (s s1 t u : State) (tok n : Nat) (d : Desc) (ext l e : List Byte) (segs : List (List Seg)) (area : List Seg), s.loadingSlot tok = none →
    s.granted tok 0x30 d [⟨tlBin d.bits, tlBinLen d.bits, 1, false⟩] s1 segs →
    State.readSegs d (segs.headD []) ext s1 = (t, l, false, e) → t.loadFails d.bits l (parseBinary l) = none →
    t.xlateRange tok d (tlArea d.bits) (tlAreaLen d.bits) 2 = (u, .ok area) →
    u.areaFails d.bits (parseBinary l).weightBytes area = false → u.ready tok 0x30 d → u.freeProg = some n → (parseBinary l).weightBytes ≠ 0 →
    exec (.tpLoad tok ext) s = .next { (u.begun tok d).setProg n {
        phase := .loading, gen := ((u.prog n).gen + 1) % 256, slice := dSlice d.bits, programId := (parseBinary l).programId
        weightBytes := (parseBinary l).weightBytes, reserve := (parseBinary l).reserve, scratchKib := (parseBinary l).scratchKib
        bufKib := (parseBinary l).bufKib, places := (parseBinary l).places, ops := (parseBinary l).ops
        warea := area.map (fun x => (x.addr, x.len)), key := dKeySlot d.bits, keyEpoch := dKeyEpoch d.bits, loader := some tok
        wkey := (u.modelKey d.bits (parseBinary l).programId).map (fun k => k.key) } with
      tick := { u.tick with loads := u.tick.loads ++
        [{ tok := tok, slice := dSlice d.bits, left := (parseBinary l).weightBytes, requested := u.roundTick }] } }) ∧
  (∀ (s s1 s2 t u : State) (tok n : Nat) (d : Desc) (ext l w e : List Byte) (img : List Seg) (rest : List (List Seg)),
    s.loadingSlot tok = some n → s.desc tok = some d → s.loadPending tok = false →
    ((tlKey d.bits = 0 ∧ w = l) ∨ (tlKey d.bits ≠ 0 ∧ ∃ k, (s.prog n).wkey = some k ∧
      openImage k l (s.prog n).programId (s.prog n).weightBytes = some w)) →
    s.xlateNeeds tok d [⟨tlImg d.bits, tlImgLen d.bits, 1, false⟩] [] = .ready s1 (img :: rest) → (img.any (fun x => x.host) = true ∨ s2.badOffsets 0 (img.map (fun x => (x.addr, x.len))) = []) →
    s1.engineReady tok ((img.filter (fun x => !x.host)).map (fun x => (x.addr, x.len, false)) ++
      (cutPieces (s.prog n).warea 0 (s.prog n).weightBytes).map (fun x => (x.1, x.2, true))) = (s2, true) →
    State.readSegs d img ext s2 = (t, l, false, e) →
    State.writeKeyed tok (s.prog n).key (s.prog n).keyEpoch (descCredit d) (cutPieces (s.prog n).warea 0 (s.prog n).weightBytes) w t = u →
    exec (.tpLoad tok ext) s = .next (
      let v := ((u.setProg n { s.prog n with phase := .loaded, loader := none, wkey := none, digest := Config.sha384 w }).setEvt
        F.MTX_EVT_LOADED).opEnd tok { result := n + at_ 8 (s.prog n).gen }
      { v with tick := { v.tick with loads := v.tick.loads.filter (fun j => j.tok != tok) } })) ∧
  (∀ (s : State) (tok : Nat) (d : Desc), s.ready tok 0x31 d → s.kvOrdered tok d = true → s.creditBarred d = false →
    exec (.tpRun tok) s = match s.runRefsFail d with
      | some c => .next ((s.begun tok d).opEnd tok c)
      | none => .next ((s.begun tok d).beginRun tok {
          slot := some (trHandle d.bits % 256), first := trFirst d.bits, places := (s.prog (trHandle d.bits % 256)).places
          ops := (s.prog (trHandle d.bits % 256)).range d.bits, bases := trBases d.bits })) ∧
  (∀ (s : State) (tok : Nat) (d : Desc) (r : MtxRun), s.desc tok = some d →
    (∀ (p : Nat) (o : TileOp), r.ops[p]? = some o → s.mtxIn (clusterOf r.places o) = true) → (r.passFences d).allDone = false →
    s.beginRun tok r = { s with mtx := { s.mtx with runs := s.mtx.runs.put tok (r.passFences d) } }) ∧
  (∀ (s : State) (tok : Nat) (d : Desc), s.ready tok 0x32 d → (s.prog (trHandle d.bits % 256)).unloader = some tok →
    s.rings.descs.any (fun _ e => dOpcode e.bits == 0x31 && trHandle e.bits % 256 == trHandle d.bits % 256 && !e.finished
      && (e.phase == .admitted || e.phase == .running)) = false →
    exec (.tpUnload tok) s = .next ((((s.begun tok d).setProg (trHandle d.bits % 256)
      (s.prog (trHandle d.bits % 256)).release).setEvt F.MTX_EVT_UNLOADED).opEnd tok {})) ∧
  (∀ (s : State) (tok cluster attempt unit : Nat) (ok : Bool) (ext : List Byte) (d : Desc) (r : MtxRun), s.desc tok = some d →
    s.mtx.runs.find tok = some r →
    (attempt ≠ r.attempts.get 0 cluster → exec (.workItemDone tok cluster attempt ok unit ext) s =
      .next (({ s with ord := { s.ord with staleCount := s.ord.staleCount + 1 } }).setEvt F.FAB_ORD_EVT_STALE)) ∧
    (attempt = r.attempts.get 0 cluster → ok = false → exec (.workItemDone tok cluster attempt ok unit ext) s = .next (State.testUnit
      { s with mtx := { s.mtx with
        runs := s.mtx.runs.put tok { r with attempts := r.attempts.updD 0 cluster (fun x => x + 1) }
        retries := s.mtx.retries + 1 } } (mtxUnitKey cluster unit)))) ∧
  (∀ (s t : State) (tok cluster attempt unit p : Nat) (sat : Nat) (poison : Bool) (ext : List Byte) (d : Desc) (r : MtxRun) (o : TileOp), s.desc tok = some d →
    s.mtx.runs.find tok = some r → attempt = r.attempts.get 0 cluster → r.passFences d = r → r.nextOp cluster = some p → r.ops[p]? = some o →
    o.opc ≠ TFENCE → r.joined d p = true → s.clusterTurn tok d cluster = true → s.opStops r o = none →
    (if r.done.has p then s else s.opStarts r o).doItem tok d r (opItem (if r.done.has p then s else s.opStarts r o) r o (r.done.get 0 p)) ext
      = .done t poison sat →
    exec (.workItemDone tok cluster attempt true unit ext) s = .next (
      let t1 := State.countBubbles { t with mtx := { t.mtx with
        tiles := t.mtx.tiles + 1, intSat := t.mtx.intSat + sat, poisoned := t.mtx.poisoned + boolNat poison } } o (r.done.get 0 p + 1)
      let t2 := if sat = 0 then t1 else t1.setEvt F.MTX_EVT_INT_SAT
      let t3 := if poison then t2.setEvt F.MTX_EVT_POISON else t2
      t3.settleRun tok { r with
        done := r.done.put p (r.done.get 0 p + 1), poison := r.poison || poison
        attended := if o.opc = ATTEND then (t3.kvLayer (r.bases.getD o.b.base 0)).len else r.attended }))

/-- Embedding tables: load, unload, lookup, publish, the row cache descriptor, and privileged tables (R356, R357, R358, R359, R360, R361, R364, R374, R376, R385, Table 11-7).
Where the rules leave a choice it is the model's own, in assumptions 11, 55, 56. -/
def Obligations.EmbeddingTables : Prop :=
  (∀ (s s0 s1 u : State) (tok : Nat) (d : Desc) (ext l e : List Byte) (segs : List (List Seg)) (t : TblDesc) (c : Cpl),
    s.granted tok 0x20 d [⟨dfield d.bits 16 8, 128, 1, false⟩] s0 segs → State.readSegs d (segs.headD []) ext s0 = (s1, l, false, e) →
    parseTable l = (t, true) → dfield d.bits 16 8 % 64 = 0 → s1.tblLoadFails d.bits t true = some c →
    (s1.setEvt F.EMB_EVT_LOAD_REFUSED).embError (dfield d.bits 24 2) c.reason LOC_MD = u → u.ready tok 0x20 d →
    exec (.tblLoad tok ext) s = .next ((u.begun tok d).opEnd tok c)) ∧
  (∀ (s s0 s1 s2 s3 s4 u : State) (tok : Nat) (d : Desc) (ext l e : List Byte) (segs : List (List Seg)) (t : TblDesc)
      (st un : List Seg) (c : List Byte × Bool),
    s.granted tok 0x20 d [⟨dfield d.bits 16 8, 128, 1, false⟩] s0 segs → State.readSegs d (segs.headD []) ext s0 = (s1, l, false, e) →
    parseTable l = (t, true) → dfield d.bits 16 8 % 64 = 0 → s1.tblLoadFails d.bits t true = none →
    s1.xlateRange tok d t.storage t.storageLen (if t.updatable then 3 else 1) = (s2, .ok st) →
    (if t.updatable then s2.xlateRange tok d t.undo t.undoLen 3 else (s2, .ok [])) = (s3, .ok un) →
    s3.storageOk (dSlice d.bits) (st.map segTuple) = true → s3.areaOk (dSlice d.bits) un = true →
    piecesMeet (devicePieces (st.map segTuple)) (un.map (fun x => (x.addr, x.len))) = false →
    let tb : EmbTable := {
      phase := .loaded, slice := dSlice d.bits, key := dKeySlot d.bits, keyEpoch := dKeyEpoch d.bits, desc := t
      defaulting := t.wantsDefault, images := [{ va := t.storage, segs := st.map segTuple, first := 1, last := 1 }]
      undoArea := un.map (fun x => (x.addr, x.len)), version := 1, counts := (s3.table (dfield d.bits 24 2)).counts }
    (if t.wantsDefault then s3.defaultBytes tb e else (s3, [], false)) = (s4, c) →
    (s4.setTable (dfield d.bits 24 2) { tb with copies := if t.wantsDefault then [(1, c)] else [] }).setEvt F.EMB_EVT_LOADED = u →
    u.ready tok 0x20 d →
    exec (.tblLoad tok ext) s = .next ((u.begun tok d).opEnd tok { result := 1 })) ∧
  (∀ (s : State) (tok : Nat) (d : Desc), s.ready tok 0x21 d → (s.table (dfield d.bits 16 2)).unloader = some tok →
    s.tableBusy (dfield d.bits 16 2) = false →
    exec (.tblUnload tok) s = .next ((((s.begun tok d).freeTable (dfield d.bits 16 2)).setEvt F.EMB_EVT_UNLOADED).opEnd tok {})) ∧
  (∀ (s s0 s1 s2 t : State) (tok : Nat) (d : Desc) (ext e e' : List Byte) (segs : List (List Seg)) (arrays : List (List Byte))
      (items : List (List (Nat × Nat))) (tally : LkTally),
    s.granted tok 0x22 d (bagForm d.bits).needs s0 segs → (s.table (bagForm d.bits).table).phase ≠ .free →
    (s.table (bagForm d.bits).table).slice = dSlice d.bits → s0.readArrays d segs ext = (s1, arrays, false, e) →
    (bagForm d.bits).parse arrays = (items, true) → (s1.embClusters (s.table (bagForm d.bits).table).slice).isEmpty = false →
    s0.engineReady tok (s0.lookupRanges d (bagForm d.bits).table d.pinned items) = (s2, true) → s2.ready tok 0x22 d →
    State.lookupOver ((s2.begun tok d).readArrays d segs e).1 tok d (bagForm d.bits) items e = (t, tally, e') →
    exec (.lookup tok ext) s = .next ((t.noteLookup (bagForm d.bits) tally).opEnd tok (lookupCpl tally))) ∧
  (∀ (s s0 s1 : State) (tok : Nat) (d : Desc) (ext e : List Byte) (segs : List (List Seg)) (arrays : List (List Byte))
      (items : List (List (Nat × Nat))),
    s.granted tok 0x22 d (bagForm d.bits).needs s0 segs → (s.table (bagForm d.bits).table).phase ≠ .free →
    (s.table (bagForm d.bits).table).slice = dSlice d.bits → s0.readArrays d segs ext = (s1, arrays, false, e) →
    (bagForm d.bits).parse arrays = (items, false) → s1.ready tok 0x22 d →
    exec (.lookup tok ext) s = .next ((s1.begun tok d).opEnd tok (cpl ST_ABORTED EMB_OFFSETS))) ∧
  (∀ (s : State) (d : Desc) (n v raw : Nat) (tally : LkTally) (ext : List Byte), (s.table n).desc.rows ≤ raw → d.crit ≠ 1 →
    (s.fetchIndex d n v tally ext raw) = (s, { tally with dropped := tally.dropped + 1 }, ext, none, false)) ∧
  (∀ (s t : State) (tok : Nat) (d : Desc) (ext : List Byte) (segs : List Seg), s.ready tok 0x23 d →
    (s.table (dfield d.bits 16 2)).phase ≠ .free → (s.table (dfield d.bits 16 2)).slice = dSlice d.bits →
    s.xlateRange tok d (dfield d.bits 24 8) (s.table (dfield d.bits 16 2)).desc.storageLen
      (if (s.table (dfield d.bits 16 2)).desc.updatable then 3 else 1) = (t, .ok segs) → t.ready tok 0x23 d →
    exec (.tablePublish tok ext) s = match t.imageFails (dfield d.bits 16 2) d.bits (segs.map segTuple) with
      | some c => .next ((t.begun tok d).opEnd tok c)
      | none => .next ((t.begun tok d).setTable (dfield d.bits 16 2) { s.table (dfield d.bits 16 2) with
          publish := some { tok := tok, va := dfield d.bits 24 8, segs := segs.map segTuple, row := ext } })) ∧
  (∀ (s u : State) (n : Nat) (p : TblPublish), (s.table n).publish = some p →
    s.setTable n { s.table n with
      publish := none, version := (s.table n).version + 1
      images := { va := p.va, segs := p.segs, first := (s.table n).version + 1, last := (s.table n).version + 1 } :: (s.table n).images } = u →
    (u.liveImages n).length ≤ 4 →
    s.imagePublish n = (u.refreshDefault n p.row).opEnd p.tok
      { result := ((s.table n).version + 1) % 2 ^ 32 + at_ 32 ((u.refreshDefault n p.row).oldestLive n % 2 ^ 32) }) ∧
  (∀ (s s0 s1 s2 t : State) (tok placed : Nat) (d : Desc) (ext e e' bytes : List Byte) (segs : List (List Seg)) (rows good : List Nat),
    s.granted tok 0x25 d [⟨dfield d.bits 24 6, 8 * rcCount d.bits, 1, false⟩] s0 segs → (s.table (dfield d.bits 16 2)).phase ≠ .free →
    (s.table (dfield d.bits 16 2)).slice = dSlice d.bits → State.readSegs d (segs.headD []) ext s0 = (s1, bytes, false, e) →
    rows = (chunksOf 8 (rcCount d.bits) bytes).map leNat → good = rows.filter (fun r => decide (r < (s.table (dfield d.bits 16 2)).desc.rows)) →
    s0.engineReady tok (good.flatMap (fun r => (s0.rowSource (dfield d.bits 16 2) r (s.table (dfield d.bits 16 2)).version none false).ranges)) = (s2, true) → s2.ready tok 0x25 d →
    (State.readSegs d (segs.headD []) [] (s2.begun tok d)).1.rcAdmitOver (dfield d.bits 16 2) (s.table (dfield d.bits 16 2))
      (fun r => s0.rowSource (dfield d.bits 16 2) r (s.table (dfield d.bits 16 2)).version none false) good e = (t, placed, e') →
    exec (.rcAdmit tok ext) s = .next (t.opEnd tok (if 0 < rows.length - good.length
      then { status := ST_PARTIAL, reason := EMB_INDEX_DROPPED, done := placed, dropped := rows.length - good.length }
      else { done := placed, dropped := rows.length - good.length }))) ∧
  (∀ (s : State) (path cycle : Nat) (v : Word), s.pairReady path Reg.EMB_PRIV_ENTRY v cycle →
    let e := s.fld F.EMB_PRIV_SEL_ENTRY
    let t : State := { s.setGuard path none with emb := { s.emb with privileged := s.emb.privileged.put e (v &&& 0x8000FFFF) } }
    let n := bitsOf (s.emb.privileged.get 0 e) 0 16
    ((s.emb.privileged.get 0 e).getLsbD 31 = false → exec (.embPrivEntryWrite path (~~~v) cycle) s = .next t) ∧
    ((s.emb.privileged.get 0 e).getLsbD 31 = true → (s.table n).phase = .loaded → (s.table n).slice = e / 16 → (s.table n).defaulting = true →
      t.embPriv (e / 16) n = false →
      exec (.embPrivEntryWrite path (~~~v) cycle) s = .next (t.setTable n { s.table n with policyDue := true })))

/-- Online update: start, stop, scattered gradients, and the windows (R391, R392, R393, R394, R397, R398, R399, R401, R402, R409).
Where the rules leave a choice it is the model's own, in assumption 57. -/
def Obligations.OnlineUpdate : Prop :=
  (∀ (s s0 s1 s2 s3 u3 : State) (tok stVa mgVa : Nat) (d : Desc) (ext l e : List Byte) (segs : List (List Seg)) (u : EmbUpdate) (st mg : List Seg),
    s.granted tok 0x26 d [⟨dfield d.bits 24 8, 128, 1, false⟩] s0 segs → State.readSegs d (segs.headD []) ext s0 = (s1, l, false, e) →
    parseUpdate l s1.tick.now = (u, stVa, mgVa, true) → dfield d.bits 24 8 % 64 = 0 →
    (stVa = 0 ∨ 0 < u.z (s1.table (dfield d.bits 16 2)).desc.cols) → s1.updStartFails d.bits true = none →
    s1.xlateRange tok d stVa (u.stateLen (s1.table (dfield d.bits 16 2)).desc) 3 = (s2, .ok st) →
    s2.xlateRange tok d mgVa (mergeLen (s1.table (dfield d.bits 16 2)).desc) 3 = (s3, .ok mg) →
    s3.updAreasOk (dfield d.bits 16 2) (dSlice d.bits) st mg = true →
    s3.updFits (dSlice d.bits) u (s1.table (dfield d.bits 16 2)).desc = true →
    s3.setUpdate (dfield d.bits 16 2) { u with
      stateArea := st.map (fun x => (x.addr, x.len)), mergeArea := mg.map (fun x => (x.addr, x.len))
      key := dKeySlot d.bits, keyEpoch := dKeyEpoch d.bits } = u3 → u3.ready tok 0x26 d →
    exec (.updStart tok ext) s = .next ((u3.begun tok d).opEnd tok {})) ∧
  (∀ (s : State) (tok : Nat) (d : Desc), s.ready tok 0x27 d →
    (∀ u, s.update (dfield d.bits 16 2) = some u → u.stopper = some tok → exec (.updStop tok) s = .next (s.begun tok d)) ∧
    (s.update (dfield d.bits 16 2) = none →
      exec (.updStop tok) s = .next ((s.begun tok d).opEnd tok (cpl ST_PERMISSION UPD_NOT_RUNNING)))) ∧
  (∀ (s s1 t v : State) (tok dropped deflt : Nat) (d : Desc) (ext e : List Byte) (segs : List (List Seg)) (arrays : List (List Byte))
      (items : List (List (Nat × Nat))) (u : EmbUpdate) (w : MergeWindow) (bags : List (List (Nat × Nat) × Nat × Nat)) (rows : List (Nat × Nat)),
    s.granted tok 0x24 d ((bagForm d.bits).needs ++ gradNeeds d.bits (s.table (bagForm d.bits).table).desc) s1 segs →
    (s.table (bagForm d.bits).table).phase ≠ .free → (s.table (bagForm d.bits).table).slice = dSlice d.bits →
    s.update (bagForm d.bits).table = some u → u.gathering = some w → w.k + 1 = d.pinned →
    s1.readArrays d segs ext = (t, arrays, false, e) → (bagForm d.bits).parse arrays = (items, true) →
    bags = items.map (bagRows (s.table (bagForm d.bits).table).desc (d.crit == 1)) → rows = bags.flatMap (fun b => b.1) →
    dropped = (bags.map (fun b => b.2.1)).foldl (· + ·) 0 → deflt = (bags.map (fun b => b.2.2)).foldl (· + ·) 0 →
    t.embCount (bagForm d.bits).table (fun c => { c with drops := c.drops + dropped }) = v →
    let full := (s.table (bagForm d.bits).table).desc.maxWin <
      w.rows.length + (((rows.map Prod.fst).filter (fun r => !(w.rows.has r))).eraseDups).length
    let a := (v.embCount (bagForm d.bits).table (fun c => { c with mergeFull := c.mergeFull + 1 })).setEvt F.EMB_UPD_EVT_MERGE_FULL
    let b := (v.setUpdate (bagForm d.bits).table (u.setWindow (w.mergeBags (bagForm d.bits) (s.table (bagForm d.bits).table).desc bags
      (arrays.drop (bagForm d.bits).needs.length)))).embCount (bagForm d.bits).table
        (fun c => { c with contributions := c.contributions + rows.length })
    (full → a.ready tok 0x24 d → exec (.scatterGrad tok ext) s = .next ((a.begun tok d).opEnd tok (cpl ST_MERGE_FULL MERGE_FULL))) ∧
    (¬ full → b.ready tok 0x24 d →
      exec (.scatterGrad tok ext) s = .next ((b.begun tok d).opEnd tok
      (if 0 < dropped then { status := ST_PARTIAL, reason := EMB_INDEX_DROPPED, done := rows.length, dropped := dropped
                             result := (w.mergeBags (bagForm d.bits) (s.table (bagForm d.bits).table).desc bags
                               (arrays.drop (bagForm d.bits).needs.length)).k % 2 ^ 32 + at_ 32 deflt }
       else { done := rows.length, dropped := dropped
              result := (w.mergeBags (bagForm d.bits) (s.table (bagForm d.bits).table).desc bags
                (arrays.drop (bagForm d.bits).needs.length)).k % 2 ^ 32 + at_ 32 deflt })))) ∧
  (∀ (w : MergeWindow) (row : Nat) (terms : List FV), w.rows.find row = none →
    (w.merge row terms).rows.find row = some { accs := (List.zip (terms.map (fun _ => ({} : Accum))) terms).map (fun e => e.1.add e.2), count := 1 }) ∧
  (∀ (s : State) (n t : Nat) (u : EmbUpdate) (w : MergeWindow), s.update n = some u → u.gathering = some w → u.stopping = false →
    w.opened + u.ticks ≤ t → s.scatterRuns n w.k = false → u.windows.length < 4 →
    s.sealWindow n t = s.setUpdate n { u.setWindow { w with stage := .sealed, last := t - 1 } with
      opened := u.opened + 1
      windows := (u.setWindow { w with stage := .sealed, last := t - 1 }).windows ++ [{ k := w.k + 1, opened := t }] }) ∧
  (∀ (s : State) (n : Nat) (u : EmbUpdate), s.update n = some u →
    s.releaseWindows n = s.setUpdate n { u with windows := u.windows.filter (fun w => !(w.stage == .committed && w.written)) }) ∧
  (∀ (s : State) (n : Nat) (u : EmbUpdate) (img : TblImage) (w : MergeWindow) (row : Nat) (m : MergeRow), m.accs.any Accum.flagged = true →
    s.applyRow n u img w (row, m) = (s.updSkip n row false, w)) ∧
  (∀ (s t v : State) (n row sat : Nat) (u : EmbUpdate) (img : TblImage) (w : MergeWindow) (m : MergeRow) (old st new st' : List Byte),
    m.accs.any Accum.flagged = false →
    State.readKeyed (s.table n).key (s.table n).keyEpoch (devicePieces ((s.table n).desc.rowSegs img row)) s = (t, old, false) →
    State.readKeyed u.key u.keyEpoch (cutPieces u.stateArea (row * u.zp (s.table n).desc.cols) (u.z (s.table n).desc.cols)) t = (v, st, false) →
    u.newRow (s.table n).desc m old st row w.last = (new, st', sat) →
    s.applyRow n u img w (row, m) = ((v.writeQuiet u.key u.keyEpoch (cutPieces u.stateArea (row * u.zp (s.table n).desc.cols)
      (u.z (s.table n).desc.cols)) st').embCount n (fun c => { c with rowsUpdated := c.rowsUpdated + 1, saturations := c.saturations + sat }),
      { w with fresh := w.fresh.put row new })) ∧
  (∀ (u : EmbUpdate) (cols : Nat) (state : List Byte) (g w : List FV), u.opt = 0 → (f32 u.decay).isZero = true →
    u.optimize cols state g w = ((List.zip g w).map (fun e => e.2.minus ((f32 u.lr).times e.1)), []))

/-- Search indexes: load, leaf writes, page programs, activation, unload, insert, delete and merge (R417, R427, R428, R429, R430, R431, R437, R438, R439, R440, Table 13-6).
Where the rules leave a choice it is the model's own, in assumptions 3, 59, 61. -/
def Obligations.SearchIndexes : Prop :=
  (∀ (s s0 s1 u : State) (tok : Nat) (d : Desc) (ext l e : List Byte) (segs : List (List Seg)) (x : IdxDesc) (c : Cpl),
    s.granted tok 0x40 d [⟨dfield d.bits 16 8, 128, 1, false⟩] s0 segs → State.readSegs d (segs.headD []) ext s0 = (s1, l, false, e) →
    parseIndex l = (x, true) → dfield d.bits 16 8 % 64 = 0 → s1.idxLoadFails d.bits x true = some c →
    (s1.setEvt F.SRH_EVT_LOAD_REFUSED).setSrh (fun e => { e with
      lastError := (0, dfield d.bits 24 1, c.reason, LOC_MD, s1.tick.now % 2 ^ 32) }) = u → u.ready tok 0x40 d →
    exec (.idxLoad tok ext) s = .next ((u.begun tok d).opEnd tok c)) ∧
  (∀ (s s0 s1 s2 u : State) (tok : Nat) (d : Desc) (ext l e : List Byte) (segs got : List (List Seg)) (x : IdxDesc),
    s.granted tok 0x40 d [⟨dfield d.bits 16 8, 128, 1, false⟩] s0 segs → State.readSegs d (segs.headD []) ext s0 = (s1, l, false, e) →
    parseIndex l = (x, true) → dfield d.bits 16 8 % 64 = 0 → s1.idxLoadFails d.bits x true = none →
    s1.xlateNeeds tok d [⟨x.nodes, x.nodeLen, 3, false⟩, ⟨x.leafmap, x.mapLen, 3, false⟩, ⟨x.side, x.sideLen, 3, false⟩,
      ⟨x.bitmaps, x.bitLen, 3, false⟩] [] = .ready s2 got →
    got.all (fun l => s2.areaOk (dSlice d.bits) l) = true → areasApart (got.map (fun l => l.map (fun p => (p.addr, p.len)))) = true →
    x.chanList.all (fun c => decide (x.pagesPer ≤ s2.freeFor (dfield d.bits 24 1) c)) = true →
    (s2.newIndex (dfield d.bits 24 1) {
      phase := .building, slice := dSlice d.bits, key := dKeySlot d.bits, keyEpoch := dKeyEpoch d.bits, desc := x
      digest := Config.sha384 l, nodeArea := (got.map (fun l => l.map (fun p => (p.addr, p.len)))).headD []
      areas := ((got.map (fun l => l.map (fun p => (p.addr, p.len)))).drop 1).flatten }).setEvt F.SRH_EVT_LOADED = u →
    u.ready tok 0x40 d →
    exec (.idxLoad tok ext) s = .next ((u.begun tok d).opEnd tok {})) ∧
  (∀ (s s0 s1 t : State) (tok : Nat) (d : Desc) (ext bytes e : List Byte) (segs : List (List Seg)) (w : LeafJob),
    s.granted tok 0x42 d [⟨srOut d.bits, dfield d.bits 24 2 * 16384, 1, false⟩] s0 segs → s.indexServes d.bits = true →
    State.readSegs d (segs.headD []) ext s0 = (s1, bytes, false, e) → s1.ready tok 0x42 d →
    (s1.begun tok d).leafOver tok (srIndex d.bits) (dfield d.bits 20 4) (dfield d.bits 24 2) bytes = (t, w) →
    exec (.leafWrite tok ext) s = .next (State.endLeafWrite { t with srh := { t.srh with writes := t.srh.writes ++ [w] } } tok)) ∧
  (∀ (s : State) (tok n leaf f : Nat) (l : List Byte), (s.index n).desc.pageOk leaf l = true → (s.index n).leaves.has leaf = false →
    s.srh.programs.any (fun p => p.index == n && p.leaf == leaf) = false →
    ((((s.index n).desc.entries l).map entryVnum).any (fun v => (s.index n).present.contains v)) = false →
    s.flashFree ((s.index n).desc.chanOf leaf) = some f →
    s.leafOne tok n leaf l = ((s.setIndex n { s.index n with
      present := (s.index n).present ++ ((s.index n).desc.entries l).map entryVnum }).program
        { fpa := f, index := n, leaf := leaf, bytes := l, tok := some tok }, none)) ∧
  (∀ (s : State) (fpa : Nat) (p : FlashProgram), s.srh.programs.find? (fun p => p.fpa == fpa) = some p →
    (∀ f, s.flashFree (fpaChan fpa) = some f → exec (.flashPageProgramDone fpa false) s = .next { s with srh := { s.srh with
      programs := s.srh.programs.map (fun q => if q.fpa = fpa then { q with fpa := f } else q) } }) ∧
    (∀ tok t, p.tok = some tok →
      State.setIndex { s with srh := { s.srh with
        programs := s.srh.programs.filter (fun q => q.fpa != fpa)
        pages := s.srh.pages.put fpa { index := p.index, leaf := p.leaf, key := (s.slot (s.index p.index).key).flashKey, bytes := p.bytes } } }
        p.index { s.index p.index with leaves := (s.index p.index).leaves.put p.leaf fpa } = t →
      exec (.flashPageProgramDone fpa true) s = .next (State.endLeafWrite { t with srh := { t.srh with
        writes := t.srh.writes.map (fun w => if w.tok = tok then { w with done := w.done + 1 } else w) } } tok))) ∧
  (∀ (s : State) (tok : Nat) (d : Desc), s.ready tok 0x43 d → s.indexServes d.bits = true → (s.index (srIndex d.bits)).activator = none →
    exec (.idxActivate tok) s = if (s.index (srIndex d.bits)).complete
      then .next ((s.begun tok d).setIndex (srIndex d.bits) { s.index (srIndex d.bits) with activator := some tok })
      else .next ((s.begun tok d).opEnd tok (cpl ST_REFUSED_FIT SRH_LEAVES_MISSING))) ∧
  (∀ (s : State) (tok : Nat) (d : Desc), s.ready tok 0x41 d → (s.index (srIndex d.bits)).unloader = some tok →
    s.indexBusy (srIndex d.bits) = false →
    exec (.idxUnload tok) s = .next ((((s.begun tok d).freeIndex (srIndex d.bits)).setEvt F.SRH_EVT_UNLOADED).opEnd tok {})) ∧
  (∀ (s s0 s1 : State) (tok n dropped : Nat) (d : Desc) (ext bytes e : List Byte) (segs : List (List Seg)) (x : SrhIndex),
    s.granted tok 0x45 d [⟨srSrc d.bits, srNv d.bits * (s.index (srIndex d.bits)).desc.es, 1, false⟩] s0 segs → s.srhOrdered d = true →
    (s.index (srIndex d.bits)).phase ≠ .free → (s.index (srIndex d.bits)).slice = dSlice d.bits →
    State.readSegs d (segs.headD []) ext s0 = (s1, bytes, false, e) → s1.ready tok 0x45 d →
    (s1.index (srIndex d.bits)).insertOver (s1.tick.now + 1)
      (chunksOf (s.index (srIndex d.bits)).desc.es (srNv d.bits) bytes) = (x, n, dropped) →
    exec (.srhInsert tok ext) s = if (s1.index (srIndex d.bits)).desc.sideMax < (s1.index (srIndex d.bits)).slotsUsed +
        (chunksOf (s.index (srIndex d.bits)).desc.es (srNv d.bits) bytes).length
      then .next ((s1.begun tok d).opEnd tok (cpl ST_REFUSED_FIT SRH_SIDE_FULL))
      else .next (((s1.begun tok d).setIndex (srIndex d.bits) { x with inserts := x.inserts + n }).opEnd tok
        (dropCpl n dropped (if dropped = 0 then 0 else SRH_VNUM_PRESENT)))) ∧
  (∀ (s s0 s1 : State) (tok n dropped r : Nat) (d : Desc) (ext bytes e : List Byte) (segs : List (List Seg)) (x : SrhIndex),
    s.granted tok 0x46 d [⟨srSrc d.bits, srNv d.bits * 8, 1, false⟩] s0 segs → s.srhOrdered d = true →
    (s.index (srIndex d.bits)).phase ≠ .free → (s.index (srIndex d.bits)).slice = dSlice d.bits →
    State.readSegs d (segs.headD []) ext s0 = (s1, bytes, false, e) → s1.ready tok 0x46 d →
    (s1.index (srIndex d.bits)).deleteOver (chunksOf 8 (srNv d.bits) bytes) = (x, n, dropped, r) →
    exec (.srhDelete tok ext) s = .next (((s1.begun tok d).setIndex (srIndex d.bits) { x with deletes := x.deletes + n }).opEnd tok
      (dropCpl n dropped r))) ∧
  (∀ (s : State) (tok : Nat) (d : Desc), s.ready tok 0x47 d → (s.index (srIndex d.bits)).phase ≠ .free →
    (s.index (srIndex d.bits)).slice = dSlice d.bits →
    exec (.srhMerge tok) s = .next ((s.begun tok d).setIndex (srIndex d.bits) { s.index (srIndex d.bits) with
      mergeReqs := (s.index (srIndex d.bits)).mergeReqs ++ [(tok, srNv d.bits)] })) ∧
  (∀ (x : SrhIndex) (since : Nat) (v : List Byte), entryVnum v < x.desc.vnumMax → x.present.contains (entryVnum v) = false →
    x.insertOver since [v] = ({ x with
      present := x.present ++ [entryVnum v], nextSlot := x.nextSlot + 1
      side := x.side ++ [{ slot := x.nextSlot, bytes := v, vnum := entryVnum v, since := since }] }, 1, 0)) ∧
  (∀ (x : SrhIndex) (v : List Byte), x.present.contains (entryVnum v) = true → x.tombs.has (entryVnum v) = false →
    x.tombsDue.contains (entryVnum v) = false → x.deleted ≤ 262144 →
    x.deleteOver [v] = ({ x with tombsDue := x.tombsDue ++ [entryVnum v], deleted := x.deleted + 1 }, 1, 0, 0))

/-- Queries, page reads, moves, channel failures, the fetch deadline and reductions (R266, R267, R268, R269, R417, R432, R433, R436, R445, R447, R450).
Where the rules leave a choice it is the model's own, in assumptions 60, 61. -/
def Obligations.SearchQueries : Prop :=
  (∀ (s s0 s1 s2 : State) (tok : Nat) (d : Desc) (ext bytes e : List Byte) (segs : List (List Seg)) (qs : List SrhQ) (x : SrhIndex),
    x = s.index (srIndex d.bits) → s.granted tok 0x44 d [⟨srSrc d.bits, sqNq d.bits * round64 x.desc.vb, 1, false⟩] s0 segs →
    x.phase ≠ .free → x.slice = dSlice d.bits → State.readSegs d (segs.headD []) ext s0 = (s1, bytes, false, e) →
    State.walkBatch tok x (sqBeam d.bits) (sqProbes d.bits) ((chunksOf (round64 x.desc.vb) (sqNq d.bits) bytes).map (fun v => v.take x.desc.vb)) []
      s1 = (s2, .ok qs) → s2.ready tok 0x44 d →
    exec (.srhQuery tok ext) s = .next (State.issueReads
      (((s2.begun tok d).setIndex (srIndex d.bits) { s2.index (srIndex d.bits) with
        queries := (s2.index (srIndex d.bits)).queries + sqNq d.bits }).countPages x.slice (ceilDiv x.slotsUsed x.desc.scap)) d
      { tok := tok, index := srIndex d.bits, tick := d.admitTick, k := sqK d.bits
        queries := qs.map (fun q => x.scoreFor d.admitTick (sqK d.bits) q ((x.sideAt d.admitTick).map (fun e => e.bytes))), wait := [] })) ∧
  (∀ (s u v : State) (fpa a : Nat) (j j' : SrhJob) (p : FlashPage), s.srh.jobs.filter (fun j => j.wait.any (fun w => w.1 == fpa)) = [j] →
    s.srh.passes.filter (fun m => m.leaves.any (fun l => l.old == fpa && !l.read)) = [] → s.srh.lateReads.contains fpa = false →
    s.pageAt fpa = some (a, p) → p.lost = false →
    State.countPages (s.setChan (fpaChan fpa) { s.chan (fpaChan fpa) with pagesRead := (s.chan (fpaChan fpa)).pagesRead + 1 })
      (s.index p.index).slice 1 = u →
    u.scorePage j (((j.wait.filter (fun w => w.1 == fpa)).map Prod.snd).headD 0) p.bytes = (v, j') →
    exec (.flashPageReadDone fpa false) s = .next (v.settleJob j')) ∧
  (∀ (s t : State) (j : SrhJob) (d : Desc), j.wait = [] → s.desc j.tok = some d →
    (List.zip (List.range j.queries.length) j.queries).foldl (fun (s : State) e =>
      s.fabPut j.tok d (srOut d.bits + e.1 * (16 + 16 * j.k)) (resultBlock j.k e.2))
      { s with srh := { s.srh with jobs := s.srh.jobs.filter (fun x => x.tok != j.tok) } } = t →
    s.settleJob j = t.opEnd j.tok {
      status := if j.degraded = 0 then ST_OK else ST_DEGRADED, reason := j.degraded
      done := (j.queries.map (fun q => q.scored)).foldl (· + ·) 0, dropped := (j.queries.map (fun q => q.skipped)).foldl (· + ·) 0
      result := (j.queries.map (fun q => q.unscored)).foldl (· ||| ·) 0 }) ∧
  (∀ (s t : State) (fpa f : Nat) (p : FlashPage), s.srh.pages.find fpa = some p → s.flashFree (fpaChan fpa) = some f →
    (s.srh.forwards.filter (fun w => fpaChan w.old / 16 == fpaChan fpa / 16)).length < 4096 → (s.chan (fpaChan fpa)).inService = true →
    ((s.index p.index).leaves.any (fun _ v => v == fpa) || (s.index p.index).prev.any (fun _ v => v == fpa)) = true →
    (s.setIndex p.index { s.index p.index with
        leaves := (s.index p.index).leaves.mapV (fun _ v => if v = fpa then f else v)
        prev := (s.index p.index).prev.mapV (fun _ v => if v = fpa then f else v) }) = t →
    exec (.flashPageMove fpa) s = .next (
      let u := t.setChan (fpaChan fpa) { t.chan (fpaChan fpa) with moves := (t.chan (fpaChan fpa)).moves + 1 }
      { u with srh := { u.srh with
        pages := (u.srh.pages.del fpa).put f p
        forwards := u.srh.forwards ++ [{ old := fpa, copy := f, tick := s.tick.now }]
        catalogue := u.srh.catalogue.mapV (fun _ c => { c with leaves := c.leaves.mapV (fun _ v => if v = fpa then f else v) }) } })) ∧
  (∀ (s t : State) (c : Nat) (scorer : Bool), (s.chan c).inService = true → s.srh.programs = [] → s.srh.jobs = [] →
    (s.setChan c { s.chan c with inService := false, scorerFailed := (s.chan c).scorerFailed || scorer }).setEvt F.SRH_EVT_CHANNEL_DOWN = t →
    exec (.flashChannelFailure c scorer) s = .next (t.queueFault {
      cls := 0x21, location := locChannel c
      detail := ((List.range 16).filter (fun i => (t.chan (c / 16 * 16 + i)).inService)).length })) ∧
  (∀ (s t u v : State) (j : SrhJob) (w : Nat × Nat), s.markLate = t → t.srh.jobs = [j] → j.tick ≤ t.tick.now →
    (t.index j.index).desc.deadlinePath = true → j.wait = [w] → t.lateFetch false = u →
    { u with srh := { u.srh with lateReads := (u.srh.lateReads ++ [w.1]).eraseDups } } = v →
    exec .fetchDeadline s = .next (v.settleJob (j.skip w.2 (fpaChan w.1) DL_SRH_LEAVES))) ∧
  (∀ (s s0 s1 : State) (tok : Nat) (d : Desc) (ext bytes e : List Byte) (segs : List (List Seg)),
    s.granted tok 0x48 d [⟨srSrc d.bits, rdNs d.bits * sqNq d.bits * rdIn d.bits, 1, false⟩] s0 segs →
    State.readSegs d (segs.headD []) ext s0 = (s1, bytes, false, e) → s1.ready tok 0x48 d →
    exec (.srhReduce tok ext) s =
      if (chunksOf (rdIn d.bits) (rdNs d.bits * sqNq d.bits) bytes).any (fun x => (blockEntries (sqK d.bits) x).isNone)
      then .next ((s1.begun tok d).opEnd tok (cpl ST_ABORTED SRH_OPERAND))
      else .next (((s1.begun tok d).reduceOver tok d (chunksOf (rdIn d.bits) (rdNs d.bits * sqNq d.bits) bytes)).1.opEnd tok
        { status := if ((s1.begun tok d).reduceOver tok d (chunksOf (rdIn d.bits) (rdNs d.bits * sqNq d.bits) bytes)).2 = 0
            then ST_OK else ST_DEGRADED
          reason := if ((s1.begun tok d).reduceOver tok d (chunksOf (rdIn d.bits) (rdNs d.bits * sqNq d.bits) bytes)).2 = 0
            then 0 else DL_SRH_LEAVES
          done := sqNq d.bits }))

/-- KV pools and sequences: create, destroy, sequence create, fork, free, resync and grant (R454, R456, R457, R459, R460, R462, R465, R468, R471, Table 14-3).
Where the rules leave a choice it is the model's own, in assumption 62. -/
def Obligations.KvPools : Prop :=
  (∀ (s s0 s1 u : State) (tok : Nat) (d : Desc) (ext l e : List Byte) (segs : List (List Seg)) (p : KvPool) (a b : Nat) (c : Cpl),
    s.granted tok 0x50 d [⟨dfield d.bits 16 8, 128, 1, false⟩] s0 segs → State.readSegs d (segs.headD []) ext s0 = (s1, l, false, e) →
    parsePool l = (p, a, b, true) → s1.createFails d.bits p true = some c →
    (s1.setEvt F.KVS_EVT_CREATE_REFUSED).kvError (at_ 40 (kvPoolField d.bits)) c.reason LOC_MD = u → u.ready tok 0x50 d →
    exec (.kvPoolCreate tok ext) s = .next ((u.begun tok d).opEnd tok c)) ∧
  (∀ (s s0 s1 s2 s3 u : State) (tok : Nat) (d : Desc) (ext l e : List Byte) (segs : List (List Seg)) (p : KvPool) (a b : Nat) (pg ct : List Seg),
    s.granted tok 0x50 d [⟨dfield d.bits 16 8, 128, 1, false⟩] s0 segs → State.readSegs d (segs.headD []) ext s0 = (s1, l, false, e) →
    parsePool l = (p, a, b, true) → s1.createFails d.bits p true = none →
    s1.xlateRange tok d a (p.pages * p.pageSize) 3 = (s2, .ok pg) → s2.xlateRange tok d b p.ctrlSize 3 = (s3, .ok ct) →
    s3.areaOk (dSlice d.bits) pg = true → s3.areaOk (dSlice d.bits) ct = true →
    piecesMeet (pg.map (fun x => (x.addr, x.len))) (ct.map (fun x => (x.addr, x.len))) = false →
    ((s3.setPool (kvPoolField d.bits) { p with
      slice := dSlice d.bits, key := dKeySlot d.bits, keyEpoch := dKeyEpoch d.bits, assisted := s3.assisted 3
      area := pg.map (fun x => (x.addr, x.len)), ctrl := ct.map (fun x => (x.addr, x.len)) }).setAlloc (kvPoolField d.bits) {}).setEvt
        F.KVS_EVT_POOL_CREATED = u → u.ready tok 0x50 d →
    exec (.kvPoolCreate tok ext) s = .next ((u.begun tok d).opEnd tok {})) ∧
  (∀ (s : State) (tok : Nat) (d : Desc), s.ready tok 0x51 d → (s.kvAlloc (dfield d.bits 16 1)).destroyer = some tok →
    s.rings.descs.any (fun t e => t != tok && !e.finished && (s.kvPools e.bits).contains (dfield d.bits 16 1)
      && (e.phase == .admitted || e.phase == .running || e.begun)) = false →
    exec (.kvPoolDestroy tok) s = .next ((((s.begun tok d).freePool (dfield d.bits 16 1)).setEvt F.KVS_EVT_POOL_DESTROYED).opEnd tok {})) ∧
  (∀ (s u : State) (tok n q : Nat) (d : Desc), s.kvReady tok 0x52 d → n = dfield d.bits 16 1 →
    s.poolRefuses n (dSlice d.bits) (dKeySlot d.bits) = none → s.poolSeqs n < (s.pool n).seqMax →
    firstFree (fun q => !s.kv.seqs.has q) (2 ^ 24) = some q →
    s.setSeq q { pool := n, gen := s.kv.gens.get 0 q, layers := List.replicate (s.pool n).layers {} } = u → u.ready tok 0x52 d →
    exec (.kvSeqCreate tok) s = .next ((u.begun tok d).opEnd tok { result := kvReference n (s.kv.gens.get 0 q) q })) ∧
  (∀ (s u : State) (tok n c : Nat) (d : Desc) (q : KvSeq) (layers : List KvLayer), s.kvReady tok 0x56 d → n = rfPool (kvRef d.bits) →
    s.refRefuses (kvRef d.bits) (dSlice d.bits) (dKeySlot d.bits) false = none → s.kvSeq (rfSeq (kvRef d.bits)) = some q →
    q.resync = false → q.remote = false → s.poolSeqs n < (s.pool n).seqMax →
    layers = q.layers.map (forkLayer (s.pool n).perPage (kvCount d.bits)) →
    (layers.flatMap (fun l => l.pages)).any (fun pg => decide (65535 ≤ (s.kvAlloc n).counts.get 0 pg)) = false →
    firstFree (fun q => !s.kv.seqs.has q) (2 ^ 24) = some c →
    (s.setAlloc n ((layers.flatMap (fun l => l.pages)).foldl KvAlloc.raise (s.kvAlloc n))).setSeq c
      { pool := n, gen := s.kv.gens.get 0 c, layers := layers } = u → u.ready tok 0x56 d →
    exec (.kvFork tok) s = .next ((u.begun tok d).opEnd tok { result := kvReference n (s.kv.gens.get 0 c) c })) ∧
  (∀ (s u : State) (tok : Nat) (d : Desc) (q : KvSeq), s.kvReady tok 0x57 d →
    s.refRefuses (kvRef d.bits) (dSlice d.bits) (dKeySlot d.bits) false = none → s.kvSeq (rfSeq (kvRef d.bits)) = some q →
    (s.setAlloc q.pool (q.pagesOf.foldl KvAlloc.lower (s.kvAlloc q.pool))).setSeq (rfSeq (kvRef d.bits)) { q with freeing := true } = u →
    State.ready { u with kv := { u.kv with freeing := u.kv.freeing ++ [rfSeq (kvRef d.bits)] } } tok 0x57 d →
    exec (.kvFree tok) s = .next ((State.begun { u with kv := { u.kv with freeing := u.kv.freeing ++ [rfSeq (kvRef d.bits)] } } tok d).opEnd tok {})) ∧
  (∀ (s : State) (tok : Nat) (d : Desc) (q : KvSeq), s.kvReady tok 0x59 d →
    s.refRefuses (kvRef d.bits) (dSlice d.bits) (dKeySlot d.bits) true = none → s.kvSeq (rfSeq (kvRef d.bits)) = some q →
    (q.resync = false ∨ (s.kvAlloc q.pool).rollback = []) → (s.setSeq (rfSeq (kvRef d.bits)) { q with resync := false }).ready tok 0x59 d →
    exec (.kvResync tok) s = .next (((s.setSeq (rfSeq (kvRef d.bits)) { q with resync := false }).begun tok d).opEnd tok
      { result := (s.kvLayer (kvRef d.bits)).len })) ∧
  (∀ (s s1 t u : State) (tok : Nat) (d : Desc) (ext l e : List Byte) (segs : List (List Seg)) (poison ok : Bool), s.kvReady tok 0x5A d →
    s.granted tok 0x5A d [⟨dfield d.bits 24 8, 4 * dfield d.bits 18 2, 1, false⟩] s1 segs →
    s.poolRefuses (dfield d.bits 16 1) (dSlice d.bits) (dKeySlot d.bits) = none → (s.pool (dfield d.bits 16 1)).assisted = true →
    State.readSegs d (segs.headD []) ext (s1.begun tok d) = (t, l, poison, e) →
    t.grantOver (dfield d.bits 16 1) (dfield d.bits 18 2) l = (u, ok) →
    exec (.kvGrant tok ext) s = .next (u.opEnd tok (if ok then {} else cpl ST_PARTIAL KV_GRANT_BAD))) ∧
  (∀ (s : State) (n pg : Nat), pg < (s.pool n).pages → s.pageUsed n pg = false → (s.kvAlloc n).grants.contains pg = false →
    (s.kvAlloc n).grants.length < 4096 →
    s.grantPage n pg = (s.setAlloc n { s.kvAlloc n with grants := (s.kvAlloc n).grants ++ [pg] }, true))

/-- KV appends and their commits, reads, attention, and moves (R334, R456, R461, R462, R464, R465, R469, R470, R472, R474).
Where the rules leave a choice it is the model's own, in assumptions 11, 62, 63. -/
def Obligations.KvAccesses : Prop :=
  (∀ (s s1 s2 x t u : State) (tok n new : Nat) (copy poison : Bool) (taken pages : List Nat) (d : Desc) (q : KvSeq) (segs : List (List Seg)) (bytes e : List Byte),
    s.kvReady tok 0x53 d → n = rfPool (kvRef d.bits) →
    s.refRefuses (kvRef d.bits) (dSlice d.bits) (dKeySlot d.bits) true = none → s.kvSeq (rfSeq (kvRef d.bits)) = some q →
    q.resync = false → q.remote = false → s.reqsOn n < 4096 → (s.kvLayer (kvRef d.bits)).len + kvCount d.bits ≤ (s.pool n).maxTokens →
    s.appendNeeds n (s.kvLayer (kvRef d.bits)) (kvCount d.bits) = (copy, new) →
    s.takeLocal n (new + boolNat copy) = some (taken, s1) →
    s.acquire tok d [⟨dfield d.bits 32 8, kvCount d.bits * (s.pool n).tokenSize, 1, false⟩] = .ready s2 segs →
    (segs.headD []).any (fun x => x.host) = false → s2.setAlloc n (s1.kvAlloc n) = x → x.ready tok 0x53 d →
    State.readSegs d (segs.headD []) [] (x.begun tok d) = (t, bytes, poison, e) →
    pages = (if copy then (s.kvLayer (kvRef d.bits)).pages.take (ceilDiv (s.kvLayer (kvRef d.bits)).len (s.pool n).perPage - 1) ++ taken.take 1
      else (s.kvLayer (kvRef d.bits)).pages) ++ taken.drop (boolNat copy) →
    { t with kv := { t.kv with
      reqs := t.kv.reqs ++ [{
        tok := tok, pool := n, seq := rfSeq (kvRef d.bits), layer := rfLayer (kvRef d.bits)
        newLen := (s.kvLayer (kvRef d.bits)).len + kvCount d.bits
        copy := if copy then some ((s.kvLayer (kvRef d.bits)).pages.getD (ceilDiv (s.kvLayer (kvRef d.bits)).len (s.pool n).perPage - 1) 0,
          taken.headD 0) else none
        taken := taken, poison := poison }]
      cowCopies := t.kv.cowCopies + boolNat copy } } = u →
    exec (.kvAppend tok) s = .next ((if copy then u.copyKvPage tok n
        ((s.kvLayer (kvRef d.bits)).pages.getD (ceilDiv (s.kvLayer (kvRef d.bits)).len (s.pool n).perPage - 1) 0) (taken.headD 0) else u).writeTokens
      tok n (s.kvLayer (kvRef d.bits)).len (kvCount d.bits) pages bytes
      ((x.begun tok d).badOffsets 0 ((segs.headD []).map (fun x => (x.addr, x.len)))))) ∧
  (∀ (s : State) (tok : Nat) (r : KvReq) (d : Desc), s.kv.reqs.find? (fun r => r.tok == tok) = some r → s.desc tok = some d →
    (∀ lost, exec (.kvCommit tok lost true) s = .next (s.failPool r.pool)) ∧
    (s.ctrlBad r.pool = false → exec (.kvCommit tok true false) s = .next (s.kvLost tok r)) ∧
    (s.ctrlBad r.pool = false → d.awaiting ≤ 1 → d.cpl.status = ST_OK → r.poison = false →
      exec (.kvCommit tok false false) s = .next ((s.kvCommit r).opEnd tok {})) ∧
    (s.ctrlBad r.pool = false → d.awaiting ≤ 1 → d.cpl.status = ST_OK → r.poison = true →
      exec (.kvCommit tok false false) s = .next ((State.setEvt { s.kvCommit r with kv := { (s.kvCommit r).kv with
        poisoned := (s.kvCommit r).kv.poisoned + 1 } } F.KVS_EVT_POISON).opEnd tok (cpl ST_POISONED KV_POISON)))) ∧
  (∀ (s t : State) (r : KvReq) (q : KvSeq), s.kvSeq r.seq = some q → r.moves = [] → r.newLen ≠ 0 → r.copy = none →
    (State.setSeq (State.setAlloc { s with kv := { s.kv with reqs := s.kv.reqs.filter (fun x => x.tok != r.tok) } } r.pool
      (r.taken.foldl KvAlloc.raise (s.kvAlloc r.pool))) r.seq { q with
        layers := q.layers.set r.layer { len := r.newLen, pages := (q.layers.getD r.layer {}).pages ++ r.taken } }) = t →
    s.kvCommit r = { t with kv := { t.kv with
      appends := t.kv.appends + 1, tokens := t.kv.tokens + (r.newLen - (q.layers.getD r.layer {}).len) } }) ∧
  (∀ (s s1 s2 t : State) (tok n : Nat) (d : Desc) (poison : Bool) (runs : List (Nat × Nat × Nat × Nat)), s.kvReady tok 0x54 d →
    n = rfPool (kvRef d.bits) →
    s.refRefuses (kvRef d.bits) (dSlice d.bits) (dKeySlot d.bits) true = none →
    kvCount d.bits + dfield d.bits 28 4 ≤ (s.kvLayer (kvRef d.bits)).len →
    (s.isSelf (dfield d.bits 32 8) = true → s.creditBarred d = false) →
    runs = (s.pool n).runsOf (kvCount d.bits) (dfield d.bits 28 4) →
    s.engineReady tok ((s.pool n).readRanges (s.kvLayer (kvRef d.bits)) runs) = (s1, true) →
    runs.foldl (fun (s2 : State) r => s2.readPage n ((s.kvLayer (kvRef d.bits)).pages.getD r.1 0)) s1 = s2 → s2.ready tok 0x54 d →
    (s2.begun tok d).kvReadOver tok d (s.pool n) (s.kvLayer (kvRef d.bits)) (dfield d.bits 28 4) (dfield d.bits 32 8) runs = (t, poison) →
    exec (.kvRead tok) s = .next (t.opEnd tok (if poison then cpl ST_POISONED 0 else {}))) ∧
  (∀ (s : State) (tok k : Nat) (l : List Nat) (d : Desc) (q : KvSeq), s.kvReady tok 0x55 d →
    s.refRefuses (kvRef d.bits) (dSlice d.bits) (dKeySlot d.bits) true = none → s.kvSeq (rfSeq (kvRef d.bits)) = some q →
    q.remote = false → s.creditBarred d = false → d.uses = k :: l →
    exec (.kvAttend tok) s = .next ((s.begun tok d).beginRun tok {
      slot := none, first := 0, places := [{ die := k / 16, region := k / 4 % 4, clusters := 2 ^ (k % 4) }]
      ops := [attendOp d.bits (s.pool (rfPool (kvRef d.bits))) k]
      bases := [dfield d.bits 24 8, dfield d.bits 32 8, kvRef d.bits] })) ∧
  (∀ (s s1 s2 x : State) (tok n : Nat) (out : Bool) (taken : List Nat) (d : Desc) (q : KvSeq) (pairs : List ((Nat × Nat × Nat) × Nat)),
    s.kvReady tok 0x58 d → n = rfPool (kvRef d.bits) → out = (dfield d.bits 24 1 == 0) →
    s.refRefuses (kvRef d.bits) (dSlice d.bits) (dKeySlot d.bits) false = none → s.kvSeq (rfSeq (kvRef d.bits)) = some q →
    q.resync = false → s.reqsOn n < 4096 → (s.movePages n q out).length ≤ dfield d.bits 28 4 →
    (if out then s.takeOverflow n (s.movePages n q out).length else s.takeLocal n (s.movePages n q out).length) = some (taken, s1) →
    pairs = List.zip (s.movePages n q out) taken → s.engineReady tok ((s.pool n).moveRanges out pairs) = (s2, true) →
    s2.setAlloc n (s1.kvAlloc n) = x → x.ready tok 0x58 d →
    exec (.kvMove tok) s = .next (State.kvMoveOver { x.begun tok d with kv := { x.kv with
      reqs := x.kv.reqs ++ [{
        tok := tok, pool := n, seq := rfSeq (kvRef d.bits), layer := 0, newLen := 0, taken := taken
        moves := pairs.map (fun e => (e.1.1, e.1.2.1, e.2)) }] } } tok d (s.pool n) out pairs))

/-- Queues: create, push and its commit, pop, flush, mark, rewind, release, destroy (R479, R480, R481, R482, R483, R484, R486, R487, R488, R489, Table 15-2, Table 15-4).
Where the rules leave a choice it is the model's own, in assumptions 11, 12, 64. -/
def Obligations.QueueRequests : Prop :=
  (∀ (s s1 s2 u : State) (tok : Nat) (d : Desc) (sp mi : List Seg), s.ready tok 0x60 d → qcFormatOk d.bits = true →
    (s.queue (qNum d.bits)).phase = .free → s.xlateRange tok d (qAddr d.bits) (dfield d.bits 32 8) 3 = (s1, .ok sp) →
    (if dfield d.bits 40 8 = 0 then (s1, .ok []) else s1.xlateRange tok d (dfield d.bits 40 8) 8 3) = (s2, .ok mi) →
    s2.areaOk (dSlice d.bits) sp = true → s2.areaOk (dSlice d.bits) mi = true →
    piecesMeet (sp.map (fun x => (x.addr, x.len))) (mi.map (fun x => (x.addr, x.len))) = false →
    (s2.setQueue (qNum d.bits) {
      phase := .live, slice := dSlice d.bits, key := dKeySlot d.bits, keyEpoch := dKeyEpoch d.bits, retain := d.bits.getLsbD 144
      maxItem := dfield d.bits 20 4, cap := dfield d.bits 32 8, spill := sp.map (fun x => (x.addr, x.len))
      mirror := mi.map (fun x => (x.addr, x.len)) }).setEvt F.QUE_EVT_CREATED = u → u.ready tok 0x60 d →
    exec (.qCreate tok) s = .next ((u.begun tok d).opEnd tok {})) ∧
  (∀ (s u : State) (tok r : Nat) (d : Desc), s.ready tok 0x60 d →
    (qcFormatOk d.bits = false ∧ r = Q_FORMAT ∨ qcFormatOk d.bits = true ∧ (s.queue (qNum d.bits)).phase ≠ .free ∧ r = Q_SLOT) →
    (s.setEvt F.QUE_EVT_CREATE_REFUSED).setQue (fun e => { e with
      lastError := (qNum d.bits, r, LOC_MD, s.tick.now % 2 ^ 32) }) = u → u.ready tok 0x60 d →
    exec (.qCreate tok) s = .next ((u.begun tok d).opEnd tok (cpl ST_REFUSED_FIT r))) ∧
  (∀ (s u : State) (tok : Nat) (ext : List Byte) (d : Desc) (q : Queue), s.queReady tok 0x62 d q →
    q.cap - q.used < itemSize (qLen d.bits) → (s.setQueue (qNum d.bits) { q with full := q.full + 1 }).setEvt F.QUE_EVT_FULL = u →
    u.ready tok 0x62 d → exec (.qPush tok ext) s = .next ((u.begun tok d).opEnd tok (cpl ST_ABORTED Q_FULL))) ∧
  (∀ (s s1 s2 t : State) (tok : Nat) (ext data : List Byte) (d : Desc) (q : Queue) (segs : List (List Seg)) (poison : Bool),
    s.queReady tok 0x62 d q → itemSize (qLen d.bits) ≤ q.cap - q.used →
    s.acquire tok d (if qInline d.bits then [] else [⟨qAddr d.bits, qLen d.bits, 1, false⟩]) = .ready s1 segs →
    s1.engineReady tok ((q.pieces q.tail (itemSize (qLen d.bits))).map (fun p => (p.1, p.2, true))) = (s2, true) →
    s2.ready tok 0x62 d → (s2.begun tok d).pushSource d (segs.headD []) ext = (t, data, poison) →
    exec (.qPush tok ext) s = .next (t.pushOver tok d q
      (s2.badOffsets 0 (((segs.headD []).filter (fun x => !x.host)).map (fun x => (x.addr, x.len)))) data poison)) ∧
  (∀ (s : State) (tok : Nat) (data : List Byte) (bad : List (Nat × Nat)) (d : Desc) (q : Queue),
    s.pushOver tok d q bad data false = State.writeKeyed tok q.key q.keyEpoch none (q.pieces q.tail (itemSize (qLen d.bits)))
      (leBytes 4 (qLen d.bits) ++ leBytes 4 q.nextSeq ++ data ++ zeros (itemSize (qLen d.bits) - 8 - qLen d.bits))
      (s.setQueue (qNum d.bits) { q with
        items := q.items ++ [{ iseq := q.nextSeq, len := qLen d.bits, pos := q.tail, push := some tok }]
        nextSeq := q.nextSeq + 1, tail := q.tail + itemSize (qLen d.bits) })) ∧
  (∀ (s : State) (tok : Nat) (d : Desc) (i : QItem), s.desc tok = some d → dOpcode d.bits = 0x62 → d.awaiting ≤ 1 →
    (s.queue (qNum d.bits)).items.find? (fun i => i.push == some tok) = some i →
    (s.queue (qNum d.bits)).items.any (fun x => x.push.isSome && decide (x.iseq < i.iseq)) = false →
    exec (.queueItemCommit tok) s = .next (if d.cpl.status ≠ ST_OK then s.pushStop tok d.cpl else
      ((s.putQueue (qNum d.bits) { s.queue (qNum d.bits) with
        items := (s.queue (qNum d.bits)).items.map (fun x => if x.iseq = i.iseq then { x with push := none } else x)
        pushed := (s.queue (qNum d.bits)).pushed + 1 }).setQue (fun e => { e with
          poisonedPushes := e.poisonedPushes.filter (fun t => t != tok) })).opEnd tok
        (if (s.putQueue (qNum d.bits) { s.queue (qNum d.bits) with
          items := (s.queue (qNum d.bits)).items.map (fun x => if x.iseq = i.iseq then { x with push := none } else x)
          pushed := (s.queue (qNum d.bits)).pushed + 1 }).que.poisonedPushes.contains tok then cpl ST_POISONED 0 else {}))) ∧
  (∀ (s : State) (tok : Nat) (d : Desc) (q : Queue) (i : QItem) (l : List QItem), s.queReady tok 0x63 d q → q.ready = i :: l →
    takeItems (qMaxItems d.bits) (qMaxBytes d.bits) (i :: l) = [] →
    exec (.qPop tok) s = .next ((s.begun tok d).opEnd tok { status := ST_REFUSED_FIT, reason := Q_POP_SMALL, result := i.size })) ∧
  (∀ (s s1 t u : State) (tok : Nat) (d : Desc) (q : Queue) (got : List QItem) (bytes : List Byte), s.queReady tok 0x63 d q →
    takeItems (qMaxItems d.bits) (qMaxBytes d.bits) q.ready = got → (got = [] → q.ready = []) →
    s.engineReady tok ((q.itemRanges got).map (fun p => (p.1, p.2, false))) = (s1, true) → s1.ready tok 0x63 d →
    State.readKeyed q.key q.keyEpoch (q.itemRanges got) (s1.begun tok d) = (t, bytes, false) →
    ((t.putQueue (qNum d.bits) (q.take got)).fabPutLines tok d (qAddr d.bits) bytes (fun _ => false)).setQue (fun e => { e with
      pops := { tok := tok, queue := qNum d.bits, items := itemPlaces got } :: e.pops.filter (fun p =>
        (((t.putQueue (qNum d.bits) (q.take got)).fabPutLines tok d (qAddr d.bits) bytes (fun _ => false)).desc p.tok).isSome &&
          p.tok != tok) }) = u →
    exec (.qPop tok) s = .next (u.opEnd tok { done := got.length, result := bytes.length + at_ 32 (q.take got).count })) ∧
  (∀ (s u : State) (tok : Nat) (d : Desc), s.ready tok 0x64 d → s.queueLost d.bits = false → s.queueServes d.bits = true →
    (s.emptyQueue (qNum d.bits) (cpl ST_ABORTED Q_FLUSHED)).setEvt F.QUE_EVT_FLUSHED = u → u.ready tok 0x64 d →
    exec (.qFlush tok) s = .next ((u.begun tok d).opEnd tok {})) ∧
  (∀ (s : State) (tok : Nat) (d : Desc) (q : Queue), q.retain = false →
    (s.queReady tok 0x65 d q → exec (.qMark tok) s = .next ((s.begun tok d).opEnd tok (cpl ST_PERMISSION Q_MODE))) ∧
    (s.queReady tok 0x66 d q → exec (.qRewind tok) s = .next ((s.begun tok d).opEnd tok (cpl ST_PERMISSION Q_MODE))) ∧
    (s.queReady tok 0x67 d q → exec (.qRelease tok) s = .next ((s.begun tok d).opEnd tok (cpl ST_PERMISSION Q_MODE)))) ∧
  (∀ (s u : State) (tok : Nat) (d : Desc) (q : Queue), s.queReady tok 0x65 d q → q.retain = true →
    s.putQueue (qNum d.bits) { q with marks := q.marks.put (qMark d.bits) q.read } = u → u.ready tok 0x65 d →
    exec (.qMark tok) s = .next ((u.begun tok d).opEnd tok {})) ∧
  (∀ (s u : State) (tok : Nat) (d : Desc) (q : Queue) (p : Nat × Nat), s.queReady tok 0x66 d q → q.retain = true →
    q.markAt (qMark d.bits) = some p → s.putQueue (qNum d.bits) { q with read := p } = u → u.ready tok 0x66 d →
    exec (.qRewind tok) s = .next ((u.begun tok d).opEnd tok {})) ∧
  (∀ (s u : State) (tok : Nat) (d : Desc) (q : Queue) (p : Nat × Nat), s.queReady tok 0x67 d q → q.retain = true →
    q.markAt (qMark d.bits) = some p →
    s.putQueue (qNum d.bits) { q with
      items := q.items.filter (fun i => decide (p.1 ≤ i.iseq)), marks := q.marks.keep (fun _ m => decide (p.1 ≤ m.1))
      read := if q.read.1 < p.1 then p else q.read } = u → u.ready tok 0x67 d →
    exec (.qRelease tok) s = .next ((u.begun tok d).opEnd tok {})) ∧
  (∀ (s : State) (tok : Nat) (d : Desc) (q : Queue), q.retain = true → q.markAt (qMark d.bits) = none →
    (s.queReady tok 0x66 d q → exec (.qRewind tok) s = .next ((s.begun tok d).opEnd tok (cpl ST_ABORTED Q_MARK_GONE))) ∧
    (s.queReady tok 0x67 d q → exec (.qRelease tok) s = .next ((s.begun tok d).opEnd tok (cpl ST_ABORTED Q_MARK_GONE)))) ∧
  (∀ (s : State) (tok : Nat) (d : Desc), s.ready tok 0x61 d → (s.queue (qNum d.bits)).destroyer = some tok →
    s.queueBusy (qNum d.bits) = false →
    exec (.qDestroy tok) s = .next ((((s.begun tok d).freeQueue (qNum d.bits)).setEvt F.QUE_EVT_DESTROYED).opEnd tok {}))

/-- UNLOAD_DRAIN_COMPLETE frees the object whose operations have completed (R347, R358, R431, R459, R489).
Where the rules leave a choice it is the model's own, in assumption 8. -/
def Obligations.DrainedUnloads : Prop :=
  ∀ (s : State) (tok : Nat) (d : Desc),
    (s.ready tok 0x32 d → (s.prog (trHandle d.bits % 256)).unloader = some tok →
      s.rings.descs.any (fun _ e => dOpcode e.bits == 0x31 && trHandle e.bits % 256 == trHandle d.bits % 256 && !e.finished
        && (e.phase == .admitted || e.phase == .running)) = false →
      exec (.unloadDrainComplete tok) s = .next ((((s.begun tok d).setProg (trHandle d.bits % 256)
        (s.prog (trHandle d.bits % 256)).release).setEvt F.MTX_EVT_UNLOADED).opEnd tok {})) ∧
    (s.ready tok 0x21 d → (s.table (dfield d.bits 16 2)).unloader = some tok → s.tableBusy (dfield d.bits 16 2) = false →
      exec (.unloadDrainComplete tok) s =
        .next ((((s.begun tok d).freeTable (dfield d.bits 16 2)).setEvt F.EMB_EVT_UNLOADED).opEnd tok {})) ∧
    (s.ready tok 0x41 d → (s.index (srIndex d.bits)).unloader = some tok → s.indexBusy (srIndex d.bits) = false →
      exec (.unloadDrainComplete tok) s =
        .next ((((s.begun tok d).freeIndex (srIndex d.bits)).setEvt F.SRH_EVT_UNLOADED).opEnd tok {})) ∧
    (s.ready tok 0x51 d → (s.kvAlloc (dfield d.bits 16 1)).destroyer = some tok →
      s.rings.descs.any (fun t e => t != tok && !e.finished && (s.kvPools e.bits).contains (dfield d.bits 16 1)
        && (e.phase == .admitted || e.phase == .running || e.begun)) = false →
      exec (.unloadDrainComplete tok) s =
        .next ((((s.begun tok d).freePool (dfield d.bits 16 1)).setEvt F.KVS_EVT_POOL_DESTROYED).opEnd tok {})) ∧
    (s.ready tok 0x61 d → (s.queue (qNum d.bits)).destroyer = some tok → s.queueBusy (qNum d.bits) = false →
      exec (.unloadDrainComplete tok) s =
        .next ((((s.begun tok d).freeQueue (qNum d.bits)).setEvt F.QUE_EVT_DESTROYED).opEnd tok {}))

/-- Ring pairs and fabric queues: enable, disable, doorbells, fetch, completion, moderation (R496, R497, R498, R499, R500, R501, R509, R511, R586, Table 16-14).
Where the rules leave a choice it is the model's own, in assumptions 13, 14, 65. -/
def Obligations.RingsAndQueues : Prop :=
  (∀ (s g : State) (path cycle n : Nat) (v : Word), s.pairReady path Reg.HIF_RING_CTRL v cycle → g = s.setGuard path none →
    n = s.fld F.HIF_RING_SEL_RING →
    (bitOf v 0 = true → (s.ring n).state = .disabled → s.ringConfigOk n = true → s.ringConfOk = true →
      exec (.ringEnable path (~~~v) cycle) s = .next (g.setRing n { s.ring n with
        state := .active, sqHead := 0, sqTail := 0, cqHead := 0, cqTail := 0, cqUsed := 0, phase := true, sinceMsg := 0
        modArmed := false })) ∧
    (bitOf v 0 = true → (s.ring n).state = .disabled → (s.ringConfigOk n && s.ringConfOk) = false →
      exec (.ringEnable path (~~~v) cycle) s = .next (((g.setWord Reg.HIF_RING_ERR (BitVec.ofNat 32 (RING_CONFIG + at_ 16 n))).setEvt
        F.HIF_RING_EVT_CONFIG_REFUSED).logReject B_HIF Reg.HIF_RING_CTRL v REG_STATE path)) ∧
    (bitOf v 0 = true → (s.ring n).state ≠ .disabled → exec (.ringEnable path (~~~v) cycle) s = .next g) ∧
    (bitOf v 0 = false → exec (.ringDisable path (~~~v) cycle) s = .next (
      if (s.ring n).state = .active ∨ (s.ring n).state = .error then
        (g.setRing n { s.ring n with state := .stopping }).ringStopCheck n else g))) ∧
  (∀ (s g : State) (path cycle n : Nat) (v : Word), s.pairReady path Reg.FAB_SUBQ_CTRL v cycle → g = s.setGuard path none →
    n = s.fld F.FAB_SUBQ_SEL_QUEUE →
    (bitOf v 0 = true → (s.subq n).state = .disabled → s.subqConfigOk n = true →
      exec (.subqEnable path (~~~v) cycle) s = .next (g.setSubq n { s.subq n with
        state := .active, queue := [], cqHead := 0, cqTail := 0, cqUsed := 0, phase := true })) ∧
    (bitOf v 0 = true → (s.subq n).state = .disabled → s.subqConfigOk n = false →
      exec (.subqEnable path (~~~v) cycle) s =
        .next ((g.setEvt F.FAB_SUBQ_EVT_CONFIG_REFUSED).logReject B_FAB Reg.FAB_SUBQ_CTRL v REG_STATE path)) ∧
    (bitOf v 0 = true → (s.subq n).state ≠ .disabled → exec (.subqEnable path (~~~v) cycle) s = .next g) ∧
    (bitOf v 0 = false → exec (.subqDisable path (~~~v) cycle) s = .next (
      if (s.subq n).state = .active ∨ (s.subq n).state = .error then
        (g.setSubq n { s.subq n with state := .stopping }).subqStopCheck n else g))) ∧
  (∀ (s : State) (port n value : Nat),
    exec (.sqTailDoorbell port n value) s = .next (
      if rgPort (s.ring n).record = port ∧ (s.ring n).state = .active then
        if value % 65536 < 2 ^ rgSqLog (s.ring n).record then s.setRing n { s.ring n with sqTail := value % 65536 }
        else s.ringError n DOORBELL_RANGE
      else s.logReject B_HIF (n * 4096) (BitVec.ofNat 32 value) REG_STATE port)) ∧
  (∀ (s u : State) (port n value size freed : Nat), size = 2 ^ rgCqLog (s.ring n).record →
    freed = (value % 65536 + size - (s.ring n).cqHead) % size →
    u = s.setRing n { s.ring n with cqHead := value % 65536, cqUsed := (s.ring n).cqUsed - freed } →
    exec (.cqHeadDoorbell port n value) s = .next (
      if rgPort (s.ring n).record = port ∧ (s.ring n).state = .active then
        if value % 65536 < size ∧ freed ≤ (s.ring n).cqUsed then
          if rgAssist (s.ring n).record then u.drainAssist n else u
        else s.ringError n DOORBELL_CQ
      else s.logReject B_HIF (n * 4096 + 4) (BitVec.ofNat 32 value) REG_STATE port)) ∧
  (∀ (s : State) (n : Nat) (bits : DescBits), (s.ring n).state = .active → (s.ring n).sqHead ≠ (s.ring n).sqTail → 0 < s.ringRoom n →
    exec (.descriptorFetchDone n true bits) s = .next ((s.setRing n { s.ring n with
      sqHead := ((s.ring n).sqHead + 1) % 2 ^ rgSqLog (s.ring n).record }).arrive (.ring n) bits) ∧
    exec (.descriptorFetchDone n false bits) s = .next (s.ringError n FETCH_ERROR)) ∧
  (∀ (s u : State) (tok : Nat) (ok : Bool) (d : Desc), s.desc tok = some d → d.finished = true → s.mustWait tok d = false →
    d.gone = false → u = { s.dropDesc tok with
      rings := { (s.dropDesc tok).rings with past := (d.src.code, dSeq d.bits, d.index) :: (s.dropDesc tok).rings.past } } →
    (∀ n, d.src = .ring n → exec (.descriptorComplete tok ok) s = .next (u.completeRing n d ok)) ∧
    (∀ n, d.src = .subq n → exec (.descriptorComplete tok ok) s = .next (u.completeSubq n d))) ∧
  (∀ (s u : State) (n : Nat) (d : Desc), rgAssist (s.ring n).record = false →
    (s.emit (.hostWrite (rgPort (s.ring n).record) (rgCqBase (s.ring n).record + (s.ring n).cqTail * 32)
      (complBytes d (s.ring n).phase))).setRing n { (s.ring n).advanceCq with completions := (s.ring n).completions + 1 } = u →
    s.completeRing n d true = (State.signal { u with rings := { u.rings with
      posted := u.rings.posted.updD 0 (Src.ring n).code (fun m => m ||| 2 ^ rgPort (s.ring n).record) } } n (dIrqNow d.bits)).ringStopCheck n) ∧
  (∀ (s : State) (n : Nat), (s.ring n).modArmed = true → 0 < (s.ring n).sinceMsg →
    exec (.msixModerationTimer n) s = .next ((s.setRing n { s.ring n with sinceMsg := 0, modArmed := false }).sendMsix
      (rgPort (s.ring n).record) (rgMsix (s.ring n).record)))

/-- A descriptor arrives: refused at once, or a candidate (R53, R54, R55, R504, Table 16-2).
Where the rules leave a choice it is the model's own, in assumptions 34, 65. -/
def Obligations.DescriptorArrival : Prop :=
  ∀ (s u : State) (src : Src) (bits : DescBits) (d : Desc),
    d = { bits := bits, src := src, index := s.rings.arrivals.get 0 src.code, arrived := s.tick.now, phase := .waiting,
          requested := s.requestedTick (dTarget bits) } →
    u = { s with rings := { s.rings with
      nextTok := s.rings.nextTok + 1
      arrivals := s.rings.arrivals.put src.code (s.rings.arrivals.get 0 src.code + 1) } } →
    (∀ c, u.arrivalCheck d = some c → s.arrive src bits = u.setDesc s.rings.nextTok
      { d with phase := .finished, cpl := c, admitTick := s.tick.now, doneTick := s.tick.now, delay := 0 }) ∧
    (u.arrivalCheck d = none → opKind (dOpcode bits) ≠ some .t → s.arrive src bits = u.setDesc s.rings.nextTok d) ∧
    (∀ x st r, u.arrivalCheck d = none → opKind (dOpcode bits) = some .t → x = u.withPath { d with cost := opCost d u } →
      u.admissionCheck x = some (st, r) →
      s.arrive src bits = (u.setDesc s.rings.nextTok (x.endNow s.tick.now (cpl st r))).stats (dSlice bits)
        (fun x => { x with refused := x.refused + 1 })) ∧
    (∀ x, u.arrivalCheck d = none → opKind (dOpcode bits) = some .t → x = u.withPath { d with cost := opCost d u } →
      u.admissionCheck x = none → s.arrive src bits = u.setDesc s.rings.nextTok x)

/-- NOP, ABORT, FENCE, WAIT_COUNTER, SET_FLAG, COUNTER_SET, ADMIT_WEIGHTS, HIF_FN_MODE (R105, R115, R117, R120, R122, R123, R124, R502, R513, R519, R522).
Where the rules leave a choice it is the model's own, in assumptions 36, 67. -/
def Obligations.ControlDescriptors : Prop :=
  (∀ (s : State) (tok : Nat) (d : Desc), s.ready tok 0x00 d → exec (.nop tok) s = .next ((s.begun tok d).opEnd tok {})) ∧
  (∀ (s : State) (tok : Nat) (d : Desc), s.ready tok 0x02 d → exec (.fence tok) s = .next (s.begun tok d)) ∧
  (∀ (s : State) (tok : Nat) (d : Desc), s.ready tok 0x03 d → exec (.waitCounter tok) s = .next (s.begun tok d)) ∧
  (∀ (s : State) (tok : Nat) (d : Desc), s.desc tok = some d → dOpcode d.bits = 0x02 → d.begun = true → d.finished = false →
    s.rings.descs.any (fun k e => decide (k < tok) && e.src == d.src) = false →
    exec (.fenceComplete tok) s = .next ((if dfield d.bits 16 1 = 2 then s.flushReads d.src else s).opEnd tok {})) ∧
  (∀ (s : State) (tok : Nat) (d : Desc), s.ready tok 0x01 d → (s.begun tok d).liveTarget tok d = none →
    exec (.abort tok) s = .next ((s.begun tok d).opEnd tok (cpl ST_ALREADY_DONE
      (if (s.begun tok d).pastTarget d = none then ABORT_NO_TARGET else 0)))) ∧
  (∀ (s u : State) (tok t i : Nat) (d x : Desc), s.ready tok 0x01 d → (s.begun tok d).liveTarget tok d = some (t, i) →
    (∀ j, (s.begun tok d).pastTarget d = some j → j ≤ i) → (s.begun tok d).abortAfter tok t = u → u.desc t = some x →
    exec (.abort tok) s = .next (if u.abortStops t x = true then (u.stopWork t (cpl ST_ABORTED ABORT_REQUESTED)).opEnd tok {}
      else u.opEnd tok (cpl ST_ALREADY_DONE 0))) ∧
  (∀ (s u : State) (tok : Nat) (d : Desc) (c : Option Cpl), s.ready tok 0x04 d →
    s.rings.descs.any (fun k e => decide (k < tok) && e.src == d.src && !e.finished) = false →
    (s.begun tok d).storeFlag tok d (dfield d.bits 16 8) (leBytes 8 (dfield d.bits 24 8)) = (u, c) →
    exec (.setFlag tok) s = .next (match c with | some c => u.opEnd tok c | none => u)) ∧
  (∀ (s : State) (tok addr : Nat) (d : Desc) (bytes : List Byte), ¬ (faDevice addr = s.fld F.FAB_DEVID_DEVID ∧ s.fab.devidSet = true) →
    s.storeFlag tok d addr bytes = (s.originateFor tok
      { type := T_FLAGGED_STORE, dest := 0xC000 + faDevice addr, addr := addr, length := bytes.length,
        segLen := bytes.length, data := bytes, credit := dCredit d.bits, counter := dCounter d.bits,
        key := s.keyField (dKeySlot d.bits) }, some {})) ∧
  (∀ (s : State) (tok : Nat) (d : Desc), s.ready tok 0x05 d →
    exec (.counterSet tok) s = .next (((s.begun tok d).updateCounter (dCounter d.bits) (fun c => { c with
      value := if d.bits.getLsbD 321 then c.value else dfield d.bits 16 8
      threshold := dfield d.bits 24 8, notify := dfield d.bits 32 8, notifyEn := d.bits.getLsbD 320 })).opEnd tok {})) ∧
  (∀ (s : State) (tok n w r : Nat) (d : Desc), s.ready tok 0xF2 d → s.assisted 2 = true → d.src = .ring r →
    rgPort (s.ring r).record = s.fld F.HIF_FN_MODE_PORT → n = dfield d.bits 16 1 → w = dfield d.bits 17 1 →
    exec (.admitWeights tok) s = .next (State.opEnd { s.begun tok d with rings := { (s.begun tok d).rings with
      weights := if w = 0 then s.rings.weights.del n else s.rings.weights.put n w } } tok {})) ∧
  (∀ (s : State) (tok : Nat) (d : Desc), s.ready tok 0xF2 d → s.assisted 2 = false →
    exec (.admitWeights tok) s = .next ((s.begun tok d).opEnd tok (cpl ST_PERMISSION RING_MODE))) ∧
  (∀ (s : State) (path cycle : Nat) (v : Word), s.pairReady path Reg.HIF_FN_MODE v cycle →
    exec (.hifFnModeWrite path (~~~v) cycle) s = .next (
      if bitsOf v 2 8 = 0 ∨ (s.assistPair (bitsOf v 16 3)).isSome = true then
        { s.setGuard path none with rings := { s.rings with fnModePending := some (writeWord Reg.HIF_FN_MODE 0 v) } }
      else (s.setGuard path none).logReject B_HIF Reg.HIF_FN_MODE v REG_STATE path))

/-- COPY and FILL move their pieces, in order, up to the first that faults (R114, R516, R517, Table 16-8).
Where the rules leave a choice it is the model's own, in assumptions 11, 40, 68. -/
def Obligations.CopyAndFill : Prop :=
  (∀ (s s1 : State) (tok : Nat) (d : Desc) (ext : List Byte) (done : List (List (List Seg))) (stop : Option Cpl) (fill : Bool)
    (r : State × Bool × List Byte),
    s.grantedTiles tok (if fill then 0x11 else 0x10) d ((copyPieces fill d.bits).map (copyNeeds fill d.bits)) s1 done stop →
    copyRefused fill d s = none →
    (List.zip (copyPieces fill d.bits) done).foldl (State.copyStep tok d fill) (s1.begun tok d, false, ext) = r →
    exec (if fill then .fill tok ext else .copy tok ext) s = .next (r.1.opEnd tok (
      match stop with
      | some c => { c with done := done.length, dropped := (copyPieces fill d.bits).length - done.length }
      | none => { (if r.2.1 then cpl ST_POISONED 0 else {}) with
          done := done.length, dropped := (copyPieces fill d.bits).length - done.length
          result := (((copyPieces fill d.bits).take done.length).map Prod.snd).foldl (· + ·) 0 }))) ∧
  (∀ (s : State) (tok : Nat) (d : Desc) (ext : List Byte) (fill : Bool), s.ready tok (if fill then 0x11 else 0x10) d →
    s.units.lostDies.contains (homeDie (s.srcCtx d.src)) = true →
    exec (if fill then .fill tok ext else .copy tok ext) s =
      .next ((s.begun tok d).opEnd tok { status := ST_INTERNAL, dropped := (copyPieces fill d.bits).length })) ∧
  (∀ (s t : State) (tok : Nat) (d : Desc) (fill p q : Bool) (ext e : List Byte) (x : (Nat × Nat) × List (List Seg)),
    s.copyPiece tok d fill ext x.1 x.2 = (t, q, e) → State.copyStep tok d fill (s, p, ext) x = (t, p || q, e)) ∧
  (∀ (s : State) (tok off n : Nat) (d : Desc) (ext : List Byte) (segs : List (List Seg)), cpDstFab d.bits = false →
    s.copyPiece tok d true ext (off, n) segs = (State.writeSegs tok d (descCredit d) (segs.getLastD [])
      ((List.range n).map (fun i => (cpPattern d.bits).getD ((off + i) % 8) 0)) s, false, ext)) ∧
  (∀ (s t : State) (tok off n : Nat) (d : Desc) (ext l e : List Byte) (segs : List (List Seg)) (x : Seg) (bad : Bool),
    cpSrcFab d.bits = false → cpDstFab d.bits = false → copyOverlap d.bits = false → x = (segs.headD []).headD ⟨true, 0, 0⟩ →
    (x.host = true ∨ x.host = false ∧ s.descServed d = true ∧ s.homePoison x.addr n = 0) →
    State.readSegs d (segs.headD []) ext s = (t, l, bad, e) →
    s.copyPiece tok d false ext (off, n) segs = (State.writeSegs tok d (descCredit d) (segs.getLastD []) l t, false, e))

/-- Function-level reset of a host port; host links up and down (R180, R636, R637, R639, R640, R661).
Where the rules leave a choice it is the model's own, in assumption 78. -/
def Obligations.FunctionResetsAndLinks : Prop :=
  (∀ (s : State) (path cycle : Nat) (v : Word), s.pairReady path Reg.IDN_FN_RESET v cycle → bitOf v 8 = true →
    exec (.idnFnReset path (~~~v) cycle) s =
      .next (((s.setGuard path none).setFld F.IDN_FN_RESET_PORT (bitsOf v 0 3)).fnReset (bitsOf v 0 3))) ∧
  (∀ (s : State) (p : Nat), exec (.pcieFunctionLevelReset p) s = .next (s.fnReset p)) ∧
  (∀ (s : State) (p : Nat), s.boot.fnReset.contains p = true → s.fnReset p = s) ∧
  (∀ (s : State) (p : Nat), s.boot.fnReset.contains p = false →
    s.fnReset p = ((((((State.setEvt { s with boot := { s.boot with fnReset := s.boot.fnReset ++ [p] } }
      F.IDN_RESET_CAUSE_FUNCTION).dropPairs p).dropAssists p).endConf p).dropVersions p).resetPath p)) ∧
  (∀ (s u : State) (p : Nat), s.boot.fnReset.contains p = true →
    (s.rings.descs.filter (fun e => s.onPort p e.2.src && e.2.gone && e.2.finished)).foldl (fun (s : State) e => s.dropDesc e.1) s = u →
    exec (.fnResetDone p) s = .next (if u.rings.descs.any (fun _ d => u.onPort p d.src && d.gone) then u else
      State.setEvt { u with boot := { u.boot with fnReset := u.boot.fnReset.filter (fun q => q != p) } } F.IDN_EVT_FN_RESET_DONE)) ∧
  (∀ (s u : State) (p rate width : Nat),
    ((s.setHport p { s.hport p with up := rate != 0 && width != 0, rate := rate, width := width }).setEvt F.HIF_EVT_LINK_CHANGE).event
      0 (locHostPort p) (rate + at_ 8 width) = u →
    exec (.hostLinkChange p rate width) s =
      .next (if (s.hport p).up = true ∧ (rate = 0 ∨ width = 0) then u.fnReset p else u)) ∧
  (∀ (s : State) (p : Nat), ((s.hport p).up = true → exec (.perstAssert p) s = exec (.hostLinkChange p 0 0) s) ∧
    ((s.hport p).up = false → exec (.perstAssert p) s = .next s))

/-- Power cap, thermal settings and sampling, islands, region splits, scrub and temperature (R20, R249, R250, R551, R552, R553, R554, R556).
Where the rules leave a choice it is the model's own, in assumptions 10, 83, 85. -/
def Obligations.PowerAndStacks : Prop :=
  (∀ (s g : State) (path cycle : Nat) (v : Word), s.pairReady path Reg.PWR_CAP v cycle → g = s.setGuard path none →
    exec (.pwrCapWrite path (~~~v) cycle) s = .next (
      if bitsOf v 0 12 < 100 ∨ 2900 < bitsOf v 0 12 then g.logReject B_PWR Reg.PWR_CAP v REG_VALUE path
      else if s.capCovers (bitsOf v 0 12) then { g with tick := { s.tick with capPending := some (writeWord Reg.PWR_CAP 0 v) } }
      else g.logReject B_PWR Reg.PWR_CAP v REG_STATE path)) ∧
  (∀ (s g : State) (path cycle : Nat) (v : Word), s.pairReady path Reg.PWR_THERM v cycle → g = s.setGuard path none →
    exec (.pwrThermWrite path (~~~v) cycle) s = .next (
      if 85 ≤ bitsOf v 8 8 ∧ bitsOf v 8 8 ≤ 104 ∧ 1 ≤ bitsOf v 16 8 ∧ bitsOf v 16 8 ≤ 20 ∧ 1 ≤ bitsOf v 0 8 ∧ bitsOf v 0 8 ≤ 50
      then g.setWord Reg.PWR_THERM (writeWord Reg.PWR_THERM (s.word Reg.PWR_THERM) v)
      else g.logReject B_PWR Reg.PWR_THERM v REG_VALUE path)) ∧
  (∀ (s : State) (path cycle new stat : Nat) (on off : List Nat) (keep fresh : List (Nat × Nat)) (v : Word),
    s.mayWrite path B_PWR = true → new = bitsOf v 0 24 →
    stat = s.fld F.PWR_ISLAND_STAT_ON →
    off = (List.range 24).filter (fun h => (s.fld F.PWR_ISLAND_REQ_ON).testBit h && !new.testBit h && stat.testBit h) →
    on = (List.range 24).filter (fun h => new.testBit h && !stat.testBit h) →
    keep = s.tick.islandOn.filter (fun e => on.contains e.1) →
    fresh = (on.filter (fun h => !keep.any (fun e => e.1 == h))).map (fun h => (h, cycle)) →
    exec (.pwrIslandReqWrite path v cycle) s = .next (
      if off.all s.islandIdle then { s.setFld F.PWR_ISLAND_REQ_ON new with tick := { s.tick with islandOn := keep ++ fresh } }
      else s.logReject B_PWR Reg.PWR_ISLAND_REQ v REG_STATE path)) ∧
  (∀ (s g : State) (path cycle h : Nat) (x : Split) (v : Word), s.pairReady path Reg.TIR_SPLIT v cycle → g = s.setGuard path none →
    h = s.fld F.TIR_REGION_SEL_REGION →
    x = { tier := bitsOf v 24 8, rcache := bitsOf v 16 8, kvhot := bitsOf v 8 8, scratch := bitsOf v 0 8 } →
    (∀ r, (128 < splitSum x ∧ r = SPLIT_SUM ∨
        splitSum x ≤ 128 ∧ x.scratch < ceilDiv (s.scratchUsed h) 1024 ∧ r = SPLIT_SCRATCH ∨
        splitSum x ≤ 128 ∧ ceilDiv (s.scratchUsed h) 1024 ≤ x.scratch ∧ s.tier.splitPending.has h = true ∧ r = SPLIT_BUSY ∨
        splitSum x ≤ 128 ∧ ceilDiv (s.scratchUsed h) 1024 ≤ x.scratch ∧ s.tier.splitPending.has h = false ∧ splitSum x ≠ 0 ∧
          (s.fld F.PWR_ISLAND_STAT_ON).testBit h = false ∧ r = SPLIT_ISLAND) →
      exec (.tirSplitWrite path (~~~v) cycle) s = .next ((((g.setFld F.TIR_ERR_REASON r).setFld F.TIR_ERR_REGION h).setEvt
        F.TIR_EVT_SPLIT_REFUSED).logReject B_TIR Reg.TIR_SPLIT v REG_STATE path)) ∧
    (splitSum x ≤ 128 → ceilDiv (s.scratchUsed h) 1024 ≤ x.scratch → s.tier.splitPending.has h = false →
      (splitSum x = 0 ∨ (s.fld F.PWR_ISLAND_STAT_ON).testBit h = true) →
      exec (.tirSplitWrite path (~~~v) cycle) s =
        .next { g with tier := { s.tier with splitPending := s.tier.splitPending.put h x } })) ∧
  (∀ (s : State) (env : BoundaryEnv), exec (.powerSampleTimer env) s =
    .next (if s.tick.sync = .stopped ∨ s.tick.ticking = false then s.thermalStep env else s)) ∧
  (∀ (s u : State) (c ns : Nat) (found : List EccError), c < 192 → s.dchanIn c = true → found.foldl (State.eccFound c ns) s = u →
    exec (.patrolScrub c ns found) s = .next (u.setDchan c { u.dchan c with scrubPasses := (u.dchan c).scrubPasses + 1 })) ∧
  (∀ (s u : State) (k t : Nat), k < 12 → u = { s with stk := { s.stk with
      stackTab := s.stk.stackTab.put k { s.stk.stackTab.get {} k with tempC := t, hot := decide (85 < t) } } } →
    (85 < t → exec (.stackHot k t) s = .next (if (s.stk.stackTab.get {} k).hot then u else u.setEvt F.STK_EVT_TEMP_HIGH)) ∧
    (t ≤ 85 → exec (.hotRefreshClear k t) s = .next u))

/-- Key slots: activation, retirement request, zeroisation; OTP records (R565, R566, R567, R579, R581, Table 19-9, Table 19-11).
Where the rules leave a choice it is the model's own, in assumptions 24, 69, 72. -/
def Obligations.KeySlotsAndOtp : Prop :=
  (∀ (s s1 t : State) (tok : Nat) (ext l e : List Byte) (d : Desc) (segs : List (List Seg)), s.granted tok 0xA0 d [⟨dfield d.bits 24 8, 64, 1, false⟩] s1 segs →
    dKeySlot d.bits = 0 → slotOperandsOk d.bits = true → State.readSegs d (segs.headD []) ext s1 = (t, l, false, e) →
    t.sec.fuses.getLsbD 8 = false → (t.slot (dfield d.bits 16 1)).phase = .free → t.slotNamed (dfield d.bits 16 1) = false →
    t.sliceExists (dfield d.bits 17 1) = true → t.ready tok 0xA0 d →
    exec (.slotActivate tok ext) s = .next (((t.begun tok d).activateSlot (dfield d.bits 16 1) (dfield d.bits 17 1)
      (BitVec.ofNat 384 (leNat (l.take 48)))).opEnd tok { result := nextEpoch (t.slot (dfield d.bits 16 1)).epoch })) ∧
  (∀ (s : State) (k n : Nat) (owner : BitVec 384), s.activateSlot k n owner = { s with
    fresh := s.fresh + 2
    slots := s.slots.put k {
      phase := .active, slice := n, epoch := nextEpoch (s.slot k).epoch, owner := owner
      memKey := s.fresh + 1, flashKey := flashSerial (s.fresh + 2) } }) ∧
  (∀ (s : State) (tok : Nat) (ext : List Byte) (d : Desc), s.ready tok 0xA0 d →
    (dKeySlot d.bits ≠ 0 → exec (.slotActivate tok ext) s = .next ((s.begun tok d).opEnd tok (cpl ST_PERMISSION SEC_PRIV))) ∧
    (dKeySlot d.bits = 0 → slotOperandsOk d.bits = false →
      exec (.slotActivate tok ext) s = .next ((s.begun tok d).opEnd tok (cpl ST_REFUSED_FIT SEC_OPERAND)))) ∧
  (∀ (s : State) (path cycle k : Nat) (v : Word), s.pairReady path Reg.SEC_SLOT_CTRL v cycle → bitOf v 0 = true →
    k = s.fld F.SEC_SLOT_SEL_SLOT →
    exec (.slotRetire path (~~~v) cycle) s = .next (
      if k ≠ 0 ∧ (s.slot k).phase = .active then (s.setGuard path none).setSlot k { s.slot k with retirePending := true }
      else (s.setGuard path none).logReject B_SEC Reg.SEC_SLOT_CTRL v REG_STATE path)) ∧
  (∀ (s : State) (k : Nat), exec (.zeroisationDone k) s = .next (if (s.slot k).phase = .zeroising then s.endZeroise k else s)) ∧
  (∀ (s u : State) (k : Nat), (s.slotDescs k (fun _ => true)) = [] → (s.releaseObjects k).tierForget k = u →
    s.endZeroise k = ((({ u with
      sec := { u.sec with
        modelKeys := u.sec.modelKeys.mapV (fun _ m => if m.slot = k then { m with live := false, key := [] } else m) }
      slots := u.slots.put k { epoch := (s.slot k).epoch } } : State).setEvt F.SEC_EVT_SLOT_ZEROISED).event SEC_ZEROISED LOC_MD
        (k + at_ 8 (s.slot k).epoch))) ∧
  (∀ (s : State) (path cycle r : Nat) (v : Word), s.pairReady path Reg.SEC_OTP_CTRL v cycle → bitOf v 31 = true → r = bitsOf v 0 8 →
    (∀ e, s.sec.otpRefused r = some e → exec (.otpProgram path (~~~v) cycle) s =
      .next ((s.setGuard path none).logReject B_SEC Reg.SEC_OTP_CTRL v e path)) ∧
    (s.sec.otpRefused r = none → exec (.otpProgram path (~~~v) cycle) s =
      .next { (s.setGuard path none).setFld F.SEC_OTP_CTRL_RECORD r with
        sec := { s.sec with otpBusy := s.sec.otpBusy ++ [(4 * r + (s.sec.otpFree r).getD 0, s.sec.otpData)] } })) ∧
  (∀ (s : State) (k : Nat) (w : Wide) (l : List (Nat × Wide)), s.sec.otpBusy = (k, w) :: l →
    exec .otpProgramDone s = .next (State.setEvt { s with
      sec := { s.sec with
        otp := s.sec.otp.put k w, otpBusy := l
        otpGen := ({ s.sec with otp := s.sec.otp.put k w, otpBusy := l } : SecState).genWord } } F.SEC_EVT_OTP_PROGRAMMED))

/-- The boundary-scan port: BYPASS, SAMPLE/PRELOAD, EXTEST, IDCODE, debug (R569).
Where the rules leave a choice it is the model's own, in assumption 72. -/
def Obligations.ScanPortAndDebug : Prop :=
  (∀ (s : State) (tdi count : Nat), exec (.bypass tdi count) s = .next (({ s with
    sec := { s.sec with tapInstr := TAP_BYPASS, extest := false } } : State).emit (.tdo (2 * tdi % 2 ^ count) count))) ∧
  (∀ (s t : State) (x cells count : Nat), s.draw = (x, t) →
    exec (.samplePreload cells count) s = .next (({ t with
      sec := { t.sec with tapInstr := TAP_SAMPLE, extest := false, scanCells := cells % 2 ^ count } } : State).emit
        (.tdo (x % 2 ^ count) count)) ∧
    exec (.extest cells count) s = .next (({ t with
      sec := { t.sec with tapInstr := TAP_EXTEST, extest := true, scanCells := cells % 2 ^ count } } : State).emit
        (.tdo (x % 2 ^ count) count)) ∧
    exec .idcode s = .next (({ t with sec := { t.sec with tapInstr := TAP_IDCODE, extest := false } } : State).emit
      (.tdo (x % 2 ^ 32) 32))) ∧
  (∀ (s : State) (code tdi count : Nat), s.sec.fuses.getLsbD 0 = true →
    exec (.debugInstruction code tdi count) s = exec (.bypass tdi count) s) ∧
  (∀ (s t : State) (x code tdi count : Nat), s.sec.fuses.getLsbD 0 = false →
    (if s.sec.fuses.getLsbD 8 then s else s.openDebug).draw = (x, t) →
    exec (.debugInstruction code tdi count) s = .next (({ t with
      sec := { t.sec with tapInstr := TAP_DEBUG + code, extest := false } } : State).emit (.tdo (x % 2 ^ count) count))) ∧
  (∀ (s : State), (s.openDebug.sec.bounce = []) ∧ ∀ k m, (k, m) ∈ s.openDebug.sec.modelKeys → m.live = false ∧ m.key = [])

/-- BOUNCE_IN and BOUNCE_OUT move authenticated frames (R587, R588, R589, R590, Table 19-14).
Where the rules leave a choice it is the model's own, in assumptions 11, 20, 70. -/
def Obligations.BounceFrames : Prop :=
  (∀ (s s1 t : State) (tok k p : Nat) (d : Desc) (ext : List Byte) (done tiles : List (List (List Seg))) (stop why : Option Cpl)
    (failed : Bool), s.srcPort d.src = some p → s.bounceWaits tok p d = false → s.grantedTiles tok 0xA1 d (bounceTiles 2 d s) s1 done stop →
    bounceStops true d s = none → deviceTiles done stop = (tiles, why) →
    (s1.begun tok d).takeFrames tok p d 0 tiles
      ((List.range (bnFrames d.bits)).map (fun i => (ext.drop (4160 * i)).take 4160)) = (t, k, failed) →
    exec (.bounceIn tok ext) s = .next (t.opEnd tok { (if failed then cpl ST_PERMISSION SEC_BOUNCE_AUTH else why.getD {}) with
      done := k, dropped := bnFrames d.bits - k
      result := ((List.range k).map (bnBytes d.bits)).foldl (· + ·) 0 })) ∧
  (∀ (s : State) (tok p i : Nat) (d : Desc) (t : List (List Seg)) (ts : List (List (List Seg))) (f : List Byte) (fs : List (List Byte)),
    s.takeFrames tok p d i (t :: ts) (f :: fs) =
      match openFrame (s.sec.bounce.get { key := [] } p) p (dfield d.bits 12 4) i (bnBytes d.bits i) f with
      | none => (s, i, true)
      | some (seq, l) =>
        let u := State.writeSegs tok d (descCredit d) (t.headD []) l s
        State.takeFrames { u with sec := { u.sec with bounce := u.sec.bounce.upd p (fun b => { b with last := seq }) } }
          tok p d (i + 1) ts fs) ∧
  (∀ (b : BouncePort) (p key i len : Nat) (f : List Byte),
    openFrame b p key i len f =
      if leNat (f.take 2) = 0xB0F1 ∧ leNat ((f.drop 2).take 1) = 1 ∧ leNat ((f.drop 4).take 4) = len ∧
          leNat ((f.drop 20).take 8) = 4096 * i ∧ leNat ((f.drop 16).take 4) = key ∧ b.last < leNat ((f.drop 8).take 8) then
        (Config.gcmOpen b.key (frameIv 1 p (leNat ((f.drop 8).take 8))) (f.take 48) ((f.drop 64).take len ++ (f.drop 48).take 16)).map
          (fun l => (leNat ((f.drop 8).take 8), l))
      else none) ∧
  (∀ (s s1 t : State) (tok k p : Nat) (d : Desc) (b : BouncePort) (done tiles : List (List (List Seg))) (stop why : Option Cpl) (poison : Bool),
    s.grantedTiles tok 0xA2 d (bounceTiles 1 d s) s1 done stop →
    bounceStops false d s = none → deviceTiles done stop = (tiles, why) → (s1.begun tok d).srcPort d.src = some p →
    b = s1.sec.bounce.get { key := [] } p →
    State.giveFrames { s1.begun tok d with
      sec := { s1.sec with bounce := s1.sec.bounce.put p { b with next := b.next + bnFrames d.bits } } } p b.next b.key d 0 tiles =
        (t, k, poison) →
    exec (.bounceOut tok) s = .next (t.opEnd tok { (if poison then cpl ST_POISONED 0 else why.getD {}) with
      done := k, dropped := bnFrames d.bits - k, result := b.next })) ∧
  (∀ (s : State) (p first i : Nat) (key : List Byte) (d : Desc) (t : List (List Seg)) (ts : List (List (List Seg))) (u : State)
    (l e : List Byte) (poison : Bool), State.readSegs d (t.headD []) [] s = (u, l, poison, e) →
    s.giveFrames p first key d i (t :: ts) = if poison then (u, i, true) else
      ((u.emit (.hostWrite p (bnHost d.bits + 4160 * i) (sealFrame key p (dfield d.bits 12 4) i (first + i) l))).notePosted
        d.src p).giveFrames p first key d (i + 1) ts) ∧
  (∀ (s : State) (tok : Nat) (d : Desc) (ext : List Byte), s.bounceServed d = false →
    (s.ready tok 0xA1 d → s.bounceWaits tok ((s.srcPort d.src).getD 0) d = false →
      exec (.bounceIn tok ext) s = .next ((s.begun tok d).opEnd tok
        { status := ST_KEY_RETIRED, reason := SEC_RETIRING, dropped := bnFrames d.bits })) ∧
    (s.ready tok 0xA2 d →
      exec (.bounceOut tok) s = .next ((s.begun tok d).opEnd tok
        { status := ST_KEY_RETIRED, reason := SEC_RETIRING, dropped := bnFrames d.bits })))

/-- SPDM: connection, identity, measurements, sessions, chunks (R562, R563, R570, R571, R572, Table 19-5, Table 19-6).
Where the rules leave a choice it is the model's own, in assumptions 20, 25, 71. -/
def Obligations.AttestationRequests : Prop :=
  ∀ (s a : State) (via : Via) (t : Nat) (c : SpdmConn), t = via.transport → t < 10 → c = { s.conn t with mseq := via.mseq } →
    a = s.setConn t c →
    exec (.getVersion via) s =
      .next ((a.setConn t { version := true, mseq := via.mseq, nextId := c.nextId }).spdmReply t SPDM_VERSION (leBytes 2 0x1300)) ∧
    exec (.getCapabilities via) s = .next (if c.version then
      (a.setConn t { c with capabilities := true }).spdmReply t SPDM_CAPABILITIES (leBytes 4 4096) else a.spdmError t ERR_UNEXPECTED) ∧
    exec (.negotiateAlgorithms via) s = .next (if c.version && c.capabilities then
      (a.setConn t { c with algorithms := true }).spdmReply t SPDM_ALGORITHMS [] else a.spdmError t ERR_UNEXPECTED) ∧
    (c.ready = true →
      exec (.getDigests via) s = .next (a.spdmReply t SPDM_DIGESTS (leBytes 1 0x01 ++ Config.sha384 a.chain)) ∧
      (∀ slot off len part, part = (a.chain.drop off).take (min len 4000) →
        exec (.getCertificate via slot off len) s = .next (
          if slot = 0 ∧ off < a.chain.length then a.spdmReply t SPDM_CERTIFICATE
            (leBytes 1 0 ++ leBytes 2 part.length ++ leBytes 2 (a.chain.length - off - part.length) ++ part)
          else a.spdmError t ERR_INVALID_REQUEST)) ∧
      (∀ slot nonce body, body = leBytes 1 0 ++ Config.sha384 a.chain →
        exec (.challenge via slot nonce) s = .next (
          if slot = 0 then a.spdmReply t SPDM_CHALLENGE_AUTH (body ++ a.sign (nonce ++ body)) else a.spdmError t ERR_INVALID_REQUEST)) ∧
      (∀ block nonce body, body = (if block = 0 then leBytes 1 9
          else if block = 0xFF then ((List.range 9).map (fun i => a.blockForm a.reported (i + 1))).flatten
          else a.blockForm a.reported block) →
        exec (.getMeasurements via block nonce) s = .next (
          if block ≤ 9 ∨ block = 0xFF then a.spdmReply t SPDM_MEASUREMENTS (body ++ a.sign (nonce ++ body))
          else a.spdmError t ERR_INVALID_REQUEST)) ∧
      (∀ slot auth leaf rooted, exec (.keyExchange via slot auth leaf rooted) s = .next (
        if slot ≠ 0 then a.spdmError t ERR_INVALID_REQUEST
        else if 16 ≤ c.sessions.length then a.spdmError t ERR_SESSION_LIMIT
        else State.spdmReply (a.setConn t { c with
            sessions := c.sessions ++ [{ id := c.nextId, authentic := auth, leaf := leaf, rooted := auth && rooted }]
            nextId := c.nextId + 1 }) t SPDM_KEY_EXCHANGE_RSP (leBytes 4 c.nextId ++ State.sign (a.setConn t { c with
              sessions := c.sessions ++ [{ id := c.nextId, authentic := auth, leaf := leaf, rooted := auth && rooted }]
              nextId := c.nextId + 1 }) (leBytes 4 c.nextId)))) ∧
      (∀ id v, c.session id = none → exec (.finish via id v) s = .next (a.spdmError t ERR_INVALID_SESSION)) ∧
      (∀ id v x, c.session id = some x → exec (.finish via id v) s = .next (
        if x.done then a.spdmError t ERR_UNEXPECTED
        else if v then (a.setConn t (c.setSession { x with done := true })).spdmReply t SPDM_FINISH_RSP []
        else (a.setConn t { c with sessions := c.sessions.filter (fun y => y.id != id) }).spdmError t ERR_DECRYPT)) ∧
      (∀ id x, c.session id = some x → x.done = true →
        exec (.heartbeat via id) s = .next (a.spdmReply t SPDM_HEARTBEAT_ACK []) ∧
        exec (.keyUpdate via id) s =
          .next ((a.setConn t (c.setSession { x with updates := x.updates + 1 })).spdmReply t SPDM_KEY_UPDATE_ACK []) ∧
        exec (.endSession via id) s = .next ((a.setConn t { c with
          sessions := c.sessions.filter (fun y => y.id != id) }).spdmReply t SPDM_END_SESSION_ACK [])) ∧
      (∀ id, (c.session id = none ∨ ∃ x, c.session id = some x ∧ x.done = false) →
        exec (.heartbeat via id) s = .next (a.spdmError t ERR_INVALID_SESSION) ∧
        exec (.keyUpdate via id) s = .next (a.spdmError t ERR_INVALID_SESSION) ∧
        exec (.endSession via id) s = .next (a.spdmError t ERR_INVALID_SESSION)) ∧
      (∀ data last, exec (.chunkSend via data last) s = .next (
        (a.setConn t { c with request := if last then [] else c.request ++ data }).spdmReply t SPDM_CHUNK_SEND_ACK [])) ∧
      exec (.chunkGet via) s = .next (if c.response = [] then a.spdmError t ERR_UNEXPECTED
        else (a.setConn t { c with response := c.response.drop 4000 }).spdmReply t SPDM_CHUNK_RESPONSE (c.response.take 4000))) ∧
    (c.ready = false →
      exec (.getDigests via) s = .next (a.spdmError t ERR_UNEXPECTED) ∧
      (∀ i j k, exec (.getCertificate via i j k) s = .next (a.spdmError t ERR_UNEXPECTED)) ∧
      (∀ i l, exec (.challenge via i l) s = .next (a.spdmError t ERR_UNEXPECTED) ∧
        exec (.getMeasurements via i l) s = .next (a.spdmError t ERR_UNEXPECTED)) ∧
      (∀ i b l r, exec (.keyExchange via i b l r) s = .next (a.spdmError t ERR_UNEXPECTED)) ∧
      (∀ i b, exec (.finish via i b) s = .next (a.spdmError t ERR_UNEXPECTED)) ∧
      (∀ i, exec (.heartbeat via i) s = .next (a.spdmError t ERR_UNEXPECTED) ∧
        exec (.keyUpdate via i) s = .next (a.spdmError t ERR_UNEXPECTED) ∧
        exec (.endSession via i) s = .next (a.spdmError t ERR_UNEXPECTED)) ∧
      (∀ l b, exec (.chunkSend via l b) s = .next (a.spdmError t ERR_UNEXPECTED)) ∧
      exec (.chunkGet via) s = .next (a.spdmError t ERR_UNEXPECTED))

/-- Vendor-defined requests: model keys, flash keys, confidential mode (R580, R582, R585, Table 19-10).
Where the rules leave a choice it is the model's own, in assumptions 25, 71. -/
def Obligations.KeyBrokerRequests : Prop :=
  ∀ (s a : State) (via : Via) (t id k : Nat) (c : SpdmConn) (p : List Byte), t = via.transport → t < 10 →
    c = { s.conn t with mseq := via.mseq } → a = s.setConn t c → c.ready = true → k = vfield p 4 1 →
    (p.length < 48 → exec (.modelKeySet via id p) s = .next (a.vendorReply t 0x01 V_FORMAT 0) ∧
      exec (.confEnable via id p) s = .next (a.vendorReply t 0x04 V_FORMAT 0)) ∧
    (p.length < 80 → exec (.flashKeySet via id p) s = .next (a.vendorReply t 0x03 V_FORMAT 0)) ∧
    (∀ v, a.vendorBars t id k (vfield p 6 2) = some v →
      (48 ≤ p.length → exec (.modelKeySet via id p) s = .next (a.vendorReply t 0x01 v 0) ∧
        exec (.confEnable via id p) s = .next (a.vendorReply t 0x04 v 0)) ∧
      (80 ≤ p.length → exec (.flashKeySet via id p) s = .next (a.vendorReply t 0x03 v 0))) ∧
    (a.vendorBars t id k (vfield p 6 2) = none → 48 ≤ p.length →
      (a.freeModelKey = none → exec (.modelKeySet via id p) s = .next (a.vendorReply t 0x01 V_FULL 0)) ∧
      (∀ n g, a.freeModelKey = some n → g = nextGen (((a.sec.modelKeys.find n).map (fun m => m.gen)).getD 0) →
        exec (.modelKeySet via id p) s = .next (State.vendorReply { a with
          sec := { a.sec with modelKeys := a.sec.modelKeys.put n ({
            gen := g, live := true, slot := k, epoch := vfield p 6 2, program := vfield p 8 8, key := (p.drop 16).take 32 }) } } t
          0x01 V_OK (n + at_ 8 g))) ∧
      exec (.confEnable via id p) s = .next (
        if 7 < vfield p 5 1 then a.vendorReply t 0x04 V_FORMAT 0
        else if a.confBusy (vfield p 5 1) k then a.vendorReply t 0x04 V_BUSY 0
        else State.vendorReply { a with sec := { a.sec with
          conf := a.sec.conf.put (vfield p 5 1) k
          bounce := a.sec.bounce.put (vfield p 5 1) { key := (p.drop 16).take 32 } } } t 0x04 V_OK 0)) ∧
    (a.vendorBars t id k (vfield p 6 2) = none → 80 ≤ p.length →
      exec (.flashKeySet via id p) s = .next (
        if a.srh.indexes.any (fun _ x => x.phase != .free && x.key == k) then a.vendorReply t 0x03 V_BUSY 0
        else (a.setSlot k { a.slot k with flashKey := vfield p 16 64 }).vendorReply t 0x03 V_OK 0)) ∧
    (∀ m h, h = vfield p 4 2 → a.sec.modelKeys.find (h % 64) = some m → 6 ≤ p.length → m.live = true → m.gen = h / 256 →
      h / 64 % 4 = 0 →
      (∀ v, a.vendorBars t id m.slot m.epoch = some v → exec (.modelKeyDrop via id p) s = .next (a.vendorReply t 0x02 v 0)) ∧
      (a.vendorBars t id m.slot m.epoch = none → exec (.modelKeyDrop via id p) s = .next (State.vendorReply { a with
        sec := { a.sec with modelKeys := a.sec.modelKeys.put (h % 64) { m with live := false, key := [] } } } t 0x02 V_OK 0))) ∧
    (a.sec.modelKeys.find (vfield p 4 2 % 64) = none ∨ p.length < 6 → exec (.modelKeyDrop via id p) s = .next (a.vendorReply t 0x02 V_FORMAT 0))

/-- Unit failures, watchdogs, unit tests, service cores, scrubbing, lost dies, fault records, lapsed holds (R13, R32, R128, R594, R597, R599, R602, R609, Table 20-4).
Where the rules leave a choice it is the model's own, in assumptions 8, 74, 75. -/
def Obligations.FailuresAndLosses : Prop :=
  (∀ (s t : State) (tok loc key : Nat), key = loc / 256 * 256 →
    (s.mtx.runs.find tok = none ∧ t = s ∨ (∃ r, s.mtx.runs.find tok = some r ∧ keyDie key ≤ 5 ∧ keyCluster key ≤ 3 ∧
      t = s.retryItem tok (16 * keyDie key + 4 * keyRegion key + keyCluster key) r)) →
    exec (.engineWatchdog tok loc) s = exec (.unitFailure tok loc) s ∧
    (∀ k, partOf loc = some (.unit k) → exec (.unitFailure tok loc) s =
      .next ((t.setUnit k { t.unitOf k with attempt := (t.unitOf k).attempt + 1, failed := true }).dueLoc loc)) ∧
    (∀ p, partOf loc = some p → (∀ k, p ≠ .unit k) → exec (.unitFailure tok loc) s = .next (t.dueLoc loc)) ∧
    (partOf loc = none → exec (.unitFailure tok loc) s = .next t)) ∧
  (∀ (s u t : State) (loc key : Nat) (l : List Nat), key = loc / 256 * 256 →
    (s.units.testing.contains key = true ∨ 4 ≤ keyCluster key) →
    u = { s with units := { s.units with testing := s.units.testing.filter (fun k => k != key) } } →
    l = s.tick.now :: (s.unitOf key).intermittent.filter (fun t => decide (s.tick.now < t + 1024)) →
    (t = u.setUnit key { u.unitOf key with failed := true } →
      exec (.unitTestDone loc false) s = .next (t.dueLoc (u.locOf key))) ∧
    (l.length < 2 → exec (.unitTestDone loc true) s = .next (u.setUnit key { u.unitOf key with intermittent := l })) ∧
    (2 ≤ l.length → t = u.setUnit key { u.unitOf key with intermittent := [] } →
      exec (.unitTestDone loc true) s = .next (t.predictive 2 (u.locOf key)))) ∧
  (∀ (s : State) (p : Nat),
    exec (.lockstepMismatch p) s = .next (
      if p < 8 ∧ s.units.pairsOut.contains p = false ∧ s.units.pairsHalted.contains p = false then
        State.checkPairs { s with units := { s.units with pairsHalted := s.units.pairsHalted ++ [p] } } else s) ∧
    (s.units.pairsHalted.contains p = true →
      exec (.pairRestartTestDone p true) s =
        .next { s with units := { s.units with pairsHalted := s.units.pairsHalted.filter (fun q => q != p) } } ∧
      exec (.pairRestartTestDone p false) s = .next (s.dueLoc (0x50FF0000 + at_ 8 (2 * p) + 0xFF)))) ∧
  (∀ (s : State), s.pairsIn < 4 → s.checkPairs = s.loseDie 0x50) ∧
  (∀ (s : State) (table index : Nat), exec (.configurationScrub table index true) s = .next s ∧
    exec (.configurationScrub table index false) s =
      .next ((s.invalidateEntry table index).queueFault { cls := 0x30, location := LOC_MD, detail := 9 })) ∧
  (∀ (s : State) (die : Nat), dieExists die = true →
    exec (.dieLoss die) s = .next (s.loseDie die) ∧ exec (.clockDeviation die) s = .next (s.loseDie die)) ∧
  (∀ (s : State) (die : Nat), s.units.lostDies.contains die = true → s.loseDie die = s) ∧
  (∀ (s u : State) (die : Nat), s.units.lostDies.contains die = false →
    State.queueFault { s with units := { s.units with lostDies := s.units.lostDies ++ [die] } }
      { cls := 0x40, location := locDie die, detail := die } = u →
    s.loseDie die = if die ≤ 5 then u.loseEngineDie die
      else if 0x10 ≤ die ∧ die ≤ 0x1B then (u.loseChannels ((List.range 16).map (fun i => 16 * (die - 0x10) + i))).pump
      else if 0x20 ≤ die ∧ die ≤ 0x23 then u.loseLinkDie (die - 0x20)
      else if 0x30 ≤ die ∧ die ≤ 0x33 then
        (List.range 16).foldl (fun (s : State) i => s.failChannel (16 * (die - 0x30) + i) false) u
      else if die = 0x40 then u.loseHostDie
      else if die = 0x50 then u.loseManagement
      else u) ∧
  (∀ (s : State) (path cycle : Nat) (v : Word), s.mayWrite path B_RAS = true →
    exec (.rasPop path v cycle) s = .next (if bitOf v 0 then { s with faults := s.faults.drop 1 } else s)) ∧
  (∀ (s : State) (line : Nat), exec (.stripeHoldLapse line) s = .next (s.freeHold line).pump ∧
    ∀ h, s.pg.holds.find line = some h → h.deltas = [] → h.queue = [] →
      s.freeHold line = { s with pg := { s.pg with holds := s.pg.holds.del line } })

/-- Protection entries: commit, discard, building; slices: commit, discard (R604, R611, R613, R614, R627, R629, Table 21-2).
Where the rules leave a choice it is the model's own, in assumptions 28, 73, 76. -/
def Obligations.ProtectionAndSlices : Prop :=
  (∀ (s g : State) (path cycle n : Nat) (v : Word), s.pairReady path Reg.RAS_PG_COMMIT v cycle → g = s.setGuard path none →
    n = s.fld F.RAS_PG_SEL_EXTENT →
    (bitOf v 0 = true → bitOf v 1 = true →
      exec (.pgCommit path (~~~v) cycle) s = .next (g.logReject B_RAS Reg.RAS_PG_COMMIT v REG_VALUE path)) ∧
    (∀ r, bitOf v 0 = true → bitOf v 1 = false → s.pgRefused (s.pg.committed.get 0 n) (s.pg.shadow.get 0 n) = some r →
      exec (.pgCommit path (~~~v) cycle) s = .next ((((g.setFld F.RAS_ERR_REASON r).setFld F.RAS_ERR_EXTENT n).setEvt
        F.RAS_EVT_PG_REFUSED).logReject B_RAS Reg.RAS_PG_COMMIT v REG_STATE path)) ∧
    (bitOf v 0 = true → bitOf v 1 = false → s.pgRefused (s.pg.committed.get 0 n) (s.pg.shadow.get 0 n) = none →
      exec (.pgCommit path (~~~v) cycle) s =
        .next { g with pg := { s.pg with pending := s.pg.pending.put n (s.pg.shadow.get 0 n) } }) ∧
    (bitOf v 0 = false → bitOf v 1 = true →
      exec (.pgDiscard path (~~~v) cycle) s =
        .next { g with pg := { s.pg with shadow := s.pg.shadow.put n (s.pg.committed.get 0 n) } })) ∧
  (∀ (s : State) (n : Nat) (e : BitVec 256) (src : List (Nat × List Byte)) (bad : List (Nat × Nat)), e = s.pg.committed.get 0 n →
    ((s.buildSources e).all (fun p => src.any (fun x => x.1 == p)) = true →
      (pgState e = PG_BUILDING → pgCursor e < 262144 → s.mayBuild n = true →
        exec (.pgBuildBlock n src bad) s = .next (s.buildNext n e src bad).pump) ∧
      (pgState e ≠ PG_BUILDING → redundancyRole e = true → s.isLull s.tick.now = true →
        exec (.pgBuildBlock n src bad) s = .next (s.rebuildListed n e src bad))) ∧
    ((s.buildSources e).all (fun p => src.any (fun x => x.1 == p)) = false → exec (.pgBuildBlock n src bad) s = .next s)) ∧
  (∀ (s u : State) (n : Nat) (e : BitVec 256) (src : List (Nat × List Byte)) (bad : List (Nat × Nat)), pgCursor e + 1 < 262144 →
    (List.range 64).foldl (fun (s : State) j => s.storeBuilt e (n * extentSize + 4096 * pgCursor e) j src bad) s = u →
    s.buildNext n e src bad = { u with pg := { u.pg with
      committed := u.pg.committed.put n (putBits e 200 19 (pgCursor e + 1)), built := u.pg.built + 1
      builtBy := u.pg.builtBy.updD 0 n (fun k => k + 1) } }) ∧
  (∀ (s g : State) (path cycle n : Nat) (v : Word), s.pairReady path Reg.CMP_SLICE_COMMIT v cycle → g = s.setGuard path none →
    n = s.sliceSel →
    (bitOf v 0 = true → bitOf v 1 = true →
      exec (.sliceCommit path (~~~v) cycle) s = .next (g.logReject B_CMP Reg.CMP_SLICE_COMMIT v REG_VALUE path)) ∧
    (∀ r, bitOf v 0 = true → bitOf v 1 = false → s.sliceFails n (s.sliceShadow n) false = some r →
      exec (.sliceCommit path (~~~v) cycle) s = .next (((g.setWord Reg.CMP_ERR (BitVec.ofNat 32 (r + at_ 16 n))).setEvt
        F.CMP_EVT_REFUSED).logReject B_CMP Reg.CMP_SLICE_COMMIT v REG_STATE path)) ∧
    (bitOf v 0 = true → bitOf v 1 = false → s.sliceFails n (s.sliceShadow n) false = none →
      exec (.sliceCommit path (~~~v) cycle) s =
        .next { g with slices := { s.slices with pending := s.slices.pending.put n (s.sliceShadow n, cycle) } }) ∧
    (bitOf v 0 = false → bitOf v 1 = true →
      exec (.sliceDiscard path (~~~v) cycle) s =
        .next { g with slices := { s.slices with shadow := s.slices.shadow.put n (s.slice n) } }))

/-- Secured management messages: orders, resets, register access (R616, R617, R637, R645, R648, R649, Table 20-11).
Where the rules leave a choice it is the model's own, in assumptions 3, 77. -/
def Obligations.ManagementOrders : Prop :=
  ∀ (s : State) (m : Msg),
    (s.admitted m →
      (∀ q a, exec (.retire m q a) s = .next (
        if (partOf a).isSome then (s.dueLoc a).orderReply m q 0 else s.orderReply m q ORDER_FORMAT)) ∧
      (∀ q t, exec (.swapOut m q t) s = .next (
        if s.tick.now + 4 ≤ t then State.orderReply { s with ras := { s.ras with swapOut := some t } } m q 0
        else s.orderReply m q ORDER_TICK)) ∧
      (∀ q d t dead, exec (.swapTake m q d t dead) s = .next (
        if t < s.tick.now + 4 then s.orderReply m q ORDER_TICK
        else if dead = false ∧ s.pg.committed.any (fun _ e =>
          pgSwapValid e && !(pgState e == PG_BUILDING && pgCursor e == 262144)) = true then s.orderReply m q ORDER_STATE
        else State.orderReply { s with ras := { s.ras with swapTake := some (d % 2 ^ 14, t, dead) } } m q 0)) ∧
      (∀ q d t e k, k = d % 2 ^ 14 → e = ((s.epochOf k).accepted + 1) % 256 →
        exec (.epochAnnounce m q d t) s = .next (
          if s.fld F.TIK_CTRL_MASTER = 0 then s.orderReply m q ORDER_STATE
          else if t < s.tick.now + 3 then s.orderReply m q ORDER_TICK
          else (State.announceEpoch { s with ras := { s.ras with
            announce := s.ras.announce.filter (fun a => a.1 != k) ++ [(k, e, t)] } } (k, e, t)).orderReply m q 0)) ∧
      (∀ q x a, exec (.buildPace m q x a) s = .next (
        if 1151 < x ∨ 65535 < a then s.orderReply m q ORDER_FORMAT
        else if s.assisted 9 = false then s.orderReply m q ORDER_STATE
        else State.orderReply { s with pg := { s.pg with pace := s.pg.pace.put x a } } m q 0)) ∧
      (∀ q u, u = (if s.ras.suspect then s.queueFault { cls := 0x61, location := LOC_MD, detail := s.ras.lateTicks } else s) →
        exec (.suspectClear m q) s = .next (State.orderReply { u with
          ras := { u.ras with suspect := false, suspectSince := 0, window := [] } } m q 0)) ∧
      (∀ q x, exec (.update m q x) s = .next (
        if 2 ≤ x then s.orderReply m q ORDER_FORMAT else if x = s.boot.image then s.orderReply m q ORDER_STATE
        else State.orderReply { s with boot := { s.boot with
          updating := s.boot.updating.filter (fun y => y != x) ++ [x] } } m q 0)) ∧
      exec (.cold m) s = .next s.coldReset ∧ exec (.warm m) s = .next s.warmReset ∧
      (∀ a, (a % 4 ≠ 0 ∨ 2 ^ 24 ≤ a) → exec (.regRead m a) s =
        .next (s.emit (.mgmtReply m.port 0x03 m.mseq (leBytes 4 a ++ leBytes 4 0 ++ leBytes 4 0)))) ∧
      (∀ a w u, a % 4 = 0 → a < 2 ^ 24 → s.readWord (8 + m.port) a = (w, u) → exec (.regRead m a) s =
        .next (u.emit (.mgmtReply m.port 0x03 m.mseq (leBytes 4 a ++ leBytes 4 w.toNat ++ leBytes 4 0)))) ∧
      (∀ a v c t r w u, s.regWrite (8 + m.port) a 4 v c = (t, r) → t.draw = (w, u) → exec (.regWrite m a v c) s =
        .next (u.emit (.mgmtReply m.port 0x03 m.mseq (leBytes 4 a ++ leBytes 4 w ++ leBytes 4 (boolNat r)))))) ∧
    (¬ s.admitted m → ∀ (a b d : Nat) (f : Bool) (c : Instr), c ∈ [.retire m a b, .swapOut m a b, .swapTake m a b d f, .epochAnnounce m a b d,
        .buildPace m a b d, .suspectClear m a, .update m a b, .cold m, .warm m, .regRead m a, .regWrite m a b d] →
      exec c s = .next { s with ras := { s.ras with discarded := s.ras.discarded + 1 } })

/-- Boot stages end in the next stage or fail the boot; time limits; images (R562, R565, R642, R643, R645, Table 22-5).
Where the rules leave a choice it is the model's own, in assumptions 3, 11, 81. -/
def Obligations.BootStages : Prop :=
  (∀ (s : State) (rep : StageReport), s.booting = true →
    (s.stage = STAGE_ROM → s.sec.fuses.getLsbD 2 = false → exec (.bootStageDone rep) s = .next (s.bootFail UDS_ABSENT)) ∧
    (s.stage = STAGE_ROM → s.sec.fuses.getLsbD 2 = true → exec (.bootStageDone rep) s = .next (State.nextStage { s with
      boot := { s.boot with
        records := if s.boot.warm then s.boot.records else (List.range 4).map (fun r => s.sec.otpValue r % 2 ^ 32)
        serial := s.sec.serialFuses, firmware := BitVec.ofNat 128 (rep.romRelease % 2 ^ 32)
        digests := [rep.romDigest, [], [], []] } })) ∧
    (∀ a b, s.stage = STAGE_FIRMWARE → s.validImage 0 rep.slotA = some a → s.validImage 0 rep.slotB = some b →
      exec (.bootStageDone rep) s = .next (if a.svn < b.svn then s.startLemtus 1 b else s.startLemtus 0 a)) ∧
    (∀ a, s.stage = STAGE_FIRMWARE → s.validImage 0 rep.slotA = some a → s.validImage 0 rep.slotB = none →
      exec (.bootStageDone rep) s = .next (s.startLemtus 0 a)) ∧
    (∀ b, s.stage = STAGE_FIRMWARE → s.validImage 0 rep.slotA = none → s.validImage 0 rep.slotB = some b →
      exec (.bootStageDone rep) s = .next (s.startLemtus 1 b)) ∧
    (s.stage = STAGE_FIRMWARE → s.validImage 0 rep.slotA = none → s.validImage 0 rep.slotB = none →
      (s.boot.imageEnd = false → exec (.bootStageDone rep) s = .next { s with boot := { s.boot with wantsImage := true } }) ∧
      (s.boot.imageEnd = true → s.validImage 0 rep.sent = none → exec (.bootStageDone rep) s = .next (s.bootFail NO_IMAGE)) ∧
      (∀ x, s.boot.imageEnd = true → s.validImage 0 rep.sent = some x → exec (.bootStageDone rep) s = .next (s.startLemtus 2 x))) ∧
    (∀ t, s.stage = STAGE_OTP → (t = if s.boot.warm then { s with boot := { s.boot with boardOk := boardOk rep.board, board := rep.board } }
        else { s with
          boot := { s.boot with boardOk := boardOk rep.board, board := rep.board }
          sec := { s.sec with otpGen := s.sec.genWord } }) →
      (t.validImage 1 rep.microcode = none → exec (.bootStageDone rep) s = .next (t.bootFail MICROCODE_REFUSED)) ∧
      (∀ a, t.validImage 1 rep.microcode = some a → t.validImage 2 rep.loader = none →
        exec (.bootStageDone rep) s = .next (t.bootFail LOADER_REFUSED)) ∧
      (∀ a b, t.validImage 1 rep.microcode = some a → t.validImage 2 rep.loader = some b →
        exec (.bootStageDone rep) s = .next (State.nextStage { t with boot := { t.boot with
          firmware := putBits (putBits t.boot.firmware 64 32 a.release) 96 32 b.release
          digests := (t.boot.digests.set 2 a.digest).set 3 b.digest } }))) ∧
    (s.stage = STAGE_CORES → rep.badPairs = [] →
      exec (.bootStageDone rep) s = .next (if s.pairsIn < 4 then s.bootFail BOOT_CORES else s.nextStage)) ∧
    (s.stage = STAGE_CORES → exec (.bootStageDone rep) s = .next (s.stageCores rep)) ∧
    (s.stage = STAGE_STACKS → exec (.bootStageDone rep) s = .next (s.stageStacks rep)) ∧
    (s.stage = STAGE_FLASH → exec (.bootStageDone rep) s = .next (s.stageFlash rep)) ∧
    (s.stage = STAGE_HOST_LINKS → exec (.bootStageDone rep) s = .next (s.stageLinks rep)) ∧
    (s.stage = STAGE_FABRIC → s.boot.warm = false → exec (.bootStageDone rep) s = .next (if s.fab.joined then s.nextStage else s)) ∧
    (s.stage = STAGE_TICK_SYNC →
      exec (.bootStageDone rep) s = .next (if s.tick.sync = .locked ∨ s.tick.sync = .free then s.nextStage else s)) ∧
    (s.stage = STAGE_SELF_TEST →
      exec (.bootStageDone rep) s = .next (if rep.mdOk then (rep.failed.foldl State.dealWith s).nextStage else s.bootFail MD_SELF_TEST)) ∧
    (s.stage = STAGE_FLASH ∨ s.stage = STAGE_HOST_LINKS → exec (.stageTimeout rep) s = exec (.bootStageDone rep) s) ∧
    (s.stage = STAGE_FABRIC → exec (.stageTimeout rep) s = .next (s.event FABRIC_UNJOINED LOC_MD).nextStage) ∧
    (s.stage = STAGE_TICK_SYNC → exec (.stageTimeout rep) s = .next (s.event TICK_UNLOCKED LOC_MD).nextStage) ∧
    (s.stage = STAGE_ROM ∨ s.stage = STAGE_FIRMWARE ∨ s.stage = STAGE_OTP ∨ s.stage = STAGE_CORES ∨ s.stage = STAGE_STACKS ∨
      s.stage = STAGE_SELF_TEST → exec (.stageTimeout rep) s = .next (s.bootFail BOOT_STAGE_LIMIT))) ∧
  (∀ (s : State) (rep : StageReport), s.booting = false →
    exec (.bootStageDone rep) s = .next s ∧ exec (.stageTimeout rep) s = .next s) ∧
  (∀ (s : State), s.stage + 1 ≠ STAGE_FABRIC → s.stage + 1 ≠ STAGE_TICK_SYNC → s.stage + 1 ≠ STAGE_READY →
    s.nextStage = s.setFld F.IDN_BOOT_STAGE (s.stage + 1)) ∧
  (∀ (s : State), exec .bootStatusTimer s =
    .next (if s.stage = STAGE_FAILED ∧ STAGE_OTP ≤ s.fld F.IDN_BOOT_FAIL_STAGE then s.bootStatus else s)) ∧
  (∀ (s t : State) (port addr : Nat) (l gap old : List Byte), port < 2 → s.boot.wantsImage = true → s.boot.imageEnd = false →
    s.drawBytes (addr - s.boot.received.length) = (gap, t) → old = s.boot.received ++ gap →
    exec (.image port addr l) s = .next (if l = [] then { s with boot := { s.boot with imageEnd := true } }
      else { t with boot := { t.boot with received := old.take addr ++ l ++ old.drop (addr + l.length) } }))

/-- Cold and warm reset; power-good, reset and clock lands; rail faults; thermal trip (R35, R637, R638, R641, R658, R661, R662, R665, Table 22-3).
Where the rules leave a choice it is the model's own, in assumptions 6, 79, 80, 82. -/
def Obligations.ResetsAndLands : Prop :=
  (∀ (s : State), s.coldReset = State.heldLands { s.coldState with boot := { s.coldState.boot with
      number := s.boot.number + 1, held := s.boot.tripped || s.boot.resetLow || !s.boot.mainGood || !s.boot.mgtGood } } ∧
    s.coldState.mem = State.reset.mem ∧ s.coldState.regs = State.reset.regs ∧ s.coldState.slots = State.reset.slots ∧
    s.coldState.faults = [] ∧ s.coldState.pending = s.pending ∧ s.coldState.sec.fuses.toNat = s.sec.fuses.toNat -
      256 * boolNat (s.sec.fuses.getLsbD 8)) ∧
  (∀ (s : State), (s.boot.mgtGood = false →
      exec .mgtPwrgoodRise s = .next (State.coldReset { s with boot := { s.boot with mgtGood := true } })) ∧
    (s.boot.mgtGood = true → exec .mgtPwrgoodRise s = .next s)) ∧
  (∀ (s u : State), State.heldLands { s.coldState with boot := { s.coldState.boot with mgtGood := false, tripped := false, held := true } } = u →
    exec .mgtPwrgoodFall s = .next (if s.boot.tripped then u.emit (.pin PIN_THERMTRIP_N true) else u)) ∧
  (∀ (s : State), exec .mainPwrgoodFall s = .next (State.coldReset { s with boot := { s.boot with mainGood := false } }) ∧
    exec .resetNAssert s = .next (State.coldReset { s with boot := { s.boot with resetLow := true } }) ∧
    exec .mainPwrgoodRise s = .next { s with boot := { s.boot with
      mainGood := true, held := s.boot.tripped || s.boot.resetLow || !s.boot.mgtGood } } ∧
    exec .resetNRelease s = .next { s with boot := { s.boot with
      resetLow := false, held := s.boot.tripped || !s.boot.mainGood || !s.boot.mgtGood } }) ∧
  (∀ (s : State), exec .lemtusWatchdog s = .next (
    if s.boot.stacksDone = false then s.coldReset else if s.stage = STAGE_FAILED then s else s.warmSteps)) ∧
  (∀ (s : State) (row : Nat) (r : Rail), railOfRow row = some r → s.boot.mainGood = true →
    exec (.railFault row) s = exec .mainPwrgoodFall (s.event RAIL_FAULTED LOC_MD row)) ∧
  (∀ (s : State) (k : Nat), k < 8 → exec (.refclkLoss k) s = exec (.perstAssert k) s) ∧
  (∀ (s : State) (k : Nat), k < 4 → exec (.refclkLoss (8 + k)) s = .next (s.loseDie (0x20 + k))) ∧
  (∀ (s : State), exec (.refclkLoss 12) s = .next (State.heldLands { s with boot := { s.boot with clockStopped := true } })) ∧
  (∀ (s u : State) (loc : Nat), u = s.emit (.pin PIN_THERMTRIP_N false) →
    (s.boot.tripped = true → exec (.thermTrip loc) s = .next s) ∧
    (s.boot.tripped = false → exec (.thermTrip loc) s = .next ((State.heldLands { u.tripDies with
      boot := { s.boot with tripped := true, held := true } }).event THERM_TRIPPED loc)))

/-- A step takes exactly the front command, and no run faults or is refused (00_scope.md, Table 2-6).
Where the rules leave a choice it is the model's own, in assumption 88. -/
def Obligations.RunsNeitherFaultNorRefuse : Prop :=
  (∀ (s : State) (c : Instr) (l : List Instr), s.pending = c :: l → ∃ t, step s = .next t ∧ t.pending = l) ∧
  ∀ (n : Nat) (s : State), safeRun n s

/-- Every step keeps the memory in its canonical form (R77, R576).
Where the rules leave a choice it is the model's own, in assumption 6. -/
def Obligations.MemoryStaysCanonical : Prop :=
  ∀ (s t : State), s.memOk → step s = .next t → t.memOk

/-- The device never holds more than 4,096 fault records, the last place for OVERFLOW (R596, R597). -/
def Obligations.FaultRecordsStayBounded : Prop :=
  ∀ (s t : State), faultsOk s.faults → step s = .next t → faultsOk t.faults

/-- The reset state has canonical memory, no fault record, and an empty queue (R597, R641).
Where the rules leave a choice it is the model's own, in assumptions 6, 7. -/
def Obligations.InvariantsHoldAtReset : Prop :=
  State.reset.memOk ∧ faultsOk State.reset.faults ∧ State.reset.mem.bytes = [] ∧ State.reset.pending = []

/-- Every DPA of the DRAM range has the home of R79, and no two share a place (R79). -/
def Obligations.HomesOfAddresses : Prop :=
  (∀ (d g : Nat), d < dramEnd → g = d % 0x2400000000 / 0x1000 →
    (homeOf d).band = d / 0x2400000000 ∧ (homeOf d).h = g % 24 ∧ (homeOf d).die = g % 24 % 6 ∧ (homeOf d).region = g % 24 / 6 ∧
    (homeOf d).stack = 2 * (g % 24 % 6) + g % 24 / 6 / 2 ∧ (homeOf d).channel = 8 * (g % 24 / 6 % 2) + d / 0x2400000000 ∧
    (homeOf d).choff = g / 24 * 0x1000 + d % 0x1000 ∧ (homeOf d).coredie = 1 + (homeOf d).choff / 0x40000000 ∧
    (homeOf d).band < 8 ∧ (homeOf d).die < 6 ∧ (homeOf d).region < 4 ∧ (homeOf d).stack < 12 ∧ (homeOf d).channel < 16 ∧
    (homeOf d).channel % 8 = (homeOf d).band ∧ 1 ≤ (homeOf d).coredie ∧ (homeOf d).coredie ≤ 6) ∧
  (∀ (d e : Nat), d < dramEnd → e < dramEnd → (homeOf d).stack = (homeOf e).stack → (homeOf d).channel = (homeOf e).channel →
    (homeOf d).choff = (homeOf e).choff → d = e) ∧
  (∀ (k die : Nat), 0x6000 * k + 0x6000 ≤ dramEnd → die < 6 → ∃ x, x < 0x6000 ∧ (homeOf (0x6000 * k + x)).die = die)

/-- A byte written under a key reads back under it, and no other byte changes as that key reads it (R94, R576).
Where the rules leave a choice it is the model's own, in assumptions 4, 6. -/
def Obligations.ReadsSeeWrites : Prop :=
  ∀ (s : State) (key d : Nat) (l : List Byte), s.memOk →
    (s.pokeN key d l []).memOk ∧
    ∀ x, (s.pokeN key d l []).peek key x = if d ≤ x ∧ x < d + l.length then l.getD (x - d) 0 else s.peek key x

/-- Counter updates arm and notify; event bits set once and stay; a finished descriptor (R64, R113, R115, R116, R550). -/
def Obligations.CountersAndEvents : Prop :=
  (∀ (s : State) (n : Nat) (f : Counter → Counter) (c : Counter), c = f (s.counter n) →
    (c.armed = true → c.notifyEn = true → c.threshold ≤ c.value →
      s.updateCounter n f = (s.setCounter n { c with armed := false }).sendNotify n) ∧
    (c.value < c.threshold → s.updateCounter n f = s.setCounter n { c with armed := true }) ∧
    (c.threshold ≤ c.value → (c.armed = false ∨ c.notifyEn = false) → s.updateCounter n f = s.setCounter n c)) ∧
  (∀ (s : State) (n k : Nat),
    s.creditCounter n k = s.updateCounter n (fun c => { c with value := (c.value + k) % 2 ^ 64 })) ∧
  (∀ (s : State) (f : Fld), f.lo + f.len ≤ 32 → 0 < f.len → OnlyRegs s (s.setEvt f) ∧ (s.setEvt f).fld f = 1 ∧
    ∀ o, o ≠ f.off → (s.setEvt f).word o = s.word o) ∧
  (∀ (s : State) (tok : Nat) (d : Desc) (c : Cpl), s.desc tok = some d →
    (∃ e, (s.finish tok c).desc tok = some e ∧ e.phase = .finished ∧ e.bits = d.bits ∧ e.src = d.src ∧
      e.cpl.status = c.status ∧ e.cpl.done = c.done ∧ e.cpl.dropped = c.dropped ∧ e.cpl.result = c.result ∧
      (c.reason ≠ 0 → e.cpl.reason = c.reason)) ∧
    ∀ k, k ≠ tok → (s.finish tok c).desc k = s.desc k)
end

