-- ==== Sys2Proof/Laws/Mem.lean ====
section
/-! SUPPORT. The laws of the two containers: tables and canonical memories. -/

namespace Sys2Proof

namespace Tab
variable {α : Type}

@[simp] theorem find_nil (k : Nat) : find ([] : Tab α) k = none := rfl

theorem find_cons (k' k : Nat) (v : α) (t : Tab α) :
    find ((k', v) :: t) k = if k = k' then some v else find t k := rfl

/-- What a table answers after an entry is put. -/
theorem find_put (t : Tab α) (k j : Nat) (v : α) :
    find (put t k v) j = if j = k then some v else find t j := by
  induction t with
  | nil => simp [put, find_cons]
  | cons e t ih =>
    obtain ⟨k', v'⟩ := e
    simp only [put]
    split
    · subst_vars; simp only [find_cons]; split <;> simp_all
    · split
      · simp only [find_cons]
      · simp only [find_cons, ih]
        split <;> split <;> simp_all

@[simp] theorem find_put_self (t : Tab α) (k : Nat) (v : α) : find (put t k v) k = some v := by simp [find_put]

theorem find_put_other (t : Tab α) {k j : Nat} (v : α) (h : j ≠ k) : find (put t k v) j = find t j := by
  simp [find_put, h]

@[simp] theorem get_put_self (t : Tab α) (d : α) (k : Nat) (v : α) : get (put t k v) d k = v := by simp [get]

theorem get_put (t : Tab α) (d : α) (k j : Nat) (v : α) :
    get (put t k v) d j = if j = k then v else get t d j := by
  simp only [get, find_put]; split <;> rfl

/-- The last of two entries put under one key stands. -/
@[simp] theorem put_put (t : Tab α) (k : Nat) (a b : α) : put (put t k a) k b = put t k b := by
  induction t with
  | nil => simp [put]
  | cons e t ih =>
    obtain ⟨k', v'⟩ := e
    simp only [put]
    split
    · simp [put]
    · split
      · simp [put]
      · simp [put, *]

/-- What a table answers after an entry is taken out. -/
theorem find_del (t : Tab α) (k j : Nat) : find (del t k) j = if j = k then none else find t j := by
  induction t with
  | nil => simp [del]
  | cons e t ih =>
    obtain ⟨k', v'⟩ := e
    simp only [del, List.filter_cons, bne_iff_ne, ne_eq] at ih ⊢
    by_cases h : k' = k
    · subst h; simp only [find_cons, not_true_eq_false, if_false, ih]
      split <;> simp_all
    · simp only [h, not_false_eq_true, if_true, find_cons, ih]
      split <;> split <;> simp_all

@[simp] theorem find_del_self (t : Tab α) (k : Nat) : find (del t k) k = none := by simp [find_del]

end Tab

namespace Mem

@[simp] theorem wf_nil : wf [] = true := rfl

/-- The canonical form, by its head: no blank byte, and every later address above it. -/
theorem wf_cons {a : Nat} {b : Byte} {t : Mem} :
    wf ((a, b) :: t) = true ↔ b ≠ blank ∧ (∀ c ∈ t, a < c.1) ∧ wf t = true := by
  induction t generalizing a b with
  | nil => simp [wf]
  | cons e t ih =>
    obtain ⟨a', b'⟩ := e
    simp only [wf, Bool.and_eq_true, bne_iff_ne, ne_eq, decide_eq_true_eq, List.mem_cons, forall_eq_or_imp]
    constructor
    · rintro ⟨⟨hb, ha⟩, hw⟩
      exact ⟨hb, ⟨ha, fun c hc => Nat.lt_trans ha ((ih.1 hw).2.1 c hc)⟩, hw⟩
    · rintro ⟨hb, ⟨ha, _⟩, hw⟩
      exact ⟨⟨hb, ha⟩, hw⟩

/-- Every address of the memory after a write is the one written or one listed before. -/
theorem mem_write {m : Mem} {a : Nat} {b : Byte} {c : Host.Cell} (h : c ∈ write m a b) : c.1 = a ∨ c ∈ m := by
  induction m with
  | nil => simp only [write] at h; split at h <;> simp_all
  | cons e t ih =>
    obtain ⟨a', b'⟩ := e
    simp only [write] at h
    split at h
    · split at h
      · exact .inr (List.mem_cons_of_mem _ h)
      · rcases List.mem_cons.1 h with h | h
        · exact .inl (by rw [h])
        · exact .inr (List.mem_cons_of_mem _ h)
    · split at h
      · split at h
        · exact .inr h
        · rcases List.mem_cons.1 h with h | h
          · exact .inl (by rw [h])
          · exact .inr h
      · rcases List.mem_cons.1 h with h | h
        · exact .inr (by rw [h]; exact List.mem_cons_self)
        · rcases ih h with h | h
          · exact .inl h
          · exact .inr (List.mem_cons_of_mem _ h)

/-- A write keeps the canonical form. -/
theorem wf_write {m : Mem} (a : Nat) (b : Byte) (h : wf m = true) : wf (write m a b) = true := by
  induction m with
  | nil => simp only [write]; split <;> simp_all [wf]
  | cons e t ih =>
    obtain ⟨a', b'⟩ := e
    obtain ⟨hb, ha, ht⟩ := wf_cons.1 h
    simp only [write]
    split
    · subst_vars
      split
      · exact ht
      · exact wf_cons.2 ⟨‹_›, ha, ht⟩
    · split
      · split
        · exact h
        · refine wf_cons.2 ⟨‹_›, ?_, h⟩
          intro c hc
          rcases List.mem_cons.1 hc with rfl | hc
          · assumption
          · exact Nat.lt_trans ‹_› (ha c hc)
      · refine wf_cons.2 ⟨hb, ?_, ih ht⟩
        intro c hc
        rcases mem_write hc with hc | hc
        · omega
        · exact ha c hc

theorem wf_writeN {m : Mem} (a : Nat) (l : List Byte) (h : wf m = true) : wf (writeN m a l) = true := by
  induction l generalizing m a with
  | nil => exact h
  | cons b t ih => exact ih (a + 1) (wf_write a b h)

/-- Forgetting bytes keeps the canonical form. -/
theorem wf_clearWhere {m : Mem} (p : Nat → Bool) (h : wf m = true) : wf (clearWhere m p) = true := by
  induction m with
  | nil => rfl
  | cons e t ih =>
    obtain ⟨a, b⟩ := e
    obtain ⟨hb, ha, ht⟩ := wf_cons.1 h
    unfold clearWhere at ih ⊢
    rw [List.filter_cons]
    split
    · exact wf_cons.2 ⟨hb, fun c hc => ha c (List.mem_filter.1 hc).1, ih ht⟩
    · exact ih ht

/-- A byte below every listed address reads as blank. -/
theorem read_low {m : Mem} {a : Nat} (h : ∀ c ∈ m, a < c.1) : read m a = blank := by
  induction m with
  | nil => rfl
  | cons e t ih =>
    obtain ⟨a', b'⟩ := e
    have h1 : a < a' := h _ List.mem_cons_self
    simp only [read]
    rw [if_neg (by omega)]
    exact ih (fun c hc => h c (List.mem_cons_of_mem _ hc))

/-- What a memory in canonical form answers after a write. -/
theorem read_write {m : Mem} (h : wf m = true) (a x : Nat) (b : Byte) :
    read (write m a b) x = if x = a then b else read m x := by
  induction m with
  | nil =>
    simp only [write]
    split <;> simp only [read] <;> split <;> simp_all
  | cons e t ih =>
    obtain ⟨a', b'⟩ := e
    obtain ⟨hb, ha, ht⟩ := wf_cons.1 h
    simp only [write]
    split
    · subst_vars
      split
      · by_cases hx : x = a'
        · subst hx; simp [read_low ha, *]
        · simp [read, hx]
      · simp only [read]; split <;> simp_all
    · split
      · split
        · by_cases hx : x = a
          · subst hx
            rw [if_pos rfl, ‹b = blank›]
            refine read_low ?_
            intro c hc
            rcases List.mem_cons.1 hc with rfl | hc
            · assumption
            · exact Nat.lt_trans ‹_› (ha c hc)
          · simp [hx]
        · simp only [read]
      · simp only [read, ih ht]
        split
        · split
          · omega
          · rfl
        · rfl

/-- What a memory in canonical form answers after a run of bytes is written. -/
theorem read_writeN {m : Mem} (h : wf m = true) (a x : Nat) (l : List Byte) :
    read (writeN m a l) x = if a ≤ x ∧ x < a + l.length then l.getD (x - a) 0 else read m x := by
  induction l generalizing m a with
  | nil =>
    simp only [writeN, List.length_nil, Nat.add_zero]
    rw [if_neg (by omega)]
  | cons b t ih =>
    simp only [writeN, ih (wf_write a b h), read_write h, List.length_cons]
    by_cases hx : x = a
    · subst hx
      rw [if_neg (by omega), if_pos rfl, if_pos (by omega)]
      simp
    · rw [if_neg hx]
      by_cases hr : a + 1 ≤ x ∧ x < a + 1 + t.length
      · rw [if_pos hr, if_pos (by omega)]
        obtain ⟨k, rfl⟩ : ∃ k, x = a + 1 + k := ⟨x - (a + 1), by omega⟩
        rw [show a + 1 + k - (a + 1) = k by omega, show a + 1 + k - a = k + 1 by omega]
        simp
      · rw [if_neg hr, if_neg (by omega)]

end Mem

end Sys2Proof
end

