-- ==== Sys2Proof/Laws/State.lean ====
section
/-! SUPPORT. One lemma per field per update of the state, and what each accessor reads after an update. -/

namespace Sys2Proof.Machine

set_option Elab.async false

/-! ### emit -/

section
variable (s : State) (o : Out)
@[simp] theorem State.emit_pending : (s.emit o).pending = s.pending := rfl
@[simp] theorem State.emit_fresh : (s.emit o).fresh = s.fresh := rfl
@[simp] theorem State.emit_out : (s.emit o).out = o :: s.out := rfl
@[simp] theorem State.emit_regs : (s.emit o).regs = s.regs := rfl
@[simp] theorem State.emit_rings : (s.emit o).rings = s.rings := rfl
@[simp] theorem State.emit_tick : (s.emit o).tick = s.tick := rfl
@[simp] theorem State.emit_mem : (s.emit o).mem = s.mem := rfl
@[simp] theorem State.emit_win : (s.emit o).win = s.win := rfl
@[simp] theorem State.emit_ord : (s.emit o).ord = s.ord := rfl
@[simp] theorem State.emit_fab : (s.emit o).fab = s.fab := rfl
@[simp] theorem State.emit_dir : (s.emit o).dir = s.dir := rfl
@[simp] theorem State.emit_host : (s.emit o).host = s.host := rfl
@[simp] theorem State.emit_xlt : (s.emit o).xlt = s.xlt := rfl
@[simp] theorem State.emit_tier : (s.emit o).tier = s.tier := rfl
@[simp] theorem State.emit_cdc : (s.emit o).cdc = s.cdc := rfl
@[simp] theorem State.emit_mtx : (s.emit o).mtx = s.mtx := rfl
@[simp] theorem State.emit_kv : (s.emit o).kv = s.kv := rfl
@[simp] theorem State.emit_emb : (s.emit o).emb = s.emb := rfl
@[simp] theorem State.emit_srh : (s.emit o).srh = s.srh := rfl
@[simp] theorem State.emit_que : (s.emit o).que = s.que := rfl
@[simp] theorem State.emit_pg : (s.emit o).pg = s.pg := rfl
@[simp] theorem State.emit_sec : (s.emit o).sec = s.sec := rfl
@[simp] theorem State.emit_slots : (s.emit o).slots = s.slots := rfl
@[simp] theorem State.emit_slices : (s.emit o).slices = s.slices := rfl
@[simp] theorem State.emit_units : (s.emit o).units = s.units := rfl
@[simp] theorem State.emit_stk : (s.emit o).stk = s.stk := rfl
@[simp] theorem State.emit_ras : (s.emit o).ras = s.ras := rfl
@[simp] theorem State.emit_boot : (s.emit o).boot = s.boot := rfl
@[simp] theorem State.emit_faults : (s.emit o).faults = s.faults := rfl
@[simp] theorem State.emit_faultSeq : (s.emit o).faultSeq = s.faultSeq := rfl
end

/-! ### setWord -/

section
variable (s : State) (off : Nat) (w : Word)
@[simp] theorem State.setWord_pending : (s.setWord off w).pending = s.pending := rfl
@[simp] theorem State.setWord_fresh : (s.setWord off w).fresh = s.fresh := rfl
@[simp] theorem State.setWord_out : (s.setWord off w).out = s.out := rfl
@[simp] theorem State.setWord_regs : (s.setWord off w).regs = { s.regs with words := s.regs.words.put off w } := rfl
@[simp] theorem State.setWord_rings : (s.setWord off w).rings = s.rings := rfl
@[simp] theorem State.setWord_tick : (s.setWord off w).tick = s.tick := rfl
@[simp] theorem State.setWord_mem : (s.setWord off w).mem = s.mem := rfl
@[simp] theorem State.setWord_win : (s.setWord off w).win = s.win := rfl
@[simp] theorem State.setWord_ord : (s.setWord off w).ord = s.ord := rfl
@[simp] theorem State.setWord_fab : (s.setWord off w).fab = s.fab := rfl
@[simp] theorem State.setWord_dir : (s.setWord off w).dir = s.dir := rfl
@[simp] theorem State.setWord_host : (s.setWord off w).host = s.host := rfl
@[simp] theorem State.setWord_xlt : (s.setWord off w).xlt = s.xlt := rfl
@[simp] theorem State.setWord_tier : (s.setWord off w).tier = s.tier := rfl
@[simp] theorem State.setWord_cdc : (s.setWord off w).cdc = s.cdc := rfl
@[simp] theorem State.setWord_mtx : (s.setWord off w).mtx = s.mtx := rfl
@[simp] theorem State.setWord_kv : (s.setWord off w).kv = s.kv := rfl
@[simp] theorem State.setWord_emb : (s.setWord off w).emb = s.emb := rfl
@[simp] theorem State.setWord_srh : (s.setWord off w).srh = s.srh := rfl
@[simp] theorem State.setWord_que : (s.setWord off w).que = s.que := rfl
@[simp] theorem State.setWord_pg : (s.setWord off w).pg = s.pg := rfl
@[simp] theorem State.setWord_sec : (s.setWord off w).sec = s.sec := rfl
@[simp] theorem State.setWord_slots : (s.setWord off w).slots = s.slots := rfl
@[simp] theorem State.setWord_slices : (s.setWord off w).slices = s.slices := rfl
@[simp] theorem State.setWord_units : (s.setWord off w).units = s.units := rfl
@[simp] theorem State.setWord_stk : (s.setWord off w).stk = s.stk := rfl
@[simp] theorem State.setWord_ras : (s.setWord off w).ras = s.ras := rfl
@[simp] theorem State.setWord_boot : (s.setWord off w).boot = s.boot := rfl
@[simp] theorem State.setWord_faults : (s.setWord off w).faults = s.faults := rfl
@[simp] theorem State.setWord_faultSeq : (s.setWord off w).faultSeq = s.faultSeq := rfl
end

/-! ### setFld -/

section
variable (s : State) (f : Fld) (v : Nat)
@[simp] theorem State.setFld_pending : (s.setFld f v).pending = s.pending := rfl
@[simp] theorem State.setFld_fresh : (s.setFld f v).fresh = s.fresh := rfl
@[simp] theorem State.setFld_out : (s.setFld f v).out = s.out := rfl
@[simp] theorem State.setFld_rings : (s.setFld f v).rings = s.rings := rfl
@[simp] theorem State.setFld_tick : (s.setFld f v).tick = s.tick := rfl
@[simp] theorem State.setFld_mem : (s.setFld f v).mem = s.mem := rfl
@[simp] theorem State.setFld_win : (s.setFld f v).win = s.win := rfl
@[simp] theorem State.setFld_ord : (s.setFld f v).ord = s.ord := rfl
@[simp] theorem State.setFld_fab : (s.setFld f v).fab = s.fab := rfl
@[simp] theorem State.setFld_dir : (s.setFld f v).dir = s.dir := rfl
@[simp] theorem State.setFld_host : (s.setFld f v).host = s.host := rfl
@[simp] theorem State.setFld_xlt : (s.setFld f v).xlt = s.xlt := rfl
@[simp] theorem State.setFld_tier : (s.setFld f v).tier = s.tier := rfl
@[simp] theorem State.setFld_cdc : (s.setFld f v).cdc = s.cdc := rfl
@[simp] theorem State.setFld_mtx : (s.setFld f v).mtx = s.mtx := rfl
@[simp] theorem State.setFld_kv : (s.setFld f v).kv = s.kv := rfl
@[simp] theorem State.setFld_emb : (s.setFld f v).emb = s.emb := rfl
@[simp] theorem State.setFld_srh : (s.setFld f v).srh = s.srh := rfl
@[simp] theorem State.setFld_que : (s.setFld f v).que = s.que := rfl
@[simp] theorem State.setFld_pg : (s.setFld f v).pg = s.pg := rfl
@[simp] theorem State.setFld_sec : (s.setFld f v).sec = s.sec := rfl
@[simp] theorem State.setFld_slots : (s.setFld f v).slots = s.slots := rfl
@[simp] theorem State.setFld_slices : (s.setFld f v).slices = s.slices := rfl
@[simp] theorem State.setFld_units : (s.setFld f v).units = s.units := rfl
@[simp] theorem State.setFld_stk : (s.setFld f v).stk = s.stk := rfl
@[simp] theorem State.setFld_ras : (s.setFld f v).ras = s.ras := rfl
@[simp] theorem State.setFld_boot : (s.setFld f v).boot = s.boot := rfl
@[simp] theorem State.setFld_faults : (s.setFld f v).faults = s.faults := rfl
@[simp] theorem State.setFld_faultSeq : (s.setFld f v).faultSeq = s.faultSeq := rfl
end

/-! ### setGuard -/

section
variable (s : State) (path : Nat) (g : Option Guard)
@[simp] theorem State.setGuard_pending : (s.setGuard path g).pending = s.pending := rfl
@[simp] theorem State.setGuard_fresh : (s.setGuard path g).fresh = s.fresh := rfl
@[simp] theorem State.setGuard_out : (s.setGuard path g).out = s.out := rfl
@[simp] theorem State.setGuard_rings : (s.setGuard path g).rings = s.rings := rfl
@[simp] theorem State.setGuard_tick : (s.setGuard path g).tick = s.tick := rfl
@[simp] theorem State.setGuard_mem : (s.setGuard path g).mem = s.mem := rfl
@[simp] theorem State.setGuard_win : (s.setGuard path g).win = s.win := rfl
@[simp] theorem State.setGuard_ord : (s.setGuard path g).ord = s.ord := rfl
@[simp] theorem State.setGuard_fab : (s.setGuard path g).fab = s.fab := rfl
@[simp] theorem State.setGuard_dir : (s.setGuard path g).dir = s.dir := rfl
@[simp] theorem State.setGuard_host : (s.setGuard path g).host = s.host := rfl
@[simp] theorem State.setGuard_xlt : (s.setGuard path g).xlt = s.xlt := rfl
@[simp] theorem State.setGuard_tier : (s.setGuard path g).tier = s.tier := rfl
@[simp] theorem State.setGuard_cdc : (s.setGuard path g).cdc = s.cdc := rfl
@[simp] theorem State.setGuard_mtx : (s.setGuard path g).mtx = s.mtx := rfl
@[simp] theorem State.setGuard_kv : (s.setGuard path g).kv = s.kv := rfl
@[simp] theorem State.setGuard_emb : (s.setGuard path g).emb = s.emb := rfl
@[simp] theorem State.setGuard_srh : (s.setGuard path g).srh = s.srh := rfl
@[simp] theorem State.setGuard_que : (s.setGuard path g).que = s.que := rfl
@[simp] theorem State.setGuard_pg : (s.setGuard path g).pg = s.pg := rfl
@[simp] theorem State.setGuard_sec : (s.setGuard path g).sec = s.sec := rfl
@[simp] theorem State.setGuard_slots : (s.setGuard path g).slots = s.slots := rfl
@[simp] theorem State.setGuard_slices : (s.setGuard path g).slices = s.slices := rfl
@[simp] theorem State.setGuard_units : (s.setGuard path g).units = s.units := rfl
@[simp] theorem State.setGuard_stk : (s.setGuard path g).stk = s.stk := rfl
@[simp] theorem State.setGuard_ras : (s.setGuard path g).ras = s.ras := rfl
@[simp] theorem State.setGuard_boot : (s.setGuard path g).boot = s.boot := rfl
@[simp] theorem State.setGuard_faults : (s.setGuard path g).faults = s.faults := rfl
@[simp] theorem State.setGuard_faultSeq : (s.setGuard path g).faultSeq = s.faultSeq := rfl
end

/-! ### setRing -/

section
variable (s : State) (n : Nat) (r : Ring)
@[simp] theorem State.setRing_pending : (s.setRing n r).pending = s.pending := rfl
@[simp] theorem State.setRing_fresh : (s.setRing n r).fresh = s.fresh := rfl
@[simp] theorem State.setRing_out : (s.setRing n r).out = s.out := rfl
@[simp] theorem State.setRing_regs : (s.setRing n r).regs = s.regs := rfl
@[simp] theorem State.setRing_rings : (s.setRing n r).rings = { s.rings with rings := s.rings.rings.put n r } := rfl
@[simp] theorem State.setRing_tick : (s.setRing n r).tick = s.tick := rfl
@[simp] theorem State.setRing_mem : (s.setRing n r).mem = s.mem := rfl
@[simp] theorem State.setRing_win : (s.setRing n r).win = s.win := rfl
@[simp] theorem State.setRing_ord : (s.setRing n r).ord = s.ord := rfl
@[simp] theorem State.setRing_fab : (s.setRing n r).fab = s.fab := rfl
@[simp] theorem State.setRing_dir : (s.setRing n r).dir = s.dir := rfl
@[simp] theorem State.setRing_host : (s.setRing n r).host = s.host := rfl
@[simp] theorem State.setRing_xlt : (s.setRing n r).xlt = s.xlt := rfl
@[simp] theorem State.setRing_tier : (s.setRing n r).tier = s.tier := rfl
@[simp] theorem State.setRing_cdc : (s.setRing n r).cdc = s.cdc := rfl
@[simp] theorem State.setRing_mtx : (s.setRing n r).mtx = s.mtx := rfl
@[simp] theorem State.setRing_kv : (s.setRing n r).kv = s.kv := rfl
@[simp] theorem State.setRing_emb : (s.setRing n r).emb = s.emb := rfl
@[simp] theorem State.setRing_srh : (s.setRing n r).srh = s.srh := rfl
@[simp] theorem State.setRing_que : (s.setRing n r).que = s.que := rfl
@[simp] theorem State.setRing_pg : (s.setRing n r).pg = s.pg := rfl
@[simp] theorem State.setRing_sec : (s.setRing n r).sec = s.sec := rfl
@[simp] theorem State.setRing_slots : (s.setRing n r).slots = s.slots := rfl
@[simp] theorem State.setRing_slices : (s.setRing n r).slices = s.slices := rfl
@[simp] theorem State.setRing_units : (s.setRing n r).units = s.units := rfl
@[simp] theorem State.setRing_stk : (s.setRing n r).stk = s.stk := rfl
@[simp] theorem State.setRing_ras : (s.setRing n r).ras = s.ras := rfl
@[simp] theorem State.setRing_boot : (s.setRing n r).boot = s.boot := rfl
@[simp] theorem State.setRing_faults : (s.setRing n r).faults = s.faults := rfl
@[simp] theorem State.setRing_faultSeq : (s.setRing n r).faultSeq = s.faultSeq := rfl
end

/-! ### setSubq -/

section
variable (s : State) (n : Nat) (q : Subq)
@[simp] theorem State.setSubq_pending : (s.setSubq n q).pending = s.pending := rfl
@[simp] theorem State.setSubq_fresh : (s.setSubq n q).fresh = s.fresh := rfl
@[simp] theorem State.setSubq_out : (s.setSubq n q).out = s.out := rfl
@[simp] theorem State.setSubq_regs : (s.setSubq n q).regs = s.regs := rfl
@[simp] theorem State.setSubq_rings : (s.setSubq n q).rings = { s.rings with subqs := s.rings.subqs.put n q } := rfl
@[simp] theorem State.setSubq_tick : (s.setSubq n q).tick = s.tick := rfl
@[simp] theorem State.setSubq_mem : (s.setSubq n q).mem = s.mem := rfl
@[simp] theorem State.setSubq_win : (s.setSubq n q).win = s.win := rfl
@[simp] theorem State.setSubq_ord : (s.setSubq n q).ord = s.ord := rfl
@[simp] theorem State.setSubq_fab : (s.setSubq n q).fab = s.fab := rfl
@[simp] theorem State.setSubq_dir : (s.setSubq n q).dir = s.dir := rfl
@[simp] theorem State.setSubq_host : (s.setSubq n q).host = s.host := rfl
@[simp] theorem State.setSubq_xlt : (s.setSubq n q).xlt = s.xlt := rfl
@[simp] theorem State.setSubq_tier : (s.setSubq n q).tier = s.tier := rfl
@[simp] theorem State.setSubq_cdc : (s.setSubq n q).cdc = s.cdc := rfl
@[simp] theorem State.setSubq_mtx : (s.setSubq n q).mtx = s.mtx := rfl
@[simp] theorem State.setSubq_kv : (s.setSubq n q).kv = s.kv := rfl
@[simp] theorem State.setSubq_emb : (s.setSubq n q).emb = s.emb := rfl
@[simp] theorem State.setSubq_srh : (s.setSubq n q).srh = s.srh := rfl
@[simp] theorem State.setSubq_que : (s.setSubq n q).que = s.que := rfl
@[simp] theorem State.setSubq_pg : (s.setSubq n q).pg = s.pg := rfl
@[simp] theorem State.setSubq_sec : (s.setSubq n q).sec = s.sec := rfl
@[simp] theorem State.setSubq_slots : (s.setSubq n q).slots = s.slots := rfl
@[simp] theorem State.setSubq_slices : (s.setSubq n q).slices = s.slices := rfl
@[simp] theorem State.setSubq_units : (s.setSubq n q).units = s.units := rfl
@[simp] theorem State.setSubq_stk : (s.setSubq n q).stk = s.stk := rfl
@[simp] theorem State.setSubq_ras : (s.setSubq n q).ras = s.ras := rfl
@[simp] theorem State.setSubq_boot : (s.setSubq n q).boot = s.boot := rfl
@[simp] theorem State.setSubq_faults : (s.setSubq n q).faults = s.faults := rfl
@[simp] theorem State.setSubq_faultSeq : (s.setSubq n q).faultSeq = s.faultSeq := rfl
end

/-! ### setDesc -/

section
variable (s : State) (tok : Nat) (d : Desc)
@[simp] theorem State.setDesc_pending : (s.setDesc tok d).pending = s.pending := rfl
@[simp] theorem State.setDesc_fresh : (s.setDesc tok d).fresh = s.fresh := rfl
@[simp] theorem State.setDesc_out : (s.setDesc tok d).out = s.out := rfl
@[simp] theorem State.setDesc_regs : (s.setDesc tok d).regs = s.regs := rfl
@[simp] theorem State.setDesc_rings : (s.setDesc tok d).rings = { s.rings with descs := s.rings.descs.put tok d } := rfl
@[simp] theorem State.setDesc_tick : (s.setDesc tok d).tick = s.tick := rfl
@[simp] theorem State.setDesc_mem : (s.setDesc tok d).mem = s.mem := rfl
@[simp] theorem State.setDesc_win : (s.setDesc tok d).win = s.win := rfl
@[simp] theorem State.setDesc_ord : (s.setDesc tok d).ord = s.ord := rfl
@[simp] theorem State.setDesc_fab : (s.setDesc tok d).fab = s.fab := rfl
@[simp] theorem State.setDesc_dir : (s.setDesc tok d).dir = s.dir := rfl
@[simp] theorem State.setDesc_host : (s.setDesc tok d).host = s.host := rfl
@[simp] theorem State.setDesc_xlt : (s.setDesc tok d).xlt = s.xlt := rfl
@[simp] theorem State.setDesc_tier : (s.setDesc tok d).tier = s.tier := rfl
@[simp] theorem State.setDesc_cdc : (s.setDesc tok d).cdc = s.cdc := rfl
@[simp] theorem State.setDesc_mtx : (s.setDesc tok d).mtx = s.mtx := rfl
@[simp] theorem State.setDesc_kv : (s.setDesc tok d).kv = s.kv := rfl
@[simp] theorem State.setDesc_emb : (s.setDesc tok d).emb = s.emb := rfl
@[simp] theorem State.setDesc_srh : (s.setDesc tok d).srh = s.srh := rfl
@[simp] theorem State.setDesc_que : (s.setDesc tok d).que = s.que := rfl
@[simp] theorem State.setDesc_pg : (s.setDesc tok d).pg = s.pg := rfl
@[simp] theorem State.setDesc_sec : (s.setDesc tok d).sec = s.sec := rfl
@[simp] theorem State.setDesc_slots : (s.setDesc tok d).slots = s.slots := rfl
@[simp] theorem State.setDesc_slices : (s.setDesc tok d).slices = s.slices := rfl
@[simp] theorem State.setDesc_units : (s.setDesc tok d).units = s.units := rfl
@[simp] theorem State.setDesc_stk : (s.setDesc tok d).stk = s.stk := rfl
@[simp] theorem State.setDesc_ras : (s.setDesc tok d).ras = s.ras := rfl
@[simp] theorem State.setDesc_boot : (s.setDesc tok d).boot = s.boot := rfl
@[simp] theorem State.setDesc_faults : (s.setDesc tok d).faults = s.faults := rfl
@[simp] theorem State.setDesc_faultSeq : (s.setDesc tok d).faultSeq = s.faultSeq := rfl
end

/-! ### setPort -/

section
variable (s : State) (n : Nat) (p : Port)
@[simp] theorem State.setPort_pending : (s.setPort n p).pending = s.pending := rfl
@[simp] theorem State.setPort_fresh : (s.setPort n p).fresh = s.fresh := rfl
@[simp] theorem State.setPort_out : (s.setPort n p).out = s.out := rfl
@[simp] theorem State.setPort_regs : (s.setPort n p).regs = s.regs := rfl
@[simp] theorem State.setPort_rings : (s.setPort n p).rings = s.rings := rfl
@[simp] theorem State.setPort_tick : (s.setPort n p).tick = s.tick := rfl
@[simp] theorem State.setPort_mem : (s.setPort n p).mem = s.mem := rfl
@[simp] theorem State.setPort_win : (s.setPort n p).win = s.win := rfl
@[simp] theorem State.setPort_ord : (s.setPort n p).ord = s.ord := rfl
@[simp] theorem State.setPort_fab : (s.setPort n p).fab = { s.fab with ports := s.fab.ports.put n p } := rfl
@[simp] theorem State.setPort_dir : (s.setPort n p).dir = s.dir := rfl
@[simp] theorem State.setPort_host : (s.setPort n p).host = s.host := rfl
@[simp] theorem State.setPort_xlt : (s.setPort n p).xlt = s.xlt := rfl
@[simp] theorem State.setPort_tier : (s.setPort n p).tier = s.tier := rfl
@[simp] theorem State.setPort_cdc : (s.setPort n p).cdc = s.cdc := rfl
@[simp] theorem State.setPort_mtx : (s.setPort n p).mtx = s.mtx := rfl
@[simp] theorem State.setPort_kv : (s.setPort n p).kv = s.kv := rfl
@[simp] theorem State.setPort_emb : (s.setPort n p).emb = s.emb := rfl
@[simp] theorem State.setPort_srh : (s.setPort n p).srh = s.srh := rfl
@[simp] theorem State.setPort_que : (s.setPort n p).que = s.que := rfl
@[simp] theorem State.setPort_pg : (s.setPort n p).pg = s.pg := rfl
@[simp] theorem State.setPort_sec : (s.setPort n p).sec = s.sec := rfl
@[simp] theorem State.setPort_slots : (s.setPort n p).slots = s.slots := rfl
@[simp] theorem State.setPort_slices : (s.setPort n p).slices = s.slices := rfl
@[simp] theorem State.setPort_units : (s.setPort n p).units = s.units := rfl
@[simp] theorem State.setPort_stk : (s.setPort n p).stk = s.stk := rfl
@[simp] theorem State.setPort_ras : (s.setPort n p).ras = s.ras := rfl
@[simp] theorem State.setPort_boot : (s.setPort n p).boot = s.boot := rfl
@[simp] theorem State.setPort_faults : (s.setPort n p).faults = s.faults := rfl
@[simp] theorem State.setPort_faultSeq : (s.setPort n p).faultSeq = s.faultSeq := rfl
end

/-! ### setCounter -/

section
variable (s : State) (n : Nat) (c : Counter)
@[simp] theorem State.setCounter_pending : (s.setCounter n c).pending = s.pending := rfl
@[simp] theorem State.setCounter_fresh : (s.setCounter n c).fresh = s.fresh := rfl
@[simp] theorem State.setCounter_out : (s.setCounter n c).out = s.out := rfl
@[simp] theorem State.setCounter_regs : (s.setCounter n c).regs = s.regs := rfl
@[simp] theorem State.setCounter_rings : (s.setCounter n c).rings = s.rings := rfl
@[simp] theorem State.setCounter_tick : (s.setCounter n c).tick = s.tick := rfl
@[simp] theorem State.setCounter_mem : (s.setCounter n c).mem = s.mem := rfl
@[simp] theorem State.setCounter_win : (s.setCounter n c).win = s.win := rfl
@[simp] theorem State.setCounter_ord : (s.setCounter n c).ord = { s.ord with counters := s.ord.counters.put n c } := rfl
@[simp] theorem State.setCounter_fab : (s.setCounter n c).fab = s.fab := rfl
@[simp] theorem State.setCounter_dir : (s.setCounter n c).dir = s.dir := rfl
@[simp] theorem State.setCounter_host : (s.setCounter n c).host = s.host := rfl
@[simp] theorem State.setCounter_xlt : (s.setCounter n c).xlt = s.xlt := rfl
@[simp] theorem State.setCounter_tier : (s.setCounter n c).tier = s.tier := rfl
@[simp] theorem State.setCounter_cdc : (s.setCounter n c).cdc = s.cdc := rfl
@[simp] theorem State.setCounter_mtx : (s.setCounter n c).mtx = s.mtx := rfl
@[simp] theorem State.setCounter_kv : (s.setCounter n c).kv = s.kv := rfl
@[simp] theorem State.setCounter_emb : (s.setCounter n c).emb = s.emb := rfl
@[simp] theorem State.setCounter_srh : (s.setCounter n c).srh = s.srh := rfl
@[simp] theorem State.setCounter_que : (s.setCounter n c).que = s.que := rfl
@[simp] theorem State.setCounter_pg : (s.setCounter n c).pg = s.pg := rfl
@[simp] theorem State.setCounter_sec : (s.setCounter n c).sec = s.sec := rfl
@[simp] theorem State.setCounter_slots : (s.setCounter n c).slots = s.slots := rfl
@[simp] theorem State.setCounter_slices : (s.setCounter n c).slices = s.slices := rfl
@[simp] theorem State.setCounter_units : (s.setCounter n c).units = s.units := rfl
@[simp] theorem State.setCounter_stk : (s.setCounter n c).stk = s.stk := rfl
@[simp] theorem State.setCounter_ras : (s.setCounter n c).ras = s.ras := rfl
@[simp] theorem State.setCounter_boot : (s.setCounter n c).boot = s.boot := rfl
@[simp] theorem State.setCounter_faults : (s.setCounter n c).faults = s.faults := rfl
@[simp] theorem State.setCounter_faultSeq : (s.setCounter n c).faultSeq = s.faultSeq := rfl
end

/-! ### setMeta -/

section
variable (s : State) (b v : Nat)
@[simp] theorem State.setMeta_pending : (s.setMeta b v).pending = s.pending := rfl
@[simp] theorem State.setMeta_fresh : (s.setMeta b v).fresh = s.fresh := rfl
@[simp] theorem State.setMeta_out : (s.setMeta b v).out = s.out := rfl
@[simp] theorem State.setMeta_regs : (s.setMeta b v).regs = s.regs := rfl
@[simp] theorem State.setMeta_rings : (s.setMeta b v).rings = s.rings := rfl
@[simp] theorem State.setMeta_tick : (s.setMeta b v).tick = s.tick := rfl
@[simp] theorem State.setMeta_win : (s.setMeta b v).win = s.win := rfl
@[simp] theorem State.setMeta_ord : (s.setMeta b v).ord = s.ord := rfl
@[simp] theorem State.setMeta_fab : (s.setMeta b v).fab = s.fab := rfl
@[simp] theorem State.setMeta_dir : (s.setMeta b v).dir = s.dir := rfl
@[simp] theorem State.setMeta_host : (s.setMeta b v).host = s.host := rfl
@[simp] theorem State.setMeta_xlt : (s.setMeta b v).xlt = s.xlt := rfl
@[simp] theorem State.setMeta_tier : (s.setMeta b v).tier = s.tier := rfl
@[simp] theorem State.setMeta_cdc : (s.setMeta b v).cdc = s.cdc := rfl
@[simp] theorem State.setMeta_mtx : (s.setMeta b v).mtx = s.mtx := rfl
@[simp] theorem State.setMeta_kv : (s.setMeta b v).kv = s.kv := rfl
@[simp] theorem State.setMeta_emb : (s.setMeta b v).emb = s.emb := rfl
@[simp] theorem State.setMeta_srh : (s.setMeta b v).srh = s.srh := rfl
@[simp] theorem State.setMeta_que : (s.setMeta b v).que = s.que := rfl
@[simp] theorem State.setMeta_pg : (s.setMeta b v).pg = s.pg := rfl
@[simp] theorem State.setMeta_sec : (s.setMeta b v).sec = s.sec := rfl
@[simp] theorem State.setMeta_slots : (s.setMeta b v).slots = s.slots := rfl
@[simp] theorem State.setMeta_slices : (s.setMeta b v).slices = s.slices := rfl
@[simp] theorem State.setMeta_units : (s.setMeta b v).units = s.units := rfl
@[simp] theorem State.setMeta_stk : (s.setMeta b v).stk = s.stk := rfl
@[simp] theorem State.setMeta_ras : (s.setMeta b v).ras = s.ras := rfl
@[simp] theorem State.setMeta_boot : (s.setMeta b v).boot = s.boot := rfl
@[simp] theorem State.setMeta_faults : (s.setMeta b v).faults = s.faults := rfl
@[simp] theorem State.setMeta_faultSeq : (s.setMeta b v).faultSeq = s.faultSeq := rfl
end

/-! ### setHport -/

section
variable (s : State) (p : Nat) (h : HostPort)
@[simp] theorem State.setHport_pending : (s.setHport p h).pending = s.pending := rfl
@[simp] theorem State.setHport_fresh : (s.setHport p h).fresh = s.fresh := rfl
@[simp] theorem State.setHport_out : (s.setHport p h).out = s.out := rfl
@[simp] theorem State.setHport_regs : (s.setHport p h).regs = s.regs := rfl
@[simp] theorem State.setHport_rings : (s.setHport p h).rings = s.rings := rfl
@[simp] theorem State.setHport_tick : (s.setHport p h).tick = s.tick := rfl
@[simp] theorem State.setHport_mem : (s.setHport p h).mem = s.mem := rfl
@[simp] theorem State.setHport_win : (s.setHport p h).win = s.win := rfl
@[simp] theorem State.setHport_ord : (s.setHport p h).ord = s.ord := rfl
@[simp] theorem State.setHport_fab : (s.setHport p h).fab = s.fab := rfl
@[simp] theorem State.setHport_dir : (s.setHport p h).dir = s.dir := rfl
@[simp] theorem State.setHport_host : (s.setHport p h).host = { s.host with ports := s.host.ports.put p h } := rfl
@[simp] theorem State.setHport_xlt : (s.setHport p h).xlt = s.xlt := rfl
@[simp] theorem State.setHport_tier : (s.setHport p h).tier = s.tier := rfl
@[simp] theorem State.setHport_cdc : (s.setHport p h).cdc = s.cdc := rfl
@[simp] theorem State.setHport_mtx : (s.setHport p h).mtx = s.mtx := rfl
@[simp] theorem State.setHport_kv : (s.setHport p h).kv = s.kv := rfl
@[simp] theorem State.setHport_emb : (s.setHport p h).emb = s.emb := rfl
@[simp] theorem State.setHport_srh : (s.setHport p h).srh = s.srh := rfl
@[simp] theorem State.setHport_que : (s.setHport p h).que = s.que := rfl
@[simp] theorem State.setHport_pg : (s.setHport p h).pg = s.pg := rfl
@[simp] theorem State.setHport_sec : (s.setHport p h).sec = s.sec := rfl
@[simp] theorem State.setHport_slots : (s.setHport p h).slots = s.slots := rfl
@[simp] theorem State.setHport_slices : (s.setHport p h).slices = s.slices := rfl
@[simp] theorem State.setHport_units : (s.setHport p h).units = s.units := rfl
@[simp] theorem State.setHport_stk : (s.setHport p h).stk = s.stk := rfl
@[simp] theorem State.setHport_ras : (s.setHport p h).ras = s.ras := rfl
@[simp] theorem State.setHport_boot : (s.setHport p h).boot = s.boot := rfl
@[simp] theorem State.setHport_faults : (s.setHport p h).faults = s.faults := rfl
@[simp] theorem State.setHport_faultSeq : (s.setHport p h).faultSeq = s.faultSeq := rfl
end

/-! ### setShared -/

section
variable (s : State) (r : Nat) (x : SharedRange)
@[simp] theorem State.setShared_pending : (s.setShared r x).pending = s.pending := rfl
@[simp] theorem State.setShared_fresh : (s.setShared r x).fresh = s.fresh := rfl
@[simp] theorem State.setShared_out : (s.setShared r x).out = s.out := rfl
@[simp] theorem State.setShared_regs : (s.setShared r x).regs = s.regs := rfl
@[simp] theorem State.setShared_rings : (s.setShared r x).rings = s.rings := rfl
@[simp] theorem State.setShared_tick : (s.setShared r x).tick = s.tick := rfl
@[simp] theorem State.setShared_mem : (s.setShared r x).mem = s.mem := rfl
@[simp] theorem State.setShared_win : (s.setShared r x).win = s.win := rfl
@[simp] theorem State.setShared_ord : (s.setShared r x).ord = s.ord := rfl
@[simp] theorem State.setShared_fab : (s.setShared r x).fab = s.fab := rfl
@[simp] theorem State.setShared_dir : (s.setShared r x).dir = s.dir := rfl
@[simp] theorem State.setShared_host : (s.setShared r x).host = { s.host with shr := s.host.shr.put r x } := rfl
@[simp] theorem State.setShared_xlt : (s.setShared r x).xlt = s.xlt := rfl
@[simp] theorem State.setShared_tier : (s.setShared r x).tier = s.tier := rfl
@[simp] theorem State.setShared_cdc : (s.setShared r x).cdc = s.cdc := rfl
@[simp] theorem State.setShared_mtx : (s.setShared r x).mtx = s.mtx := rfl
@[simp] theorem State.setShared_kv : (s.setShared r x).kv = s.kv := rfl
@[simp] theorem State.setShared_emb : (s.setShared r x).emb = s.emb := rfl
@[simp] theorem State.setShared_srh : (s.setShared r x).srh = s.srh := rfl
@[simp] theorem State.setShared_que : (s.setShared r x).que = s.que := rfl
@[simp] theorem State.setShared_pg : (s.setShared r x).pg = s.pg := rfl
@[simp] theorem State.setShared_sec : (s.setShared r x).sec = s.sec := rfl
@[simp] theorem State.setShared_slots : (s.setShared r x).slots = s.slots := rfl
@[simp] theorem State.setShared_slices : (s.setShared r x).slices = s.slices := rfl
@[simp] theorem State.setShared_units : (s.setShared r x).units = s.units := rfl
@[simp] theorem State.setShared_stk : (s.setShared r x).stk = s.stk := rfl
@[simp] theorem State.setShared_ras : (s.setShared r x).ras = s.ras := rfl
@[simp] theorem State.setShared_boot : (s.setShared r x).boot = s.boot := rfl
@[simp] theorem State.setShared_faults : (s.setShared r x).faults = s.faults := rfl
@[simp] theorem State.setShared_faultSeq : (s.setShared r x).faultSeq = s.faultSeq := rfl
end

/-! ### setTier -/

section
variable (s : State) (f : TierState → TierState)
@[simp] theorem State.setTier_pending : (s.setTier f).pending = s.pending := rfl
@[simp] theorem State.setTier_fresh : (s.setTier f).fresh = s.fresh := rfl
@[simp] theorem State.setTier_out : (s.setTier f).out = s.out := rfl
@[simp] theorem State.setTier_regs : (s.setTier f).regs = s.regs := rfl
@[simp] theorem State.setTier_rings : (s.setTier f).rings = s.rings := rfl
@[simp] theorem State.setTier_tick : (s.setTier f).tick = s.tick := rfl
@[simp] theorem State.setTier_mem : (s.setTier f).mem = s.mem := rfl
@[simp] theorem State.setTier_win : (s.setTier f).win = s.win := rfl
@[simp] theorem State.setTier_ord : (s.setTier f).ord = s.ord := rfl
@[simp] theorem State.setTier_fab : (s.setTier f).fab = s.fab := rfl
@[simp] theorem State.setTier_dir : (s.setTier f).dir = s.dir := rfl
@[simp] theorem State.setTier_host : (s.setTier f).host = s.host := rfl
@[simp] theorem State.setTier_xlt : (s.setTier f).xlt = s.xlt := rfl
@[simp] theorem State.setTier_tier : (s.setTier f).tier = f s.tier := rfl
@[simp] theorem State.setTier_cdc : (s.setTier f).cdc = s.cdc := rfl
@[simp] theorem State.setTier_mtx : (s.setTier f).mtx = s.mtx := rfl
@[simp] theorem State.setTier_kv : (s.setTier f).kv = s.kv := rfl
@[simp] theorem State.setTier_emb : (s.setTier f).emb = s.emb := rfl
@[simp] theorem State.setTier_srh : (s.setTier f).srh = s.srh := rfl
@[simp] theorem State.setTier_que : (s.setTier f).que = s.que := rfl
@[simp] theorem State.setTier_pg : (s.setTier f).pg = s.pg := rfl
@[simp] theorem State.setTier_sec : (s.setTier f).sec = s.sec := rfl
@[simp] theorem State.setTier_slots : (s.setTier f).slots = s.slots := rfl
@[simp] theorem State.setTier_slices : (s.setTier f).slices = s.slices := rfl
@[simp] theorem State.setTier_units : (s.setTier f).units = s.units := rfl
@[simp] theorem State.setTier_stk : (s.setTier f).stk = s.stk := rfl
@[simp] theorem State.setTier_ras : (s.setTier f).ras = s.ras := rfl
@[simp] theorem State.setTier_boot : (s.setTier f).boot = s.boot := rfl
@[simp] theorem State.setTier_faults : (s.setTier f).faults = s.faults := rfl
@[simp] theorem State.setTier_faultSeq : (s.setTier f).faultSeq = s.faultSeq := rfl
end

/-! ### setCdc -/

section
variable (s : State) (f : CdcState → CdcState)
@[simp] theorem State.setCdc_pending : (s.setCdc f).pending = s.pending := rfl
@[simp] theorem State.setCdc_fresh : (s.setCdc f).fresh = s.fresh := rfl
@[simp] theorem State.setCdc_out : (s.setCdc f).out = s.out := rfl
@[simp] theorem State.setCdc_regs : (s.setCdc f).regs = s.regs := rfl
@[simp] theorem State.setCdc_rings : (s.setCdc f).rings = s.rings := rfl
@[simp] theorem State.setCdc_tick : (s.setCdc f).tick = s.tick := rfl
@[simp] theorem State.setCdc_mem : (s.setCdc f).mem = s.mem := rfl
@[simp] theorem State.setCdc_win : (s.setCdc f).win = s.win := rfl
@[simp] theorem State.setCdc_ord : (s.setCdc f).ord = s.ord := rfl
@[simp] theorem State.setCdc_fab : (s.setCdc f).fab = s.fab := rfl
@[simp] theorem State.setCdc_dir : (s.setCdc f).dir = s.dir := rfl
@[simp] theorem State.setCdc_host : (s.setCdc f).host = s.host := rfl
@[simp] theorem State.setCdc_xlt : (s.setCdc f).xlt = s.xlt := rfl
@[simp] theorem State.setCdc_tier : (s.setCdc f).tier = s.tier := rfl
@[simp] theorem State.setCdc_cdc : (s.setCdc f).cdc = f s.cdc := rfl
@[simp] theorem State.setCdc_mtx : (s.setCdc f).mtx = s.mtx := rfl
@[simp] theorem State.setCdc_kv : (s.setCdc f).kv = s.kv := rfl
@[simp] theorem State.setCdc_emb : (s.setCdc f).emb = s.emb := rfl
@[simp] theorem State.setCdc_srh : (s.setCdc f).srh = s.srh := rfl
@[simp] theorem State.setCdc_que : (s.setCdc f).que = s.que := rfl
@[simp] theorem State.setCdc_pg : (s.setCdc f).pg = s.pg := rfl
@[simp] theorem State.setCdc_sec : (s.setCdc f).sec = s.sec := rfl
@[simp] theorem State.setCdc_slots : (s.setCdc f).slots = s.slots := rfl
@[simp] theorem State.setCdc_slices : (s.setCdc f).slices = s.slices := rfl
@[simp] theorem State.setCdc_units : (s.setCdc f).units = s.units := rfl
@[simp] theorem State.setCdc_stk : (s.setCdc f).stk = s.stk := rfl
@[simp] theorem State.setCdc_ras : (s.setCdc f).ras = s.ras := rfl
@[simp] theorem State.setCdc_boot : (s.setCdc f).boot = s.boot := rfl
@[simp] theorem State.setCdc_faults : (s.setCdc f).faults = s.faults := rfl
@[simp] theorem State.setCdc_faultSeq : (s.setCdc f).faultSeq = s.faultSeq := rfl
end

/-! ### setCdcTable -/

section
variable (s : State) (n : Nat) (t : CdcTable)
@[simp] theorem State.setCdcTable_pending : (s.setCdcTable n t).pending = s.pending := rfl
@[simp] theorem State.setCdcTable_fresh : (s.setCdcTable n t).fresh = s.fresh := rfl
@[simp] theorem State.setCdcTable_out : (s.setCdcTable n t).out = s.out := rfl
@[simp] theorem State.setCdcTable_regs : (s.setCdcTable n t).regs = s.regs := rfl
@[simp] theorem State.setCdcTable_rings : (s.setCdcTable n t).rings = s.rings := rfl
@[simp] theorem State.setCdcTable_tick : (s.setCdcTable n t).tick = s.tick := rfl
@[simp] theorem State.setCdcTable_mem : (s.setCdcTable n t).mem = s.mem := rfl
@[simp] theorem State.setCdcTable_win : (s.setCdcTable n t).win = s.win := rfl
@[simp] theorem State.setCdcTable_ord : (s.setCdcTable n t).ord = s.ord := rfl
@[simp] theorem State.setCdcTable_fab : (s.setCdcTable n t).fab = s.fab := rfl
@[simp] theorem State.setCdcTable_dir : (s.setCdcTable n t).dir = s.dir := rfl
@[simp] theorem State.setCdcTable_host : (s.setCdcTable n t).host = s.host := rfl
@[simp] theorem State.setCdcTable_xlt : (s.setCdcTable n t).xlt = s.xlt := rfl
@[simp] theorem State.setCdcTable_tier : (s.setCdcTable n t).tier = s.tier := rfl
@[simp] theorem State.setCdcTable_cdc : (s.setCdcTable n t).cdc = { s.cdc with tables := s.cdc.tables.put n t } := rfl
@[simp] theorem State.setCdcTable_mtx : (s.setCdcTable n t).mtx = s.mtx := rfl
@[simp] theorem State.setCdcTable_kv : (s.setCdcTable n t).kv = s.kv := rfl
@[simp] theorem State.setCdcTable_emb : (s.setCdcTable n t).emb = s.emb := rfl
@[simp] theorem State.setCdcTable_srh : (s.setCdcTable n t).srh = s.srh := rfl
@[simp] theorem State.setCdcTable_que : (s.setCdcTable n t).que = s.que := rfl
@[simp] theorem State.setCdcTable_pg : (s.setCdcTable n t).pg = s.pg := rfl
@[simp] theorem State.setCdcTable_sec : (s.setCdcTable n t).sec = s.sec := rfl
@[simp] theorem State.setCdcTable_slots : (s.setCdcTable n t).slots = s.slots := rfl
@[simp] theorem State.setCdcTable_slices : (s.setCdcTable n t).slices = s.slices := rfl
@[simp] theorem State.setCdcTable_units : (s.setCdcTable n t).units = s.units := rfl
@[simp] theorem State.setCdcTable_stk : (s.setCdcTable n t).stk = s.stk := rfl
@[simp] theorem State.setCdcTable_ras : (s.setCdcTable n t).ras = s.ras := rfl
@[simp] theorem State.setCdcTable_boot : (s.setCdcTable n t).boot = s.boot := rfl
@[simp] theorem State.setCdcTable_faults : (s.setCdcTable n t).faults = s.faults := rfl
@[simp] theorem State.setCdcTable_faultSeq : (s.setCdcTable n t).faultSeq = s.faultSeq := rfl
end

/-! ### setMtx -/

section
variable (s : State) (f : MtxState → MtxState)
@[simp] theorem State.setMtx_pending : (s.setMtx f).pending = s.pending := rfl
@[simp] theorem State.setMtx_fresh : (s.setMtx f).fresh = s.fresh := rfl
@[simp] theorem State.setMtx_out : (s.setMtx f).out = s.out := rfl
@[simp] theorem State.setMtx_regs : (s.setMtx f).regs = s.regs := rfl
@[simp] theorem State.setMtx_rings : (s.setMtx f).rings = s.rings := rfl
@[simp] theorem State.setMtx_tick : (s.setMtx f).tick = s.tick := rfl
@[simp] theorem State.setMtx_mem : (s.setMtx f).mem = s.mem := rfl
@[simp] theorem State.setMtx_win : (s.setMtx f).win = s.win := rfl
@[simp] theorem State.setMtx_ord : (s.setMtx f).ord = s.ord := rfl
@[simp] theorem State.setMtx_fab : (s.setMtx f).fab = s.fab := rfl
@[simp] theorem State.setMtx_dir : (s.setMtx f).dir = s.dir := rfl
@[simp] theorem State.setMtx_host : (s.setMtx f).host = s.host := rfl
@[simp] theorem State.setMtx_xlt : (s.setMtx f).xlt = s.xlt := rfl
@[simp] theorem State.setMtx_tier : (s.setMtx f).tier = s.tier := rfl
@[simp] theorem State.setMtx_cdc : (s.setMtx f).cdc = s.cdc := rfl
@[simp] theorem State.setMtx_mtx : (s.setMtx f).mtx = f s.mtx := rfl
@[simp] theorem State.setMtx_kv : (s.setMtx f).kv = s.kv := rfl
@[simp] theorem State.setMtx_emb : (s.setMtx f).emb = s.emb := rfl
@[simp] theorem State.setMtx_srh : (s.setMtx f).srh = s.srh := rfl
@[simp] theorem State.setMtx_que : (s.setMtx f).que = s.que := rfl
@[simp] theorem State.setMtx_pg : (s.setMtx f).pg = s.pg := rfl
@[simp] theorem State.setMtx_sec : (s.setMtx f).sec = s.sec := rfl
@[simp] theorem State.setMtx_slots : (s.setMtx f).slots = s.slots := rfl
@[simp] theorem State.setMtx_slices : (s.setMtx f).slices = s.slices := rfl
@[simp] theorem State.setMtx_units : (s.setMtx f).units = s.units := rfl
@[simp] theorem State.setMtx_stk : (s.setMtx f).stk = s.stk := rfl
@[simp] theorem State.setMtx_ras : (s.setMtx f).ras = s.ras := rfl
@[simp] theorem State.setMtx_boot : (s.setMtx f).boot = s.boot := rfl
@[simp] theorem State.setMtx_faults : (s.setMtx f).faults = s.faults := rfl
@[simp] theorem State.setMtx_faultSeq : (s.setMtx f).faultSeq = s.faultSeq := rfl
end

/-! ### setRun -/

section
variable (s : State) (tok : Nat) (r : MtxRun)
@[simp] theorem State.setRun_pending : (s.setRun tok r).pending = s.pending := rfl
@[simp] theorem State.setRun_fresh : (s.setRun tok r).fresh = s.fresh := rfl
@[simp] theorem State.setRun_out : (s.setRun tok r).out = s.out := rfl
@[simp] theorem State.setRun_regs : (s.setRun tok r).regs = s.regs := rfl
@[simp] theorem State.setRun_rings : (s.setRun tok r).rings = s.rings := rfl
@[simp] theorem State.setRun_tick : (s.setRun tok r).tick = s.tick := rfl
@[simp] theorem State.setRun_mem : (s.setRun tok r).mem = s.mem := rfl
@[simp] theorem State.setRun_win : (s.setRun tok r).win = s.win := rfl
@[simp] theorem State.setRun_ord : (s.setRun tok r).ord = s.ord := rfl
@[simp] theorem State.setRun_fab : (s.setRun tok r).fab = s.fab := rfl
@[simp] theorem State.setRun_dir : (s.setRun tok r).dir = s.dir := rfl
@[simp] theorem State.setRun_host : (s.setRun tok r).host = s.host := rfl
@[simp] theorem State.setRun_xlt : (s.setRun tok r).xlt = s.xlt := rfl
@[simp] theorem State.setRun_tier : (s.setRun tok r).tier = s.tier := rfl
@[simp] theorem State.setRun_cdc : (s.setRun tok r).cdc = s.cdc := rfl
@[simp] theorem State.setRun_mtx : (s.setRun tok r).mtx = { s.mtx with runs := s.mtx.runs.put tok r } := rfl
@[simp] theorem State.setRun_kv : (s.setRun tok r).kv = s.kv := rfl
@[simp] theorem State.setRun_emb : (s.setRun tok r).emb = s.emb := rfl
@[simp] theorem State.setRun_srh : (s.setRun tok r).srh = s.srh := rfl
@[simp] theorem State.setRun_que : (s.setRun tok r).que = s.que := rfl
@[simp] theorem State.setRun_pg : (s.setRun tok r).pg = s.pg := rfl
@[simp] theorem State.setRun_sec : (s.setRun tok r).sec = s.sec := rfl
@[simp] theorem State.setRun_slots : (s.setRun tok r).slots = s.slots := rfl
@[simp] theorem State.setRun_slices : (s.setRun tok r).slices = s.slices := rfl
@[simp] theorem State.setRun_units : (s.setRun tok r).units = s.units := rfl
@[simp] theorem State.setRun_stk : (s.setRun tok r).stk = s.stk := rfl
@[simp] theorem State.setRun_ras : (s.setRun tok r).ras = s.ras := rfl
@[simp] theorem State.setRun_boot : (s.setRun tok r).boot = s.boot := rfl
@[simp] theorem State.setRun_faults : (s.setRun tok r).faults = s.faults := rfl
@[simp] theorem State.setRun_faultSeq : (s.setRun tok r).faultSeq = s.faultSeq := rfl
end

/-! ### setProg -/

section
variable (s : State) (n : Nat) (p : Prog)
@[simp] theorem State.setProg_pending : (s.setProg n p).pending = s.pending := rfl
@[simp] theorem State.setProg_fresh : (s.setProg n p).fresh = s.fresh := rfl
@[simp] theorem State.setProg_out : (s.setProg n p).out = s.out := rfl
@[simp] theorem State.setProg_regs : (s.setProg n p).regs = s.regs := rfl
@[simp] theorem State.setProg_rings : (s.setProg n p).rings = s.rings := rfl
@[simp] theorem State.setProg_tick : (s.setProg n p).tick = s.tick := rfl
@[simp] theorem State.setProg_mem : (s.setProg n p).mem = s.mem := rfl
@[simp] theorem State.setProg_win : (s.setProg n p).win = s.win := rfl
@[simp] theorem State.setProg_ord : (s.setProg n p).ord = s.ord := rfl
@[simp] theorem State.setProg_fab : (s.setProg n p).fab = s.fab := rfl
@[simp] theorem State.setProg_dir : (s.setProg n p).dir = s.dir := rfl
@[simp] theorem State.setProg_host : (s.setProg n p).host = s.host := rfl
@[simp] theorem State.setProg_xlt : (s.setProg n p).xlt = s.xlt := rfl
@[simp] theorem State.setProg_tier : (s.setProg n p).tier = s.tier := rfl
@[simp] theorem State.setProg_cdc : (s.setProg n p).cdc = s.cdc := rfl
@[simp] theorem State.setProg_mtx : (s.setProg n p).mtx = { s.mtx with progs := s.mtx.progs.put n p } := rfl
@[simp] theorem State.setProg_kv : (s.setProg n p).kv = s.kv := rfl
@[simp] theorem State.setProg_emb : (s.setProg n p).emb = s.emb := rfl
@[simp] theorem State.setProg_srh : (s.setProg n p).srh = s.srh := rfl
@[simp] theorem State.setProg_que : (s.setProg n p).que = s.que := rfl
@[simp] theorem State.setProg_pg : (s.setProg n p).pg = s.pg := rfl
@[simp] theorem State.setProg_sec : (s.setProg n p).sec = s.sec := rfl
@[simp] theorem State.setProg_slots : (s.setProg n p).slots = s.slots := rfl
@[simp] theorem State.setProg_slices : (s.setProg n p).slices = s.slices := rfl
@[simp] theorem State.setProg_units : (s.setProg n p).units = s.units := rfl
@[simp] theorem State.setProg_stk : (s.setProg n p).stk = s.stk := rfl
@[simp] theorem State.setProg_ras : (s.setProg n p).ras = s.ras := rfl
@[simp] theorem State.setProg_boot : (s.setProg n p).boot = s.boot := rfl
@[simp] theorem State.setProg_faults : (s.setProg n p).faults = s.faults := rfl
@[simp] theorem State.setProg_faultSeq : (s.setProg n p).faultSeq = s.faultSeq := rfl
end

/-! ### setKv -/

section
variable (s : State) (f : KvState → KvState)
@[simp] theorem State.setKv_pending : (s.setKv f).pending = s.pending := rfl
@[simp] theorem State.setKv_fresh : (s.setKv f).fresh = s.fresh := rfl
@[simp] theorem State.setKv_out : (s.setKv f).out = s.out := rfl
@[simp] theorem State.setKv_regs : (s.setKv f).regs = s.regs := rfl
@[simp] theorem State.setKv_rings : (s.setKv f).rings = s.rings := rfl
@[simp] theorem State.setKv_tick : (s.setKv f).tick = s.tick := rfl
@[simp] theorem State.setKv_mem : (s.setKv f).mem = s.mem := rfl
@[simp] theorem State.setKv_win : (s.setKv f).win = s.win := rfl
@[simp] theorem State.setKv_ord : (s.setKv f).ord = s.ord := rfl
@[simp] theorem State.setKv_fab : (s.setKv f).fab = s.fab := rfl
@[simp] theorem State.setKv_dir : (s.setKv f).dir = s.dir := rfl
@[simp] theorem State.setKv_host : (s.setKv f).host = s.host := rfl
@[simp] theorem State.setKv_xlt : (s.setKv f).xlt = s.xlt := rfl
@[simp] theorem State.setKv_tier : (s.setKv f).tier = s.tier := rfl
@[simp] theorem State.setKv_cdc : (s.setKv f).cdc = s.cdc := rfl
@[simp] theorem State.setKv_mtx : (s.setKv f).mtx = s.mtx := rfl
@[simp] theorem State.setKv_kv : (s.setKv f).kv = f s.kv := rfl
@[simp] theorem State.setKv_emb : (s.setKv f).emb = s.emb := rfl
@[simp] theorem State.setKv_srh : (s.setKv f).srh = s.srh := rfl
@[simp] theorem State.setKv_que : (s.setKv f).que = s.que := rfl
@[simp] theorem State.setKv_pg : (s.setKv f).pg = s.pg := rfl
@[simp] theorem State.setKv_sec : (s.setKv f).sec = s.sec := rfl
@[simp] theorem State.setKv_slots : (s.setKv f).slots = s.slots := rfl
@[simp] theorem State.setKv_slices : (s.setKv f).slices = s.slices := rfl
@[simp] theorem State.setKv_units : (s.setKv f).units = s.units := rfl
@[simp] theorem State.setKv_stk : (s.setKv f).stk = s.stk := rfl
@[simp] theorem State.setKv_ras : (s.setKv f).ras = s.ras := rfl
@[simp] theorem State.setKv_boot : (s.setKv f).boot = s.boot := rfl
@[simp] theorem State.setKv_faults : (s.setKv f).faults = s.faults := rfl
@[simp] theorem State.setKv_faultSeq : (s.setKv f).faultSeq = s.faultSeq := rfl
end

/-! ### setPool -/

section
variable (s : State) (n : Nat) (p : KvPool)
@[simp] theorem State.setPool_pending : (s.setPool n p).pending = s.pending := rfl
@[simp] theorem State.setPool_fresh : (s.setPool n p).fresh = s.fresh := rfl
@[simp] theorem State.setPool_out : (s.setPool n p).out = s.out := rfl
@[simp] theorem State.setPool_regs : (s.setPool n p).regs = s.regs := rfl
@[simp] theorem State.setPool_rings : (s.setPool n p).rings = s.rings := rfl
@[simp] theorem State.setPool_tick : (s.setPool n p).tick = s.tick := rfl
@[simp] theorem State.setPool_mem : (s.setPool n p).mem = s.mem := rfl
@[simp] theorem State.setPool_win : (s.setPool n p).win = s.win := rfl
@[simp] theorem State.setPool_ord : (s.setPool n p).ord = s.ord := rfl
@[simp] theorem State.setPool_fab : (s.setPool n p).fab = s.fab := rfl
@[simp] theorem State.setPool_dir : (s.setPool n p).dir = s.dir := rfl
@[simp] theorem State.setPool_host : (s.setPool n p).host = s.host := rfl
@[simp] theorem State.setPool_xlt : (s.setPool n p).xlt = s.xlt := rfl
@[simp] theorem State.setPool_tier : (s.setPool n p).tier = s.tier := rfl
@[simp] theorem State.setPool_cdc : (s.setPool n p).cdc = s.cdc := rfl
@[simp] theorem State.setPool_mtx : (s.setPool n p).mtx = s.mtx := rfl
@[simp] theorem State.setPool_kv : (s.setPool n p).kv = { s.kv with pools := s.kv.pools.put n p } := rfl
@[simp] theorem State.setPool_emb : (s.setPool n p).emb = s.emb := rfl
@[simp] theorem State.setPool_srh : (s.setPool n p).srh = s.srh := rfl
@[simp] theorem State.setPool_que : (s.setPool n p).que = s.que := rfl
@[simp] theorem State.setPool_pg : (s.setPool n p).pg = s.pg := rfl
@[simp] theorem State.setPool_sec : (s.setPool n p).sec = s.sec := rfl
@[simp] theorem State.setPool_slots : (s.setPool n p).slots = s.slots := rfl
@[simp] theorem State.setPool_slices : (s.setPool n p).slices = s.slices := rfl
@[simp] theorem State.setPool_units : (s.setPool n p).units = s.units := rfl
@[simp] theorem State.setPool_stk : (s.setPool n p).stk = s.stk := rfl
@[simp] theorem State.setPool_ras : (s.setPool n p).ras = s.ras := rfl
@[simp] theorem State.setPool_boot : (s.setPool n p).boot = s.boot := rfl
@[simp] theorem State.setPool_faults : (s.setPool n p).faults = s.faults := rfl
@[simp] theorem State.setPool_faultSeq : (s.setPool n p).faultSeq = s.faultSeq := rfl
end

/-! ### setAlloc -/

section
variable (s : State) (n : Nat) (a : KvAlloc)
@[simp] theorem State.setAlloc_pending : (s.setAlloc n a).pending = s.pending := rfl
@[simp] theorem State.setAlloc_fresh : (s.setAlloc n a).fresh = s.fresh := rfl
@[simp] theorem State.setAlloc_out : (s.setAlloc n a).out = s.out := rfl
@[simp] theorem State.setAlloc_regs : (s.setAlloc n a).regs = s.regs := rfl
@[simp] theorem State.setAlloc_rings : (s.setAlloc n a).rings = s.rings := rfl
@[simp] theorem State.setAlloc_tick : (s.setAlloc n a).tick = s.tick := rfl
@[simp] theorem State.setAlloc_mem : (s.setAlloc n a).mem = s.mem := rfl
@[simp] theorem State.setAlloc_win : (s.setAlloc n a).win = s.win := rfl
@[simp] theorem State.setAlloc_ord : (s.setAlloc n a).ord = s.ord := rfl
@[simp] theorem State.setAlloc_fab : (s.setAlloc n a).fab = s.fab := rfl
@[simp] theorem State.setAlloc_dir : (s.setAlloc n a).dir = s.dir := rfl
@[simp] theorem State.setAlloc_host : (s.setAlloc n a).host = s.host := rfl
@[simp] theorem State.setAlloc_xlt : (s.setAlloc n a).xlt = s.xlt := rfl
@[simp] theorem State.setAlloc_tier : (s.setAlloc n a).tier = s.tier := rfl
@[simp] theorem State.setAlloc_cdc : (s.setAlloc n a).cdc = s.cdc := rfl
@[simp] theorem State.setAlloc_mtx : (s.setAlloc n a).mtx = s.mtx := rfl
@[simp] theorem State.setAlloc_kv : (s.setAlloc n a).kv = { s.kv with allocs := s.kv.allocs.put n a } := rfl
@[simp] theorem State.setAlloc_emb : (s.setAlloc n a).emb = s.emb := rfl
@[simp] theorem State.setAlloc_srh : (s.setAlloc n a).srh = s.srh := rfl
@[simp] theorem State.setAlloc_que : (s.setAlloc n a).que = s.que := rfl
@[simp] theorem State.setAlloc_pg : (s.setAlloc n a).pg = s.pg := rfl
@[simp] theorem State.setAlloc_sec : (s.setAlloc n a).sec = s.sec := rfl
@[simp] theorem State.setAlloc_slots : (s.setAlloc n a).slots = s.slots := rfl
@[simp] theorem State.setAlloc_slices : (s.setAlloc n a).slices = s.slices := rfl
@[simp] theorem State.setAlloc_units : (s.setAlloc n a).units = s.units := rfl
@[simp] theorem State.setAlloc_stk : (s.setAlloc n a).stk = s.stk := rfl
@[simp] theorem State.setAlloc_ras : (s.setAlloc n a).ras = s.ras := rfl
@[simp] theorem State.setAlloc_boot : (s.setAlloc n a).boot = s.boot := rfl
@[simp] theorem State.setAlloc_faults : (s.setAlloc n a).faults = s.faults := rfl
@[simp] theorem State.setAlloc_faultSeq : (s.setAlloc n a).faultSeq = s.faultSeq := rfl
end

/-! ### setSeq -/

section
variable (s : State) (q : Nat) (x : KvSeq)
@[simp] theorem State.setSeq_pending : (s.setSeq q x).pending = s.pending := rfl
@[simp] theorem State.setSeq_fresh : (s.setSeq q x).fresh = s.fresh := rfl
@[simp] theorem State.setSeq_out : (s.setSeq q x).out = s.out := rfl
@[simp] theorem State.setSeq_regs : (s.setSeq q x).regs = s.regs := rfl
@[simp] theorem State.setSeq_rings : (s.setSeq q x).rings = s.rings := rfl
@[simp] theorem State.setSeq_tick : (s.setSeq q x).tick = s.tick := rfl
@[simp] theorem State.setSeq_mem : (s.setSeq q x).mem = s.mem := rfl
@[simp] theorem State.setSeq_win : (s.setSeq q x).win = s.win := rfl
@[simp] theorem State.setSeq_ord : (s.setSeq q x).ord = s.ord := rfl
@[simp] theorem State.setSeq_fab : (s.setSeq q x).fab = s.fab := rfl
@[simp] theorem State.setSeq_dir : (s.setSeq q x).dir = s.dir := rfl
@[simp] theorem State.setSeq_host : (s.setSeq q x).host = s.host := rfl
@[simp] theorem State.setSeq_xlt : (s.setSeq q x).xlt = s.xlt := rfl
@[simp] theorem State.setSeq_tier : (s.setSeq q x).tier = s.tier := rfl
@[simp] theorem State.setSeq_cdc : (s.setSeq q x).cdc = s.cdc := rfl
@[simp] theorem State.setSeq_mtx : (s.setSeq q x).mtx = s.mtx := rfl
@[simp] theorem State.setSeq_kv : (s.setSeq q x).kv = { s.kv with seqs := s.kv.seqs.put q x } := rfl
@[simp] theorem State.setSeq_emb : (s.setSeq q x).emb = s.emb := rfl
@[simp] theorem State.setSeq_srh : (s.setSeq q x).srh = s.srh := rfl
@[simp] theorem State.setSeq_que : (s.setSeq q x).que = s.que := rfl
@[simp] theorem State.setSeq_pg : (s.setSeq q x).pg = s.pg := rfl
@[simp] theorem State.setSeq_sec : (s.setSeq q x).sec = s.sec := rfl
@[simp] theorem State.setSeq_slots : (s.setSeq q x).slots = s.slots := rfl
@[simp] theorem State.setSeq_slices : (s.setSeq q x).slices = s.slices := rfl
@[simp] theorem State.setSeq_units : (s.setSeq q x).units = s.units := rfl
@[simp] theorem State.setSeq_stk : (s.setSeq q x).stk = s.stk := rfl
@[simp] theorem State.setSeq_ras : (s.setSeq q x).ras = s.ras := rfl
@[simp] theorem State.setSeq_boot : (s.setSeq q x).boot = s.boot := rfl
@[simp] theorem State.setSeq_faults : (s.setSeq q x).faults = s.faults := rfl
@[simp] theorem State.setSeq_faultSeq : (s.setSeq q x).faultSeq = s.faultSeq := rfl
end

/-! ### setEmb -/

section
variable (s : State) (f : EmbState → EmbState)
@[simp] theorem State.setEmb_pending : (s.setEmb f).pending = s.pending := rfl
@[simp] theorem State.setEmb_fresh : (s.setEmb f).fresh = s.fresh := rfl
@[simp] theorem State.setEmb_out : (s.setEmb f).out = s.out := rfl
@[simp] theorem State.setEmb_regs : (s.setEmb f).regs = s.regs := rfl
@[simp] theorem State.setEmb_rings : (s.setEmb f).rings = s.rings := rfl
@[simp] theorem State.setEmb_tick : (s.setEmb f).tick = s.tick := rfl
@[simp] theorem State.setEmb_mem : (s.setEmb f).mem = s.mem := rfl
@[simp] theorem State.setEmb_win : (s.setEmb f).win = s.win := rfl
@[simp] theorem State.setEmb_ord : (s.setEmb f).ord = s.ord := rfl
@[simp] theorem State.setEmb_fab : (s.setEmb f).fab = s.fab := rfl
@[simp] theorem State.setEmb_dir : (s.setEmb f).dir = s.dir := rfl
@[simp] theorem State.setEmb_host : (s.setEmb f).host = s.host := rfl
@[simp] theorem State.setEmb_xlt : (s.setEmb f).xlt = s.xlt := rfl
@[simp] theorem State.setEmb_tier : (s.setEmb f).tier = s.tier := rfl
@[simp] theorem State.setEmb_cdc : (s.setEmb f).cdc = s.cdc := rfl
@[simp] theorem State.setEmb_mtx : (s.setEmb f).mtx = s.mtx := rfl
@[simp] theorem State.setEmb_kv : (s.setEmb f).kv = s.kv := rfl
@[simp] theorem State.setEmb_emb : (s.setEmb f).emb = f s.emb := rfl
@[simp] theorem State.setEmb_srh : (s.setEmb f).srh = s.srh := rfl
@[simp] theorem State.setEmb_que : (s.setEmb f).que = s.que := rfl
@[simp] theorem State.setEmb_pg : (s.setEmb f).pg = s.pg := rfl
@[simp] theorem State.setEmb_sec : (s.setEmb f).sec = s.sec := rfl
@[simp] theorem State.setEmb_slots : (s.setEmb f).slots = s.slots := rfl
@[simp] theorem State.setEmb_slices : (s.setEmb f).slices = s.slices := rfl
@[simp] theorem State.setEmb_units : (s.setEmb f).units = s.units := rfl
@[simp] theorem State.setEmb_stk : (s.setEmb f).stk = s.stk := rfl
@[simp] theorem State.setEmb_ras : (s.setEmb f).ras = s.ras := rfl
@[simp] theorem State.setEmb_boot : (s.setEmb f).boot = s.boot := rfl
@[simp] theorem State.setEmb_faults : (s.setEmb f).faults = s.faults := rfl
@[simp] theorem State.setEmb_faultSeq : (s.setEmb f).faultSeq = s.faultSeq := rfl
end

/-! ### setTable -/

section
variable (s : State) (n : Nat) (t : EmbTable)
@[simp] theorem State.setTable_pending : (s.setTable n t).pending = s.pending := rfl
@[simp] theorem State.setTable_fresh : (s.setTable n t).fresh = s.fresh := rfl
@[simp] theorem State.setTable_out : (s.setTable n t).out = s.out := rfl
@[simp] theorem State.setTable_regs : (s.setTable n t).regs = s.regs := rfl
@[simp] theorem State.setTable_rings : (s.setTable n t).rings = s.rings := rfl
@[simp] theorem State.setTable_tick : (s.setTable n t).tick = s.tick := rfl
@[simp] theorem State.setTable_mem : (s.setTable n t).mem = s.mem := rfl
@[simp] theorem State.setTable_win : (s.setTable n t).win = s.win := rfl
@[simp] theorem State.setTable_ord : (s.setTable n t).ord = s.ord := rfl
@[simp] theorem State.setTable_fab : (s.setTable n t).fab = s.fab := rfl
@[simp] theorem State.setTable_dir : (s.setTable n t).dir = s.dir := rfl
@[simp] theorem State.setTable_host : (s.setTable n t).host = s.host := rfl
@[simp] theorem State.setTable_xlt : (s.setTable n t).xlt = s.xlt := rfl
@[simp] theorem State.setTable_tier : (s.setTable n t).tier = s.tier := rfl
@[simp] theorem State.setTable_cdc : (s.setTable n t).cdc = s.cdc := rfl
@[simp] theorem State.setTable_mtx : (s.setTable n t).mtx = s.mtx := rfl
@[simp] theorem State.setTable_kv : (s.setTable n t).kv = s.kv := rfl
@[simp] theorem State.setTable_emb : (s.setTable n t).emb = { s.emb with tables := s.emb.tables.put n t } := rfl
@[simp] theorem State.setTable_srh : (s.setTable n t).srh = s.srh := rfl
@[simp] theorem State.setTable_que : (s.setTable n t).que = s.que := rfl
@[simp] theorem State.setTable_pg : (s.setTable n t).pg = s.pg := rfl
@[simp] theorem State.setTable_sec : (s.setTable n t).sec = s.sec := rfl
@[simp] theorem State.setTable_slots : (s.setTable n t).slots = s.slots := rfl
@[simp] theorem State.setTable_slices : (s.setTable n t).slices = s.slices := rfl
@[simp] theorem State.setTable_units : (s.setTable n t).units = s.units := rfl
@[simp] theorem State.setTable_stk : (s.setTable n t).stk = s.stk := rfl
@[simp] theorem State.setTable_ras : (s.setTable n t).ras = s.ras := rfl
@[simp] theorem State.setTable_boot : (s.setTable n t).boot = s.boot := rfl
@[simp] theorem State.setTable_faults : (s.setTable n t).faults = s.faults := rfl
@[simp] theorem State.setTable_faultSeq : (s.setTable n t).faultSeq = s.faultSeq := rfl
end

/-! ### setUpdate -/

section
variable (s : State) (n : Nat) (u : EmbUpdate)
@[simp] theorem State.setUpdate_pending : (s.setUpdate n u).pending = s.pending := rfl
@[simp] theorem State.setUpdate_fresh : (s.setUpdate n u).fresh = s.fresh := rfl
@[simp] theorem State.setUpdate_out : (s.setUpdate n u).out = s.out := rfl
@[simp] theorem State.setUpdate_regs : (s.setUpdate n u).regs = s.regs := rfl
@[simp] theorem State.setUpdate_rings : (s.setUpdate n u).rings = s.rings := rfl
@[simp] theorem State.setUpdate_tick : (s.setUpdate n u).tick = s.tick := rfl
@[simp] theorem State.setUpdate_mem : (s.setUpdate n u).mem = s.mem := rfl
@[simp] theorem State.setUpdate_win : (s.setUpdate n u).win = s.win := rfl
@[simp] theorem State.setUpdate_ord : (s.setUpdate n u).ord = s.ord := rfl
@[simp] theorem State.setUpdate_fab : (s.setUpdate n u).fab = s.fab := rfl
@[simp] theorem State.setUpdate_dir : (s.setUpdate n u).dir = s.dir := rfl
@[simp] theorem State.setUpdate_host : (s.setUpdate n u).host = s.host := rfl
@[simp] theorem State.setUpdate_xlt : (s.setUpdate n u).xlt = s.xlt := rfl
@[simp] theorem State.setUpdate_tier : (s.setUpdate n u).tier = s.tier := rfl
@[simp] theorem State.setUpdate_cdc : (s.setUpdate n u).cdc = s.cdc := rfl
@[simp] theorem State.setUpdate_mtx : (s.setUpdate n u).mtx = s.mtx := rfl
@[simp] theorem State.setUpdate_kv : (s.setUpdate n u).kv = s.kv := rfl
@[simp] theorem State.setUpdate_emb : (s.setUpdate n u).emb = { s.emb with updates := s.emb.updates.put n u } := rfl
@[simp] theorem State.setUpdate_srh : (s.setUpdate n u).srh = s.srh := rfl
@[simp] theorem State.setUpdate_que : (s.setUpdate n u).que = s.que := rfl
@[simp] theorem State.setUpdate_pg : (s.setUpdate n u).pg = s.pg := rfl
@[simp] theorem State.setUpdate_sec : (s.setUpdate n u).sec = s.sec := rfl
@[simp] theorem State.setUpdate_slots : (s.setUpdate n u).slots = s.slots := rfl
@[simp] theorem State.setUpdate_slices : (s.setUpdate n u).slices = s.slices := rfl
@[simp] theorem State.setUpdate_units : (s.setUpdate n u).units = s.units := rfl
@[simp] theorem State.setUpdate_stk : (s.setUpdate n u).stk = s.stk := rfl
@[simp] theorem State.setUpdate_ras : (s.setUpdate n u).ras = s.ras := rfl
@[simp] theorem State.setUpdate_boot : (s.setUpdate n u).boot = s.boot := rfl
@[simp] theorem State.setUpdate_faults : (s.setUpdate n u).faults = s.faults := rfl
@[simp] theorem State.setUpdate_faultSeq : (s.setUpdate n u).faultSeq = s.faultSeq := rfl
end

/-! ### setSrh -/

section
variable (s : State) (f : SrhState → SrhState)
@[simp] theorem State.setSrh_pending : (s.setSrh f).pending = s.pending := rfl
@[simp] theorem State.setSrh_fresh : (s.setSrh f).fresh = s.fresh := rfl
@[simp] theorem State.setSrh_out : (s.setSrh f).out = s.out := rfl
@[simp] theorem State.setSrh_regs : (s.setSrh f).regs = s.regs := rfl
@[simp] theorem State.setSrh_rings : (s.setSrh f).rings = s.rings := rfl
@[simp] theorem State.setSrh_tick : (s.setSrh f).tick = s.tick := rfl
@[simp] theorem State.setSrh_mem : (s.setSrh f).mem = s.mem := rfl
@[simp] theorem State.setSrh_win : (s.setSrh f).win = s.win := rfl
@[simp] theorem State.setSrh_ord : (s.setSrh f).ord = s.ord := rfl
@[simp] theorem State.setSrh_fab : (s.setSrh f).fab = s.fab := rfl
@[simp] theorem State.setSrh_dir : (s.setSrh f).dir = s.dir := rfl
@[simp] theorem State.setSrh_host : (s.setSrh f).host = s.host := rfl
@[simp] theorem State.setSrh_xlt : (s.setSrh f).xlt = s.xlt := rfl
@[simp] theorem State.setSrh_tier : (s.setSrh f).tier = s.tier := rfl
@[simp] theorem State.setSrh_cdc : (s.setSrh f).cdc = s.cdc := rfl
@[simp] theorem State.setSrh_mtx : (s.setSrh f).mtx = s.mtx := rfl
@[simp] theorem State.setSrh_kv : (s.setSrh f).kv = s.kv := rfl
@[simp] theorem State.setSrh_emb : (s.setSrh f).emb = s.emb := rfl
@[simp] theorem State.setSrh_srh : (s.setSrh f).srh = f s.srh := rfl
@[simp] theorem State.setSrh_que : (s.setSrh f).que = s.que := rfl
@[simp] theorem State.setSrh_pg : (s.setSrh f).pg = s.pg := rfl
@[simp] theorem State.setSrh_sec : (s.setSrh f).sec = s.sec := rfl
@[simp] theorem State.setSrh_slots : (s.setSrh f).slots = s.slots := rfl
@[simp] theorem State.setSrh_slices : (s.setSrh f).slices = s.slices := rfl
@[simp] theorem State.setSrh_units : (s.setSrh f).units = s.units := rfl
@[simp] theorem State.setSrh_stk : (s.setSrh f).stk = s.stk := rfl
@[simp] theorem State.setSrh_ras : (s.setSrh f).ras = s.ras := rfl
@[simp] theorem State.setSrh_boot : (s.setSrh f).boot = s.boot := rfl
@[simp] theorem State.setSrh_faults : (s.setSrh f).faults = s.faults := rfl
@[simp] theorem State.setSrh_faultSeq : (s.setSrh f).faultSeq = s.faultSeq := rfl
end

/-! ### setIndex -/

section
variable (s : State) (n : Nat) (x : SrhIndex)
@[simp] theorem State.setIndex_pending : (s.setIndex n x).pending = s.pending := rfl
@[simp] theorem State.setIndex_fresh : (s.setIndex n x).fresh = s.fresh := rfl
@[simp] theorem State.setIndex_out : (s.setIndex n x).out = s.out := rfl
@[simp] theorem State.setIndex_regs : (s.setIndex n x).regs = s.regs := rfl
@[simp] theorem State.setIndex_rings : (s.setIndex n x).rings = s.rings := rfl
@[simp] theorem State.setIndex_tick : (s.setIndex n x).tick = s.tick := rfl
@[simp] theorem State.setIndex_mem : (s.setIndex n x).mem = s.mem := rfl
@[simp] theorem State.setIndex_win : (s.setIndex n x).win = s.win := rfl
@[simp] theorem State.setIndex_ord : (s.setIndex n x).ord = s.ord := rfl
@[simp] theorem State.setIndex_fab : (s.setIndex n x).fab = s.fab := rfl
@[simp] theorem State.setIndex_dir : (s.setIndex n x).dir = s.dir := rfl
@[simp] theorem State.setIndex_host : (s.setIndex n x).host = s.host := rfl
@[simp] theorem State.setIndex_xlt : (s.setIndex n x).xlt = s.xlt := rfl
@[simp] theorem State.setIndex_tier : (s.setIndex n x).tier = s.tier := rfl
@[simp] theorem State.setIndex_cdc : (s.setIndex n x).cdc = s.cdc := rfl
@[simp] theorem State.setIndex_mtx : (s.setIndex n x).mtx = s.mtx := rfl
@[simp] theorem State.setIndex_kv : (s.setIndex n x).kv = s.kv := rfl
@[simp] theorem State.setIndex_emb : (s.setIndex n x).emb = s.emb := rfl
@[simp] theorem State.setIndex_srh : (s.setIndex n x).srh = { s.srh with indexes := s.srh.indexes.put n x } := rfl
@[simp] theorem State.setIndex_que : (s.setIndex n x).que = s.que := rfl
@[simp] theorem State.setIndex_pg : (s.setIndex n x).pg = s.pg := rfl
@[simp] theorem State.setIndex_sec : (s.setIndex n x).sec = s.sec := rfl
@[simp] theorem State.setIndex_slots : (s.setIndex n x).slots = s.slots := rfl
@[simp] theorem State.setIndex_slices : (s.setIndex n x).slices = s.slices := rfl
@[simp] theorem State.setIndex_units : (s.setIndex n x).units = s.units := rfl
@[simp] theorem State.setIndex_stk : (s.setIndex n x).stk = s.stk := rfl
@[simp] theorem State.setIndex_ras : (s.setIndex n x).ras = s.ras := rfl
@[simp] theorem State.setIndex_boot : (s.setIndex n x).boot = s.boot := rfl
@[simp] theorem State.setIndex_faults : (s.setIndex n x).faults = s.faults := rfl
@[simp] theorem State.setIndex_faultSeq : (s.setIndex n x).faultSeq = s.faultSeq := rfl
end

/-! ### setChan -/

section
variable (s : State) (c : Nat) (x : FlashChan)
@[simp] theorem State.setChan_pending : (s.setChan c x).pending = s.pending := rfl
@[simp] theorem State.setChan_fresh : (s.setChan c x).fresh = s.fresh := rfl
@[simp] theorem State.setChan_out : (s.setChan c x).out = s.out := rfl
@[simp] theorem State.setChan_regs : (s.setChan c x).regs = s.regs := rfl
@[simp] theorem State.setChan_rings : (s.setChan c x).rings = s.rings := rfl
@[simp] theorem State.setChan_tick : (s.setChan c x).tick = s.tick := rfl
@[simp] theorem State.setChan_mem : (s.setChan c x).mem = s.mem := rfl
@[simp] theorem State.setChan_win : (s.setChan c x).win = s.win := rfl
@[simp] theorem State.setChan_ord : (s.setChan c x).ord = s.ord := rfl
@[simp] theorem State.setChan_fab : (s.setChan c x).fab = s.fab := rfl
@[simp] theorem State.setChan_dir : (s.setChan c x).dir = s.dir := rfl
@[simp] theorem State.setChan_host : (s.setChan c x).host = s.host := rfl
@[simp] theorem State.setChan_xlt : (s.setChan c x).xlt = s.xlt := rfl
@[simp] theorem State.setChan_tier : (s.setChan c x).tier = s.tier := rfl
@[simp] theorem State.setChan_cdc : (s.setChan c x).cdc = s.cdc := rfl
@[simp] theorem State.setChan_mtx : (s.setChan c x).mtx = s.mtx := rfl
@[simp] theorem State.setChan_kv : (s.setChan c x).kv = s.kv := rfl
@[simp] theorem State.setChan_emb : (s.setChan c x).emb = s.emb := rfl
@[simp] theorem State.setChan_srh : (s.setChan c x).srh = { s.srh with chans := s.srh.chans.put c x } := rfl
@[simp] theorem State.setChan_que : (s.setChan c x).que = s.que := rfl
@[simp] theorem State.setChan_pg : (s.setChan c x).pg = s.pg := rfl
@[simp] theorem State.setChan_sec : (s.setChan c x).sec = s.sec := rfl
@[simp] theorem State.setChan_slots : (s.setChan c x).slots = s.slots := rfl
@[simp] theorem State.setChan_slices : (s.setChan c x).slices = s.slices := rfl
@[simp] theorem State.setChan_units : (s.setChan c x).units = s.units := rfl
@[simp] theorem State.setChan_stk : (s.setChan c x).stk = s.stk := rfl
@[simp] theorem State.setChan_ras : (s.setChan c x).ras = s.ras := rfl
@[simp] theorem State.setChan_boot : (s.setChan c x).boot = s.boot := rfl
@[simp] theorem State.setChan_faults : (s.setChan c x).faults = s.faults := rfl
@[simp] theorem State.setChan_faultSeq : (s.setChan c x).faultSeq = s.faultSeq := rfl
end

/-! ### setQue -/

section
variable (s : State) (f : QueueState → QueueState)
@[simp] theorem State.setQue_pending : (s.setQue f).pending = s.pending := rfl
@[simp] theorem State.setQue_fresh : (s.setQue f).fresh = s.fresh := rfl
@[simp] theorem State.setQue_out : (s.setQue f).out = s.out := rfl
@[simp] theorem State.setQue_regs : (s.setQue f).regs = s.regs := rfl
@[simp] theorem State.setQue_rings : (s.setQue f).rings = s.rings := rfl
@[simp] theorem State.setQue_tick : (s.setQue f).tick = s.tick := rfl
@[simp] theorem State.setQue_mem : (s.setQue f).mem = s.mem := rfl
@[simp] theorem State.setQue_win : (s.setQue f).win = s.win := rfl
@[simp] theorem State.setQue_ord : (s.setQue f).ord = s.ord := rfl
@[simp] theorem State.setQue_fab : (s.setQue f).fab = s.fab := rfl
@[simp] theorem State.setQue_dir : (s.setQue f).dir = s.dir := rfl
@[simp] theorem State.setQue_host : (s.setQue f).host = s.host := rfl
@[simp] theorem State.setQue_xlt : (s.setQue f).xlt = s.xlt := rfl
@[simp] theorem State.setQue_tier : (s.setQue f).tier = s.tier := rfl
@[simp] theorem State.setQue_cdc : (s.setQue f).cdc = s.cdc := rfl
@[simp] theorem State.setQue_mtx : (s.setQue f).mtx = s.mtx := rfl
@[simp] theorem State.setQue_kv : (s.setQue f).kv = s.kv := rfl
@[simp] theorem State.setQue_emb : (s.setQue f).emb = s.emb := rfl
@[simp] theorem State.setQue_srh : (s.setQue f).srh = s.srh := rfl
@[simp] theorem State.setQue_que : (s.setQue f).que = f s.que := rfl
@[simp] theorem State.setQue_pg : (s.setQue f).pg = s.pg := rfl
@[simp] theorem State.setQue_sec : (s.setQue f).sec = s.sec := rfl
@[simp] theorem State.setQue_slots : (s.setQue f).slots = s.slots := rfl
@[simp] theorem State.setQue_slices : (s.setQue f).slices = s.slices := rfl
@[simp] theorem State.setQue_units : (s.setQue f).units = s.units := rfl
@[simp] theorem State.setQue_stk : (s.setQue f).stk = s.stk := rfl
@[simp] theorem State.setQue_ras : (s.setQue f).ras = s.ras := rfl
@[simp] theorem State.setQue_boot : (s.setQue f).boot = s.boot := rfl
@[simp] theorem State.setQue_faults : (s.setQue f).faults = s.faults := rfl
@[simp] theorem State.setQue_faultSeq : (s.setQue f).faultSeq = s.faultSeq := rfl
end

/-! ### setQueue -/

section
variable (s : State) (n : Nat) (q : Queue)
@[simp] theorem State.setQueue_pending : (s.setQueue n q).pending = s.pending := rfl
@[simp] theorem State.setQueue_fresh : (s.setQueue n q).fresh = s.fresh := rfl
@[simp] theorem State.setQueue_out : (s.setQueue n q).out = s.out := rfl
@[simp] theorem State.setQueue_regs : (s.setQueue n q).regs = s.regs := rfl
@[simp] theorem State.setQueue_rings : (s.setQueue n q).rings = s.rings := rfl
@[simp] theorem State.setQueue_tick : (s.setQueue n q).tick = s.tick := rfl
@[simp] theorem State.setQueue_mem : (s.setQueue n q).mem = s.mem := rfl
@[simp] theorem State.setQueue_win : (s.setQueue n q).win = s.win := rfl
@[simp] theorem State.setQueue_ord : (s.setQueue n q).ord = s.ord := rfl
@[simp] theorem State.setQueue_fab : (s.setQueue n q).fab = s.fab := rfl
@[simp] theorem State.setQueue_dir : (s.setQueue n q).dir = s.dir := rfl
@[simp] theorem State.setQueue_host : (s.setQueue n q).host = s.host := rfl
@[simp] theorem State.setQueue_xlt : (s.setQueue n q).xlt = s.xlt := rfl
@[simp] theorem State.setQueue_tier : (s.setQueue n q).tier = s.tier := rfl
@[simp] theorem State.setQueue_cdc : (s.setQueue n q).cdc = s.cdc := rfl
@[simp] theorem State.setQueue_mtx : (s.setQueue n q).mtx = s.mtx := rfl
@[simp] theorem State.setQueue_kv : (s.setQueue n q).kv = s.kv := rfl
@[simp] theorem State.setQueue_emb : (s.setQueue n q).emb = s.emb := rfl
@[simp] theorem State.setQueue_srh : (s.setQueue n q).srh = s.srh := rfl
@[simp] theorem State.setQueue_que : (s.setQueue n q).que = { s.que with queues := s.que.queues.put n q } := rfl
@[simp] theorem State.setQueue_pg : (s.setQueue n q).pg = s.pg := rfl
@[simp] theorem State.setQueue_sec : (s.setQueue n q).sec = s.sec := rfl
@[simp] theorem State.setQueue_slots : (s.setQueue n q).slots = s.slots := rfl
@[simp] theorem State.setQueue_slices : (s.setQueue n q).slices = s.slices := rfl
@[simp] theorem State.setQueue_units : (s.setQueue n q).units = s.units := rfl
@[simp] theorem State.setQueue_stk : (s.setQueue n q).stk = s.stk := rfl
@[simp] theorem State.setQueue_ras : (s.setQueue n q).ras = s.ras := rfl
@[simp] theorem State.setQueue_boot : (s.setQueue n q).boot = s.boot := rfl
@[simp] theorem State.setQueue_faults : (s.setQueue n q).faults = s.faults := rfl
@[simp] theorem State.setQueue_faultSeq : (s.setQueue n q).faultSeq = s.faultSeq := rfl
end

/-! ### setStk -/

section
variable (s : State) (f : StkState → StkState)
@[simp] theorem State.setStk_pending : (s.setStk f).pending = s.pending := rfl
@[simp] theorem State.setStk_fresh : (s.setStk f).fresh = s.fresh := rfl
@[simp] theorem State.setStk_out : (s.setStk f).out = s.out := rfl
@[simp] theorem State.setStk_regs : (s.setStk f).regs = s.regs := rfl
@[simp] theorem State.setStk_rings : (s.setStk f).rings = s.rings := rfl
@[simp] theorem State.setStk_tick : (s.setStk f).tick = s.tick := rfl
@[simp] theorem State.setStk_mem : (s.setStk f).mem = s.mem := rfl
@[simp] theorem State.setStk_win : (s.setStk f).win = s.win := rfl
@[simp] theorem State.setStk_ord : (s.setStk f).ord = s.ord := rfl
@[simp] theorem State.setStk_fab : (s.setStk f).fab = s.fab := rfl
@[simp] theorem State.setStk_dir : (s.setStk f).dir = s.dir := rfl
@[simp] theorem State.setStk_host : (s.setStk f).host = s.host := rfl
@[simp] theorem State.setStk_xlt : (s.setStk f).xlt = s.xlt := rfl
@[simp] theorem State.setStk_tier : (s.setStk f).tier = s.tier := rfl
@[simp] theorem State.setStk_cdc : (s.setStk f).cdc = s.cdc := rfl
@[simp] theorem State.setStk_mtx : (s.setStk f).mtx = s.mtx := rfl
@[simp] theorem State.setStk_kv : (s.setStk f).kv = s.kv := rfl
@[simp] theorem State.setStk_emb : (s.setStk f).emb = s.emb := rfl
@[simp] theorem State.setStk_srh : (s.setStk f).srh = s.srh := rfl
@[simp] theorem State.setStk_que : (s.setStk f).que = s.que := rfl
@[simp] theorem State.setStk_pg : (s.setStk f).pg = s.pg := rfl
@[simp] theorem State.setStk_sec : (s.setStk f).sec = s.sec := rfl
@[simp] theorem State.setStk_slots : (s.setStk f).slots = s.slots := rfl
@[simp] theorem State.setStk_slices : (s.setStk f).slices = s.slices := rfl
@[simp] theorem State.setStk_units : (s.setStk f).units = s.units := rfl
@[simp] theorem State.setStk_stk : (s.setStk f).stk = f s.stk := rfl
@[simp] theorem State.setStk_ras : (s.setStk f).ras = s.ras := rfl
@[simp] theorem State.setStk_boot : (s.setStk f).boot = s.boot := rfl
@[simp] theorem State.setStk_faults : (s.setStk f).faults = s.faults := rfl
@[simp] theorem State.setStk_faultSeq : (s.setStk f).faultSeq = s.faultSeq := rfl
end

/-! ### setDchan -/

section
variable (s : State) (c : Nat) (x : ChanState)
@[simp] theorem State.setDchan_pending : (s.setDchan c x).pending = s.pending := rfl
@[simp] theorem State.setDchan_fresh : (s.setDchan c x).fresh = s.fresh := rfl
@[simp] theorem State.setDchan_out : (s.setDchan c x).out = s.out := rfl
@[simp] theorem State.setDchan_regs : (s.setDchan c x).regs = s.regs := rfl
@[simp] theorem State.setDchan_rings : (s.setDchan c x).rings = s.rings := rfl
@[simp] theorem State.setDchan_tick : (s.setDchan c x).tick = s.tick := rfl
@[simp] theorem State.setDchan_mem : (s.setDchan c x).mem = s.mem := rfl
@[simp] theorem State.setDchan_win : (s.setDchan c x).win = s.win := rfl
@[simp] theorem State.setDchan_ord : (s.setDchan c x).ord = s.ord := rfl
@[simp] theorem State.setDchan_fab : (s.setDchan c x).fab = s.fab := rfl
@[simp] theorem State.setDchan_dir : (s.setDchan c x).dir = s.dir := rfl
@[simp] theorem State.setDchan_host : (s.setDchan c x).host = s.host := rfl
@[simp] theorem State.setDchan_xlt : (s.setDchan c x).xlt = s.xlt := rfl
@[simp] theorem State.setDchan_tier : (s.setDchan c x).tier = s.tier := rfl
@[simp] theorem State.setDchan_cdc : (s.setDchan c x).cdc = s.cdc := rfl
@[simp] theorem State.setDchan_mtx : (s.setDchan c x).mtx = s.mtx := rfl
@[simp] theorem State.setDchan_kv : (s.setDchan c x).kv = s.kv := rfl
@[simp] theorem State.setDchan_emb : (s.setDchan c x).emb = s.emb := rfl
@[simp] theorem State.setDchan_srh : (s.setDchan c x).srh = s.srh := rfl
@[simp] theorem State.setDchan_que : (s.setDchan c x).que = s.que := rfl
@[simp] theorem State.setDchan_pg : (s.setDchan c x).pg = s.pg := rfl
@[simp] theorem State.setDchan_sec : (s.setDchan c x).sec = s.sec := rfl
@[simp] theorem State.setDchan_slots : (s.setDchan c x).slots = s.slots := rfl
@[simp] theorem State.setDchan_slices : (s.setDchan c x).slices = s.slices := rfl
@[simp] theorem State.setDchan_units : (s.setDchan c x).units = s.units := rfl
@[simp] theorem State.setDchan_stk : (s.setDchan c x).stk = { s.stk with chans := s.stk.chans.put c x } := rfl
@[simp] theorem State.setDchan_ras : (s.setDchan c x).ras = s.ras := rfl
@[simp] theorem State.setDchan_boot : (s.setDchan c x).boot = s.boot := rfl
@[simp] theorem State.setDchan_faults : (s.setDchan c x).faults = s.faults := rfl
@[simp] theorem State.setDchan_faultSeq : (s.setDchan c x).faultSeq = s.faultSeq := rfl
end

/-! ### setUnits -/

section
variable (s : State) (f : UnitsState → UnitsState)
@[simp] theorem State.setUnits_pending : (s.setUnits f).pending = s.pending := rfl
@[simp] theorem State.setUnits_fresh : (s.setUnits f).fresh = s.fresh := rfl
@[simp] theorem State.setUnits_out : (s.setUnits f).out = s.out := rfl
@[simp] theorem State.setUnits_regs : (s.setUnits f).regs = s.regs := rfl
@[simp] theorem State.setUnits_rings : (s.setUnits f).rings = s.rings := rfl
@[simp] theorem State.setUnits_tick : (s.setUnits f).tick = s.tick := rfl
@[simp] theorem State.setUnits_mem : (s.setUnits f).mem = s.mem := rfl
@[simp] theorem State.setUnits_win : (s.setUnits f).win = s.win := rfl
@[simp] theorem State.setUnits_ord : (s.setUnits f).ord = s.ord := rfl
@[simp] theorem State.setUnits_fab : (s.setUnits f).fab = s.fab := rfl
@[simp] theorem State.setUnits_dir : (s.setUnits f).dir = s.dir := rfl
@[simp] theorem State.setUnits_host : (s.setUnits f).host = s.host := rfl
@[simp] theorem State.setUnits_xlt : (s.setUnits f).xlt = s.xlt := rfl
@[simp] theorem State.setUnits_tier : (s.setUnits f).tier = s.tier := rfl
@[simp] theorem State.setUnits_cdc : (s.setUnits f).cdc = s.cdc := rfl
@[simp] theorem State.setUnits_mtx : (s.setUnits f).mtx = s.mtx := rfl
@[simp] theorem State.setUnits_kv : (s.setUnits f).kv = s.kv := rfl
@[simp] theorem State.setUnits_emb : (s.setUnits f).emb = s.emb := rfl
@[simp] theorem State.setUnits_srh : (s.setUnits f).srh = s.srh := rfl
@[simp] theorem State.setUnits_que : (s.setUnits f).que = s.que := rfl
@[simp] theorem State.setUnits_pg : (s.setUnits f).pg = s.pg := rfl
@[simp] theorem State.setUnits_sec : (s.setUnits f).sec = s.sec := rfl
@[simp] theorem State.setUnits_slots : (s.setUnits f).slots = s.slots := rfl
@[simp] theorem State.setUnits_slices : (s.setUnits f).slices = s.slices := rfl
@[simp] theorem State.setUnits_units : (s.setUnits f).units = f s.units := rfl
@[simp] theorem State.setUnits_stk : (s.setUnits f).stk = s.stk := rfl
@[simp] theorem State.setUnits_ras : (s.setUnits f).ras = s.ras := rfl
@[simp] theorem State.setUnits_boot : (s.setUnits f).boot = s.boot := rfl
@[simp] theorem State.setUnits_faults : (s.setUnits f).faults = s.faults := rfl
@[simp] theorem State.setUnits_faultSeq : (s.setUnits f).faultSeq = s.faultSeq := rfl
end

/-! ### setRas -/

section
variable (s : State) (f : RasState → RasState)
@[simp] theorem State.setRas_pending : (s.setRas f).pending = s.pending := rfl
@[simp] theorem State.setRas_fresh : (s.setRas f).fresh = s.fresh := rfl
@[simp] theorem State.setRas_out : (s.setRas f).out = s.out := rfl
@[simp] theorem State.setRas_regs : (s.setRas f).regs = s.regs := rfl
@[simp] theorem State.setRas_rings : (s.setRas f).rings = s.rings := rfl
@[simp] theorem State.setRas_tick : (s.setRas f).tick = s.tick := rfl
@[simp] theorem State.setRas_mem : (s.setRas f).mem = s.mem := rfl
@[simp] theorem State.setRas_win : (s.setRas f).win = s.win := rfl
@[simp] theorem State.setRas_ord : (s.setRas f).ord = s.ord := rfl
@[simp] theorem State.setRas_fab : (s.setRas f).fab = s.fab := rfl
@[simp] theorem State.setRas_dir : (s.setRas f).dir = s.dir := rfl
@[simp] theorem State.setRas_host : (s.setRas f).host = s.host := rfl
@[simp] theorem State.setRas_xlt : (s.setRas f).xlt = s.xlt := rfl
@[simp] theorem State.setRas_tier : (s.setRas f).tier = s.tier := rfl
@[simp] theorem State.setRas_cdc : (s.setRas f).cdc = s.cdc := rfl
@[simp] theorem State.setRas_mtx : (s.setRas f).mtx = s.mtx := rfl
@[simp] theorem State.setRas_kv : (s.setRas f).kv = s.kv := rfl
@[simp] theorem State.setRas_emb : (s.setRas f).emb = s.emb := rfl
@[simp] theorem State.setRas_srh : (s.setRas f).srh = s.srh := rfl
@[simp] theorem State.setRas_que : (s.setRas f).que = s.que := rfl
@[simp] theorem State.setRas_pg : (s.setRas f).pg = s.pg := rfl
@[simp] theorem State.setRas_sec : (s.setRas f).sec = s.sec := rfl
@[simp] theorem State.setRas_slots : (s.setRas f).slots = s.slots := rfl
@[simp] theorem State.setRas_slices : (s.setRas f).slices = s.slices := rfl
@[simp] theorem State.setRas_units : (s.setRas f).units = s.units := rfl
@[simp] theorem State.setRas_stk : (s.setRas f).stk = s.stk := rfl
@[simp] theorem State.setRas_ras : (s.setRas f).ras = f s.ras := rfl
@[simp] theorem State.setRas_boot : (s.setRas f).boot = s.boot := rfl
@[simp] theorem State.setRas_faults : (s.setRas f).faults = s.faults := rfl
@[simp] theorem State.setRas_faultSeq : (s.setRas f).faultSeq = s.faultSeq := rfl
end

/-! ### setUnit -/

section
variable (s : State) (key : Nat) (u : UnitState)
@[simp] theorem State.setUnit_pending : (s.setUnit key u).pending = s.pending := rfl
@[simp] theorem State.setUnit_fresh : (s.setUnit key u).fresh = s.fresh := rfl
@[simp] theorem State.setUnit_out : (s.setUnit key u).out = s.out := rfl
@[simp] theorem State.setUnit_regs : (s.setUnit key u).regs = s.regs := rfl
@[simp] theorem State.setUnit_rings : (s.setUnit key u).rings = s.rings := rfl
@[simp] theorem State.setUnit_tick : (s.setUnit key u).tick = s.tick := rfl
@[simp] theorem State.setUnit_mem : (s.setUnit key u).mem = s.mem := rfl
@[simp] theorem State.setUnit_win : (s.setUnit key u).win = s.win := rfl
@[simp] theorem State.setUnit_ord : (s.setUnit key u).ord = s.ord := rfl
@[simp] theorem State.setUnit_fab : (s.setUnit key u).fab = s.fab := rfl
@[simp] theorem State.setUnit_dir : (s.setUnit key u).dir = s.dir := rfl
@[simp] theorem State.setUnit_host : (s.setUnit key u).host = s.host := rfl
@[simp] theorem State.setUnit_xlt : (s.setUnit key u).xlt = s.xlt := rfl
@[simp] theorem State.setUnit_tier : (s.setUnit key u).tier = s.tier := rfl
@[simp] theorem State.setUnit_cdc : (s.setUnit key u).cdc = s.cdc := rfl
@[simp] theorem State.setUnit_mtx : (s.setUnit key u).mtx = s.mtx := rfl
@[simp] theorem State.setUnit_kv : (s.setUnit key u).kv = s.kv := rfl
@[simp] theorem State.setUnit_emb : (s.setUnit key u).emb = s.emb := rfl
@[simp] theorem State.setUnit_srh : (s.setUnit key u).srh = s.srh := rfl
@[simp] theorem State.setUnit_que : (s.setUnit key u).que = s.que := rfl
@[simp] theorem State.setUnit_pg : (s.setUnit key u).pg = s.pg := rfl
@[simp] theorem State.setUnit_sec : (s.setUnit key u).sec = s.sec := rfl
@[simp] theorem State.setUnit_slots : (s.setUnit key u).slots = s.slots := rfl
@[simp] theorem State.setUnit_slices : (s.setUnit key u).slices = s.slices := rfl
@[simp] theorem State.setUnit_units : (s.setUnit key u).units = { s.units with units := s.units.units.put key u } := rfl
@[simp] theorem State.setUnit_stk : (s.setUnit key u).stk = s.stk := rfl
@[simp] theorem State.setUnit_ras : (s.setUnit key u).ras = s.ras := rfl
@[simp] theorem State.setUnit_boot : (s.setUnit key u).boot = s.boot := rfl
@[simp] theorem State.setUnit_faults : (s.setUnit key u).faults = s.faults := rfl
@[simp] theorem State.setUnit_faultSeq : (s.setUnit key u).faultSeq = s.faultSeq := rfl
end

/-! ### setSec -/

section
variable (s : State) (f : SecState → SecState)
@[simp] theorem State.setSec_pending : (s.setSec f).pending = s.pending := rfl
@[simp] theorem State.setSec_fresh : (s.setSec f).fresh = s.fresh := rfl
@[simp] theorem State.setSec_out : (s.setSec f).out = s.out := rfl
@[simp] theorem State.setSec_regs : (s.setSec f).regs = s.regs := rfl
@[simp] theorem State.setSec_rings : (s.setSec f).rings = s.rings := rfl
@[simp] theorem State.setSec_tick : (s.setSec f).tick = s.tick := rfl
@[simp] theorem State.setSec_mem : (s.setSec f).mem = s.mem := rfl
@[simp] theorem State.setSec_win : (s.setSec f).win = s.win := rfl
@[simp] theorem State.setSec_ord : (s.setSec f).ord = s.ord := rfl
@[simp] theorem State.setSec_fab : (s.setSec f).fab = s.fab := rfl
@[simp] theorem State.setSec_dir : (s.setSec f).dir = s.dir := rfl
@[simp] theorem State.setSec_host : (s.setSec f).host = s.host := rfl
@[simp] theorem State.setSec_xlt : (s.setSec f).xlt = s.xlt := rfl
@[simp] theorem State.setSec_tier : (s.setSec f).tier = s.tier := rfl
@[simp] theorem State.setSec_cdc : (s.setSec f).cdc = s.cdc := rfl
@[simp] theorem State.setSec_mtx : (s.setSec f).mtx = s.mtx := rfl
@[simp] theorem State.setSec_kv : (s.setSec f).kv = s.kv := rfl
@[simp] theorem State.setSec_emb : (s.setSec f).emb = s.emb := rfl
@[simp] theorem State.setSec_srh : (s.setSec f).srh = s.srh := rfl
@[simp] theorem State.setSec_que : (s.setSec f).que = s.que := rfl
@[simp] theorem State.setSec_pg : (s.setSec f).pg = s.pg := rfl
@[simp] theorem State.setSec_sec : (s.setSec f).sec = f s.sec := rfl
@[simp] theorem State.setSec_slots : (s.setSec f).slots = s.slots := rfl
@[simp] theorem State.setSec_slices : (s.setSec f).slices = s.slices := rfl
@[simp] theorem State.setSec_units : (s.setSec f).units = s.units := rfl
@[simp] theorem State.setSec_stk : (s.setSec f).stk = s.stk := rfl
@[simp] theorem State.setSec_ras : (s.setSec f).ras = s.ras := rfl
@[simp] theorem State.setSec_boot : (s.setSec f).boot = s.boot := rfl
@[simp] theorem State.setSec_faults : (s.setSec f).faults = s.faults := rfl
@[simp] theorem State.setSec_faultSeq : (s.setSec f).faultSeq = s.faultSeq := rfl
end

/-! ### setSlot -/

section
variable (s : State) (k : Nat) (x : KeySlot)
@[simp] theorem State.setSlot_pending : (s.setSlot k x).pending = s.pending := rfl
@[simp] theorem State.setSlot_fresh : (s.setSlot k x).fresh = s.fresh := rfl
@[simp] theorem State.setSlot_out : (s.setSlot k x).out = s.out := rfl
@[simp] theorem State.setSlot_regs : (s.setSlot k x).regs = s.regs := rfl
@[simp] theorem State.setSlot_rings : (s.setSlot k x).rings = s.rings := rfl
@[simp] theorem State.setSlot_tick : (s.setSlot k x).tick = s.tick := rfl
@[simp] theorem State.setSlot_mem : (s.setSlot k x).mem = s.mem := rfl
@[simp] theorem State.setSlot_win : (s.setSlot k x).win = s.win := rfl
@[simp] theorem State.setSlot_ord : (s.setSlot k x).ord = s.ord := rfl
@[simp] theorem State.setSlot_fab : (s.setSlot k x).fab = s.fab := rfl
@[simp] theorem State.setSlot_dir : (s.setSlot k x).dir = s.dir := rfl
@[simp] theorem State.setSlot_host : (s.setSlot k x).host = s.host := rfl
@[simp] theorem State.setSlot_xlt : (s.setSlot k x).xlt = s.xlt := rfl
@[simp] theorem State.setSlot_tier : (s.setSlot k x).tier = s.tier := rfl
@[simp] theorem State.setSlot_cdc : (s.setSlot k x).cdc = s.cdc := rfl
@[simp] theorem State.setSlot_mtx : (s.setSlot k x).mtx = s.mtx := rfl
@[simp] theorem State.setSlot_kv : (s.setSlot k x).kv = s.kv := rfl
@[simp] theorem State.setSlot_emb : (s.setSlot k x).emb = s.emb := rfl
@[simp] theorem State.setSlot_srh : (s.setSlot k x).srh = s.srh := rfl
@[simp] theorem State.setSlot_que : (s.setSlot k x).que = s.que := rfl
@[simp] theorem State.setSlot_pg : (s.setSlot k x).pg = s.pg := rfl
@[simp] theorem State.setSlot_sec : (s.setSlot k x).sec = s.sec := rfl
@[simp] theorem State.setSlot_slots : (s.setSlot k x).slots = s.slots.put k x := rfl
@[simp] theorem State.setSlot_slices : (s.setSlot k x).slices = s.slices := rfl
@[simp] theorem State.setSlot_units : (s.setSlot k x).units = s.units := rfl
@[simp] theorem State.setSlot_stk : (s.setSlot k x).stk = s.stk := rfl
@[simp] theorem State.setSlot_ras : (s.setSlot k x).ras = s.ras := rfl
@[simp] theorem State.setSlot_boot : (s.setSlot k x).boot = s.boot := rfl
@[simp] theorem State.setSlot_faults : (s.setSlot k x).faults = s.faults := rfl
@[simp] theorem State.setSlot_faultSeq : (s.setSlot k x).faultSeq = s.faultSeq := rfl
end

/-! ### setConn -/

section
variable (s : State) (t : Nat) (c : SpdmConn)
@[simp] theorem State.setConn_pending : (s.setConn t c).pending = s.pending := rfl
@[simp] theorem State.setConn_fresh : (s.setConn t c).fresh = s.fresh := rfl
@[simp] theorem State.setConn_out : (s.setConn t c).out = s.out := rfl
@[simp] theorem State.setConn_regs : (s.setConn t c).regs = s.regs := rfl
@[simp] theorem State.setConn_rings : (s.setConn t c).rings = s.rings := rfl
@[simp] theorem State.setConn_tick : (s.setConn t c).tick = s.tick := rfl
@[simp] theorem State.setConn_mem : (s.setConn t c).mem = s.mem := rfl
@[simp] theorem State.setConn_win : (s.setConn t c).win = s.win := rfl
@[simp] theorem State.setConn_ord : (s.setConn t c).ord = s.ord := rfl
@[simp] theorem State.setConn_fab : (s.setConn t c).fab = s.fab := rfl
@[simp] theorem State.setConn_dir : (s.setConn t c).dir = s.dir := rfl
@[simp] theorem State.setConn_host : (s.setConn t c).host = s.host := rfl
@[simp] theorem State.setConn_xlt : (s.setConn t c).xlt = s.xlt := rfl
@[simp] theorem State.setConn_tier : (s.setConn t c).tier = s.tier := rfl
@[simp] theorem State.setConn_cdc : (s.setConn t c).cdc = s.cdc := rfl
@[simp] theorem State.setConn_mtx : (s.setConn t c).mtx = s.mtx := rfl
@[simp] theorem State.setConn_kv : (s.setConn t c).kv = s.kv := rfl
@[simp] theorem State.setConn_emb : (s.setConn t c).emb = s.emb := rfl
@[simp] theorem State.setConn_srh : (s.setConn t c).srh = s.srh := rfl
@[simp] theorem State.setConn_que : (s.setConn t c).que = s.que := rfl
@[simp] theorem State.setConn_pg : (s.setConn t c).pg = s.pg := rfl
@[simp] theorem State.setConn_sec : (s.setConn t c).sec = { s.sec with spdm := s.sec.spdm.put t c } := rfl
@[simp] theorem State.setConn_slots : (s.setConn t c).slots = s.slots := rfl
@[simp] theorem State.setConn_slices : (s.setConn t c).slices = s.slices := rfl
@[simp] theorem State.setConn_units : (s.setConn t c).units = s.units := rfl
@[simp] theorem State.setConn_stk : (s.setConn t c).stk = s.stk := rfl
@[simp] theorem State.setConn_ras : (s.setConn t c).ras = s.ras := rfl
@[simp] theorem State.setConn_boot : (s.setConn t c).boot = s.boot := rfl
@[simp] theorem State.setConn_faults : (s.setConn t c).faults = s.faults := rfl
@[simp] theorem State.setConn_faultSeq : (s.setConn t c).faultSeq = s.faultSeq := rfl
end

/-! ### setSlices -/

section
variable (s : State) (f : SliceState → SliceState)
@[simp] theorem State.setSlices_pending : (s.setSlices f).pending = s.pending := rfl
@[simp] theorem State.setSlices_fresh : (s.setSlices f).fresh = s.fresh := rfl
@[simp] theorem State.setSlices_out : (s.setSlices f).out = s.out := rfl
@[simp] theorem State.setSlices_regs : (s.setSlices f).regs = s.regs := rfl
@[simp] theorem State.setSlices_rings : (s.setSlices f).rings = s.rings := rfl
@[simp] theorem State.setSlices_tick : (s.setSlices f).tick = s.tick := rfl
@[simp] theorem State.setSlices_mem : (s.setSlices f).mem = s.mem := rfl
@[simp] theorem State.setSlices_win : (s.setSlices f).win = s.win := rfl
@[simp] theorem State.setSlices_ord : (s.setSlices f).ord = s.ord := rfl
@[simp] theorem State.setSlices_fab : (s.setSlices f).fab = s.fab := rfl
@[simp] theorem State.setSlices_dir : (s.setSlices f).dir = s.dir := rfl
@[simp] theorem State.setSlices_host : (s.setSlices f).host = s.host := rfl
@[simp] theorem State.setSlices_xlt : (s.setSlices f).xlt = s.xlt := rfl
@[simp] theorem State.setSlices_tier : (s.setSlices f).tier = s.tier := rfl
@[simp] theorem State.setSlices_cdc : (s.setSlices f).cdc = s.cdc := rfl
@[simp] theorem State.setSlices_mtx : (s.setSlices f).mtx = s.mtx := rfl
@[simp] theorem State.setSlices_kv : (s.setSlices f).kv = s.kv := rfl
@[simp] theorem State.setSlices_emb : (s.setSlices f).emb = s.emb := rfl
@[simp] theorem State.setSlices_srh : (s.setSlices f).srh = s.srh := rfl
@[simp] theorem State.setSlices_que : (s.setSlices f).que = s.que := rfl
@[simp] theorem State.setSlices_pg : (s.setSlices f).pg = s.pg := rfl
@[simp] theorem State.setSlices_sec : (s.setSlices f).sec = s.sec := rfl
@[simp] theorem State.setSlices_slots : (s.setSlices f).slots = s.slots := rfl
@[simp] theorem State.setSlices_slices : (s.setSlices f).slices = f s.slices := rfl
@[simp] theorem State.setSlices_units : (s.setSlices f).units = s.units := rfl
@[simp] theorem State.setSlices_stk : (s.setSlices f).stk = s.stk := rfl
@[simp] theorem State.setSlices_ras : (s.setSlices f).ras = s.ras := rfl
@[simp] theorem State.setSlices_boot : (s.setSlices f).boot = s.boot := rfl
@[simp] theorem State.setSlices_faults : (s.setSlices f).faults = s.faults := rfl
@[simp] theorem State.setSlices_faultSeq : (s.setSlices f).faultSeq = s.faultSeq := rfl
end

/-! ### setBoot -/

section
variable (s : State) (f : BootState → BootState)
@[simp] theorem State.setBoot_pending : (s.setBoot f).pending = s.pending := rfl
@[simp] theorem State.setBoot_fresh : (s.setBoot f).fresh = s.fresh := rfl
@[simp] theorem State.setBoot_out : (s.setBoot f).out = s.out := rfl
@[simp] theorem State.setBoot_regs : (s.setBoot f).regs = s.regs := rfl
@[simp] theorem State.setBoot_rings : (s.setBoot f).rings = s.rings := rfl
@[simp] theorem State.setBoot_tick : (s.setBoot f).tick = s.tick := rfl
@[simp] theorem State.setBoot_mem : (s.setBoot f).mem = s.mem := rfl
@[simp] theorem State.setBoot_win : (s.setBoot f).win = s.win := rfl
@[simp] theorem State.setBoot_ord : (s.setBoot f).ord = s.ord := rfl
@[simp] theorem State.setBoot_fab : (s.setBoot f).fab = s.fab := rfl
@[simp] theorem State.setBoot_dir : (s.setBoot f).dir = s.dir := rfl
@[simp] theorem State.setBoot_host : (s.setBoot f).host = s.host := rfl
@[simp] theorem State.setBoot_xlt : (s.setBoot f).xlt = s.xlt := rfl
@[simp] theorem State.setBoot_tier : (s.setBoot f).tier = s.tier := rfl
@[simp] theorem State.setBoot_cdc : (s.setBoot f).cdc = s.cdc := rfl
@[simp] theorem State.setBoot_mtx : (s.setBoot f).mtx = s.mtx := rfl
@[simp] theorem State.setBoot_kv : (s.setBoot f).kv = s.kv := rfl
@[simp] theorem State.setBoot_emb : (s.setBoot f).emb = s.emb := rfl
@[simp] theorem State.setBoot_srh : (s.setBoot f).srh = s.srh := rfl
@[simp] theorem State.setBoot_que : (s.setBoot f).que = s.que := rfl
@[simp] theorem State.setBoot_pg : (s.setBoot f).pg = s.pg := rfl
@[simp] theorem State.setBoot_sec : (s.setBoot f).sec = s.sec := rfl
@[simp] theorem State.setBoot_slots : (s.setBoot f).slots = s.slots := rfl
@[simp] theorem State.setBoot_slices : (s.setBoot f).slices = s.slices := rfl
@[simp] theorem State.setBoot_units : (s.setBoot f).units = s.units := rfl
@[simp] theorem State.setBoot_stk : (s.setBoot f).stk = s.stk := rfl
@[simp] theorem State.setBoot_ras : (s.setBoot f).ras = s.ras := rfl
@[simp] theorem State.setBoot_boot : (s.setBoot f).boot = f s.boot := rfl
@[simp] theorem State.setBoot_faults : (s.setBoot f).faults = s.faults := rfl
@[simp] theorem State.setBoot_faultSeq : (s.setBoot f).faultSeq = s.faultSeq := rfl
end

/-! ### setMbx -/

section
variable (s : State) (m : Nat) (x : Mailbox)
@[simp] theorem State.setMbx_pending : (s.setMbx m x).pending = s.pending := rfl
@[simp] theorem State.setMbx_fresh : (s.setMbx m x).fresh = s.fresh := rfl
@[simp] theorem State.setMbx_out : (s.setMbx m x).out = s.out := rfl
@[simp] theorem State.setMbx_regs : (s.setMbx m x).regs = { s.regs with mbx := s.regs.mbx.put m x } := rfl
@[simp] theorem State.setMbx_rings : (s.setMbx m x).rings = s.rings := rfl
@[simp] theorem State.setMbx_tick : (s.setMbx m x).tick = s.tick := rfl
@[simp] theorem State.setMbx_mem : (s.setMbx m x).mem = s.mem := rfl
@[simp] theorem State.setMbx_win : (s.setMbx m x).win = s.win := rfl
@[simp] theorem State.setMbx_ord : (s.setMbx m x).ord = s.ord := rfl
@[simp] theorem State.setMbx_fab : (s.setMbx m x).fab = s.fab := rfl
@[simp] theorem State.setMbx_dir : (s.setMbx m x).dir = s.dir := rfl
@[simp] theorem State.setMbx_host : (s.setMbx m x).host = s.host := rfl
@[simp] theorem State.setMbx_xlt : (s.setMbx m x).xlt = s.xlt := rfl
@[simp] theorem State.setMbx_tier : (s.setMbx m x).tier = s.tier := rfl
@[simp] theorem State.setMbx_cdc : (s.setMbx m x).cdc = s.cdc := rfl
@[simp] theorem State.setMbx_mtx : (s.setMbx m x).mtx = s.mtx := rfl
@[simp] theorem State.setMbx_kv : (s.setMbx m x).kv = s.kv := rfl
@[simp] theorem State.setMbx_emb : (s.setMbx m x).emb = s.emb := rfl
@[simp] theorem State.setMbx_srh : (s.setMbx m x).srh = s.srh := rfl
@[simp] theorem State.setMbx_que : (s.setMbx m x).que = s.que := rfl
@[simp] theorem State.setMbx_pg : (s.setMbx m x).pg = s.pg := rfl
@[simp] theorem State.setMbx_sec : (s.setMbx m x).sec = s.sec := rfl
@[simp] theorem State.setMbx_slots : (s.setMbx m x).slots = s.slots := rfl
@[simp] theorem State.setMbx_slices : (s.setMbx m x).slices = s.slices := rfl
@[simp] theorem State.setMbx_units : (s.setMbx m x).units = s.units := rfl
@[simp] theorem State.setMbx_stk : (s.setMbx m x).stk = s.stk := rfl
@[simp] theorem State.setMbx_ras : (s.setMbx m x).ras = s.ras := rfl
@[simp] theorem State.setMbx_boot : (s.setMbx m x).boot = s.boot := rfl
@[simp] theorem State.setMbx_faults : (s.setMbx m x).faults = s.faults := rfl
@[simp] theorem State.setMbx_faultSeq : (s.setMbx m x).faultSeq = s.faultSeq := rfl
end

/-! ### setMsix -/

section
variable (s : State) (k : Nat) (e : Nat × Nat × Bool)
@[simp] theorem State.setMsix_pending : (s.setMsix k e).pending = s.pending := rfl
@[simp] theorem State.setMsix_fresh : (s.setMsix k e).fresh = s.fresh := rfl
@[simp] theorem State.setMsix_out : (s.setMsix k e).out = s.out := rfl
@[simp] theorem State.setMsix_regs : (s.setMsix k e).regs = { s.regs with msix := s.regs.msix.put k e } := rfl
@[simp] theorem State.setMsix_rings : (s.setMsix k e).rings = s.rings := rfl
@[simp] theorem State.setMsix_tick : (s.setMsix k e).tick = s.tick := rfl
@[simp] theorem State.setMsix_mem : (s.setMsix k e).mem = s.mem := rfl
@[simp] theorem State.setMsix_win : (s.setMsix k e).win = s.win := rfl
@[simp] theorem State.setMsix_ord : (s.setMsix k e).ord = s.ord := rfl
@[simp] theorem State.setMsix_fab : (s.setMsix k e).fab = s.fab := rfl
@[simp] theorem State.setMsix_dir : (s.setMsix k e).dir = s.dir := rfl
@[simp] theorem State.setMsix_host : (s.setMsix k e).host = s.host := rfl
@[simp] theorem State.setMsix_xlt : (s.setMsix k e).xlt = s.xlt := rfl
@[simp] theorem State.setMsix_tier : (s.setMsix k e).tier = s.tier := rfl
@[simp] theorem State.setMsix_cdc : (s.setMsix k e).cdc = s.cdc := rfl
@[simp] theorem State.setMsix_mtx : (s.setMsix k e).mtx = s.mtx := rfl
@[simp] theorem State.setMsix_kv : (s.setMsix k e).kv = s.kv := rfl
@[simp] theorem State.setMsix_emb : (s.setMsix k e).emb = s.emb := rfl
@[simp] theorem State.setMsix_srh : (s.setMsix k e).srh = s.srh := rfl
@[simp] theorem State.setMsix_que : (s.setMsix k e).que = s.que := rfl
@[simp] theorem State.setMsix_pg : (s.setMsix k e).pg = s.pg := rfl
@[simp] theorem State.setMsix_sec : (s.setMsix k e).sec = s.sec := rfl
@[simp] theorem State.setMsix_slots : (s.setMsix k e).slots = s.slots := rfl
@[simp] theorem State.setMsix_slices : (s.setMsix k e).slices = s.slices := rfl
@[simp] theorem State.setMsix_units : (s.setMsix k e).units = s.units := rfl
@[simp] theorem State.setMsix_stk : (s.setMsix k e).stk = s.stk := rfl
@[simp] theorem State.setMsix_ras : (s.setMsix k e).ras = s.ras := rfl
@[simp] theorem State.setMsix_boot : (s.setMsix k e).boot = s.boot := rfl
@[simp] theorem State.setMsix_faults : (s.setMsix k e).faults = s.faults := rfl
@[simp] theorem State.setMsix_faultSeq : (s.setMsix k e).faultSeq = s.faultSeq := rfl
end

/-! ### setPlans -/

section
variable (s : State) (n : Nat) (p : SlicePlans)
@[simp] theorem State.setPlans_pending : (s.setPlans n p).pending = s.pending := rfl
@[simp] theorem State.setPlans_fresh : (s.setPlans n p).fresh = s.fresh := rfl
@[simp] theorem State.setPlans_out : (s.setPlans n p).out = s.out := rfl
@[simp] theorem State.setPlans_regs : (s.setPlans n p).regs = s.regs := rfl
@[simp] theorem State.setPlans_rings : (s.setPlans n p).rings = s.rings := rfl
@[simp] theorem State.setPlans_tick : (s.setPlans n p).tick = { s.tick with plans := s.tick.plans.put n p } := rfl
@[simp] theorem State.setPlans_mem : (s.setPlans n p).mem = s.mem := rfl
@[simp] theorem State.setPlans_win : (s.setPlans n p).win = s.win := rfl
@[simp] theorem State.setPlans_ord : (s.setPlans n p).ord = s.ord := rfl
@[simp] theorem State.setPlans_fab : (s.setPlans n p).fab = s.fab := rfl
@[simp] theorem State.setPlans_dir : (s.setPlans n p).dir = s.dir := rfl
@[simp] theorem State.setPlans_host : (s.setPlans n p).host = s.host := rfl
@[simp] theorem State.setPlans_xlt : (s.setPlans n p).xlt = s.xlt := rfl
@[simp] theorem State.setPlans_tier : (s.setPlans n p).tier = s.tier := rfl
@[simp] theorem State.setPlans_cdc : (s.setPlans n p).cdc = s.cdc := rfl
@[simp] theorem State.setPlans_mtx : (s.setPlans n p).mtx = s.mtx := rfl
@[simp] theorem State.setPlans_kv : (s.setPlans n p).kv = s.kv := rfl
@[simp] theorem State.setPlans_emb : (s.setPlans n p).emb = s.emb := rfl
@[simp] theorem State.setPlans_srh : (s.setPlans n p).srh = s.srh := rfl
@[simp] theorem State.setPlans_que : (s.setPlans n p).que = s.que := rfl
@[simp] theorem State.setPlans_pg : (s.setPlans n p).pg = s.pg := rfl
@[simp] theorem State.setPlans_sec : (s.setPlans n p).sec = s.sec := rfl
@[simp] theorem State.setPlans_slots : (s.setPlans n p).slots = s.slots := rfl
@[simp] theorem State.setPlans_slices : (s.setPlans n p).slices = s.slices := rfl
@[simp] theorem State.setPlans_units : (s.setPlans n p).units = s.units := rfl
@[simp] theorem State.setPlans_stk : (s.setPlans n p).stk = s.stk := rfl
@[simp] theorem State.setPlans_ras : (s.setPlans n p).ras = s.ras := rfl
@[simp] theorem State.setPlans_boot : (s.setPlans n p).boot = s.boot := rfl
@[simp] theorem State.setPlans_faults : (s.setPlans n p).faults = s.faults := rfl
@[simp] theorem State.setPlans_faultSeq : (s.setPlans n p).faultSeq = s.faultSeq := rfl
end

/-! ### stats -/

section
variable (s : State) (n : Nat) (f : SliceStats → SliceStats)
@[simp] theorem State.stats_pending : (s.stats n f).pending = s.pending := rfl
@[simp] theorem State.stats_fresh : (s.stats n f).fresh = s.fresh := rfl
@[simp] theorem State.stats_out : (s.stats n f).out = s.out := rfl
@[simp] theorem State.stats_regs : (s.stats n f).regs = s.regs := rfl
@[simp] theorem State.stats_rings : (s.stats n f).rings = s.rings := rfl
@[simp] theorem State.stats_tick : (s.stats n f).tick = { s.tick with stats := s.tick.stats.updD {} n f } := rfl
@[simp] theorem State.stats_mem : (s.stats n f).mem = s.mem := rfl
@[simp] theorem State.stats_win : (s.stats n f).win = s.win := rfl
@[simp] theorem State.stats_ord : (s.stats n f).ord = s.ord := rfl
@[simp] theorem State.stats_fab : (s.stats n f).fab = s.fab := rfl
@[simp] theorem State.stats_dir : (s.stats n f).dir = s.dir := rfl
@[simp] theorem State.stats_host : (s.stats n f).host = s.host := rfl
@[simp] theorem State.stats_xlt : (s.stats n f).xlt = s.xlt := rfl
@[simp] theorem State.stats_tier : (s.stats n f).tier = s.tier := rfl
@[simp] theorem State.stats_cdc : (s.stats n f).cdc = s.cdc := rfl
@[simp] theorem State.stats_mtx : (s.stats n f).mtx = s.mtx := rfl
@[simp] theorem State.stats_kv : (s.stats n f).kv = s.kv := rfl
@[simp] theorem State.stats_emb : (s.stats n f).emb = s.emb := rfl
@[simp] theorem State.stats_srh : (s.stats n f).srh = s.srh := rfl
@[simp] theorem State.stats_que : (s.stats n f).que = s.que := rfl
@[simp] theorem State.stats_pg : (s.stats n f).pg = s.pg := rfl
@[simp] theorem State.stats_sec : (s.stats n f).sec = s.sec := rfl
@[simp] theorem State.stats_slots : (s.stats n f).slots = s.slots := rfl
@[simp] theorem State.stats_slices : (s.stats n f).slices = s.slices := rfl
@[simp] theorem State.stats_units : (s.stats n f).units = s.units := rfl
@[simp] theorem State.stats_stk : (s.stats n f).stk = s.stk := rfl
@[simp] theorem State.stats_ras : (s.stats n f).ras = s.ras := rfl
@[simp] theorem State.stats_boot : (s.stats n f).boot = s.boot := rfl
@[simp] theorem State.stats_faults : (s.stats n f).faults = s.faults := rfl
@[simp] theorem State.stats_faultSeq : (s.stats n f).faultSeq = s.faultSeq := rfl
end

/-! ### setEpoch -/

section
variable (s : State) (dev : Nat) (e : EpochState)
@[simp] theorem State.setEpoch_pending : (s.setEpoch dev e).pending = s.pending := rfl
@[simp] theorem State.setEpoch_fresh : (s.setEpoch dev e).fresh = s.fresh := rfl
@[simp] theorem State.setEpoch_out : (s.setEpoch dev e).out = s.out := rfl
@[simp] theorem State.setEpoch_regs : (s.setEpoch dev e).regs = s.regs := rfl
@[simp] theorem State.setEpoch_rings : (s.setEpoch dev e).rings = s.rings := rfl
@[simp] theorem State.setEpoch_tick : (s.setEpoch dev e).tick = s.tick := rfl
@[simp] theorem State.setEpoch_mem : (s.setEpoch dev e).mem = s.mem := rfl
@[simp] theorem State.setEpoch_win : (s.setEpoch dev e).win = s.win := rfl
@[simp] theorem State.setEpoch_ord : (s.setEpoch dev e).ord = { s.ord with epochs := s.ord.epochs.put dev e } := rfl
@[simp] theorem State.setEpoch_fab : (s.setEpoch dev e).fab = s.fab := rfl
@[simp] theorem State.setEpoch_dir : (s.setEpoch dev e).dir = s.dir := rfl
@[simp] theorem State.setEpoch_host : (s.setEpoch dev e).host = s.host := rfl
@[simp] theorem State.setEpoch_xlt : (s.setEpoch dev e).xlt = s.xlt := rfl
@[simp] theorem State.setEpoch_tier : (s.setEpoch dev e).tier = s.tier := rfl
@[simp] theorem State.setEpoch_cdc : (s.setEpoch dev e).cdc = s.cdc := rfl
@[simp] theorem State.setEpoch_mtx : (s.setEpoch dev e).mtx = s.mtx := rfl
@[simp] theorem State.setEpoch_kv : (s.setEpoch dev e).kv = s.kv := rfl
@[simp] theorem State.setEpoch_emb : (s.setEpoch dev e).emb = s.emb := rfl
@[simp] theorem State.setEpoch_srh : (s.setEpoch dev e).srh = s.srh := rfl
@[simp] theorem State.setEpoch_que : (s.setEpoch dev e).que = s.que := rfl
@[simp] theorem State.setEpoch_pg : (s.setEpoch dev e).pg = s.pg := rfl
@[simp] theorem State.setEpoch_sec : (s.setEpoch dev e).sec = s.sec := rfl
@[simp] theorem State.setEpoch_slots : (s.setEpoch dev e).slots = s.slots := rfl
@[simp] theorem State.setEpoch_slices : (s.setEpoch dev e).slices = s.slices := rfl
@[simp] theorem State.setEpoch_units : (s.setEpoch dev e).units = s.units := rfl
@[simp] theorem State.setEpoch_stk : (s.setEpoch dev e).stk = s.stk := rfl
@[simp] theorem State.setEpoch_ras : (s.setEpoch dev e).ras = s.ras := rfl
@[simp] theorem State.setEpoch_boot : (s.setEpoch dev e).boot = s.boot := rfl
@[simp] theorem State.setEpoch_faults : (s.setEpoch dev e).faults = s.faults := rfl
@[simp] theorem State.setEpoch_faultSeq : (s.setEpoch dev e).faultSeq = s.faultSeq := rfl
end

/-! ### setGather -/

section
variable (s : State) (g : Gather)
@[simp] theorem State.setGather_pending : (s.setGather g).pending = s.pending := rfl
@[simp] theorem State.setGather_fresh : (s.setGather g).fresh = s.fresh := rfl
@[simp] theorem State.setGather_out : (s.setGather g).out = s.out := rfl
@[simp] theorem State.setGather_regs : (s.setGather g).regs = s.regs := rfl
@[simp] theorem State.setGather_rings : (s.setGather g).rings = s.rings := rfl
@[simp] theorem State.setGather_tick : (s.setGather g).tick = s.tick := rfl
@[simp] theorem State.setGather_mem : (s.setGather g).mem = s.mem := rfl
@[simp] theorem State.setGather_win : (s.setGather g).win = s.win := rfl
@[simp] theorem State.setGather_ord : (s.setGather g).ord = s.ord := rfl
@[simp] theorem State.setGather_fab : (s.setGather g).fab = s.fab := rfl
@[simp] theorem State.setGather_dir : (s.setGather g).dir = s.dir := rfl
@[simp] theorem State.setGather_host : (s.setGather g).host = s.host := rfl
@[simp] theorem State.setGather_xlt : (s.setGather g).xlt = s.xlt := rfl
@[simp] theorem State.setGather_tier : (s.setGather g).tier = s.tier := rfl
@[simp] theorem State.setGather_cdc : (s.setGather g).cdc = s.cdc := rfl
@[simp] theorem State.setGather_mtx : (s.setGather g).mtx = s.mtx := rfl
@[simp] theorem State.setGather_kv : (s.setGather g).kv = s.kv := rfl
@[simp] theorem State.setGather_emb : (s.setGather g).emb = s.emb := rfl
@[simp] theorem State.setGather_srh : (s.setGather g).srh = s.srh := rfl
@[simp] theorem State.setGather_que : (s.setGather g).que = s.que := rfl
@[simp] theorem State.setGather_sec : (s.setGather g).sec = s.sec := rfl
@[simp] theorem State.setGather_slots : (s.setGather g).slots = s.slots := rfl
@[simp] theorem State.setGather_slices : (s.setGather g).slices = s.slices := rfl
@[simp] theorem State.setGather_units : (s.setGather g).units = s.units := rfl
@[simp] theorem State.setGather_stk : (s.setGather g).stk = s.stk := rfl
@[simp] theorem State.setGather_ras : (s.setGather g).ras = s.ras := rfl
@[simp] theorem State.setGather_boot : (s.setGather g).boot = s.boot := rfl
@[simp] theorem State.setGather_faults : (s.setGather g).faults = s.faults := rfl
@[simp] theorem State.setGather_faultSeq : (s.setGather g).faultSeq = s.faultSeq := rfl
end

/-! ### What the accessors read after an update -/

@[simp] theorem State.port_setPort (s : State) (n n' : Nat) p : (s.setPort n p).port n' = if n' = n then p else s.port n' := by
  simp [State.port, Tab.get_put]
@[simp] theorem State.hport_setHport (s : State) (p p' : Nat) h : (s.setHport p h).hport p' = if p' = p then h else s.hport p' := by
  simp [State.hport, Tab.get_put]
@[simp] theorem State.shared_setShared (s : State) (r r' : Nat) x : (s.setShared r x).shared r' = if r' = r then x else s.shared r' := by
  simp [State.shared, Tab.get_put]
@[simp] theorem State.ring_setRing (s : State) (n n' : Nat) r : (s.setRing n r).ring n' = if n' = n then r else s.ring n' := by
  simp [State.ring, Tab.get_put]
@[simp] theorem State.subq_setSubq (s : State) (n n' : Nat) q : (s.setSubq n q).subq n' = if n' = n then q else s.subq n' := by
  simp [State.subq, Tab.get_put]
@[simp] theorem State.slot_setSlot (s : State) (k k' : Nat) x : (s.setSlot k x).slot k' = if k' = k then x else s.slot k' := by
  simp [State.slot, Tab.get_put]
@[simp] theorem State.cdcTable_setCdcTable (s : State) (n n' : Nat) t : (s.setCdcTable n t).cdcTable n' = if n' = n then t else s.cdcTable n' := by
  simp [State.cdcTable, Tab.get_put]
@[simp] theorem State.prog_setProg (s : State) (n n' : Nat) p : (s.setProg n p).prog n' = if n' = n then p else s.prog n' := by
  simp [State.prog, Tab.get_put]
@[simp] theorem State.pool_setPool (s : State) (n n' : Nat) p : (s.setPool n p).pool n' = if n' = n then p else s.pool n' := by
  simp [State.pool, Tab.get_put]
@[simp] theorem State.kvAlloc_setAlloc (s : State) (n n' : Nat) a : (s.setAlloc n a).kvAlloc n' = if n' = n then a else s.kvAlloc n' := by
  simp [State.kvAlloc, Tab.get_put]
@[simp] theorem State.table_setTable (s : State) (n n' : Nat) t : (s.setTable n t).table n' = if n' = n then t else s.table n' := by
  simp [State.table, Tab.get_put]
@[simp] theorem State.index_setIndex (s : State) (n n' : Nat) x : (s.setIndex n x).index n' = if n' = n then x else s.index n' := by
  simp [State.index, Tab.get_put]
@[simp] theorem State.chan_setChan (s : State) (c c' : Nat) x : (s.setChan c x).chan c' = if c' = c then x else s.chan c' := by
  simp [State.chan, Tab.get_put]
@[simp] theorem State.queue_setQueue (s : State) (n n' : Nat) q : (s.setQueue n q).queue n' = if n' = n then q else s.queue n' := by
  simp [State.queue, Tab.get_put]
@[simp] theorem State.dchan_setDchan (s : State) (c c' : Nat) x : (s.setDchan c x).dchan c' = if c' = c then x else s.dchan c' := by
  simp [State.dchan, Tab.get_put]
@[simp] theorem State.conn_setConn (s : State) (t t' : Nat) c : (s.setConn t c).conn t' = if t' = t then c else s.conn t' := by
  simp [State.conn, Tab.get_put]
@[simp] theorem State.mbx_setMbx (s : State) (m m' : Nat) x : (s.setMbx m x).mbx m' = if m' = m then x else s.mbx m' := by
  simp [State.mbx, Tab.get_put]
@[simp] theorem State.slicePlans_setPlans (s : State) (n n' : Nat) p : (s.setPlans n p).slicePlans n' = if n' = n then p else s.slicePlans n' := by
  simp [State.slicePlans, Tab.get_put]
@[simp] theorem State.epochOf_setEpoch (s : State) (d d' : Nat) e : (s.setEpoch d e).epochOf d' = if d' = d then e else s.epochOf d' := by
  simp [State.epochOf, Tab.get_put]
@[simp] theorem State.desc_setDesc (s : State) (tok tok' : Nat) d : (s.setDesc tok d).desc tok' = if tok' = tok then some d else s.desc tok' := by
  simp [State.desc, Tab.find_put]
@[simp] theorem State.kvSeq_setSeq (s : State) (q q' : Nat) x : (s.setSeq q x).kvSeq q' = if q' = q then some x else s.kvSeq q' := by
  simp [State.kvSeq, Tab.find_put]
@[simp] theorem State.update_setUpdate (s : State) (n n' : Nat) u : (s.setUpdate n u).update n' = if n' = n then some u else s.update n' := by
  simp [State.update, Tab.find_put]

/-! ### The last of two updates of one entry stands -/

@[simp] theorem State.setPort_setPort (s : State) (n : Nat) p p' : (s.setPort n p).setPort n p' = s.setPort n p' := by
  simp [State.setPort]
@[simp] theorem State.setHport_setHport (s : State) (p : Nat) h h' : (s.setHport p h).setHport p h' = s.setHport p h' := by
  simp [State.setHport]
@[simp] theorem State.setShared_setShared (s : State) (r : Nat) x x' : (s.setShared r x).setShared r x' = s.setShared r x' := by
  simp [State.setShared]
@[simp] theorem State.setRing_setRing (s : State) (n : Nat) r r' : (s.setRing n r).setRing n r' = s.setRing n r' := by
  simp [State.setRing]
@[simp] theorem State.setSubq_setSubq (s : State) (n : Nat) q q' : (s.setSubq n q).setSubq n q' = s.setSubq n q' := by
  simp [State.setSubq]
@[simp] theorem State.setSlot_setSlot (s : State) (k : Nat) x x' : (s.setSlot k x).setSlot k x' = s.setSlot k x' := by
  simp [State.setSlot]
@[simp] theorem State.setCdcTable_setCdcTable (s : State) (n : Nat) t t' : (s.setCdcTable n t).setCdcTable n t' = s.setCdcTable n t' := by
  simp [State.setCdcTable, State.setCdc]
@[simp] theorem State.setProg_setProg (s : State) (n : Nat) p p' : (s.setProg n p).setProg n p' = s.setProg n p' := by
  simp [State.setProg, State.setMtx]
@[simp] theorem State.setPool_setPool (s : State) (n : Nat) p p' : (s.setPool n p).setPool n p' = s.setPool n p' := by
  simp [State.setPool, State.setKv]
@[simp] theorem State.setAlloc_setAlloc (s : State) (n : Nat) a a' : (s.setAlloc n a).setAlloc n a' = s.setAlloc n a' := by
  simp [State.setAlloc, State.setKv]
@[simp] theorem State.setTable_setTable (s : State) (n : Nat) t t' : (s.setTable n t).setTable n t' = s.setTable n t' := by
  simp [State.setTable, State.setEmb]
@[simp] theorem State.setIndex_setIndex (s : State) (n : Nat) x x' : (s.setIndex n x).setIndex n x' = s.setIndex n x' := by
  simp [State.setIndex, State.setSrh]
@[simp] theorem State.setChan_setChan (s : State) (c : Nat) x x' : (s.setChan c x).setChan c x' = s.setChan c x' := by
  simp [State.setChan, State.setSrh]
@[simp] theorem State.setQueue_setQueue (s : State) (n : Nat) q q' : (s.setQueue n q).setQueue n q' = s.setQueue n q' := by
  simp [State.setQueue, State.setQue]
@[simp] theorem State.setDchan_setDchan (s : State) (c : Nat) x x' : (s.setDchan c x).setDchan c x' = s.setDchan c x' := by
  simp [State.setDchan, State.setStk]
@[simp] theorem State.setConn_setConn (s : State) (t : Nat) c c' : (s.setConn t c).setConn t c' = s.setConn t c' := by
  simp [State.setConn, State.setSec]
@[simp] theorem State.setMbx_setMbx (s : State) (m : Nat) x x' : (s.setMbx m x).setMbx m x' = s.setMbx m x' := by
  simp [State.setMbx]
@[simp] theorem State.setDesc_setDesc (s : State) (tok : Nat) d d' : (s.setDesc tok d).setDesc tok d' = s.setDesc tok d' := by
  simp [State.setDesc]
@[simp] theorem State.setRun_setRun (s : State) (tok : Nat) r r' : (s.setRun tok r).setRun tok r' = s.setRun tok r' := by
  simp [State.setRun, State.setMtx]
@[simp] theorem State.setUpdate_setUpdate (s : State) (n : Nat) u u' : (s.setUpdate n u).setUpdate n u' = s.setUpdate n u' := by
  simp [State.setUpdate, State.setEmb]
@[simp] theorem State.word_setWord (s : State) (o o' : Nat) (w : Word) : (s.setWord o w).word o' = if o' = o then w else s.word o' := by
  simp only [State.word, State.setWord, Tab.get_put]

/-! ### draw -/

@[simp] theorem State.draw_fst (s : State) : s.draw.1 = Config.freeNat s.fresh := rfl
@[simp] theorem State.draw_snd (s : State) : s.draw.2 = { s with fresh := s.fresh + 1 } := rfl

end Sys2Proof.Machine
end

