-- ==== Sys2Proof/Laws/Ops.lean ====
section
/-! SUPPORT. What each shared operation can do: which parts of the state it may touch, when a guarded pair completes, and
when a descriptor's operation runs and ends. -/

namespace Sys2Proof.Machine

set_option Elab.async false

/-! ## Flags, messages and records touch only their own parts -/

theorem OnlyRegs.refl (s : State) : OnlyRegs s s := rfl

theorem OnlyRegs.trans {a b c : State} (h : OnlyRegs a b) (k : OnlyRegs b c) : OnlyRegs a c := by
  unfold OnlyRegs at *
  rw [h] at k
  exact k

theorem OnlyRegs.foldl {α : Type} (f : State → α → State) (hf : ∀ s a, OnlyRegs s (f s a)) (l : List α) (s : State) :
    OnlyRegs s (l.foldl f s) := by
  induction l generalizing s with
  | nil => exact .refl s
  | cons a t ih => exact (hf s a).trans (ih _)

theorem setWord_onlyRegs (s : State) (o : Nat) (w : Word) : OnlyRegs s (s.setWord o w) := rfl
theorem setFld_onlyRegs (s : State) (f : Fld) (v : Nat) : OnlyRegs s (s.setFld f v) := rfl
theorem setGuard_onlyRegs (s : State) (p : Nat) (g : Option Guard) : OnlyRegs s (s.setGuard p g) := rfl
theorem emit_onlyRegs (s : State) (o : Out) : OnlyRegs s (s.emit o) := rfl

theorem sendMsix_onlyRegs (s : State) (p v : Nat) : OnlyRegs s (s.sendMsix p v) := by
  unfold State.sendMsix
  dsimp only
  split
  · exact emit_onlyRegs ..
  · split <;> rfl

theorem sendSummary_onlyRegs (s : State) (b : Nat) : OnlyRegs s (s.sendSummary b) := by
  refine OnlyRegs.foldl _ (fun s p => ?_) _ s
  split
  · exact sendMsix_onlyRegs ..
  · exact .refl s

theorem withSummary_onlyRegs (s : State) (b : Nat) (f : State → State) (h : OnlyRegs s (f s)) :
    OnlyRegs s (s.withSummary b f) := by
  unfold State.withSummary
  dsimp only
  split
  · exact h.trans (sendSummary_onlyRegs ..)
  · exact h

/-- Setting an event bit touches registers, and sends at most summary messages (R550). -/
theorem setEvt_onlyRegs (s : State) (f : Fld) : OnlyRegs s (s.setEvt f) :=
  withSummary_onlyRegs _ _ _ (setFld_onlyRegs ..)

/-- Logging a rejected write touches registers alone (R544). -/
theorem logReject_onlyRegs (s : State) (b addr : Nat) (data : Word) (reason path : Nat) (mbx : Bool) :
    OnlyRegs s (s.logReject b addr data reason path mbx) :=
  withSummary_onlyRegs _ _ _ ((setFld_onlyRegs ..).trans ((setFld_onlyRegs ..).trans ((setWord_onlyRegs ..).trans
    ((setFld_onlyRegs ..).trans ((setFld_onlyRegs ..).trans ((setFld_onlyRegs ..).trans ((setWord_onlyRegs ..).trans
    (setFld_onlyRegs ..))))))))

/-- Arming a guard changes no register but the guard state and the log (R541). -/
theorem armGuard_onlyRegs (s : State) (path off : Nat) (v : Word) (cycle : Nat) :
    OnlyRegs s (s.armGuard path off v cycle) := by
  unfold State.armGuard
  dsimp only
  split
  · exact (logReject_onlyRegs ..).trans (setGuard_onlyRegs ..)
  · exact setGuard_onlyRegs ..

theorem expireGuard_onlyRegs (s : State) (path cycle : Nat) : OnlyRegs s (s.expireGuard path cycle) := by
  unfold State.expireGuard
  split
  · split
    · exact (setGuard_onlyRegs ..).trans (logReject_onlyRegs ..)
    · exact .refl s
  · exact .refl s

/-! ## Words and fields -/

theorem fld_setWord_other (s : State) (o : Nat) (w : Word) (f : Fld) (h : f.off ≠ o) : (s.setWord o w).fld f = s.fld f := by
  simp [State.fld, h]

theorem fld_setWord_self (s : State) (w : Word) (f : Fld) : (s.setWord f.off w).fld f = bitsOf w f.lo f.len := by
  simp [State.fld]

@[simp] theorem word_setGuard (s : State) (p : Nat) (g : Option Guard) (o : Nat) : (s.setGuard p g).word o = s.word o := rfl
@[simp] theorem fld_setGuard (s : State) (p : Nat) (g : Option Guard) (f : Fld) : (s.setGuard p g).fld f = s.fld f := rfl
@[simp] theorem mayWrite_setGuard (s : State) (p : Nat) (g : Option Guard) (path b : Nat) :
    (s.setGuard p g).mayWrite path b = s.mayWrite path b := rfl

theorem testBit_bitsOf {n : Nat} (x : BitVec n) (lo len i : Nat) :
    (bitsOf x lo len).testBit i = (decide (i < len) && x.getLsbD (lo + i)) := by
  simp [bitsOf, Nat.testBit_mod_two_pow, Nat.testBit_shiftRight, BitVec.testBit_toNat]

/-- The mask of a field, as a test on bit numbers. -/
def maskCovers (m lo len : Nat) : Bool := (List.range len).all (fun i => m.testBit (lo + i))

theorem maskCovers_bit {m lo len i : Nat} (h : maskCovers m lo len = true) (hi : i < len) : m.testBit (lo + i) = true := by
  simp only [maskCovers, List.all_eq_true, List.mem_range] at h
  exact h i hi

/-- A field whose bits are all RW takes what is written (Table 0-3). -/
theorem bitsOf_writeWord {off lo len : Nat} {old v : Word}
    (h : maskCovers (maskOfAcc off (fun a => a == .rw || a == .rwg)) lo len = true) :
    bitsOf (writeWord off old v) lo len = bitsOf v lo len := by
  apply Nat.eq_of_testBit_eq
  intro i
  rw [testBit_bitsOf, testBit_bitsOf]
  by_cases hi : i < len
  · have hm := maskCovers_bit h hi
    simp only [hi, decide_true, Bool.true_and, writeWord, BitVec.getLsbD_or, BitVec.getLsbD_and, BitVec.getLsbD_not,
      BitVec.getLsbD_ofNat, hm, Bool.and_true]
    by_cases h32 : lo + i < 32
    · simp [h32]
    · have : v.getLsbD (lo + i) = false := BitVec.getLsbD_of_ge v _ (by omega)
      simp [h32, this]
  · simp [hi]

/-- A field none of whose bits software writes keeps its value. -/
theorem bitsOf_writeWord_ro {off lo len : Nat} {old v : Word}
    (h1 : (List.range len).all (fun i => !(maskOfAcc off (fun a => a == .rw || a == .rwg)).testBit (lo + i)) = true)
    (h2 : (List.range len).all (fun i => !(maskOfAcc off (fun a => a == .w1c)).testBit (lo + i)) = true) :
    bitsOf (writeWord off old v) lo len = bitsOf old lo len := by
  simp only [List.all_eq_true, List.mem_range, Bool.not_eq_true'] at h1 h2
  apply Nat.eq_of_testBit_eq
  intro i
  rw [testBit_bitsOf, testBit_bitsOf]
  by_cases hi : i < len
  · have a1 := h1 i hi
    have a2 := h2 i hi
    simp only [hi, decide_true, Bool.true_and, writeWord, BitVec.getLsbD_or, BitVec.getLsbD_and, BitVec.getLsbD_not,
      BitVec.getLsbD_ofNat, a1, a2, Bool.and_false, Bool.false_and, Bool.not_false, Bool.and_true, Bool.or_false]
    by_cases h32 : lo + i < 32
    · simp [h32]
    · have : old.getLsbD (lo + i) = false := BitVec.getLsbD_of_ge old _ (by omega)
      simp [h32, this]
  · simp [hi]

/-- A register's RW field after a write of the register. -/
theorem fld_written {s : State} {o : Nat} {old v : Word} (f : Fld) (ho : f.off = o)
    (hc : maskCovers (maskOfAcc o (fun a => a == .rw || a == .rwg)) f.lo f.len = true) :
    (s.setWord o (writeWord o old v)).fld f = bitsOf v f.lo f.len := by
  subst ho
  rw [fld_setWord_self]
  exact bitsOf_writeWord hc

theorem bitsOf_one {n : Nat} (v : BitVec n) (k : Nat) : bitsOf v k 1 = boolNat (bitOf v k) := by
  apply Nat.eq_of_testBit_eq
  intro i
  rw [testBit_bitsOf]
  unfold boolNat bitOf
  by_cases h : i = 0
  · subst h; cases hv : v.getLsbD k <;> simp [hv]
  · cases hv : v.getLsbD k <;> simp [h, Nat.testBit, Nat.shiftRight_eq_div_pow]
    all_goals (have : 1 < 2 ^ i := Nat.one_lt_two_pow h; simp [Nat.div_eq_of_lt this])

/-! ## The guard protocol (R541 to R543) -/

/-- The write of the complement completes the pair: the register's effect acts on the state with the guard closed. -/
theorem guardPair_completes {s : State} {path off cycle : Nat} {v : Word} {p : Word → Bool} (eff : RegEffect)
    (h : s.pairReady path off v cycle) (hp : p v = true) :
    s.guardPair path off (~~~v) cycle p eff = (s.setGuard path none).runEffect path off v eff := by
  obtain ⟨⟨g, hg, rfl⟩, hw⟩ := h
  simp [State.guardPair, hg, hw, hp]

/-- A write that is no complement closes the guard, changes no register and is logged. -/
theorem guardPair_broken {s : State} {path off cycle : Nat} {v w : Word} {p : Word → Bool} (eff : RegEffect)
    (h : s.pairReady path off v cycle) (hp : p v = true) (hw : w ≠ ~~~v) :
    s.guardPair path off w cycle p eff =
      (s.setGuard path none).logReject (off / 0x10000) off v GUARD_COMPLEMENT path := by
  obtain ⟨⟨g, hg, rfl⟩, hb⟩ := h
  simp [State.guardPair, hg, hb, hp, hw]

theorem runEffect_ok {s t : State} {path off : Nat} {v : Word} {eff : RegEffect} (h : eff v s = (t, none)) :
    s.runEffect path off v eff = t := by simp [State.runEffect, h]

theorem runEffect_rejected {s t : State} {path off : Nat} {v : Word} {eff : RegEffect} {r : Nat} (h : eff v s = (t, some r)) :
    s.runEffect path off v eff = t.logReject (off / 0x10000) off v r path := by simp [State.runEffect, h]

theorem plainWrite_ok {s : State} {path off : Nat} {v : Word} (eff : RegEffect) (h : s.mayWrite path (off / 0x10000) = true) :
    s.plainWrite path off v eff = s.runEffect path off v eff := by simp [State.plainWrite, h]

/-- A completed pair whose effect is accepted. -/
theorem guardPair_ok {s t : State} {path off cycle : Nat} {v : Word} {p : Word → Bool} {eff : RegEffect}
    (h : s.pairReady path off v cycle) (hp : p v = true) (he : eff v (s.setGuard path none) = (t, none)) :
    s.guardPair path off (~~~v) cycle p eff = t := by rw [guardPair_completes _ h hp, runEffect_ok he]

/-- A completed pair whose effect is rejected. -/
theorem guardPair_rejected {s t : State} {path off cycle : Nat} {v : Word} {p : Word → Bool} {eff : RegEffect} {r : Nat}
    (h : s.pairReady path off v cycle) (hp : p v = true) (he : eff v (s.setGuard path none) = (t, some r)) :
    s.guardPair path off (~~~v) cycle p eff = t.logReject (off / 0x10000) off v r path := by
  rw [guardPair_completes _ h hp, runEffect_rejected he]

theorem plainWrite_done {s t : State} {path off : Nat} {v : Word} {eff : RegEffect}
    (h : s.mayWrite path (off / 0x10000) = true) (he : eff v s = (t, none)) : s.plainWrite path off v eff = t := by
  rw [plainWrite_ok _ h, runEffect_ok he]

theorem plainWrite_rejected {s t : State} {path off : Nat} {v : Word} {eff : RegEffect} {r : Nat}
    (h : s.mayWrite path (off / 0x10000) = true) (he : eff v s = (t, some r)) :
    s.plainWrite path off v eff = t.logReject (off / 0x10000) off v r path := by
  rw [plainWrite_ok _ h, runEffect_rejected he]

/-! ## Descriptors -/

theorem runDesc_ready {s : State} {tok op : Nat} {d : Desc} (k : Desc → State → State × Option Cpl) (h : s.ready tok op d) :
    s.runDesc tok op k = (match k d (s.begun tok d) with
      | (s', some c) => s'.opEnd tok c
      | (s', none) => s') := by
  obtain ⟨h1, h2, h3, _⟩ := h
  simp only [State.runDesc, h1]
  rw [if_pos ⟨h2, h3⟩]
  rfl

/-- A descriptor that is not there is not run. -/
theorem runDesc_absent {s : State} {tok op : Nat} (k : Desc → State → State × Option Cpl) (h : s.desc tok = none) :
    s.runDesc tok op k = s := by simp [State.runDesc, h]

/-- A descriptor of another opcode is not run. -/
theorem runDesc_other {s : State} {tok op : Nat} {d : Desc} (k : Desc → State → State × Option Cpl) (h : s.desc tok = some d)
    (ho : dOpcode d.bits ≠ op) : s.runDesc tok op k = s := by simp [State.runDesc, h, ho]

/-- An operation over memory whose operands are ready runs on the state they leave. -/
theorem runMem_granted {s s1 : State} {tok op : Nat} {d : Desc} {segs : List (List Seg)}
    (check : Desc → State → Option Cpl) (needs : Desc → State → List Need)
    (k : Desc → List (List Seg) → State → State × Option Cpl) (h : s.granted tok op d (needs d s) s1 segs)
    (hc : check d s = none) :
    s.runMem tok op check needs k = (match k d segs (s1.begun tok d) with
      | (s', some c) => s'.opEnd tok c
      | (s', none) => s') := by
  obtain ⟨⟨h1, h2, h3, _⟩, ha, hr⟩ := h
  simp only [State.runMem, h1]
  rw [if_pos ⟨h2, h3⟩]
  simp only [hc, ha]
  exact runDesc_ready _ hr

/-- An operation that runs tile by tile runs over the tiles that are ready. -/
theorem runTiles_granted {s s1 : State} {tok op : Nat} {d : Desc} {done : List (List (List Seg))} {stop : Option Cpl}
    (check : Desc → State → Option Cpl) (tiles : Desc → State → List (List Need))
    (k : Desc → List (List (List Seg)) → Option Cpl → State → State × Option Cpl)
    (h : s.grantedTiles tok op d (tiles d s) s1 done stop) (hc : check d s = none) :
    s.runTiles tok op check tiles k = (match k d done stop (s1.begun tok d) with
      | (s', some c) => s'.opEnd tok c
      | (s', none) => s') := by
  obtain ⟨⟨h1, h2, h3, _⟩, ⟨s0, hx, he⟩, hr⟩ := h
  simp only [State.runTiles, h1]
  rw [if_pos ⟨h2, h3⟩]
  simp only [hc, hx, he]
  exact runDesc_ready _ hr

/-- A KV request whose pools read good runs. -/
theorem kvRow_ready {s : State} {tok op : Nat} {d : Desc} (k : Desc → State → State) (h : s.kvReady tok op d) :
    s.kvRow tok op k = k d s := by
  obtain ⟨h1, h2, h3⟩ := h
  unfold State.kvRow
  rw [h1.1]
  dsimp only
  rw [if_pos ⟨h1.2.1, h1.2.2.1, h2⟩]
  congr 1
  generalize s.kvPools d.bits = l at h3
  induction l with
  | nil => rfl
  | cons n t ih =>
    simp only [List.all_cons, Bool.and_eq_true, Bool.not_eq_true'] at h3
    rw [List.foldl_cons, if_neg (by simp [h3.1])]
    exact ih (by simpa using h3.2)

/-- A queue request whose queue serves it runs. -/
theorem queRow_ready {s : State} {tok op : Nat} {d : Desc} {q : Queue} (k : Desc → Queue → State → State)
    (h : s.queReady tok op d q) : s.queRow tok op k = k d q s := by
  obtain ⟨h1, h2, rfl, hp, hs, hk⟩ := h
  unfold State.queRow
  rw [h1.1]
  dsimp only
  rw [if_neg (by simp [h1.2.1, h1.2.2.1, h2]), if_neg (by rcases hp with h | h <;> simp [h]),
    if_neg (by rcases hp with h | h <;> simp [h, hs, hk])]

/-- A message within a session that R648 admits is taken up. -/
theorem secured_admitted {s : State} {m : Msg} (k : State → State) (h : s.admitted m) : s.secured m k = k s := by
  obtain ⟨hp, x, hx, h1, h2, h3⟩ := h
  unfold State.secured
  rw [hx]
  dsimp only
  rw [if_pos ⟨hp, h1, h2, h3⟩]

/-- Any other message of a secured type is counted and discarded. -/
theorem secured_discarded {s : State} {m : Msg} (k : State → State) (h : ¬ s.admitted m) :
    s.secured m k = { s with ras := { s.ras with discarded := s.ras.discarded + 1 } } := by
  unfold State.secured
  cases hx : (s.conn (8 + m.port)).session m.session with
  | none => rfl
  | some x =>
    dsimp only
    rw [if_neg (fun a => h ⟨a.1, x, hx, a.2⟩)]
    rfl

theorem order_accepted {s : State} {m : Msg} {oseq : Nat} (k : State → State) (h : s.admitted m) :
    s.order m oseq none k = (k s).orderReply m oseq 0 := by
  unfold State.order
  rw [secured_admitted _ h]
  rfl

theorem order_refused {s : State} {m : Msg} {oseq r : Nat} (k : State → State) (h : s.admitted m) :
    s.order m oseq (some r) k = s.orderReply m oseq r := by
  unfold State.order
  rw [secured_admitted _ h]
  rfl

/-- An operation that awaits nothing more finishes with its completion. -/
theorem opEnd_finishes {s : State} {tok : Nat} {d : Desc} {c : Cpl} (h : s.desc tok = some d) (ha : d.awaiting ≤ 1)
    (hc : d.cpl.status = ST_OK) : s.opEnd tok c = s.finish tok c := by
  simp [State.opEnd, h, ha, Cpl.after, hc]

/-- A finished descriptor: its phase, and what its completion says. -/
theorem finish_desc {s : State} {tok : Nat} {d : Desc} {c : Cpl} (h : s.desc tok = some d) :
    ∃ e, (s.finish tok c).desc tok = some e ∧ e.phase = .finished ∧ e.cpl.status = c.status ∧ e.cpl.done = c.done ∧
      e.cpl.dropped = c.dropped ∧ e.cpl.result = c.result ∧ (c.reason ≠ 0 → e.cpl.reason = c.reason) ∧ e.bits = d.bits ∧
      e.src = d.src := by
  simp only [State.finish, h, State.desc_setDesc, if_true]
  refine ⟨_, rfl, rfl, rfl, rfl, rfl, rfl, ?_, rfl, rfl⟩
  intro hr
  simp [hr]

/-- Nothing but the ring state differs. -/
theorem finish_onlyRings (s : State) (tok : Nat) (c : Cpl) : s.finish tok c = { s with rings := (s.finish tok c).rings } := by
  unfold State.finish
  split <;> rfl

theorem finish_other {s : State} {tok k : Nat} (c : Cpl) (h : k ≠ tok) : (s.finish tok c).desc k = s.desc k := by
  unfold State.finish
  split
  · rfl
  · simp [h]

/-! ## Fields and event bits -/

/-- A word in three parts: above the field, the field, below it. -/
theorem putBits_toNat {n : Nat} (x : BitVec n) {lo len v : Nat} (h : lo + len ≤ n) :
    (putBits x lo len v).toNat =
      x.toNat / 2 ^ (lo + len) * 2 ^ (lo + len) + v % 2 ^ len * 2 ^ lo + x.toNat % 2 ^ lo := by
  have hx : x.toNat = x.toNat / 2 ^ (lo + len) * 2 ^ (lo + len) + bitsOf x lo len * 2 ^ lo + x.toNat % 2 ^ lo := by
    unfold bitsOf
    rw [Nat.shiftRight_eq_div_pow]
    have h1 := Nat.div_add_mod x.toNat (2 ^ lo)
    have h2 := Nat.div_add_mod (x.toNat / 2 ^ lo) (2 ^ len)
    rw [Nat.div_div_eq_div_mul, ← Nat.pow_add] at h2
    rw [← h2, Nat.mul_add, ← Nat.mul_assoc, ← Nat.pow_add] at h1
    rw [Nat.mul_comm _ (2 ^ (lo + len)), Nat.mul_comm _ (2 ^ lo)]
    omega
  have hlt : x.toNat / 2 ^ (lo + len) * 2 ^ (lo + len) + v % 2 ^ len * 2 ^ lo + x.toNat % 2 ^ lo < 2 ^ n := by
    have hp : (2 : Nat) ^ n = 2 ^ (n - (lo + len)) * 2 ^ (lo + len) := by rw [← Nat.pow_add]; congr 1; omega
    have a : x.toNat / 2 ^ (lo + len) < 2 ^ (n - (lo + len)) := by
      rw [Nat.div_lt_iff_lt_mul (Nat.two_pow_pos _), ← hp]; exact x.isLt
    have b : v % 2 ^ len * 2 ^ lo + x.toNat % 2 ^ lo < 2 ^ (lo + len) := by
      have h1 : v % 2 ^ len + 1 ≤ 2 ^ len := Nat.mod_lt _ (Nat.two_pow_pos _)
      have h2 : x.toNat % 2 ^ lo < 2 ^ lo := Nat.mod_lt _ (Nat.two_pow_pos _)
      have h3 := Nat.mul_le_mul_right (2 ^ lo) h1
      rw [← Nat.pow_add, Nat.add_comm len, Nat.add_mul] at h3
      omega
    have c := Nat.mul_le_mul_right (2 ^ (lo + len)) a
    rw [Nat.succ_mul] at c
    omega
  unfold putBits
  rw [BitVec.toNat_ofNat]
  have e : x.toNat - bitsOf x lo len * 2 ^ lo + v % 2 ^ len * 2 ^ lo =
      x.toNat / 2 ^ (lo + len) * 2 ^ (lo + len) + v % 2 ^ len * 2 ^ lo + x.toNat % 2 ^ lo := by omega
  rw [e, Nat.mod_eq_of_lt hlt]

/-- A field just written reads as what was written, cut to its width. -/
theorem bitsOf_putBits_self {n : Nat} (x : BitVec n) {lo len v : Nat} (h : lo + len ≤ n) :
    bitsOf (putBits x lo len v) lo len = v % 2 ^ len := by
  unfold bitsOf
  rw [putBits_toNat x h, Nat.shiftRight_eq_div_pow, Nat.pow_add]
  have : x.toNat / (2 ^ lo * 2 ^ len) * (2 ^ lo * 2 ^ len) + v % 2 ^ len * 2 ^ lo + x.toNat % 2 ^ lo =
      x.toNat % 2 ^ lo + 2 ^ lo * (x.toNat / (2 ^ lo * 2 ^ len) * 2 ^ len + v % 2 ^ len) := by
    rw [Nat.mul_add, Nat.mul_left_comm, Nat.mul_comm (2 ^ lo) (v % 2 ^ len)]
    omega
  rw [this, Nat.add_mul_div_left _ _ (Nat.two_pow_pos _), Nat.div_eq_of_lt (Nat.mod_lt _ (Nat.two_pow_pos _)), Nat.zero_add,
    Nat.mul_comm _ (2 ^ len), Nat.mul_add_mod, Nat.mod_mod]

theorem bitsOf_congr_high {n : Nat} {x y : BitVec n} {c lo len : Nat} (h : x.toNat / 2 ^ c = y.toNat / 2 ^ c) (hc : c ≤ lo) :
    bitsOf x lo len = bitsOf y lo len := by
  obtain ⟨k, rfl⟩ := Nat.exists_eq_add_of_le hc
  unfold bitsOf
  rw [Nat.shiftRight_eq_div_pow, Nat.shiftRight_eq_div_pow, Nat.pow_add, ← Nat.div_div_eq_div_mul, ← Nat.div_div_eq_div_mul, h]

theorem bitsOf_congr_low {n : Nat} {x y : BitVec n} {c lo len : Nat} (h : x.toNat % 2 ^ c = y.toNat % 2 ^ c) (hc : lo + len ≤ c) :
    bitsOf x lo len = bitsOf y lo len := by
  have e : ∀ z : Nat, z / 2 ^ lo % 2 ^ len = z % 2 ^ c % 2 ^ (lo + len) / 2 ^ lo := by
    intro z
    rw [Nat.mod_mod_of_dvd _ (Nat.pow_dvd_pow 2 hc), Nat.pow_add, Nat.mod_mul_right_div_self]
  unfold bitsOf
  rw [Nat.shiftRight_eq_div_pow, Nat.shiftRight_eq_div_pow, e, e, h]

/-- A field keeps its value when another that does not overlap it is written. -/
theorem bitsOf_putBits_other {n : Nat} (x : BitVec n) {lo len v lo' len' : Nat} (h : lo + len ≤ n)
    (hd : lo + len ≤ lo' ∨ lo' + len' ≤ lo) : bitsOf (putBits x lo len v) lo' len' = bitsOf x lo' len' := by
  have ha : v % 2 ^ len * 2 ^ lo + x.toNat % 2 ^ lo < 2 ^ (lo + len) := by
    have h1 : v % 2 ^ len + 1 ≤ 2 ^ len := Nat.mod_lt _ (Nat.two_pow_pos _)
    have h2 : x.toNat % 2 ^ lo < 2 ^ lo := Nat.mod_lt _ (Nat.two_pow_pos _)
    have h3 := Nat.mul_le_mul_right (2 ^ lo) h1
    rw [← Nat.pow_add, Nat.add_comm len, Nat.add_mul] at h3
    omega
  rcases hd with hd | hd
  · apply bitsOf_congr_high (c := lo + len) _ hd
    rw [putBits_toNat x h, Nat.add_assoc, Nat.mul_comm, Nat.mul_add_div (Nat.two_pow_pos _), Nat.div_eq_of_lt ha, Nat.add_zero]
  · apply bitsOf_congr_low (c := lo) _ hd
    rw [putBits_toNat x h, Nat.pow_add]
    have : x.toNat / (2 ^ lo * 2 ^ len) * (2 ^ lo * 2 ^ len) + v % 2 ^ len * 2 ^ lo + x.toNat % 2 ^ lo =
        x.toNat % 2 ^ lo + 2 ^ lo * (x.toNat / (2 ^ lo * 2 ^ len) * 2 ^ len + v % 2 ^ len) := by
      rw [Nat.mul_add, Nat.mul_left_comm, Nat.mul_comm (2 ^ lo) (v % 2 ^ len)]
      omega
    rw [this, Nat.add_mul_mod_self_left, Nat.mod_mod]

@[simp] theorem word_sendMsix (s : State) (p v o : Nat) : (s.sendMsix p v).word o = s.word o := by
  unfold State.sendMsix
  dsimp only
  split
  · rfl
  · split <;> rfl

@[simp] theorem word_sendSummary (s : State) (b o : Nat) : (s.sendSummary b).word o = s.word o := by
  unfold State.sendSummary
  generalize List.range 8 = l
  induction l generalizing s with
  | nil => rfl
  | cons a t ih =>
    simp only [List.foldl_cons]
    rw [ih]
    split <;> simp

theorem word_withSummary (s : State) (b o : Nat) (f : State → State) : (s.withSummary b f).word o = (f s).word o := by
  unfold State.withSummary
  dsimp only
  split <;> simp

/-- Setting an event bit, word by word. -/
theorem word_setEvt (s : State) (f : Fld) (o : Nat) : (s.setEvt f).word o = (s.setFld f 1).word o := word_withSummary ..

/-- An event bit just set reads 1. -/
theorem fld_setEvt_self (s : State) (f : Fld) (h : f.lo + f.len ≤ 32) (hl : 0 < f.len) : (s.setEvt f).fld f = 1 := by
  unfold State.fld
  rw [word_setEvt]
  simp only [State.setFld, State.word_setWord, if_true]
  rw [bitsOf_putBits_self _ h, Nat.mod_eq_of_lt (Nat.one_lt_two_pow (by omega))]

theorem fld_setEvt_other (s : State) (f g : Fld) (h : g.off ≠ f.off) : (s.setEvt f).fld g = s.fld g := by
  unfold State.fld
  rw [word_setEvt]
  simp [State.setFld, h]

theorem setEvt_tick (s : State) (f : Fld) : (s.setEvt f).tick = s.tick := by rw [setEvt_onlyRegs s f]

/-! ## Bytes of memory under a key (R576) -/

theorem peekN_getD (s : State) (key d n i : Nat) (h : i < n) :
    (s.peekN key d n).getD i 0 = s.peek key (d + i) := by
  induction n generalizing d i with
  | zero => omega
  | succ n ih =>
    cases i with
    | zero => rfl
    | succ i => simp only [State.peekN, List.getD_cons_succ]; rw [ih _ _ (by omega)]; congr 1; omega

theorem peekN_length (s : State) (key d n : Nat) : (s.peekN key d n).length = n := by
  induction n generalizing d with
  | zero => rfl
  | succ n ih => simp [State.peekN, ih]

theorem memOk_bytes (s : State) (b : Mem) (k : Tab Nat) (h : Mem.wf b = true) :
    State.memOk { s with mem := { s.mem with bytes := b, lineKey := k } } := h

theorem peek_mem (s : State) (b : Mem) (t : Tab Nat) (key x : Nat) :
    State.peek { s with mem := { s.mem with bytes := b, lineKey := t } } key x =
      (match t.find (lineOf x) with
       | none => b.read x
       | some k => if k = key then b.read x else Config.scramble k key x (b.read x)) := rfl

/-- A line brought under a key reads under it as that key decrypted it before. -/
theorem rekey_peek {s : State} (h : s.memOk) (key line : Nat) :
    (s.rekeyLine key line).memOk ∧ (s.rekeyLine key line).mem.lineKey.find line = some key ∧
      ∀ x, (s.rekeyLine key line).peek key x = s.peek key x := by
  unfold State.rekeyLine
  split
  · rename_i k hk
    split
    · rename_i e; subst e; exact ⟨h, hk, fun _ => rfl⟩
    · rename_i hne
      generalize hl : s.peekN key (64 * line) 64 = l
      have hn : l.length = 64 := by rw [← hl, peekN_length]
      have hg : ∀ i, i < 64 → l.getD i 0 = s.peek key (64 * line + i) := fun i hi => by rw [← hl, peekN_getD _ _ _ _ _ hi]
      clear hl
      refine ⟨memOk_bytes _ _ _ (Mem.wf_writeN _ _ h), by simp, fun x => ?_⟩
      rw [peek_mem, Tab.find_put]
      by_cases hx : lineOf x = line
      · rw [if_pos hx]; dsimp only; rw [if_pos rfl, Mem.read_writeN h, hn, if_pos (by unfold lineOf at hx; omega),
          hg _ (by unfold lineOf at hx; omega)]
        rw [show 64 * line + (x - 64 * line) = x by unfold lineOf at hx; omega]
      · rw [if_neg hx, Mem.read_writeN h, hn, if_neg (by unfold lineOf at hx; omega)]; rfl
  · rename_i hk
    refine ⟨h, by simp, fun x => ?_⟩
    simp only [State.peek, Tab.find_put]
    by_cases hx : lineOf x = line
    · rw [if_pos hx]; dsimp only; rw [if_pos rfl, hx, hk]
    · rw [if_neg hx]

/-- A byte written under a key reads back under it, and every other byte reads as before. -/
theorem poke_peek {s : State} (h : s.memOk) (key d : Nat) (b : Byte) :
    (s.poke key d b).memOk ∧ ∀ x, (s.poke key d b).peek key x = if x = d then b else s.peek key x := by
  obtain ⟨h1, h2, h3⟩ := rekey_peek h key (lineOf d)
  unfold State.poke
  refine ⟨Mem.wf_write _ _ h1, fun x => ?_⟩
  by_cases hx : x = d
  · subst hx; rw [if_pos rfl]; unfold State.peek; dsimp only; rw [h2]; dsimp only; rw [if_pos rfl, Mem.read_write h1, if_pos rfl]
  · rw [if_neg hx, ← h3]; unfold State.peek; dsimp only; rw [Mem.read_write h1, if_neg hx]

end Sys2Proof.Machine
end

