-- ==== Sys2Proof/Laws/Kept.lean ====
section
/-! SUPPORT. What every command keeps, and the lemmas of the shared operations: flags, registers, rings, homes, groups, admission, the directory: the canonical form of the memory, the queue, and the bound
of the fault records. -/

namespace Sys2Proof.Machine

set_option Elab.async false

/-- What every command keeps: the canonical form of the memory, the queue, and the limit of the fault records. -/
def Kept (s0 s : State) : Prop :=
  (s0.mem.bytes.wf = true → s.mem.bytes.wf = true) ∧ s.pending = s0.pending ∧ (faultsOk s0.faults → faultsOk s.faults)

/-- The same of the three fields by themselves. -/
def KeptF (s0 : State) (p : List Instr) (b : Mem) (f : List FaultRec) : Prop :=
  (s0.mem.bytes.wf = true → b.wf = true) ∧ p = s0.pending ∧ (faultsOk s0.faults → faultsOk f)

def KeptO (s0 : State) (o : Host.Outcome State Fault Refusal) : Prop := ∀ t, o = .next t → Kept s0 t

theorem Kept.refl (s : State) : Kept s s := ⟨id, rfl, id⟩

theorem Kept.toF {s0 t : State} (h : Kept s0 t) : KeptF s0 t.pending t.mem.bytes t.faults := h

theorem Kept.lit (s0 : State) (pending : List Instr) (fresh : Nat) (out : List Out) (regs : RegState) (rings : Rings)
    (tick : TickState) (mem : MemState) (win : WindowState) (ord : OrderState) (fab : FabState) (dir : DirState)
    (host : HostState) (xlt : XltState) (tier : TierState) (cdc : CdcState) (mtx : MtxState) (kv : KvState) (emb : EmbState)
    (srh : SrhState) (que : QueueState) (pg : PgState) (sec : SecState) (slots : Tab KeySlot) (slices : SliceState)
    (units : UnitsState) (stk : StkState) (ras : RasState) (boot : BootState) (faults : List FaultRec) (faultSeq : Nat) :
    Kept s0 ⟨pending, fresh, out, regs, rings, tick, mem, win, ord, fab, dir, host, xlt, tier, cdc, mtx, kv, emb, srh, que, pg,
      sec, slots, slices, units, stk, ras, boot, faults, faultSeq⟩ = KeptF s0 pending mem.bytes faults := propext Iff.rfl

theorem KeptF.writeN {s0 : State} {p : List Instr} {m : Mem} {f : List FaultRec} (a : Nat) (l : List Byte)
    (h : KeptF s0 p m f) : KeptF s0 p (m.writeN a l) f := ⟨fun hw => Mem.wf_writeN a l (h.1 hw), h.2⟩

theorem Kept.fst {α : Type} {s0 t : State} {p : State × α} {x : α} (e : p = (t, x)) (h : Kept s0 p.1) : Kept s0 t := by
  rw [e] at h; exact h

theorem Kept.snd {α : Type} {s0 t : State} {p : α × State} {x : α} (e : p = (x, t)) (h : Kept s0 p.2) : Kept s0 t := by
  rw [e] at h; exact h

def KeptP (s0 : State) (o : Option State) : Prop := ∀ t, o = .some t → Kept s0 t

theorem Kept.some {s0 t : State} {o : Option State} (e : o = .some t) (h : KeptP s0 o) : Kept s0 t := h t e

theorem Kept.getD {s0 d : State} {o : Option State} (h : KeptP s0 o) (hd : Kept s0 d) : Kept s0 (o.getD d) := by
  cases o with
  | none => exact hd
  | some t => exact h t rfl

theorem KeptP.some {s0 t : State} (h : Kept s0 t) : KeptP s0 (.some t) := by intro u e; cases e; exact h

theorem KeptP.none (s0 : State) : KeptP s0 .none := by intro u e; cases e

theorem Kept.foldl {α : Type} {s0 s : State} {f : State → α → State} {l : List α}
    (hf : ∀ (s : State) (a : α), Kept s0 s → Kept s0 (f s a)) (h : Kept s0 s) : Kept s0 (l.foldl f s) := by
  induction l generalizing s with
  | nil => exact h
  | cons a t ih => exact ih (hf _ _ h)

theorem Kept.foldl1 {α β : Type} {s0 : State} {f : State × β → α → State × β} {l : List α} {p : State × β}
    (hf : ∀ (p : State × β) (a : α), Kept s0 p.1 → Kept s0 (f p a).1) (h : Kept s0 p.1) : Kept s0 (l.foldl f p).1 := by
  induction l generalizing p with
  | nil => exact h
  | cons a t ih => exact ih (hf _ _ h)

theorem Kept.ite {s0 a b : State} {c : Prop} [Decidable c] (h1 : Kept s0 a) (h2 : Kept s0 b) : Kept s0 (if c then a else b) := by
  split
  · exact h1
  · exact h2

theorem Kept.ite1 {α : Type} {s0 : State} {a b : State × α} {c : Prop} [Decidable c] (h1 : Kept s0 a.1) (h2 : Kept s0 b.1) :
    Kept s0 (if c then a else b).1 := by
  split
  · exact h1
  · exact h2

theorem Kept.ite2 {α : Type} {s0 : State} {a b : α × State} {c : Prop} [Decidable c] (h1 : Kept s0 a.2) (h2 : Kept s0 b.2) :
    Kept s0 (if c then a else b).2 := by
  split
  · exact h1
  · exact h2

theorem Kept.iteEff {s0 s : State} {f g : RegEffect} {v : Word} {c : Prop} [Decidable c] (h1 : Kept s0 (f v s).1)
    (h2 : Kept s0 (g v s).1) : Kept s0 ((if c then f else g) v s).1 := by
  split
  · exact h1
  · exact h2

theorem KeptO.next {s0 t : State} (h : Kept s0 t) : KeptO s0 (.next t) := by
  intro u e; cases e; exact h

theorem kept_emit {s0 s : State} (o : Out) (hkept : Kept s0 s) :
    Kept s0 (State.emit s o) := by
  unfold State.emit
  try dsimp only
  repeat' with_reducible first
    | assumption | intro _ | (simp only [Kept.lit]; refine Kept.toF ?_) | dsimp only

theorem kept_emitAll {s0 s : State} (l : List Out) (hkept : Kept s0 s) :
    Kept s0 (State.emitAll s l) := by
  unfold State.emitAll
  try dsimp only
  repeat' with_reducible first
    | assumption | apply kept_emit | refine Kept.foldl ?_ ?_ | refine Kept.foldl1 ?_ ?_ | intro _ | dsimp only

theorem kept_draw {s0 s : State} (hkept : Kept s0 s) :
    Kept s0 (State.draw s).2 := by
  unfold State.draw
  try dsimp only
  repeat' with_reducible first
    | assumption | intro _ | (simp only [Kept.lit]; refine Kept.toF ?_) | dsimp only

theorem kept_setWord {s0 s : State} (off : Nat) (w : Word) (hkept : Kept s0 s) :
    Kept s0 (State.setWord s off w) := by
  unfold State.setWord
  try dsimp only
  repeat' with_reducible first
    | assumption | intro _ | (simp only [Kept.lit]; refine Kept.toF ?_) | dsimp only

theorem kept_setFld {s0 s : State} (f : Fld) (v : Nat) (hkept : Kept s0 s) :
    Kept s0 (State.setFld s f v) := by
  unfold State.setFld
  try dsimp only
  repeat' with_reducible first
    | assumption | apply kept_setWord | intro _ | dsimp only

theorem kept_sendMsix {s0 s : State} (p : Nat) (v : Nat) (hkept : Kept s0 s) :
    Kept s0 (State.sendMsix s p v) := by
  unfold State.sendMsix
  try dsimp only
  repeat' with_reducible first
    | assumption | apply kept_emit | refine Kept.fst (by assumption) ?_ | intro _ | refine Kept.ite ?_ ?_
    | refine Kept.ite1 ?_ ?_ | (simp only [Kept.lit]; refine Kept.toF ?_) | dsimp only | split

theorem kept_sendSummary {s0 s : State} (b : Nat) (hkept : Kept s0 s) :
    Kept s0 (State.sendSummary s b) := by
  unfold State.sendSummary
  try dsimp only
  repeat' with_reducible first
    | assumption | apply kept_sendMsix | refine Kept.foldl ?_ ?_ | refine Kept.foldl1 ?_ ?_ | intro _
    | refine Kept.ite ?_ ?_ | refine Kept.ite1 ?_ ?_ | dsimp only | split

theorem kept_withSummary {s0 s : State} (b : Nat) (f : State → State) (hcb_f : ∀ x0, Kept s0 x0 → Kept s0 (f x0)) (hkept : Kept s0 s) :
    Kept s0 (State.withSummary s b f) := by
  unfold State.withSummary
  try dsimp only
  repeat' with_reducible first
    | assumption | apply kept_sendSummary | apply hcb_f | intro _ | refine Kept.ite ?_ ?_ | refine Kept.ite1 ?_ ?_
    | dsimp only | split

theorem kept_setEvt {s0 s : State} (f : Fld) (hkept : Kept s0 s) :
    Kept s0 (State.setEvt s f) := by
  unfold State.setEvt
  try dsimp only
  repeat' with_reducible first
    | assumption | apply kept_setFld | apply kept_withSummary | intro _ | (simp only [Kept.lit]; refine Kept.toF ?_)
    | dsimp only

theorem kept_logReject {s0 s : State} (b : Nat) (addr : Nat) (data : Word) (reason : Nat) (path : Nat) (mbx : Bool) (hkept : Kept s0 s) :
    Kept s0 (State.logReject s b addr data reason path mbx) := by
  unfold State.logReject
  try dsimp only
  repeat' with_reducible first
    | assumption | apply kept_setWord | apply kept_setFld | apply kept_withSummary | intro _
    | (simp only [Kept.lit]; refine Kept.toF ?_) | dsimp only

theorem kept_runEffect {s0 s : State} (path : Nat) (off : Nat) (v : Word) (eff : RegEffect) (hcb_eff : ∀ x0 x1, Kept s0 x1 → Kept s0 (eff x0 x1).1) (hkept : Kept s0 s) :
    Kept s0 (State.runEffect s path off v eff) := by
  unfold State.runEffect
  try dsimp only
  repeat' with_reducible first
    | assumption | apply kept_logReject | apply hcb_eff | refine Kept.fst (by assumption) ?_ | intro _
    | (simp only [Kept.lit]; refine Kept.toF ?_) | dsimp only | split

theorem kept_plainWrite {s0 s : State} (path : Nat) (off : Nat) (v : Word) (eff : RegEffect) (hcb_eff : ∀ x0 x1, Kept s0 x1 → Kept s0 (eff x0 x1).1) (hkept : Kept s0 s) :
    Kept s0 (State.plainWrite s path off v eff) := by
  unfold State.plainWrite
  try dsimp only
  repeat' with_reducible first
    | assumption | apply kept_logReject | apply kept_runEffect | apply hcb_eff | intro _ | refine Kept.ite ?_ ?_
    | refine Kept.ite1 ?_ ?_ | dsimp only | split

theorem kept_effStore {s0 s : State} (off : Nat) (v : Word) (hkept : Kept s0 s) :
    Kept s0 (effStore off v s).1 := by
  unfold effStore
  try dsimp only
  repeat' with_reducible first
    | assumption | apply kept_setWord | intro _ | dsimp only

theorem kept_setGuard {s0 s : State} (path : Nat) (g : Option Guard) (hkept : Kept s0 s) :
    Kept s0 (State.setGuard s path g) := by
  unfold State.setGuard
  try dsimp only
  repeat' with_reducible first
    | assumption | refine Kept.fst (by assumption) ?_ | intro _ | (simp only [Kept.lit]; refine Kept.toF ?_)
    | dsimp only | split

theorem kept_armGuard {s0 s : State} (path : Nat) (off : Nat) (v : Word) (cycle : Nat) (hkept : Kept s0 s) :
    Kept s0 (State.armGuard s path off v cycle) := by
  unfold State.armGuard
  try dsimp only
  repeat' with_reducible first
    | assumption | apply kept_logReject | apply kept_setGuard | refine Kept.fst (by assumption) ?_ | intro _
    | refine Kept.ite ?_ ?_ | refine Kept.ite1 ?_ ?_ | (simp only [Kept.lit]; refine Kept.toF ?_) | dsimp only | split

theorem kept_expireGuard {s0 s : State} (path : Nat) (cycle : Nat) (hkept : Kept s0 s) :
    Kept s0 (State.expireGuard s path cycle) := by
  unfold State.expireGuard
  try dsimp only
  repeat' with_reducible first
    | assumption | apply kept_logReject | apply kept_setGuard | refine Kept.fst (by assumption) ?_ | intro _
    | refine Kept.ite ?_ ?_ | refine Kept.ite1 ?_ ?_ | (simp only [Kept.lit]; refine Kept.toF ?_) | dsimp only | split

theorem kept_guardPair {s0 s : State} (path : Nat) (off : Nat) (comp : Word) (cycle : Nat) (p : Word → Bool) (eff : RegEffect) (hcb_eff : ∀ x0 x1, Kept s0 x1 → Kept s0 (eff x0 x1).1) (hkept : Kept s0 s) :
    Kept s0 (State.guardPair s path off comp cycle p eff) := by
  unfold State.guardPair
  try dsimp only
  repeat' with_reducible first
    | assumption | apply kept_logReject | apply kept_runEffect | apply kept_setGuard | apply hcb_eff
    | refine Kept.fst (by assumption) ?_ | intro _ | refine Kept.ite ?_ ?_ | refine Kept.ite1 ?_ ?_
    | (simp only [Kept.lit]; refine Kept.toF ?_) | dsimp only | split

theorem kept_mgmt {s0 s : State} (type : Nat) (payload : List Byte) (hkept : Kept s0 s) :
    Kept s0 (State.mgmt s type payload) := by
  unfold State.mgmt
  try dsimp only
  repeat' with_reducible first
    | assumption | apply kept_emit | intro _ | (simp only [Kept.lit]; refine Kept.toF ?_) | dsimp only

theorem kept_poisonLine {s0 s : State} (line : Nat) (hkept : Kept s0 s) :
    Kept s0 (State.poisonLine s line) := by
  unfold State.poisonLine
  try dsimp only
  repeat' with_reducible first
    | assumption | intro _ | refine Kept.ite ?_ ?_ | refine Kept.ite1 ?_ ?_
    | (simp only [Kept.lit]; refine Kept.toF ?_) | dsimp only | split

theorem kept_unpoison {s0 s : State} (line : Nat) (hkept : Kept s0 s) :
    Kept s0 (State.unpoison s line) := by
  unfold State.unpoison
  try dsimp only
  repeat' with_reducible first
    | assumption | intro _ | (simp only [Kept.lit]; refine Kept.toF ?_) | dsimp only

theorem kept_rekeyLine {s0 s : State} (key line : Nat) (h : Kept s0 s) : Kept s0 (State.rekeyLine s key line) := by
  unfold State.rekeyLine
  split
  · split
    · exact h
    · simp only [Kept.lit]
      generalize s.peekN key (64 * line) 64 = l
      exact ⟨fun hw => Mem.wf_writeN _ l (h.1 hw), h.2⟩
  · exact h

theorem kept_poke {s0 s : State} (key d : Nat) (b : Byte) (h : Kept s0 s) : Kept s0 (State.poke s key d b) :=
  ⟨fun hw => Mem.wf_write _ _ ((kept_rekeyLine key (lineOf d) h).1 hw), (kept_rekeyLine key (lineOf d) h).2⟩

theorem kept_pokeN {s0 s : State} (key d : Nat) (l : List Byte) (m : List Bool) (h : Kept s0 s) : Kept s0 (State.pokeN s key d l m) := by
  induction l generalizing s d m with
  | nil => exact h
  | cons b t ih =>
    cases m with
    | nil => exact ih _ _ (kept_poke _ _ _ h)
    | cons e m =>
      refine ih _ _ ?_
      split
      · exact kept_poke _ _ _ h
      · exact h

theorem kept_setRing {s0 s : State} (n : Nat) (r : Ring) (hkept : Kept s0 s) :
    Kept s0 (State.setRing s n r) := by
  unfold State.setRing
  try dsimp only
  repeat' with_reducible first
    | assumption | intro _ | (simp only [Kept.lit]; refine Kept.toF ?_) | dsimp only

theorem kept_setSubq {s0 s : State} (n : Nat) (q : Subq) (hkept : Kept s0 s) :
    Kept s0 (State.setSubq s n q) := by
  unfold State.setSubq
  try dsimp only
  repeat' with_reducible first
    | assumption | intro _ | (simp only [Kept.lit]; refine Kept.toF ?_) | dsimp only

theorem kept_ringError {s0 s : State} (n : Nat) (reason : Nat) (hkept : Kept s0 s) :
    Kept s0 (State.ringError s n reason) := by
  unfold State.ringError
  try dsimp only
  repeat' with_reducible first
    | assumption | apply kept_setWord | apply kept_setEvt | apply kept_setRing | intro _
    | (simp only [Kept.lit]; refine Kept.toF ?_) | dsimp only

theorem kept_subqError {s0 s : State} (n : Nat) (hkept : Kept s0 s) :
    Kept s0 (State.subqError s n) := by
  unfold State.subqError
  try dsimp only
  repeat' with_reducible first
    | assumption | apply kept_setEvt | apply kept_setSubq | intro _ | (simp only [Kept.lit]; refine Kept.toF ?_)
    | dsimp only

theorem kept_setDesc {s0 s : State} (tok : Nat) (d : Desc) (hkept : Kept s0 s) :
    Kept s0 (State.setDesc s tok d) := by
  unfold State.setDesc
  try dsimp only
  repeat' with_reducible first
    | assumption | intro _ | (simp only [Kept.lit]; refine Kept.toF ?_) | dsimp only

theorem kept_dropDesc {s0 s : State} (tok : Nat) (hkept : Kept s0 s) :
    Kept s0 (State.dropDesc s tok) := by
  unfold State.dropDesc
  try dsimp only
  repeat' with_reducible first
    | assumption | intro _ | (simp only [Kept.lit]; refine Kept.toF ?_) | dsimp only

theorem kept_finish {s0 s : State} (tok : Nat) (c : Cpl) (hkept : Kept s0 s) :
    Kept s0 (State.finish s tok c) := by
  unfold State.finish
  try dsimp only
  repeat' with_reducible first
    | assumption | apply kept_setDesc | refine Kept.fst (by assumption) ?_ | intro _ | refine Kept.ite ?_ ?_
    | refine Kept.ite1 ?_ ?_ | (simp only [Kept.lit]; refine Kept.toF ?_) | dsimp only | split

theorem kept_refuse {s0 s : State} (tok : Nat) (status : Nat) (reason : Nat) (tick : Nat) (hkept : Kept s0 s) :
    Kept s0 (State.refuse s tok status reason tick) := by
  unfold State.refuse
  try dsimp only
  repeat' with_reducible first
    | assumption | apply kept_setDesc | refine Kept.fst (by assumption) ?_ | intro _
    | (simp only [Kept.lit]; refine Kept.toF ?_) | dsimp only | split

theorem kept_await {s0 s : State} (tok : Nat) (hkept : Kept s0 s) :
    Kept s0 (State.await s tok) := by
  unfold State.await
  try dsimp only
  repeat' with_reducible first
    | assumption | apply kept_setDesc | refine Kept.fst (by assumption) ?_ | intro _
    | (simp only [Kept.lit]; refine Kept.toF ?_) | dsimp only | split

theorem kept_failOp {s0 s : State} (tok : Nat) (c : Cpl) (hkept : Kept s0 s) :
    Kept s0 (State.failOp s tok c) := by
  unfold State.failOp
  try dsimp only
  repeat' with_reducible first
    | assumption | apply kept_setDesc | refine Kept.fst (by assumption) ?_ | intro _ | refine Kept.ite ?_ ?_
    | refine Kept.ite1 ?_ ?_ | (simp only [Kept.lit]; refine Kept.toF ?_) | dsimp only | split

theorem kept_opEnd {s0 s : State} (tok : Nat) (c : Cpl) (hkept : Kept s0 s) :
    Kept s0 (State.opEnd s tok c) := by
  unfold State.opEnd
  try dsimp only
  repeat' with_reducible first
    | assumption | apply kept_setDesc | apply kept_finish | refine Kept.fst (by assumption) ?_ | intro _
    | refine Kept.ite ?_ ?_ | refine Kept.ite1 ?_ ?_ | (simp only [Kept.lit]; refine Kept.toF ?_) | dsimp only | split

theorem kept_runDesc {s0 s : State} (tok : Nat) (op : Nat) (k : Desc → State → State × Option Cpl) (hcb_k : ∀ x0 x1, Kept s0 x1 → Kept s0 (k x0 x1).1) (hkept : Kept s0 s) :
    Kept s0 (State.runDesc s tok op k) := by
  unfold State.runDesc
  try dsimp only
  repeat' with_reducible first
    | assumption | apply kept_setDesc | apply kept_opEnd | apply hcb_k | refine Kept.fst (by assumption) ?_ | intro _
    | refine Kept.ite ?_ ?_ | refine Kept.ite1 ?_ ?_ | (simp only [Kept.lit]; refine Kept.toF ?_) | dsimp only | split

theorem kept_endDesc {s0 s : State} (tok : Nat) (op : Nat) (k : Desc → State → State × Option Cpl) (hcb_k : ∀ x0 x1, Kept s0 x1 → Kept s0 (k x0 x1).1) (hkept : Kept s0 s) :
    Kept s0 (State.endDesc s tok op k) := by
  unfold State.endDesc
  try dsimp only
  repeat' with_reducible first
    | assumption | apply kept_opEnd | apply hcb_k | refine Kept.fst (by assumption) ?_ | intro _
    | refine Kept.ite ?_ ?_ | refine Kept.ite1 ?_ ?_ | (simp only [Kept.lit]; refine Kept.toF ?_) | dsimp only | split

theorem kept_assistCount {s0 s : State} (port : Nat) (f : Nat × Nat × Nat → Nat × Nat × Nat) (hkept : Kept s0 s) :
    Kept s0 (State.assistCount s port f) := by
  unfold State.assistCount
  try dsimp only
  repeat' with_reducible first
    | assumption | intro _ | (simp only [Kept.lit]; refine Kept.toF ?_) | dsimp only

theorem kept_writeAssist {s0 s : State} (n : Nat) (a : AssistRec) (hkept : Kept s0 s) :
    Kept s0 (State.writeAssist s n a) := by
  unfold State.writeAssist
  try dsimp only
  repeat' with_reducible first
    | assumption | apply kept_emit | apply kept_setRing | apply kept_assistCount | intro _
    | (simp only [Kept.lit]; refine Kept.toF ?_) | dsimp only

theorem kept_dropAssist {s0 s : State} (port : Nat) (hkept : Kept s0 s) :
    Kept s0 (State.dropAssist s port) := by
  unfold State.dropAssist
  try dsimp only
  repeat' with_reducible first
    | assumption | apply kept_setEvt | apply kept_assistCount | intro _ | dsimp only

theorem kept_postAssist {s0 s : State} (port : Nat) (function : Nat) (kind : Nat) (operands : List Byte) (hkept : Kept s0 s) :
    Kept s0 (State.postAssist s port function kind operands) := by
  unfold State.postAssist
  try dsimp only
  repeat' with_reducible first
    | assumption | apply kept_assistCount | apply kept_writeAssist | apply kept_dropAssist
    | refine Kept.fst (by assumption) ?_ | intro _ | refine Kept.ite ?_ ?_ | refine Kept.ite1 ?_ ?_
    | (simp only [Kept.lit]; refine Kept.toF ?_) | dsimp only | split

theorem kept_drainAssist {s0 s : State} (n : Nat) (hkept : Kept s0 s) :
    Kept s0 (State.drainAssist s n) := by
  unfold State.drainAssist
  try dsimp only
  repeat' with_reducible first
    | assumption | apply kept_writeAssist | refine Kept.foldl ?_ ?_ | refine Kept.foldl1 ?_ ?_ | intro _
    | refine Kept.ite ?_ ?_ | refine Kept.ite1 ?_ ?_ | (simp only [Kept.lit]; refine Kept.toF ?_) | dsimp only | split

theorem kept_dropUnposted {s0 s : State} (hkept : Kept s0 s) :
    Kept s0 (State.dropUnposted s) := by
  unfold State.dropUnposted
  try dsimp only
  repeat' with_reducible first
    | assumption | apply kept_dropAssist | refine Kept.foldl ?_ ?_ | refine Kept.foldl1 ?_ ?_ | intro _
    | (simp only [Kept.lit]; refine Kept.toF ?_) | dsimp only

theorem kept_postFault {s0 s : State} (r : FaultRec) (hkept : Kept s0 s) :
    Kept s0 (State.postFault s r) := by
  unfold State.postFault
  try dsimp only
  repeat' with_reducible first
    | assumption | apply kept_postAssist | intro _ | refine Kept.ite ?_ ?_ | refine Kept.ite1 ?_ ?_ | dsimp only
    | split

theorem faultsOk_map {l : List FaultRec} {f : FaultRec → FaultRec} (hf : ∀ r, (f r).cls = r.cls) (h : faultsOk l) :
    faultsOk (l.map f) := by
  refine ⟨by simpa using h.1, fun e => ?_⟩
  obtain ⟨r, hr, hc⟩ := h.2 (by simpa using e)
  exact ⟨f r, List.mem_map_of_mem hr, by rw [hf, hc]⟩

theorem faultsOk_append {l : List FaultRec} {r : FaultRec} (hl : l.length < 4095) : faultsOk (l ++ [r]) := by
  refine ⟨by simp; omega, fun e => ?_⟩
  simp at e
  omega

theorem faultsOk_overflow {l : List FaultRec} {r : FaultRec} (h : faultsOk l) (hr : r.cls = 0x7F)
    (hn : ∀ x ∈ l, x.cls ≠ 0x7F) : faultsOk (l ++ [r]) := by
  have h1 : l.length ≠ 4096 := fun e => by
    obtain ⟨x, hx, hc⟩ := h.2 e
    exact hn x hx hc
  have h2 := h.1
  exact ⟨by simp; omega, fun _ => ⟨r, by simp, hr⟩⟩

theorem faultsOk_drop {l : List FaultRec} (h : faultsOk l) : faultsOk (l.drop 1) := by
  have h1 := h.1
  cases l with
  | nil => exact h
  | cons r t =>
    simp at h1
    exact ⟨by simp; omega, fun e => by simp at e; omega⟩

theorem kept_queueFault {s0 s : State} (r : FaultRec) (h : Kept s0 s) : Kept s0 (s.queueFault r) := by
  unfold State.queueFault
  dsimp only
  split
  · refine kept_postFault _ (kept_mgmt _ _ ?_)
    have h1 : Kept s0 { s with faults := s.faults ++ [{ r with tick := s.tick.now, seq := s.faultSeq }]
                               faultSeq := s.faultSeq + 1 } :=
      ⟨h.1, h.2.1, fun _ => faultsOk_append (by assumption)⟩
    split
    · exact kept_setEvt _ h1
    · exact h1
  · split
    · exact ⟨h.1, h.2.1, fun hf => faultsOk_map (fun r => by split <;> rfl) (h.2.2 hf)⟩
    · split
      · exact ⟨h.1, h.2.1, fun hf => faultsOk_map (fun r => by split <;> rfl) (h.2.2 hf)⟩
      · rename_i hn
        refine kept_postFault _ (kept_mgmt _ _ ?_)
        refine ⟨h.1, h.2.1, fun hf => faultsOk_overflow (h.2.2 hf) rfl ?_⟩
        intro x hx hc
        exact hn (List.any_eq_true.2 ⟨x, hx, by simp [hc]⟩)

theorem kept_event {s0 s : State} (reason : Nat) (location : Nat) (detail : Nat) (addr : Nat) (hkept : Kept s0 s) :
    Kept s0 (State.event s reason location detail addr) := by
  unfold State.event
  try dsimp only
  repeat' with_reducible first
    | assumption | apply kept_queueFault | intro _ | dsimp only

theorem kept_touch {s0 s : State} (key : Nat) (d : Nat) (len : Nat) (write : Bool) (hkept : Kept s0 s) :
    Kept s0 (State.touch s key d len write) := by
  unfold State.touch
  try dsimp only
  repeat' with_reducible first
    | assumption | apply kept_setEvt | refine Kept.foldl ?_ ?_ | refine Kept.foldl1 ?_ ?_
    | refine Kept.fst (by assumption) ?_ | intro _ | refine Kept.ite ?_ ?_ | refine Kept.ite1 ?_ ?_
    | (simp only [Kept.lit]; refine Kept.toF ?_) | dsimp only | split

theorem kept_setMeta {s0 s : State} (b : Nat) (v : Nat) (hkept : Kept s0 s) :
    Kept s0 (State.setMeta s b v) := by
  unfold State.setMeta
  try dsimp only
  repeat' with_reducible first
    | assumption | intro _
    | (simp only [Kept.lit]; first | refine Kept.toF ?_ | (refine KeptF.writeN _ _ ?_; refine Kept.toF ?_))
    | dsimp only

theorem kept_plainOverwrite {s0 s : State} (b : Nat) (hkept : Kept s0 s) :
    Kept s0 (State.plainOverwrite s b) := by
  unfold State.plainOverwrite
  try dsimp only
  repeat' with_reducible first
    | assumption | apply kept_setEvt | apply kept_setMeta | intro _ | refine Kept.ite ?_ ?_ | refine Kept.ite1 ?_ ?_
    | (simp only [Kept.lit]; refine Kept.toF ?_) | dsimp only | split

theorem kept_countWinRefusal {s0 s : State} (addr : Nat) (src : Nat) (reason : Nat) (hkept : Kept s0 s) :
    Kept s0 (State.countWinRefusal s addr src reason) := by
  unfold State.countWinRefusal
  try dsimp only
  repeat' with_reducible first
    | assumption | intro _ | (simp only [Kept.lit]; refine Kept.toF ?_) | dsimp only

theorem kept_cong {s0 s : State} (w : Nat) (f : Cong → Cong) (hkept : Kept s0 s) :
    Kept s0 (State.cong s w f) := by
  unfold State.cong
  try dsimp only
  repeat' with_reducible first
    | assumption | intro _ | (simp only [Kept.lit]; refine Kept.toF ?_) | dsimp only

theorem kept_congOut {s0 s : State} (d : Nat) (f : Cong → Cong) (hkept : Kept s0 s) :
    Kept s0 (State.congOut s d f) := by
  unfold State.congOut
  try dsimp only
  repeat' with_reducible first
    | assumption | intro _ | (simp only [Kept.lit]; refine Kept.toF ?_) | dsimp only

theorem kept_counted {s0 s : State} (p : Packet) (hkept : Kept s0 s) :
    Kept s0 (State.counted s p) := by
  unfold State.counted
  try dsimp only
  repeat' with_reducible first
    | assumption | apply kept_cong | intro _ | (simp only [Kept.lit]; refine Kept.toF ?_) | dsimp only

theorem kept_setPort {s0 s : State} (n : Nat) (p : Port) (hkept : Kept s0 s) :
    Kept s0 (State.setPort s n p) := by
  unfold State.setPort
  try dsimp only
  repeat' with_reducible first
    | assumption | intro _ | (simp only [Kept.lit]; refine Kept.toF ?_) | dsimp only

theorem kept_portEvt {s0 s : State} (n : Nat) (k : Nat) (hkept : Kept s0 s) :
    Kept s0 (State.portEvt s n k) := by
  unfold State.portEvt
  try dsimp only
  repeat' with_reducible first
    | assumption | apply kept_withSummary | apply kept_setPort | intro _ | (simp only [Kept.lit]; refine Kept.toF ?_)
    | dsimp only

theorem kept_transmit {s0 s : State} (n : Nat) (esc : Bool) (p : Packet) (hkept : Kept s0 s) :
    Kept s0 (State.transmit s n esc p) := by
  unfold State.transmit
  try dsimp only
  repeat' with_reducible first
    | assumption | apply kept_emit | apply kept_setPort | intro _ | refine Kept.getD ?_ ?_
    | (simp only [Kept.lit]; refine Kept.toF ?_) | dsimp only

theorem kept_enqueue {s0 s : State} (n : Nat) (esc : Bool) (p : Packet) (hkept : Kept s0 s) :
    Kept s0 (State.enqueue s n esc p) := by
  unfold State.enqueue
  try dsimp only
  repeat' with_reducible first
    | assumption | apply kept_setPort | intro _ | refine Kept.ite ?_ ?_ | refine Kept.ite1 ?_ ?_
    | (simp only [Kept.lit]; refine Kept.toF ?_) | dsimp only | split

theorem kept_sendBy {s0 s : State} (n : Nat) (esc : Bool) (p : Packet) (hkept : Kept s0 s) :
    Kept s0 (State.sendBy s n esc p) := by
  unfold State.sendBy
  try dsimp only
  repeat' with_reducible first
    | assumption | apply kept_transmit | apply kept_enqueue | intro _ | refine Kept.ite ?_ ?_ | refine Kept.ite1 ?_ ?_
    | dsimp only | split

theorem kept_drainPort {s0 s : State} (n : Nat) (hkept : Kept s0 s) :
    Kept s0 (State.drainPort s n) := by
  unfold State.drainPort
  try dsimp only
  repeat' with_reducible first
    | assumption | apply kept_setPort | apply kept_transmit | refine Kept.foldl ?_ ?_ | refine Kept.foldl1 ?_ ?_
    | refine Kept.fst (by assumption) ?_ | intro _ | refine Kept.ite ?_ ?_ | refine Kept.ite1 ?_ ?_
    | (simp only [Kept.lit]; refine Kept.toF ?_) | dsimp only | split

theorem kept_countDrop {s0 s : State} (f : Drops → Drops) (hkept : Kept s0 s) :
    Kept s0 (State.countDrop s f) := by
  unfold State.countDrop
  try dsimp only
  repeat' with_reducible first
    | assumption | apply kept_setEvt | intro _ | (simp only [Kept.lit]; refine Kept.toF ?_) | dsimp only

theorem kept_sendPacket {s0 s : State} (p : Packet) (hkept : Kept s0 s) :
    Kept s0 (State.sendPacket s p) := by
  unfold State.sendPacket
  try dsimp only
  repeat' with_reducible first
    | assumption | apply kept_transmit | apply kept_countDrop | refine Kept.fst (by assumption) ?_ | intro _
    | refine Kept.ite ?_ ?_ | refine Kept.ite1 ?_ ?_ | (simp only [Kept.lit]; refine Kept.toF ?_) | dsimp only | split

theorem kept_answer {s0 s : State} (q : Packet) (type : Nat) (status : Nat) (reason : Nat) (old : Nat) (poison : Nat) (data : List Byte) (hkept : Kept s0 s) :
    Kept s0 (State.answer s q type status reason old poison data) := by
  unfold State.answer
  try dsimp only
  repeat' with_reducible first
    | assumption | apply kept_sendPacket | intro _ | (simp only [Kept.lit]; refine Kept.toF ?_) | dsimp only

theorem kept_launch {s0 s : State} (r : Request) (hkept : Kept s0 s) :
    Kept s0 (State.launch s r) := by
  unfold State.launch
  try dsimp only
  repeat' with_reducible first
    | assumption | apply kept_congOut | apply kept_sendPacket | refine Kept.fst (by assumption) ?_ | intro _
    | (simp only [Kept.lit]; refine Kept.toF ?_) | dsimp only | split

theorem kept_newGen {s0 s : State} (dest : Nat) (hkept : Kept s0 s) :
    Kept s0 (State.newGen s dest).2 := by
  unfold State.newGen
  try dsimp only
  repeat' with_reducible first
    | assumption | apply kept_draw | refine Kept.fst (by assumption) ?_ | refine Kept.snd (by assumption) ?_ | intro _
    | (simp only [Kept.lit]; refine Kept.toF ?_) | dsimp only | split

theorem kept_originEnd {s0 s : State} (o : Origin) (status : Nat) (reason : Nat) (hkept : Kept s0 s) :
    Kept s0 (State.originEnd s o status reason) := by
  unfold State.originEnd
  try dsimp only
  repeat' with_reducible first
    | assumption | apply kept_setEvt | apply kept_subqError | apply kept_setDesc | apply kept_finish
    | refine Kept.fst (by assumption) ?_ | intro _ | refine Kept.ite ?_ ?_ | refine Kept.ite1 ?_ ?_
    | (simp only [Kept.lit]; refine Kept.toF ?_) | dsimp only | split

theorem kept_startSync {s0 s : State} (dest : Nat) (waiting : List (Origin × Packet)) (hkept : Kept s0 s) :
    Kept s0 (State.startSync s dest waiting) := by
  unfold State.startSync
  try dsimp only
  repeat' with_reducible first
    | assumption | apply kept_launch | apply kept_newGen | refine Kept.fst (by assumption) ?_
    | refine Kept.snd (by assumption) ?_ | intro _ | (simp only [Kept.lit]; refine Kept.toF ?_) | dsimp only | split

theorem kept_sendNumbered {s0 s : State} (dest : Nat) (o : Origin) (p : Packet) (hkept : Kept s0 s) :
    Kept s0 (State.sendNumbered s dest o p) := by
  unfold State.sendNumbered
  try dsimp only
  repeat' with_reducible first
    | assumption | apply kept_launch | apply kept_startSync | refine Kept.fst (by assumption) ?_ | intro _
    | refine Kept.ite ?_ ?_ | refine Kept.ite1 ?_ ?_ | (simp only [Kept.lit]; refine Kept.toF ?_) | dsimp only | split

theorem kept_drainSend {s0 s : State} (dest : Nat) (hkept : Kept s0 s) :
    Kept s0 (State.drainSend s dest) := by
  unfold State.drainSend
  try dsimp only
  repeat' with_reducible first
    | assumption | apply kept_sendNumbered | refine Kept.foldl ?_ ?_ | refine Kept.foldl1 ?_ ?_
    | refine Kept.fst (by assumption) ?_ | intro _ | refine Kept.ite ?_ ?_ | refine Kept.ite1 ?_ ?_
    | (simp only [Kept.lit]; refine Kept.toF ?_) | dsimp only | split

theorem kept_originate {s0 s : State} (o : Origin) (p : Packet) (expect : Nat) (into : Option Into) (hkept : Kept s0 s) :
    Kept s0 (State.originate s o p expect into) := by
  unfold State.originate
  try dsimp only
  repeat' with_reducible first
    | assumption | apply kept_setEvt | apply kept_launch | apply kept_originEnd | apply kept_sendNumbered | intro _
    | refine Kept.ite ?_ ?_ | refine Kept.ite1 ?_ ?_ | (simp only [Kept.lit]; refine Kept.toF ?_) | dsimp only | split

theorem kept_originateFor {s0 s : State} (tok : Nat) (p : Packet) (expect : Nat) (into : Option Into) (hkept : Kept s0 s) :
    Kept s0 (State.originateFor s tok p expect into) := by
  unfold State.originateFor
  try dsimp only
  repeat' with_reducible first
    | assumption | apply kept_await | apply kept_originate | intro _ | dsimp only

theorem kept_releaseTag {s0 s : State} (tag : Nat) (hkept : Kept s0 s) :
    Kept s0 (State.releaseTag s tag) := by
  unfold State.releaseTag
  try dsimp only
  repeat' with_reducible first
    | assumption | apply kept_launch | refine Kept.fst (by assumption) ?_ | intro _
    | (simp only [Kept.lit]; refine Kept.toF ?_) | dsimp only | split

theorem kept_syncFailed {s0 s : State} (dest : Nat) (status : Nat) (reason : Nat) (hkept : Kept s0 s) :
    Kept s0 (State.syncFailed s dest status reason) := by
  unfold State.syncFailed
  try dsimp only
  repeat' with_reducible first
    | assumption | apply kept_originEnd | refine Kept.foldl ?_ ?_ | refine Kept.foldl1 ?_ ?_
    | refine Kept.fst (by assumption) ?_ | intro _ | (simp only [Kept.lit]; refine Kept.toF ?_) | dsimp only | split

theorem kept_endRequest {s0 s : State} (tag : Nat) (status : Nat) (reason : Nat) (hkept : Kept s0 s) :
    Kept s0 (State.endRequest s tag status reason) := by
  unfold State.endRequest
  try dsimp only
  repeat' with_reducible first
    | assumption | apply kept_congOut | apply kept_originEnd | apply kept_drainSend | apply kept_releaseTag
    | apply kept_syncFailed | refine Kept.fst (by assumption) ?_ | intro _ | refine Kept.ite ?_ ?_
    | refine Kept.ite1 ?_ ?_ | (simp only [Kept.lit]; refine Kept.toF ?_) | dsimp only | split

theorem kept_holdWrite {s0 s : State} (w : HeldWrite) (old : List Byte) (full : Bool) (hkept : Kept s0 s) :
    Kept s0 (State.holdWrite s w old full) := by
  unfold State.holdWrite
  try dsimp only
  repeat' with_reducible first
    | assumption | apply kept_originate | refine Kept.foldl ?_ ?_ | refine Kept.foldl1 ?_ ?_ | intro _
    | (simp only [Kept.lit]; refine Kept.toF ?_) | dsimp only

theorem kept_degrade {s0 s : State} (ext : Nat) (pos : Nat) (hkept : Kept s0 s) :
    Kept s0 (State.degrade s ext pos) := by
  unfold State.degrade
  try dsimp only
  repeat' with_reducible first
    | assumption | apply kept_queueFault | intro _ | refine Kept.ite ?_ ?_ | refine Kept.ite1 ?_ ?_
    | (simp only [Kept.lit]; refine Kept.toF ?_) | dsimp only | split

theorem kept_dataLost {s0 s : State} (line : Nat) (hkept : Kept s0 s) :
    Kept s0 (State.dataLost s line) := by
  unfold State.dataLost
  try dsimp only
  repeat' with_reducible first
    | assumption | apply kept_queueFault | intro _ | dsimp only

theorem kept_memberFailed {s0 s : State} (f : Nat × Nat) (hkept : Kept s0 s) :
    Kept s0 (State.memberFailed s f) := by
  unfold State.memberFailed
  try dsimp only
  repeat' with_reducible first
    | assumption | apply kept_poisonLine | apply kept_degrade | apply kept_dataLost
    | refine Kept.fst (by assumption) ?_ | intro _ | refine Kept.ite ?_ ?_ | refine Kept.ite1 ?_ ?_
    | (simp only [Kept.lit]; refine Kept.toF ?_) | dsimp only | split

theorem kept_memberFailures {s0 s : State} (hkept : Kept s0 s) :
    Kept s0 (State.memberFailures s) := by
  unfold State.memberFailures
  try dsimp only
  repeat' with_reducible first
    | assumption | apply kept_memberFailed | refine Kept.foldl ?_ ?_ | refine Kept.foldl1 ?_ ?_ | intro _
    | (simp only [Kept.lit]; refine Kept.toF ?_) | dsimp only

theorem kept_askMember {s0 s : State} (e : BitVec 256) (line : Nat) (pos : Nat) (hkept : Kept s0 s) :
    Kept s0 (State.askMember s e line pos) := by
  unfold State.askMember
  try dsimp only
  repeat' with_reducible first
    | assumption | apply kept_originate | intro _ | dsimp only

theorem kept_releaseHold {s0 s : State} (e : BitVec 256) (line : Nat) (pos : Nat) (hkept : Kept s0 s) :
    Kept s0 (State.releaseHold s e line pos) := by
  unfold State.releaseHold
  try dsimp only
  repeat' with_reducible first
    | assumption | apply kept_originate | intro _ | dsimp only

theorem kept_startGather {s0 s : State} (line : Nat) (hkept : Kept s0 s) :
    Kept s0 (State.startGather s line) := by
  unfold State.startGather
  try dsimp only
  repeat' with_reducible first
    | assumption | apply kept_askMember | refine Kept.foldl ?_ ?_ | refine Kept.foldl1 ?_ ?_ | intro _
    | refine Kept.ite ?_ ?_ | refine Kept.ite1 ?_ ?_ | (simp only [Kept.lit]; refine Kept.toF ?_) | dsimp only | split

theorem kept_setGather {s0 s : State} (g : Gather) (hkept : Kept s0 s) :
    Kept s0 (State.setGather s g) := by
  unfold State.setGather
  try dsimp only
  repeat' with_reducible first
    | assumption | intro _ | refine Kept.ite ?_ ?_ | refine Kept.ite1 ?_ ?_
    | (simp only [Kept.lit]; refine Kept.toF ?_) | dsimp only | split

theorem kept_repaired {s0 s : State} (line : Nat) (r : List Byte) (pg : PgState) (hkept : Kept s0 s) :
    Kept s0 (State.repaired s line r pg) := by
  unfold State.repaired
  try dsimp only
  repeat' with_reducible first
    | assumption | apply kept_queueFault | intro _ | refine Kept.ite ?_ ?_ | refine Kept.ite1 ?_ ?_
    | (simp only [Kept.lit]; first | refine Kept.toF ?_ | (refine KeptF.writeN _ _ ?_; refine Kept.toF ?_))
    | dsimp only | split

theorem kept_advanceGather {s0 s : State} (g : Gather) (hkept : Kept s0 s) :
    Kept s0 (State.advanceGather s g) := by
  unfold State.advanceGather
  try dsimp only
  repeat' with_reducible first
    | assumption | apply kept_askMember | apply kept_releaseHold | apply kept_setGather | apply kept_repaired
    | refine Kept.foldl ?_ ?_ | refine Kept.foldl1 ?_ ?_ | refine Kept.fst (by assumption) ?_ | intro _
    | refine Kept.ite ?_ ?_ | refine Kept.ite1 ?_ ?_ | (simp only [Kept.lit]; refine Kept.toF ?_) | dsimp only | split

theorem kept_advanceGathers {s0 s : State} (hkept : Kept s0 s) :
    Kept s0 (State.advanceGathers s) := by
  unfold State.advanceGathers
  try dsimp only
  repeat' with_reducible first
    | assumption | apply kept_advanceGather | refine Kept.foldl ?_ ?_ | refine Kept.foldl1 ?_ ?_ | intro _ | dsimp only

theorem kept_gatherData {s0 s : State} (line : Nat) (pos : Nat) (data : List Byte) (poison : Bool) (hkept : Kept s0 s) :
    Kept s0 (State.gatherData s line pos data poison) := by
  unfold State.gatherData
  try dsimp only
  repeat' with_reducible first
    | assumption | apply kept_poisonLine | intro _ | refine Kept.ite ?_ ?_ | refine Kept.ite1 ?_ ?_
    | (simp only [Kept.lit]; refine Kept.toF ?_) | dsimp only | split

theorem kept_applyWrite {s0 s : State} (slot : Nat) (d : Nat) (bytes : List Byte) (mask : List Bool) (hkept : Kept s0 s) :
    Kept s0 (State.applyWrite s slot d bytes mask) := by
  unfold State.applyWrite
  try dsimp only
  repeat' with_reducible first
    | assumption | apply kept_unpoison | apply kept_pokeN | apply kept_touch | apply kept_plainOverwrite
    | refine Kept.foldl ?_ ?_ | refine Kept.foldl1 ?_ ?_ | intro _ | refine Kept.ite ?_ ?_ | refine Kept.ite1 ?_ ?_
    | dsimp only | split

theorem kept_applyEntry {s0 s : State} (entry : Option Nat) (slot : Nat) (d : Nat) (bytes : List Byte) (mask : List Bool) (hkept : Kept s0 s) :
    Kept s0 (State.applyEntry s entry slot d bytes mask) := by
  unfold State.applyEntry
  try dsimp only
  repeat' with_reducible first
    | assumption | apply kept_setMeta | apply kept_applyWrite | refine Kept.fst (by assumption) ?_ | intro _
    | (simp only [Kept.lit]; refine Kept.toF ?_) | dsimp only | split

theorem kept_awaitOrigin {s0 s : State} (y0 : HoldOrigin) (hkept : Kept s0 s) :
    Kept s0 (State.awaitOrigin s y0) := by
  unfold State.awaitOrigin
  try dsimp only
  repeat' with_reducible first
    | assumption | apply kept_await | intro _ | dsimp only | split

theorem kept_homeWrite {s0 s : State} (o : HoldOrigin) (slot : Nat) (d : Nat) (bytes : List Byte) (mask : List Bool) (credit : Option Nat) (entry : Option Nat) (hkept : Kept s0 s) :
    Kept s0 (State.homeWrite s o slot d bytes mask credit entry) := by
  unfold State.homeWrite
  try dsimp only
  repeat' with_reducible first
    | assumption | apply kept_holdWrite | apply kept_applyEntry | apply kept_awaitOrigin | refine Kept.foldl ?_ ?_
    | refine Kept.foldl1 ?_ ?_ | intro _ | refine Kept.ite ?_ ?_ | refine Kept.ite1 ?_ ?_ | dsimp only | split

theorem kept_markPoison {s0 s : State} (o : HoldOrigin) (line : Nat) (hkept : Kept s0 s) :
    Kept s0 (State.markPoison s o line) := by
  unfold State.markPoison
  try dsimp only
  repeat' with_reducible first
    | assumption | apply kept_poisonLine | apply kept_holdWrite | apply kept_awaitOrigin | intro _
    | refine Kept.ite ?_ ?_ | refine Kept.ite1 ?_ ?_ | dsimp only | split

theorem kept_setCounter {s0 s : State} (n : Nat) (c : Counter) (hkept : Kept s0 s) :
    Kept s0 (State.setCounter s n c) := by
  unfold State.setCounter
  try dsimp only
  repeat' with_reducible first
    | assumption | intro _ | (simp only [Kept.lit]; refine Kept.toF ?_) | dsimp only

theorem kept_storeSelf {s0 s : State} (addr : Nat) (bytes : List Byte) (mask : List Bool) (o : HoldOrigin) (credit : Option Nat) (hkept : Kept s0 s) :
    Kept s0 (State.storeSelf s addr bytes mask o credit).1 := by
  unfold State.storeSelf
  try dsimp only
  repeat' with_reducible first
    | assumption | apply kept_setEvt | apply kept_countWinRefusal | apply kept_cong | apply kept_homeWrite
    | refine Kept.fst (by assumption) ?_ | intro _ | (simp only [Kept.lit]; refine Kept.toF ?_) | dsimp only | split

theorem kept_sendNotify {s0 s : State} (n : Nat) (hkept : Kept s0 s) :
    Kept s0 (State.sendNotify s n) := by
  unfold State.sendNotify
  try dsimp only
  repeat' with_reducible first
    | assumption | apply kept_originEnd | apply kept_originate | apply kept_storeSelf
    | refine Kept.fst (by assumption) ?_ | intro _ | refine Kept.ite ?_ ?_ | refine Kept.ite1 ?_ ?_ | dsimp only
    | split

theorem kept_updateCounter {s0 s : State} (n : Nat) (f : Counter → Counter) (hkept : Kept s0 s) :
    Kept s0 (State.updateCounter s n f) := by
  unfold State.updateCounter
  try dsimp only
  repeat' with_reducible first
    | assumption | apply kept_setCounter | apply kept_sendNotify | intro _ | refine Kept.ite ?_ ?_
    | refine Kept.ite1 ?_ ?_ | (simp only [Kept.lit]; refine Kept.toF ?_) | dsimp only | split

theorem kept_creditCounter {s0 s : State} (n : Nat) (k : Nat) (hkept : Kept s0 s) :
    Kept s0 (State.creditCounter s n k) := by
  unfold State.creditCounter
  try dsimp only
  repeat' with_reducible first
    | assumption | apply kept_updateCounter | intro _ | (simp only [Kept.lit]; refine Kept.toF ?_) | dsimp only

theorem kept_creditLines {s0 s : State} (n : Nat) (d : Nat) (len : Nat) (hkept : Kept s0 s) :
    Kept s0 (State.creditLines s n d len) := by
  unfold State.creditLines
  try dsimp only
  repeat' with_reducible first
    | assumption | apply kept_creditCounter | refine Kept.foldl ?_ ?_ | refine Kept.foldl1 ?_ ?_ | intro _ | dsimp only

theorem kept_creditWrite {s0 s : State} (o : HoldOrigin) (slot : Nat) (d : Nat) (bytes : List Byte) (credit : Option Nat) (entry : Option Nat) (hkept : Kept s0 s) :
    Kept s0 (State.creditWrite s o slot d bytes credit entry) := by
  unfold State.creditWrite
  try dsimp only
  repeat' with_reducible first
    | assumption | apply kept_homeWrite | apply kept_creditLines | refine Kept.fst (by assumption) ?_ | intro _
    | refine Kept.ite ?_ ?_ | refine Kept.ite1 ?_ ?_ | (simp only [Kept.lit]; refine Kept.toF ?_) | dsimp only | split

theorem kept_storeOwn {s0 s : State} (tok : Nat) (b : DescBits) (type : Nat) (addr : Nat) (bytes : List Byte) (hkept : Kept s0 s) :
    Kept s0 (State.storeOwn s tok b type addr bytes).1 := by
  unfold State.storeOwn
  try dsimp only
  repeat' with_reducible first
    | assumption | apply kept_storeSelf | apply kept_creditLines | refine Kept.fst (by assumption) ?_ | intro _
    | refine Kept.ite ?_ ?_ | refine Kept.ite1 ?_ ?_ | (simp only [Kept.lit]; refine Kept.toF ?_) | dsimp only | split

theorem kept_setPlans {s0 s : State} (n : Nat) (p : SlicePlans) (hkept : Kept s0 s) :
    Kept s0 (State.setPlans s n p) := by
  unfold State.setPlans
  try dsimp only
  repeat' with_reducible first
    | assumption | intro _ | (simp only [Kept.lit]; refine Kept.toF ?_) | dsimp only

theorem kept_stats {s0 s : State} (n : Nat) (f : SliceStats → SliceStats) (hkept : Kept s0 s) :
    Kept s0 (State.stats s n f) := by
  unfold State.stats
  try dsimp only
  repeat' with_reducible first
    | assumption | intro _ | (simp only [Kept.lit]; refine Kept.toF ?_) | dsimp only

theorem kept_enterLost {s0 s : State} (hkept : Kept s0 s) :
    Kept s0 (State.enterLost s) := by
  unfold State.enterLost
  try dsimp only
  repeat' with_reducible first
    | assumption | apply kept_setEvt | apply kept_event | intro _ | (simp only [Kept.lit]; refine Kept.toF ?_)
    | dsimp only

theorem kept_enterHoldover {s0 s : State} (hkept : Kept s0 s) :
    Kept s0 (State.enterHoldover s) := by
  unfold State.enterHoldover
  try dsimp only
  repeat' with_reducible first
    | assumption | apply kept_setEvt | intro _ | (simp only [Kept.lit]; refine Kept.toF ?_) | dsimp only

theorem kept_enterLocking {s0 s : State} (hkept : Kept s0 s) :
    Kept s0 (State.enterLocking s) := by
  unfold State.enterLocking
  try dsimp only
  repeat' with_reducible first
    | assumption | intro _ | (simp only [Kept.lit]; refine Kept.toF ?_) | dsimp only

theorem kept_enterLocked {s0 s : State} (hkept : Kept s0 s) :
    Kept s0 (State.enterLocked s) := by
  unfold State.enterLocked
  try dsimp only
  repeat' with_reducible first
    | assumption | intro _ | (simp only [Kept.lit]; refine Kept.toF ?_) | dsimp only

theorem kept_dropPendingPlans {s0 s : State} (c : Nat) (period : Nat) (hkept : Kept s0 s) :
    Kept s0 (State.dropPendingPlans s c period) := by
  unfold State.dropPendingPlans
  try dsimp only
  repeat' with_reducible first
    | assumption | apply kept_setEvt | refine Kept.fst (by assumption) ?_ | intro _ | refine Kept.ite ?_ ?_
    | refine Kept.ite1 ?_ ?_ | (simp only [Kept.lit]; refine Kept.toF ?_) | dsimp only | split

theorem kept_endActivePlans {s0 s : State} (t : Nat) (period : Nat) (hkept : Kept s0 s) :
    Kept s0 (State.endActivePlans s t period) := by
  unfold State.endActivePlans
  try dsimp only
  repeat' with_reducible first
    | assumption | apply kept_setEvt | refine Kept.fst (by assumption) ?_ | intro _ | refine Kept.ite ?_ ?_
    | refine Kept.ite1 ?_ ?_ | (simp only [Kept.lit]; refine Kept.toF ?_) | dsimp only | split

theorem kept_takeIn {s0 s : State} (tok : Nat) (d : Desc) (t : Nat) (hkept : Kept s0 s) :
    Kept s0 (State.takeIn s tok d t) := by
  unfold State.takeIn
  try dsimp only
  repeat' with_reducible first
    | assumption | apply kept_setDesc | apply kept_stats | intro _ | refine Kept.ite ?_ ?_ | refine Kept.ite1 ?_ ?_
    | (simp only [Kept.lit]; refine Kept.toF ?_) | dsimp only | split

theorem kept_turnAway {s0 s : State} (tok : Nat) (status : Nat) (reason : Nat) (t : Nat) (hkept : Kept s0 s) :
    Kept s0 (State.turnAway s tok status reason t) := by
  unfold State.turnAway
  try dsimp only
  repeat' with_reducible first
    | assumption | apply kept_refuse | apply kept_stats | refine Kept.fst (by assumption) ?_ | intro _
    | (simp only [Kept.lit]; refine Kept.toF ?_) | dsimp only | split

theorem Kept.foldlR {α : Type} {s0 : State} {f : Round → α → Round} {l : List α} {r : Round}
    (hf : ∀ (r : Round) (a : α), Kept s0 r.s → Kept s0 (f r a).s) (h : Kept s0 r.s) : Kept s0 (l.foldl f r).s := by
  induction l generalizing r with
  | nil => exact h
  | cons a t ih => exact ih (hf _ _ h)

theorem Kept.foldlR1 {α β : Type} {s0 : State} {f : Round × β → α → Round × β} {l : List α} {r : Round × β}
    (hf : ∀ (r : Round × β) (a : α), Kept s0 r.1.s → Kept s0 (f r a).1.s) (h : Kept s0 r.1.s) : Kept s0 (l.foldl f r).1.s := by
  induction l generalizing r with
  | nil => exact h
  | cons a t ih => exact ih (hf _ _ h)

theorem Kept.fstR {α : Type} {s0 : State} {t : Round} {p : Round × α} {x : α} (e : p = (t, x)) (h : Kept s0 p.1.s) :
    Kept s0 t.s := by
  rw [e] at h; exact h

theorem kept_charge {s0 : State} {r : Round} (n : Nat) (d : Desc) (h : Kept s0 r.s) : Kept s0 (r.charge n d).s := h

theorem kept_guaranteed {s0 : State} {a : Round × Tab Cost} (e : Nat × Desc) (h : Kept s0 a.1.s) :
    Kept s0 (Round.guaranteed a e).1.s := by
  unfold Round.guaranteed
  try dsimp only
  repeat' with_reducible first
    | assumption | apply kept_setDesc | apply kept_takeIn | apply kept_turnAway | apply kept_charge
    | refine Kept.fst (by assumption) ?_ | intro _ | refine Kept.ite ?_ ?_ | refine Kept.ite1 ?_ ?_
    | (simp only [Kept.lit]; refine Kept.toF ?_) | dsimp only | split

theorem kept_firstPass {s0 : State} {r : Round} (c : List (Nat × Desc)) (h : Kept s0 r.s) : Kept s0 (r.firstPass c).s := by
  unfold Round.firstPass
  try dsimp only
  repeat' with_reducible first
    | assumption | apply kept_takeIn | apply kept_charge | refine Kept.foldl ?_ ?_ | refine Kept.foldl1 ?_ ?_
    | refine Kept.fst (by assumption) ?_ | refine Kept.foldlR ?_ ?_ | refine Kept.foldlR1 ?_ ?_
    | refine Kept.fstR (by assumption) ?_ | intro _ | refine Kept.ite ?_ ?_ | refine Kept.ite1 ?_ ?_
    | (simp only [Kept.lit]; refine Kept.toF ?_) | dsimp only | split

theorem kept_secondPass {s0 : State} {r : Round} (g : Bool) (c : List (Nat × Desc)) (h : Kept s0 r.s) :
    Kept s0 (r.secondPass g c).s := by
  unfold Round.secondPass
  try dsimp only
  repeat' with_reducible first
    | assumption | apply kept_takeIn | apply kept_charge | refine Kept.foldl ?_ ?_ | refine Kept.foldl1 ?_ ?_
    | refine Kept.fst (by assumption) ?_ | refine Kept.foldlR ?_ ?_ | refine Kept.foldlR1 ?_ ?_
    | refine Kept.fstR (by assumption) ?_ | intro _ | refine Kept.getD ?_ ?_ | refine Kept.ite ?_ ?_
    | refine Kept.ite1 ?_ ?_ | (simp only [Kept.lit]; refine Kept.toF ?_) | dsimp only | split

theorem kept_leave {s0 : State} {r : Round} (e : Nat × Desc) (h : Kept s0 r.s) : Kept s0 (r.leave e).s := by
  unfold Round.leave
  try dsimp only
  repeat' with_reducible first
    | assumption | apply kept_setDesc | apply kept_turnAway | refine Kept.fst (by assumption) ?_ | intro _
    | refine Kept.getD ?_ ?_ | refine Kept.ite ?_ ?_ | refine Kept.ite1 ?_ ?_
    | (simp only [Kept.lit]; refine Kept.toF ?_) | dsimp only | split

theorem kept_testWait {s0 s : State} (e : Nat × Desc) (hkept : Kept s0 s) :
    Kept s0 (State.testWait s e) := by
  unfold State.testWait
  try dsimp only
  repeat' with_reducible first
    | assumption | apply kept_setDesc | apply kept_finish | apply kept_refuse | refine Kept.foldl ?_ ?_
    | refine Kept.foldl1 ?_ ?_ | refine Kept.fst (by assumption) ?_ | intro _ | refine Kept.ite ?_ ?_
    | refine Kept.ite1 ?_ ?_ | (simp only [Kept.lit]; refine Kept.toF ?_) | dsimp only | split

theorem kept_testWaits {s0 s : State} (hkept : Kept s0 s) :
    Kept s0 (State.testWaits s) := by
  unfold State.testWaits
  try dsimp only
  repeat' with_reducible first
    | assumption | apply kept_testWait | refine Kept.foldl ?_ ?_ | refine Kept.foldl1 ?_ ?_ | intro _ | dsimp only

theorem kept_refuseUnplanned {s0 s : State} (t : Nat) (hkept : Kept s0 s) :
    Kept s0 (State.refuseUnplanned s t) := by
  unfold State.refuseUnplanned
  try dsimp only
  repeat' with_reducible first
    | assumption | apply kept_turnAway | refine Kept.foldl ?_ ?_ | refine Kept.foldl1 ?_ ?_ | intro _ | dsimp only

theorem kept_openRound {s0 s : State} (t : Nat) (h : Kept s0 s) : Kept s0 (s.openRound t).s := h

theorem kept_service {s0 : State} {a : Round × Tab Cost} (e : Nat × Cost) (h : Kept s0 a.1.s) :
    Kept s0 (Round.service a e).1.s := h

theorem kept_runRound {s0 s : State} (t : Nat) (pre : List (Nat × Cost)) (maint : Cost) (h : Kept s0 s) :
    Kept s0 (s.runRound t pre maint) := by
  have h1 : ∀ r : Round × Tab Cost, Kept s0 r.1.s → Kept s0 (pre.foldl Round.service r).1.s :=
    fun r hr => Kept.foldlR1 (fun a e ha => kept_service e ha) hr
  have hg : ∀ (l : List (Nat × Desc)) (r : Round × Tab Cost), Kept s0 r.1.s → Kept s0 (l.foldl Round.guaranteed r).1.s :=
    fun l r hr => Kept.foldlR1 (fun a e ha => kept_guaranteed e ha) hr
  unfold State.runRound
  dsimp only
  simp only [Kept.lit]
  refine Kept.toF ?_
  refine Kept.foldlR (fun r e hr => kept_leave e hr) ?_
  have key : ∀ (r : Round) (el sc : List (Nat × Desc)), Kept s0 r.s →
      Kept s0 (if r.lull then r else r.secondPass false sc).s := by
    intro r el sc hr
    split
    · exact hr
    · exact kept_secondPass _ _ hr
  refine key _ (s.candidates t ELASTIC) _ ?_
  refine kept_secondPass _ _ (kept_firstPass _ ?_)
  split
  · refine kept_secondPass _ _ (kept_firstPass _ ?_)
    exact hg _ _ (h1 _ h)
  · exact hg _ _ (h1 _ h)

theorem kept_idleRound {s0 s : State} (t : Nat) (hkept : Kept s0 s) :
    Kept s0 (State.idleRound s t) := by
  unfold State.idleRound
  try dsimp only
  repeat' with_reducible first
    | assumption | apply kept_setDesc | refine Kept.foldl ?_ ?_ | refine Kept.foldl1 ?_ ?_ | intro _
    | (simp only [Kept.lit]; refine Kept.toF ?_) | dsimp only

theorem kept_refuseUnsynced {s0 s : State} (t : Nat) (hkept : Kept s0 s) :
    Kept s0 (State.refuseUnsynced s t) := by
  unfold State.refuseUnsynced
  try dsimp only
  repeat' with_reducible first
    | assumption | apply kept_turnAway | refine Kept.foldl ?_ ?_ | refine Kept.foldl1 ?_ ?_ | intro _ | dsimp only

theorem kept_openRecall {s0 s : State} (line : Nat) (snp : Snp) (hosts : Nat) (evict : Bool) (hkept : Kept s0 s) :
    Kept s0 (State.openRecall s line snp hosts evict) := by
  unfold State.openRecall
  try dsimp only
  repeat' with_reducible first
    | assumption | apply kept_emit | refine Kept.foldl ?_ ?_ | refine Kept.foldl1 ?_ ?_ | intro _
    | (simp only [Kept.lit]; refine Kept.toF ?_) | dsimp only

theorem kept_park {s0 s : State} (w : Waiter) (hold : Bool) (hkept : Kept s0 s) :
    Kept s0 (State.park s w hold) := by
  unfold State.park
  try dsimp only
  repeat' with_reducible first
    | assumption | intro _ | refine Kept.ite ?_ ?_ | refine Kept.ite1 ?_ ?_
    | (simp only [Kept.lit]; refine Kept.toF ?_) | dsimp only | split

theorem kept_askLine {s0 s : State} (w : Waiter) (line : Nat) (write : Bool) (hkept : Kept s0 s) :
    Kept s0 (State.askLine s w line write).1 := by
  unfold State.askLine
  try dsimp only
  repeat' with_reducible first
    | assumption | apply kept_startGather | apply kept_openRecall | refine Kept.fst (by assumption) ?_ | intro _
    | refine Kept.ite ?_ ?_ | refine Kept.ite1 ?_ ?_ | (simp only [Kept.lit]; refine Kept.toF ?_) | dsimp only | split

theorem kept_askAll {s0 s : State} (w : Waiter) (ranges : List (Nat × Nat × Bool)) (hkept : Kept s0 s) :
    Kept s0 (State.askAll s w ranges).1 := by
  unfold State.askAll
  try dsimp only
  repeat' with_reducible first
    | assumption | apply kept_askLine | refine Kept.foldl ?_ ?_ | refine Kept.foldl1 ?_ ?_
    | refine Kept.fst (by assumption) ?_ | intro _ | dsimp only | split

theorem kept_leaveLines {s0 s : State} (ranges : List (Nat × Nat × Bool)) (hkept : Kept s0 s) :
    Kept s0 (State.leaveLines s ranges) := by
  unfold State.leaveLines
  try dsimp only
  repeat' with_reducible first
    | assumption | intro _ | (simp only [Kept.lit]; refine Kept.toF ?_) | dsimp only

theorem kept_engineReady {s0 s : State} (tok : Nat) (ranges : List (Nat × Nat × Bool)) (hkept : Kept s0 s) :
    Kept s0 (State.engineReady s tok ranges).1 := by
  unfold State.engineReady
  try dsimp only
  repeat' with_reducible first
    | assumption | apply kept_park | apply kept_askLine | apply kept_leaveLines | refine Kept.foldl ?_ ?_
    | refine Kept.foldl1 ?_ ?_ | refine Kept.fst (by assumption) ?_ | intro _ | refine Kept.ite ?_ ?_
    | refine Kept.ite1 ?_ ?_ | (simp only [Kept.lit]; refine Kept.toF ?_) | dsimp only | split

theorem kept_makeRoom {s0 s : State} (line : Nat) (hkept : Kept s0 s) :
    Kept s0 (State.makeRoom s line).1 := by
  unfold State.makeRoom
  try dsimp only
  repeat' with_reducible first
    | assumption | apply kept_setEvt | apply kept_openRecall | refine Kept.fst (by assumption) ?_ | intro _
    | refine Kept.ite ?_ ?_ | refine Kept.ite1 ?_ ?_ | (simp only [Kept.lit]; refine Kept.toF ?_) | dsimp only | split

theorem kept_grant {s0 s : State} (line : Nat) (k : DirKind) (hkept : Kept s0 s) :
    Kept s0 (State.grant s line k) := by
  unfold State.grant
  try dsimp only
  repeat' with_reducible first
    | assumption | intro _ | (simp only [Kept.lit]; refine Kept.toF ?_) | dsimp only

theorem kept_clearEntry {s0 s : State} (line : Nat) (hkept : Kept s0 s) :
    Kept s0 (State.clearEntry s line) := by
  unfold State.clearEntry
  try dsimp only
  repeat' with_reducible first
    | assumption | intro _ | (simp only [Kept.lit]; refine Kept.toF ?_) | dsimp only

theorem kept_hostData {s0 s : State} (port : Nat) (line : Nat) (slot : Nat) (granted : Nat) (hkept : Kept s0 s) :
    Kept s0 (State.hostData s port line slot granted) := by
  unfold State.hostData
  try dsimp only
  repeat' with_reducible first
    | assumption | apply kept_emit | apply kept_touch | refine Kept.fst (by assumption) ?_ | intro _ | dsimp only
    | split

theorem kept_hostPoison {s0 s : State} (port : Nat) (line : Nat) (hkept : Kept s0 s) :
    Kept s0 (State.hostPoison s port line) := by
  unfold State.hostPoison
  try dsimp only
  repeat' with_reducible first
    | assumption | apply kept_emit | intro _ | dsimp only

theorem kept_hostCmp {s0 s : State} (port : Nat) (line : Nat) (hkept : Kept s0 s) :
    Kept s0 (State.hostCmp s port line) := by
  unfold State.hostCmp
  try dsimp only
  repeat' with_reducible first
    | assumption | apply kept_emit | intro _ | dsimp only

theorem kept_hostStore {s0 s : State} (port : Nat) (line : Nat) (slot : Nat) (data : List Byte) (mask : Nat) (hkept : Kept s0 s) :
    Kept s0 (State.hostStore s port line slot data mask) := by
  unfold State.hostStore
  try dsimp only
  repeat' with_reducible first
    | assumption | apply kept_homeWrite | intro _ | refine Kept.ite ?_ ?_ | refine Kept.ite1 ?_ ?_ | dsimp only | split

theorem kept_hostStoreCmp {s0 s : State} (port : Nat) (line : Nat) (slot : Nat) (data : List Byte) (mask : Nat) (hkept : Kept s0 s) :
    Kept s0 (State.hostStoreCmp s port line slot data mask) := by
  unfold State.hostStoreCmp
  try dsimp only
  repeat' with_reducible first
    | assumption | apply kept_hostCmp | apply kept_hostStore | intro _ | refine Kept.ite ?_ ?_ | refine Kept.ite1 ?_ ?_
    | dsimp only | split

theorem kept_hostApply {s0 s : State} (h : Nat) (line : Nat) (slot : Nat) (req : HostReq) (hkept : Kept s0 s) :
    Kept s0 (State.hostApply s h line slot req) := by
  unfold State.hostApply
  try dsimp only
  repeat' with_reducible first
    | assumption | apply kept_grant | apply kept_clearEntry | apply kept_hostData | apply kept_hostCmp
    | apply kept_hostStoreCmp | refine Kept.fst (by assumption) ?_ | intro _ | refine Kept.ite ?_ ?_
    | refine Kept.ite1 ?_ ?_ | (simp only [Kept.lit]; refine Kept.toF ?_) | dsimp only | split

theorem kept_hostServe {s0 s : State} (w : Waiter) (h : Nat) (line : Nat) (slot : Nat) (req : HostReq) (hkept : Kept s0 s) :
    Kept s0 (State.hostServe s w h line slot req).1 := by
  unfold State.hostServe
  try dsimp only
  repeat' with_reducible first
    | assumption | apply kept_setEvt | apply kept_startGather | apply kept_openRecall | apply kept_makeRoom
    | apply kept_hostData | apply kept_hostPoison | apply kept_hostCmp | apply kept_hostStoreCmp | apply kept_hostApply
    | refine Kept.fst (by assumption) ?_ | intro _ | refine Kept.ite ?_ ?_ | refine Kept.ite1 ?_ ?_
    | (simp only [Kept.lit]; refine Kept.toF ?_) | dsimp only | split

end Sys2Proof.Machine
end

