-- ==== Sys2Proof/Laws/KeptTick.lean ====
section
/-! SUPPORT. What translation, the tick, rings, ports, inbound requests and the engine keep: the canonical form of the memory, the queue, and the bound
of the fault records. -/

namespace Sys2Proof.Machine

set_option Elab.async false

theorem kept_tlbInstall {s0 s : State} (die : Nat) (x : Xlat) (hkept : Kept s0 s) :
    Kept s0 (State.tlbInstall s die x) := by
  unfold State.tlbInstall
  try dsimp only
  repeat' with_reducible first
    | assumption | intro _ | (simp only [Kept.lit]; refine Kept.toF ?_) | dsimp only

theorem kept_holdXlat {s0 s : State} (tok : Nat) (x : Xlat) (hkept : Kept s0 s) :
    Kept s0 (State.holdXlat s tok x) := by
  unfold State.holdXlat
  try dsimp only
  repeat' with_reducible first
    | assumption | intro _ | refine Kept.ite ?_ ?_ | refine Kept.ite1 ?_ ?_
    | (simp only [Kept.lit]; refine Kept.toF ?_) | dsimp only | split

theorem kept_tlbDrop {s0 s : State} (p : Xlat → Bool) (q : Nat → Nat → Bool) (hkept : Kept s0 s) :
    Kept s0 (State.tlbDrop s p q) := by
  unfold State.tlbDrop
  try dsimp only
  repeat' with_reducible first
    | assumption | refine Kept.foldl ?_ ?_ | refine Kept.foldl1 ?_ ?_ | intro _ | refine Kept.ite ?_ ?_
    | refine Kept.ite1 ?_ ?_ | (simp only [Kept.lit]; refine Kept.toF ?_) | dsimp only | split

theorem kept_postXlt {s0 s : State} (a : AssistReq) (hkept : Kept s0 s) :
    KeptP s0 (State.postXlt s a) := by
  unfold State.postXlt
  try dsimp only
  repeat' with_reducible first
    | assumption | apply kept_postAssist | intro _ | refine KeptP.some ?_ | exact KeptP.none _ | refine Kept.ite ?_ ?_
    | refine Kept.ite1 ?_ ?_ | (simp only [Kept.lit]; refine Kept.toF ?_) | dsimp only | split

theorem kept_askMigration {s0 s : State} (key : Nat) (c : Nat) (va : Nat) (access : Nat) (leaf : Nat) (hkept : Kept s0 s) :
    Kept s0 (State.askMigration s key c va access leaf).1 := by
  unfold State.askMigration
  try dsimp only
  repeat' with_reducible first
    | assumption | apply kept_postXlt | refine Kept.fst (by assumption) ?_ | refine Kept.some (by assumption) ?_
    | intro _ | refine KeptP.some ?_ | exact KeptP.none _ | refine Kept.ite ?_ ?_ | refine Kept.ite1 ?_ ?_
    | (simp only [Kept.lit]; refine Kept.toF ?_) | dsimp only | split

theorem kept_useXlat {s0 s : State} (tok : Nat) (key : Nat) (c : Nat) (va : Nat) (access : Nat) (x : Xlat) (hkept : Kept s0 s) :
    Kept s0 (State.useXlat s tok key c va access x).1 := by
  unfold State.useXlat
  try dsimp only
  repeat' with_reducible first
    | assumption | apply kept_holdXlat | apply kept_askMigration | refine Kept.fst (by assumption) ?_ | intro _
    | refine Kept.ite ?_ ?_ | refine Kept.ite1 ?_ ?_ | (simp only [Kept.lit]; refine Kept.toF ?_) | dsimp only | split

theorem kept_miss {s0 s : State} (tok : Nat) (key : Nat) (c : Nat) (va : Nat) (access : Nat) (hkept : Kept s0 s) :
    Kept s0 (State.miss s tok key c va access).1 := by
  unfold State.miss
  try dsimp only
  repeat' with_reducible first
    | assumption | apply kept_tlbInstall | apply kept_postXlt | apply kept_askMigration | apply kept_useXlat
    | refine Kept.fst (by assumption) ?_ | refine Kept.some (by assumption) ?_ | intro _ | refine KeptP.some ?_
    | exact KeptP.none _ | refine Kept.ite ?_ ?_ | refine Kept.ite1 ?_ ?_ | (simp only [Kept.lit]; refine Kept.toF ?_)
    | dsimp only | split

theorem kept_translateNow {s0 s : State} (tok : Nat) (d : Desc) (va : Nat) (access : Nat) (hkept : Kept s0 s) :
    Kept s0 (State.translateNow s tok d va access).1 := by
  unfold State.translateNow
  try dsimp only
  repeat' with_reducible first
    | assumption | apply kept_useXlat | apply kept_miss | refine Kept.fst (by assumption) ?_ | intro _
    | refine Kept.ite ?_ ?_ | refine Kept.ite1 ?_ ?_ | (simp only [Kept.lit]; refine Kept.toF ?_) | dsimp only | split

theorem kept_noteWait {s0 s : State} (tok : Nat) (c : Nat) (va : Nat) (waits : Bool) (hkept : Kept s0 s) :
    Kept s0 (State.noteWait s tok c va waits) := by
  unfold State.noteWait
  try dsimp only
  repeat' with_reducible first
    | assumption | intro _ | refine Kept.ite ?_ ?_ | refine Kept.ite1 ?_ ?_
    | (simp only [Kept.lit]; refine Kept.toF ?_) | dsimp only | split

theorem kept_translate1 {s0 s : State} (tok : Nat) (d : Desc) (va : Nat) (access : Nat) (hkept : Kept s0 s) :
    Kept s0 (State.translate1 s tok d va access).1 := by
  unfold State.translate1
  try dsimp only
  repeat' with_reducible first
    | assumption | apply kept_translateNow | apply kept_noteWait | refine Kept.fst (by assumption) ?_ | intro _
    | refine Kept.ite ?_ ?_ | refine Kept.ite1 ?_ ?_ | (simp only [Kept.lit]; refine Kept.toF ?_) | dsimp only | split

theorem kept_failWaits {s0 s : State} (c : Nat) (va : Nat) (len : Nat) (reason : Nat) (hkept : Kept s0 s) :
    Kept s0 (State.failWaits s c va len reason) := by
  unfold State.failWaits
  try dsimp only
  repeat' with_reducible first
    | assumption | intro _ | (simp only [Kept.lit]; refine Kept.toF ?_) | dsimp only

theorem Kept.acqDefs : True := trivial

def KeptA (s0 : State) : Acquired → Prop
  | .ready s _ => Kept s0 s
  | .wait s => Kept s0 s
  | .stop s _ => Kept s0 s

theorem KeptA.ready {s0 s : State} {x : List (List Seg)} (h : Kept s0 s) : KeptA s0 (.ready s x) := h
theorem KeptA.wait {s0 s : State} (h : Kept s0 s) : KeptA s0 (.wait s) := h
theorem KeptA.stop {s0 s : State} {c : Cpl} (h : Kept s0 s) : KeptA s0 (.stop s c) := h
theorem Kept.ofReady {s0 t : State} {r : Acquired} {x : List (List Seg)} (e : r = .ready t x) (h : KeptA s0 r) : Kept s0 t := by
  rw [e] at h; exact h
theorem Kept.ofWait {s0 t : State} {r : Acquired} (e : r = .wait t) (h : KeptA s0 r) : Kept s0 t := by
  rw [e] at h; exact h
theorem Kept.ofStop {s0 t : State} {r : Acquired} {c : Cpl} (e : r = .stop t c) (h : KeptA s0 r) : Kept s0 t := by
  rw [e] at h; exact h

theorem kept_translateRange {s0 s : State} (tok : Nat) (d : Desc) (access n va len : Nat) (acc : List Seg) (h : Kept s0 s) :
    Kept s0 (State.translateRange tok d access n va len acc s).1 := by
  induction n generalizing va len acc s with
  | zero => unfold State.translateRange; split <;> exact h
  | succ n ih =>
    have h1 := kept_translate1 tok d va access h
    unfold State.translateRange
    split
    · exact h
    · split <;> rename_i e <;> rw [e] at h1
      · exact h1
      · exact h1
      · exact ih _ _ _ h1

theorem kept_xlateRange {s0 s : State} (tok : Nat) (d : Desc) (va : Nat) (len : Nat) (access : Nat) (hkept : Kept s0 s) :
    Kept s0 (State.xlateRange s tok d va len access).1 := by
  unfold State.xlateRange
  try dsimp only
  repeat' with_reducible first
    | assumption | apply kept_translateRange | intro _ | dsimp only

theorem kept_xlFault {s0 s : State} (c : Nat) (reason : Nat) (va : Nat) (hkept : Kept s0 s) :
    Kept s0 (State.xlFault s c reason va).1 := by
  unfold State.xlFault
  try dsimp only
  repeat' with_reducible first
    | assumption | intro _ | (simp only [Kept.lit]; refine Kept.toF ?_) | dsimp only

theorem kept_xlateNeeds {s0 s : State} (tok : Nat) (d : Desc) (l : List Need) (acc : List (List Seg)) (h : Kept s0 s) :
    KeptA s0 (State.xlateNeeds s tok d l acc) := by
  induction l generalizing s acc with
  | nil => exact h
  | cons n t ih =>
    unfold State.xlateNeeds
    split
    · exact ih _ h
    · have h1 := kept_xlateRange tok d n.va n.len n.access h
      split <;> rename_i e <;> rw [e] at h1
      · exact ih _ h1
      · exact h1
      · exact kept_xlFault _ _ _ h1

theorem kept_acquire {s0 s : State} (tok : Nat) (d : Desc) (needs : List Need) (hkept : Kept s0 s) :
    KeptA s0 (State.acquire s tok d needs) := by
  unfold State.acquire
  try dsimp only
  repeat' with_reducible first
    | assumption | apply kept_engineReady | apply kept_xlateNeeds | refine Kept.fst (by assumption) ?_
    | refine Kept.ofReady (by assumption) ?_ | refine Kept.ofWait (by assumption) ?_
    | refine Kept.ofStop (by assumption) ?_ | refine KeptA.ready ?_ | refine KeptA.wait ?_ | refine KeptA.stop ?_
    | intro _ | refine Kept.ite ?_ ?_ | refine Kept.ite1 ?_ ?_ | (simp only [Kept.lit]; refine Kept.toF ?_)
    | dsimp only | split

theorem kept_runMem {s0 s : State} (tok : Nat) (op : Nat) (check : Desc → State → Option Cpl) (needs : Desc → State → List Need) (k : Desc → List (List Seg) → State → State × Option Cpl) (hcb_k : ∀ x0 x1 x2, Kept s0 x2 → Kept s0 (k x0 x1 x2).1) (hkept : Kept s0 s) :
    Kept s0 (State.runMem s tok op check needs k) := by
  unfold State.runMem
  try dsimp only
  repeat' with_reducible first
    | assumption | apply kept_runDesc | apply kept_acquire | apply hcb_k | refine Kept.fst (by assumption) ?_
    | refine Kept.ofReady (by assumption) ?_ | refine Kept.ofWait (by assumption) ?_
    | refine Kept.ofStop (by assumption) ?_ | intro _ | refine Kept.ite ?_ ?_ | refine Kept.ite1 ?_ ?_
    | (simp only [Kept.lit]; refine Kept.toF ?_) | dsimp only | split

theorem kept_staleAccess {s0 s : State} (hkept : Kept s0 s) :
    Kept s0 (State.staleAccess s) := by
  unfold State.staleAccess
  try dsimp only
  repeat' with_reducible first
    | assumption | apply kept_setEvt | intro _ | (simp only [Kept.lit]; refine Kept.toF ?_) | dsimp only

theorem kept_readSegs {s0 s : State} (d : Desc) (l : List Seg) (ext : List Byte) (h : Kept s0 s) :
    Kept s0 (State.readSegs d l ext s).1 := by
  induction l generalizing s ext with
  | nil => exact h
  | cons p t ih =>
    unfold State.readSegs
    dsimp only
    split
    · exact ih _ h
    · split
      · exact ih _ (kept_staleAccess h)
      · exact ih _ (kept_touch _ _ _ _ h)

theorem kept_notePosted {s0 s : State} (src : Src) (port : Nat) (hkept : Kept s0 s) :
    Kept s0 (State.notePosted s src port) := by
  unfold State.notePosted
  try dsimp only
  repeat' with_reducible first
    | assumption | intro _ | (simp only [Kept.lit]; refine Kept.toF ?_) | dsimp only

theorem kept_writeSegs {s0 s : State} (tok : Nat) (d : Desc) (credit : Option Nat) (l : List Seg) (b : List Byte) (h : Kept s0 s) :
    Kept s0 (State.writeSegs tok d credit l b s) := by
  induction l generalizing s b with
  | nil => exact h
  | cons p t ih =>
    unfold State.writeSegs
    dsimp only
    refine ih _ ?_
    split
    · exact kept_notePosted _ _ (kept_emit _ h)
    · split
      · exact kept_staleAccess h
      · exact kept_creditWrite _ _ _ _ _ _ h

theorem kept_effTikCtrl {s0 s : State} (v : Word) (hkept : Kept s0 s) :
    Kept s0 (effTikCtrl v s).1 := by
  unfold effTikCtrl
  try dsimp only
  repeat' with_reducible first
    | assumption | apply kept_setWord | apply kept_enterLocking | intro _ | refine Kept.ite ?_ ?_
    | refine Kept.ite1 ?_ ?_ | (simp only [Kept.lit]; refine Kept.toF ?_) | dsimp only | split

theorem kept_execTickRunStart {s0 s : State} (path : Nat) (value : Word) (cycle : Nat) (hkept : Kept s0 s) :
    KeptO s0 (execTickRunStart path value cycle s) := by
  unfold execTickRunStart
  try dsimp only
  repeat' with_reducible first
    | assumption | apply kept_guardPair | apply kept_effTikCtrl | intro _ | refine KeptO.next ?_ | dsimp only

theorem kept_execTickRunStop {s0 s : State} (path : Nat) (value : Word) (cycle : Nat) (hkept : Kept s0 s) :
    KeptO s0 (execTickRunStop path value cycle s) := by
  unfold execTickRunStop
  try dsimp only
  repeat' with_reducible first
    | assumption | apply kept_guardPair | apply kept_effTikCtrl | intro _ | refine KeptO.next ?_ | dsimp only

theorem kept_execTickSrcChange {s0 s : State} (path : Nat) (value : Word) (cycle : Nat) (hkept : Kept s0 s) :
    KeptO s0 (execTickSrcChange path value cycle s) := by
  unfold execTickSrcChange
  try dsimp only
  repeat' with_reducible first
    | assumption | apply kept_guardPair | apply kept_effTikCtrl | intro _ | refine KeptO.next ?_ | dsimp only

theorem kept_effTikPeriod {s0 s : State} (v : Word) (hkept : Kept s0 s) :
    Kept s0 (effTikPeriod v s).1 := by
  unfold effTikPeriod
  try dsimp only
  repeat' with_reducible first
    | assumption | apply kept_dropPendingPlans | intro _ | refine Kept.ite ?_ ?_ | refine Kept.ite1 ?_ ?_
    | (simp only [Kept.lit]; refine Kept.toF ?_) | dsimp only | split

theorem kept_execTikPeriodWrite {s0 s : State} (path : Nat) (value : Word) (cycle : Nat) (hkept : Kept s0 s) :
    KeptO s0 (execTikPeriodWrite path value cycle s) := by
  unfold execTikPeriodWrite
  try dsimp only
  repeat' with_reducible first
    | assumption | apply kept_guardPair | apply kept_effTikPeriod | intro _ | refine KeptO.next ?_ | dsimp only

theorem kept_effTikLull {s0 s : State} (v : Word) (hkept : Kept s0 s) :
    Kept s0 (effTikLull v s).1 := by
  unfold effTikLull
  try dsimp only
  repeat' with_reducible first
    | assumption | intro _ | refine Kept.ite ?_ ?_ | refine Kept.ite1 ?_ ?_
    | (simp only [Kept.lit]; refine Kept.toF ?_) | dsimp only | split

theorem kept_execTikLullWrite {s0 s : State} (path : Nat) (value : Word) (cycle : Nat) (hkept : Kept s0 s) :
    KeptO s0 (execTikLullWrite path value cycle s) := by
  unfold execTikLullWrite
  try dsimp only
  repeat' with_reducible first
    | assumption | apply kept_guardPair | apply kept_effTikLull | intro _ | refine KeptO.next ?_ | dsimp only

theorem kept_effTikLead {s0 s : State} (v : Word) (hkept : Kept s0 s) :
    Kept s0 (effTikLead v s).1 := by
  unfold effTikLead
  try dsimp only
  repeat' with_reducible first
    | assumption | apply kept_setWord | intro _ | refine Kept.ite ?_ ?_ | refine Kept.ite1 ?_ ?_ | dsimp only | split

theorem kept_execTikLeadWrite {s0 s : State} (path : Nat) (value : Word) (cycle : Nat) (hkept : Kept s0 s) :
    KeptO s0 (execTikLeadWrite path value cycle s) := by
  unfold execTikLeadWrite
  try dsimp only
  repeat' with_reducible first
    | assumption | apply kept_plainWrite | apply kept_guardPair | apply kept_effTikPeriod | apply kept_effTikLead
    | intro _ | refine KeptO.next ?_ | refine Kept.ite ?_ ?_ | refine Kept.ite1 ?_ ?_ | dsimp only | split

theorem kept_setTickNow {s0 s : State} (v : Nat) (hkept : Kept s0 s) :
    Kept s0 (setTickNow v s).1 := by
  unfold setTickNow
  try dsimp only
  repeat' with_reducible first
    | assumption | intro _ | refine Kept.ite ?_ ?_ | refine Kept.ite1 ?_ ?_
    | (simp only [Kept.lit]; refine Kept.toF ?_) | dsimp only | split

theorem kept_execPtpMessage {s0 s : State} (offsetNs : Int) (hkept : Kept s0 s) :
    KeptO s0 (execPtpMessage offsetNs s) := by
  unfold execPtpMessage
  try dsimp only
  repeat' with_reducible first
    | assumption | apply kept_enterHoldover | apply kept_enterLocking | intro _ | refine KeptO.next ?_
    | refine Kept.ite ?_ ?_ | refine Kept.ite1 ?_ ?_ | (simp only [Kept.lit]; refine Kept.toF ?_) | dsimp only | split

theorem kept_execPtpMessageLoss {s0 s : State} (hkept : Kept s0 s) :
    KeptO s0 (execPtpMessageLoss s) := by
  unfold execPtpMessageLoss
  try dsimp only
  repeat' with_reducible first
    | assumption | apply kept_enterHoldover | intro _ | refine KeptO.next ?_ | refine Kept.ite ?_ ?_
    | refine Kept.ite1 ?_ ?_ | (simp only [Kept.lit]; refine Kept.toF ?_) | dsimp only | split

theorem kept_execHoldoverLimit {s0 s : State} (elapsedNs : Nat) (hkept : Kept s0 s) :
    KeptO s0 (execHoldoverLimit elapsedNs s) := by
  unfold execHoldoverLimit
  try dsimp only
  repeat' with_reducible first
    | assumption | apply kept_enterLost | intro _ | refine KeptO.next ?_ | refine Kept.ite ?_ ?_
    | refine Kept.ite1 ?_ ?_ | dsimp only | split

theorem kept_setEpoch {s0 s : State} (dev : Nat) (e : EpochState) (hkept : Kept s0 s) :
    Kept s0 (State.setEpoch s dev e) := by
  unfold State.setEpoch
  try dsimp only
  repeat' with_reducible first
    | assumption | intro _ | (simp only [Kept.lit]; refine Kept.toF ?_) | dsimp only

theorem kept_advanceEpoch {s0 s : State} (dev : Nat) (e : Nat) (hkept : Kept s0 s) :
    Kept s0 (State.advanceEpoch s dev e) := by
  unfold State.advanceEpoch
  try dsimp only
  repeat' with_reducible first
    | assumption | apply kept_setEvt | apply kept_setEpoch | intro _ | (simp only [Kept.lit]; refine Kept.toF ?_)
    | dsimp only

theorem kept_announceEpoch {s0 s : State} (a : Nat × Nat × Nat) (hkept : Kept s0 s) :
    Kept s0 (State.announceEpoch s a) := by
  unfold State.announceEpoch
  try dsimp only
  repeat' with_reducible first
    | assumption | apply kept_setEpoch | apply kept_advanceEpoch | refine Kept.fst (by assumption) ?_ | intro _
    | refine Kept.ite ?_ ?_ | refine Kept.ite1 ?_ ?_ | (simp only [Kept.lit]; refine Kept.toF ?_) | dsimp only | split

theorem kept_floodTick {s0 s : State} (p : Packet) (hkept : Kept s0 s) :
    Kept s0 (State.floodTick s p) := by
  unfold State.floodTick
  try dsimp only
  repeat' with_reducible first
    | assumption | apply kept_emit | refine Kept.foldl ?_ ?_ | refine Kept.foldl1 ?_ ?_ | intro _
    | refine Kept.ite ?_ ?_ | refine Kept.ite1 ?_ ?_ | dsimp only | split

theorem kept_takeTickPacket {s0 s : State} (p : Packet) (hkept : Kept s0 s) :
    Kept s0 (State.takeTickPacket s p) := by
  unfold State.takeTickPacket
  try dsimp only
  repeat' with_reducible first
    | assumption | apply kept_enterLost | apply kept_enterLocking | apply kept_dropPendingPlans
    | refine Kept.fst (by assumption) ?_ | intro _ | refine Kept.ite ?_ ?_ | refine Kept.ite1 ?_ ?_
    | (simp only [Kept.lit]; refine Kept.toF ?_) | dsimp only | split

theorem kept_recvTick {s0 s : State} (port : Nat) (p : Packet) (hkept : Kept s0 s) :
    Kept s0 (State.recvTick s port p) := by
  unfold State.recvTick
  try dsimp only
  repeat' with_reducible first
    | assumption | apply kept_announceEpoch | apply kept_floodTick | apply kept_takeTickPacket
    | refine Kept.foldl ?_ ?_ | refine Kept.foldl1 ?_ ?_ | intro _ | refine Kept.ite ?_ ?_ | refine Kept.ite1 ?_ ?_
    | (simp only [Kept.lit]; refine Kept.toF ?_) | dsimp only | split

theorem kept_execTick {s0 s : State} (port : Nat) (pkt : Packet) (hkept : Kept s0 s) :
    KeptO s0 (execTick port pkt s) := by
  unfold execTick
  try dsimp only
  repeat' with_reducible first
    | assumption | apply kept_recvTick | intro _ | refine KeptO.next ?_ | refine Kept.ite ?_ ?_
    | refine Kept.ite1 ?_ ?_ | dsimp only | split

theorem kept_ringStopCheck {s0 s : State} (n : Nat) (hkept : Kept s0 s) :
    Kept s0 (State.ringStopCheck s n) := by
  unfold State.ringStopCheck
  try dsimp only
  repeat' with_reducible first
    | assumption | apply kept_setEvt | apply kept_setRing | intro _ | refine Kept.ite ?_ ?_ | refine Kept.ite1 ?_ ?_
    | (simp only [Kept.lit]; refine Kept.toF ?_) | dsimp only | split

theorem kept_subqStopCheck {s0 s : State} (n : Nat) (hkept : Kept s0 s) :
    Kept s0 (State.subqStopCheck s n) := by
  unfold State.subqStopCheck
  try dsimp only
  repeat' with_reducible first
    | assumption | apply kept_setEvt | apply kept_setSubq | intro _ | refine Kept.ite ?_ ?_ | refine Kept.ite1 ?_ ?_
    | (simp only [Kept.lit]; refine Kept.toF ?_) | dsimp only | split

theorem kept_ringCtrl {s0 s : State} (confOk : Bool) (v : Word) (hkept : Kept s0 s) :
    Kept s0 (State.ringCtrl s confOk v).1 := by
  unfold State.ringCtrl
  try dsimp only
  repeat' with_reducible first
    | assumption | apply kept_setWord | apply kept_setEvt | apply kept_setRing | apply kept_ringStopCheck | intro _
    | refine Kept.ite ?_ ?_ | refine Kept.ite1 ?_ ?_ | (simp only [Kept.lit]; refine Kept.toF ?_) | dsimp only | split

theorem kept_effSubqCtrl {s0 s : State} (v : Word) (hkept : Kept s0 s) :
    Kept s0 (effSubqCtrl v s).1 := by
  unfold effSubqCtrl
  try dsimp only
  repeat' with_reducible first
    | assumption | apply kept_setEvt | apply kept_setSubq | apply kept_subqStopCheck | intro _ | refine Kept.ite ?_ ?_
    | refine Kept.ite1 ?_ ?_ | (simp only [Kept.lit]; refine Kept.toF ?_) | dsimp only | split

theorem kept_execSubqEnable {s0 s : State} (path : Nat) (value : Word) (cycle : Nat) (hkept : Kept s0 s) :
    KeptO s0 (execSubqEnable path value cycle s) := by
  unfold execSubqEnable
  try dsimp only
  repeat' with_reducible first
    | assumption | apply kept_guardPair | apply kept_effSubqCtrl | intro _ | refine KeptO.next ?_ | dsimp only

theorem kept_execSubqDisable {s0 s : State} (path : Nat) (value : Word) (cycle : Nat) (hkept : Kept s0 s) :
    KeptO s0 (execSubqDisable path value cycle s) := by
  unfold execSubqDisable
  try dsimp only
  repeat' with_reducible first
    | assumption | apply kept_guardPair | apply kept_effSubqCtrl | intro _ | refine KeptO.next ?_ | dsimp only

theorem kept_ignoreDoorbell {s0 s : State} (port : Nat) (addr : Nat) (value : Nat) (hkept : Kept s0 s) :
    Kept s0 (State.ignoreDoorbell s port addr value) := by
  unfold State.ignoreDoorbell
  try dsimp only
  repeat' with_reducible first
    | assumption | apply kept_logReject | intro _ | dsimp only

theorem kept_execSqTailDoorbell {s0 s : State} (port : Nat) (pair : Nat) (value : Nat) (hkept : Kept s0 s) :
    KeptO s0 (execSqTailDoorbell port pair value s) := by
  unfold execSqTailDoorbell
  try dsimp only
  repeat' with_reducible first
    | assumption | apply kept_setRing | apply kept_ringError | apply kept_ignoreDoorbell | intro _
    | refine KeptO.next ?_ | refine Kept.ite ?_ ?_ | refine Kept.ite1 ?_ ?_
    | (simp only [Kept.lit]; refine Kept.toF ?_) | dsimp only | split

theorem kept_execCqHeadDoorbell {s0 s : State} (port : Nat) (pair : Nat) (value : Nat) (hkept : Kept s0 s) :
    KeptO s0 (execCqHeadDoorbell port pair value s) := by
  unfold execCqHeadDoorbell
  try dsimp only
  repeat' with_reducible first
    | assumption | apply kept_setRing | apply kept_ringError | apply kept_drainAssist | apply kept_ignoreDoorbell
    | intro _ | refine KeptO.next ?_ | refine Kept.ite ?_ ?_ | refine Kept.ite1 ?_ ?_
    | (simp only [Kept.lit]; refine Kept.toF ?_) | dsimp only | split

theorem kept_subqRelease {s0 s : State} (q : Nat) (head : Nat) (hkept : Kept s0 s) :
    Kept s0 (State.subqRelease s q head) := by
  unfold State.subqRelease
  try dsimp only
  repeat' with_reducible first
    | assumption | apply kept_setSubq | apply kept_subqError | intro _ | refine Kept.ite ?_ ?_ | refine Kept.ite1 ?_ ?_
    | (simp only [Kept.lit]; refine Kept.toF ?_) | dsimp only | split

theorem kept_signal {s0 s : State} (n : Nat) (irqNow : Bool) (hkept : Kept s0 s) :
    Kept s0 (State.signal s n irqNow) := by
  unfold State.signal
  try dsimp only
  repeat' with_reducible first
    | assumption | apply kept_sendMsix | apply kept_setRing | intro _ | refine Kept.ite ?_ ?_ | refine Kept.ite1 ?_ ?_
    | (simp only [Kept.lit]; refine Kept.toF ?_) | dsimp only | split

theorem kept_completeRing {s0 s : State} (n : Nat) (d : Desc) (ok : Bool) (hkept : Kept s0 s) :
    Kept s0 (State.completeRing s n d ok) := by
  unfold State.completeRing
  try dsimp only
  repeat' with_reducible first
    | assumption | apply kept_emit | apply kept_setRing | apply kept_ringError | apply kept_ringStopCheck
    | apply kept_signal | intro _ | refine Kept.ite ?_ ?_ | refine Kept.ite1 ?_ ?_
    | (simp only [Kept.lit]; refine Kept.toF ?_) | dsimp only | split

theorem kept_completeSubq {s0 s : State} (n : Nat) (d : Desc) (hkept : Kept s0 s) :
    Kept s0 (State.completeSubq s n d) := by
  unfold State.completeSubq
  try dsimp only
  repeat' with_reducible first
    | assumption | apply kept_setSubq | apply kept_originEnd | apply kept_originate | apply kept_storeSelf
    | apply kept_subqStopCheck | refine Kept.fst (by assumption) ?_ | intro _ | refine Kept.ite ?_ ?_
    | refine Kept.ite1 ?_ ?_ | (simp only [Kept.lit]; refine Kept.toF ?_) | dsimp only | split

theorem kept_writeCompletion {s0 s : State} (tok : Nat) (ok : Bool) (hkept : Kept s0 s) :
    Kept s0 (State.writeCompletion s tok ok) := by
  unfold State.writeCompletion
  try dsimp only
  repeat' with_reducible first
    | assumption | apply kept_dropDesc | apply kept_completeRing | apply kept_completeSubq
    | refine Kept.fst (by assumption) ?_ | intro _ | refine Kept.ite ?_ ?_ | refine Kept.ite1 ?_ ?_
    | (simp only [Kept.lit]; refine Kept.toF ?_) | dsimp only | split

theorem kept_execDescriptorComplete {s0 s : State} (tok : Nat) (ok : Bool) (hkept : Kept s0 s) :
    KeptO s0 (execDescriptorComplete tok ok s) := by
  unfold execDescriptorComplete
  try dsimp only
  repeat' with_reducible first
    | assumption | apply kept_writeCompletion | intro _ | refine KeptO.next ?_ | dsimp only

theorem kept_execMsixModerationTimer {s0 s : State} (pair : Nat) (hkept : Kept s0 s) :
    KeptO s0 (execMsixModerationTimer pair s) := by
  unfold execMsixModerationTimer
  try dsimp only
  repeat' with_reducible first
    | assumption | apply kept_sendMsix | apply kept_setRing | intro _ | refine KeptO.next ?_ | refine Kept.ite ?_ ?_
    | refine Kept.ite1 ?_ ?_ | (simp only [Kept.lit]; refine Kept.toF ?_) | dsimp only | split

theorem kept_execNop {s0 s : State} (tok : Nat) (hkept : Kept s0 s) :
    KeptO s0 (execNop tok s) := by
  unfold execNop
  try dsimp only
  repeat' with_reducible first
    | assumption | apply kept_runDesc | intro _ | refine KeptO.next ?_ | dsimp only

theorem kept_execFence {s0 s : State} (tok : Nat) (hkept : Kept s0 s) :
    KeptO s0 (execFence tok s) := by
  unfold execFence
  try dsimp only
  repeat' with_reducible first
    | assumption | apply kept_runDesc | intro _ | refine KeptO.next ?_ | dsimp only

theorem kept_flushReads {s0 s : State} (src : Src) (hkept : Kept s0 s) :
    Kept s0 (State.flushReads s src) := by
  unfold State.flushReads
  try dsimp only
  repeat' with_reducible first
    | assumption | apply kept_emit | refine Kept.foldl ?_ ?_ | refine Kept.foldl1 ?_ ?_ | intro _
    | (simp only [Kept.lit]; refine Kept.toF ?_) | dsimp only

theorem kept_execFenceComplete {s0 s : State} (tok : Nat) (hkept : Kept s0 s) :
    KeptO s0 (execFenceComplete tok s) := by
  unfold execFenceComplete
  try dsimp only
  repeat' with_reducible first
    | assumption | apply kept_endDesc | apply kept_flushReads | intro _ | refine KeptO.next ?_ | refine Kept.ite ?_ ?_
    | refine Kept.ite1 ?_ ?_ | dsimp only | split

theorem kept_execWaitCounter {s0 s : State} (tok : Nat) (hkept : Kept s0 s) :
    KeptO s0 (execWaitCounter tok s) := by
  unfold execWaitCounter
  try dsimp only
  repeat' with_reducible first
    | assumption | apply kept_runDesc | intro _ | refine KeptO.next ?_ | dsimp only

theorem kept_storeFlag {s0 s : State} (tok : Nat) (d : Desc) (addr : Nat) (bytes : List Byte) (hkept : Kept s0 s) :
    Kept s0 (State.storeFlag s tok d addr bytes).1 := by
  unfold State.storeFlag
  try dsimp only
  repeat' with_reducible first
    | assumption | apply kept_originateFor | apply kept_storeOwn | refine Kept.fst (by assumption) ?_ | intro _
    | refine Kept.ite ?_ ?_ | refine Kept.ite1 ?_ ?_ | (simp only [Kept.lit]; refine Kept.toF ?_) | dsimp only | split

theorem kept_execSetFlag {s0 s : State} (tok : Nat) (hkept : Kept s0 s) :
    KeptO s0 (execSetFlag tok s) := by
  unfold execSetFlag
  try dsimp only
  repeat' with_reducible first
    | assumption | apply kept_runDesc | apply kept_storeFlag | refine Kept.fst (by assumption) ?_ | intro _
    | refine KeptO.next ?_ | refine Kept.ite ?_ ?_ | refine Kept.ite1 ?_ ?_
    | (simp only [Kept.lit]; refine Kept.toF ?_) | dsimp only | split

theorem kept_execCounterSet {s0 s : State} (tok : Nat) (hkept : Kept s0 s) :
    KeptO s0 (execCounterSet tok s) := by
  unfold execCounterSet
  try dsimp only
  repeat' with_reducible first
    | assumption | apply kept_runDesc | apply kept_updateCounter | intro _ | refine KeptO.next ?_
    | refine Kept.ite ?_ ?_ | refine Kept.ite1 ?_ ?_ | (simp only [Kept.lit]; refine Kept.toF ?_) | dsimp only | split

theorem kept_execAdmitWeights {s0 s : State} (tok : Nat) (hkept : Kept s0 s) :
    KeptO s0 (execAdmitWeights tok s) := by
  unfold execAdmitWeights
  try dsimp only
  repeat' with_reducible first
    | assumption | apply kept_runDesc | refine Kept.fst (by assumption) ?_ | intro _ | refine KeptO.next ?_
    | refine Kept.ite ?_ ?_ | refine Kept.ite1 ?_ ?_ | (simp only [Kept.lit]; refine Kept.toF ?_) | dsimp only | split

theorem kept_effFnMode {s0 s : State} (v : Word) (hkept : Kept s0 s) :
    Kept s0 (effFnMode v s).1 := by
  unfold effFnMode
  try dsimp only
  repeat' with_reducible first
    | assumption | intro _ | refine Kept.ite ?_ ?_ | refine Kept.ite1 ?_ ?_
    | (simp only [Kept.lit]; refine Kept.toF ?_) | dsimp only | split

theorem kept_execHifFnModeWrite {s0 s : State} (path : Nat) (value : Word) (cycle : Nat) (hkept : Kept s0 s) :
    KeptO s0 (execHifFnModeWrite path value cycle s) := by
  unfold execHifFnModeWrite
  try dsimp only
  repeat' with_reducible first
    | assumption | apply kept_guardPair | apply kept_effFnMode | intro _ | refine KeptO.next ?_ | dsimp only

theorem kept_movePort {s0 s : State} (n : Nat) (st : PortState) (hkept : Kept s0 s) :
    Kept s0 (State.movePort s n st) := by
  unfold State.movePort
  try dsimp only
  repeat' with_reducible first
    | assumption | apply kept_event | apply kept_setPort | apply kept_portEvt | refine Kept.fst (by assumption) ?_
    | intro _ | (simp only [Kept.lit]; refine Kept.toF ?_) | dsimp only | split

theorem kept_requeue {s0 s : State} (n : Nat) (hkept : Kept s0 s) :
    Kept s0 (State.requeue s n) := by
  unfold State.requeue
  try dsimp only
  repeat' with_reducible first
    | assumption | apply kept_setPort | apply kept_sendPacket | refine Kept.foldl ?_ ?_ | refine Kept.foldl1 ?_ ?_
    | intro _ | (simp only [Kept.lit]; refine Kept.toF ?_) | dsimp only

theorem kept_failPort {s0 s : State} (n : Nat) (hkept : Kept s0 s) :
    Kept s0 (State.failPort s n) := by
  unfold State.failPort
  try dsimp only
  repeat' with_reducible first
    | assumption | apply kept_setPort | apply kept_movePort | apply kept_requeue | intro _
    | (simp only [Kept.lit]; refine Kept.toF ?_) | dsimp only

theorem kept_sendNeighbour {s0 s : State} (n : Nat) (hkept : Kept s0 s) :
    Kept s0 (State.sendNeighbour s n) := by
  unfold State.sendNeighbour
  try dsimp only
  repeat' with_reducible first
    | assumption | apply kept_emit | intro _ | dsimp only

theorem kept_effPortCtrl {s0 s : State} (v : Word) (hkept : Kept s0 s) :
    Kept s0 (effPortCtrl v s).1 := by
  unfold effPortCtrl
  try dsimp only
  repeat' with_reducible first
    | assumption | apply kept_setPort | apply kept_movePort | apply kept_requeue | intro _ | refine Kept.ite ?_ ?_
    | refine Kept.ite1 ?_ ?_ | (simp only [Kept.lit]; refine Kept.toF ?_) | dsimp only | split

theorem kept_execPortEnable {s0 s : State} (path : Nat) (value : Word) (_cycle : Nat) (hkept : Kept s0 s) :
    KeptO s0 (execPortEnable path value _cycle s) := by
  unfold execPortEnable
  try dsimp only
  repeat' with_reducible first
    | assumption | apply kept_plainWrite | apply kept_effPortCtrl | intro _ | refine KeptO.next ?_
    | refine Kept.ite ?_ ?_ | refine Kept.ite1 ?_ ?_ | dsimp only | split

theorem kept_execPortDisable {s0 s : State} (path : Nat) (value : Word) (_cycle : Nat) (hkept : Kept s0 s) :
    KeptO s0 (execPortDisable path value _cycle s) := by
  unfold execPortDisable
  try dsimp only
  repeat' with_reducible first
    | assumption | apply kept_plainWrite | apply kept_effPortCtrl | intro _ | refine KeptO.next ?_
    | refine Kept.ite ?_ ?_ | refine Kept.ite1 ?_ ?_ | dsimp only | split

theorem kept_execPortRetrain {s0 s : State} (path : Nat) (value : Word) (_cycle : Nat) (hkept : Kept s0 s) :
    KeptO s0 (execPortRetrain path value _cycle s) := by
  unfold execPortRetrain
  try dsimp only
  repeat' with_reducible first
    | assumption | apply kept_plainWrite | apply kept_effPortCtrl | intro _ | refine KeptO.next ?_
    | refine Kept.ite ?_ ?_ | refine Kept.ite1 ?_ ?_ | dsimp only | split

theorem kept_execPortSignalDetect {s0 s : State} (port : Nat) (lanes : Nat) (hkept : Kept s0 s) :
    KeptO s0 (execPortSignalDetect port lanes s) := by
  unfold execPortSignalDetect
  try dsimp only
  repeat' with_reducible first
    | assumption | apply kept_movePort | intro _ | refine KeptO.next ?_ | refine Kept.ite ?_ ?_
    | refine Kept.ite1 ?_ ?_ | dsimp only | split

theorem kept_execPortEqualisationDone {s0 s : State} (port : Nat) (lanes : Nat) (hkept : Kept s0 s) :
    KeptO s0 (execPortEqualisationDone port lanes s) := by
  unfold execPortEqualisationDone
  try dsimp only
  repeat' with_reducible first
    | assumption | apply kept_movePort | intro _ | refine KeptO.next ?_ | refine Kept.ite ?_ ?_
    | refine Kept.ite1 ?_ ?_ | dsimp only | split

theorem kept_execPortAlignDone {s0 s : State} (port : Nat) (good : Nat) (hkept : Kept s0 s) :
    KeptO s0 (execPortAlignDone port good s) := by
  unfold execPortAlignDone
  try dsimp only
  repeat' with_reducible first
    | assumption | apply kept_setPort | apply kept_movePort | apply kept_failPort | apply kept_sendNeighbour
    | refine Kept.fst (by assumption) ?_ | intro _ | refine KeptO.next ?_ | refine Kept.ite ?_ ?_
    | refine Kept.ite1 ?_ ?_ | (simp only [Kept.lit]; refine Kept.toF ?_) | dsimp only | split

theorem kept_execLaneFault {s0 s : State} (port : Nat) (hkept : Kept s0 s) :
    KeptO s0 (execLaneFault port s) := by
  unfold execLaneFault
  try dsimp only
  repeat' with_reducible first
    | assumption | apply kept_movePort | intro _ | refine KeptO.next ?_ | refine Kept.ite ?_ ?_
    | refine Kept.ite1 ?_ ?_ | dsimp only | split

theorem kept_resendFrames {s0 s : State} (port : Nat) (hkept : Kept s0 s) :
    Kept s0 (State.resendFrames s port) := by
  unfold State.resendFrames
  try dsimp only
  repeat' with_reducible first
    | assumption | apply kept_emit | refine Kept.foldl ?_ ?_ | refine Kept.foldl1 ?_ ?_ | intro _ | dsimp only

theorem kept_execRetrainLockRegained {s0 s : State} (port : Nat) (good : Nat) (hkept : Kept s0 s) :
    KeptO s0 (execRetrainLockRegained port good s) := by
  unfold execRetrainLockRegained
  try dsimp only
  repeat' with_reducible first
    | assumption | apply kept_event | apply kept_setPort | apply kept_drainPort | apply kept_movePort
    | apply kept_failPort | apply kept_resendFrames | refine Kept.fst (by assumption) ?_ | intro _
    | refine KeptO.next ?_ | refine Kept.ite ?_ ?_ | refine Kept.ite1 ?_ ?_
    | (simp only [Kept.lit]; refine Kept.toF ?_) | dsimp only | split

theorem kept_execPortBringupTimeout {s0 s : State} (port : Nat) (hkept : Kept s0 s) :
    KeptO s0 (execPortBringupTimeout port s) := by
  unfold execPortBringupTimeout
  try dsimp only
  repeat' with_reducible first
    | assumption | apply kept_failPort | intro _ | refine KeptO.next ?_ | refine Kept.ite ?_ ?_
    | refine Kept.ite1 ?_ ?_ | dsimp only | split

theorem kept_execPortRetrainTimeout {s0 s : State} (port : Nat) (hkept : Kept s0 s) :
    KeptO s0 (execPortRetrainTimeout port s) := by
  unfold execPortRetrainTimeout
  try dsimp only
  repeat' with_reducible first
    | assumption | apply kept_failPort | intro _ | refine KeptO.next ?_ | refine Kept.ite ?_ ?_
    | refine Kept.ite1 ?_ ?_ | dsimp only | split

theorem kept_execNeighbourTimer {s0 s : State} (port : Nat) (hkept : Kept s0 s) :
    KeptO s0 (execNeighbourTimer port s) := by
  unfold execNeighbourTimer
  try dsimp only
  repeat' with_reducible first
    | assumption | apply kept_sendNeighbour | intro _ | refine KeptO.next ?_ | refine Kept.ite ?_ ?_
    | refine Kept.ite1 ?_ ?_ | dsimp only | split

theorem kept_recvNeighbour {s0 s : State} (port : Nat) (p : Packet) (hkept : Kept s0 s) :
    Kept s0 (State.recvNeighbour s port p) := by
  unfold State.recvNeighbour
  try dsimp only
  repeat' with_reducible first
    | assumption | apply kept_setPort | apply kept_movePort | intro _ | refine Kept.ite ?_ ?_ | refine Kept.ite1 ?_ ?_
    | (simp only [Kept.lit]; refine Kept.toF ?_) | dsimp only | split

theorem kept_execNeighbour {s0 s : State} (port : Nat) (pkt : Packet) (hkept : Kept s0 s) :
    KeptO s0 (execNeighbour port pkt s) := by
  unfold execNeighbour
  try dsimp only
  repeat' with_reducible first
    | assumption | apply kept_recvNeighbour | intro _ | refine KeptO.next ?_ | refine Kept.ite ?_ ?_
    | refine Kept.ite1 ?_ ?_ | dsimp only | split

theorem kept_execEscapeTimeout {s0 s : State} (k : Nat) (hkept : Kept s0 s) :
    KeptO s0 (execEscapeTimeout k s) := by
  unfold execEscapeTimeout
  try dsimp only
  repeat' with_reducible first
    | assumption | apply kept_sendBy | apply kept_countDrop | refine Kept.fst (by assumption) ?_ | intro _
    | refine KeptO.next ?_ | refine Kept.ite ?_ ?_ | refine Kept.ite1 ?_ ?_
    | (simp only [Kept.lit]; refine Kept.toF ?_) | dsimp only | split

theorem kept_effVcCfg {s0 s : State} (vc : Nat) (v : Word) (hkept : Kept s0 s) :
    Kept s0 (effVcCfg vc v s).1 := by
  unfold effVcCfg
  try dsimp only
  repeat' with_reducible first
    | assumption | apply kept_setPort | refine Kept.foldl ?_ ?_ | refine Kept.foldl1 ?_ ?_ | intro _
    | refine Kept.ite ?_ ?_ | refine Kept.ite1 ?_ ?_ | (simp only [Kept.lit]; refine Kept.toF ?_) | dsimp only | split

theorem kept_execFabVcCfgWrite {s0 s : State} (path : Nat) (vc : Nat) (value : Word) (_cycle : Nat) (hkept : Kept s0 s) :
    KeptO s0 (execFabVcCfgWrite path vc value _cycle s) := by
  unfold execFabVcCfgWrite
  try dsimp only
  repeat' with_reducible first
    | assumption | apply kept_plainWrite | apply kept_effVcCfg | intro _ | refine KeptO.next ?_ | dsimp only

theorem kept_effOwnEntry {s0 s : State} (v : Word) (hkept : Kept s0 s) :
    Kept s0 (effOwnEntry v s).1 := by
  unfold effOwnEntry
  try dsimp only
  repeat' with_reducible first
    | assumption | intro _ | refine Kept.ite ?_ ?_ | refine Kept.ite1 ?_ ?_
    | (simp only [Kept.lit]; refine Kept.toF ?_) | dsimp only | split

theorem kept_execFabOwnEntryWrite {s0 s : State} (path : Nat) (value : Word) (cycle : Nat) (hkept : Kept s0 s) :
    KeptO s0 (execFabOwnEntryWrite path value cycle s) := by
  unfold execFabOwnEntryWrite
  try dsimp only
  repeat' with_reducible first
    | assumption | apply kept_guardPair | apply kept_effOwnEntry | intro _ | refine KeptO.next ?_ | dsimp only

theorem kept_execThreadSwitchNormal {s0 s : State} (path : Nat) (value : Word) (_cycle : Nat) (hkept : Kept s0 s) :
    KeptO s0 (execThreadSwitchNormal path value _cycle s) := by
  unfold execThreadSwitchNormal
  try dsimp only
  repeat' with_reducible first
    | assumption | apply kept_plainWrite | apply kept_effStore | intro _ | refine KeptO.next ?_ | dsimp only

theorem kept_effDevid {s0 s : State} (v : Word) (hkept : Kept s0 s) :
    Kept s0 (effDevid v s).1 := by
  unfold effDevid
  try dsimp only
  repeat' with_reducible first
    | assumption | apply kept_setWord | intro _ | refine Kept.ite ?_ ?_ | refine Kept.ite1 ?_ ?_
    | (simp only [Kept.lit]; refine Kept.toF ?_) | dsimp only | split

theorem kept_execFabDevidWrite {s0 s : State} (path : Nat) (value : Word) (cycle : Nat) (hkept : Kept s0 s) :
    KeptO s0 (execFabDevidWrite path value cycle s) := by
  unfold execFabDevidWrite
  try dsimp only
  repeat' with_reducible first
    | assumption | apply kept_guardPair | apply kept_effDevid | intro _ | refine KeptO.next ?_ | dsimp only

theorem kept_joinFabric {s0 s : State} (hkept : Kept s0 s) :
    Kept s0 (State.joinFabric s) := by
  unfold State.joinFabric
  try dsimp only
  repeat' with_reducible first
    | assumption | apply kept_setEvt | intro _ | (simp only [Kept.lit]; refine Kept.toF ?_) | dsimp only

theorem kept_leaveFabric {s0 s : State} (hkept : Kept s0 s) :
    Kept s0 (State.leaveFabric s) := by
  unfold State.leaveFabric
  try dsimp only
  repeat' with_reducible first
    | assumption | apply kept_setEvt | intro _ | (simp only [Kept.lit]; refine Kept.toF ?_) | dsimp only

theorem kept_effFabCtrl {s0 s : State} (v : Word) (hkept : Kept s0 s) :
    Kept s0 (effFabCtrl v s).1 := by
  unfold effFabCtrl
  try dsimp only
  repeat' with_reducible first
    | assumption | apply kept_joinFabric | apply kept_leaveFabric | intro _ | refine Kept.ite ?_ ?_
    | refine Kept.ite1 ?_ ?_ | dsimp only | split

theorem kept_execJoin {s0 s : State} (path : Nat) (value : Word) (cycle : Nat) (hkept : Kept s0 s) :
    KeptO s0 (execJoin path value cycle s) := by
  unfold execJoin
  try dsimp only
  repeat' with_reducible first
    | assumption | apply kept_guardPair | apply kept_effFabCtrl | intro _ | refine KeptO.next ?_ | dsimp only

theorem kept_execLeave {s0 s : State} (path : Nat) (value : Word) (cycle : Nat) (hkept : Kept s0 s) :
    KeptO s0 (execLeave path value cycle s) := by
  unfold execLeave
  try dsimp only
  repeat' with_reducible first
    | assumption | apply kept_guardPair | apply kept_effFabCtrl | intro _ | refine KeptO.next ?_ | dsimp only

theorem kept_winRefuse {s0 s : State} (n : Nat) (reason : Nat) (hkept : Kept s0 s) :
    Kept s0 (State.winRefuse s n reason) := by
  unfold State.winRefuse
  try dsimp only
  repeat' with_reducible first
    | assumption | apply kept_setWord | apply kept_setEvt | intro _ | dsimp only

theorem kept_effWinCommit {s0 s : State} (time : Nat) (v : Word) (hkept : Kept s0 s) :
    Kept s0 (effWinCommit time v s).1 := by
  unfold effWinCommit
  try dsimp only
  repeat' with_reducible first
    | assumption | apply kept_winRefuse | refine Kept.fst (by assumption) ?_ | intro _ | refine Kept.ite ?_ ?_
    | refine Kept.ite1 ?_ ?_ | (simp only [Kept.lit]; refine Kept.toF ?_) | dsimp only | split

theorem kept_execWindowCommitApplyWrite {s0 s : State} (path : Nat) (value : Word) (cycle : Nat) (hkept : Kept s0 s) :
    KeptO s0 (execWindowCommitApplyWrite path value cycle s) := by
  unfold execWindowCommitApplyWrite
  try dsimp only
  repeat' with_reducible first
    | assumption | apply kept_guardPair | apply kept_effWinCommit | intro _ | refine KeptO.next ?_ | dsimp only

theorem kept_execWindowCommitDiscard {s0 s : State} (path : Nat) (value : Word) (cycle : Nat) (hkept : Kept s0 s) :
    KeptO s0 (execWindowCommitDiscard path value cycle s) := by
  unfold execWindowCommitDiscard
  try dsimp only
  repeat' with_reducible first
    | assumption | apply kept_guardPair | apply kept_effWinCommit | intro _ | refine KeptO.next ?_ | dsimp only

theorem kept_applyWindows {s0 s : State} (hkept : Kept s0 s) :
    Kept s0 (State.applyWindows s) := by
  unfold State.applyWindows
  try dsimp only
  repeat' with_reducible first
    | assumption | apply kept_setEvt | refine Kept.fst (by assumption) ?_ | intro _
    | (simp only [Kept.lit]; refine Kept.toF ?_) | dsimp only | split

theorem kept_execWindowDrainComplete {s0 s : State} (hkept : Kept s0 s) :
    KeptO s0 (execWindowDrainComplete s) := by
  unfold execWindowDrainComplete
  try dsimp only
  repeat' with_reducible first
    | assumption | apply kept_setEvt | intro _ | refine KeptO.next ?_ | refine Kept.ite ?_ ?_ | refine Kept.ite1 ?_ ?_
    | (simp only [Kept.lit]; refine Kept.toF ?_) | dsimp only | split

theorem kept_settle {s0 s : State} (p : Packet) (hkept : Kept s0 s) :
    Kept s0 (State.settle s p) := by
  unfold State.settle
  try dsimp only
  repeat' with_reducible first
    | assumption | refine Kept.fst (by assumption) ?_ | intro _ | refine Kept.ite ?_ ?_ | refine Kept.ite1 ?_ ?_
    | (simp only [Kept.lit]; refine Kept.toF ?_) | dsimp only | split

theorem kept_endPacket {s0 s : State} (p : Packet) (status : Nat) (reason : Nat) (old : Nat) (poison : Nat) (data : List Byte) (hkept : Kept s0 s) :
    Kept s0 (State.endPacket s p status reason old poison data) := by
  unfold State.endPacket
  try dsimp only
  repeat' with_reducible first
    | assumption | apply kept_answer | apply kept_settle | intro _ | dsimp only

theorem kept_discardSeq {s0 s : State} (p : Packet) (reason : Nat) (hkept : Kept s0 s) :
    Kept s0 (State.discardSeq s p reason) := by
  unfold State.discardSeq
  try dsimp only
  repeat' with_reducible first
    | assumption | apply kept_answer | intro _ | refine Kept.ite ?_ ?_ | refine Kept.ite1 ?_ ?_
    | (simp only [Kept.lit]; refine Kept.toF ?_) | dsimp only | split

theorem kept_epochCheck {s0 s : State} (p : Packet) (hkept : Kept s0 s) :
    Kept s0 (State.epochCheck s p).1 := by
  unfold State.epochCheck
  try dsimp only
  repeat' with_reducible first
    | assumption | apply kept_advanceEpoch | intro _ | refine Kept.ite ?_ ?_ | refine Kept.ite1 ?_ ?_ | dsimp only
    | split

theorem kept_stalePlacement {s0 s : State} (p : Packet) (hkept : Kept s0 s) :
    Kept s0 (State.stalePlacement s p) := by
  unfold State.stalePlacement
  try dsimp only
  repeat' with_reducible first
    | assumption | apply kept_setEvt | apply kept_endPacket | intro _ | (simp only [Kept.lit]; refine Kept.toF ?_)
    | dsimp only

theorem kept_applyUpdate {s0 s : State} (e : BitVec 256) (pos : Nat) (key : Nat) (d : Nat) (p : Packet) (hkept : Kept s0 s) :
    Kept s0 (State.applyUpdate s e pos key d p) := by
  unfold State.applyUpdate
  try dsimp only
  repeat' with_reducible first
    | assumption | apply kept_homeWrite | apply kept_markPoison | intro _ | refine Kept.ite ?_ ?_
    | refine Kept.ite1 ?_ ?_ | dsimp only | split

theorem kept_endWrite {s0 s : State} (p : Packet) (old : Nat) (hkept : Kept s0 s) :
    Kept s0 (State.endWrite s p old) := by
  unfold State.endWrite
  try dsimp only
  repeat' with_reducible first
    | assumption | apply kept_creditCounter | apply kept_endPacket | intro _ | refine Kept.ite ?_ ?_
    | refine Kept.ite1 ?_ ?_ | dsimp only | split

theorem kept_freeHold {s0 s : State} (line : Nat) (hkept : Kept s0 s) :
    Kept s0 (State.freeHold s line) := by
  unfold State.freeHold
  try dsimp only
  repeat' with_reducible first
    | assumption | apply kept_endPacket | apply kept_applyUpdate | apply kept_endWrite | refine Kept.foldl ?_ ?_
    | refine Kept.foldl1 ?_ ?_ | refine Kept.fst (by assumption) ?_ | intro _
    | (simp only [Kept.lit]; refine Kept.toF ?_) | dsimp only | split

theorem kept_redundancyPacket {s0 s : State} (e : BitVec 256) (pos : Nat) (key : Nat) (d : Nat) (p : Packet) (hkept : Kept s0 s) :
    KeptP s0 (State.redundancyPacket s e pos key d p) := by
  unfold State.redundancyPacket
  try dsimp only
  repeat' with_reducible first
    | assumption | apply kept_endPacket | apply kept_applyUpdate | apply kept_endWrite | apply kept_freeHold
    | refine Kept.fst (by assumption) ?_ | intro _ | refine KeptP.some ?_ | exact KeptP.none _ | refine Kept.ite ?_ ?_
    | refine Kept.ite1 ?_ ?_ | (simp only [Kept.lit]; refine Kept.toF ?_) | dsimp only | split

theorem kept_groupRead {s0 s : State} (w : Waiter) (key : Nat) (d : Nat) (p : Packet) (hkept : Kept s0 s) :
    Kept s0 (State.groupRead s w key d p).1 := by
  unfold State.groupRead
  try dsimp only
  repeat' with_reducible first
    | assumption | apply kept_askAll | apply kept_leaveLines | apply kept_endPacket
    | refine Kept.fst (by assumption) ?_ | intro _ | refine Kept.ite ?_ ?_ | refine Kept.ite1 ?_ ?_
    | (simp only [Kept.lit]; refine Kept.toF ?_) | dsimp only | split

theorem kept_applyInbound {s0 s : State} (p : Packet) (key : Nat) (d : Nat) (hkept : Kept s0 s) :
    Kept s0 (State.applyInbound s p key d) := by
  unfold State.applyInbound
  try dsimp only
  repeat' with_reducible first
    | assumption | apply kept_poisonLine | apply kept_touch | apply kept_answer | apply kept_homeWrite
    | apply kept_creditLines | apply kept_creditWrite | apply kept_endPacket | apply kept_endWrite
    | refine Kept.foldl ?_ ?_ | refine Kept.foldl1 ?_ ?_ | refine Kept.fst (by assumption) ?_ | intro _
    | refine Kept.ite ?_ ?_ | refine Kept.ite1 ?_ ?_ | (simp only [Kept.lit]; refine Kept.toF ?_) | dsimp only | split

theorem kept_keyGone {s0 s : State} (p : Packet) (hkept : Kept s0 s) :
    Kept s0 (State.keyGone s p) := by
  unfold State.keyGone
  try dsimp only
  repeat' with_reducible first
    | assumption | apply kept_staleAccess | apply kept_endPacket | intro _ | refine Kept.ite ?_ ?_
    | refine Kept.ite1 ?_ ?_ | dsimp only | split

theorem kept_serveInbound {s0 s : State} (p : Packet) (e : BitVec 128) (epoch : Nat) (hkept : Kept s0 s) :
    Kept s0 (State.serveInbound s p e epoch).1 := by
  unfold State.serveInbound
  try dsimp only
  repeat' with_reducible first
    | assumption | apply kept_askAll | apply kept_leaveLines | apply kept_endPacket | apply kept_redundancyPacket
    | apply kept_groupRead | apply kept_applyInbound | apply kept_keyGone | refine Kept.fst (by assumption) ?_
    | refine Kept.some (by assumption) ?_ | intro _ | refine KeptP.some ?_ | exact KeptP.none _ | refine Kept.ite ?_ ?_
    | refine Kept.ite1 ?_ ?_ | (simp only [Kept.lit]; refine Kept.toF ?_) | dsimp only | split

theorem kept_refuseInbound {s0 s : State} (p : Packet) (status : Nat) (reason : Nat) (hkept : Kept s0 s) :
    Kept s0 (State.refuseInbound s p status reason) := by
  unfold State.refuseInbound
  try dsimp only
  repeat' with_reducible first
    | assumption | apply kept_setEvt | apply kept_countWinRefusal | apply kept_cong | apply kept_endPacket | intro _
    | refine Kept.ite ?_ ?_ | refine Kept.ite1 ?_ ?_ | (simp only [Kept.lit]; refine Kept.toF ?_) | dsimp only | split

theorem kept_lookupInbound {s0 s : State} (p : Packet) (hkept : Kept s0 s) :
    Kept s0 (State.lookupInbound s p) := by
  unfold State.lookupInbound
  try dsimp only
  repeat' with_reducible first
    | assumption | apply kept_counted | apply kept_park | apply kept_serveInbound | apply kept_refuseInbound
    | refine Kept.fst (by assumption) ?_ | intro _ | (simp only [Kept.lit]; refine Kept.toF ?_) | dsimp only | split

theorem kept_acceptSubmit {s0 s : State} (p : Packet) (hkept : Kept s0 s) :
    Kept s0 (State.acceptSubmit s p) := by
  unfold State.acceptSubmit
  try dsimp only
  repeat' with_reducible first
    | assumption | apply kept_setSubq | apply kept_subqRelease | apply kept_endPacket | intro _ | refine Kept.ite ?_ ?_
    | refine Kept.ite1 ?_ ?_ | (simp only [Kept.lit]; refine Kept.toF ?_) | dsimp only | split

theorem kept_applyOwn {s0 s : State} (p : Packet) (e : BitVec 128) (hkept : Kept s0 s) :
    Kept s0 (State.applyOwn s p e) := by
  unfold State.applyOwn
  try dsimp only
  repeat' with_reducible first
    | assumption | apply kept_endPacket | refine Kept.fst (by assumption) ?_ | intro _ | refine Kept.ite ?_ ?_
    | refine Kept.ite1 ?_ ?_ | (simp only [Kept.lit]; refine Kept.toF ?_) | dsimp only | split

theorem kept_releaseOne {s0 s : State} (h : Held) (hkept : Kept s0 s) :
    Kept s0 (State.releaseOne s h) := by
  unfold State.releaseOne
  try dsimp only
  repeat' with_reducible first
    | assumption | apply kept_lookupInbound | apply kept_acceptSubmit | apply kept_applyOwn
    | refine Kept.fst (by assumption) ?_ | intro _ | refine Kept.ite ?_ ?_ | refine Kept.ite1 ?_ ?_
    | (simp only [Kept.lit]; refine Kept.toF ?_) | dsimp only | split

theorem kept_releaseHeld {s0 s : State} (n : Nat) (h : Kept s0 s) : Kept s0 (State.releaseHeld n s) := by
  induction n generalizing s with
  | zero => exact h
  | succ n ih =>
    unfold State.releaseHeld
    split
    · exact h
    · exact ih (kept_releaseOne _ h)

theorem kept_holdOrRun {s0 s : State} (h : Held) (hkept : Kept s0 s) :
    Kept s0 (State.holdOrRun s h) := by
  unfold State.holdOrRun
  try dsimp only
  repeat' with_reducible first
    | assumption | apply kept_endPacket | apply kept_releaseOne | intro _ | refine Kept.ite ?_ ?_
    | refine Kept.ite1 ?_ ?_ | (simp only [Kept.lit]; refine Kept.toF ?_) | dsimp only | split

theorem kept_settleWrite {s0 s : State} (h : HeldWrite) (hkept : Kept s0 s) :
    Kept s0 (State.settleWrite s h) := by
  unfold State.settleWrite
  try dsimp only
  repeat' with_reducible first
    | assumption | apply kept_poisonLine | apply kept_originEnd | apply kept_applyEntry | apply kept_creditCounter
    | apply kept_hostCmp | apply kept_endPacket | apply kept_endWrite | refine Kept.fst (by assumption) ?_ | intro _
    | refine Kept.ite ?_ ?_ | refine Kept.ite1 ?_ ?_ | (simp only [Kept.lit]; refine Kept.toF ?_) | dsimp only | split

theorem kept_settleWrites {s0 s : State} (hkept : Kept s0 s) :
    Kept s0 (State.settleWrites s) := by
  unfold State.settleWrites
  try dsimp only
  repeat' with_reducible first
    | assumption | apply kept_settleWrite | refine Kept.foldl ?_ ?_ | refine Kept.foldl1 ?_ ?_ | intro _ | dsimp only

theorem kept_serveWaiter {s0 s : State} (w : Waiter) (hkept : Kept s0 s) :
    Kept s0 (State.serveWaiter s w) := by
  unfold State.serveWaiter
  try dsimp only
  repeat' with_reducible first
    | assumption | apply kept_openRecall | apply kept_askLine | apply kept_hostServe | apply kept_serveInbound
    | refine Kept.fst (by assumption) ?_ | intro _ | refine Kept.ite ?_ ?_ | refine Kept.ite1 ?_ ?_
    | (simp only [Kept.lit]; refine Kept.toF ?_) | dsimp only | split

theorem kept_serveWaiters {s0 s : State} (hkept : Kept s0 s) :
    Kept s0 (State.serveWaiters s) := by
  unfold State.serveWaiters
  try dsimp only
  repeat' with_reducible first
    | assumption | apply kept_serveWaiter | refine Kept.foldl ?_ ?_ | refine Kept.foldl1 ?_ ?_ | intro _ | dsimp only

theorem kept_dropLate {s0 s : State} (hkept : Kept s0 s) :
    Kept s0 (State.dropLate s) := by
  unfold State.dropLate
  try dsimp only
  repeat' with_reducible first
    | assumption | refine Kept.foldl ?_ ?_ | refine Kept.foldl1 ?_ ?_ | intro _ | refine Kept.ite ?_ ?_
    | refine Kept.ite1 ?_ ?_ | (simp only [Kept.lit]; refine Kept.toF ?_) | dsimp only | split

theorem kept_pump {s0 s : State} (hkept : Kept s0 s) :
    Kept s0 (State.pump s) := by
  unfold State.pump
  try dsimp only
  repeat' with_reducible first
    | assumption | apply kept_memberFailures | apply kept_advanceGathers | apply kept_releaseHeld
    | apply kept_settleWrites | apply kept_serveWaiters | apply kept_dropLate | intro _ | dsimp only

theorem kept_recvSync {s0 s : State} (p : Packet) (hkept : Kept s0 s) :
    Kept s0 (State.recvSync s p) := by
  unfold State.recvSync
  try dsimp only
  repeat' with_reducible first
    | assumption | apply kept_newGen | apply kept_endPacket | apply kept_discardSeq | refine Kept.foldl ?_ ?_
    | refine Kept.foldl1 ?_ ?_ | refine Kept.snd (by assumption) ?_ | intro _
    | (simp only [Kept.lit]; refine Kept.toF ?_) | dsimp only

theorem kept_recvWrite {s0 s : State} (p : Packet) (hkept : Kept s0 s) :
    Kept s0 (State.recvWrite s p) := by
  unfold State.recvWrite
  try dsimp only
  repeat' with_reducible first
    | assumption | apply kept_counted | apply kept_endPacket | apply kept_discardSeq | apply kept_epochCheck
    | apply kept_stalePlacement | apply kept_refuseInbound | apply kept_lookupInbound | apply kept_holdOrRun
    | refine Kept.fst (by assumption) ?_ | intro _ | refine Kept.ite ?_ ?_ | refine Kept.ite1 ?_ ?_
    | (simp only [Kept.lit]; refine Kept.toF ?_) | dsimp only | split

theorem kept_recvRequest {s0 s : State} (p : Packet) (hkept : Kept s0 s) :
    Kept s0 (State.recvRequest s p) := by
  unfold State.recvRequest
  try dsimp only
  repeat' with_reducible first
    | assumption | apply kept_lookupInbound | apply kept_recvSync | apply kept_recvWrite | intro _
    | refine Kept.ite ?_ ?_ | refine Kept.ite1 ?_ ?_ | dsimp only | split

theorem kept_selfRefused {s0 s : State} (tok : Nat) (status : Nat) (reason : Nat) (hkept : Kept s0 s) :
    Kept s0 (State.selfRefused s tok status reason) := by
  unfold State.selfRefused
  try dsimp only
  repeat' with_reducible first
    | assumption | apply kept_await | apply kept_originEnd | intro _ | dsimp only

theorem kept_putOwn {s0 s : State} (tok : Nat) (b : DescBits) (addr : Nat) (bytes : List Byte) (hkept : Kept s0 s) :
    Kept s0 (State.putOwn s tok b addr bytes) := by
  unfold State.putOwn
  try dsimp only
  repeat' with_reducible first
    | assumption | apply kept_storeOwn | apply kept_selfRefused | refine Kept.fst (by assumption) ?_ | intro _
    | refine Kept.ite ?_ ?_ | refine Kept.ite1 ?_ ?_ | (simp only [Kept.lit]; refine Kept.toF ?_) | dsimp only | split

theorem kept_deliverData {s0 s : State} (r : Request) (p : Packet) (hkept : Kept s0 s) :
    Kept s0 (State.deliverData s r p) := by
  unfold State.deliverData
  try dsimp only
  repeat' with_reducible first
    | assumption | apply kept_emit | apply kept_failOp | apply kept_originateFor | apply kept_gatherData
    | apply kept_homeWrite | apply kept_markPoison | apply kept_creditWrite | apply kept_storeOwn
    | apply kept_notePosted | apply kept_selfRefused | refine Kept.foldl ?_ ?_ | refine Kept.foldl1 ?_ ?_
    | refine Kept.fst (by assumption) ?_ | intro _ | refine Kept.ite ?_ ?_ | refine Kept.ite1 ?_ ?_
    | (simp only [Kept.lit]; refine Kept.toF ?_) | dsimp only | split

theorem kept_recvResponse {s0 s : State} (p : Packet) (hkept : Kept s0 s) :
    Kept s0 (State.recvResponse s p) := by
  unfold State.recvResponse
  try dsimp only
  repeat' with_reducible first
    | assumption | apply kept_endRequest | apply kept_deliverData | refine Kept.fst (by assumption) ?_ | intro _
    | refine Kept.ite ?_ ?_ | refine Kept.ite1 ?_ ?_ | (simp only [Kept.lit]; refine Kept.toF ?_) | dsimp only | split

theorem kept_transit {s0 s : State} (p : Packet) (hkept : Kept s0 s) :
    Kept s0 (State.transit s p) := by
  unfold State.transit
  try dsimp only
  repeat' with_reducible first
    | assumption | apply kept_setEvt | apply kept_sendBy | apply kept_countDrop | apply kept_sendPacket
    | apply kept_answer | intro _ | refine Kept.ite ?_ ?_ | refine Kept.ite1 ?_ ?_
    | (simp only [Kept.lit]; refine Kept.toF ?_) | dsimp only | split

theorem kept_forwardMc {s0 s : State} (p : Packet) (hkept : Kept s0 s) :
    Kept s0 (State.forwardMc s p) := by
  unfold State.forwardMc
  try dsimp only
  repeat' with_reducible first
    | assumption | apply kept_transmit | refine Kept.foldl ?_ ?_ | refine Kept.foldl1 ?_ ?_ | intro _
    | refine Kept.ite ?_ ?_ | refine Kept.ite1 ?_ ?_ | (simp only [Kept.lit]; refine Kept.toF ?_) | dsimp only | split

theorem kept_recvMcast {s0 s : State} (p : Packet) (hkept : Kept s0 s) :
    Kept s0 (State.recvMcast s p) := by
  unfold State.recvMcast
  try dsimp only
  repeat' with_reducible first
    | assumption | apply kept_countDrop | apply kept_answer | apply kept_lookupInbound | apply kept_forwardMc | intro _
    | refine Kept.ite ?_ ?_ | refine Kept.ite1 ?_ ?_ | (simp only [Kept.lit]; refine Kept.toF ?_) | dsimp only | split

theorem kept_notJoined {s0 s : State} (p : Packet) (hkept : Kept s0 s) :
    Kept s0 (State.notJoined s p) := by
  unfold State.notJoined
  try dsimp only
  repeat' with_reducible first
    | assumption | apply kept_answer | intro _ | refine Kept.ite ?_ ?_ | refine Kept.ite1 ?_ ?_ | dsimp only | split

theorem kept_recvPacket {s0 s : State} (port : Nat) (p : Packet) (hkept : Kept s0 s) :
    Kept s0 (State.recvPacket s port p) := by
  unfold State.recvPacket
  try dsimp only
  repeat' with_reducible first
    | assumption | apply kept_countDrop | apply kept_recvTick | apply kept_recvNeighbour | apply kept_recvRequest
    | apply kept_recvResponse | apply kept_transit | apply kept_recvMcast | apply kept_notJoined
    | refine Kept.fst (by assumption) ?_ | intro _ | refine Kept.ite ?_ ?_ | refine Kept.ite1 ?_ ?_
    | (simp only [Kept.lit]; refine Kept.toF ?_) | dsimp only | split

theorem kept_recv {s0 s : State} (port : Nat) (p : Packet) (hkept : Kept s0 s) :
    Kept s0 (State.recv s port p) := by
  unfold State.recv
  try dsimp only
  repeat' with_reducible first
    | assumption | apply kept_pump | apply kept_recvPacket | intro _ | dsimp only

theorem kept_retryParked {s0 s : State} (hkept : Kept s0 s) :
    Kept s0 (State.retryParked s) := by
  unfold State.retryParked
  try dsimp only
  repeat' with_reducible first
    | assumption | apply kept_sendPacket | apply kept_forwardMc | refine Kept.foldl ?_ ?_ | refine Kept.foldl1 ?_ ?_
    | intro _ | (simp only [Kept.lit]; refine Kept.toF ?_) | dsimp only

theorem kept_resend {s0 s : State} (n : Nat) (hkept : Kept s0 s) :
    Kept s0 (State.resend s n) := by
  unfold State.resend
  try dsimp only
  repeat' with_reducible first
    | assumption | apply kept_emit | apply kept_setPort | apply kept_portEvt | apply kept_movePort
    | refine Kept.foldl ?_ ?_ | refine Kept.foldl1 ?_ ?_ | intro _ | refine Kept.ite ?_ ?_ | refine Kept.ite1 ?_ ?_
    | (simp only [Kept.lit]; refine Kept.toF ?_) | dsimp only | split

theorem kept_recvFrame {s0 s : State} (n : Nat) (f : Frame) (hkept : Kept s0 s) :
    Kept s0 (State.recvFrame s n f) := by
  unfold State.recvFrame
  try dsimp only
  repeat' with_reducible first
    | assumption | apply kept_setPort | apply kept_drainPort | apply kept_recv | apply kept_retryParked
    | apply kept_resend | refine Kept.foldl ?_ ?_ | refine Kept.foldl1 ?_ ?_ | intro _ | refine Kept.getD ?_ ?_
    | refine Kept.ite ?_ ?_ | refine Kept.ite1 ?_ ?_ | (simp only [Kept.lit]; refine Kept.toF ?_) | dsimp only | split

theorem kept_recvIf {s0 s : State} (c : Bool) (port : Nat) (p : Packet) (hkept : Kept s0 s) :
    Kept s0 (State.recvIf s c port p) := by
  unfold State.recvIf
  try dsimp only
  repeat' with_reducible first
    | assumption | apply kept_recv | intro _ | refine Kept.ite ?_ ?_ | refine Kept.ite1 ?_ ?_ | dsimp only | split

theorem kept_xlateTiles {s0 s : State} (tok : Nat) (d : Desc) (l : List (List Need)) (acc : List (List (List Seg)))
    (h : Kept s0 s) : Kept s0 (s.xlateTiles tok d l acc).1 := by
  induction l generalizing s acc with
  | nil => exact h
  | cons t rest ih =>
    have h1 := kept_xlateNeeds tok d t [] h
    unfold State.xlateTiles
    split <;> rename_i e <;> rw [e] at h1
    · exact h1
    · exact h1
    · split
      · exact h1
      · exact ih _ h1

theorem kept_runTiles {s0 s : State} (tok : Nat) (op : Nat) (check : Desc → State → Option Cpl) (tiles : Desc → State → List (List Need)) (k : Desc → List (List (List Seg)) → Option Cpl → State → State × Option Cpl) (hcb_k : ∀ x0 x1 x2 x3, Kept s0 x3 → Kept s0 (k x0 x1 x2 x3).1) (hkept : Kept s0 s) :
    Kept s0 (State.runTiles s tok op check tiles k) := by
  unfold State.runTiles
  try dsimp only
  repeat' with_reducible first
    | assumption | apply kept_runDesc | apply kept_engineReady | apply kept_xlateTiles | apply hcb_k
    | refine Kept.fst (by assumption) ?_ | intro _ | refine Kept.ite ?_ ?_ | refine Kept.ite1 ?_ ?_
    | (simp only [Kept.lit]; refine Kept.toF ?_) | dsimp only | split

theorem kept_fabPut {s0 s : State} (tok : Nat) (d : Desc) (addr : Nat) (bytes : List Byte) (hkept : Kept s0 s) :
    Kept s0 (State.fabPut s tok d addr bytes) := by
  unfold State.fabPut
  try dsimp only
  repeat' with_reducible first
    | assumption | apply kept_originateFor | apply kept_putOwn | refine Kept.foldl ?_ ?_ | refine Kept.foldl1 ?_ ?_
    | intro _ | refine Kept.ite ?_ ?_ | refine Kept.ite1 ?_ ?_ | dsimp only | split

theorem kept_poisonPieces {s0 s : State} (l : List (Nat × Nat)) (hkept : Kept s0 s) :
    Kept s0 (State.poisonPieces s l) := by
  unfold State.poisonPieces
  try dsimp only
  repeat' with_reducible first
    | assumption | apply kept_markPoison | refine Kept.foldl ?_ ?_ | refine Kept.foldl1 ?_ ?_ | intro _ | dsimp only

theorem kept_fabPutPoisoned {s0 s : State} (tok : Nat) (d : Desc) (addr : Nat) (bytes : List Byte) (hkept : Kept s0 s) :
    Kept s0 (State.fabPutPoisoned s tok d addr bytes) := by
  unfold State.fabPutPoisoned
  try dsimp only
  repeat' with_reducible first
    | assumption | apply kept_originateFor | apply kept_storeOwn | apply kept_selfRefused | apply kept_poisonPieces
    | refine Kept.foldl ?_ ?_ | refine Kept.foldl1 ?_ ?_ | refine Kept.fst (by assumption) ?_ | intro _
    | refine Kept.ite ?_ ?_ | refine Kept.ite1 ?_ ?_ | (simp only [Kept.lit]; refine Kept.toF ?_) | dsimp only | split

theorem kept_fabPutLines {s0 s : State} (tok : Nat) (d : Desc) (addr : Nat) (bytes : List Byte) (bad : Nat → Bool) (hkept : Kept s0 s) :
    Kept s0 (State.fabPutLines s tok d addr bytes bad) := by
  unfold State.fabPutLines
  try dsimp only
  repeat' with_reducible first
    | assumption | apply kept_fabPut | apply kept_fabPutPoisoned | refine Kept.foldl ?_ ?_ | refine Kept.foldl1 ?_ ?_
    | intro _ | refine Kept.ite ?_ ?_ | refine Kept.ite1 ?_ ?_ | dsimp only | split

theorem kept_loadSelf {s0 s : State} (addr : Nat) (len : Nat) (hkept : Kept s0 s) :
    Kept s0 (State.loadSelf s addr len).1 := by
  unfold State.loadSelf
  try dsimp only
  repeat' with_reducible first
    | assumption | apply kept_touch | apply kept_countWinRefusal | refine Kept.fst (by assumption) ?_ | intro _
    | (simp only [Kept.lit]; refine Kept.toF ?_) | dsimp only | split

theorem kept_drawBytes {s0 s : State} (n : Nat) (h : Kept s0 s) : Kept s0 (State.drawBytes n s).2 := by
  induction n generalizing s with
  | zero => exact h
  | succ n ih => exact ih (kept_draw h)

theorem kept_blur {s0 s : State} (a : Nat) (lo : Nat) (hi : Nat) (bytes : List Byte) (hkept : Kept s0 s) :
    Kept s0 (State.blur s a lo hi bytes).2 := by
  unfold State.blur
  try dsimp only
  repeat' with_reducible first
    | assumption | apply kept_drawBytes | refine Kept.fst (by assumption) ?_ | intro _ | refine Kept.getD ?_ ?_
    | refine Kept.ite ?_ ?_ | refine Kept.ite1 ?_ ?_ | refine Kept.ite2 ?_ ?_ | dsimp only | split

theorem kept_poisonCopy {s0 s : State} (d : Nat) (len : Nat) (bad : Nat × Nat) (hkept : Kept s0 s) :
    Kept s0 (State.poisonCopy s d len bad) := by
  unfold State.poisonCopy
  try dsimp only
  repeat' with_reducible first
    | assumption | apply kept_markPoison | refine Kept.foldl ?_ ?_ | refine Kept.foldl1 ?_ ?_ | intro _
    | refine Kept.ite ?_ ?_ | refine Kept.ite1 ?_ ?_ | dsimp only | split

theorem kept_copyPiece {s0 s : State} (tok : Nat) (d : Desc) (fill : Bool) (ext : List Byte) (p : Nat × Nat) (segs : List (List Seg)) (hkept : Kept s0 s) :
    Kept s0 (State.copyPiece s tok d fill ext p segs).1 := by
  unfold State.copyPiece
  try dsimp only
  repeat' with_reducible first
    | assumption | apply kept_originateFor | apply kept_readSegs | apply kept_writeSegs | apply kept_selfRefused
    | apply kept_fabPutLines | apply kept_loadSelf | apply kept_blur | apply kept_poisonCopy
    | refine Kept.fst (by assumption) ?_ | refine Kept.snd (by assumption) ?_ | intro _ | refine Kept.getD ?_ ?_
    | refine Kept.ite ?_ ?_ | refine Kept.ite1 ?_ ?_ | (simp only [Kept.lit]; refine Kept.toF ?_) | dsimp only | split

theorem kept_copyStep {s0 : State} (tok : Nat) (d : Desc) (fill : Bool) (a : State × Bool × List Byte)
    (e : (Nat × Nat) × List (List Seg)) (h : Kept s0 a.1) : Kept s0 (State.copyStep tok d fill a e).1 := by
  have k := kept_copyPiece tok d fill a.2.2 e.1 e.2 h
  unfold State.copyStep
  split
  rename_i h2
  rw [h2] at k
  exact k

theorem kept_copyRun {s0 s : State} (tok : Nat) (d : Desc) (fill : Bool) (ext : List Byte) (done : List (List (List Seg))) (stop : Option Cpl) (hkept : Kept s0 s) :
    Kept s0 (State.copyRun s tok d fill ext done stop).1 := by
  unfold State.copyRun
  try dsimp only
  repeat' with_reducible first
    | assumption | apply kept_copyStep | refine Kept.foldl ?_ ?_ | refine Kept.foldl1 ?_ ?_
    | refine Kept.fst (by assumption) ?_ | intro _ | refine Kept.ite ?_ ?_ | refine Kept.ite1 ?_ ?_
    | (simp only [Kept.lit]; refine Kept.toF ?_) | dsimp only | split

theorem kept_execCopy {s0 s : State} (tok : Nat) (ext : List Byte) (hkept : Kept s0 s) :
    KeptO s0 (execCopy tok ext s) := by
  unfold execCopy
  try dsimp only
  repeat' with_reducible first
    | assumption | apply kept_runTiles | apply kept_copyRun | intro _ | refine KeptO.next ?_ | dsimp only

theorem kept_execFill {s0 s : State} (tok : Nat) (ext : List Byte) (hkept : Kept s0 s) :
    KeptO s0 (execFill tok ext s) := by
  unfold execFill
  try dsimp only
  repeat' with_reducible first
    | assumption | apply kept_runTiles | apply kept_copyRun | intro _ | refine KeptO.next ?_ | dsimp only

end Sys2Proof.Machine
end

