-- ==== Sys2Proof/Laws/KeptHosts.lean ====
section
/-! SUPPORT. What the commands of translation, hosts, tiers and codecs keep: the canonical form of the memory, the queue, and the bound
of the fault records. -/

namespace Sys2Proof.Machine

set_option Elab.async false

theorem kept_effCtxCommit {s0 s : State} (v : Word) (hkept : Kept s0 s) :
    Kept s0 (effCtxCommit v s).1 := by
  unfold effCtxCommit
  try dsimp only
  repeat' with_reducible first
    | assumption | apply kept_setWord | apply kept_setEvt | refine Kept.fst (by assumption) ?_ | intro _
    | refine Kept.ite ?_ ?_ | refine Kept.ite1 ?_ ?_ | (simp only [Kept.lit]; refine Kept.toF ?_) | dsimp only | split

theorem kept_execXltCtxCommit {s0 s : State} (path : Nat) (value : Word) (cycle : Nat) (hkept : Kept s0 s) :
    KeptO s0 (execXltCtxCommit path value cycle s) := by
  unfold execXltCtxCommit
  try dsimp only
  repeat' with_reducible first
    | assumption | apply kept_guardPair | apply kept_effCtxCommit | intro _ | refine KeptO.next ?_ | dsimp only

theorem kept_applyContexts {s0 s : State} (hkept : Kept s0 s) :
    Kept s0 (State.applyContexts s) := by
  unfold State.applyContexts
  try dsimp only
  repeat' with_reducible first
    | assumption | apply kept_setEvt | apply kept_tlbDrop | refine Kept.foldl ?_ ?_ | refine Kept.foldl1 ?_ ?_
    | refine Kept.fst (by assumption) ?_ | intro _ | refine Kept.getD ?_ ?_
    | (simp only [Kept.lit]; refine Kept.toF ?_) | dsimp only | split

theorem kept_missRow {s0 s : State} (tok : Nat) (va : Nat) (access : Nat) (hkept : Kept s0 s) :
    Kept s0 (State.missRow s tok va access) := by
  unfold State.missRow
  try dsimp only
  repeat' with_reducible first
    | assumption | apply kept_translate1 | refine Kept.fst (by assumption) ?_ | intro _ | refine Kept.ite ?_ ?_
    | refine Kept.ite1 ?_ ?_ | (simp only [Kept.lit]; refine Kept.toF ?_) | dsimp only | split

theorem kept_execTlbMiss {s0 s : State} (tok : Nat) (va : Nat) (access : Nat) (hkept : Kept s0 s) :
    KeptO s0 (execTlbMiss tok va access s) := by
  unfold execTlbMiss
  try dsimp only
  repeat' with_reducible first
    | assumption | apply kept_missRow | intro _ | refine KeptO.next ?_ | dsimp only

theorem kept_walkEnd {s0 s : State} (w : Walk) (r : Walked) (hkept : Kept s0 s) :
    Kept s0 (State.walkEnd s w r) := by
  unfold State.walkEnd
  try dsimp only
  repeat' with_reducible first
    | assumption | apply kept_tlbInstall | apply kept_askMigration | apply kept_failWaits
    | refine Kept.fst (by assumption) ?_ | intro _ | refine Kept.ite ?_ ?_ | refine Kept.ite1 ?_ ?_
    | (simp only [Kept.lit]; refine Kept.toF ?_) | dsimp only | split

theorem kept_execWalkDone {s0 s : State} (ctx : Nat) (va : Nat) (host : List Nat) (hkept : Kept s0 s) :
    KeptO s0 (execWalkDone ctx va host s) := by
  unfold execWalkDone
  try dsimp only
  repeat' with_reducible first
    | assumption | apply kept_walkEnd | refine Kept.fst (by assumption) ?_ | intro _ | refine KeptO.next ?_
    | refine Kept.ite ?_ ?_ | refine Kept.ite1 ?_ ?_ | (simp only [Kept.lit]; refine Kept.toF ?_) | dsimp only | split

theorem kept_execMissTimeout {s0 s : State} (req : Nat) (hkept : Kept s0 s) :
    KeptO s0 (execMissTimeout req s) := by
  unfold execMissTimeout
  try dsimp only
  repeat' with_reducible first
    | assumption | apply kept_setEvt | apply kept_failWaits | refine Kept.fst (by assumption) ?_ | intro _
    | refine KeptO.next ?_ | refine Kept.ite ?_ ?_ | refine Kept.ite1 ?_ ?_
    | (simp only [Kept.lit]; refine Kept.toF ?_) | dsimp only | split

theorem kept_writeLeaf {s0 s : State} (c : Nat) (key : Nat) (host : Bool) (a : Nat) (v : Nat) (hkept : Kept s0 s) :
    Kept s0 (State.writeLeaf s c key host a v) := by
  unfold State.writeLeaf
  try dsimp only
  repeat' with_reducible first
    | assumption | apply kept_emit | apply kept_homeWrite | intro _ | refine Kept.ite ?_ ?_ | refine Kept.ite1 ?_ ?_
    | dsimp only | split

theorem kept_migFailed {s0 s : State} (c : Nat) (va : Nat) (len : Nat) (reason : Nat) (hkept : Kept s0 s) :
    Kept s0 (State.migFailed s c va len reason) := by
  unfold State.migFailed
  try dsimp only
  repeat' with_reducible first
    | assumption | apply kept_setEvt | apply kept_failWaits | intro _ | dsimp only

theorem kept_startMigration {s0 s : State} (c : Nat) (va : Nat) (key : Nat) (e : Nat) (level : Nat) (lh : Bool) (a : Nat) (given : Nat) (hkept : Kept s0 s) :
    Kept s0 (State.startMigration s c va key e level lh a given) := by
  unfold State.startMigration
  try dsimp only
  repeat' with_reducible first
    | assumption | apply kept_tlbDrop | apply kept_writeLeaf | apply kept_migFailed
    | refine Kept.fst (by assumption) ?_ | intro _ | refine Kept.ite ?_ ?_ | refine Kept.ite1 ?_ ?_
    | (simp only [Kept.lit]; refine Kept.toF ?_) | dsimp only | split

theorem kept_execMigrationStart {s0 s : State} (ctx : Nat) (va : Nat) (host : List Nat) (leaf : Nat) (hkept : Kept s0 s) :
    KeptO s0 (execMigrationStart ctx va host leaf s) := by
  unfold execMigrationStart
  try dsimp only
  repeat' with_reducible first
    | assumption | apply kept_failWaits | apply kept_startMigration | refine Kept.fst (by assumption) ?_ | intro _
    | refine KeptO.next ?_ | refine Kept.ite ?_ ?_ | refine Kept.ite1 ?_ ?_
    | (simp only [Kept.lit]; refine Kept.toF ?_) | dsimp only | split

theorem kept_endMigration {s0 s : State} (m : Migration) (data : List Byte) (now : Nat) (hkept : Kept s0 s) :
    Kept s0 (State.endMigration s m data now) := by
  unfold State.endMigration
  try dsimp only
  repeat' with_reducible first
    | assumption | apply kept_homeWrite | apply kept_writeLeaf | intro _ | refine Kept.ite ?_ ?_
    | refine Kept.ite1 ?_ ?_ | (simp only [Kept.lit]; refine Kept.toF ?_) | dsimp only | split

theorem kept_execMigrationCopyDone {s0 s : State} (ctx : Nat) (va : Nat) (data : List Byte) (leaf : Nat) (hkept : Kept s0 s) :
    KeptO s0 (execMigrationCopyDone ctx va data leaf s) := by
  unfold execMigrationCopyDone
  try dsimp only
  repeat' with_reducible first
    | assumption | apply kept_endMigration | refine Kept.fst (by assumption) ?_ | intro _ | refine KeptO.next ?_
    | refine Kept.ite ?_ ?_ | refine Kept.ite1 ?_ ?_ | (simp only [Kept.lit]; refine Kept.toF ?_) | dsimp only | split

theorem kept_execMigrationTimeout {s0 s : State} (ctx : Nat) (va : Nat) (hkept : Kept s0 s) :
    KeptO s0 (execMigrationTimeout ctx va s) := by
  unfold execMigrationTimeout
  try dsimp only
  repeat' with_reducible first
    | assumption | apply kept_migFailed | refine Kept.fst (by assumption) ?_ | intro _ | refine KeptO.next ?_
    | refine Kept.ite ?_ ?_ | refine Kept.ite1 ?_ ?_ | (simp only [Kept.lit]; refine Kept.toF ?_) | dsimp only | split

theorem kept_applyInv {s0 s : State} (i : InvScope) (hkept : Kept s0 s) :
    Kept s0 (State.applyInv s i) := by
  unfold State.applyInv
  try dsimp only
  repeat' with_reducible first
    | assumption | apply kept_tlbDrop | intro _ | (simp only [Kept.lit]; refine Kept.toF ?_) | dsimp only

theorem kept_execInvalidate {s0 s : State} (tok : Nat) (hkept : Kept s0 s) :
    KeptO s0 (execInvalidate tok s) := by
  unfold execInvalidate
  try dsimp only
  repeat' with_reducible first
    | assumption | apply kept_runDesc | apply kept_applyInv | intro _ | refine KeptO.next ?_ | dsimp only

theorem kept_execXltSetRoot {s0 s : State} (tok : Nat) (hkept : Kept s0 s) :
    KeptO s0 (execXltSetRoot tok s) := by
  unfold execXltSetRoot
  try dsimp only
  repeat' with_reducible first
    | assumption | apply kept_runDesc | apply kept_applyInv | intro _ | refine KeptO.next ?_
    | (simp only [Kept.lit]; refine Kept.toF ?_) | dsimp only

theorem kept_execInvalidateComplete {s0 s : State} (tok : Nat) (hkept : Kept s0 s) :
    KeptO s0 (execInvalidateComplete tok s) := by
  unfold execInvalidateComplete
  try dsimp only
  repeat' with_reducible first
    | assumption | apply kept_opEnd | apply kept_flushReads | refine Kept.fst (by assumption) ?_ | intro _
    | refine KeptO.next ?_ | refine Kept.ite ?_ ?_ | refine Kept.ite1 ?_ ?_
    | (simp only [Kept.lit]; refine Kept.toF ?_) | dsimp only | split

theorem kept_dropPage {s0 s : State} (c : Nat) (page : Nat) (size : Nat) (hkept : Kept s0 s) :
    Kept s0 (State.dropPage s c page size) := by
  unfold State.dropPage
  try dsimp only
  repeat' with_reducible first
    | assumption | apply kept_tlbDrop | intro _ | dsimp only

theorem Kept.foldMoved : True := trivial

def KeptM (s0 : State) : Moved → Prop
  | .ok s _ _ _ _ => Kept s0 s
  | .stop s _ => Kept s0 s
  | .wait s => Kept s0 s

theorem KeptM.ok {s0 s : State} {n k : Nat} {l : List Nat} {b : List Byte} (h : Kept s0 s) : KeptM s0 (.ok s n k l b) := h
theorem KeptM.wait {s0 s : State} (h : Kept s0 s) : KeptM s0 (.wait s) := h
theorem KeptM.stop {s0 s : State} {r : Nat} (h : Kept s0 s) : KeptM s0 (.stop s r) := h
theorem Kept.ofOk {s0 t : State} {r : Moved} {n k : Nat} {l : List Nat} {b : List Byte} (e : r = .ok t n k l b) (h : KeptM s0 r) :
    Kept s0 t := by
  rw [e] at h; exact h
theorem Kept.ofMWait {s0 t : State} {r : Moved} (e : r = .wait t) (h : KeptM s0 r) : Kept s0 t := by
  rw [e] at h; exact h
theorem Kept.ofMStop {s0 t : State} {r : Moved} {c : Nat} (e : r = .stop t c) (h : KeptM s0 r) : Kept s0 t := by
  rw [e] at h; exact h

theorem kept_prefetchPage {s0 s : State} (tok key c va : Nat) (host : List Nat) (ext : List Byte) (h : Kept s0 s) :
    KeptM s0 (s.prefetchPage tok key c va host ext) := by
  unfold State.prefetchPage
  try dsimp only
  repeat' with_reducible first
    | assumption | apply kept_writeLeaf | apply kept_endMigration | apply kept_dropPage
    | refine Kept.fst (by assumption) ?_ | refine KeptM.ok ?_ | refine KeptM.wait ?_ | refine KeptM.stop ?_ | intro _
    | refine Kept.ite ?_ ?_ | refine Kept.ite1 ?_ ?_ | (simp only [Kept.lit]; refine Kept.toF ?_) | dsimp only | split

theorem kept_advisePage {s0 s : State} (advice : Nat) (tok : Nat) (key : Nat) (c : Nat) (va : Nat) (host : List Nat) (hkept : Kept s0 s) :
    KeptM s0 (State.advisePage s advice tok key c va host) := by
  unfold State.advisePage
  try dsimp only
  repeat' with_reducible first
    | assumption | apply kept_emit | apply kept_writeLeaf | apply kept_dropPage | refine Kept.fst (by assumption) ?_
    | refine KeptM.ok ?_ | refine KeptM.wait ?_ | refine KeptM.stop ?_ | intro _ | refine Kept.ite ?_ ?_
    | refine Kept.ite1 ?_ ?_ | (simp only [Kept.lit]; refine Kept.toF ?_) | dsimp only | split

theorem kept_moveRange {s0 s : State} (step : State → Nat → List Nat → List Byte → Moved)
    (hs : ∀ s a b c, Kept s0 s → KeptM s0 (step s a b c)) (fuel va last n : Nat) (host : List Nat) (ext : List Byte)
    (h : Kept s0 s) : Kept s0 (State.moveRange step fuel va last n host ext s).1 := by
  induction fuel generalizing va last n host ext s with
  | zero => exact h
  | succ f ih =>
    have h1 := hs s va host ext h
    unfold State.moveRange
    split
    · exact h
    · split <;> rename_i e <;> rw [e] at h1
      · exact h1
      · exact h1
      · exact ih _ _ _ _ _ h1

theorem kept_postMove {s0 s : State} (tok : Nat) (d : Desc) (kind : Nat) (access : Nat) (hkept : Kept s0 s) :
    Kept s0 (State.postMove s tok d kind access).1 := by
  unfold State.postMove
  try dsimp only
  repeat' with_reducible first
    | assumption | apply kept_postXlt | refine Kept.fst (by assumption) ?_ | refine Kept.some (by assumption) ?_
    | intro _ | refine KeptP.some ?_ | exact KeptP.none _ | (simp only [Kept.lit]; refine Kept.toF ?_) | dsimp only
    | split

theorem kept_moveRow {s0 s : State} (tok : Nat) (advise : Bool) (host : List Nat) (ext : List Byte) (hkept : Kept s0 s) :
    Kept s0 (State.moveRow s tok advise host ext) := by
  unfold State.moveRow
  try dsimp only
  repeat' with_reducible first
    | assumption | apply kept_runDesc | apply kept_prefetchPage | apply kept_advisePage | apply kept_moveRange
    | apply kept_postMove | refine Kept.fst (by assumption) ?_ | refine Kept.ofOk (by assumption) ?_
    | refine Kept.ofMWait (by assumption) ?_ | refine Kept.ofMStop (by assumption) ?_ | intro _ | refine Kept.ite ?_ ?_
    | refine Kept.ite1 ?_ ?_ | (simp only [Kept.lit]; refine Kept.toF ?_) | dsimp only | split

theorem kept_execPrefetch {s0 s : State} (tok : Nat) (host : List Nat) (ext : List Byte) (hkept : Kept s0 s) :
    KeptO s0 (execPrefetch tok host ext s) := by
  unfold execPrefetch
  try dsimp only
  repeat' with_reducible first
    | assumption | apply kept_moveRow | intro _ | refine KeptO.next ?_ | dsimp only

theorem kept_execAdvise {s0 s : State} (tok : Nat) (host : List Nat) (hkept : Kept s0 s) :
    KeptO s0 (execAdvise tok host s) := by
  unfold execAdvise
  try dsimp only
  repeat' with_reducible first
    | assumption | apply kept_moveRow | intro _ | refine KeptO.next ?_ | dsimp only

theorem kept_fillDone {s0 s : State} (a : AssistReq) (hkept : Kept s0 s) :
    Kept s0 (State.fillDone s a) := by
  unfold State.fillDone
  try dsimp only
  repeat' with_reducible first
    | assumption | apply kept_opEnd | refine Kept.fst (by assumption) ?_ | intro _
    | (simp only [Kept.lit]; refine Kept.toF ?_) | dsimp only | split

theorem kept_fillFail {s0 s : State} (a : AssistReq) (reason : Nat) (hkept : Kept s0 s) :
    Kept s0 (State.fillFail s a reason) := by
  unfold State.fillFail
  try dsimp only
  repeat' with_reducible first
    | assumption | apply kept_opEnd | apply kept_failWaits | refine Kept.fst (by assumption) ?_ | intro _
    | (simp only [Kept.lit]; refine Kept.toF ?_) | dsimp only | split

theorem kept_fillRequest {s0 s : State} (d : Desc) (req : Nat) (a : AssistReq) (hkept : Kept s0 s) :
    Kept s0 (State.fillRequest s d req a).1 := by
  unfold State.fillRequest
  try dsimp only
  repeat' with_reducible first
    | assumption | apply kept_tlbInstall | apply kept_walkEnd | apply kept_fillDone | apply kept_fillFail
    | refine Kept.fst (by assumption) ?_ | intro _ | refine Kept.ite ?_ ?_ | refine Kept.ite1 ?_ ?_
    | (simp only [Kept.lit]; refine Kept.toF ?_) | dsimp only | split

theorem kept_execXltFill {s0 s : State} (tok : Nat) (hkept : Kept s0 s) :
    KeptO s0 (execXltFill tok s) := by
  unfold execXltFill
  try dsimp only
  repeat' with_reducible first
    | assumption | apply kept_setEvt | apply kept_runDesc | apply kept_postXlt | apply kept_fillRequest
    | refine Kept.fst (by assumption) ?_ | refine Kept.some (by assumption) ?_ | intro _ | refine KeptP.some ?_
    | exact KeptP.none _ | refine KeptO.next ?_ | refine Kept.getD ?_ ?_ | refine Kept.ite ?_ ?_
    | refine Kept.ite1 ?_ ?_ | (simp only [Kept.lit]; refine Kept.toF ?_) | dsimp only | split

theorem kept_setHport {s0 s : State} (p : Nat) (h : HostPort) (hkept : Kept s0 s) :
    Kept s0 (State.setHport s p h) := by
  unfold State.setHport
  try dsimp only
  repeat' with_reducible first
    | assumption | intro _ | (simp only [Kept.lit]; refine Kept.toF ?_) | dsimp only

theorem kept_hostDrop {s0 s : State} (port : Nat) (dec : Nat) (off : Nat) (reason : Nat) (req : HostReq) (hkept : Kept s0 s) :
    Kept s0 (State.hostDrop s port dec off reason req) := by
  unfold State.hostDrop
  try dsimp only
  repeat' with_reducible first
    | assumption | apply kept_setEvt | apply kept_hostPoison | apply kept_hostCmp | apply kept_setHport | intro _
    | refine Kept.ite ?_ ?_ | refine Kept.ite1 ?_ ?_ | (simp only [Kept.lit]; refine Kept.toF ?_) | dsimp only | split

theorem kept_writeback {s0 s : State} (h : Nat) (line : Nat) (slot : Nat) (data : List Byte) (mask : Nat) (hkept : Kept s0 s) :
    Kept s0 (State.writeback s h line slot data mask) := by
  unfold State.writeback
  try dsimp only
  repeat' with_reducible first
    | assumption | apply kept_hostStoreCmp | apply kept_staleAccess | intro _ | refine Kept.ite ?_ ?_
    | refine Kept.ite1 ?_ ?_ | dsimp only | split

theorem kept_hostAtLine {s0 s : State} (h : Nat) (line : Nat) (slot : Nat) (req : HostReq) (hkept : Kept s0 s) :
    Kept s0 (State.hostAtLine s h line slot req) := by
  unfold State.hostAtLine
  try dsimp only
  repeat' with_reducible first
    | assumption | apply kept_park | apply kept_hostServe | refine Kept.fst (by assumption) ?_ | intro _
    | (simp only [Kept.lit]; refine Kept.toF ?_) | dsimp only | split

theorem kept_hostAtExtent {s0 s : State} (port : Nat) (dec : Nat) (off : Nat) (d : Nat) (e : Word) (req : HostReq) (hkept : Kept s0 s) :
    Kept s0 (State.hostAtExtent s port dec off d e req) := by
  unfold State.hostAtExtent
  try dsimp only
  repeat' with_reducible first
    | assumption | apply kept_pump | apply kept_hostDrop | apply kept_writeback | apply kept_hostAtLine
    | refine Kept.fst (by assumption) ?_ | intro _ | refine Kept.ite ?_ ?_ | refine Kept.ite1 ?_ ?_
    | (simp only [Kept.lit]; refine Kept.toF ?_) | dsimp only | split

theorem kept_setShared {s0 s : State} (r : Nat) (x : SharedRange) (hkept : Kept s0 s) :
    Kept s0 (State.setShared s r x) := by
  unfold State.setShared
  try dsimp only
  repeat' with_reducible first
    | assumption | intro _ | (simp only [Kept.lit]; refine Kept.toF ?_) | dsimp only

theorem kept_startCow {s0 s : State} (r : Nat) (g : Nat) (port : Nat) (off : Nat) (req : HostReq) (hkept : Kept s0 s) :
    Kept s0 (State.startCow s r g port off req) := by
  unfold State.startCow
  try dsimp only
  repeat' with_reducible first
    | assumption | apply kept_setEvt | apply kept_hostDrop | apply kept_setShared | refine Kept.fst (by assumption) ?_
    | intro _ | (simp only [Kept.lit]; refine Kept.toF ?_) | dsimp only | split

theorem kept_shrRequest {s0 s : State} (r : Nat) (port : Nat) (off : Nat) (req : HostReq) (hkept : Kept s0 s) :
    Kept s0 (State.shrRequest s r port off req) := by
  unfold State.shrRequest
  try dsimp only
  repeat' with_reducible first
    | assumption | apply kept_hostDrop | apply kept_hostAtExtent | apply kept_setShared | apply kept_startCow
    | refine Kept.fst (by assumption) ?_ | intro _ | refine Kept.ite ?_ ?_ | refine Kept.ite1 ?_ ?_
    | (simp only [Kept.lit]; refine Kept.toF ?_) | dsimp only | split

theorem kept_hostRequest {s0 s : State} (port : Nat) (dec : Nat) (off : Nat) (req : HostReq) (hkept : Kept s0 s) :
    Kept s0 (State.hostRequest s port dec off req) := by
  unfold State.hostRequest
  try dsimp only
  repeat' with_reducible first
    | assumption | apply kept_hostDrop | apply kept_hostAtExtent | apply kept_shrRequest
    | refine Kept.fst (by assumption) ?_ | intro _ | refine Kept.ite ?_ ?_ | refine Kept.ite1 ?_ ?_
    | (simp only [Kept.lit]; refine Kept.toF ?_) | dsimp only | split

theorem kept_execMemRd {s0 s : State} (port : Nat) (dec : Nat) (off : Nat) (m : MetaVal) (hkept : Kept s0 s) :
    KeptO s0 (execMemRd port dec off m s) := by
  unfold execMemRd
  try dsimp only
  repeat' with_reducible first
    | assumption | apply kept_hostRequest | intro _ | refine KeptO.next ?_ | dsimp only

theorem kept_execMemRdData {s0 s : State} (port : Nat) (dec : Nat) (off : Nat) (hkept : Kept s0 s) :
    KeptO s0 (execMemRdData port dec off s) := by
  unfold execMemRdData
  try dsimp only
  repeat' with_reducible first
    | assumption | apply kept_hostRequest | intro _ | refine KeptO.next ?_ | dsimp only

theorem kept_execMemInv {s0 s : State} (port : Nat) (dec : Nat) (off : Nat) (hkept : Kept s0 s) :
    KeptO s0 (execMemInv port dec off s) := by
  unfold execMemInv
  try dsimp only
  repeat' with_reducible first
    | assumption | apply kept_hostRequest | intro _ | refine KeptO.next ?_ | dsimp only

theorem kept_execMemInvNt {s0 s : State} (port : Nat) (dec : Nat) (off : Nat) (hkept : Kept s0 s) :
    KeptO s0 (execMemInvNt port dec off s) := by
  unfold execMemInvNt
  try dsimp only
  repeat' with_reducible first
    | assumption | apply kept_hostRequest | intro _ | refine KeptO.next ?_ | dsimp only

theorem kept_execMemClnEvct {s0 s : State} (port : Nat) (dec : Nat) (off : Nat) (hkept : Kept s0 s) :
    KeptO s0 (execMemClnEvct port dec off s) := by
  unfold execMemClnEvct
  try dsimp only
  repeat' with_reducible first
    | assumption | apply kept_hostRequest | intro _ | refine KeptO.next ?_ | dsimp only

theorem kept_execMemWr {s0 s : State} (port : Nat) (dec : Nat) (off : Nat) (m : MetaVal) (data : List Byte) (hkept : Kept s0 s) :
    KeptO s0 (execMemWr port dec off m data s) := by
  unfold execMemWr
  try dsimp only
  repeat' with_reducible first
    | assumption | apply kept_hostRequest | intro _ | refine KeptO.next ?_ | dsimp only

theorem kept_execMemWrPtl {s0 s : State} (port : Nat) (dec : Nat) (off : Nat) (m : MetaVal) (data : List Byte) (mask : Nat) (hkept : Kept s0 s) :
    KeptO s0 (execMemWrPtl port dec off m data mask s) := by
  unfold execMemWrPtl
  try dsimp only
  repeat' with_reducible first
    | assumption | apply kept_hostRequest | intro _ | refine KeptO.next ?_ | dsimp only

theorem kept_execMemRdFwd {s0 s : State} (port : Nat) (dec : Nat) (off : Nat) (m : MetaVal) (hkept : Kept s0 s) :
    KeptO s0 (execMemRdFwd port dec off m s) := by
  unfold execMemRdFwd
  try dsimp only
  repeat' with_reducible first
    | assumption | apply kept_hostRequest | intro _ | refine KeptO.next ?_ | dsimp only

theorem kept_execMemWrFwd {s0 s : State} (port : Nat) (dec : Nat) (off : Nat) (m : MetaVal) (data : List Byte) (hkept : Kept s0 s) :
    KeptO s0 (execMemWrFwd port dec off m data s) := by
  unfold execMemWrFwd
  try dsimp only
  repeat' with_reducible first
    | assumption | apply kept_hostRequest | intro _ | refine KeptO.next ?_ | dsimp only

theorem kept_execMemSpecRd {s0 s : State} (_port : Nat) (_dec : Nat) (_off : Nat) (hkept : Kept s0 s) :
    KeptO s0 (execMemSpecRd _port _dec _off s) := by
  unfold execMemSpecRd
  try dsimp only
  repeat' with_reducible first
    | assumption | intro _ | refine KeptO.next ?_ | dsimp only

theorem kept_execBar4Access {s0 s : State} (port : Nat) (off : Nat) (len : Nat) (write : Bool) (data : List Byte) (hkept : Kept s0 s) :
    KeptO s0 (execBar4Access port off len write data s) := by
  unfold execBar4Access
  try dsimp only
  repeat' with_reducible first
    | assumption | apply kept_hostDrop | apply kept_hostRequest | refine Kept.foldl ?_ ?_ | refine Kept.foldl1 ?_ ?_
    | intro _ | refine KeptO.next ?_ | refine Kept.ite ?_ ?_ | refine Kept.ite1 ?_ ?_ | dsimp only | split

theorem kept_recallAnswer {s0 s : State} (line : Nat) (host : Nat) (snp : Snp) (rsp : Rsp) (hkept : Kept s0 s) :
    Kept s0 (State.recallAnswer s line host snp rsp) := by
  unfold State.recallAnswer
  try dsimp only
  repeat' with_reducible first
    | assumption | apply kept_clearEntry | refine Kept.fst (by assumption) ?_ | intro _ | refine Kept.ite ?_ ?_
    | refine Kept.ite1 ?_ ?_ | (simp only [Kept.lit]; refine Kept.toF ?_) | dsimp only | split

theorem kept_closeRecall {s0 s : State} (line : Nat) (r : Recall) (hkept : Kept s0 s) :
    Kept s0 (State.closeRecall s line r) := by
  unfold State.closeRecall
  try dsimp only
  repeat' with_reducible first
    | assumption | apply kept_clearEntry | refine Kept.fst (by assumption) ?_ | intro _ | refine Kept.ite ?_ ?_
    | refine Kept.ite1 ?_ ?_ | (simp only [Kept.lit]; refine Kept.toF ?_) | dsimp only | split

theorem kept_biRsp {s0 s : State} (host : Nat) (line : Nat) (rsp : Rsp) (hkept : Kept s0 s) :
    Kept s0 (State.biRsp s host line rsp) := by
  unfold State.biRsp
  try dsimp only
  repeat' with_reducible first
    | assumption | apply kept_pump | apply kept_recallAnswer | apply kept_closeRecall
    | refine Kept.fst (by assumption) ?_ | intro _ | refine Kept.ite ?_ ?_ | refine Kept.ite1 ?_ ?_
    | (simp only [Kept.lit]; refine Kept.toF ?_) | dsimp only | split

theorem kept_execBiRspI {s0 s : State} (port : Nat) (line : Nat) (held : Bool) (hkept : Kept s0 s) :
    KeptO s0 (execBiRspI port line held s) := by
  unfold execBiRspI
  try dsimp only
  repeat' with_reducible first
    | assumption | apply kept_biRsp | refine Kept.fst (by assumption) ?_ | intro _ | refine KeptO.next ?_
    | refine Kept.ite ?_ ?_ | refine Kept.ite1 ?_ ?_ | (simp only [Kept.lit]; refine Kept.toF ?_) | dsimp only | split

theorem kept_execBiRspS {s0 s : State} (port : Nat) (line : Nat) (hkept : Kept s0 s) :
    KeptO s0 (execBiRspS port line s) := by
  unfold execBiRspS
  try dsimp only
  repeat' with_reducible first
    | assumption | apply kept_biRsp | intro _ | refine KeptO.next ?_ | dsimp only

theorem kept_execBiRspE {s0 s : State} (port : Nat) (line : Nat) (hkept : Kept s0 s) :
    KeptO s0 (execBiRspE port line s) := by
  unfold execBiRspE
  try dsimp only
  repeat' with_reducible first
    | assumption | apply kept_biRsp | intro _ | refine KeptO.next ?_ | dsimp only

theorem kept_execBiConflict {s0 s : State} (port : Nat) (line : Nat) (hkept : Kept s0 s) :
    KeptO s0 (execBiConflict port line s) := by
  unfold execBiConflict
  try dsimp only
  repeat' with_reducible first
    | assumption | apply kept_emit | refine Kept.fst (by assumption) ?_ | intro _ | refine KeptO.next ?_
    | refine Kept.ite ?_ ?_ | refine Kept.ite1 ?_ ?_ | (simp only [Kept.lit]; refine Kept.toF ?_) | dsimp only | split

theorem kept_execMinHoldExpiry {s0 s : State} (line : Nat) (hkept : Kept s0 s) :
    KeptO s0 (execMinHoldExpiry line s) := by
  unfold execMinHoldExpiry
  try dsimp only
  repeat' with_reducible first
    | assumption | apply kept_pump | refine Kept.fst (by assumption) ?_ | intro _ | refine KeptO.next ?_
    | refine Kept.ite ?_ ?_ | refine Kept.ite1 ?_ ?_ | (simp only [Kept.lit]; refine Kept.toF ?_) | dsimp only | split

theorem kept_domainDown {s0 s : State} (port : Nat) (line : Nat) (hkept : Kept s0 s) :
    Kept s0 (State.domainDown s port line) := by
  unfold State.domainDown
  try dsimp only
  repeat' with_reducible first
    | assumption | apply kept_setEvt | apply kept_event | apply kept_pump | intro _ | refine Kept.ite ?_ ?_
    | refine Kept.ite1 ?_ ?_ | (simp only [Kept.lit]; refine Kept.toF ?_) | dsimp only | split

theorem kept_execBiTimeout {s0 s : State} (port : Nat) (line : Nat) (hkept : Kept s0 s) :
    KeptO s0 (execBiTimeout port line s) := by
  unfold execBiTimeout
  try dsimp only
  repeat' with_reducible first
    | assumption | apply kept_domainDown | refine Kept.fst (by assumption) ?_ | intro _ | refine KeptO.next ?_
    | refine Kept.ite ?_ ?_ | refine Kept.ite1 ?_ ?_ | (simp only [Kept.lit]; refine Kept.toF ?_) | dsimp only | split

theorem kept_execDomainWalkDone {s0 s : State} (hkept : Kept s0 s) :
    KeptO s0 (execDomainWalkDone s) := by
  unfold execDomainWalkDone
  try dsimp only
  repeat' with_reducible first
    | assumption | apply kept_setEvt | apply kept_markPoison | apply kept_pump | refine Kept.foldl ?_ ?_
    | refine Kept.foldl1 ?_ ?_ | refine Kept.fst (by assumption) ?_ | intro _ | refine KeptO.next ?_
    | refine Kept.ite ?_ ?_ | refine Kept.ite1 ?_ ?_ | (simp only [Kept.lit]; refine Kept.toF ?_) | dsimp only | split

theorem kept_effDomainReset {s0 s : State} (v : Word) (hkept : Kept s0 s) :
    Kept s0 (effDomainReset v s).1 := by
  unfold effDomainReset
  try dsimp only
  repeat' with_reducible first
    | assumption | apply kept_setEvt | intro _ | refine Kept.ite ?_ ?_ | refine Kept.ite1 ?_ ?_
    | (simp only [Kept.lit]; refine Kept.toF ?_) | dsimp only | split

theorem kept_execDirDomainReset {s0 s : State} (path : Nat) (value : Word) (cycle : Nat) (hkept : Kept s0 s) :
    KeptO s0 (execDirDomainReset path value cycle s) := by
  unfold execDirDomainReset
  try dsimp only
  repeat' with_reducible first
    | assumption | apply kept_guardPair | apply kept_effDomainReset | intro _ | refine KeptO.next ?_ | dsimp only

theorem kept_extErr {s0 s : State} (n : Nat) (reason : Nat) (hkept : Kept s0 s) :
    Kept s0 (State.extErr s n reason) := by
  unfold State.extErr
  try dsimp only
  repeat' with_reducible first
    | assumption | apply kept_setWord | intro _ | dsimp only

theorem kept_startRevoke {s0 s : State} (k : Nat) (hkept : Kept s0 s) :
    Kept s0 (State.startRevoke s k) := by
  unfold State.startRevoke
  try dsimp only
  repeat' with_reducible first
    | assumption | apply kept_park | apply kept_pump | refine Kept.foldl ?_ ?_ | refine Kept.foldl1 ?_ ?_ | intro _
    | (simp only [Kept.lit]; refine Kept.toF ?_) | dsimp only

theorem kept_effExtEntry {s0 s : State} (v : Word) (hkept : Kept s0 s) :
    Kept s0 (effExtEntry v s).1 := by
  unfold effExtEntry
  try dsimp only
  repeat' with_reducible first
    | assumption | apply kept_extErr | apply kept_startRevoke | refine Kept.fst (by assumption) ?_ | intro _
    | refine Kept.ite ?_ ?_ | refine Kept.ite1 ?_ ?_ | (simp only [Kept.lit]; refine Kept.toF ?_) | dsimp only | split

theorem kept_execHifExtEntryWrite {s0 s : State} (path : Nat) (value : Word) (cycle : Nat) (hkept : Kept s0 s) :
    KeptO s0 (execHifExtEntryWrite path value cycle s) := by
  unfold execHifExtEntryWrite
  try dsimp only
  repeat' with_reducible first
    | assumption | apply kept_guardPair | apply kept_effExtEntry | intro _ | refine KeptO.next ?_ | dsimp only

theorem kept_execRevocationComplete {s0 s : State} (ext : Nat) (hkept : Kept s0 s) :
    KeptO s0 (execRevocationComplete ext s) := by
  unfold execRevocationComplete
  try dsimp only
  repeat' with_reducible first
    | assumption | apply kept_setEvt | intro _ | refine KeptO.next ?_ | refine Kept.ite ?_ ?_ | refine Kept.ite1 ?_ ?_
    | (simp only [Kept.lit]; refine Kept.toF ?_) | dsimp only | split

theorem kept_effLayout {s0 s : State} (v : Word) (hkept : Kept s0 s) :
    Kept s0 (effLayout v s).1 := by
  unfold effLayout
  try dsimp only
  repeat' with_reducible first
    | assumption | apply kept_setHport | intro _ | refine Kept.ite ?_ ?_ | refine Kept.ite1 ?_ ?_
    | (simp only [Kept.lit]; refine Kept.toF ?_) | dsimp only | split

theorem kept_execHifLayoutWrite {s0 s : State} (path : Nat) (value : Word) (cycle : Nat) (hkept : Kept s0 s) :
    KeptO s0 (execHifLayoutWrite path value cycle s) := by
  unfold execHifLayoutWrite
  try dsimp only
  repeat' with_reducible first
    | assumption | apply kept_guardPair | apply kept_effLayout | intro _ | refine KeptO.next ?_ | dsimp only

theorem kept_effPortCfg {s0 s : State} (v : Word) (hkept : Kept s0 s) :
    Kept s0 (effPortCfg v s).1 := by
  unfold effPortCfg
  try dsimp only
  repeat' with_reducible first
    | assumption | apply kept_setHport | intro _ | refine Kept.ite ?_ ?_ | refine Kept.ite1 ?_ ?_
    | (simp only [Kept.lit]; refine Kept.toF ?_) | dsimp only | split

theorem kept_execHifPortCfgWrite {s0 s : State} (path : Nat) (value : Word) (cycle : Nat) (hkept : Kept s0 s) :
    KeptO s0 (execHifPortCfgWrite path value cycle s) := by
  unfold execHifPortCfgWrite
  try dsimp only
  repeat' with_reducible first
    | assumption | apply kept_guardPair | apply kept_effPortCfg | intro _ | refine KeptO.next ?_ | dsimp only

theorem kept_execHdmDecoderCommit {s0 s : State} (port : Nat) (dec : Nat) (base : Nat) (sizeGib : Nat) (hkept : Kept s0 s) :
    KeptO s0 (execHdmDecoderCommit port dec base sizeGib s) := by
  unfold execHdmDecoderCommit
  try dsimp only
  repeat' with_reducible first
    | assumption | apply kept_setHport | intro _ | refine KeptO.next ?_ | refine Kept.ite ?_ ?_
    | refine Kept.ite1 ?_ ?_ | (simp only [Kept.lit]; refine Kept.toF ?_) | dsimp only | split

theorem kept_effShrCommit {s0 s : State} (v : Word) (hkept : Kept s0 s) :
    Kept s0 (effShrCommit v s).1 := by
  unfold effShrCommit
  try dsimp only
  repeat' with_reducible first
    | assumption | apply kept_setShared | apply kept_extErr | refine Kept.fst (by assumption) ?_ | intro _
    | refine Kept.ite ?_ ?_ | refine Kept.ite1 ?_ ?_ | (simp only [Kept.lit]; refine Kept.toF ?_) | dsimp only | split

theorem kept_execHifShrCommit {s0 s : State} (path : Nat) (value : Word) (cycle : Nat) (hkept : Kept s0 s) :
    KeptO s0 (execHifShrCommit path value cycle s) := by
  unfold execHifShrCommit
  try dsimp only
  repeat' with_reducible first
    | assumption | apply kept_guardPair | apply kept_effShrCommit | intro _ | refine KeptO.next ?_ | dsimp only

theorem kept_execCowCopyDone {s0 s : State} (range : Nat) (granule : Nat) (hkept : Kept s0 s) :
    KeptO s0 (execCowCopyDone range granule s) := by
  unfold execCowCopyDone
  try dsimp only
  repeat' with_reducible first
    | assumption | apply kept_homeWrite | apply kept_markPoison | apply kept_setShared | apply kept_hostRequest
    | refine Kept.foldl ?_ ?_ | refine Kept.foldl1 ?_ ?_ | refine Kept.fst (by assumption) ?_ | intro _
    | refine KeptO.next ?_ | (simp only [Kept.lit]; refine Kept.toF ?_) | dsimp only | split

theorem kept_cxlAnswer {s0 s : State} (port : Nat) (code : Nat) (hkept : Kept s0 s) :
    Kept s0 (State.cxlAnswer s port code) := by
  unfold State.cxlAnswer
  try dsimp only
  repeat' with_reducible first
    | assumption | apply kept_emit | apply kept_draw | refine Kept.fst (by assumption) ?_
    | refine Kept.snd (by assumption) ?_ | intro _ | dsimp only | split

theorem kept_execIdentify {s0 s : State} (port : Nat) (hkept : Kept s0 s) :
    KeptO s0 (execIdentify port s) := by
  unfold execIdentify
  try dsimp only
  repeat' with_reducible first
    | assumption | apply kept_cxlAnswer | intro _ | refine KeptO.next ?_ | dsimp only

theorem kept_execGetPartitionInfo {s0 s : State} (port : Nat) (hkept : Kept s0 s) :
    KeptO s0 (execGetPartitionInfo port s) := by
  unfold execGetPartitionInfo
  try dsimp only
  repeat' with_reducible first
    | assumption | apply kept_cxlAnswer | intro _ | refine KeptO.next ?_ | dsimp only

theorem kept_execGetEventRecords {s0 s : State} (port : Nat) (hkept : Kept s0 s) :
    KeptO s0 (execGetEventRecords port s) := by
  unfold execGetEventRecords
  try dsimp only
  repeat' with_reducible first
    | assumption | apply kept_emit | intro _ | refine KeptO.next ?_ | dsimp only

theorem kept_execClearEventRecords {s0 s : State} (port : Nat) (hkept : Kept s0 s) :
    KeptO s0 (execClearEventRecords port s) := by
  unfold execClearEventRecords
  try dsimp only
  repeat' with_reducible first
    | assumption | apply kept_emit | intro _ | refine KeptO.next ?_ | (simp only [Kept.lit]; refine Kept.toF ?_)
    | dsimp only

theorem kept_execGetPoisonList {s0 s : State} (port : Nat) (hkept : Kept s0 s) :
    KeptO s0 (execGetPoisonList port s) := by
  unfold execGetPoisonList
  try dsimp only
  repeat' with_reducible first
    | assumption | apply kept_emit | intro _ | refine KeptO.next ?_ | refine Kept.ite ?_ ?_ | refine Kept.ite1 ?_ ?_
    | dsimp only | split

theorem kept_execCdatRead {s0 s : State} (port : Nat) (hkept : Kept s0 s) :
    KeptO s0 (execCdatRead port s) := by
  unfold execCdatRead
  try dsimp only
  repeat' with_reducible first
    | assumption | apply kept_emit | apply kept_draw | refine Kept.fst (by assumption) ?_
    | refine Kept.snd (by assumption) ?_ | intro _ | refine KeptO.next ?_ | dsimp only | split

theorem kept_snapOpen {s0 s : State} (d : Desc) (hkept : Kept s0 s) :
    Kept s0 (State.snapOpen s d).1 := by
  unfold State.snapOpen
  try dsimp only
  repeat' with_reducible first
    | assumption | apply kept_setShared | refine Kept.fst (by assumption) ?_ | intro _ | refine Kept.ite ?_ ?_
    | refine Kept.ite1 ?_ ?_ | (simp only [Kept.lit]; refine Kept.toF ?_) | dsimp only | split

theorem kept_snapClose {s0 s : State} (d : Desc) (hkept : Kept s0 s) :
    Kept s0 (State.snapClose s d).1 := by
  unfold State.snapClose
  try dsimp only
  repeat' with_reducible first
    | assumption | apply kept_setShared | refine Kept.fst (by assumption) ?_ | intro _ | refine Kept.ite ?_ ?_
    | refine Kept.ite1 ?_ ?_ | (simp only [Kept.lit]; refine Kept.toF ?_) | dsimp only | split

theorem kept_snapRun {s0 s : State} (tok : Nat) (op : Nat) (k : Desc → State → State × Option Cpl) (hcb_k : ∀ x0 x1, Kept s0 x1 → Kept s0 (k x0 x1).1) (hkept : Kept s0 s) :
    Kept s0 (State.snapRun s tok op k) := by
  unfold State.snapRun
  try dsimp only
  repeat' with_reducible first
    | assumption | apply kept_runDesc | apply hcb_k | refine Kept.fst (by assumption) ?_ | intro _
    | (simp only [Kept.lit]; refine Kept.toF ?_) | dsimp only | split

theorem kept_execSnapOpen {s0 s : State} (tok : Nat) (hkept : Kept s0 s) :
    KeptO s0 (execSnapOpen tok s) := by
  unfold execSnapOpen
  try dsimp only
  repeat' with_reducible first
    | assumption | apply kept_snapOpen | apply kept_snapRun | intro _ | refine KeptO.next ?_ | dsimp only

theorem kept_execSnapClose {s0 s : State} (tok : Nat) (hkept : Kept s0 s) :
    KeptO s0 (execSnapClose tok s) := by
  unfold execSnapClose
  try dsimp only
  repeat' with_reducible first
    | assumption | apply kept_snapClose | apply kept_snapRun | intro _ | refine KeptO.next ?_ | dsimp only

theorem kept_execSnapPublish {s0 s : State} (tok : Nat) (hkept : Kept s0 s) :
    KeptO s0 (execSnapPublish tok s) := by
  unfold execSnapPublish
  try dsimp only
  repeat' with_reducible first
    | assumption | apply kept_setShared | apply kept_snapRun | intro _ | refine KeptO.next ?_
    | (simp only [Kept.lit]; refine Kept.toF ?_) | dsimp only

theorem kept_execSnapDiscard {s0 s : State} (tok : Nat) (hkept : Kept s0 s) :
    KeptO s0 (execSnapDiscard tok s) := by
  unfold execSnapDiscard
  try dsimp only
  repeat' with_reducible first
    | assumption | apply kept_setShared | apply kept_snapRun | intro _ | refine KeptO.next ?_
    | (simp only [Kept.lit]; refine Kept.toF ?_) | dsimp only

theorem kept_boundaryRange {s0 s : State} (r : Nat) (hkept : Kept s0 s) :
    Kept s0 (State.boundaryRange s r) := by
  unfold State.boundaryRange
  try dsimp only
  repeat' with_reducible first
    | assumption | apply kept_opEnd | apply kept_setShared | refine Kept.foldl ?_ ?_ | refine Kept.foldl1 ?_ ?_
    | refine Kept.fst (by assumption) ?_ | intro _ | refine Kept.getD ?_ ?_ | refine Kept.ite ?_ ?_
    | refine Kept.ite1 ?_ ?_ | (simp only [Kept.lit]; refine Kept.toF ?_) | dsimp only | split

theorem kept_applyShared {s0 s : State} (hkept : Kept s0 s) :
    Kept s0 (State.applyShared s) := by
  unfold State.applyShared
  try dsimp only
  repeat' with_reducible first
    | assumption | apply kept_boundaryRange | refine Kept.foldl ?_ ?_ | refine Kept.foldl1 ?_ ?_ | intro _ | dsimp only

theorem kept_setTier {s0 s : State} (f : TierState → TierState) (hkept : Kept s0 s) :
    Kept s0 (State.setTier s f) := by
  unfold State.setTier
  try dsimp only
  repeat' with_reducible first
    | assumption | intro _ | (simp only [Kept.lit]; refine Kept.toF ?_) | dsimp only

theorem kept_demote {s0 s : State} (g : Nat) (hkept : Kept s0 s) :
    Kept s0 (State.demote s g) := by
  unfold State.demote
  try dsimp only
  repeat' with_reducible first
    | assumption | apply kept_setTier | intro _ | (simp only [Kept.lit]; refine Kept.toF ?_) | dsimp only

theorem kept_promote {s0 s : State} (g : Nat) (key : Nat) (hyst : Option Nat) (hkept : Kept s0 s) :
    Kept s0 (State.promote s g key hyst).1 := by
  unfold State.promote
  try dsimp only
  repeat' with_reducible first
    | assumption | apply kept_setTier | apply kept_demote | refine Kept.fst (by assumption) ?_ | intro _
    | refine Kept.ite ?_ ?_ | refine Kept.ite1 ?_ ?_ | (simp only [Kept.lit]; refine Kept.toF ?_) | dsimp only | split

theorem kept_endTierJobs {s0 s : State} (hkept : Kept s0 s) :
    Kept s0 (State.endTierJobs s) := by
  unfold State.endTierJobs
  try dsimp only
  repeat' with_reducible first
    | assumption | apply kept_opEnd | apply kept_setTier | refine Kept.foldl ?_ ?_ | refine Kept.foldl1 ?_ ?_
    | refine Kept.fst (by assumption) ?_ | intro _ | refine Kept.ite ?_ ?_ | refine Kept.ite1 ?_ ?_
    | (simp only [Kept.lit]; refine Kept.toF ?_) | dsimp only | split

theorem kept_execTierPartCopyDone {s0 s : State} (granule : Nat) (part : Nat) (hkept : Kept s0 s) :
    KeptO s0 (execTierPartCopyDone granule part s) := by
  unfold execTierPartCopyDone
  try dsimp only
  repeat' with_reducible first
    | assumption | apply kept_pump | apply kept_setTier | apply kept_endTierJobs | refine Kept.fst (by assumption) ?_
    | intro _ | refine KeptO.next ?_ | refine Kept.ite ?_ ?_ | refine Kept.ite1 ?_ ?_
    | (simp only [Kept.lit]; refine Kept.toF ?_) | dsimp only | split

theorem kept_execTierPartDemotionDone {s0 s : State} (granule : Nat) (part : Nat) (hkept : Kept s0 s) :
    KeptO s0 (execTierPartDemotionDone granule part s) := by
  unfold execTierPartDemotionDone
  try dsimp only
  repeat' with_reducible first
    | assumption | apply kept_pump | apply kept_setTier | apply kept_endTierJobs | refine Kept.fst (by assumption) ?_
    | intro _ | refine KeptO.next ?_ | refine Kept.ite ?_ ?_ | refine Kept.ite1 ?_ ?_
    | (simp only [Kept.lit]; refine Kept.toF ?_) | dsimp only | split

theorem kept_execTierPromotion {s0 s : State} (hkept : Kept s0 s) :
    KeptO s0 (execTierPromotion s) := by
  unfold execTierPromotion
  try dsimp only
  repeat' with_reducible first
    | assumption | apply kept_setTier | apply kept_promote | refine Kept.fst (by assumption) ?_ | intro _
    | refine KeptO.next ?_ | refine Kept.ite ?_ ?_ | refine Kept.ite1 ?_ ?_
    | (simp only [Kept.lit]; refine Kept.toF ?_) | dsimp only | split

theorem kept_tierOne {s0 s : State} (op : Nat) (key : Nat) (g : Nat) (hkept : Kept s0 s) :
    Kept s0 (State.tierOne s op key g).1 := by
  unfold State.tierOne
  try dsimp only
  repeat' with_reducible first
    | assumption | apply kept_setTier | apply kept_demote | apply kept_promote | refine Kept.fst (by assumption) ?_
    | intro _ | refine Kept.ite ?_ ?_ | refine Kept.ite1 ?_ ?_ | (simp only [Kept.lit]; refine Kept.toF ?_)
    | dsimp only | split

theorem kept_tierOver {s0 s : State} (op key : Nat) (l : List Nat) (h : Kept s0 s) :
    Kept s0 (s.tierOver op key l).1 := by
  induction l generalizing s with
  | nil => exact h
  | cons g t ih =>
    have k := kept_tierOne op key g h
    unfold State.tierOver
    split <;> rename_i e <;> rw [e] at k <;> exact ih k

theorem kept_tierRow {s0 s : State} (tok : Nat) (op : Nat) (hkept : Kept s0 s) :
    Kept s0 (State.tierRow s tok op) := by
  unfold State.tierRow
  try dsimp only
  repeat' with_reducible first
    | assumption | apply kept_runDesc | apply kept_xlateTiles | apply kept_setTier | apply kept_endTierJobs
    | apply kept_tierOver | refine Kept.fst (by assumption) ?_ | intro _ | refine Kept.ite ?_ ?_
    | refine Kept.ite1 ?_ ?_ | (simp only [Kept.lit]; refine Kept.toF ?_) | dsimp only | split

theorem kept_execTierPromote {s0 s : State} (tok : Nat) (hkept : Kept s0 s) :
    KeptO s0 (execTierPromote tok s) := by
  unfold execTierPromote
  try dsimp only
  repeat' with_reducible first
    | assumption | apply kept_tierRow | intro _ | refine KeptO.next ?_ | dsimp only

theorem kept_execTierDemote {s0 s : State} (tok : Nat) (hkept : Kept s0 s) :
    KeptO s0 (execTierDemote tok s) := by
  unfold execTierDemote
  try dsimp only
  repeat' with_reducible first
    | assumption | apply kept_tierRow | intro _ | refine KeptO.next ?_ | dsimp only

theorem kept_execTierPin {s0 s : State} (tok : Nat) (hkept : Kept s0 s) :
    KeptO s0 (execTierPin tok s) := by
  unfold execTierPin
  try dsimp only
  repeat' with_reducible first
    | assumption | apply kept_tierRow | intro _ | refine KeptO.next ?_ | dsimp only

theorem kept_execTierUnpin {s0 s : State} (tok : Nat) (hkept : Kept s0 s) :
    KeptO s0 (execTierUnpin tok s) := by
  unfold execTierUnpin
  try dsimp only
  repeat' with_reducible first
    | assumption | apply kept_tierRow | intro _ | refine KeptO.next ?_ | dsimp only

theorem kept_lateFetch {s0 s : State} (atIssue : Bool) (hkept : Kept s0 s) :
    Kept s0 (State.lateFetch s atIssue) := by
  unfold State.lateFetch
  try dsimp only
  repeat' with_reducible first
    | assumption | apply kept_setEvt | apply kept_setTier | intro _ | refine Kept.ite ?_ ?_ | refine Kept.ite1 ?_ ?_
    | (simp only [Kept.lit]; refine Kept.toF ?_) | dsimp only | split

theorem kept_markLate {s0 s : State} (hkept : Kept s0 s) :
    Kept s0 (State.markLate s) := by
  unfold State.markLate
  try dsimp only
  repeat' with_reducible first
    | assumption | intro _ | refine Kept.ite ?_ ?_ | refine Kept.ite1 ?_ ?_
    | (simp only [Kept.lit]; refine Kept.toF ?_) | dsimp only | split

theorem kept_tierSweep {s0 s : State} (hkept : Kept s0 s) :
    Kept s0 (State.tierSweep s) := by
  unfold State.tierSweep
  try dsimp only
  repeat' with_reducible first
    | assumption | apply kept_setTier | apply kept_demote | refine Kept.foldl ?_ ?_ | refine Kept.foldl1 ?_ ?_
    | intro _ | refine Kept.ite ?_ ?_ | refine Kept.ite1 ?_ ?_ | (simp only [Kept.lit]; refine Kept.toF ?_)
    | dsimp only | split

theorem kept_tierAssist {s0 s : State} (hkept : Kept s0 s) :
    Kept s0 (State.tierAssist s) := by
  unfold State.tierAssist
  try dsimp only
  repeat' with_reducible first
    | assumption | apply kept_setEvt | apply kept_postAssist | apply kept_setTier | refine Kept.foldl ?_ ?_
    | refine Kept.foldl1 ?_ ?_ | intro _ | refine Kept.getD ?_ ?_ | refine Kept.ite ?_ ?_ | refine Kept.ite1 ?_ ?_
    | (simp only [Kept.lit]; refine Kept.toF ?_) | dsimp only | split

theorem kept_drainTier {s0 s : State} (h : Nat) (slots : Nat) (hkept : Kept s0 s) :
    Kept s0 (State.drainTier s h slots) := by
  unfold State.drainTier
  try dsimp only
  repeat' with_reducible first
    | assumption | apply kept_pump | apply kept_setTier | apply kept_endTierJobs | refine Kept.foldl ?_ ?_
    | refine Kept.foldl1 ?_ ?_ | refine Kept.fst (by assumption) ?_ | intro _ | refine Kept.ite ?_ ?_
    | refine Kept.ite1 ?_ ?_ | (simp only [Kept.lit]; refine Kept.toF ?_) | dsimp only | split

theorem kept_tierForget {s0 s : State} (key : Nat) (hkept : Kept s0 s) :
    Kept s0 (State.tierForget s key) := by
  unfold State.tierForget
  try dsimp only
  repeat' with_reducible first
    | assumption | apply kept_setTier | apply kept_endTierJobs | refine Kept.fst (by assumption) ?_ | intro _
    | refine Kept.ite ?_ ?_ | refine Kept.ite1 ?_ ?_ | (simp only [Kept.lit]; refine Kept.toF ?_) | dsimp only | split

theorem kept_setCdc {s0 s : State} (f : CdcState → CdcState) (hkept : Kept s0 s) :
    Kept s0 (State.setCdc s f) := by
  unfold State.setCdc
  try dsimp only
  repeat' with_reducible first
    | assumption | intro _ | (simp only [Kept.lit]; refine Kept.toF ?_) | dsimp only

theorem kept_setCdcTable {s0 s : State} (n : Nat) (t : CdcTable) (hkept : Kept s0 s) :
    Kept s0 (State.setCdcTable s n t) := by
  unfold State.setCdcTable
  try dsimp only
  repeat' with_reducible first
    | assumption | apply kept_setCdc | intro _ | (simp only [Kept.lit]; refine Kept.toF ?_) | dsimp only

theorem kept_decodeError {s0 s : State} (d : Nat) (f : BlockFail) (hkept : Kept s0 s) :
    Kept s0 (State.decodeError s d f) := by
  unfold State.decodeError
  try dsimp only
  repeat' with_reducible first
    | assumption | apply kept_draw | apply kept_setEvt | apply kept_queueFault | apply kept_setCdc
    | refine Kept.fst (by assumption) ?_ | refine Kept.snd (by assumption) ?_ | intro _
    | (simp only [Kept.lit]; refine Kept.toF ?_) | dsimp only | split

theorem kept_readBlock {s0 s : State} (key : Nat) (slice : Nat) (d : Nat) (maxClass : Nat) (hkept : Kept s0 s) :
    Kept s0 (State.readBlock s key slice d maxClass).1 := by
  unfold State.readBlock
  try dsimp only
  repeat' with_reducible first
    | assumption | apply kept_setEvt | apply kept_touch | apply kept_setCdc | apply kept_decodeError
    | refine Kept.fst (by assumption) ?_ | intro _ | refine Kept.ite ?_ ?_ | refine Kept.ite1 ?_ ?_
    | (simp only [Kept.lit]; refine Kept.toF ?_) | dsimp only | split

theorem kept_readOperandBlock {s0 s : State} (key : Nat) (slice : Nat) (d : Nat) (attr : Nat) (hkept : Kept s0 s) :
    Kept s0 (State.readOperandBlock s key slice d attr).1 := by
  unfold State.readOperandBlock
  try dsimp only
  repeat' with_reducible first
    | assumption | apply kept_touch | apply kept_readBlock | refine Kept.fst (by assumption) ?_ | intro _
    | refine Kept.ite ?_ ?_ | refine Kept.ite1 ?_ ?_ | dsimp only | split

theorem kept_encodeTile {s0 s : State} (tok : Nat) (d : Desc) (ext : List Byte) (segs : List (List Seg)) (hkept : Kept s0 s) :
    Kept s0 (State.encodeTile s tok d ext segs).1 := by
  unfold State.encodeTile
  try dsimp only
  repeat' with_reducible first
    | assumption | apply kept_markPoison | apply kept_creditWrite | apply kept_staleAccess | apply kept_readSegs
    | apply kept_setCdc | refine Kept.foldl ?_ ?_ | refine Kept.foldl1 ?_ ?_ | refine Kept.fst (by assumption) ?_
    | intro _ | refine Kept.ite ?_ ?_ | refine Kept.ite1 ?_ ?_ | (simp only [Kept.lit]; refine Kept.toF ?_)
    | dsimp only | split

theorem kept_encodeOver {s0 s : State} (tok : Nat) (d : Desc) (ext : List Byte) (tiles : List (List (List Seg))) (hkept : Kept s0 s) :
    Kept s0 (State.encodeOver s tok d ext tiles).1 := by
  unfold State.encodeOver
  try dsimp only
  repeat' with_reducible first
    | assumption | apply kept_encodeTile | refine Kept.foldl ?_ ?_ | refine Kept.foldl1 ?_ ?_
    | refine Kept.fst (by assumption) ?_ | intro _ | dsimp only | split

theorem kept_execCdcEncode {s0 s : State} (tok : Nat) (ext : List Byte) (hkept : Kept s0 s) :
    KeptO s0 (execCdcEncode tok ext s) := by
  unfold execCdcEncode
  try dsimp only
  repeat' with_reducible first
    | assumption | apply kept_runTiles | apply kept_encodeOver | refine Kept.fst (by assumption) ?_ | intro _
    | refine KeptO.next ?_ | dsimp only | split

theorem kept_writeDecoded {s0 s : State} (tok : Nat) (d : Desc) (dst : List Seg) (bytes : List Byte) (mask : Nat) (hkept : Kept s0 s) :
    Kept s0 (State.writeDecoded s tok d dst bytes mask) := by
  unfold State.writeDecoded
  try dsimp only
  repeat' with_reducible first
    | assumption | apply kept_markPoison | apply kept_writeSegs | refine Kept.foldl ?_ ?_ | refine Kept.foldl1 ?_ ?_
    | refine Kept.fst (by assumption) ?_ | intro _ | (simp only [Kept.lit]; refine Kept.toF ?_) | dsimp only | split

theorem kept_decodeOver {s0 s : State} (tok : Nat) (d : Desc) (tiles : List (List (List Seg))) (hkept : Kept s0 s) :
    Kept s0 (State.decodeOver s tok d tiles).1 := by
  unfold State.decodeOver
  try dsimp only
  repeat' with_reducible first
    | assumption | apply kept_staleAccess | apply kept_readOperandBlock | apply kept_writeDecoded
    | refine Kept.foldl ?_ ?_ | refine Kept.foldl1 ?_ ?_ | refine Kept.fst (by assumption) ?_ | intro _
    | refine Kept.getD ?_ ?_ | refine Kept.ite ?_ ?_ | refine Kept.ite1 ?_ ?_
    | (simp only [Kept.lit]; refine Kept.toF ?_) | dsimp only | split

theorem kept_execCdcDecode {s0 s : State} (tok : Nat) (hkept : Kept s0 s) :
    KeptO s0 (execCdcDecode tok s) := by
  unfold execCdcDecode
  try dsimp only
  repeat' with_reducible first
    | assumption | apply kept_runTiles | apply kept_decodeOver | refine Kept.fst (by assumption) ?_ | intro _
    | refine KeptO.next ?_ | refine Kept.ite ?_ ?_ | refine Kept.ite1 ?_ ?_ | dsimp only | split

theorem kept_submitTo {s0 s : State} (tok : Nat) (addr : Nat) (queue : Nat) (bits : DescBits) (key : Nat) (hkept : Kept s0 s) :
    Kept s0 (State.submitTo s tok addr queue bits key) := by
  unfold State.submitTo
  try dsimp only
  repeat' with_reducible first
    | assumption | apply kept_setSubq | apply kept_originateFor | apply kept_selfRefused | intro _
    | refine Kept.ite ?_ ?_ | refine Kept.ite1 ?_ ?_ | (simp only [Kept.lit]; refine Kept.toF ?_) | dsimp only | split

theorem kept_sendOver {s0 s : State} (tok : Nat) (d : Desc) (tiles : List (List (List Seg))) (hkept : Kept s0 s) :
    Kept s0 (State.sendOver s tok d tiles).1 := by
  unfold State.sendOver
  try dsimp only
  repeat' with_reducible first
    | assumption | apply kept_touch | apply kept_staleAccess | apply kept_fabPut | refine Kept.foldl ?_ ?_
    | refine Kept.foldl1 ?_ ?_ | refine Kept.fst (by assumption) ?_ | intro _ | refine Kept.ite ?_ ?_
    | refine Kept.ite1 ?_ ?_ | (simp only [Kept.lit]; refine Kept.toF ?_) | dsimp only | split

theorem kept_execCdcSend {s0 s : State} (tok : Nat) (hkept : Kept s0 s) :
    KeptO s0 (execCdcSend tok s) := by
  unfold execCdcSend
  try dsimp only
  repeat' with_reducible first
    | assumption | apply kept_runTiles | apply kept_submitTo | apply kept_sendOver | refine Kept.fst (by assumption) ?_
    | intro _ | refine KeptO.next ?_ | refine Kept.ite ?_ ?_ | refine Kept.ite1 ?_ ?_ | dsimp only | split

theorem kept_adoptBlock {s0 s : State} (d : Desc) (key : Nat) (a : Nat) (hkept : Kept s0 s) :
    Kept s0 (State.adoptBlock s d key a).1 := by
  unfold State.adoptBlock
  try dsimp only
  repeat' with_reducible first
    | assumption | apply kept_touch | apply kept_setMeta | apply kept_setCdc | refine Kept.fst (by assumption) ?_
    | intro _ | refine Kept.ite ?_ ?_ | refine Kept.ite1 ?_ ?_ | (simp only [Kept.lit]; refine Kept.toF ?_)
    | dsimp only | split

theorem kept_adoptOver {s0 s : State} (d : Desc) (key : Nat) (a : Nat) (n : Nat) (hkept : Kept s0 s) :
    Kept s0 (State.adoptOver s d key a n).1 := by
  unfold State.adoptOver
  try dsimp only
  repeat' with_reducible first
    | assumption | apply kept_adoptBlock | refine Kept.foldl ?_ ?_ | refine Kept.foldl1 ?_ ?_
    | refine Kept.fst (by assumption) ?_ | intro _ | dsimp only | split

theorem kept_execCdcAdopt {s0 s : State} (tok : Nat) (hkept : Kept s0 s) :
    KeptO s0 (execCdcAdopt tok s) := by
  unfold execCdcAdopt
  try dsimp only
  repeat' with_reducible first
    | assumption | apply kept_setEvt | apply kept_runTiles | apply kept_adoptOver | refine Kept.fst (by assumption) ?_
    | intro _ | refine KeptO.next ?_ | refine Kept.ite ?_ ?_ | refine Kept.ite1 ?_ ?_
    | (simp only [Kept.lit]; refine Kept.toF ?_) | dsimp only | split

theorem kept_profileOver {s0 s : State} (d : Desc) (fmt : Nat) (ext : List Byte) (h : Tab Nat) (tiles : List (List (List Seg))) (hkept : Kept s0 s) :
    Kept s0 (State.profileOver s d fmt ext h tiles).1 := by
  unfold State.profileOver
  try dsimp only
  repeat' with_reducible first
    | assumption | apply kept_readSegs | refine Kept.foldl ?_ ?_ | refine Kept.foldl1 ?_ ?_
    | refine Kept.fst (by assumption) ?_ | intro _ | refine Kept.ite ?_ ?_ | refine Kept.ite1 ?_ ?_ | dsimp only
    | split

theorem kept_execCdcProfile {s0 s : State} (tok : Nat) (ext : List Byte) (hkept : Kept s0 s) :
    KeptO s0 (execCdcProfile tok ext s) := by
  unfold execCdcProfile
  try dsimp only
  repeat' with_reducible first
    | assumption | apply kept_finish | apply kept_runTiles | apply kept_setCdcTable | apply kept_profileOver
    | refine Kept.fst (by assumption) ?_ | intro _ | refine KeptO.next ?_ | refine Kept.ite ?_ ?_
    | refine Kept.ite1 ?_ ?_ | (simp only [Kept.lit]; refine Kept.toF ?_) | dsimp only | split

theorem kept_execCdcTableLoad {s0 s : State} (tok : Nat) (ext : List Byte) (hkept : Kept s0 s) :
    KeptO s0 (execCdcTableLoad tok ext s) := by
  unfold execCdcTableLoad
  try dsimp only
  repeat' with_reducible first
    | assumption | apply kept_runMem | apply kept_readSegs | apply kept_setCdcTable
    | refine Kept.fst (by assumption) ?_ | intro _ | refine KeptO.next ?_ | refine Kept.ite ?_ ?_
    | refine Kept.ite1 ?_ ?_ | dsimp only | split

theorem kept_execCdcTableFree {s0 s : State} (tok : Nat) (hkept : Kept s0 s) :
    KeptO s0 (execCdcTableFree tok s) := by
  unfold execCdcTableFree
  try dsimp only
  repeat' with_reducible first
    | assumption | apply kept_runDesc | apply kept_setCdc | apply kept_setCdcTable | refine Kept.fst (by assumption) ?_
    | intro _ | refine KeptO.next ?_ | refine Kept.ite ?_ ?_ | refine Kept.ite1 ?_ ?_
    | (simp only [Kept.lit]; refine Kept.toF ?_) | dsimp only | split

theorem kept_execCdcTableRead {s0 s : State} (tok : Nat) (hkept : Kept s0 s) :
    KeptO s0 (execCdcTableRead tok s) := by
  unfold execCdcTableRead
  try dsimp only
  repeat' with_reducible first
    | assumption | apply kept_runMem | apply kept_writeSegs | intro _ | refine KeptO.next ?_ | refine Kept.ite ?_ ?_
    | refine Kept.ite1 ?_ ?_ | dsimp only | split

theorem kept_codecBoundary {s0 s : State} (hkept : Kept s0 s) :
    Kept s0 (State.codecBoundary s) := by
  unfold State.codecBoundary
  try dsimp only
  repeat' with_reducible first
    | assumption | apply kept_setEvt | apply kept_setCdc | refine Kept.foldl ?_ ?_ | refine Kept.foldl1 ?_ ?_ | intro _
    | refine Kept.ite ?_ ?_ | refine Kept.ite1 ?_ ?_ | (simp only [Kept.lit]; refine Kept.toF ?_) | dsimp only | split

theorem kept_setKv {s0 s : State} (f : KvState → KvState) (hkept : Kept s0 s) :
    Kept s0 (State.setKv s f) := by
  unfold State.setKv
  try dsimp only
  repeat' with_reducible first
    | assumption | intro _ | (simp only [Kept.lit]; refine Kept.toF ?_) | dsimp only

theorem kept_setPool {s0 s : State} (n : Nat) (p : KvPool) (hkept : Kept s0 s) :
    Kept s0 (State.setPool s n p) := by
  unfold State.setPool
  try dsimp only
  repeat' with_reducible first
    | assumption | apply kept_setKv | intro _ | (simp only [Kept.lit]; refine Kept.toF ?_) | dsimp only

theorem kept_setAlloc {s0 s : State} (n : Nat) (a : KvAlloc) (hkept : Kept s0 s) :
    Kept s0 (State.setAlloc s n a) := by
  unfold State.setAlloc
  try dsimp only
  repeat' with_reducible first
    | assumption | apply kept_setKv | intro _ | (simp only [Kept.lit]; refine Kept.toF ?_) | dsimp only

theorem kept_setSeq {s0 s : State} (q : Nat) (x : KvSeq) (hkept : Kept s0 s) :
    Kept s0 (State.setSeq s q x) := by
  unfold State.setSeq
  try dsimp only
  repeat' with_reducible first
    | assumption | apply kept_setKv | intro _ | (simp only [Kept.lit]; refine Kept.toF ?_) | dsimp only

theorem kept_kvFull {s0 s : State} (hkept : Kept s0 s) :
    Kept s0 (State.kvFull s) := by
  unfold State.kvFull
  try dsimp only
  repeat' with_reducible first
    | assumption | apply kept_setEvt | apply kept_setKv | intro _ | (simp only [Kept.lit]; refine Kept.toF ?_)
    | dsimp only

theorem kept_postFreed {s0 s : State} (n : Nat) (pgs : List Nat) (hkept : Kept s0 s) :
    Kept s0 (State.postFreed s n pgs) := by
  unfold State.postFreed
  try dsimp only
  repeat' with_reducible first
    | assumption | apply kept_postAssist | refine Kept.foldl ?_ ?_ | refine Kept.foldl1 ?_ ?_ | intro _
    | refine Kept.ite ?_ ?_ | refine Kept.ite1 ?_ ?_ | dsimp only | split

theorem kept_giveBack {s0 s : State} (n : Nat) (pgs : List Nat) (hkept : Kept s0 s) :
    Kept s0 (State.giveBack s n pgs) := by
  unfold State.giveBack
  try dsimp only
  repeat' with_reducible first
    | assumption | apply kept_postFreed | intro _ | dsimp only

theorem kept_readPage {s0 s : State} (n : Nat) (pg : Nat) (hkept : Kept s0 s) :
    Kept s0 (State.readPage s n pg) := by
  unfold State.readPage
  try dsimp only
  repeat' with_reducible first
    | assumption | apply kept_setKv | apply kept_setAlloc | refine Kept.fst (by assumption) ?_ | intro _
    | refine Kept.getD ?_ ?_ | refine Kept.ite ?_ ?_ | refine Kept.ite1 ?_ ?_
    | (simp only [Kept.lit]; refine Kept.toF ?_) | dsimp only | split

theorem kept_kvError {s0 s : State} (ref : Nat) (reason : Nat) (loc : Nat) (hkept : Kept s0 s) :
    Kept s0 (State.kvError s ref reason loc) := by
  unfold State.kvError
  try dsimp only
  repeat' with_reducible first
    | assumption | apply kept_setKv | intro _ | (simp only [Kept.lit]; refine Kept.toF ?_) | dsimp only

theorem kept_readKeyed {s0 s : State} (key epoch : Nat) (l : List (Nat × Nat)) (h : Kept s0 s) :
    Kept s0 (State.readKeyed key epoch l s).1 := by
  induction l generalizing s with
  | nil => exact h
  | cons p t ih =>
    unfold State.readKeyed
    split
    · exact ih (kept_staleAccess h)
    · exact ih (kept_touch _ _ _ _ h)

theorem kept_writeKeyed {s0 s : State} (tok key epoch : Nat) (credit : Option Nat) (l : List (Nat × Nat)) (b : List Byte)
    (h : Kept s0 s) : Kept s0 (State.writeKeyed tok key epoch credit l b s) := by
  induction l generalizing s b with
  | nil => exact h
  | cons p t ih =>
    unfold State.writeKeyed
    refine ih _ ?_
    split
    · exact kept_creditWrite _ _ _ _ _ _ h
    · exact kept_staleAccess h

end Sys2Proof.Machine
end

