-- ==== Sys2Proof/Laws/KeptEngines.lean ====
section
/-! SUPPORT. What the commands of the matrix, KV and embedding services keep: the canonical form of the memory, the queue, and the bound
of the fault records. -/

namespace Sys2Proof.Machine

set_option Elab.async false

theorem kept_readCoded {s0 s : State} (key : Nat) (slice : Nat) (attr : Nat) (off : Nat) (len : Nat) (blocks : List Nat) (hkept : Kept s0 s) :
    Kept s0 (State.readCoded s key slice attr off len blocks).1 := by
  unfold State.readCoded
  try dsimp only
  repeat' with_reducible first
    | assumption | apply kept_readOperandBlock | refine Kept.foldl ?_ ?_ | refine Kept.foldl1 ?_ ?_
    | refine Kept.fst (by assumption) ?_ | intro _ | dsimp only | split

theorem kept_readRng {s0 s : State} (d : Desc) (r : MtxRun) (g : Rng) (segs : List (List Seg)) (ext : List Byte) (hkept : Kept s0 s) :
    Kept s0 (State.readRng s d r g segs ext).1 := by
  unfold State.readRng
  try dsimp only
  repeat' with_reducible first
    | assumption | apply kept_staleAccess | apply kept_readSegs | apply kept_readKeyed | apply kept_readCoded
    | refine Kept.foldl ?_ ?_ | refine Kept.foldl1 ?_ ?_ | refine Kept.fst (by assumption) ?_ | intro _
    | refine Kept.getD ?_ ?_ | refine Kept.ite ?_ ?_ | refine Kept.ite1 ?_ ?_
    | (simp only [Kept.lit]; refine Kept.toF ?_) | dsimp only | split

theorem kept_setProg {s0 s : State} (n : Nat) (p : Prog) (hkept : Kept s0 s) :
    Kept s0 (State.setProg s n p) := by
  unfold State.setProg
  try dsimp only
  repeat' with_reducible first
    | assumption | intro _ | (simp only [Kept.lit]; refine Kept.toF ?_) | dsimp only

theorem kept_writeRng {s0 s : State} (tok : Nat) (d : Desc) (r : MtxRun) (g : Rng) (segs : List (List Seg)) (bytes : List Byte) (poison : Bool) (hkept : Kept s0 s) :
    Kept s0 (State.writeRng s tok d r g segs bytes poison) := by
  unfold State.writeRng
  try dsimp only
  repeat' with_reducible first
    | assumption | apply kept_writeSegs | apply kept_poisonPieces | apply kept_writeKeyed | apply kept_setProg
    | refine Kept.foldl ?_ ?_ | refine Kept.foldl1 ?_ ?_ | refine Kept.fst (by assumption) ?_ | intro _
    | refine Kept.getD ?_ ?_ | refine Kept.ite ?_ ?_ | refine Kept.ite1 ?_ ?_
    | (simp only [Kept.lit]; first | refine Kept.toF ?_ | (refine KeptF.writeN _ _ ?_; refine Kept.toF ?_))
    | dsimp only | split

theorem Kept.foldItem : True := trivial

def KeptI (s0 : State) : ItemEnd → Prop
  | .wait s => Kept s0 s
  | .stop s _ => Kept s0 s
  | .done s _ _ => Kept s0 s

theorem KeptI.wait {s0 s : State} (h : Kept s0 s) : KeptI s0 (.wait s) := h
theorem KeptI.stop {s0 s : State} {c : Cpl} (h : Kept s0 s) : KeptI s0 (.stop s c) := h
theorem KeptI.done {s0 s : State} {b : Bool} {n : Nat} (h : Kept s0 s) : KeptI s0 (.done s b n) := h
theorem Kept.ofIWait {s0 t : State} {r : ItemEnd} (e : r = .wait t) (h : KeptI s0 r) : Kept s0 t := by
  rw [e] at h; exact h
theorem Kept.ofIStop {s0 t : State} {r : ItemEnd} {c : Cpl} (e : r = .stop t c) (h : KeptI s0 r) : Kept s0 t := by
  rw [e] at h; exact h
theorem Kept.ofIDone {s0 t : State} {r : ItemEnd} {b : Bool} {n : Nat} (e : r = .done t b n) (h : KeptI s0 r) : Kept s0 t := by
  rw [e] at h; exact h

theorem kept_doItem {s0 s : State} (tok : Nat) (d : Desc) (r : MtxRun) (it : Item) (ext : List Byte) (h : Kept s0 s) :
    KeptI s0 (s.doItem tok d r it ext) := by
  unfold State.doItem
  try dsimp only
  repeat' with_reducible first
    | assumption | apply kept_engineReady | apply kept_xlateTiles | apply kept_readRng | apply kept_writeRng
    | (with_reducible refine KeptI.wait ?_) | (with_reducible refine KeptI.stop ?_)
    | (with_reducible refine KeptI.done ?_) | refine Kept.foldl ?_ ?_ | refine Kept.foldl1 ?_ ?_
    | refine Kept.fst (by assumption) ?_ | refine KeptM.ok ?_ | refine KeptM.wait ?_ | refine KeptM.stop ?_ | intro _
    | refine Kept.ite ?_ ?_ | refine Kept.ite1 ?_ ?_ | (simp only [Kept.lit]; refine Kept.toF ?_) | dsimp only | split

theorem kept_setMtx {s0 s : State} (f : MtxState → MtxState) (hkept : Kept s0 s) :
    Kept s0 (State.setMtx s f) := by
  unfold State.setMtx
  try dsimp only
  repeat' with_reducible first
    | assumption | intro _ | (simp only [Kept.lit]; refine Kept.toF ?_) | dsimp only

theorem kept_mtxError {s0 s : State} (handle : Nat) (op : Nat) (reason : Nat) (loc : Nat) (hkept : Kept s0 s) :
    Kept s0 (State.mtxError s handle op reason loc) := by
  unfold State.mtxError
  try dsimp only
  repeat' with_reducible first
    | assumption | apply kept_setMtx | intro _ | (simp only [Kept.lit]; refine Kept.toF ?_) | dsimp only

theorem kept_loadRefused {s0 s : State} (tok : Nat) (c : Cpl) (hkept : Kept s0 s) :
    Kept s0 (State.loadRefused s tok c) := by
  unfold State.loadRefused
  try dsimp only
  repeat' with_reducible first
    | assumption | apply kept_setEvt | apply kept_opEnd | apply kept_mtxError | intro _ | dsimp only

theorem kept_startLoad {s0 s : State} (tok : Nat) (d : Desc) (b : Binary) (segs : List Seg) (hkept : Kept s0 s) :
    Kept s0 (State.startLoad s tok d b segs) := by
  unfold State.startLoad
  try dsimp only
  repeat' with_reducible first
    | assumption | apply kept_setProg | refine Kept.fst (by assumption) ?_ | intro _ | refine Kept.ite ?_ ?_
    | refine Kept.ite1 ?_ ?_ | (simp only [Kept.lit]; refine Kept.toF ?_) | dsimp only | split

theorem kept_beginLoad {s0 s : State} (tok : Nat) (ext : List Byte) (hkept : Kept s0 s) :
    Kept s0 (State.beginLoad s tok ext) := by
  unfold State.beginLoad
  try dsimp only
  repeat' with_reducible first
    | assumption | apply kept_refuse | apply kept_runDesc | apply kept_xlateRange | apply kept_acquire
    | apply kept_readSegs | apply kept_loadRefused | apply kept_startLoad | refine Kept.fst (by assumption) ?_
    | refine Kept.ofReady (by assumption) ?_ | refine Kept.ofWait (by assumption) ?_
    | refine Kept.ofStop (by assumption) ?_ | intro _ | refine Kept.ite ?_ ?_ | refine Kept.ite1 ?_ ?_
    | (simp only [Kept.lit]; refine Kept.toF ?_) | dsimp only | split

theorem kept_endLoad {s0 s : State} (tok : Nat) (n : Nat) (d : Desc) (ext : List Byte) (hkept : Kept s0 s) :
    Kept s0 (State.endLoad s tok n d ext) := by
  unfold State.endLoad
  try dsimp only
  repeat' with_reducible first
    | assumption | apply kept_setEvt | apply kept_opEnd | apply kept_engineReady | apply kept_xlateNeeds
    | apply kept_readSegs | apply kept_poisonPieces | apply kept_drawBytes | apply kept_writeKeyed | apply kept_setProg
    | apply kept_loadRefused | refine Kept.foldl ?_ ?_ | refine Kept.foldl1 ?_ ?_ | refine Kept.fst (by assumption) ?_
    | refine Kept.ofReady (by assumption) ?_ | refine Kept.ofWait (by assumption) ?_
    | refine Kept.ofStop (by assumption) ?_ | intro _ | refine Kept.ite ?_ ?_ | refine Kept.ite1 ?_ ?_
    | (simp only [Kept.lit]; refine Kept.toF ?_) | dsimp only | split

theorem kept_execTpLoad {s0 s : State} (tok : Nat) (ext : List Byte) (hkept : Kept s0 s) :
    KeptO s0 (execTpLoad tok ext s) := by
  unfold execTpLoad
  try dsimp only
  repeat' with_reducible first
    | assumption | apply kept_beginLoad | apply kept_endLoad | refine Kept.fst (by assumption) ?_ | intro _
    | refine KeptO.next ?_ | refine Kept.ite ?_ ?_ | refine Kept.ite1 ?_ ?_
    | (simp only [Kept.lit]; refine Kept.toF ?_) | dsimp only | split

theorem kept_setRun {s0 s : State} (tok : Nat) (r : MtxRun) (hkept : Kept s0 s) :
    Kept s0 (State.setRun s tok r) := by
  unfold State.setRun
  try dsimp only
  repeat' with_reducible first
    | assumption | apply kept_setMtx | intro _ | (simp only [Kept.lit]; refine Kept.toF ?_) | dsimp only

theorem kept_endRun {s0 s : State} (tok : Nat) (r : MtxRun) (c : Cpl) (op : Nat) (hkept : Kept s0 s) :
    Kept s0 (State.endRun s tok r c op) := by
  unfold State.endRun
  try dsimp only
  repeat' with_reducible first
    | assumption | apply kept_opEnd | apply kept_setMtx | apply kept_mtxError | refine Kept.fst (by assumption) ?_
    | intro _ | refine Kept.ite ?_ ?_ | refine Kept.ite1 ?_ ?_ | (simp only [Kept.lit]; refine Kept.toF ?_)
    | dsimp only | split

theorem kept_settleRun {s0 s : State} (tok : Nat) (r : MtxRun) (hkept : Kept s0 s) :
    Kept s0 (State.settleRun s tok r) := by
  unfold State.settleRun
  try dsimp only
  repeat' with_reducible first
    | assumption | apply kept_setRun | apply kept_endRun | refine Kept.fst (by assumption) ?_ | intro _
    | refine Kept.ite ?_ ?_ | refine Kept.ite1 ?_ ?_ | (simp only [Kept.lit]; refine Kept.toF ?_) | dsimp only | split

theorem kept_loseCluster {s0 s : State} (k : Nat) (hkept : Kept s0 s) :
    Kept s0 (State.loseCluster s k) := by
  unfold State.loseCluster
  try dsimp only
  repeat' with_reducible first
    | assumption | apply kept_setEvt | apply kept_endRun | refine Kept.foldl ?_ ?_ | refine Kept.foldl1 ?_ ?_ | intro _
    | refine Kept.getD ?_ ?_ | dsimp only

theorem kept_stopRun {s0 s : State} (tok : Nat) (c : Cpl) (hkept : Kept s0 s) :
    Kept s0 (State.stopRun s tok c) := by
  unfold State.stopRun
  try dsimp only
  repeat' with_reducible first
    | assumption | apply kept_endRun | refine Kept.fst (by assumption) ?_ | intro _ | refine Kept.getD ?_ ?_
    | (simp only [Kept.lit]; refine Kept.toF ?_) | dsimp only | split

theorem kept_opStarts {s0 s : State} (r : MtxRun) (o : TileOp) (hkept : Kept s0 s) :
    Kept s0 (State.opStarts s r o) := by
  unfold State.opStarts
  try dsimp only
  repeat' with_reducible first
    | assumption | apply kept_readPage | refine Kept.foldl ?_ ?_ | refine Kept.foldl1 ?_ ?_ | intro _
    | refine Kept.getD ?_ ?_ | refine Kept.ite ?_ ?_ | refine Kept.ite1 ?_ ?_ | dsimp only | split

theorem kept_beginRun {s0 s : State} (tok : Nat) (r : MtxRun) (hkept : Kept s0 s) :
    Kept s0 (State.beginRun s tok r) := by
  unfold State.beginRun
  try dsimp only
  repeat' with_reducible first
    | assumption | apply kept_setEvt | apply kept_endRun | apply kept_settleRun | refine Kept.fst (by assumption) ?_
    | intro _ | (simp only [Kept.lit]; refine Kept.toF ?_) | dsimp only | split

theorem kept_execTpRun {s0 s : State} (tok : Nat) (hkept : Kept s0 s) :
    KeptO s0 (execTpRun tok s) := by
  unfold execTpRun
  try dsimp only
  repeat' with_reducible first
    | assumption | apply kept_runDesc | apply kept_beginRun | refine Kept.fst (by assumption) ?_ | intro _
    | refine KeptO.next ?_ | refine Kept.ite ?_ ?_ | refine Kept.ite1 ?_ ?_
    | (simp only [Kept.lit]; refine Kept.toF ?_) | dsimp only | split

theorem kept_execTpUnload {s0 s : State} (tok : Nat) (hkept : Kept s0 s) :
    KeptO s0 (execTpUnload tok s) := by
  unfold execTpUnload
  try dsimp only
  repeat' with_reducible first
    | assumption | apply kept_setEvt | apply kept_runDesc | apply kept_setProg | refine Kept.fst (by assumption) ?_
    | intro _ | refine KeptO.next ?_ | refine Kept.ite ?_ ?_ | refine Kept.ite1 ?_ ?_
    | (simp only [Kept.lit]; refine Kept.toF ?_) | dsimp only | split

theorem kept_countStale {s0 s : State} (hkept : Kept s0 s) :
    Kept s0 (State.countStale s) := by
  unfold State.countStale
  try dsimp only
  repeat' with_reducible first
    | assumption | apply kept_setEvt | intro _ | (simp only [Kept.lit]; refine Kept.toF ?_) | dsimp only

theorem kept_countBubbles {s0 s : State} (o : TileOp) (done : Nat) (hkept : Kept s0 s) :
    Kept s0 (State.countBubbles s o done) := by
  unfold State.countBubbles
  try dsimp only
  repeat' with_reducible first
    | assumption | apply kept_draw | refine Kept.fst (by assumption) ?_ | refine Kept.snd (by assumption) ?_ | intro _
    | refine Kept.ite ?_ ?_ | refine Kept.ite1 ?_ ?_ | (simp only [Kept.lit]; refine Kept.toF ?_) | dsimp only | split

theorem kept_workItem {s0 s : State} (tok k : Nat) (d : Desc) (r : MtxRun) (ext : List Byte) (h : Kept s0 s) :
    Kept s0 (s.workItem tok k d r ext) := by
  unfold State.workItem
  try dsimp only
  repeat' with_reducible first
    | assumption | apply kept_setEvt | apply kept_doItem | apply kept_setMtx | apply kept_endRun | apply kept_settleRun
    | apply kept_opStarts | apply kept_countBubbles | (with_reducible refine Kept.ofIWait (by assumption) ?_)
    | (with_reducible refine Kept.ofIStop (by assumption) ?_) | (with_reducible refine Kept.ofIDone (by assumption) ?_)
    | refine Kept.fst (by assumption) ?_ | refine KeptM.ok ?_ | refine KeptM.wait ?_ | refine KeptM.stop ?_ | intro _
    | refine Kept.getD ?_ ?_ | refine Kept.ite ?_ ?_ | refine Kept.ite1 ?_ ?_
    | (simp only [Kept.lit]; refine Kept.toF ?_) | dsimp only | split

theorem kept_retryItem {s0 s : State} (tok : Nat) (k : Nat) (r : MtxRun) (hkept : Kept s0 s) :
    Kept s0 (State.retryItem s tok k r) := by
  unfold State.retryItem
  try dsimp only
  repeat' with_reducible first
    | assumption | apply kept_setMtx | apply kept_setRun | intro _ | (simp only [Kept.lit]; refine Kept.toF ?_)
    | dsimp only

theorem kept_kvStop {s0 s : State} (tok : Nat) (c : Cpl) (hkept : Kept s0 s) :
    Kept s0 (State.kvStop s tok c) := by
  unfold State.kvStop
  try dsimp only
  repeat' with_reducible first
    | assumption | apply kept_opEnd | apply kept_setKv | apply kept_giveBack | refine Kept.fst (by assumption) ?_
    | intro _ | (simp only [Kept.lit]; refine Kept.toF ?_) | dsimp only | split

theorem kept_failPool {s0 s : State} (n : Nat) (hkept : Kept s0 s) :
    Kept s0 (State.failPool s n) := by
  unfold State.failPool
  try dsimp only
  repeat' with_reducible first
    | assumption | apply kept_setEvt | apply kept_queueFault | apply kept_setPool | apply kept_endRun
    | apply kept_kvStop | refine Kept.foldl ?_ ?_ | refine Kept.foldl1 ?_ ?_ | intro _ | refine Kept.getD ?_ ?_
    | refine Kept.ite ?_ ?_ | refine Kept.ite1 ?_ ?_ | (simp only [Kept.lit]; refine Kept.toF ?_) | dsimp only | split

theorem kept_kvRow {s0 s : State} (tok : Nat) (op : Nat) (k : Desc → State → State) (hcb_k : ∀ x0 x1, Kept s0 x1 → Kept s0 (k x0 x1)) (hkept : Kept s0 s) :
    Kept s0 (State.kvRow s tok op k) := by
  unfold State.kvRow
  try dsimp only
  repeat' with_reducible first
    | assumption | apply kept_failPool | apply hcb_k | refine Kept.foldl ?_ ?_ | refine Kept.foldl1 ?_ ?_
    | refine Kept.fst (by assumption) ?_ | intro _ | refine Kept.ite ?_ ?_ | refine Kept.ite1 ?_ ?_
    | (simp only [Kept.lit]; refine Kept.toF ?_) | dsimp only | split

theorem kept_kvEnd {s0 s : State} (tok : Nat) (op : Nat) (c : Cpl) (hkept : Kept s0 s) :
    Kept s0 (State.kvEnd s tok op c) := by
  unfold State.kvEnd
  try dsimp only
  repeat' with_reducible first
    | assumption | apply kept_runDesc | intro _ | dsimp only

theorem kept_kvRefuse {s0 s : State} (tok : Nat) (op : Nat) (ref : Nat) (c : Cpl) (hkept : Kept s0 s) :
    Kept s0 (State.kvRefuse s tok op ref c) := by
  unfold State.kvRefuse
  try dsimp only
  repeat' with_reducible first
    | assumption | apply kept_kvError | apply kept_kvEnd | intro _ | dsimp only

theorem kept_execKvPoolCreate {s0 s : State} (tok : Nat) (ext : List Byte) (hkept : Kept s0 s) :
    KeptO s0 (execKvPoolCreate tok ext s) := by
  unfold execKvPoolCreate
  try dsimp only
  repeat' with_reducible first
    | assumption | apply kept_setEvt | apply kept_refuse | apply kept_xlateRange | apply kept_acquire
    | apply kept_readSegs | apply kept_setPool | apply kept_setAlloc | apply kept_kvEnd | apply kept_kvRefuse
    | refine Kept.fst (by assumption) ?_ | refine Kept.ofReady (by assumption) ?_
    | refine Kept.ofWait (by assumption) ?_ | refine Kept.ofStop (by assumption) ?_ | intro _ | refine KeptO.next ?_
    | refine Kept.ite ?_ ?_ | refine Kept.ite1 ?_ ?_ | (simp only [Kept.lit]; refine Kept.toF ?_) | dsimp only | split

theorem kept_freePool {s0 s : State} (n : Nat) (hkept : Kept s0 s) :
    Kept s0 (State.freePool s n) := by
  unfold State.freePool
  try dsimp only
  repeat' with_reducible first
    | assumption | apply kept_setKv | refine Kept.foldl ?_ ?_ | refine Kept.foldl1 ?_ ?_ | intro _
    | (simp only [Kept.lit]; refine Kept.toF ?_) | dsimp only

theorem kept_execKvPoolDestroy {s0 s : State} (tok : Nat) (hkept : Kept s0 s) :
    KeptO s0 (execKvPoolDestroy tok s) := by
  unfold execKvPoolDestroy
  try dsimp only
  repeat' with_reducible first
    | assumption | apply kept_setEvt | apply kept_runDesc | apply kept_kvEnd | apply kept_freePool
    | refine Kept.fst (by assumption) ?_ | intro _ | refine KeptO.next ?_ | refine Kept.ite ?_ ?_
    | refine Kept.ite1 ?_ ?_ | (simp only [Kept.lit]; refine Kept.toF ?_) | dsimp only | split

theorem kept_admitDestroy {s0 s : State} (tok : Nat) (d : Desc) (hkept : Kept s0 s) :
    Kept s0 (State.admitDestroy s tok d) := by
  unfold State.admitDestroy
  try dsimp only
  repeat' with_reducible first
    | assumption | apply kept_setPool | apply kept_setAlloc | intro _ | refine Kept.ite ?_ ?_ | refine Kept.ite1 ?_ ?_
    | (simp only [Kept.lit]; refine Kept.toF ?_) | dsimp only | split

theorem kept_admitUnload {s0 s : State} (tok : Nat) (d : Desc) (hkept : Kept s0 s) :
    Kept s0 (State.admitUnload s tok d) := by
  unfold State.admitUnload
  try dsimp only
  repeat' with_reducible first
    | assumption | apply kept_setProg | refine Kept.fst (by assumption) ?_ | intro _
    | (simp only [Kept.lit]; refine Kept.toF ?_) | dsimp only | split

theorem kept_execKvSeqCreate {s0 s : State} (tok : Nat) (hkept : Kept s0 s) :
    KeptO s0 (execKvSeqCreate tok s) := by
  unfold execKvSeqCreate
  try dsimp only
  repeat' with_reducible first
    | assumption | apply kept_setSeq | apply kept_kvRow | apply kept_kvEnd | apply kept_kvRefuse
    | refine Kept.fst (by assumption) ?_ | intro _ | refine KeptO.next ?_ | refine Kept.ite ?_ ?_
    | refine Kept.ite1 ?_ ?_ | (simp only [Kept.lit]; refine Kept.toF ?_) | dsimp only | split

theorem kept_copyKvPage {s0 s : State} (tok : Nat) (n : Nat) (from_ : Nat) (into : Nat) (hkept : Kept s0 s) :
    Kept s0 (State.copyKvPage s tok n from_ into) := by
  unfold State.copyKvPage
  try dsimp only
  repeat' with_reducible first
    | assumption | apply kept_poisonPieces | apply kept_readKeyed | apply kept_writeKeyed | refine Kept.foldl ?_ ?_
    | refine Kept.foldl1 ?_ ?_ | refine Kept.fst (by assumption) ?_ | intro _ | dsimp only | split

theorem kept_writeTokens {s0 s : State} (tok : Nat) (n : Nat) (first : Nat) (count : Nat) (pages : List Nat) (bytes : List Byte) (bad : List (Nat × Nat)) (hkept : Kept s0 s) :
    Kept s0 (State.writeTokens s tok n first count pages bytes bad) := by
  unfold State.writeTokens
  try dsimp only
  repeat' with_reducible first
    | assumption | apply kept_poisonPieces | apply kept_writeKeyed | refine Kept.foldl ?_ ?_ | refine Kept.foldl1 ?_ ?_
    | refine Kept.fst (by assumption) ?_ | intro _ | refine Kept.getD ?_ ?_ | refine Kept.ite ?_ ?_
    | refine Kept.ite1 ?_ ?_ | dsimp only | split

theorem kept_execKvAppend {s0 s : State} (tok : Nat) (hkept : Kept s0 s) :
    KeptO s0 (execKvAppend tok s) := by
  unfold execKvAppend
  try dsimp only
  repeat' with_reducible first
    | assumption | apply kept_refuse | apply kept_runDesc | apply kept_acquire | apply kept_readSegs | apply kept_setKv
    | apply kept_setAlloc | apply kept_kvFull | apply kept_kvRow | apply kept_kvRefuse | apply kept_copyKvPage
    | apply kept_writeTokens | refine Kept.fst (by assumption) ?_ | refine Kept.ofReady (by assumption) ?_
    | refine Kept.ofWait (by assumption) ?_ | refine Kept.ofStop (by assumption) ?_ | intro _ | refine KeptO.next ?_
    | refine Kept.getD ?_ ?_ | refine Kept.ite ?_ ?_ | refine Kept.ite1 ?_ ?_
    | (simp only [Kept.lit]; refine Kept.toF ?_) | dsimp only | split

theorem kept_kvCommit {s0 s : State} (r : KvReq) (hkept : Kept s0 s) :
    Kept s0 (State.kvCommit s r) := by
  unfold State.kvCommit
  try dsimp only
  repeat' with_reducible first
    | assumption | apply kept_setKv | apply kept_setAlloc | apply kept_setSeq | refine Kept.foldl ?_ ?_
    | refine Kept.foldl1 ?_ ?_ | refine Kept.fst (by assumption) ?_ | intro _ | refine Kept.getD ?_ ?_
    | refine Kept.ite ?_ ?_ | refine Kept.ite1 ?_ ?_ | (simp only [Kept.lit]; refine Kept.toF ?_) | dsimp only | split

theorem kept_kvLost {s0 s : State} (tok : Nat) (r : KvReq) (hkept : Kept s0 s) :
    Kept s0 (State.kvLost s tok r) := by
  unfold State.kvLost
  try dsimp only
  repeat' with_reducible first
    | assumption | apply kept_setEvt | apply kept_setDesc | apply kept_opEnd | apply kept_event | apply kept_setKv
    | apply kept_setAlloc | apply kept_kvError | refine Kept.fst (by assumption) ?_ | intro _ | refine Kept.getD ?_ ?_
    | (simp only [Kept.lit]; refine Kept.toF ?_) | dsimp only | split

theorem kept_execKvCommit {s0 s : State} (tok : Nat) (lost : Bool) (journal : Bool) (hkept : Kept s0 s) :
    KeptO s0 (execKvCommit tok lost journal s) := by
  unfold execKvCommit
  try dsimp only
  repeat' with_reducible first
    | assumption | apply kept_setEvt | apply kept_opEnd | apply kept_setKv | apply kept_kvStop | apply kept_failPool
    | apply kept_kvCommit | apply kept_kvLost | refine Kept.fst (by assumption) ?_ | intro _ | refine KeptO.next ?_
    | refine Kept.ite ?_ ?_ | refine Kept.ite1 ?_ ?_ | (simp only [Kept.lit]; refine Kept.toF ?_) | dsimp only | split

theorem kept_fabGet {s0 s : State} (tok : Nat) (d : Desc) (src : Nat) (len : Nat) (dst : Nat → Into) (hkept : Kept s0 s) :
    Kept s0 (State.fabGet s tok d src len dst) := by
  unfold State.fabGet
  try dsimp only
  repeat' with_reducible first
    | assumption | apply kept_failOp | apply kept_originateFor | apply kept_creditWrite | apply kept_selfRefused
    | apply kept_fabPut | apply kept_loadSelf | refine Kept.foldl ?_ ?_ | refine Kept.foldl1 ?_ ?_
    | refine Kept.fst (by assumption) ?_ | intro _ | refine Kept.ite ?_ ?_ | refine Kept.ite1 ?_ ?_
    | (simp only [Kept.lit]; refine Kept.toF ?_) | dsimp only | split

theorem kept_kvReadOver {s0 s : State} (tok : Nat) (d : Desc) (p : KvPool) (lay : KvLayer) (count : Nat) (dst : Nat) (runs : List (Nat × Nat × Nat × Nat)) (hkept : Kept s0 s) :
    Kept s0 (State.kvReadOver s tok d p lay count dst runs).1 := by
  unfold State.kvReadOver
  try dsimp only
  repeat' with_reducible first
    | assumption | apply kept_fabPut | apply kept_readKeyed | apply kept_fabGet | refine Kept.foldl ?_ ?_
    | refine Kept.foldl1 ?_ ?_ | refine Kept.fst (by assumption) ?_ | intro _ | refine Kept.getD ?_ ?_
    | refine Kept.ite ?_ ?_ | refine Kept.ite1 ?_ ?_ | dsimp only | split

theorem kept_execKvRead {s0 s : State} (tok : Nat) (hkept : Kept s0 s) :
    KeptO s0 (execKvRead tok s) := by
  unfold execKvRead
  try dsimp only
  repeat' with_reducible first
    | assumption | apply kept_runDesc | apply kept_engineReady | apply kept_readPage | apply kept_kvRow
    | apply kept_kvRefuse | apply kept_kvReadOver | refine Kept.foldl ?_ ?_ | refine Kept.foldl1 ?_ ?_
    | refine Kept.fst (by assumption) ?_ | intro _ | refine KeptO.next ?_ | refine Kept.getD ?_ ?_
    | refine Kept.ite ?_ ?_ | refine Kept.ite1 ?_ ?_ | (simp only [Kept.lit]; refine Kept.toF ?_) | dsimp only | split

theorem kept_execKvAttend {s0 s : State} (tok : Nat) (hkept : Kept s0 s) :
    KeptO s0 (execKvAttend tok s) := by
  unfold execKvAttend
  try dsimp only
  repeat' with_reducible first
    | assumption | apply kept_runDesc | apply kept_beginRun | apply kept_kvRow | apply kept_kvEnd | apply kept_kvRefuse
    | refine Kept.fst (by assumption) ?_ | intro _ | refine KeptO.next ?_ | refine Kept.ite ?_ ?_
    | refine Kept.ite1 ?_ ?_ | (simp only [Kept.lit]; refine Kept.toF ?_) | dsimp only | split

theorem kept_execKvFork {s0 s : State} (tok : Nat) (hkept : Kept s0 s) :
    KeptO s0 (execKvFork tok s) := by
  unfold execKvFork
  try dsimp only
  repeat' with_reducible first
    | assumption | apply kept_refuse | apply kept_setAlloc | apply kept_setSeq | apply kept_kvRow | apply kept_kvEnd
    | apply kept_kvRefuse | refine Kept.foldl ?_ ?_ | refine Kept.foldl1 ?_ ?_ | refine Kept.fst (by assumption) ?_
    | intro _ | refine KeptO.next ?_ | refine Kept.ite ?_ ?_ | refine Kept.ite1 ?_ ?_
    | (simp only [Kept.lit]; refine Kept.toF ?_) | dsimp only | split

theorem kept_execKvFree {s0 s : State} (tok : Nat) (hkept : Kept s0 s) :
    KeptO s0 (execKvFree tok s) := by
  unfold execKvFree
  try dsimp only
  repeat' with_reducible first
    | assumption | apply kept_setKv | apply kept_setAlloc | apply kept_setSeq | apply kept_kvRow | apply kept_kvEnd
    | apply kept_kvRefuse | refine Kept.foldl ?_ ?_ | refine Kept.foldl1 ?_ ?_ | refine Kept.fst (by assumption) ?_
    | intro _ | refine KeptO.next ?_ | (simp only [Kept.lit]; refine Kept.toF ?_) | dsimp only | split

theorem kept_kvMoveOver {s0 s : State} (tok : Nat) (d : Desc) (p : KvPool) (out : Bool) (pairs : List ((Nat × Nat × Nat) × Nat)) (hkept : Kept s0 s) :
    Kept s0 (State.kvMoveOver s tok d p out pairs) := by
  unfold State.kvMoveOver
  try dsimp only
  repeat' with_reducible first
    | assumption | apply kept_failOp | apply kept_fabPut | apply kept_readKeyed | apply kept_fabGet
    | refine Kept.foldl ?_ ?_ | refine Kept.foldl1 ?_ ?_ | refine Kept.fst (by assumption) ?_ | intro _
    | refine Kept.ite ?_ ?_ | refine Kept.ite1 ?_ ?_ | dsimp only | split

theorem kept_execKvMove {s0 s : State} (tok : Nat) (hkept : Kept s0 s) :
    KeptO s0 (execKvMove tok s) := by
  unfold execKvMove
  try dsimp only
  repeat' with_reducible first
    | assumption | apply kept_refuse | apply kept_runDesc | apply kept_engineReady | apply kept_setKv
    | apply kept_setAlloc | apply kept_kvFull | apply kept_kvRow | apply kept_kvRefuse | apply kept_kvMoveOver
    | refine Kept.fst (by assumption) ?_ | intro _ | refine KeptO.next ?_ | refine Kept.ite ?_ ?_
    | refine Kept.ite1 ?_ ?_ | (simp only [Kept.lit]; refine Kept.toF ?_) | dsimp only | split

theorem kept_execKvResync {s0 s : State} (tok : Nat) (hkept : Kept s0 s) :
    KeptO s0 (execKvResync tok s) := by
  unfold execKvResync
  try dsimp only
  repeat' with_reducible first
    | assumption | apply kept_setSeq | apply kept_kvRow | apply kept_kvEnd | apply kept_kvRefuse
    | refine Kept.fst (by assumption) ?_ | intro _ | refine KeptO.next ?_ | refine Kept.ite ?_ ?_
    | refine Kept.ite1 ?_ ?_ | (simp only [Kept.lit]; refine Kept.toF ?_) | dsimp only | split

theorem kept_grantPage {s0 s : State} (n : Nat) (pg : Nat) (hkept : Kept s0 s) :
    Kept s0 (State.grantPage s n pg).1 := by
  unfold State.grantPage
  try dsimp only
  repeat' with_reducible first
    | assumption | apply kept_setAlloc | intro _ | refine Kept.ite ?_ ?_ | refine Kept.ite1 ?_ ?_
    | (simp only [Kept.lit]; refine Kept.toF ?_) | dsimp only | split

theorem kept_grantOver {s0 s : State} (n : Nat) (count : Nat) (l : List Byte) (hkept : Kept s0 s) :
    Kept s0 (State.grantOver s n count l).1 := by
  unfold State.grantOver
  try dsimp only
  repeat' with_reducible first
    | assumption | apply kept_grantPage | refine Kept.foldl ?_ ?_ | refine Kept.foldl1 ?_ ?_
    | refine Kept.fst (by assumption) ?_ | intro _ | dsimp only | split

theorem kept_execKvGrant {s0 s : State} (tok : Nat) (ext : List Byte) (hkept : Kept s0 s) :
    KeptO s0 (execKvGrant tok ext s) := by
  unfold execKvGrant
  try dsimp only
  repeat' with_reducible first
    | assumption | apply kept_runMem | apply kept_readSegs | apply kept_kvRow | apply kept_kvRefuse
    | apply kept_grantOver | refine Kept.fst (by assumption) ?_ | intro _ | refine KeptO.next ?_
    | refine Kept.ite ?_ ?_ | refine Kept.ite1 ?_ ?_ | (simp only [Kept.lit]; refine Kept.toF ?_) | dsimp only | split

theorem kept_kvBoundary {s0 s : State} (old : Nat) (t : Nat) (hkept : Kept s0 s) :
    Kept s0 (State.kvBoundary s old t) := by
  unfold State.kvBoundary
  try dsimp only
  repeat' with_reducible first
    | assumption | apply kept_setEvt | apply kept_postAssist | apply kept_setKv | apply kept_setAlloc
    | apply kept_postFreed | refine Kept.foldl ?_ ?_ | refine Kept.foldl1 ?_ ?_ | intro _ | refine Kept.getD ?_ ?_
    | refine Kept.ite ?_ ?_ | refine Kept.ite1 ?_ ?_ | (simp only [Kept.lit]; refine Kept.toF ?_) | dsimp only | split

theorem kept_setEmb {s0 s : State} (f : EmbState → EmbState) (hkept : Kept s0 s) :
    Kept s0 (State.setEmb s f) := by
  unfold State.setEmb
  try dsimp only
  repeat' with_reducible first
    | assumption | intro _ | (simp only [Kept.lit]; refine Kept.toF ?_) | dsimp only

theorem kept_setTable {s0 s : State} (n : Nat) (t : EmbTable) (hkept : Kept s0 s) :
    Kept s0 (State.setTable s n t) := by
  unfold State.setTable
  try dsimp only
  repeat' with_reducible first
    | assumption | apply kept_setEmb | intro _ | (simp only [Kept.lit]; refine Kept.toF ?_) | dsimp only

theorem kept_embCount {s0 s : State} (n : Nat) (f : TblCounts → TblCounts) (hkept : Kept s0 s) :
    Kept s0 (State.embCount s n f) := by
  unfold State.embCount
  try dsimp only
  repeat' with_reducible first
    | assumption | apply kept_setTable | intro _ | (simp only [Kept.lit]; refine Kept.toF ?_) | dsimp only

theorem kept_embError {s0 s : State} (n : Nat) (reason : Nat) (loc : Nat) (hkept : Kept s0 s) :
    Kept s0 (State.embError s n reason loc) := by
  unfold State.embError
  try dsimp only
  repeat' with_reducible first
    | assumption | apply kept_setEmb | intro _ | (simp only [Kept.lit]; refine Kept.toF ?_) | dsimp only

theorem kept_setRc {s0 s : State} (h : Nat) (l : List RcEntry) (hkept : Kept s0 s) :
    Kept s0 (State.setRc s h l) := by
  unfold State.setRc
  try dsimp only
  repeat' with_reducible first
    | assumption | apply kept_setEmb | intro _ | (simp only [Kept.lit]; refine Kept.toF ?_) | dsimp only

theorem kept_rcTouch {s0 s : State} (h : Nat) (n : Nat) (row : Nat) (hkept : Kept s0 s) :
    Kept s0 (State.rcTouch s h n row) := by
  unfold State.rcTouch
  try dsimp only
  repeat' with_reducible first
    | assumption | apply kept_setEmb | refine Kept.foldl ?_ ?_ | refine Kept.foldl1 ?_ ?_ | intro _
    | (simp only [Kept.lit]; refine Kept.toF ?_) | dsimp only

theorem kept_rcPlace {s0 s : State} (h : Nat) (e : RcEntry) (force : Bool) (hkept : Kept s0 s) :
    Kept s0 (State.rcPlace s h e force).1 := by
  unfold State.rcPlace
  try dsimp only
  repeat' with_reducible first
    | assumption | apply kept_setEmb | apply kept_setRc | refine Kept.foldl ?_ ?_ | refine Kept.foldl1 ?_ ?_
    | refine Kept.fst (by assumption) ?_ | intro _ | refine Kept.ite ?_ ?_ | refine Kept.ite1 ?_ ?_
    | (simp only [Kept.lit]; refine Kept.toF ?_) | dsimp only | split

theorem kept_rcOffer {s0 s : State} (h : Nat) (n : Nat) (row : Nat) (bytes : List Byte) (hkept : Kept s0 s) :
    Kept s0 (State.rcOffer s h n row bytes) := by
  unfold State.rcOffer
  try dsimp only
  repeat' with_reducible first
    | assumption | apply kept_setEmb | apply kept_rcPlace | intro _ | refine Kept.ite ?_ ?_ | refine Kept.ite1 ?_ ?_
    | (simp only [Kept.lit]; refine Kept.toF ?_) | dsimp only | split

theorem kept_rcDrop {s0 s : State} (n : Nat) (hkept : Kept s0 s) :
    Kept s0 (State.rcDrop s n) := by
  unfold State.rcDrop
  try dsimp only
  repeat' with_reducible first
    | assumption | apply kept_setEmb | intro _ | (simp only [Kept.lit]; refine Kept.toF ?_) | dsimp only

theorem kept_readPieces {s0 s : State} (key epoch : Nat) (l : List (Bool × Nat × Nat)) (ext : List Byte) (h : Kept s0 s) :
    Kept s0 (State.readPieces key epoch l ext s).1 := by
  induction l generalizing s ext with
  | nil => exact h
  | cons p t ih =>
    obtain ⟨b, a, n⟩ := p
    cases b
    · exact ih _ (kept_readKeyed key epoch [(a, n)] h)
    · exact ih _ h

theorem kept_defaultBytes {s0 s : State} (t : EmbTable) (ext : List Byte) (hkept : Kept s0 s) :
    Kept s0 (State.defaultBytes s t ext).1 := by
  unfold State.defaultBytes
  try dsimp only
  repeat' with_reducible first
    | assumption | apply kept_readPieces | refine Kept.fst (by assumption) ?_ | intro _
    | (simp only [Kept.lit]; refine Kept.toF ?_) | dsimp only | split

theorem kept_execTblLoad {s0 s : State} (tok : Nat) (ext : List Byte) (hkept : Kept s0 s) :
    KeptO s0 (execTblLoad tok ext s) := by
  unfold execTblLoad
  try dsimp only
  repeat' with_reducible first
    | assumption | apply kept_setEvt | apply kept_refuse | apply kept_runDesc | apply kept_xlateRange
    | apply kept_acquire | apply kept_readSegs | apply kept_setTable | apply kept_embError | apply kept_defaultBytes
    | refine Kept.fst (by assumption) ?_ | refine Kept.ofReady (by assumption) ?_
    | refine Kept.ofWait (by assumption) ?_ | refine Kept.ofStop (by assumption) ?_ | intro _ | refine KeptO.next ?_
    | refine Kept.ite ?_ ?_ | refine Kept.ite1 ?_ ?_ | (simp only [Kept.lit]; refine Kept.toF ?_) | dsimp only | split

theorem kept_admitTblUnload {s0 s : State} (tok : Nat) (d : Desc) (hkept : Kept s0 s) :
    Kept s0 (State.admitTblUnload s tok d) := by
  unfold State.admitTblUnload
  try dsimp only
  repeat' with_reducible first
    | assumption | apply kept_setTable | intro _ | refine Kept.ite ?_ ?_ | refine Kept.ite1 ?_ ?_
    | (simp only [Kept.lit]; refine Kept.toF ?_) | dsimp only | split

theorem kept_dropUpdate {s0 s : State} (n : Nat) (hkept : Kept s0 s) :
    Kept s0 (State.dropUpdate s n) := by
  unfold State.dropUpdate
  try dsimp only
  repeat' with_reducible first
    | assumption | apply kept_opEnd | apply kept_setEmb | apply kept_embCount | refine Kept.fst (by assumption) ?_
    | intro _ | (simp only [Kept.lit]; refine Kept.toF ?_) | dsimp only | split

theorem kept_freeTable {s0 s : State} (n : Nat) (hkept : Kept s0 s) :
    Kept s0 (State.freeTable s n) := by
  unfold State.freeTable
  try dsimp only
  repeat' with_reducible first
    | assumption | apply kept_setTable | apply kept_rcDrop | apply kept_dropUpdate | intro _ | dsimp only

theorem kept_tblUnload {s0 s : State} (tok : Nat) (hkept : Kept s0 s) :
    Kept s0 (State.tblUnload s tok) := by
  unfold State.tblUnload
  try dsimp only
  repeat' with_reducible first
    | assumption | apply kept_setEvt | apply kept_runDesc | apply kept_freeTable | refine Kept.fst (by assumption) ?_
    | intro _ | refine Kept.ite ?_ ?_ | refine Kept.ite1 ?_ ?_ | (simp only [Kept.lit]; refine Kept.toF ?_)
    | dsimp only | split

theorem kept_execTblUnload {s0 s : State} (tok : Nat) (hkept : Kept s0 s) :
    KeptO s0 (execTblUnload tok s) := by
  unfold execTblUnload
  try dsimp only
  repeat' with_reducible first
    | assumption | apply kept_tblUnload | intro _ | refine KeptO.next ?_ | dsimp only

theorem kept_readArrays {s0 s : State} (d : Desc) (segs : List (List Seg)) (ext : List Byte) (hkept : Kept s0 s) :
    Kept s0 (State.readArrays s d segs ext).1 := by
  unfold State.readArrays
  try dsimp only
  repeat' with_reducible first
    | assumption | apply kept_readSegs | refine Kept.foldl ?_ ?_ | refine Kept.foldl1 ?_ ?_
    | refine Kept.fst (by assumption) ?_ | intro _ | dsimp only | split

theorem kept_noteLate {s0 s : State} (d : Desc) (l : List (Bool × Nat × Nat)) (hkept : Kept s0 s) :
    Kept s0 (State.noteLate s d l) := by
  unfold State.noteLate
  try dsimp only
  repeat' with_reducible first
    | assumption | apply kept_setTier | apply kept_lateFetch | intro _ | (simp only [Kept.lit]; refine Kept.toF ?_)
    | dsimp only

theorem kept_fetchIndex {s0 s : State} (d : Desc) (n : Nat) (v : Nat) (tally : LkTally) (ext : List Byte) (raw : Nat) (hkept : Kept s0 s) :
    Kept s0 (State.fetchIndex s d n v tally ext raw).1 := by
  unfold State.fetchIndex
  try dsimp only
  repeat' with_reducible first
    | assumption | apply kept_setEmb | apply kept_rcTouch | apply kept_rcOffer | apply kept_readPieces
    | apply kept_noteLate | refine Kept.fst (by assumption) ?_ | intro _ | refine Kept.ite ?_ ?_
    | refine Kept.ite1 ?_ ?_ | (simp only [Kept.lit]; refine Kept.toF ?_) | dsimp only | split

theorem kept_lookupRow {s0 s : State} (tok : Nat) (d : Desc) (f : BagForm) (v : Nat) (j : Nat) (tally : LkTally) (ext : List Byte) (items : List (Nat × Nat)) (hkept : Kept s0 s) :
    Kept s0 (State.lookupRow s tok d f v j tally ext items).1 := by
  unfold State.lookupRow
  try dsimp only
  repeat' with_reducible first
    | assumption | apply kept_fabPut | apply kept_fabPutPoisoned | apply kept_fetchIndex | refine Kept.foldl ?_ ?_
    | refine Kept.foldl1 ?_ ?_ | refine Kept.fst (by assumption) ?_ | intro _ | refine Kept.ite ?_ ?_
    | refine Kept.ite1 ?_ ?_ | (simp only [Kept.lit]; refine Kept.toF ?_) | dsimp only | split

theorem kept_lookupOver {s0 s : State} (tok : Nat) (d : Desc) (f : BagForm) (items : List (List (Nat × Nat))) (ext : List Byte) (hkept : Kept s0 s) :
    Kept s0 (State.lookupOver s tok d f items ext).1 := by
  unfold State.lookupOver
  try dsimp only
  repeat' with_reducible first
    | assumption | apply kept_lookupRow | refine Kept.foldl ?_ ?_ | refine Kept.foldl1 ?_ ?_ | intro _ | dsimp only

theorem kept_noteLookup {s0 s : State} (f : BagForm) (tally : LkTally) (hkept : Kept s0 s) :
    Kept s0 (State.noteLookup s f tally) := by
  unfold State.noteLookup
  try dsimp only
  repeat' with_reducible first
    | assumption | apply kept_setEvt | apply kept_embCount | intro _ | refine Kept.ite ?_ ?_ | refine Kept.ite1 ?_ ?_
    | (simp only [Kept.lit]; refine Kept.toF ?_) | dsimp only | split

theorem kept_execLookup {s0 s : State} (tok : Nat) (ext : List Byte) (hkept : Kept s0 s) :
    KeptO s0 (execLookup tok ext s) := by
  unfold execLookup
  try dsimp only
  repeat' with_reducible first
    | assumption | apply kept_finish | apply kept_runDesc | apply kept_engineReady | apply kept_acquire
    | apply kept_readArrays | apply kept_lookupOver | apply kept_noteLookup | refine Kept.fst (by assumption) ?_
    | refine Kept.ofReady (by assumption) ?_ | refine Kept.ofWait (by assumption) ?_
    | refine Kept.ofStop (by assumption) ?_ | intro _ | refine KeptO.next ?_ | refine Kept.ite ?_ ?_
    | refine Kept.ite1 ?_ ?_ | (simp only [Kept.lit]; refine Kept.toF ?_) | dsimp only | split

theorem kept_execTablePublish {s0 s : State} (tok : Nat) (ext : List Byte) (hkept : Kept s0 s) :
    KeptO s0 (execTablePublish tok ext s) := by
  unfold execTablePublish
  try dsimp only
  repeat' with_reducible first
    | assumption | apply kept_finish | apply kept_runDesc | apply kept_xlateRange | apply kept_setTable
    | refine Kept.fst (by assumption) ?_ | intro _ | refine KeptO.next ?_ | refine Kept.ite ?_ ?_
    | refine Kept.ite1 ?_ ?_ | (simp only [Kept.lit]; refine Kept.toF ?_) | dsimp only | split

theorem kept_rcAdmitOver {s0 s : State} (n : Nat) (t : EmbTable) (src : Nat → RowSrc) (rows : List Nat) (ext : List Byte) (hkept : Kept s0 s) :
    Kept s0 (State.rcAdmitOver s n t src rows ext).1 := by
  unfold State.rcAdmitOver
  try dsimp only
  repeat' with_reducible first
    | assumption | apply kept_rcPlace | apply kept_readPieces | refine Kept.foldl ?_ ?_ | refine Kept.foldl1 ?_ ?_
    | refine Kept.fst (by assumption) ?_ | intro _ | refine Kept.ite ?_ ?_ | refine Kept.ite1 ?_ ?_
    | (simp only [Kept.lit]; refine Kept.toF ?_) | dsimp only | split

theorem kept_execRcAdmit {s0 s : State} (tok : Nat) (ext : List Byte) (hkept : Kept s0 s) :
    KeptO s0 (execRcAdmit tok ext s) := by
  unfold execRcAdmit
  try dsimp only
  repeat' with_reducible first
    | assumption | apply kept_finish | apply kept_runDesc | apply kept_engineReady | apply kept_acquire
    | apply kept_readSegs | apply kept_rcAdmitOver | refine Kept.fst (by assumption) ?_
    | refine Kept.ofReady (by assumption) ?_ | refine Kept.ofWait (by assumption) ?_
    | refine Kept.ofStop (by assumption) ?_ | intro _ | refine KeptO.next ?_ | refine Kept.ite ?_ ?_
    | refine Kept.ite1 ?_ ?_ | (simp only [Kept.lit]; refine Kept.toF ?_) | dsimp only | split

theorem kept_effEmbPriv {s0 s : State} (v : Word) (hkept : Kept s0 s) :
    Kept s0 (effEmbPriv v s).1 := by
  unfold effEmbPriv
  try dsimp only
  repeat' with_reducible first
    | assumption | apply kept_setEmb | apply kept_setTable | intro _ | refine Kept.ite ?_ ?_ | refine Kept.ite1 ?_ ?_
    | (simp only [Kept.lit]; refine Kept.toF ?_) | dsimp only | split

theorem kept_execEmbPrivEntryWrite {s0 s : State} (path : Nat) (value : Word) (cycle : Nat) (hkept : Kept s0 s) :
    KeptO s0 (execEmbPrivEntryWrite path value cycle s) := by
  unfold execEmbPrivEntryWrite
  try dsimp only
  repeat' with_reducible first
    | assumption | apply kept_guardPair | apply kept_effEmbPriv | intro _ | refine KeptO.next ?_ | dsimp only

end Sys2Proof.Machine
end

