-- ==== Sys2Proof/Laws/KeptServices.lean ====
section
/-! SUPPORT. What the commands of table updates, search, queues and power keep: the canonical form of the memory, the queue, and the bound
of the fault records. -/

namespace Sys2Proof.Machine

set_option Elab.async false

theorem kept_setUpdate {s0 s : State} (n : Nat) (u : EmbUpdate) (hkept : Kept s0 s) :
    Kept s0 (State.setUpdate s n u) := by
  unfold State.setUpdate
  try dsimp only
  repeat' with_reducible first
    | assumption | apply kept_setEmb | intro _ | (simp only [Kept.lit]; refine Kept.toF ?_) | dsimp only

theorem kept_execUpdStart {s0 s : State} (tok : Nat) (ext : List Byte) (hkept : Kept s0 s) :
    KeptO s0 (execUpdStart tok ext s) := by
  unfold execUpdStart
  try dsimp only
  repeat' with_reducible first
    | assumption | apply kept_finish | apply kept_runDesc | apply kept_xlateRange | apply kept_acquire
    | apply kept_readSegs | apply kept_setUpdate | refine Kept.fst (by assumption) ?_
    | refine Kept.ofReady (by assumption) ?_ | refine Kept.ofWait (by assumption) ?_
    | refine Kept.ofStop (by assumption) ?_ | intro _ | refine KeptO.next ?_ | refine Kept.ite ?_ ?_
    | refine Kept.ite1 ?_ ?_ | (simp only [Kept.lit]; refine Kept.toF ?_) | dsimp only | split

theorem kept_admitUpdStop {s0 s : State} (tok : Nat) (d : Desc) (hkept : Kept s0 s) :
    Kept s0 (State.admitUpdStop s tok d) := by
  unfold State.admitUpdStop
  try dsimp only
  repeat' with_reducible first
    | assumption | apply kept_setUpdate | refine Kept.fst (by assumption) ?_ | intro _ | refine Kept.ite ?_ ?_
    | refine Kept.ite1 ?_ ?_ | (simp only [Kept.lit]; refine Kept.toF ?_) | dsimp only | split

theorem kept_execUpdStop {s0 s : State} (tok : Nat) (hkept : Kept s0 s) :
    KeptO s0 (execUpdStop tok s) := by
  unfold execUpdStop
  try dsimp only
  repeat' with_reducible first
    | assumption | apply kept_runDesc | refine Kept.fst (by assumption) ?_ | intro _ | refine KeptO.next ?_
    | refine Kept.ite ?_ ?_ | refine Kept.ite1 ?_ ?_ | (simp only [Kept.lit]; refine Kept.toF ?_) | dsimp only | split

theorem kept_execScatterGrad {s0 s : State} (tok : Nat) (ext : List Byte) (hkept : Kept s0 s) :
    KeptO s0 (execScatterGrad tok ext s) := by
  unfold execScatterGrad
  try dsimp only
  repeat' with_reducible first
    | assumption | apply kept_setEvt | apply kept_finish | apply kept_runDesc | apply kept_acquire
    | apply kept_embCount | apply kept_readArrays | apply kept_setUpdate | refine Kept.foldl ?_ ?_
    | refine Kept.foldl1 ?_ ?_ | refine Kept.fst (by assumption) ?_ | refine Kept.ofReady (by assumption) ?_
    | refine Kept.ofWait (by assumption) ?_ | refine Kept.ofStop (by assumption) ?_ | intro _ | refine KeptO.next ?_
    | refine Kept.ite ?_ ?_ | refine Kept.ite1 ?_ ?_ | (simp only [Kept.lit]; refine Kept.toF ?_) | dsimp only | split

theorem kept_writeQuiet {s0 s : State} (key epoch : Nat) (l : List (Nat × Nat)) (b : List Byte) (h : Kept s0 s) :
    Kept s0 (s.writeQuiet key epoch l b) := by
  induction l generalizing s b with
  | nil => exact h
  | cons p t ih =>
    refine ih _ ?_
    split
    · exact kept_homeWrite _ _ _ _ _ _ _ h
    · exact kept_staleAccess h

theorem kept_updSkip {s0 s : State} (n : Nat) (row : Nat) (poison : Bool) (hkept : Kept s0 s) :
    Kept s0 (State.updSkip s n row poison) := by
  unfold State.updSkip
  try dsimp only
  repeat' with_reducible first
    | assumption | apply kept_draw | apply kept_setEvt | apply kept_event | apply kept_setEmb | apply kept_embCount
    | refine Kept.fst (by assumption) ?_ | refine Kept.snd (by assumption) ?_ | intro _ | refine Kept.ite ?_ ?_
    | refine Kept.ite1 ?_ ?_ | (simp only [Kept.lit]; refine Kept.toF ?_) | dsimp only | split

theorem kept_applyRow {s0 s : State} (n : Nat) (u : EmbUpdate) (img : TblImage) (w : MergeWindow) (e : Nat × MergeRow) (hkept : Kept s0 s) :
    Kept s0 (State.applyRow s n u img w e).1 := by
  unfold State.applyRow
  try dsimp only
  repeat' with_reducible first
    | assumption | apply kept_readKeyed | apply kept_embCount | apply kept_writeQuiet | apply kept_updSkip
    | refine Kept.fst (by assumption) ?_ | intro _ | refine Kept.ite ?_ ?_ | refine Kept.ite1 ?_ ?_
    | (simp only [Kept.lit]; refine Kept.toF ?_) | dsimp only | split

theorem kept_applyWindow {s0 s : State} (n : Nat) (w : MergeWindow) (hkept : Kept s0 s) :
    Kept s0 (State.applyWindow s n w) := by
  unfold State.applyWindow
  try dsimp only
  repeat' with_reducible first
    | assumption | apply kept_setUpdate | apply kept_applyRow | refine Kept.foldl ?_ ?_ | refine Kept.foldl1 ?_ ?_
    | refine Kept.fst (by assumption) ?_ | intro _ | (simp only [Kept.lit]; refine Kept.toF ?_) | dsimp only | split

theorem kept_writeBack {s0 s : State} (n : Nat) (w : MergeWindow) (hkept : Kept s0 s) :
    Kept s0 (State.writeBack s n w) := by
  unfold State.writeBack
  try dsimp only
  repeat' with_reducible first
    | assumption | apply kept_readKeyed | apply kept_setUpdate | apply kept_writeQuiet | refine Kept.foldl ?_ ?_
    | refine Kept.foldl1 ?_ ?_ | refine Kept.fst (by assumption) ?_ | intro _
    | (simp only [Kept.lit]; refine Kept.toF ?_) | dsimp only | split

theorem kept_releaseWindows {s0 s : State} (n : Nat) (hkept : Kept s0 s) :
    Kept s0 (State.releaseWindows s n) := by
  unfold State.releaseWindows
  try dsimp only
  repeat' with_reducible first
    | assumption | apply kept_setUpdate | refine Kept.fst (by assumption) ?_ | intro _
    | (simp only [Kept.lit]; refine Kept.toF ?_) | dsimp only | split

theorem kept_commitWindow {s0 s : State} (n : Nat) (t : Nat) (hkept : Kept s0 s) :
    Kept s0 (State.commitWindow s n t) := by
  unfold State.commitWindow
  try dsimp only
  repeat' with_reducible first
    | assumption | apply kept_setEvt | apply kept_setEmb | apply kept_embCount | apply kept_setUpdate
    | refine Kept.fst (by assumption) ?_ | intro _ | refine Kept.ite ?_ ?_ | refine Kept.ite1 ?_ ?_
    | (simp only [Kept.lit]; refine Kept.toF ?_) | dsimp only | split

theorem kept_sealWindow {s0 s : State} (n : Nat) (t : Nat) (hkept : Kept s0 s) :
    Kept s0 (State.sealWindow s n t) := by
  unfold State.sealWindow
  try dsimp only
  repeat' with_reducible first
    | assumption | apply kept_setEvt | apply kept_embCount | apply kept_setUpdate | refine Kept.fst (by assumption) ?_
    | intro _ | refine Kept.ite ?_ ?_ | refine Kept.ite1 ?_ ?_ | (simp only [Kept.lit]; refine Kept.toF ?_)
    | dsimp only | split

theorem kept_endUpdate {s0 s : State} (n : Nat) (hkept : Kept s0 s) :
    Kept s0 (State.endUpdate s n) := by
  unfold State.endUpdate
  try dsimp only
  repeat' with_reducible first
    | assumption | apply kept_opEnd | apply kept_runDesc | apply kept_setEmb | refine Kept.fst (by assumption) ?_
    | intro _ | refine Kept.ite ?_ ?_ | refine Kept.ite1 ?_ ?_ | (simp only [Kept.lit]; refine Kept.toF ?_)
    | dsimp only | split

theorem kept_windowsStep {s0 s : State} (t : Nat) (hkept : Kept s0 s) :
    Kept s0 (State.windowsStep s t) := by
  unfold State.windowsStep
  try dsimp only
  repeat' with_reducible first
    | assumption | apply kept_releaseWindows | apply kept_commitWindow | apply kept_sealWindow | apply kept_endUpdate
    | refine Kept.foldl ?_ ?_ | refine Kept.foldl1 ?_ ?_ | intro _ | dsimp only

theorem kept_windowsWork {s0 s : State} (hkept : Kept s0 s) :
    Kept s0 (State.windowsWork s) := by
  unfold State.windowsWork
  try dsimp only
  repeat' with_reducible first
    | assumption | apply kept_applyWindow | apply kept_writeBack | refine Kept.foldl ?_ ?_ | refine Kept.foldl1 ?_ ?_
    | refine Kept.fst (by assumption) ?_ | intro _ | (simp only [Kept.lit]; refine Kept.toF ?_) | dsimp only | split

theorem kept_freeVersions {s0 s : State} (n : Nat) (hkept : Kept s0 s) :
    Kept s0 (State.freeVersions s n) := by
  unfold State.freeVersions
  try dsimp only
  repeat' with_reducible first
    | assumption | apply kept_setEvt | apply kept_postAssist | apply kept_setTable | refine Kept.foldl ?_ ?_
    | refine Kept.foldl1 ?_ ?_ | intro _ | refine Kept.ite ?_ ?_ | refine Kept.ite1 ?_ ?_
    | (simp only [Kept.lit]; refine Kept.toF ?_) | dsimp only | split

theorem kept_refreshDefault {s0 s : State} (n : Nat) (ext : List Byte) (hkept : Kept s0 s) :
    Kept s0 (State.refreshDefault s n ext) := by
  unfold State.refreshDefault
  try dsimp only
  repeat' with_reducible first
    | assumption | apply kept_setTable | apply kept_defaultBytes | refine Kept.fst (by assumption) ?_ | intro _
    | refine Kept.ite ?_ ?_ | refine Kept.ite1 ?_ ?_ | (simp only [Kept.lit]; refine Kept.toF ?_) | dsimp only | split

theorem kept_windowPublish {s0 s : State} (n : Nat) (hkept : Kept s0 s) :
    Kept s0 (State.windowPublish s n) := by
  unfold State.windowPublish
  try dsimp only
  repeat' with_reducible first
    | assumption | apply kept_setTable | apply kept_refreshDefault | refine Kept.fst (by assumption) ?_ | intro _
    | refine Kept.ite ?_ ?_ | refine Kept.ite1 ?_ ?_ | (simp only [Kept.lit]; refine Kept.toF ?_) | dsimp only | split

theorem kept_imagePublish {s0 s : State} (n : Nat) (hkept : Kept s0 s) :
    Kept s0 (State.imagePublish s n) := by
  unfold State.imagePublish
  try dsimp only
  repeat' with_reducible first
    | assumption | apply kept_opEnd | apply kept_setTable | apply kept_refreshDefault
    | refine Kept.fst (by assumption) ?_ | intro _ | refine Kept.ite ?_ ?_ | refine Kept.ite1 ?_ ?_
    | (simp only [Kept.lit]; refine Kept.toF ?_) | dsimp only | split

theorem kept_versionsStep {s0 s : State} (hkept : Kept s0 s) :
    Kept s0 (State.versionsStep s) := by
  unfold State.versionsStep
  try dsimp only
  repeat' with_reducible first
    | assumption | apply kept_freeVersions | apply kept_windowPublish | apply kept_imagePublish
    | refine Kept.foldl ?_ ?_ | refine Kept.foldl1 ?_ ?_ | intro _ | dsimp only

theorem kept_embStart {s0 s : State} (e : Nat × Desc) (hkept : Kept s0 s) :
    Kept s0 (State.embStart s e) := by
  unfold State.embStart
  try dsimp only
  repeat' with_reducible first
    | assumption | apply kept_setDesc | apply kept_finish | refine Kept.fst (by assumption) ?_ | intro _
    | refine Kept.ite ?_ ?_ | refine Kept.ite1 ?_ ?_ | (simp only [Kept.lit]; refine Kept.toF ?_) | dsimp only | split

theorem kept_policyStep {s0 s : State} (hkept : Kept s0 s) :
    Kept s0 (State.policyStep s) := by
  unfold State.policyStep
  try dsimp only
  repeat' with_reducible first
    | assumption | apply kept_setEmb | intro _ | refine Kept.ite ?_ ?_ | refine Kept.ite1 ?_ ?_
    | (simp only [Kept.lit]; refine Kept.toF ?_) | dsimp only | split

theorem kept_rcAge {s0 s : State} (old : Nat) (t : Nat) (hkept : Kept s0 s) :
    Kept s0 (State.rcAge s old t) := by
  unfold State.rcAge
  try dsimp only
  repeat' with_reducible first
    | assumption | apply kept_setEmb | intro _ | (simp only [Kept.lit]; refine Kept.toF ?_) | dsimp only

theorem kept_rcAssist {s0 s : State} (hkept : Kept s0 s) :
    Kept s0 (State.rcAssist s) := by
  unfold State.rcAssist
  try dsimp only
  repeat' with_reducible first
    | assumption | apply kept_postAssist | apply kept_setEmb | refine Kept.foldl ?_ ?_ | refine Kept.foldl1 ?_ ?_
    | intro _ | refine Kept.getD ?_ ?_ | refine Kept.ite ?_ ?_ | refine Kept.ite1 ?_ ?_
    | (simp only [Kept.lit]; refine Kept.toF ?_) | dsimp only | split

theorem kept_rcShrink {s0 s : State} (h : Nat) (blocks : Nat) (hkept : Kept s0 s) :
    Kept s0 (State.rcShrink s h blocks) := by
  unfold State.rcShrink
  try dsimp only
  repeat' with_reducible first
    | assumption | apply kept_setRc | refine Kept.foldl ?_ ?_ | refine Kept.foldl1 ?_ ?_ | intro _
    | refine Kept.ite ?_ ?_ | refine Kept.ite1 ?_ ?_ | dsimp only | split

theorem kept_admitEmb {s0 s : State} (tok : Nat) (d : Desc) (hkept : Kept s0 s) :
    Kept s0 (State.admitEmb s tok d) := by
  unfold State.admitEmb
  try dsimp only
  repeat' with_reducible first
    | assumption | apply kept_setDesc | intro _ | refine Kept.ite ?_ ?_ | refine Kept.ite1 ?_ ?_
    | (simp only [Kept.lit]; refine Kept.toF ?_) | dsimp only | split

theorem kept_setSrh {s0 s : State} (f : SrhState → SrhState) (hkept : Kept s0 s) :
    Kept s0 (State.setSrh s f) := by
  unfold State.setSrh
  try dsimp only
  repeat' with_reducible first
    | assumption | intro _ | (simp only [Kept.lit]; refine Kept.toF ?_) | dsimp only

theorem kept_setIndex {s0 s : State} (n : Nat) (x : SrhIndex) (hkept : Kept s0 s) :
    Kept s0 (State.setIndex s n x) := by
  unfold State.setIndex
  try dsimp only
  repeat' with_reducible first
    | assumption | apply kept_setSrh | intro _ | (simp only [Kept.lit]; refine Kept.toF ?_) | dsimp only

theorem kept_setChan {s0 s : State} (c : Nat) (x : FlashChan) (hkept : Kept s0 s) :
    Kept s0 (State.setChan s c x) := by
  unfold State.setChan
  try dsimp only
  repeat' with_reducible first
    | assumption | apply kept_setSrh | intro _ | (simp only [Kept.lit]; refine Kept.toF ?_) | dsimp only

theorem kept_countPages {s0 s : State} (slice : Nat) (k : Nat) (hkept : Kept s0 s) :
    Kept s0 (State.countPages s slice k) := by
  unfold State.countPages
  try dsimp only
  repeat' with_reducible first
    | assumption | intro _ | (simp only [Kept.lit]; refine Kept.toF ?_) | dsimp only

theorem kept_linesReady {s0 s : State} (tok : Option Nat) (ranges : List (Nat × Nat)) (hkept : Kept s0 s) :
    Kept s0 (State.linesReady s tok ranges).1 := by
  unfold State.linesReady
  try dsimp only
  repeat' with_reducible first
    | assumption | apply kept_engineReady | refine Kept.fst (by assumption) ?_ | intro _
    | (simp only [Kept.lit]; refine Kept.toF ?_) | dsimp only | split

theorem kept_nodeBytes {s0 s : State} (tok : Option Nat) (x : SrhIndex) (off : Nat) (len : Nat) (hkept : Kept s0 s) :
    Kept s0 (State.nodeBytes s tok x off len).1 := by
  unfold State.nodeBytes
  try dsimp only
  repeat' with_reducible first
    | assumption | apply kept_readKeyed | apply kept_linesReady | refine Kept.fst (by assumption) ?_ | intro _
    | refine Kept.ite ?_ ?_ | refine Kept.ite1 ?_ ?_ | (simp only [Kept.lit]; refine Kept.toF ?_) | dsimp only | split

theorem kept_readNode {s0 s : State} (tok : Option Nat) (x : SrhIndex) (n : Nat) (level : Nat) (hkept : Kept s0 s) :
    Kept s0 (State.readNode s tok x n level).1 := by
  unfold State.readNode
  try dsimp only
  repeat' with_reducible first
    | assumption | apply kept_nodeBytes | refine Kept.fst (by assumption) ?_ | intro _ | refine Kept.ite ?_ ?_
    | refine Kept.ite1 ?_ ?_ | (simp only [Kept.lit]; refine Kept.toF ?_) | dsimp only | split

theorem kept_scoreBeam {s0 s : State} (tok : Option Nat) (x : SrhIndex) (q : List FV) (qn : FV) (level : Nat) (beam : List Nat) (hkept : Kept s0 s) :
    Kept s0 (State.scoreBeam s tok x q qn level beam).1 := by
  unfold State.scoreBeam
  try dsimp only
  repeat' with_reducible first
    | assumption | apply kept_readNode | refine Kept.foldl ?_ ?_ | refine Kept.foldl1 ?_ ?_
    | refine Kept.fst (by assumption) ?_ | intro _ | (simp only [Kept.lit]; refine Kept.toF ?_) | dsimp only | split

theorem kept_walkTree {s0 s : State} (tok : Option Nat) (x : SrhIndex) (q : List FV) (qn : FV) (beamN probes n level : Nat)
    (beam : List Nat) (h : Kept s0 s) : Kept s0 (State.walkTree tok x q qn beamN probes n level beam s).1 := by
  induction n generalizing level beam s with
  | zero => exact h
  | succ n ih =>
    have h1 := kept_scoreBeam tok x q qn level beam h
    unfold State.walkTree
    split <;> rename_i e <;> rw [e] at h1
    · exact h1
    · exact h1
    · split
      · exact h1
      · exact ih _ _ h1

theorem kept_probesOf {s0 s : State} (tok : Option Nat) (x : SrhIndex) (vec : List Byte) (beam : Nat) (probes : Nat) (hkept : Kept s0 s) :
    Kept s0 (State.probesOf s tok x vec beam probes).1 := by
  unfold State.probesOf
  try dsimp only
  repeat' with_reducible first
    | assumption | apply kept_walkTree | intro _ | dsimp only

theorem kept_dropRetained {s0 s : State} (n : Nat) (hkept : Kept s0 s) :
    Kept s0 (State.dropRetained s n) := by
  unfold State.dropRetained
  try dsimp only
  repeat' with_reducible first
    | assumption | apply kept_setSrh | intro _ | (simp only [Kept.lit]; refine Kept.toF ?_) | dsimp only

theorem kept_newIndex {s0 s : State} (n : Nat) (x : SrhIndex) (hkept : Kept s0 s) :
    Kept s0 (State.newIndex s n x) := by
  unfold State.newIndex
  try dsimp only
  repeat' with_reducible first
    | assumption | apply kept_event | apply kept_setIndex | apply kept_setChan | apply kept_dropRetained
    | refine Kept.foldl ?_ ?_ | refine Kept.foldl1 ?_ ?_ | refine Kept.fst (by assumption) ?_ | intro _
    | refine Kept.ite ?_ ?_ | refine Kept.ite1 ?_ ?_ | (simp only [Kept.lit]; refine Kept.toF ?_) | dsimp only | split

theorem kept_execIdxLoad {s0 s : State} (tok : Nat) (ext : List Byte) (hkept : Kept s0 s) :
    KeptO s0 (execIdxLoad tok ext s) := by
  unfold execIdxLoad
  try dsimp only
  repeat' with_reducible first
    | assumption | apply kept_setEvt | apply kept_refuse | apply kept_runDesc | apply kept_xlateNeeds
    | apply kept_acquire | apply kept_readSegs | apply kept_setSrh | apply kept_newIndex
    | refine Kept.fst (by assumption) ?_ | refine Kept.ofReady (by assumption) ?_
    | refine Kept.ofWait (by assumption) ?_ | refine Kept.ofStop (by assumption) ?_ | intro _ | refine KeptO.next ?_
    | refine Kept.ite ?_ ?_ | refine Kept.ite1 ?_ ?_ | (simp only [Kept.lit]; refine Kept.toF ?_) | dsimp only | split

theorem kept_program {s0 s : State} (p : FlashProgram) (hkept : Kept s0 s) :
    Kept s0 (State.program s p) := by
  unfold State.program
  try dsimp only
  repeat' with_reducible first
    | assumption | apply kept_setSrh | intro _ | (simp only [Kept.lit]; refine Kept.toF ?_) | dsimp only

theorem kept_leafOne {s0 s : State} (tok : Nat) (n : Nat) (leaf : Nat) (l : List Byte) (hkept : Kept s0 s) :
    Kept s0 (State.leafOne s tok n leaf l).1 := by
  unfold State.leafOne
  try dsimp only
  repeat' with_reducible first
    | assumption | apply kept_draw | apply kept_setIndex | apply kept_program | refine Kept.fst (by assumption) ?_
    | refine Kept.snd (by assumption) ?_ | intro _ | refine Kept.ite ?_ ?_ | refine Kept.ite1 ?_ ?_
    | (simp only [Kept.lit]; refine Kept.toF ?_) | dsimp only | split

theorem kept_endLeafWrite {s0 s : State} (tok : Nat) (hkept : Kept s0 s) :
    Kept s0 (State.endLeafWrite s tok) := by
  unfold State.endLeafWrite
  try dsimp only
  repeat' with_reducible first
    | assumption | apply kept_opEnd | apply kept_setSrh | refine Kept.fst (by assumption) ?_ | intro _
    | refine Kept.ite ?_ ?_ | refine Kept.ite1 ?_ ?_ | (simp only [Kept.lit]; refine Kept.toF ?_) | dsimp only | split

theorem kept_leafOver {s0 s : State} (tok : Nat) (n : Nat) (leaf : Nat) (count : Nat) (bytes : List Byte) (hkept : Kept s0 s) :
    Kept s0 (State.leafOver s tok n leaf count bytes).1 := by
  unfold State.leafOver
  try dsimp only
  repeat' with_reducible first
    | assumption | apply kept_leafOne | refine Kept.foldl ?_ ?_ | refine Kept.foldl1 ?_ ?_
    | refine Kept.fst (by assumption) ?_ | intro _ | (simp only [Kept.lit]; refine Kept.toF ?_) | dsimp only | split

theorem kept_execLeafWrite {s0 s : State} (tok : Nat) (ext : List Byte) (hkept : Kept s0 s) :
    KeptO s0 (execLeafWrite tok ext s) := by
  unfold execLeafWrite
  try dsimp only
  repeat' with_reducible first
    | assumption | apply kept_finish | apply kept_runDesc | apply kept_acquire | apply kept_readSegs
    | apply kept_setSrh | apply kept_endLeafWrite | apply kept_leafOver | refine Kept.fst (by assumption) ?_
    | refine Kept.ofReady (by assumption) ?_ | refine Kept.ofWait (by assumption) ?_
    | refine Kept.ofStop (by assumption) ?_ | intro _ | refine KeptO.next ?_ | refine Kept.ite ?_ ?_
    | refine Kept.ite1 ?_ ?_ | (simp only [Kept.lit]; refine Kept.toF ?_) | dsimp only | split

theorem kept_execFlashPageProgramDone {s0 s : State} (fpa : Nat) (ok : Bool) (hkept : Kept s0 s) :
    KeptO s0 (execFlashPageProgramDone fpa ok s) := by
  unfold execFlashPageProgramDone
  try dsimp only
  repeat' with_reducible first
    | assumption | apply kept_setSrh | apply kept_setIndex | apply kept_endLeafWrite
    | refine Kept.fst (by assumption) ?_ | intro _ | refine KeptO.next ?_ | refine Kept.ite ?_ ?_
    | refine Kept.ite1 ?_ ?_ | (simp only [Kept.lit]; refine Kept.toF ?_) | dsimp only | split

theorem kept_execIdxActivate {s0 s : State} (tok : Nat) (hkept : Kept s0 s) :
    KeptO s0 (execIdxActivate tok s) := by
  unfold execIdxActivate
  try dsimp only
  repeat' with_reducible first
    | assumption | apply kept_runDesc | apply kept_setIndex | intro _ | refine KeptO.next ?_ | refine Kept.ite ?_ ?_
    | refine Kept.ite1 ?_ ?_ | (simp only [Kept.lit]; refine Kept.toF ?_) | dsimp only | split

theorem kept_catalogue {s0 s : State} (n : Nat) (hkept : Kept s0 s) :
    Kept s0 (State.catalogue s n) := by
  unfold State.catalogue
  try dsimp only
  repeat' with_reducible first
    | assumption | apply kept_setSrh | intro _ | (simp only [Kept.lit]; refine Kept.toF ?_) | dsimp only

theorem kept_admitIdxUnload {s0 s : State} (tok : Nat) (d : Desc) (hkept : Kept s0 s) :
    Kept s0 (State.admitIdxUnload s tok d) := by
  unfold State.admitIdxUnload
  try dsimp only
  repeat' with_reducible first
    | assumption | apply kept_setIndex | intro _ | refine Kept.ite ?_ ?_ | refine Kept.ite1 ?_ ?_
    | (simp only [Kept.lit]; refine Kept.toF ?_) | dsimp only | split

theorem kept_abandonPass {s0 s : State} (n : Nat) (hkept : Kept s0 s) :
    Kept s0 (State.abandonPass s n) := by
  unfold State.abandonPass
  try dsimp only
  repeat' with_reducible first
    | assumption | apply kept_setSrh | intro _ | (simp only [Kept.lit]; refine Kept.toF ?_) | dsimp only

theorem kept_endMerges {s0 s : State} (toks : List Nat) (c : Cpl) (hkept : Kept s0 s) :
    Kept s0 (State.endMerges s toks c) := by
  unfold State.endMerges
  try dsimp only
  repeat' with_reducible first
    | assumption | apply kept_opEnd | refine Kept.foldl ?_ ?_ | refine Kept.foldl1 ?_ ?_ | intro _ | dsimp only

theorem kept_freeIndex {s0 s : State} (n : Nat) (hkept : Kept s0 s) :
    Kept s0 (State.freeIndex s n) := by
  unfold State.freeIndex
  try dsimp only
  repeat' with_reducible first
    | assumption | apply kept_setIndex | apply kept_dropRetained | apply kept_abandonPass | apply kept_endMerges
    | intro _ | dsimp only

theorem kept_idxUnload {s0 s : State} (tok : Nat) (hkept : Kept s0 s) :
    Kept s0 (State.idxUnload s tok) := by
  unfold State.idxUnload
  try dsimp only
  repeat' with_reducible first
    | assumption | apply kept_setEvt | apply kept_runDesc | apply kept_freeIndex | refine Kept.fst (by assumption) ?_
    | intro _ | refine Kept.ite ?_ ?_ | refine Kept.ite1 ?_ ?_ | (simp only [Kept.lit]; refine Kept.toF ?_)
    | dsimp only | split

theorem kept_execIdxUnload {s0 s : State} (tok : Nat) (hkept : Kept s0 s) :
    KeptO s0 (execIdxUnload tok s) := by
  unfold execIdxUnload
  try dsimp only
  repeat' with_reducible first
    | assumption | apply kept_idxUnload | intro _ | refine KeptO.next ?_ | dsimp only

theorem kept_scorePage {s0 s : State} (j : SrhJob) (leaf : Nat) (bytes : List Byte) (hkept : Kept s0 s) :
    Kept s0 (State.scorePage s j leaf bytes).1 := by
  unfold State.scorePage
  try dsimp only
  repeat' with_reducible first
    | assumption | apply kept_setIndex | intro _ | refine Kept.ite ?_ ?_ | refine Kept.ite1 ?_ ?_
    | (simp only [Kept.lit]; refine Kept.toF ?_) | dsimp only | split

theorem kept_srhStop {s0 s : State} (tok : Nat) (c : Cpl) (hkept : Kept s0 s) :
    Kept s0 (State.srhStop s tok c) := by
  unfold State.srhStop
  try dsimp only
  repeat' with_reducible first
    | assumption | apply kept_opEnd | apply kept_setSrh | intro _ | (simp only [Kept.lit]; refine Kept.toF ?_)
    | dsimp only

theorem kept_settleJob {s0 s : State} (j : SrhJob) (hkept : Kept s0 s) :
    Kept s0 (State.settleJob s j) := by
  unfold State.settleJob
  try dsimp only
  repeat' with_reducible first
    | assumption | apply kept_opEnd | apply kept_fabPut | apply kept_setSrh | refine Kept.foldl ?_ ?_
    | refine Kept.foldl1 ?_ ?_ | refine Kept.fst (by assumption) ?_ | intro _ | refine Kept.ite ?_ ?_
    | refine Kept.ite1 ?_ ?_ | (simp only [Kept.lit]; refine Kept.toF ?_) | dsimp only | split

theorem kept_issueReads {s0 s : State} (d : Desc) (j : SrhJob) (hkept : Kept s0 s) :
    Kept s0 (State.issueReads s d j) := by
  unfold State.issueReads
  try dsimp only
  repeat' with_reducible first
    | assumption | apply kept_lateFetch | apply kept_srhStop | apply kept_settleJob | refine Kept.foldl ?_ ?_
    | refine Kept.foldl1 ?_ ?_ | refine Kept.fst (by assumption) ?_ | intro _ | refine Kept.ite ?_ ?_
    | refine Kept.ite1 ?_ ?_ | (simp only [Kept.lit]; refine Kept.toF ?_) | dsimp only | split

theorem kept_walkBatch {s0 s : State} (tok : Nat) (x : SrhIndex) (beam probes : Nat) (l : List (List Byte)) (acc : List SrhQ)
    (h : Kept s0 s) : Kept s0 (State.walkBatch tok x beam probes l acc s).1 := by
  induction l generalizing acc s with
  | nil => exact h
  | cons v t ih =>
    have h1 := kept_probesOf (.some tok) x v beam probes h
    unfold State.walkBatch
    split <;> rename_i e <;> rw [e] at h1
    · exact ih _ h1
    · exact h1
    · exact h1

theorem kept_execSrhQuery {s0 s : State} (tok : Nat) (ext : List Byte) (hkept : Kept s0 s) :
    KeptO s0 (execSrhQuery tok ext s) := by
  unfold execSrhQuery
  try dsimp only
  repeat' with_reducible first
    | assumption | apply kept_finish | apply kept_runDesc | apply kept_acquire | apply kept_readSegs
    | apply kept_setIndex | apply kept_countPages | apply kept_issueReads | apply kept_walkBatch
    | refine Kept.fst (by assumption) ?_ | refine Kept.ofReady (by assumption) ?_
    | refine Kept.ofWait (by assumption) ?_ | refine Kept.ofStop (by assumption) ?_ | intro _ | refine KeptO.next ?_
    | refine Kept.ite ?_ ?_ | refine Kept.ite1 ?_ ?_ | (simp only [Kept.lit]; refine Kept.toF ?_) | dsimp only | split

theorem kept_passRead {s0 s : State} (m : MergePass) (l : PassLeaf) (bytes : List Byte) (hkept : Kept s0 s) :
    Kept s0 (State.passRead s m l bytes) := by
  unfold State.passRead
  try dsimp only
  repeat' with_reducible first
    | assumption | apply kept_setSrh | apply kept_program | refine Kept.fst (by assumption) ?_ | intro _
    | refine Kept.ite ?_ ?_ | refine Kept.ite1 ?_ ?_ | (simp only [Kept.lit]; refine Kept.toF ?_) | dsimp only | split

theorem kept_losePage {s0 s : State} (fpa : Nat) (p : FlashPage) (hkept : Kept s0 s) :
    Kept s0 (State.losePage s fpa p) := by
  unfold State.losePage
  try dsimp only
  repeat' with_reducible first
    | assumption | apply kept_setEvt | apply kept_queueFault | apply kept_setSrh | apply kept_setChan | intro _
    | (simp only [Kept.lit]; refine Kept.toF ?_) | dsimp only

theorem kept_execFlashPageReadDone {s0 s : State} (fpa : Nat) (lost : Bool) (hkept : Kept s0 s) :
    KeptO s0 (execFlashPageReadDone fpa lost s) := by
  unfold execFlashPageReadDone
  try dsimp only
  repeat' with_reducible first
    | assumption | apply kept_setTier | apply kept_setSrh | apply kept_setChan | apply kept_countPages
    | apply kept_scorePage | apply kept_srhStop | apply kept_settleJob | apply kept_passRead | apply kept_losePage
    | refine Kept.foldl ?_ ?_ | refine Kept.foldl1 ?_ ?_ | refine Kept.fst (by assumption) ?_ | intro _
    | refine KeptO.next ?_ | refine Kept.ite ?_ ?_ | refine Kept.ite1 ?_ ?_
    | (simp only [Kept.lit]; refine Kept.toF ?_) | dsimp only | split

theorem kept_execFlashPageMove {s0 s : State} (fpa : Nat) (hkept : Kept s0 s) :
    KeptO s0 (execFlashPageMove fpa s) := by
  unfold execFlashPageMove
  try dsimp only
  repeat' with_reducible first
    | assumption | apply kept_setSrh | apply kept_setIndex | apply kept_setChan | apply kept_catalogue
    | refine Kept.fst (by assumption) ?_ | intro _ | refine KeptO.next ?_ | refine Kept.ite ?_ ?_
    | refine Kept.ite1 ?_ ?_ | (simp only [Kept.lit]; refine Kept.toF ?_) | dsimp only | split

theorem kept_failChannel {s0 s : State} (channel : Nat) (scorer : Bool) (hkept : Kept s0 s) :
    Kept s0 (State.failChannel s channel scorer) := by
  unfold State.failChannel
  try dsimp only
  repeat' with_reducible first
    | assumption | apply kept_draw | apply kept_setEvt | apply kept_queueFault | apply kept_setSrh | apply kept_setChan
    | apply kept_endLeafWrite | apply kept_settleJob | refine Kept.foldl ?_ ?_ | refine Kept.foldl1 ?_ ?_
    | refine Kept.fst (by assumption) ?_ | refine Kept.snd (by assumption) ?_ | intro _ | refine Kept.ite ?_ ?_
    | refine Kept.ite1 ?_ ?_ | (simp only [Kept.lit]; refine Kept.toF ?_) | dsimp only | split

theorem kept_execFlashChannelFailure {s0 s : State} (channel : Nat) (scorer : Bool) (hkept : Kept s0 s) :
    KeptO s0 (execFlashChannelFailure channel scorer s) := by
  unfold execFlashChannelFailure
  try dsimp only
  repeat' with_reducible first
    | assumption | apply kept_failChannel | intro _ | refine KeptO.next ?_ | dsimp only

theorem kept_execFetchDeadline {s0 s : State} (hkept : Kept s0 s) :
    KeptO s0 (execFetchDeadline s) := by
  unfold execFetchDeadline
  try dsimp only
  repeat' with_reducible first
    | assumption | apply kept_lateFetch | apply kept_markLate | apply kept_setSrh | apply kept_settleJob
    | refine Kept.foldl ?_ ?_ | refine Kept.foldl1 ?_ ?_ | intro _ | refine KeptO.next ?_
    | (simp only [Kept.lit]; refine Kept.toF ?_) | dsimp only

theorem kept_srhArray {s0 s : State} (tok : Nat) (op : Nat) (size : Nat) (ext : List Byte) (k : Nat → List (List Byte) → State → State × Cpl) (hcb_k : ∀ x0 x1 x2, Kept s0 x2 → Kept s0 (k x0 x1 x2).1) (hkept : Kept s0 s) :
    Kept s0 (State.srhArray s tok op size ext k) := by
  unfold State.srhArray
  try dsimp only
  repeat' with_reducible first
    | assumption | apply kept_finish | apply kept_runDesc | apply kept_acquire | apply kept_readSegs | apply hcb_k
    | refine Kept.fst (by assumption) ?_ | refine Kept.ofReady (by assumption) ?_
    | refine Kept.ofWait (by assumption) ?_ | refine Kept.ofStop (by assumption) ?_ | intro _ | refine Kept.ite ?_ ?_
    | refine Kept.ite1 ?_ ?_ | (simp only [Kept.lit]; refine Kept.toF ?_) | dsimp only | split

theorem kept_execSrhInsert {s0 s : State} (tok : Nat) (ext : List Byte) (hkept : Kept s0 s) :
    KeptO s0 (execSrhInsert tok ext s) := by
  unfold execSrhInsert
  try dsimp only
  repeat' with_reducible first
    | assumption | apply kept_setIndex | apply kept_srhArray | refine Kept.fst (by assumption) ?_ | intro _
    | refine KeptO.next ?_ | refine Kept.ite ?_ ?_ | refine Kept.ite1 ?_ ?_
    | (simp only [Kept.lit]; refine Kept.toF ?_) | dsimp only | split

theorem kept_execSrhDelete {s0 s : State} (tok : Nat) (ext : List Byte) (hkept : Kept s0 s) :
    KeptO s0 (execSrhDelete tok ext s) := by
  unfold execSrhDelete
  try dsimp only
  repeat' with_reducible first
    | assumption | apply kept_setIndex | apply kept_srhArray | refine Kept.fst (by assumption) ?_ | intro _
    | refine KeptO.next ?_ | (simp only [Kept.lit]; refine Kept.toF ?_) | dsimp only | split

theorem kept_execSrhMerge {s0 s : State} (tok : Nat) (hkept : Kept s0 s) :
    KeptO s0 (execSrhMerge tok s) := by
  unfold execSrhMerge
  try dsimp only
  repeat' with_reducible first
    | assumption | apply kept_runDesc | apply kept_setIndex | intro _ | refine KeptO.next ?_ | refine Kept.ite ?_ ?_
    | refine Kept.ite1 ?_ ?_ | (simp only [Kept.lit]; refine Kept.toF ?_) | dsimp only | split

theorem kept_gatherPass {s0 s : State} (x : SrhIndex) (p : Nat) (hkept : Kept s0 s) :
    Kept s0 (State.gatherPass s x p).1 := by
  unfold State.gatherPass
  try dsimp only
  repeat' with_reducible first
    | assumption | apply kept_probesOf | refine Kept.foldl ?_ ?_ | refine Kept.foldl1 ?_ ?_
    | refine Kept.fst (by assumption) ?_ | intro _ | refine Kept.ite ?_ ?_ | refine Kept.ite1 ?_ ?_
    | (simp only [Kept.lit]; refine Kept.toF ?_) | dsimp only | split

theorem kept_startPass {s0 s : State} (n : Nat) (hkept : Kept s0 s) :
    Kept s0 (State.startPass s n) := by
  unfold State.startPass
  try dsimp only
  repeat' with_reducible first
    | assumption | apply kept_setSrh | apply kept_setIndex | apply kept_gatherPass | refine Kept.foldl ?_ ?_
    | refine Kept.foldl1 ?_ ?_ | refine Kept.fst (by assumption) ?_ | intro _ | refine Kept.ite ?_ ?_
    | refine Kept.ite1 ?_ ?_ | (simp only [Kept.lit]; refine Kept.toF ?_) | dsimp only | split

theorem kept_mergeStart {s0 s : State} (hkept : Kept s0 s) :
    Kept s0 (State.mergeStart s) := by
  unfold State.mergeStart
  try dsimp only
  repeat' with_reducible first
    | assumption | apply kept_startPass | refine Kept.foldl ?_ ?_ | refine Kept.foldl1 ?_ ?_ | intro _ | dsimp only

theorem kept_mergeAssist {s0 s : State} (hkept : Kept s0 s) :
    Kept s0 (State.mergeAssist s) := by
  unfold State.mergeAssist
  try dsimp only
  repeat' with_reducible first
    | assumption | apply kept_postAssist | refine Kept.foldl ?_ ?_ | refine Kept.foldl1 ?_ ?_ | intro _
    | refine Kept.ite ?_ ?_ | refine Kept.ite1 ?_ ?_ | dsimp only | split

theorem kept_commitPass {s0 s : State} (m : MergePass) (t : Nat) (hkept : Kept s0 s) :
    Kept s0 (State.commitPass s m t) := by
  unfold State.commitPass
  try dsimp only
  repeat' with_reducible first
    | assumption | apply kept_setEvt | apply kept_setSrh | apply kept_setIndex | apply kept_catalogue
    | apply kept_endMerges | refine Kept.foldl ?_ ?_ | refine Kept.foldl1 ?_ ?_ | refine Kept.fst (by assumption) ?_
    | intro _ | refine Kept.getD ?_ ?_ | refine Kept.ite ?_ ?_ | refine Kept.ite1 ?_ ?_
    | (simp only [Kept.lit]; refine Kept.toF ?_) | dsimp only | split

theorem kept_reclaim {s0 s : State} (n : Nat) (t : Nat) (hkept : Kept s0 s) :
    Kept s0 (State.reclaim s n t) := by
  unfold State.reclaim
  try dsimp only
  repeat' with_reducible first
    | assumption | apply kept_setSrh | apply kept_setIndex | refine Kept.fst (by assumption) ?_ | intro _
    | refine Kept.ite ?_ ?_ | refine Kept.ite1 ?_ ?_ | (simp only [Kept.lit]; refine Kept.toF ?_) | dsimp only | split

theorem kept_searchStep {s0 s : State} (t : Nat) (hkept : Kept s0 s) :
    Kept s0 (State.searchStep s t) := by
  unfold State.searchStep
  try dsimp only
  repeat' with_reducible first
    | assumption | apply kept_setEvt | apply kept_opEnd | apply kept_setSrh | apply kept_setIndex
    | apply kept_catalogue | apply kept_abandonPass | apply kept_endMerges | apply kept_commitPass | apply kept_reclaim
    | refine Kept.foldl ?_ ?_ | refine Kept.foldl1 ?_ ?_ | refine Kept.fst (by assumption) ?_ | intro _
    | refine Kept.ite ?_ ?_ | refine Kept.ite1 ?_ ?_ | (simp only [Kept.lit]; refine Kept.toF ?_) | dsimp only | split

theorem kept_reduceOver {s0 s : State} (tok : Nat) (d : Desc) (blocks : List (List Byte)) (hkept : Kept s0 s) :
    Kept s0 (State.reduceOver s tok d blocks).1 := by
  unfold State.reduceOver
  try dsimp only
  repeat' with_reducible first
    | assumption | apply kept_fabPut | refine Kept.foldl ?_ ?_ | refine Kept.foldl1 ?_ ?_ | intro _
    | refine Kept.getD ?_ ?_ | dsimp only

theorem kept_execSrhReduce {s0 s : State} (tok : Nat) (ext : List Byte) (hkept : Kept s0 s) :
    KeptO s0 (execSrhReduce tok ext s) := by
  unfold execSrhReduce
  try dsimp only
  repeat' with_reducible first
    | assumption | apply kept_finish | apply kept_runDesc | apply kept_acquire | apply kept_readSegs
    | apply kept_reduceOver | refine Kept.fst (by assumption) ?_ | refine Kept.ofReady (by assumption) ?_
    | refine Kept.ofWait (by assumption) ?_ | refine Kept.ofStop (by assumption) ?_ | intro _ | refine KeptO.next ?_
    | refine Kept.ite ?_ ?_ | refine Kept.ite1 ?_ ?_ | (simp only [Kept.lit]; refine Kept.toF ?_) | dsimp only | split

theorem kept_setQue {s0 s : State} (f : QueueState → QueueState) (hkept : Kept s0 s) :
    Kept s0 (State.setQue s f) := by
  unfold State.setQue
  try dsimp only
  repeat' with_reducible first
    | assumption | intro _ | (simp only [Kept.lit]; refine Kept.toF ?_) | dsimp only

theorem kept_setQueue {s0 s : State} (n : Nat) (q : Queue) (hkept : Kept s0 s) :
    Kept s0 (State.setQueue s n q) := by
  unfold State.setQueue
  try dsimp only
  repeat' with_reducible first
    | assumption | apply kept_setQue | intro _ | (simp only [Kept.lit]; refine Kept.toF ?_) | dsimp only

theorem kept_execQCreate {s0 s : State} (tok : Nat) (hkept : Kept s0 s) :
    KeptO s0 (execQCreate tok s) := by
  unfold execQCreate
  try dsimp only
  repeat' with_reducible first
    | assumption | apply kept_setEvt | apply kept_refuse | apply kept_runDesc | apply kept_xlateRange
    | apply kept_setQue | apply kept_setQueue | refine Kept.fst (by assumption) ?_ | intro _ | refine KeptO.next ?_
    | refine Kept.ite ?_ ?_ | refine Kept.ite1 ?_ ?_ | (simp only [Kept.lit]; refine Kept.toF ?_) | dsimp only | split

theorem kept_putQueue {s0 s : State} (n : Nat) (q : Queue) (hkept : Kept s0 s) :
    Kept s0 (State.putQueue s n q) := by
  unfold State.putQueue
  try dsimp only
  repeat' with_reducible first
    | assumption | apply kept_writeQuiet | apply kept_setQueue | intro _ | refine Kept.ite ?_ ?_
    | refine Kept.ite1 ?_ ?_ | dsimp only | split

theorem kept_queRow {s0 s : State} (tok : Nat) (op : Nat) (k : Desc → Queue → State → State) (hcb_k : ∀ x0 x1 x2, Kept s0 x2 → Kept s0 (k x0 x1 x2)) (hkept : Kept s0 s) :
    Kept s0 (State.queRow s tok op k) := by
  unfold State.queRow
  try dsimp only
  repeat' with_reducible first
    | assumption | apply kept_runDesc | apply hcb_k | refine Kept.fst (by assumption) ?_ | intro _
    | refine Kept.ite ?_ ?_ | refine Kept.ite1 ?_ ?_ | (simp only [Kept.lit]; refine Kept.toF ?_) | dsimp only | split

theorem kept_queEnd {s0 s : State} (tok : Nat) (op : Nat) (c : Cpl) (hkept : Kept s0 s) :
    Kept s0 (State.queEnd s tok op c) := by
  unfold State.queEnd
  try dsimp only
  repeat' with_reducible first
    | assumption | apply kept_runDesc | intro _ | dsimp only

theorem kept_pushSource {s0 s : State} (d : Desc) (src : List Seg) (ext : List Byte) (hkept : Kept s0 s) :
    Kept s0 (State.pushSource s d src ext).1 := by
  unfold State.pushSource
  try dsimp only
  repeat' with_reducible first
    | assumption | apply kept_readSegs | refine Kept.fst (by assumption) ?_ | intro _ | refine Kept.ite ?_ ?_
    | refine Kept.ite1 ?_ ?_ | (simp only [Kept.lit]; refine Kept.toF ?_) | dsimp only | split

theorem kept_pushOver {s0 s : State} (tok : Nat) (d : Desc) (q : Queue) (bad : List (Nat × Nat)) (data : List Byte) (poison : Bool) (hkept : Kept s0 s) :
    Kept s0 (State.pushOver s tok d q bad data poison) := by
  unfold State.pushOver
  try dsimp only
  repeat' with_reducible first
    | assumption | apply kept_poisonPieces | apply kept_writeKeyed | apply kept_setQue | apply kept_setQueue
    | refine Kept.foldl ?_ ?_ | refine Kept.foldl1 ?_ ?_ | intro _ | refine Kept.ite ?_ ?_ | refine Kept.ite1 ?_ ?_
    | (simp only [Kept.lit]; refine Kept.toF ?_) | dsimp only | split

theorem kept_execQPush {s0 s : State} (tok : Nat) (ext : List Byte) (hkept : Kept s0 s) :
    KeptO s0 (execQPush tok ext s) := by
  unfold execQPush
  try dsimp only
  repeat' with_reducible first
    | assumption | apply kept_setEvt | apply kept_runDesc | apply kept_engineReady | apply kept_acquire
    | apply kept_setQueue | apply kept_queRow | apply kept_queEnd | apply kept_pushSource | apply kept_pushOver
    | refine Kept.fst (by assumption) ?_ | refine Kept.ofReady (by assumption) ?_
    | refine Kept.ofWait (by assumption) ?_ | refine Kept.ofStop (by assumption) ?_ | intro _ | refine KeptO.next ?_
    | refine Kept.ite ?_ ?_ | refine Kept.ite1 ?_ ?_ | (simp only [Kept.lit]; refine Kept.toF ?_) | dsimp only | split

theorem kept_pushStop {s0 s : State} (tok : Nat) (c : Cpl) (hkept : Kept s0 s) :
    Kept s0 (State.pushStop s tok c) := by
  unfold State.pushStop
  try dsimp only
  repeat' with_reducible first
    | assumption | apply kept_setDesc | apply kept_opEnd | apply kept_setQue | apply kept_putQueue
    | refine Kept.fst (by assumption) ?_ | intro _ | (simp only [Kept.lit]; refine Kept.toF ?_) | dsimp only | split

theorem kept_execQueueItemCommit {s0 s : State} (tok : Nat) (hkept : Kept s0 s) :
    KeptO s0 (execQueueItemCommit tok s) := by
  unfold execQueueItemCommit
  try dsimp only
  repeat' with_reducible first
    | assumption | apply kept_opEnd | apply kept_setQue | apply kept_putQueue | apply kept_pushStop
    | refine Kept.fst (by assumption) ?_ | intro _ | refine KeptO.next ?_ | refine Kept.ite ?_ ?_
    | refine Kept.ite1 ?_ ?_ | (simp only [Kept.lit]; refine Kept.toF ?_) | dsimp only | split

theorem kept_popOver {s0 s : State} (tok : Nat) (d : Desc) (q : Queue) (got : List QItem) (hkept : Kept s0 s) :
    Kept s0 (State.popOver s tok d q got).1 := by
  unfold State.popOver
  try dsimp only
  repeat' with_reducible first
    | assumption | apply kept_setEvt | apply kept_fabPutLines | apply kept_readKeyed | apply kept_setQue
    | apply kept_putQueue | refine Kept.fst (by assumption) ?_ | intro _ | refine Kept.ite ?_ ?_
    | refine Kept.ite1 ?_ ?_ | (simp only [Kept.lit]; refine Kept.toF ?_) | dsimp only | split

theorem kept_execQPop {s0 s : State} (tok : Nat) (hkept : Kept s0 s) :
    KeptO s0 (execQPop tok s) := by
  unfold execQPop
  try dsimp only
  repeat' with_reducible first
    | assumption | apply kept_runDesc | apply kept_engineReady | apply kept_queRow | apply kept_queEnd
    | apply kept_popOver | refine Kept.fst (by assumption) ?_ | intro _ | refine KeptO.next ?_
    | (simp only [Kept.lit]; refine Kept.toF ?_) | dsimp only | split

theorem kept_blurHeld {s0 s : State} (tok : Nat) (lo : Nat) (hi : Nat) (h : HeldWrite) (hkept : Kept s0 s) :
    Kept s0 (State.blurHeld s tok lo hi h) := by
  unfold State.blurHeld
  try dsimp only
  repeat' with_reducible first
    | assumption | apply kept_blur | refine Kept.fst (by assumption) ?_ | refine Kept.snd (by assumption) ?_ | intro _
    | refine Kept.ite ?_ ?_ | refine Kept.ite1 ?_ ?_ | (simp only [Kept.lit]; refine Kept.toF ?_) | dsimp only | split

theorem kept_popStop {s0 s : State} (p : QPop) (c : Cpl) (hkept : Kept s0 s) :
    Kept s0 (State.popStop s p c) := by
  unfold State.popStop
  try dsimp only
  repeat' with_reducible first
    | assumption | apply kept_setDesc | apply kept_opEnd | apply kept_blurHeld | refine Kept.foldl ?_ ?_
    | refine Kept.foldl1 ?_ ?_ | refine Kept.fst (by assumption) ?_ | intro _ | refine Kept.ite ?_ ?_
    | refine Kept.ite1 ?_ ?_ | (simp only [Kept.lit]; refine Kept.toF ?_) | dsimp only | split

theorem kept_emptyQueue {s0 s : State} (n : Nat) (c : Cpl) (hkept : Kept s0 s) :
    Kept s0 (State.emptyQueue s n c) := by
  unfold State.emptyQueue
  try dsimp only
  repeat' with_reducible first
    | assumption | apply kept_setQue | apply kept_putQueue | apply kept_pushStop | apply kept_popStop
    | refine Kept.foldl ?_ ?_ | refine Kept.foldl1 ?_ ?_ | intro _ | refine Kept.ite ?_ ?_ | refine Kept.ite1 ?_ ?_
    | (simp only [Kept.lit]; refine Kept.toF ?_) | dsimp only | split

theorem kept_execQFlush {s0 s : State} (tok : Nat) (hkept : Kept s0 s) :
    KeptO s0 (execQFlush tok s) := by
  unfold execQFlush
  try dsimp only
  repeat' with_reducible first
    | assumption | apply kept_setEvt | apply kept_queEnd | apply kept_emptyQueue | refine Kept.fst (by assumption) ?_
    | intro _ | refine KeptO.next ?_ | refine Kept.ite ?_ ?_ | refine Kept.ite1 ?_ ?_
    | (simp only [Kept.lit]; refine Kept.toF ?_) | dsimp only | split

theorem kept_retainRow {s0 s : State} (tok : Nat) (op : Nat) (k : Desc → Queue → Option Queue) (hkept : Kept s0 s) :
    Kept s0 (State.retainRow s tok op k) := by
  unfold State.retainRow
  try dsimp only
  repeat' with_reducible first
    | assumption | apply kept_putQueue | apply kept_queRow | apply kept_queEnd | refine Kept.fst (by assumption) ?_
    | intro _ | refine Kept.ite ?_ ?_ | refine Kept.ite1 ?_ ?_ | (simp only [Kept.lit]; refine Kept.toF ?_)
    | dsimp only | split

theorem kept_execQMark {s0 s : State} (tok : Nat) (hkept : Kept s0 s) :
    KeptO s0 (execQMark tok s) := by
  unfold execQMark
  try dsimp only
  repeat' with_reducible first
    | assumption | apply kept_retainRow | intro _ | refine KeptO.next ?_ | (simp only [Kept.lit]; refine Kept.toF ?_)
    | dsimp only

theorem kept_execQRewind {s0 s : State} (tok : Nat) (hkept : Kept s0 s) :
    KeptO s0 (execQRewind tok s) := by
  unfold execQRewind
  try dsimp only
  repeat' with_reducible first
    | assumption | apply kept_retainRow | intro _ | refine KeptO.next ?_ | (simp only [Kept.lit]; refine Kept.toF ?_)
    | dsimp only

theorem kept_execQRelease {s0 s : State} (tok : Nat) (hkept : Kept s0 s) :
    KeptO s0 (execQRelease tok s) := by
  unfold execQRelease
  try dsimp only
  repeat' with_reducible first
    | assumption | apply kept_retainRow | intro _ | refine KeptO.next ?_ | refine Kept.ite ?_ ?_
    | refine Kept.ite1 ?_ ?_ | (simp only [Kept.lit]; refine Kept.toF ?_) | dsimp only | split

theorem kept_admitQDestroy {s0 s : State} (tok : Nat) (d : Desc) (hkept : Kept s0 s) :
    Kept s0 (State.admitQDestroy s tok d) := by
  unfold State.admitQDestroy
  try dsimp only
  repeat' with_reducible first
    | assumption | apply kept_setQueue | intro _ | refine Kept.ite ?_ ?_ | refine Kept.ite1 ?_ ?_
    | (simp only [Kept.lit]; refine Kept.toF ?_) | dsimp only | split

theorem kept_freeQueue {s0 s : State} (n : Nat) (hkept : Kept s0 s) :
    Kept s0 (State.freeQueue s n) := by
  unfold State.freeQueue
  try dsimp only
  repeat' with_reducible first
    | assumption | apply kept_setQue | apply kept_setQueue | intro _ | (simp only [Kept.lit]; refine Kept.toF ?_)
    | dsimp only

theorem kept_qDestroy {s0 s : State} (tok : Nat) (hkept : Kept s0 s) :
    Kept s0 (State.qDestroy s tok) := by
  unfold State.qDestroy
  try dsimp only
  repeat' with_reducible first
    | assumption | apply kept_setEvt | apply kept_runDesc | apply kept_freeQueue | refine Kept.fst (by assumption) ?_
    | intro _ | refine Kept.ite ?_ ?_ | refine Kept.ite1 ?_ ?_ | (simp only [Kept.lit]; refine Kept.toF ?_)
    | dsimp only | split

theorem kept_execQDestroy {s0 s : State} (tok : Nat) (hkept : Kept s0 s) :
    KeptO s0 (execQDestroy tok s) := by
  unfold execQDestroy
  try dsimp only
  repeat' with_reducible first
    | assumption | apply kept_qDestroy | intro _ | refine KeptO.next ?_ | dsimp only

theorem kept_loseQueues {s0 s : State} (die : Nat) (hkept : Kept s0 s) :
    Kept s0 (State.loseQueues s die) := by
  unfold State.loseQueues
  try dsimp only
  repeat' with_reducible first
    | assumption | apply kept_setEvt | apply kept_finish | apply kept_refuse | apply kept_setQueue
    | apply kept_emptyQueue | refine Kept.foldl ?_ ?_ | refine Kept.foldl1 ?_ ?_ | intro _ | refine Kept.ite ?_ ?_
    | refine Kept.ite1 ?_ ?_ | (simp only [Kept.lit]; refine Kept.toF ?_) | dsimp only | split

theorem kept_execUnloadDrainComplete {s0 s : State} (tok : Nat) (hkept : Kept s0 s) :
    KeptO s0 (execUnloadDrainComplete tok s) := by
  unfold execUnloadDrainComplete
  try dsimp only
  repeat' with_reducible first
    | assumption | apply kept_execTpUnload | apply kept_execKvPoolDestroy | apply kept_execTblUnload
    | apply kept_execIdxUnload | apply kept_execQDestroy | refine Kept.fst (by assumption) ?_ | intro _
    | refine KeptO.next ?_ | refine Kept.ite ?_ ?_ | refine Kept.ite1 ?_ ?_
    | (simp only [Kept.lit]; refine Kept.toF ?_) | dsimp only | split

theorem kept_setStk {s0 s : State} (f : StkState → StkState) (hkept : Kept s0 s) :
    Kept s0 (State.setStk s f) := by
  unfold State.setStk
  try dsimp only
  repeat' with_reducible first
    | assumption | intro _ | (simp only [Kept.lit]; refine Kept.toF ?_) | dsimp only

theorem kept_setDchan {s0 s : State} (c : Nat) (x : ChanState) (hkept : Kept s0 s) :
    Kept s0 (State.setDchan s c x) := by
  unfold State.setDchan
  try dsimp only
  repeat' with_reducible first
    | assumption | apply kept_setStk | intro _ | (simp only [Kept.lit]; refine Kept.toF ?_) | dsimp only

theorem kept_stackTemp {s0 s : State} (k : Nat) (c : Nat) (hkept : Kept s0 s) :
    Kept s0 (State.stackTemp s k c) := by
  unfold State.stackTemp
  try dsimp only
  repeat' with_reducible first
    | assumption | apply kept_setEvt | apply kept_setStk | intro _ | refine Kept.ite ?_ ?_ | refine Kept.ite1 ?_ ?_
    | (simp only [Kept.lit]; refine Kept.toF ?_) | dsimp only | split

theorem kept_execStackHot {s0 s : State} (stack : Nat) (tempC : Nat) (hkept : Kept s0 s) :
    KeptO s0 (execStackHot stack tempC s) := by
  unfold execStackHot
  try dsimp only
  repeat' with_reducible first
    | assumption | apply kept_stackTemp | intro _ | refine KeptO.next ?_ | refine Kept.ite ?_ ?_
    | refine Kept.ite1 ?_ ?_ | dsimp only | split

theorem kept_execHotRefreshClear {s0 s : State} (stack : Nat) (tempC : Nat) (hkept : Kept s0 s) :
    KeptO s0 (execHotRefreshClear stack tempC s) := by
  unfold execHotRefreshClear
  try dsimp only
  repeat' with_reducible first
    | assumption | apply kept_stackTemp | intro _ | refine KeptO.next ?_ | refine Kept.ite ?_ ?_
    | refine Kept.ite1 ?_ ?_ | dsimp only | split

theorem kept_rowDue {s0 s : State} (c : Nat) (row : Nat) (hkept : Kept s0 s) :
    Kept s0 (State.rowDue s c row) := by
  unfold State.rowDue
  try dsimp only
  repeat' with_reducible first
    | assumption | apply kept_setStk | intro _ | refine Kept.ite ?_ ?_ | refine Kept.ite1 ?_ ?_
    | (simp only [Kept.lit]; refine Kept.toF ?_) | dsimp only | split

theorem kept_eccCorrected {s0 s : State} (c : Nat) (row : Nat) (ns : Nat) (hkept : Kept s0 s) :
    Kept s0 (State.eccCorrected s c row ns) := by
  unfold State.eccCorrected
  try dsimp only
  repeat' with_reducible first
    | assumption | apply kept_setEvt | apply kept_queueFault | apply kept_setStk | apply kept_setDchan
    | apply kept_rowDue | intro _ | refine Kept.ite ?_ ?_ | refine Kept.ite1 ?_ ?_
    | (simp only [Kept.lit]; refine Kept.toF ?_) | dsimp only | split

theorem kept_listPoison {s0 s : State} (line : Nat) (hkept : Kept s0 s) :
    Kept s0 (State.listPoison s line) := by
  unfold State.listPoison
  try dsimp only
  repeat' with_reducible first
    | assumption | intro _ | refine Kept.ite ?_ ?_ | refine Kept.ite1 ?_ ?_
    | (simp only [Kept.lit]; refine Kept.toF ?_) | dsimp only | split

theorem kept_eccUncorrectable {s0 s : State} (c : Nat) (x : EccError) (hkept : Kept s0 s) :
    Kept s0 (State.eccUncorrectable s c x) := by
  unfold State.eccUncorrectable
  try dsimp only
  repeat' with_reducible first
    | assumption | apply kept_setEvt | apply kept_poisonLine | apply kept_queueFault | apply kept_startGather
    | apply kept_markPoison | apply kept_setDchan | apply kept_rowDue | apply kept_listPoison | intro _
    | refine Kept.ite ?_ ?_ | refine Kept.ite1 ?_ ?_ | (simp only [Kept.lit]; refine Kept.toF ?_) | dsimp only | split

theorem kept_eccFound {s0 s : State} (c : Nat) (ns : Nat) (x : EccError) (hkept : Kept s0 s) :
    Kept s0 (State.eccFound c ns s x) := by
  unfold State.eccFound
  try dsimp only
  repeat' with_reducible first
    | assumption | apply kept_setStk | apply kept_eccCorrected | apply kept_eccUncorrectable | intro _
    | refine Kept.ite ?_ ?_ | refine Kept.ite1 ?_ ?_ | (simp only [Kept.lit]; refine Kept.toF ?_) | dsimp only | split

theorem kept_execPatrolScrub {s0 s : State} (channel : Nat) (ns : Nat) (found : List EccError) (hkept : Kept s0 s) :
    KeptO s0 (execPatrolScrub channel ns found s) := by
  unfold execPatrolScrub
  try dsimp only
  repeat' with_reducible first
    | assumption | apply kept_setDchan | apply kept_eccFound | refine Kept.foldl ?_ ?_ | refine Kept.foldl1 ?_ ?_
    | intro _ | refine KeptO.next ?_ | refine Kept.ite ?_ ?_ | refine Kept.ite1 ?_ ?_
    | (simp only [Kept.lit]; refine Kept.toF ?_) | dsimp only | split

theorem kept_retireChannel {s0 s : State} (c : Nat) (hkept : Kept s0 s) :
    Kept s0 (State.retireChannel s c) := by
  unfold State.retireChannel
  try dsimp only
  repeat' with_reducible first
    | assumption | apply kept_setEvt | apply kept_queueFault | apply kept_setDchan | intro _ | refine Kept.ite ?_ ?_
    | refine Kept.ite1 ?_ ?_ | (simp only [Kept.lit]; refine Kept.toF ?_) | dsimp only | split

theorem kept_spareRow {s0 s : State} (e : Nat × Nat) (hkept : Kept s0 s) :
    Kept s0 (State.spareRow s e) := by
  unfold State.spareRow
  try dsimp only
  repeat' with_reducible first
    | assumption | apply kept_setEvt | apply kept_queueFault | apply kept_setStk | apply kept_setDchan
    | apply kept_retireChannel | refine Kept.fst (by assumption) ?_ | intro _ | refine Kept.ite ?_ ?_
    | refine Kept.ite1 ?_ ?_ | (simp only [Kept.lit]; refine Kept.toF ?_) | dsimp only | split

theorem kept_effPwrCap {s0 s : State} (v : Word) (hkept : Kept s0 s) :
    Kept s0 (effPwrCap v s).1 := by
  unfold effPwrCap
  try dsimp only
  repeat' with_reducible first
    | assumption | intro _ | refine Kept.ite ?_ ?_ | refine Kept.ite1 ?_ ?_
    | (simp only [Kept.lit]; refine Kept.toF ?_) | dsimp only | split

theorem kept_execPwrCapWrite {s0 s : State} (path : Nat) (value : Word) (cycle : Nat) (hkept : Kept s0 s) :
    KeptO s0 (execPwrCapWrite path value cycle s) := by
  unfold execPwrCapWrite
  try dsimp only
  repeat' with_reducible first
    | assumption | apply kept_guardPair | apply kept_effPwrCap | intro _ | refine KeptO.next ?_ | dsimp only

theorem kept_effPwrTherm {s0 s : State} (v : Word) (hkept : Kept s0 s) :
    Kept s0 (effPwrTherm v s).1 := by
  unfold effPwrTherm
  try dsimp only
  repeat' with_reducible first
    | assumption | apply kept_setWord | intro _ | refine Kept.ite ?_ ?_ | refine Kept.ite1 ?_ ?_ | dsimp only | split

theorem kept_execPwrThermWrite {s0 s : State} (path : Nat) (value : Word) (cycle : Nat) (hkept : Kept s0 s) :
    KeptO s0 (execPwrThermWrite path value cycle s) := by
  unfold execPwrThermWrite
  try dsimp only
  repeat' with_reducible first
    | assumption | apply kept_guardPair | apply kept_effPwrTherm | intro _ | refine KeptO.next ?_ | dsimp only

theorem kept_applyCap {s0 s : State} (hkept : Kept s0 s) :
    Kept s0 (State.applyCap s) := by
  unfold State.applyCap
  try dsimp only
  repeat' with_reducible first
    | assumption | apply kept_setWord | apply kept_setFld | apply kept_setEvt | refine Kept.fst (by assumption) ?_
    | intro _ | refine Kept.ite ?_ ?_ | refine Kept.ite1 ?_ ?_ | (simp only [Kept.lit]; refine Kept.toF ?_)
    | dsimp only | split

theorem kept_thermalStep {s0 s : State} (env : BoundaryEnv) (hkept : Kept s0 s) :
    Kept s0 (State.thermalStep s env) := by
  unfold State.thermalStep
  try dsimp only
  repeat' with_reducible first
    | assumption | apply kept_emit | apply kept_setFld | apply kept_setEvt | apply kept_setStk | apply kept_stackTemp
    | refine Kept.foldl ?_ ?_ | refine Kept.foldl1 ?_ ?_ | intro _ | refine Kept.getD ?_ ?_ | refine Kept.ite ?_ ?_
    | refine Kept.ite1 ?_ ?_ | (simp only [Kept.lit]; refine Kept.toF ?_) | dsimp only | split

theorem kept_powerControl {s0 s : State} (env : BoundaryEnv) (hkept : Kept s0 s) :
    Kept s0 (State.powerControl s env) := by
  unfold State.powerControl
  try dsimp only
  repeat' with_reducible first
    | assumption | apply kept_setStk | apply kept_applyCap | apply kept_thermalStep | intro _ | refine Kept.ite ?_ ?_
    | refine Kept.ite1 ?_ ?_ | (simp only [Kept.lit]; refine Kept.toF ?_) | dsimp only | split

theorem kept_execPowerSampleTimer {s0 s : State} (env : BoundaryEnv) (hkept : Kept s0 s) :
    KeptO s0 (execPowerSampleTimer env s) := by
  unfold execPowerSampleTimer
  try dsimp only
  repeat' with_reducible first
    | assumption | apply kept_thermalStep | intro _ | refine KeptO.next ?_ | refine Kept.ite ?_ ?_
    | refine Kept.ite1 ?_ ?_ | dsimp only | split

theorem kept_effIslandReq {s0 s : State} (ns : Nat) (v : Word) (hkept : Kept s0 s) :
    Kept s0 (effIslandReq ns v s).1 := by
  unfold effIslandReq
  try dsimp only
  repeat' with_reducible first
    | assumption | apply kept_setFld | intro _ | refine Kept.ite ?_ ?_ | refine Kept.ite1 ?_ ?_
    | (simp only [Kept.lit]; refine Kept.toF ?_) | dsimp only | split

theorem kept_execPwrIslandReqWrite {s0 s : State} (path : Nat) (value : Word) (cycle : Nat) (hkept : Kept s0 s) :
    KeptO s0 (execPwrIslandReqWrite path value cycle s) := by
  unfold execPwrIslandReqWrite
  try dsimp only
  repeat' with_reducible first
    | assumption | apply kept_plainWrite | apply kept_effIslandReq | intro _ | refine KeptO.next ?_ | dsimp only

theorem kept_switchIsland {s0 s : State} (h : Nat) (v : Nat) (hkept : Kept s0 s) :
    Kept s0 (State.switchIsland s h v) := by
  unfold State.switchIsland
  try dsimp only
  repeat' with_reducible first
    | assumption | apply kept_setFld | apply kept_setEvt | apply kept_setStk | intro _ | refine Kept.ite ?_ ?_
    | refine Kept.ite1 ?_ ?_ | (simp only [Kept.lit]; refine Kept.toF ?_) | dsimp only | split

theorem kept_islandStep {s0 s : State} (ns : Nat) (hkept : Kept s0 s) :
    Kept s0 (State.islandStep s ns) := by
  unfold State.islandStep
  try dsimp only
  repeat' with_reducible first
    | assumption | apply kept_setFld | apply kept_setEvt | apply kept_switchIsland | refine Kept.foldl ?_ ?_
    | refine Kept.foldl1 ?_ ?_ | refine Kept.fst (by assumption) ?_ | intro _ | refine Kept.ite ?_ ?_
    | refine Kept.ite1 ?_ ?_ | (simp only [Kept.lit]; refine Kept.toF ?_) | dsimp only | split

theorem kept_effTirSplit {s0 s : State} (v : Word) (hkept : Kept s0 s) :
    Kept s0 (effTirSplit v s).1 := by
  unfold effTirSplit
  try dsimp only
  repeat' with_reducible first
    | assumption | apply kept_setFld | apply kept_setEvt | apply kept_setTier | refine Kept.fst (by assumption) ?_
    | intro _ | refine Kept.ite ?_ ?_ | refine Kept.ite1 ?_ ?_ | (simp only [Kept.lit]; refine Kept.toF ?_)
    | dsimp only | split

theorem kept_execTirSplitWrite {s0 s : State} (path : Nat) (value : Word) (cycle : Nat) (hkept : Kept s0 s) :
    KeptO s0 (execTirSplitWrite path value cycle s) := by
  unfold execTirSplitWrite
  try dsimp only
  repeat' with_reducible first
    | assumption | apply kept_guardPair | apply kept_effTirSplit | intro _ | refine KeptO.next ?_ | dsimp only

theorem kept_kvHotShrink {s0 s : State} (h : Nat) (blocks : Nat) (hkept : Kept s0 s) :
    Kept s0 (State.kvHotShrink s h blocks) := by
  unfold State.kvHotShrink
  try dsimp only
  repeat' with_reducible first
    | assumption | apply kept_setKv | intro _ | refine Kept.ite ?_ ?_ | refine Kept.ite1 ?_ ?_
    | (simp only [Kept.lit]; refine Kept.toF ?_) | dsimp only | split

theorem kept_applySplit {s0 s : State} (h : Nat) (x : Split) (hkept : Kept s0 s) :
    Kept s0 (State.applySplit s h x) := by
  unfold State.applySplit
  try dsimp only
  repeat' with_reducible first
    | assumption | apply kept_setEvt | apply kept_setTier | apply kept_drainTier | apply kept_rcShrink
    | apply kept_kvHotShrink | intro _ | (simp only [Kept.lit]; refine Kept.toF ?_) | dsimp only

theorem kept_splitStep {s0 s : State} (hkept : Kept s0 s) :
    Kept s0 (State.splitStep s) := by
  unfold State.splitStep
  try dsimp only
  repeat' with_reducible first
    | assumption | apply kept_applySplit | refine Kept.foldl ?_ ?_ | refine Kept.foldl1 ?_ ?_ | intro _ | dsimp only

end Sys2Proof.Machine
end

