-- ==== Sys2Proof/Laws/KeptSystem.lean ====
section
/-! SUPPORT. What stops, security, function resets, failures, attestation and slices keep: the canonical form of the memory, the queue, and the bound
of the fault records. -/

namespace Sys2Proof.Machine

set_option Elab.async false

theorem kept_forgetWork {s0 s : State} (tok : Nat) (hkept : Kept s0 s) :
    Kept s0 (State.forgetWork s tok) := by
  unfold State.forgetWork
  try dsimp only
  repeat' with_reducible first
    | assumption | intro _ | (simp only [Kept.lit]; refine Kept.toF ?_) | dsimp only

theorem kept_forgetLoad {s0 s : State} (tok : Nat) (hkept : Kept s0 s) :
    Kept s0 (State.forgetLoad s tok) := by
  unfold State.forgetLoad
  try dsimp only
  repeat' with_reducible first
    | assumption | apply kept_setMtx | intro _ | refine Kept.ite ?_ ?_ | refine Kept.ite1 ?_ ?_
    | (simp only [Kept.lit]; refine Kept.toF ?_) | dsimp only | split

theorem kept_markStopped {s0 s : State} (tok : Nat) (c : Cpl) (hkept : Kept s0 s) :
    Kept s0 (State.markStopped s tok c) := by
  unfold State.markStopped
  try dsimp only
  repeat' with_reducible first
    | assumption | apply kept_setDesc | refine Kept.fst (by assumption) ?_ | intro _ | refine Kept.ite ?_ ?_
    | refine Kept.ite1 ?_ ?_ | (simp only [Kept.lit]; refine Kept.toF ?_) | dsimp only | split

theorem kept_neverRun {s0 s : State} (tok : Nat) (c : Cpl) (hkept : Kept s0 s) :
    Kept s0 (State.neverRun s tok c) := by
  unfold State.neverRun
  try dsimp only
  repeat' with_reducible first
    | assumption | apply kept_setDesc | refine Kept.fst (by assumption) ?_ | intro _ | refine Kept.ite ?_ ?_
    | refine Kept.ite1 ?_ ?_ | (simp only [Kept.lit]; refine Kept.toF ?_) | dsimp only | split

theorem kept_stopWork {s0 s : State} (tok : Nat) (c : Cpl) (hkept : Kept s0 s) :
    Kept s0 (State.stopWork s tok c) := by
  unfold State.stopWork
  try dsimp only
  repeat' with_reducible first
    | assumption | apply kept_finish | apply kept_opEnd | apply kept_setTier | apply kept_stopRun | apply kept_kvStop
    | apply kept_srhStop | apply kept_setQue | apply kept_pushStop | apply kept_popStop | apply kept_forgetWork
    | apply kept_forgetLoad | apply kept_markStopped | apply kept_neverRun | refine Kept.fst (by assumption) ?_
    | intro _ | refine Kept.ite ?_ ?_ | refine Kept.ite1 ?_ ?_ | (simp only [Kept.lit]; refine Kept.toF ?_)
    | dsimp only | split

theorem kept_cutOff {s0 s : State} (tok : Nat) (c : Cpl) (t : Nat) (hkept : Kept s0 s) :
    Kept s0 (State.cutOff s tok c t) := by
  unfold State.cutOff
  try dsimp only
  repeat' with_reducible first
    | assumption | apply kept_setDesc | apply kept_forgetLoad | apply kept_stopWork
    | refine Kept.fst (by assumption) ?_ | intro _ | refine Kept.ite ?_ ?_ | refine Kept.ite1 ?_ ?_
    | (simp only [Kept.lit]; refine Kept.toF ?_) | dsimp only | split

theorem kept_setSec {s0 s : State} (f : SecState → SecState) (hkept : Kept s0 s) :
    Kept s0 (State.setSec s f) := by
  unfold State.setSec
  try dsimp only
  repeat' with_reducible first
    | assumption | intro _ | (simp only [Kept.lit]; refine Kept.toF ?_) | dsimp only

theorem kept_setSlot {s0 s : State} (k : Nat) (x : KeySlot) (hkept : Kept s0 s) :
    Kept s0 (State.setSlot s k x) := by
  unfold State.setSlot
  try dsimp only
  repeat' with_reducible first
    | assumption | intro _ | (simp only [Kept.lit]; refine Kept.toF ?_) | dsimp only

theorem kept_newKey {s0 s : State} (hkept : Kept s0 s) :
    Kept s0 (State.newKey s).2 := by
  unfold State.newKey
  try dsimp only
  repeat' with_reducible first
    | assumption | intro _ | (simp only [Kept.lit]; refine Kept.toF ?_) | dsimp only

theorem kept_activateSlot {s0 s : State} (k : Nat) (slice : Nat) (owner : BitVec 384) (hkept : Kept s0 s) :
    Kept s0 (State.activateSlot s k slice owner) := by
  unfold State.activateSlot
  try dsimp only
  repeat' with_reducible first
    | assumption | apply kept_setSlot | apply kept_newKey | refine Kept.fst (by assumption) ?_
    | refine Kept.snd (by assumption) ?_ | intro _ | dsimp only | split

theorem kept_execSlotActivate {s0 s : State} (tok : Nat) (ext : List Byte) (hkept : Kept s0 s) :
    KeptO s0 (execSlotActivate tok ext s) := by
  unfold execSlotActivate
  try dsimp only
  repeat' with_reducible first
    | assumption | apply kept_runDesc | apply kept_acquire | apply kept_readSegs | apply kept_activateSlot
    | refine Kept.fst (by assumption) ?_ | refine Kept.ofReady (by assumption) ?_
    | refine Kept.ofWait (by assumption) ?_ | refine Kept.ofStop (by assumption) ?_ | intro _ | refine KeptO.next ?_
    | refine Kept.ite ?_ ?_ | refine Kept.ite1 ?_ ?_ | (simp only [Kept.lit]; refine Kept.toF ?_) | dsimp only | split

theorem kept_endConf {s0 s : State} (port : Nat) (hkept : Kept s0 s) :
    Kept s0 (State.endConf s port) := by
  unfold State.endConf
  try dsimp only
  repeat' with_reducible first
    | assumption | apply kept_stopWork | apply kept_setSec | refine Kept.foldl ?_ ?_ | refine Kept.foldl1 ?_ ?_
    | intro _ | (simp only [Kept.lit]; refine Kept.toF ?_) | dsimp only

theorem kept_effSlotCtrl {s0 s : State} (v : Word) (hkept : Kept s0 s) :
    Kept s0 (effSlotCtrl v s).1 := by
  unfold effSlotCtrl
  try dsimp only
  repeat' with_reducible first
    | assumption | apply kept_setSlot | intro _ | refine Kept.ite ?_ ?_ | refine Kept.ite1 ?_ ?_
    | (simp only [Kept.lit]; refine Kept.toF ?_) | dsimp only | split

theorem kept_execSlotRetire {s0 s : State} (path : Nat) (value : Word) (cycle : Nat) (hkept : Kept s0 s) :
    KeptO s0 (execSlotRetire path value cycle s) := by
  unfold execSlotRetire
  try dsimp only
  repeat' with_reducible first
    | assumption | apply kept_guardPair | apply kept_effSlotCtrl | intro _ | refine KeptO.next ?_ | dsimp only

theorem kept_beginRetire {s0 s : State} (k : Nat) (hkept : Kept s0 s) :
    Kept s0 (State.beginRetire s k) := by
  unfold State.beginRetire
  try dsimp only
  repeat' with_reducible first
    | assumption | apply kept_setEvt | apply kept_cutOff | apply kept_setSlot | refine Kept.foldl ?_ ?_
    | refine Kept.foldl1 ?_ ?_ | intro _ | (simp only [Kept.lit]; refine Kept.toF ?_) | dsimp only

theorem kept_beginZeroise {s0 s : State} (k : Nat) (hkept : Kept s0 s) :
    Kept s0 (State.beginZeroise s k) := by
  unfold State.beginZeroise
  try dsimp only
  repeat' with_reducible first
    | assumption | apply kept_setRing | apply kept_setSubq | apply kept_ringStopCheck | apply kept_subqStopCheck
    | apply kept_setSlot | apply kept_endConf | refine Kept.foldl ?_ ?_ | refine Kept.foldl1 ?_ ?_ | intro _
    | (simp only [Kept.lit]; refine Kept.toF ?_) | dsimp only

theorem kept_retireSlot {s0 s : State} (k : Nat) (ns : Nat) (hkept : Kept s0 s) :
    Kept s0 (State.retireSlot s k ns) := by
  unfold State.retireSlot
  try dsimp only
  repeat' with_reducible first
    | assumption | apply kept_setSlot | apply kept_beginRetire | apply kept_beginZeroise
    | refine Kept.fst (by assumption) ?_ | intro _ | refine Kept.ite ?_ ?_ | refine Kept.ite1 ?_ ?_
    | (simp only [Kept.lit]; refine Kept.toF ?_) | dsimp only | split

theorem kept_retireStep {s0 s : State} (ns : Nat) (hkept : Kept s0 s) :
    Kept s0 (State.retireStep s ns) := by
  unfold State.retireStep
  try dsimp only
  repeat' with_reducible first
    | assumption | apply kept_retireSlot | refine Kept.foldl ?_ ?_ | refine Kept.foldl1 ?_ ?_ | intro _ | dsimp only

theorem kept_releaseObjects {s0 s : State} (k : Nat) (hkept : Kept s0 s) :
    Kept s0 (State.releaseObjects s k) := by
  unfold State.releaseObjects
  try dsimp only
  repeat' with_reducible first
    | assumption | apply kept_setMtx | apply kept_freePool | apply kept_dropUpdate | apply kept_freeTable
    | apply kept_freeIndex | apply kept_freeQueue | refine Kept.foldl ?_ ?_ | refine Kept.foldl1 ?_ ?_ | intro _
    | refine Kept.ite ?_ ?_ | refine Kept.ite1 ?_ ?_ | (simp only [Kept.lit]; refine Kept.toF ?_) | dsimp only | split

theorem kept_endZeroise {s0 s : State} (k : Nat) (hkept : Kept s0 s) :
    Kept s0 (State.endZeroise s k) := by
  unfold State.endZeroise
  try dsimp only
  repeat' with_reducible first
    | assumption | apply kept_setEvt | apply kept_event | apply kept_tierForget | apply kept_cutOff | apply kept_setSec
    | apply kept_setSlot | apply kept_releaseObjects | refine Kept.foldl ?_ ?_ | refine Kept.foldl1 ?_ ?_ | intro _
    | refine Kept.ite ?_ ?_ | refine Kept.ite1 ?_ ?_ | (simp only [Kept.lit]; refine Kept.toF ?_) | dsimp only | split

theorem kept_execZeroisationDone {s0 s : State} (slot : Nat) (hkept : Kept s0 s) :
    KeptO s0 (execZeroisationDone slot s) := by
  unfold execZeroisationDone
  try dsimp only
  repeat' with_reducible first
    | assumption | apply kept_endZeroise | intro _ | refine KeptO.next ?_ | refine Kept.ite ?_ ?_
    | refine Kept.ite1 ?_ ?_ | dsimp only | split

theorem kept_effOtpCtrl {s0 s : State} (v : Word) (hkept : Kept s0 s) :
    Kept s0 (effOtpCtrl v s).1 := by
  unfold effOtpCtrl
  try dsimp only
  repeat' with_reducible first
    | assumption | apply kept_setFld | apply kept_setSec | refine Kept.fst (by assumption) ?_ | intro _
    | refine Kept.getD ?_ ?_ | refine Kept.ite ?_ ?_ | refine Kept.ite1 ?_ ?_
    | (simp only [Kept.lit]; refine Kept.toF ?_) | dsimp only | split

theorem kept_execOtpProgram {s0 s : State} (path : Nat) (value : Word) (cycle : Nat) (hkept : Kept s0 s) :
    KeptO s0 (execOtpProgram path value cycle s) := by
  unfold execOtpProgram
  try dsimp only
  repeat' with_reducible first
    | assumption | apply kept_guardPair | apply kept_effOtpCtrl | intro _ | refine KeptO.next ?_ | dsimp only

theorem kept_execOtpProgramDone {s0 s : State} (hkept : Kept s0 s) :
    KeptO s0 (execOtpProgramDone s) := by
  unfold execOtpProgramDone
  try dsimp only
  repeat' with_reducible first
    | assumption | apply kept_setEvt | apply kept_setSec | refine Kept.fst (by assumption) ?_ | intro _
    | refine KeptO.next ?_ | (simp only [Kept.lit]; refine Kept.toF ?_) | dsimp only | split

theorem kept_shiftBypass {s0 s : State} (tdi : Nat) (count : Nat) (hkept : Kept s0 s) :
    Kept s0 (State.shiftBypass s tdi count) := by
  unfold State.shiftBypass
  try dsimp only
  repeat' with_reducible first
    | assumption | apply kept_emit | apply kept_setSec | intro _ | (simp only [Kept.lit]; refine Kept.toF ?_)
    | dsimp only

theorem kept_execBypass {s0 s : State} (tdi : Nat) (count : Nat) (hkept : Kept s0 s) :
    KeptO s0 (execBypass tdi count s) := by
  unfold execBypass
  try dsimp only
  repeat' with_reducible first
    | assumption | apply kept_shiftBypass | intro _ | refine KeptO.next ?_ | dsimp only

theorem kept_execSamplePreload {s0 s : State} (cells : Nat) (count : Nat) (hkept : Kept s0 s) :
    KeptO s0 (execSamplePreload cells count s) := by
  unfold execSamplePreload
  try dsimp only
  repeat' with_reducible first
    | assumption | apply kept_emit | apply kept_draw | apply kept_setSec | refine Kept.fst (by assumption) ?_
    | refine Kept.snd (by assumption) ?_ | intro _ | refine KeptO.next ?_ | (simp only [Kept.lit]; refine Kept.toF ?_)
    | dsimp only | split

theorem kept_execExtest {s0 s : State} (cells : Nat) (count : Nat) (hkept : Kept s0 s) :
    KeptO s0 (execExtest cells count s) := by
  unfold execExtest
  try dsimp only
  repeat' with_reducible first
    | assumption | apply kept_emit | apply kept_draw | apply kept_setSec | refine Kept.fst (by assumption) ?_
    | refine Kept.snd (by assumption) ?_ | intro _ | refine KeptO.next ?_ | (simp only [Kept.lit]; refine Kept.toF ?_)
    | dsimp only | split

theorem kept_execIdcode {s0 s : State} (hkept : Kept s0 s) :
    KeptO s0 (execIdcode s) := by
  unfold execIdcode
  try dsimp only
  repeat' with_reducible first
    | assumption | apply kept_emit | apply kept_draw | apply kept_setSec | refine Kept.fst (by assumption) ?_
    | refine Kept.snd (by assumption) ?_ | intro _ | refine KeptO.next ?_ | (simp only [Kept.lit]; refine Kept.toF ?_)
    | dsimp only | split

theorem kept_openDebug {s0 s : State} (hkept : Kept s0 s) :
    Kept s0 (State.openDebug s) := by
  unfold State.openDebug
  try dsimp only
  repeat' with_reducible first
    | assumption | apply kept_cutOff | apply kept_setSec | apply kept_endConf | apply kept_beginZeroise
    | apply kept_endZeroise | refine Kept.foldl ?_ ?_ | refine Kept.foldl1 ?_ ?_ | intro _
    | (simp only [Kept.lit]; refine Kept.toF ?_) | dsimp only

theorem kept_execDebugInstruction {s0 s : State} (code : Nat) (tdi : Nat) (count : Nat) (hkept : Kept s0 s) :
    KeptO s0 (execDebugInstruction code tdi count s) := by
  unfold execDebugInstruction
  try dsimp only
  repeat' with_reducible first
    | assumption | apply kept_emit | apply kept_draw | apply kept_setSec | apply kept_shiftBypass
    | apply kept_openDebug | refine Kept.fst (by assumption) ?_ | refine Kept.snd (by assumption) ?_ | intro _
    | refine KeptO.next ?_ | refine Kept.ite ?_ ?_ | refine Kept.ite1 ?_ ?_
    | (simp only [Kept.lit]; refine Kept.toF ?_) | dsimp only | split

theorem kept_discardDesc {s0 s : State} (tok : Nat) (hkept : Kept s0 s) :
    Kept s0 (State.discardDesc s tok) := by
  unfold State.discardDesc
  try dsimp only
  repeat' with_reducible first
    | assumption | apply kept_setDesc | apply kept_dropDesc | apply kept_forgetWork | apply kept_forgetLoad
    | apply kept_stopWork | refine Kept.fst (by assumption) ?_ | intro _ | refine Kept.ite ?_ ?_
    | refine Kept.ite1 ?_ ?_ | (simp only [Kept.lit]; refine Kept.toF ?_) | dsimp only | split

theorem kept_discardOf {s0 s : State} (mine : Src → Bool) (hkept : Kept s0 s) :
    Kept s0 (State.discardOf s mine) := by
  unfold State.discardOf
  try dsimp only
  repeat' with_reducible first
    | assumption | apply kept_discardDesc | refine Kept.foldl ?_ ?_ | refine Kept.foldl1 ?_ ?_ | intro _ | dsimp only

theorem kept_dropPairs {s0 s : State} (p : Nat) (hkept : Kept s0 s) :
    Kept s0 (State.dropPairs s p) := by
  unfold State.dropPairs
  try dsimp only
  repeat' with_reducible first
    | assumption | apply kept_discardOf | intro _ | refine Kept.ite ?_ ?_ | refine Kept.ite1 ?_ ?_
    | (simp only [Kept.lit]; refine Kept.toF ?_) | dsimp only | split

theorem kept_dropAssists {s0 s : State} (p : Nat) (hkept : Kept s0 s) :
    Kept s0 (State.dropAssists s p) := by
  unfold State.dropAssists
  try dsimp only
  repeat' with_reducible first
    | assumption | apply kept_dropAssist | apply kept_fillFail | refine Kept.foldl ?_ ?_ | refine Kept.foldl1 ?_ ?_
    | intro _ | (simp only [Kept.lit]; refine Kept.toF ?_) | dsimp only

theorem kept_dropVersions {s0 s : State} (p : Nat) (hkept : Kept s0 s) :
    Kept s0 (State.dropVersions s p) := by
  unfold State.dropVersions
  try dsimp only
  repeat' with_reducible first
    | assumption | intro _ | refine Kept.ite ?_ ?_ | refine Kept.ite1 ?_ ?_
    | (simp only [Kept.lit]; refine Kept.toF ?_) | dsimp only | split

theorem kept_resetPath {s0 s : State} (p : Nat) (hkept : Kept s0 s) :
    Kept s0 (State.resetPath s p) := by
  unfold State.resetPath
  try dsimp only
  repeat' with_reducible first
    | assumption | intro _ | refine Kept.ite ?_ ?_ | refine Kept.ite1 ?_ ?_
    | (simp only [Kept.lit]; refine Kept.toF ?_) | dsimp only | split

theorem kept_fnReset {s0 s : State} (p : Nat) (hkept : Kept s0 s) :
    Kept s0 (State.fnReset s p) := by
  unfold State.fnReset
  try dsimp only
  repeat' with_reducible first
    | assumption | apply kept_setEvt | apply kept_endConf | apply kept_dropPairs | apply kept_dropAssists
    | apply kept_dropVersions | apply kept_resetPath | intro _ | refine Kept.ite ?_ ?_ | refine Kept.ite1 ?_ ?_
    | (simp only [Kept.lit]; refine Kept.toF ?_) | dsimp only | split

theorem kept_execFnResetDone {s0 s : State} (port : Nat) (hkept : Kept s0 s) :
    KeptO s0 (execFnResetDone port s) := by
  unfold execFnResetDone
  try dsimp only
  repeat' with_reducible first
    | assumption | apply kept_setEvt | apply kept_dropDesc | apply kept_fnReset | refine Kept.foldl ?_ ?_
    | refine Kept.foldl1 ?_ ?_ | intro _ | refine KeptO.next ?_ | refine Kept.ite ?_ ?_ | refine Kept.ite1 ?_ ?_
    | (simp only [Kept.lit]; refine Kept.toF ?_) | dsimp only | split

theorem kept_effFnReset {s0 s : State} (v : Word) (hkept : Kept s0 s) :
    Kept s0 (effFnReset v s).1 := by
  unfold effFnReset
  try dsimp only
  repeat' with_reducible first
    | assumption | apply kept_setFld | apply kept_fnReset | intro _ | refine Kept.ite ?_ ?_ | refine Kept.ite1 ?_ ?_
    | dsimp only | split

theorem kept_execIdnFnReset {s0 s : State} (path : Nat) (value : Word) (cycle : Nat) (hkept : Kept s0 s) :
    KeptO s0 (execIdnFnReset path value cycle s) := by
  unfold execIdnFnReset
  try dsimp only
  repeat' with_reducible first
    | assumption | apply kept_guardPair | apply kept_effFnReset | intro _ | refine KeptO.next ?_ | dsimp only

theorem kept_execPcieFunctionLevelReset {s0 s : State} (port : Nat) (hkept : Kept s0 s) :
    KeptO s0 (execPcieFunctionLevelReset port s) := by
  unfold execPcieFunctionLevelReset
  try dsimp only
  repeat' with_reducible first
    | assumption | apply kept_fnReset | intro _ | refine KeptO.next ?_ | dsimp only

theorem kept_linkChange {s0 s : State} (p : Nat) (rate : Nat) (width : Nat) (hkept : Kept s0 s) :
    Kept s0 (State.linkChange s p rate width) := by
  unfold State.linkChange
  try dsimp only
  repeat' with_reducible first
    | assumption | apply kept_setEvt | apply kept_event | apply kept_setHport | apply kept_fnReset | intro _
    | refine Kept.ite ?_ ?_ | refine Kept.ite1 ?_ ?_ | (simp only [Kept.lit]; refine Kept.toF ?_) | dsimp only | split

theorem kept_linkDown {s0 s : State} (p : Nat) (hkept : Kept s0 s) :
    Kept s0 (State.linkDown s p) := by
  unfold State.linkDown
  try dsimp only
  repeat' with_reducible first
    | assumption | apply kept_linkChange | intro _ | refine Kept.ite ?_ ?_ | refine Kept.ite1 ?_ ?_ | dsimp only
    | split

theorem kept_execHostLinkChange {s0 s : State} (port : Nat) (rate : Nat) (width : Nat) (hkept : Kept s0 s) :
    KeptO s0 (execHostLinkChange port rate width s) := by
  unfold execHostLinkChange
  try dsimp only
  repeat' with_reducible first
    | assumption | apply kept_linkChange | intro _ | refine KeptO.next ?_ | dsimp only

theorem kept_execPerstAssert {s0 s : State} (port : Nat) (hkept : Kept s0 s) :
    KeptO s0 (execPerstAssert port s) := by
  unfold execPerstAssert
  try dsimp only
  repeat' with_reducible first
    | assumption | apply kept_linkDown | intro _ | refine KeptO.next ?_ | dsimp only

theorem kept_setUnits {s0 s : State} (f : UnitsState → UnitsState) (hkept : Kept s0 s) :
    Kept s0 (State.setUnits s f) := by
  unfold State.setUnits
  try dsimp only
  repeat' with_reducible first
    | assumption | intro _ | (simp only [Kept.lit]; refine Kept.toF ?_) | dsimp only

theorem kept_setRas {s0 s : State} (f : RasState → RasState) (hkept : Kept s0 s) :
    Kept s0 (State.setRas s f) := by
  unfold State.setRas
  try dsimp only
  repeat' with_reducible first
    | assumption | intro _ | (simp only [Kept.lit]; refine Kept.toF ?_) | dsimp only

theorem kept_dueLoc {s0 s : State} (loc : Nat) (hkept : Kept s0 s) :
    Kept s0 (State.dueLoc s loc) := by
  unfold State.dueLoc
  try dsimp only
  repeat' with_reducible first
    | assumption | apply kept_setUnits | intro _ | refine Kept.ite ?_ ?_ | refine Kept.ite1 ?_ ?_
    | (simp only [Kept.lit]; refine Kept.toF ?_) | dsimp only | split

theorem kept_setUnit {s0 s : State} (key : Nat) (u : UnitState) (hkept : Kept s0 s) :
    Kept s0 (State.setUnit s key u) := by
  unfold State.setUnit
  try dsimp only
  repeat' with_reducible first
    | assumption | apply kept_setUnits | intro _ | (simp only [Kept.lit]; refine Kept.toF ?_) | dsimp only

theorem kept_leaveService {s0 s : State} (key : Nat) (hkept : Kept s0 s) :
    Kept s0 (State.leaveService s key) := by
  unfold State.leaveService
  try dsimp only
  repeat' with_reducible first
    | assumption | apply kept_setEvt | apply kept_queueFault | apply kept_loseCluster | apply kept_setUnits | intro _
    | refine Kept.ite ?_ ?_ | refine Kept.ite1 ?_ ?_ | (simp only [Kept.lit]; refine Kept.toF ?_) | dsimp only | split

theorem kept_spareUnit {s0 s : State} (key : Nat) (hkept : Kept s0 s) :
    Kept s0 (State.spareUnit s key) := by
  unfold State.spareUnit
  try dsimp only
  repeat' with_reducible first
    | assumption | apply kept_queueFault | apply kept_setUnits | apply kept_setUnit | apply kept_leaveService | intro _
    | refine Kept.ite ?_ ?_ | refine Kept.ite1 ?_ ?_ | (simp only [Kept.lit]; refine Kept.toF ?_) | dsimp only | split

theorem kept_spareLane {s0 s : State} (key : Nat) (hkept : Kept s0 s) :
    Kept s0 (State.spareLane s key) := by
  unfold State.spareLane
  try dsimp only
  repeat' with_reducible first
    | assumption | apply kept_queueFault | apply kept_setUnits | apply kept_leaveService | intro _
    | refine Kept.ite ?_ ?_ | refine Kept.ite1 ?_ ?_ | (simp only [Kept.lit]; refine Kept.toF ?_) | dsimp only | split

theorem kept_retireBlock {s0 s : State} (h : Nat) (hkept : Kept s0 s) :
    Kept s0 (State.retireBlock s h) := by
  unfold State.retireBlock
  try dsimp only
  repeat' with_reducible first
    | assumption | apply kept_queueFault | apply kept_setTier | apply kept_drainTier | apply kept_rcShrink
    | apply kept_kvHotShrink | intro _ | refine Kept.ite ?_ ?_ | refine Kept.ite1 ?_ ?_
    | (simp only [Kept.lit]; refine Kept.toF ?_) | dsimp only | split

theorem kept_retireLane {s0 s : State} (port : Nat) (lane : Nat) (hkept : Kept s0 s) :
    Kept s0 (State.retireLane s port lane) := by
  unfold State.retireLane
  try dsimp only
  repeat' with_reducible first
    | assumption | apply kept_queueFault | apply kept_movePort | intro _ | refine Kept.ite ?_ ?_
    | refine Kept.ite1 ?_ ?_ | (simp only [Kept.lit]; refine Kept.toF ?_) | dsimp only | split

theorem kept_loseChannels {s0 s : State} (cs : List Nat) (hkept : Kept s0 s) :
    Kept s0 (State.loseChannels s cs) := by
  unfold State.loseChannels
  try dsimp only
  repeat' with_reducible first
    | assumption | intro _ | (simp only [Kept.lit]; refine Kept.toF ?_) | dsimp only

theorem kept_loseEngineDie {s0 s : State} (n : Nat) (hkept : Kept s0 s) :
    Kept s0 (State.loseEngineDie s n) := by
  unfold State.loseEngineDie
  try dsimp only
  repeat' with_reducible first
    | assumption | apply kept_setEvt | apply kept_pump | apply kept_setTier | apply kept_endTierJobs
    | apply kept_loseCluster | apply kept_failPool | apply kept_setUnits | apply kept_loseChannels
    | refine Kept.foldl ?_ ?_ | refine Kept.foldl1 ?_ ?_ | intro _ | refine Kept.ite ?_ ?_ | refine Kept.ite1 ?_ ?_
    | (simp only [Kept.lit]; refine Kept.toF ?_) | dsimp only | split

theorem kept_loseHostDie {s0 s : State} (hkept : Kept s0 s) :
    Kept s0 (State.loseHostDie s) := by
  unfold State.loseHostDie
  try dsimp only
  repeat' with_reducible first
    | assumption | apply kept_domainDown | apply kept_linkDown | refine Kept.foldl ?_ ?_ | refine Kept.foldl1 ?_ ?_
    | intro _ | dsimp only

theorem kept_loseLinkDie {s0 s : State} (k : Nat) (hkept : Kept s0 s) :
    Kept s0 (State.loseLinkDie s k) := by
  unfold State.loseLinkDie
  try dsimp only
  repeat' with_reducible first
    | assumption | apply kept_setFld | apply kept_setSubq | apply kept_subqError | apply kept_failPort
    | apply kept_loseQueues | apply kept_discardOf | refine Kept.foldl ?_ ?_ | refine Kept.foldl1 ?_ ?_ | intro _
    | (simp only [Kept.lit]; refine Kept.toF ?_) | dsimp only

theorem kept_loseManagement {s0 s : State} (hkept : Kept s0 s) :
    Kept s0 (State.loseManagement s) := by
  unfold State.loseManagement
  try dsimp only
  repeat' with_reducible first
    | assumption | apply kept_leaveFabric | intro _ | refine Kept.ite ?_ ?_ | refine Kept.ite1 ?_ ?_
    | (simp only [Kept.lit]; refine Kept.toF ?_) | dsimp only | split

theorem kept_loseDie {s0 s : State} (die : Nat) (hkept : Kept s0 s) :
    Kept s0 (State.loseDie s die) := by
  unfold State.loseDie
  try dsimp only
  repeat' with_reducible first
    | assumption | apply kept_queueFault | apply kept_pump | apply kept_failChannel | apply kept_setUnits
    | apply kept_loseChannels | apply kept_loseEngineDie | apply kept_loseHostDie | apply kept_loseLinkDie
    | apply kept_loseManagement | refine Kept.foldl ?_ ?_ | refine Kept.foldl1 ?_ ?_ | intro _ | refine Kept.ite ?_ ?_
    | refine Kept.ite1 ?_ ?_ | (simp only [Kept.lit]; refine Kept.toF ?_) | dsimp only | split

theorem kept_checkPairs {s0 s : State} (hkept : Kept s0 s) :
    Kept s0 (State.checkPairs s) := by
  unfold State.checkPairs
  try dsimp only
  repeat' with_reducible first
    | assumption | apply kept_loseDie | intro _ | refine Kept.ite ?_ ?_ | refine Kept.ite1 ?_ ?_ | dsimp only | split

theorem kept_retirePair {s0 s : State} (p : Nat) (hkept : Kept s0 s) :
    Kept s0 (State.retirePair s p) := by
  unfold State.retirePair
  try dsimp only
  repeat' with_reducible first
    | assumption | apply kept_queueFault | apply kept_setUnits | apply kept_checkPairs | intro _
    | refine Kept.ite ?_ ?_ | refine Kept.ite1 ?_ ?_ | (simp only [Kept.lit]; refine Kept.toF ?_) | dsimp only | split

theorem kept_dealWith {s0 s : State} (loc : Nat) (hkept : Kept s0 s) :
    Kept s0 (State.dealWith s loc) := by
  unfold State.dealWith
  try dsimp only
  repeat' with_reducible first
    | assumption | apply kept_failChannel | apply kept_retireChannel | apply kept_spareUnit | apply kept_spareLane
    | apply kept_retireBlock | apply kept_retireLane | apply kept_retirePair | refine Kept.fst (by assumption) ?_
    | intro _ | (simp only [Kept.lit]; refine Kept.toF ?_) | dsimp only | split

theorem kept_sparesStep {s0 s : State} (hkept : Kept s0 s) :
    Kept s0 (State.sparesStep s) := by
  unfold State.sparesStep
  try dsimp only
  repeat' with_reducible first
    | assumption | apply kept_pump | apply kept_setStk | apply kept_rowDue | apply kept_spareRow | apply kept_setUnits
    | apply kept_dealWith | refine Kept.foldl ?_ ?_ | refine Kept.foldl1 ?_ ?_ | intro _
    | (simp only [Kept.lit]; refine Kept.toF ?_) | dsimp only

theorem kept_postBuild {s0 s : State} (kind : Nat) (ext : Nat) (hkept : Kept s0 s) :
    Kept s0 (State.postBuild s kind ext) := by
  unfold State.postBuild
  try dsimp only
  repeat' with_reducible first
    | assumption | apply kept_postAssist | intro _ | refine Kept.ite ?_ ?_ | refine Kept.ite1 ?_ ?_ | dsimp only
    | split

theorem kept_applyPg {s0 s : State} (ext : Nat) (e : BitVec 256) (hkept : Kept s0 s) :
    Kept s0 (State.applyPg s ext e) := by
  unfold State.applyPg
  try dsimp only
  repeat' with_reducible first
    | assumption | apply kept_setEvt | apply kept_postBuild | intro _ | refine Kept.ite ?_ ?_ | refine Kept.ite1 ?_ ?_
    | (simp only [Kept.lit]; refine Kept.toF ?_) | dsimp only | split

theorem kept_pgStep {s0 s : State} (hkept : Kept s0 s) :
    Kept s0 (State.pgStep s) := by
  unfold State.pgStep
  try dsimp only
  repeat' with_reducible first
    | assumption | apply kept_pump | apply kept_applyPg | refine Kept.foldl ?_ ?_ | refine Kept.foldl1 ?_ ?_ | intro _
    | refine Kept.ite ?_ ?_ | refine Kept.ite1 ?_ ?_ | (simp only [Kept.lit]; refine Kept.toF ?_) | dsimp only | split

theorem kept_takeOver {s0 s : State} (d : Nat) (hkept : Kept s0 s) :
    Kept s0 (State.takeOver s d) := by
  unfold State.takeOver
  try dsimp only
  repeat' with_reducible first
    | assumption | apply kept_setFld | apply kept_queueFault | intro _ | refine Kept.ite ?_ ?_ | refine Kept.ite1 ?_ ?_
    | (simp only [Kept.lit]; refine Kept.toF ?_) | dsimp only | split

theorem kept_swapStep {s0 s : State} (old : Nat) (t : Nat) (hkept : Kept s0 s) :
    Kept s0 (State.swapStep s old t) := by
  unfold State.swapStep
  try dsimp only
  repeat' with_reducible first
    | assumption | apply kept_queueFault | apply kept_leaveFabric | apply kept_setRas | apply kept_takeOver
    | refine Kept.fst (by assumption) ?_ | intro _ | refine Kept.ite ?_ ?_ | refine Kept.ite1 ?_ ?_
    | (simp only [Kept.lit]; refine Kept.toF ?_) | dsimp only | split

theorem kept_countLate {s0 s : State} (t : Nat) (lateUs : Nat) (overran : Bool) (hkept : Kept s0 s) :
    Kept s0 (State.countLate s t lateUs overran) := by
  unfold State.countLate
  try dsimp only
  repeat' with_reducible first
    | assumption | apply kept_setRas | intro _ | refine Kept.ite ?_ ?_ | refine Kept.ite1 ?_ ?_
    | (simp only [Kept.lit]; refine Kept.toF ?_) | dsimp only | split

theorem kept_suspectStep {s0 s : State} (t : Nat) (hkept : Kept s0 s) :
    Kept s0 (State.suspectStep s t) := by
  unfold State.suspectStep
  try dsimp only
  repeat' with_reducible first
    | assumption | apply kept_queueFault | apply kept_setRas | intro _ | refine Kept.ite ?_ ?_ | refine Kept.ite1 ?_ ?_
    | (simp only [Kept.lit]; refine Kept.toF ?_) | dsimp only | split

theorem kept_setConn {s0 s : State} (t : Nat) (c : SpdmConn) (hkept : Kept s0 s) :
    Kept s0 (State.setConn s t c) := by
  unfold State.setConn
  try dsimp only
  repeat' with_reducible first
    | assumption | apply kept_setSec | intro _ | (simp only [Kept.lit]; refine Kept.toF ?_) | dsimp only

theorem kept_spdmSend {s0 s : State} (t : Nat) (code : Nat) (payload : List Byte) (hkept : Kept s0 s) :
    Kept s0 (State.spdmSend s t code payload) := by
  unfold State.spdmSend
  try dsimp only
  repeat' with_reducible first
    | assumption | apply kept_emit | intro _ | refine Kept.ite ?_ ?_ | refine Kept.ite1 ?_ ?_ | dsimp only | split

theorem kept_spdmReply {s0 s : State} (t : Nat) (code : Nat) (payload : List Byte) (hkept : Kept s0 s) :
    Kept s0 (State.spdmReply s t code payload) := by
  unfold State.spdmReply
  try dsimp only
  repeat' with_reducible first
    | assumption | apply kept_setConn | apply kept_spdmSend | intro _ | refine Kept.ite ?_ ?_ | refine Kept.ite1 ?_ ?_
    | (simp only [Kept.lit]; refine Kept.toF ?_) | dsimp only | split

theorem kept_spdmError {s0 s : State} (t : Nat) (code : Nat) (hkept : Kept s0 s) :
    Kept s0 (State.spdmError s t code) := by
  unfold State.spdmError
  try dsimp only
  repeat' with_reducible first
    | assumption | apply kept_spdmSend | intro _ | dsimp only

theorem kept_spdmRequest {s0 s : State} (via : Via) (ok : SpdmConn → Bool) (k : State → State) (hcb_k : ∀ x0, Kept s0 x0 → Kept s0 (k x0)) (hkept : Kept s0 s) :
    Kept s0 (State.spdmRequest s via ok k) := by
  unfold State.spdmRequest
  try dsimp only
  repeat' with_reducible first
    | assumption | apply kept_setConn | apply kept_spdmError | apply hcb_k | intro _ | refine Kept.ite ?_ ?_
    | refine Kept.ite1 ?_ ?_ | (simp only [Kept.lit]; refine Kept.toF ?_) | dsimp only | split

theorem kept_execGetVersion {s0 s : State} (via : Via) (hkept : Kept s0 s) :
    KeptO s0 (execGetVersion via s) := by
  unfold execGetVersion
  try dsimp only
  repeat' with_reducible first
    | assumption | apply kept_setConn | apply kept_spdmReply | apply kept_spdmRequest | intro _ | refine KeptO.next ?_
    | dsimp only

theorem kept_execGetCapabilities {s0 s : State} (via : Via) (hkept : Kept s0 s) :
    KeptO s0 (execGetCapabilities via s) := by
  unfold execGetCapabilities
  try dsimp only
  repeat' with_reducible first
    | assumption | apply kept_setConn | apply kept_spdmReply | apply kept_spdmRequest | intro _ | refine KeptO.next ?_
    | (simp only [Kept.lit]; refine Kept.toF ?_) | dsimp only

theorem kept_execNegotiateAlgorithms {s0 s : State} (via : Via) (hkept : Kept s0 s) :
    KeptO s0 (execNegotiateAlgorithms via s) := by
  unfold execNegotiateAlgorithms
  try dsimp only
  repeat' with_reducible first
    | assumption | apply kept_setConn | apply kept_spdmReply | apply kept_spdmRequest | intro _ | refine KeptO.next ?_
    | (simp only [Kept.lit]; refine Kept.toF ?_) | dsimp only

theorem kept_execGetDigests {s0 s : State} (via : Via) (hkept : Kept s0 s) :
    KeptO s0 (execGetDigests via s) := by
  unfold execGetDigests
  try dsimp only
  repeat' with_reducible first
    | assumption | apply kept_spdmReply | apply kept_spdmRequest | intro _ | refine KeptO.next ?_ | dsimp only

theorem kept_execGetCertificate {s0 s : State} (via : Via) (slot : Nat) (offset : Nat) (length : Nat) (hkept : Kept s0 s) :
    KeptO s0 (execGetCertificate via slot offset length s) := by
  unfold execGetCertificate
  try dsimp only
  repeat' with_reducible first
    | assumption | apply kept_spdmReply | apply kept_spdmError | apply kept_spdmRequest | intro _
    | refine KeptO.next ?_ | refine Kept.ite ?_ ?_ | refine Kept.ite1 ?_ ?_ | dsimp only | split

theorem kept_execChallenge {s0 s : State} (via : Via) (slot : Nat) (nonce : List Byte) (hkept : Kept s0 s) :
    KeptO s0 (execChallenge via slot nonce s) := by
  unfold execChallenge
  try dsimp only
  repeat' with_reducible first
    | assumption | apply kept_spdmReply | apply kept_spdmError | apply kept_spdmRequest | intro _
    | refine KeptO.next ?_ | refine Kept.ite ?_ ?_ | refine Kept.ite1 ?_ ?_ | dsimp only | split

theorem kept_execGetMeasurements {s0 s : State} (via : Via) (block : Nat) (nonce : List Byte) (hkept : Kept s0 s) :
    KeptO s0 (execGetMeasurements via block nonce s) := by
  unfold execGetMeasurements
  try dsimp only
  repeat' with_reducible first
    | assumption | apply kept_spdmReply | apply kept_spdmError | apply kept_spdmRequest | intro _
    | refine KeptO.next ?_ | refine Kept.ite ?_ ?_ | refine Kept.ite1 ?_ ?_ | dsimp only | split

theorem kept_execKeyExchange {s0 s : State} (via : Via) (slot : Nat) (authentic : Bool) (leaf : BitVec 384) (rooted : Bool) (hkept : Kept s0 s) :
    KeptO s0 (execKeyExchange via slot authentic leaf rooted s) := by
  unfold execKeyExchange
  try dsimp only
  repeat' with_reducible first
    | assumption | apply kept_setConn | apply kept_spdmReply | apply kept_spdmError | apply kept_spdmRequest | intro _
    | refine KeptO.next ?_ | refine Kept.ite ?_ ?_ | refine Kept.ite1 ?_ ?_
    | (simp only [Kept.lit]; refine Kept.toF ?_) | dsimp only | split

theorem kept_execFinish {s0 s : State} (via : Via) (session : Nat) (verified : Bool) (hkept : Kept s0 s) :
    KeptO s0 (execFinish via session verified s) := by
  unfold execFinish
  try dsimp only
  repeat' with_reducible first
    | assumption | apply kept_setConn | apply kept_spdmReply | apply kept_spdmError | apply kept_spdmRequest
    | refine Kept.fst (by assumption) ?_ | intro _ | refine KeptO.next ?_ | refine Kept.ite ?_ ?_
    | refine Kept.ite1 ?_ ?_ | (simp only [Kept.lit]; refine Kept.toF ?_) | dsimp only | split

theorem kept_inSession {s0 s : State} (via : Via) (id : Nat) (k : SpdmSession → State → State) (hcb_k : ∀ x0 x1, Kept s0 x1 → Kept s0 (k x0 x1)) (hkept : Kept s0 s) :
    Kept s0 (State.inSession s via id k) := by
  unfold State.inSession
  try dsimp only
  repeat' with_reducible first
    | assumption | apply kept_spdmError | apply kept_spdmRequest | apply hcb_k | refine Kept.fst (by assumption) ?_
    | intro _ | refine Kept.ite ?_ ?_ | refine Kept.ite1 ?_ ?_ | (simp only [Kept.lit]; refine Kept.toF ?_)
    | dsimp only | split

theorem kept_execHeartbeat {s0 s : State} (via : Via) (session : Nat) (hkept : Kept s0 s) :
    KeptO s0 (execHeartbeat via session s) := by
  unfold execHeartbeat
  try dsimp only
  repeat' with_reducible first
    | assumption | apply kept_spdmReply | apply kept_inSession | intro _ | refine KeptO.next ?_ | dsimp only

theorem kept_execKeyUpdate {s0 s : State} (via : Via) (session : Nat) (hkept : Kept s0 s) :
    KeptO s0 (execKeyUpdate via session s) := by
  unfold execKeyUpdate
  try dsimp only
  repeat' with_reducible first
    | assumption | apply kept_setConn | apply kept_spdmReply | apply kept_inSession | intro _ | refine KeptO.next ?_
    | (simp only [Kept.lit]; refine Kept.toF ?_) | dsimp only

theorem kept_execEndSession {s0 s : State} (via : Via) (session : Nat) (hkept : Kept s0 s) :
    KeptO s0 (execEndSession via session s) := by
  unfold execEndSession
  try dsimp only
  repeat' with_reducible first
    | assumption | apply kept_setConn | apply kept_spdmReply | apply kept_inSession | intro _ | refine KeptO.next ?_
    | (simp only [Kept.lit]; refine Kept.toF ?_) | dsimp only

theorem kept_execChunkSend {s0 s : State} (via : Via) (data : List Byte) (last : Bool) (hkept : Kept s0 s) :
    KeptO s0 (execChunkSend via data last s) := by
  unfold execChunkSend
  try dsimp only
  repeat' with_reducible first
    | assumption | apply kept_setConn | apply kept_spdmReply | apply kept_spdmRequest | intro _ | refine KeptO.next ?_
    | refine Kept.ite ?_ ?_ | refine Kept.ite1 ?_ ?_ | (simp only [Kept.lit]; refine Kept.toF ?_) | dsimp only | split

theorem kept_execChunkGet {s0 s : State} (via : Via) (hkept : Kept s0 s) :
    KeptO s0 (execChunkGet via s) := by
  unfold execChunkGet
  try dsimp only
  repeat' with_reducible first
    | assumption | apply kept_setConn | apply kept_spdmReply | apply kept_spdmError | apply kept_spdmRequest | intro _
    | refine KeptO.next ?_ | refine Kept.ite ?_ ?_ | refine Kept.ite1 ?_ ?_
    | (simp only [Kept.lit]; refine Kept.toF ?_) | dsimp only | split

theorem kept_vendorReply {s0 s : State} (t : Nat) (vcode : Nat) (status : Nat) (handle : Nat) (hkept : Kept s0 s) :
    Kept s0 (State.vendorReply s t vcode status handle) := by
  unfold State.vendorReply
  try dsimp only
  repeat' with_reducible first
    | assumption | apply kept_spdmReply | intro _ | dsimp only

theorem kept_vendor {s0 s : State} (via : Via) (session : Nat) (vcode : Nat) (len : Nat) (p : List Byte) (k : Nat → Nat → State → State × Nat × Nat) (hcb_k : ∀ x0 x1 x2, Kept s0 x2 → Kept s0 (k x0 x1 x2).1) (hkept : Kept s0 s) :
    Kept s0 (State.vendor s via session vcode len p k) := by
  unfold State.vendor
  try dsimp only
  repeat' with_reducible first
    | assumption | apply kept_spdmRequest | apply kept_vendorReply | apply hcb_k | refine Kept.fst (by assumption) ?_
    | intro _ | refine Kept.ite ?_ ?_ | refine Kept.ite1 ?_ ?_ | (simp only [Kept.lit]; refine Kept.toF ?_)
    | dsimp only | split

theorem kept_execModelKeySet {s0 s : State} (via : Via) (session : Nat) (payload : List Byte) (hkept : Kept s0 s) :
    KeptO s0 (execModelKeySet via session payload s) := by
  unfold execModelKeySet
  try dsimp only
  repeat' with_reducible first
    | assumption | apply kept_program | apply kept_setSec | apply kept_vendor | refine Kept.fst (by assumption) ?_
    | intro _ | refine KeptO.next ?_ | refine Kept.getD ?_ ?_ | (simp only [Kept.lit]; refine Kept.toF ?_) | dsimp only
    | split

theorem kept_execModelKeyDrop {s0 s : State} (via : Via) (session : Nat) (payload : List Byte) (hkept : Kept s0 s) :
    KeptO s0 (execModelKeyDrop via session payload s) := by
  unfold execModelKeyDrop
  try dsimp only
  repeat' with_reducible first
    | assumption | apply kept_setSec | apply kept_spdmRequest | apply kept_vendorReply
    | refine Kept.fst (by assumption) ?_ | intro _ | refine KeptO.next ?_ | refine Kept.ite ?_ ?_
    | refine Kept.ite1 ?_ ?_ | (simp only [Kept.lit]; refine Kept.toF ?_) | dsimp only | split

theorem kept_execFlashKeySet {s0 s : State} (via : Via) (session : Nat) (payload : List Byte) (hkept : Kept s0 s) :
    KeptO s0 (execFlashKeySet via session payload s) := by
  unfold execFlashKeySet
  try dsimp only
  repeat' with_reducible first
    | assumption | apply kept_setSlot | apply kept_vendor | intro _ | refine KeptO.next ?_ | refine Kept.ite ?_ ?_
    | refine Kept.ite1 ?_ ?_ | (simp only [Kept.lit]; refine Kept.toF ?_) | dsimp only | split

theorem kept_execConfEnable {s0 s : State} (via : Via) (session : Nat) (payload : List Byte) (hkept : Kept s0 s) :
    KeptO s0 (execConfEnable via session payload s) := by
  unfold execConfEnable
  try dsimp only
  repeat' with_reducible first
    | assumption | apply kept_setSec | apply kept_vendor | intro _ | refine KeptO.next ?_ | refine Kept.ite ?_ ?_
    | refine Kept.ite1 ?_ ?_ | (simp only [Kept.lit]; refine Kept.toF ?_) | dsimp only | split

theorem kept_testUnit {s0 s : State} (key : Nat) (hkept : Kept s0 s) :
    Kept s0 (State.testUnit s key) := by
  unfold State.testUnit
  try dsimp only
  repeat' with_reducible first
    | assumption | apply kept_setUnits | apply kept_setUnit | intro _ | refine Kept.ite ?_ ?_ | refine Kept.ite1 ?_ ?_
    | (simp only [Kept.lit]; refine Kept.toF ?_) | dsimp only | split

theorem kept_execWorkItemDone {s0 s : State} (tok : Nat) (cluster : Nat) (attempt : Nat) (ok : Bool) (unit : Nat) (ext : List Byte) (hkept : Kept s0 s) :
    KeptO s0 (execWorkItemDone tok cluster attempt ok unit ext s) := by
  unfold execWorkItemDone
  try dsimp only
  repeat' with_reducible first
    | assumption | apply kept_countStale | apply kept_workItem | apply kept_retryItem | apply kept_testUnit
    | refine Kept.fst (by assumption) ?_ | intro _ | refine KeptO.next ?_ | refine Kept.ite ?_ ?_
    | refine Kept.ite1 ?_ ?_ | (simp only [Kept.lit]; refine Kept.toF ?_) | dsimp only | split

theorem kept_rerun {s0 s : State} (tok : Nat) (loc : Nat) (hkept : Kept s0 s) :
    Kept s0 (State.rerun s tok loc) := by
  unfold State.rerun
  try dsimp only
  repeat' with_reducible first
    | assumption | apply kept_retryItem | apply kept_dueLoc | apply kept_setUnit | refine Kept.fst (by assumption) ?_
    | intro _ | refine Kept.ite ?_ ?_ | refine Kept.ite1 ?_ ?_ | (simp only [Kept.lit]; refine Kept.toF ?_)
    | dsimp only | split

theorem kept_execUnitFailure {s0 s : State} (tok : Nat) (loc : Nat) (hkept : Kept s0 s) :
    KeptO s0 (execUnitFailure tok loc s) := by
  unfold execUnitFailure
  try dsimp only
  repeat' with_reducible first
    | assumption | apply kept_rerun | intro _ | refine KeptO.next ?_ | dsimp only

theorem kept_execEngineWatchdog {s0 s : State} (tok : Nat) (loc : Nat) (hkept : Kept s0 s) :
    KeptO s0 (execEngineWatchdog tok loc s) := by
  unfold execEngineWatchdog
  try dsimp only
  repeat' with_reducible first
    | assumption | apply kept_rerun | intro _ | refine KeptO.next ?_ | dsimp only

theorem kept_predictive {s0 s : State} (row : Nat) (loc : Nat) (hkept : Kept s0 s) :
    Kept s0 (State.predictive s row loc) := by
  unfold State.predictive
  try dsimp only
  repeat' with_reducible first
    | assumption | apply kept_queueFault | apply kept_dueLoc | intro _ | refine Kept.ite ?_ ?_ | refine Kept.ite1 ?_ ?_
    | dsimp only | split

theorem kept_execUnitTestDone {s0 s : State} (loc : Nat) (passed : Bool) (hkept : Kept s0 s) :
    KeptO s0 (execUnitTestDone loc passed s) := by
  unfold execUnitTestDone
  try dsimp only
  repeat' with_reducible first
    | assumption | apply kept_setUnits | apply kept_dueLoc | apply kept_setUnit | apply kept_predictive | intro _
    | refine KeptO.next ?_ | refine Kept.ite ?_ ?_ | refine Kept.ite1 ?_ ?_
    | (simp only [Kept.lit]; refine Kept.toF ?_) | dsimp only | split

theorem kept_execLockstepMismatch {s0 s : State} (pair : Nat) (hkept : Kept s0 s) :
    KeptO s0 (execLockstepMismatch pair s) := by
  unfold execLockstepMismatch
  try dsimp only
  repeat' with_reducible first
    | assumption | apply kept_setUnits | apply kept_checkPairs | intro _ | refine KeptO.next ?_ | refine Kept.ite ?_ ?_
    | refine Kept.ite1 ?_ ?_ | (simp only [Kept.lit]; refine Kept.toF ?_) | dsimp only | split

theorem kept_execPairRestartTestDone {s0 s : State} (pair : Nat) (passed : Bool) (hkept : Kept s0 s) :
    KeptO s0 (execPairRestartTestDone pair passed s) := by
  unfold execPairRestartTestDone
  try dsimp only
  repeat' with_reducible first
    | assumption | apply kept_setUnits | apply kept_dueLoc | intro _ | refine KeptO.next ?_ | refine Kept.ite ?_ ?_
    | refine Kept.ite1 ?_ ?_ | (simp only [Kept.lit]; refine Kept.toF ?_) | dsimp only | split

theorem kept_invalidateEntry {s0 s : State} (table : Nat) (index : Nat) (hkept : Kept s0 s) :
    Kept s0 (State.invalidateEntry s table index) := by
  unfold State.invalidateEntry
  try dsimp only
  repeat' with_reducible first
    | assumption | intro _ | refine Kept.ite ?_ ?_ | refine Kept.ite1 ?_ ?_
    | (simp only [Kept.lit]; refine Kept.toF ?_) | dsimp only | split

theorem kept_execConfigurationScrub {s0 s : State} (table : Nat) (index : Nat) (corrected : Bool) (hkept : Kept s0 s) :
    KeptO s0 (execConfigurationScrub table index corrected s) := by
  unfold execConfigurationScrub
  try dsimp only
  repeat' with_reducible first
    | assumption | apply kept_queueFault | apply kept_invalidateEntry | intro _ | refine KeptO.next ?_
    | refine Kept.ite ?_ ?_ | refine Kept.ite1 ?_ ?_ | dsimp only | split

theorem kept_execClockDeviation {s0 s : State} (die : Nat) (hkept : Kept s0 s) :
    KeptO s0 (execClockDeviation die s) := by
  unfold execClockDeviation
  try dsimp only
  repeat' with_reducible first
    | assumption | apply kept_loseDie | intro _ | refine KeptO.next ?_ | refine Kept.ite ?_ ?_ | refine Kept.ite1 ?_ ?_
    | dsimp only | split

theorem kept_execDieLoss {s0 s : State} (die : Nat) (hkept : Kept s0 s) :
    KeptO s0 (execDieLoss die s) := by
  unfold execDieLoss
  try dsimp only
  repeat' with_reducible first
    | assumption | apply kept_loseDie | intro _ | refine KeptO.next ?_ | refine Kept.ite ?_ ?_ | refine Kept.ite1 ?_ ?_
    | dsimp only | split

theorem kept_effRasCtrl {s0 s : State} (v : Word) (h : Kept s0 s) : Kept s0 (effRasCtrl v s).1 := by
  unfold effRasCtrl
  dsimp only
  split
  · exact ⟨h.1, h.2.1, fun hf => faultsOk_drop (h.2.2 hf)⟩
  · exact h

theorem kept_execRasPop {s0 s : State} (path : Nat) (value : Word) (_cycle : Nat) (hkept : Kept s0 s) :
    KeptO s0 (execRasPop path value _cycle s) := by
  unfold execRasPop
  try dsimp only
  repeat' with_reducible first
    | assumption | apply kept_plainWrite | apply kept_effRasCtrl | intro _ | refine KeptO.next ?_ | dsimp only

theorem kept_effPgCommit {s0 s : State} (v : Word) (hkept : Kept s0 s) :
    Kept s0 (effPgCommit v s).1 := by
  unfold effPgCommit
  try dsimp only
  repeat' with_reducible first
    | assumption | apply kept_setFld | apply kept_setEvt | refine Kept.fst (by assumption) ?_ | intro _
    | refine Kept.ite ?_ ?_ | refine Kept.ite1 ?_ ?_ | (simp only [Kept.lit]; refine Kept.toF ?_) | dsimp only | split

theorem kept_execPgCommit {s0 s : State} (path : Nat) (value : Word) (cycle : Nat) (hkept : Kept s0 s) :
    KeptO s0 (execPgCommit path value cycle s) := by
  unfold execPgCommit
  try dsimp only
  repeat' with_reducible first
    | assumption | apply kept_guardPair | apply kept_effPgCommit | intro _ | refine KeptO.next ?_ | dsimp only

theorem kept_execPgDiscard {s0 s : State} (path : Nat) (value : Word) (cycle : Nat) (hkept : Kept s0 s) :
    KeptO s0 (execPgDiscard path value cycle s) := by
  unfold execPgDiscard
  try dsimp only
  repeat' with_reducible first
    | assumption | apply kept_guardPair | apply kept_effPgCommit | intro _ | refine KeptO.next ?_ | dsimp only

theorem kept_storeBuilt {s0 s : State} (e : BitVec 256) (d : Nat) (j : Nat) (src : List (Nat × List Byte)) (bad : List (Nat × Nat)) (hkept : Kept s0 s) :
    Kept s0 (State.storeBuilt s e d j src bad) := by
  unfold State.storeBuilt
  try dsimp only
  repeat' with_reducible first
    | assumption | apply kept_poisonLine | apply kept_unpoison | apply kept_applyWrite | intro _
    | refine Kept.ite ?_ ?_ | refine Kept.ite1 ?_ ?_ | dsimp only | split

theorem kept_buildNext {s0 s : State} (ext : Nat) (e : BitVec 256) (src : List (Nat × List Byte)) (bad : List (Nat × Nat)) (hkept : Kept s0 s) :
    Kept s0 (State.buildNext s ext e src bad) := by
  unfold State.buildNext
  try dsimp only
  repeat' with_reducible first
    | assumption | apply kept_queueFault | apply kept_postBuild | apply kept_storeBuilt | refine Kept.foldl ?_ ?_
    | refine Kept.foldl1 ?_ ?_ | intro _ | refine Kept.ite ?_ ?_ | refine Kept.ite1 ?_ ?_
    | (simp only [Kept.lit]; refine Kept.toF ?_) | dsimp only | split

theorem kept_rebuildListed {s0 s : State} (ext : Nat) (e : BitVec 256) (src : List (Nat × List Byte)) (bad : List (Nat × Nat)) (hkept : Kept s0 s) :
    Kept s0 (State.rebuildListed s ext e src bad) := by
  unfold State.rebuildListed
  try dsimp only
  repeat' with_reducible first
    | assumption | apply kept_storeBuilt | refine Kept.foldl ?_ ?_ | refine Kept.foldl1 ?_ ?_
    | refine Kept.fst (by assumption) ?_ | intro _ | (simp only [Kept.lit]; refine Kept.toF ?_) | dsimp only | split

theorem kept_execPgBuildBlock {s0 s : State} (ext : Nat) (src : List (Nat × List Byte)) (bad : List (Nat × Nat)) (hkept : Kept s0 s) :
    KeptO s0 (execPgBuildBlock ext src bad s) := by
  unfold execPgBuildBlock
  try dsimp only
  repeat' with_reducible first
    | assumption | apply kept_pump | apply kept_buildNext | apply kept_rebuildListed | intro _ | refine KeptO.next ?_
    | refine Kept.ite ?_ ?_ | refine Kept.ite1 ?_ ?_ | dsimp only | split

theorem kept_execStripeHoldLapse {s0 s : State} (line : Nat) (hkept : Kept s0 s) :
    KeptO s0 (execStripeHoldLapse line s) := by
  unfold execStripeHoldLapse
  try dsimp only
  repeat' with_reducible first
    | assumption | apply kept_freeHold | apply kept_pump | intro _ | refine KeptO.next ?_ | dsimp only

theorem kept_secured {s0 s : State} (m : Msg) (k : State → State) (hcb_k : ∀ x0, Kept s0 x0 → Kept s0 (k x0)) (hkept : Kept s0 s) :
    Kept s0 (State.secured s m k) := by
  unfold State.secured
  try dsimp only
  repeat' with_reducible first
    | assumption | apply kept_setRas | apply hcb_k | refine Kept.fst (by assumption) ?_ | intro _
    | refine Kept.ite ?_ ?_ | refine Kept.ite1 ?_ ?_ | (simp only [Kept.lit]; refine Kept.toF ?_) | dsimp only | split

theorem kept_order {s0 s : State} (m : Msg) (oseq : Nat) (refused : Option Nat) (k : State → State) (hcb_k : ∀ x0, Kept s0 x0 → Kept s0 (k x0)) (hkept : Kept s0 s) :
    Kept s0 (State.order s m oseq refused k) := by
  unfold State.order
  try dsimp only
  repeat' with_reducible first
    | assumption | apply kept_emit | apply kept_secured | apply hcb_k | intro _ | refine Kept.getD ?_ ?_
    | refine Kept.ite ?_ ?_ | refine Kept.ite1 ?_ ?_ | dsimp only | split

theorem kept_execRetire {s0 s : State} (m : Msg) (oseq : Nat) (arg : Nat) (hkept : Kept s0 s) :
    KeptO s0 (execRetire m oseq arg s) := by
  unfold execRetire
  try dsimp only
  repeat' with_reducible first
    | assumption | apply kept_dueLoc | apply kept_order | intro _ | refine KeptO.next ?_ | refine Kept.ite ?_ ?_
    | refine Kept.ite1 ?_ ?_ | dsimp only | split

theorem kept_execSwapOut {s0 s : State} (m : Msg) (oseq : Nat) (tick : Nat) (hkept : Kept s0 s) :
    KeptO s0 (execSwapOut m oseq tick s) := by
  unfold execSwapOut
  try dsimp only
  repeat' with_reducible first
    | assumption | apply kept_setRas | apply kept_order | intro _ | refine KeptO.next ?_ | refine Kept.ite ?_ ?_
    | refine Kept.ite1 ?_ ?_ | (simp only [Kept.lit]; refine Kept.toF ?_) | dsimp only | split

theorem kept_execSwapTake {s0 s : State} (m : Msg) (oseq : Nat) (device : Nat) (tick : Nat) (dead : Bool) (hkept : Kept s0 s) :
    KeptO s0 (execSwapTake m oseq device tick dead s) := by
  unfold execSwapTake
  try dsimp only
  repeat' with_reducible first
    | assumption | apply kept_setRas | apply kept_order | intro _ | refine KeptO.next ?_ | refine Kept.ite ?_ ?_
    | refine Kept.ite1 ?_ ?_ | (simp only [Kept.lit]; refine Kept.toF ?_) | dsimp only | split

theorem kept_execEpochAnnounce {s0 s : State} (m : Msg) (oseq : Nat) (device : Nat) (tick : Nat) (hkept : Kept s0 s) :
    KeptO s0 (execEpochAnnounce m oseq device tick s) := by
  unfold execEpochAnnounce
  try dsimp only
  repeat' with_reducible first
    | assumption | apply kept_announceEpoch | apply kept_setRas | apply kept_order | intro _ | refine KeptO.next ?_
    | refine Kept.ite ?_ ?_ | refine Kept.ite1 ?_ ?_ | (simp only [Kept.lit]; refine Kept.toF ?_) | dsimp only | split

theorem kept_execBuildPace {s0 s : State} (m : Msg) (oseq : Nat) (extent : Nat) (arg : Nat) (hkept : Kept s0 s) :
    KeptO s0 (execBuildPace m oseq extent arg s) := by
  unfold execBuildPace
  try dsimp only
  repeat' with_reducible first
    | assumption | apply kept_order | intro _ | refine KeptO.next ?_ | refine Kept.ite ?_ ?_ | refine Kept.ite1 ?_ ?_
    | (simp only [Kept.lit]; refine Kept.toF ?_) | dsimp only | split

theorem kept_execSuspectClear {s0 s : State} (m : Msg) (oseq : Nat) (hkept : Kept s0 s) :
    KeptO s0 (execSuspectClear m oseq s) := by
  unfold execSuspectClear
  try dsimp only
  repeat' with_reducible first
    | assumption | apply kept_queueFault | apply kept_setRas | apply kept_order | intro _ | refine KeptO.next ?_
    | refine Kept.ite ?_ ?_ | refine Kept.ite1 ?_ ?_ | (simp only [Kept.lit]; refine Kept.toF ?_) | dsimp only | split

theorem kept_setSlices {s0 s : State} (f : SliceState → SliceState) (hkept : Kept s0 s) :
    Kept s0 (State.setSlices s f) := by
  unfold State.setSlices
  try dsimp only
  repeat' with_reducible first
    | assumption | intro _ | (simp only [Kept.lit]; refine Kept.toF ?_) | dsimp only

theorem kept_sliceRefuse {s0 s : State} (n : Nat) (reason : Nat) (hkept : Kept s0 s) :
    Kept s0 (State.sliceRefuse s n reason) := by
  unfold State.sliceRefuse
  try dsimp only
  repeat' with_reducible first
    | assumption | apply kept_setWord | apply kept_setEvt | intro _ | dsimp only

theorem kept_effSliceCommit {s0 s : State} (ns : Nat) (v : Word) (hkept : Kept s0 s) :
    Kept s0 (effSliceCommit ns v s).1 := by
  unfold effSliceCommit
  try dsimp only
  repeat' with_reducible first
    | assumption | apply kept_setSlices | apply kept_sliceRefuse | refine Kept.fst (by assumption) ?_ | intro _
    | refine Kept.ite ?_ ?_ | refine Kept.ite1 ?_ ?_ | (simp only [Kept.lit]; refine Kept.toF ?_) | dsimp only | split

theorem kept_execSliceCommit {s0 s : State} (path : Nat) (value : Word) (cycle : Nat) (hkept : Kept s0 s) :
    KeptO s0 (execSliceCommit path value cycle s) := by
  unfold execSliceCommit
  try dsimp only
  repeat' with_reducible first
    | assumption | apply kept_guardPair | apply kept_effSliceCommit | intro _ | refine KeptO.next ?_ | dsimp only

theorem kept_execSliceDiscard {s0 s : State} (path : Nat) (value : Word) (cycle : Nat) (hkept : Kept s0 s) :
    KeptO s0 (execSliceDiscard path value cycle s) := by
  unfold execSliceDiscard
  try dsimp only
  repeat' with_reducible first
    | assumption | apply kept_guardPair | apply kept_effSliceCommit | intro _ | refine KeptO.next ?_ | dsimp only

theorem kept_meterSlice {s0 s : State} (ticks : Nat) (n : Nat) (d : BitVec 2048) (hkept : Kept s0 s) :
    Kept s0 (State.meterSlice s ticks n d) := by
  unfold State.meterSlice
  try dsimp only
  repeat' with_reducible first
    | assumption | apply kept_setSlices | refine Kept.foldl ?_ ?_ | refine Kept.foldl1 ?_ ?_ | intro _
    | (simp only [Kept.lit]; refine Kept.toF ?_) | dsimp only

theorem kept_meter {s0 s : State} (ticks : Nat) (hkept : Kept s0 s) :
    Kept s0 (State.meter s ticks) := by
  unfold State.meter
  try dsimp only
  repeat' with_reducible first
    | assumption | apply kept_setSlices | apply kept_meterSlice | refine Kept.foldl ?_ ?_ | refine Kept.foldl1 ?_ ?_
    | intro _ | refine Kept.ite ?_ ?_ | refine Kept.ite1 ?_ ?_ | (simp only [Kept.lit]; refine Kept.toF ?_)
    | dsimp only | split

theorem kept_meterStart {s0 s : State} (hkept : Kept s0 s) :
    Kept s0 (State.meterStart s) := by
  unfold State.meterStart
  try dsimp only
  repeat' with_reducible first
    | assumption | apply kept_setSlices | intro _ | refine Kept.ite ?_ ?_ | refine Kept.ite1 ?_ ?_
    | (simp only [Kept.lit]; refine Kept.toF ?_) | dsimp only | split

theorem kept_applySlice {s0 s : State} (n : Nat) (d : BitVec 2048) (hkept : Kept s0 s) :
    Kept s0 (State.applySlice s n d) := by
  unfold State.applySlice
  try dsimp only
  repeat' with_reducible first
    | assumption | apply kept_setEvt | apply kept_setSlices | apply kept_sliceRefuse
    | refine Kept.fst (by assumption) ?_ | intro _ | refine Kept.ite ?_ ?_ | refine Kept.ite1 ?_ ?_
    | (simp only [Kept.lit]; refine Kept.toF ?_) | dsimp only | split

theorem kept_slicesStep {s0 s : State} (ns : Nat) (hkept : Kept s0 s) :
    Kept s0 (State.slicesStep s ns).1 := by
  unfold State.slicesStep
  try dsimp only
  repeat' with_reducible first
    | assumption | apply kept_applySlice | refine Kept.foldl ?_ ?_ | refine Kept.foldl1 ?_ ?_ | intro _ | dsimp only

theorem kept_sendMeters {s0 s : State} (old : Nat) (t : Nat) (applied : Bool) (hkept : Kept s0 s) :
    Kept s0 (State.sendMeters s old t applied) := by
  unfold State.sendMeters
  try dsimp only
  repeat' with_reducible first
    | assumption | apply kept_mgmt | apply kept_setSlices | refine Kept.foldl ?_ ?_ | refine Kept.foldl1 ?_ ?_
    | intro _ | refine Kept.ite ?_ ?_ | refine Kept.ite1 ?_ ?_ | (simp only [Kept.lit]; refine Kept.toF ?_)
    | dsimp only | split

end Sys2Proof.Machine
end

