-- ==== Sys2Proof/Laws/KeptCommands.lean ====
section
/-! SUPPORT. What plans, bounce frames, arrival, the boundary, register access, boot and packets keep: the canonical form of the memory, the queue, and the bound
of the fault records. -/

namespace Sys2Proof.Machine

set_option Elab.async false

theorem kept_takePlan {s0 s : State} (l : List Byte) (len : Nat) (n : Nat) (start : Nat) (hkept : Kept s0 s) :
    Kept s0 (State.takePlan s l len n start).1 := by
  unfold State.takePlan
  try dsimp only
  repeat' with_reducible first
    | assumption | apply kept_setPlans | intro _ | (simp only [Kept.lit]; refine Kept.toF ?_) | dsimp only

theorem kept_execPlanLoad {s0 s : State} (tok : Nat) (ext : List Byte) (hkept : Kept s0 s) :
    KeptO s0 (execPlanLoad tok ext s) := by
  unfold execPlanLoad
  try dsimp only
  repeat' with_reducible first
    | assumption | apply kept_runMem | apply kept_readSegs | apply kept_takePlan | refine Kept.fst (by assumption) ?_
    | intro _ | refine KeptO.next ?_ | refine Kept.ite ?_ ?_ | refine Kept.ite1 ?_ ?_
    | (simp only [Kept.lit]; refine Kept.toF ?_) | dsimp only | split

theorem kept_execPlanUnload {s0 s : State} (tok : Nat) (hkept : Kept s0 s) :
    KeptO s0 (execPlanUnload tok s) := by
  unfold execPlanUnload
  try dsimp only
  repeat' with_reducible first
    | assumption | apply kept_runDesc | apply kept_setPlans | refine Kept.fst (by assumption) ?_ | intro _
    | refine KeptO.next ?_ | (simp only [Kept.lit]; refine Kept.toF ?_) | dsimp only | split

theorem kept_edgeTaken {s0 s : State} (ns : Nat) (hkept : Kept s0 s) :
    Kept s0 (State.edgeTaken s ns) := by
  unfold State.edgeTaken
  try dsimp only
  repeat' with_reducible first
    | assumption | intro _ | (simp only [Kept.lit]; refine Kept.toF ?_) | dsimp only

theorem kept_execTickInEdge {s0 s : State} (ns : Nat) (highNs : Nat) (hkept : Kept s0 s) :
    KeptO s0 (execTickInEdge ns highNs s) := by
  unfold execTickInEdge
  try dsimp only
  repeat' with_reducible first
    | assumption | apply kept_enterLocking | apply kept_enterLocked | apply kept_edgeTaken
    | refine Kept.fst (by assumption) ?_ | intro _ | refine KeptO.next ?_ | refine Kept.ite ?_ ?_
    | refine Kept.ite1 ?_ ?_ | (simp only [Kept.lit]; refine Kept.toF ?_) | dsimp only | split

theorem kept_execTickInEdgeMissing {s0 s : State} (ns : Nat) (hkept : Kept s0 s) :
    KeptO s0 (execTickInEdgeMissing ns s) := by
  unfold execTickInEdgeMissing
  try dsimp only
  repeat' with_reducible first
    | assumption | apply kept_enterHoldover | apply kept_edgeTaken | refine Kept.fst (by assumption) ?_ | intro _
    | refine KeptO.next ?_ | refine Kept.ite ?_ ?_ | refine Kept.ite1 ?_ ?_
    | (simp only [Kept.lit]; refine Kept.toF ?_) | dsimp only | split

theorem kept_takeFrames {s0 s : State} (tok port : Nat) (d : Desc) (i : Nat) (ts : List (List (List Seg)))
    (fs : List (List Byte)) (h : Kept s0 s) : Kept s0 (s.takeFrames tok port d i ts fs).1 := by
  induction ts generalizing s i fs with
  | nil => exact h
  | cons t ts ih =>
    cases fs with
    | nil => exact h
    | cons f fs =>
      unfold State.takeFrames
      split
      · exact h
      · exact ih _ _ (kept_setSec _ (kept_writeSegs _ _ _ _ _ h))

theorem kept_execBounceIn {s0 s : State} (tok : Nat) (ext : List Byte) (hkept : Kept s0 s) :
    KeptO s0 (execBounceIn tok ext s) := by
  unfold execBounceIn
  try dsimp only
  repeat' with_reducible first
    | assumption | apply kept_runTiles | apply kept_takeFrames | refine Kept.foldl ?_ ?_ | refine Kept.foldl1 ?_ ?_
    | refine Kept.fst (by assumption) ?_ | intro _ | refine KeptO.next ?_ | refine Kept.getD ?_ ?_
    | refine Kept.ite ?_ ?_ | refine Kept.ite1 ?_ ?_ | (simp only [Kept.lit]; refine Kept.toF ?_) | dsimp only | split

theorem kept_giveFrames {s0 s : State} (port first : Nat) (key : List Byte) (d : Desc) (i : Nat)
    (ts : List (List (List Seg))) (h : Kept s0 s) : Kept s0 (s.giveFrames port first key d i ts).1 := by
  induction ts generalizing s i with
  | nil => exact h
  | cons t ts ih =>
    have h1 := kept_readSegs d (t.headD []) [] h
    unfold State.giveFrames
    split <;> rename_i e <;> rw [e] at h1
    · exact h1
    · exact ih _ (kept_notePosted _ _ (kept_emit _ h1))

theorem kept_execBounceOut {s0 s : State} (tok : Nat) (hkept : Kept s0 s) :
    KeptO s0 (execBounceOut tok s) := by
  unfold execBounceOut
  try dsimp only
  repeat' with_reducible first
    | assumption | apply kept_runTiles | apply kept_setSec | apply kept_giveFrames | refine Kept.fst (by assumption) ?_
    | intro _ | refine KeptO.next ?_ | refine Kept.getD ?_ ?_ | refine Kept.ite ?_ ?_ | refine Kept.ite1 ?_ ?_
    | (simp only [Kept.lit]; refine Kept.toF ?_) | dsimp only | split

theorem kept_arrive {s0 s : State} (src : Src) (bits : DescBits) (hkept : Kept s0 s) :
    Kept s0 (State.arrive s src bits) := by
  unfold State.arrive
  try dsimp only
  repeat' with_reducible first
    | assumption | apply kept_setDesc | apply kept_stats | refine Kept.fst (by assumption) ?_ | intro _
    | refine Kept.ite ?_ ?_ | refine Kept.ite1 ?_ ?_ | (simp only [Kept.lit]; refine Kept.toF ?_) | dsimp only | split

theorem kept_execDescriptorFetchDone {s0 s : State} (pair : Nat) (ok : Bool) (bits : DescBits) (hkept : Kept s0 s) :
    KeptO s0 (execDescriptorFetchDone pair ok bits s) := by
  unfold execDescriptorFetchDone
  try dsimp only
  repeat' with_reducible first
    | assumption | apply kept_setRing | apply kept_ringError | apply kept_arrive | intro _ | refine KeptO.next ?_
    | refine Kept.ite ?_ ?_ | refine Kept.ite1 ?_ ?_ | (simp only [Kept.lit]; refine Kept.toF ?_) | dsimp only | split

theorem kept_takeSubq {s0 s : State} (n : Nat) (hkept : Kept s0 s) :
    Kept s0 (State.takeSubq s n) := by
  unfold State.takeSubq
  try dsimp only
  repeat' with_reducible first
    | assumption | apply kept_setSubq | apply kept_arrive | refine Kept.foldl ?_ ?_ | refine Kept.foldl1 ?_ ?_
    | refine Kept.fst (by assumption) ?_ | intro _ | refine Kept.ite ?_ ?_ | refine Kept.ite1 ?_ ?_
    | (simp only [Kept.lit]; refine Kept.toF ?_) | dsimp only | split

theorem kept_takeSubqs {s0 s : State} (hkept : Kept s0 s) :
    Kept s0 (State.takeSubqs s) := by
  unfold State.takeSubqs
  try dsimp only
  repeat' with_reducible first
    | assumption | apply kept_takeSubq | refine Kept.foldl ?_ ?_ | refine Kept.foldl1 ?_ ?_ | intro _ | dsimp only

theorem kept_abortAfter {s0 s : State} (tok : Nat) (target : Nat) (hkept : Kept s0 s) :
    Kept s0 (State.abortAfter s tok target) := by
  unfold State.abortAfter
  try dsimp only
  repeat' with_reducible first
    | assumption | apply kept_setDesc | refine Kept.fst (by assumption) ?_ | intro _
    | (simp only [Kept.lit]; refine Kept.toF ?_) | dsimp only | split

theorem kept_execAbort {s0 s : State} (tok : Nat) (hkept : Kept s0 s) :
    KeptO s0 (execAbort tok s) := by
  unfold execAbort
  try dsimp only
  repeat' with_reducible first
    | assumption | apply kept_runDesc | apply kept_stopWork | apply kept_abortAfter
    | refine Kept.fst (by assumption) ?_ | intro _ | refine KeptO.next ?_ | refine Kept.ite ?_ ?_
    | refine Kept.ite1 ?_ ?_ | (simp only [Kept.lit]; refine Kept.toF ?_) | dsimp only | split

theorem kept_drainRound {s0 s : State} (t : Nat) (hkept : Kept s0 s) :
    Kept s0 (State.drainRound s t) := by
  unfold State.drainRound
  try dsimp only
  repeat' with_reducible first
    | assumption | apply kept_turnAway | refine Kept.foldl ?_ ?_ | refine Kept.foldl1 ?_ ?_ | intro _ | dsimp only

theorem kept_refuseFaulted {s0 s : State} (t : Nat) (hkept : Kept s0 s) :
    Kept s0 (State.refuseFaulted s t) := by
  unfold State.refuseFaulted
  try dsimp only
  repeat' with_reducible first
    | assumption | apply kept_setDesc | apply kept_turnAway | apply kept_xlFault | refine Kept.foldl ?_ ?_
    | refine Kept.foldl1 ?_ ?_ | refine Kept.fst (by assumption) ?_ | intro _ | refine Kept.ite ?_ ?_
    | refine Kept.ite1 ?_ ?_ | (simp only [Kept.lit]; refine Kept.toF ?_) | dsimp only | split

theorem kept_refuseRuns {s0 s : State} (t : Nat) (hkept : Kept s0 s) :
    Kept s0 (State.refuseRuns s t) := by
  unfold State.refuseRuns
  try dsimp only
  repeat' with_reducible first
    | assumption | apply kept_turnAway | refine Kept.foldl ?_ ?_ | refine Kept.foldl1 ?_ ?_
    | refine Kept.fst (by assumption) ?_ | intro _ | refine Kept.ite ?_ ?_ | refine Kept.ite1 ?_ ?_
    | (simp only [Kept.lit]; refine Kept.toF ?_) | dsimp only | split

theorem kept_unadmit {s0 s : State} (tok : Nat) (status : Nat) (reason : Nat) (t : Nat) (hkept : Kept s0 s) :
    Kept s0 (State.unadmit s tok status reason t) := by
  unfold State.unadmit
  try dsimp only
  repeat' with_reducible first
    | assumption | apply kept_setDesc | apply kept_stats | apply kept_turnAway | refine Kept.fst (by assumption) ?_
    | intro _ | refine Kept.ite ?_ ?_ | refine Kept.ite1 ?_ ?_ | (simp only [Kept.lit]; refine Kept.toF ?_)
    | dsimp only | split

theorem kept_onAdmit {s0 s : State} (t : Nat) (e : Nat × Desc) (hkept : Kept s0 s) :
    Kept s0 (State.onAdmit s t e) := by
  unfold State.onAdmit
  try dsimp only
  repeat' with_reducible first
    | assumption | apply kept_admitDestroy | apply kept_admitUnload | apply kept_admitTblUnload
    | apply kept_admitUpdStop | apply kept_admitEmb | apply kept_admitIdxUnload | apply kept_admitQDestroy
    | apply kept_unadmit | refine Kept.foldl ?_ ?_ | refine Kept.foldl1 ?_ ?_ | refine Kept.fst (by assumption) ?_
    | intro _ | refine Kept.ite ?_ ?_ | refine Kept.ite1 ?_ ?_ | (simp only [Kept.lit]; refine Kept.toF ?_)
    | dsimp only | split

theorem kept_fenceRound {s0 s : State} (hkept : Kept s0 s) :
    Kept s0 (State.fenceRound s) := by
  unfold State.fenceRound
  try dsimp only
  repeat' with_reducible first
    | assumption | intro _ | refine Kept.ite ?_ ?_ | refine Kept.ite1 ?_ ?_
    | (simp only [Kept.lit]; refine Kept.toF ?_) | dsimp only | split

theorem kept_closeRound {s0 s : State} (t : Nat) (maint : Cost) (hkept : Kept s0 s) :
    Kept s0 (State.closeRound s t maint) := by
  unfold State.closeRound
  try dsimp only
  repeat' with_reducible first
    | assumption | apply kept_testWaits | apply kept_refuseUnplanned | apply kept_runRound | apply kept_idleRound
    | apply kept_drainRound | apply kept_refuseFaulted | apply kept_refuseRuns | apply kept_onAdmit
    | apply kept_fenceRound | refine Kept.foldl ?_ ?_ | refine Kept.foldl1 ?_ ?_ | refine Kept.foldlR ?_ ?_
    | refine Kept.foldlR1 ?_ ?_ | refine Kept.fstR (by assumption) ?_ | intro _ | refine Kept.ite ?_ ?_
    | refine Kept.ite1 ?_ ?_ | (simp only [Kept.lit]; refine Kept.toF ?_) | dsimp only | split

theorem kept_execAdmissionRound {s0 s : State} (maint : Cost) (hkept : Kept s0 s) :
    KeptO s0 (execAdmissionRound maint s) := by
  unfold execAdmissionRound
  try dsimp only
  repeat' with_reducible first
    | assumption | apply kept_closeRound | refine Kept.foldlR ?_ ?_ | refine Kept.foldlR1 ?_ ?_
    | refine Kept.fstR (by assumption) ?_ | intro _ | refine KeptO.next ?_ | refine Kept.ite ?_ ?_
    | refine Kept.ite1 ?_ ?_ | dsimp only | split

theorem kept_markOverruns {s0 s : State} (hkept : Kept s0 s) :
    Kept s0 (State.markOverruns s) := by
  unfold State.markOverruns
  try dsimp only
  repeat' with_reducible first
    | assumption | apply kept_setEvt | apply kept_setDesc | apply kept_stats | refine Kept.foldl ?_ ?_
    | refine Kept.foldl1 ?_ ?_ | intro _ | (simp only [Kept.lit]; refine Kept.toF ?_) | dsimp only

theorem kept_stopOverruns {s0 s : State} (old : Nat) (t : Nat) (hkept : Kept s0 s) :
    Kept s0 (State.stopOverruns s old t) := by
  unfold State.stopOverruns
  try dsimp only
  repeat' with_reducible first
    | assumption | apply kept_event | apply kept_stopWork | apply kept_setRas | refine Kept.foldl ?_ ?_
    | refine Kept.foldl1 ?_ ?_ | intro _ | (simp only [Kept.lit]; refine Kept.toF ?_) | dsimp only

theorem kept_periodStep {s0 s : State} (t : Nat) (hkept : Kept s0 s) :
    Kept s0 (State.periodStep s t) := by
  unfold State.periodStep
  try dsimp only
  repeat' with_reducible first
    | assumption | apply kept_setFld | apply kept_setEvt | apply kept_endActivePlans
    | refine Kept.fst (by assumption) ?_ | intro _ | refine Kept.ite ?_ ?_ | refine Kept.ite1 ?_ ?_
    | (simp only [Kept.lit]; refine Kept.toF ?_) | dsimp only | split

theorem kept_syncStep {s0 s : State} (took : Bool) (hkept : Kept s0 s) :
    Kept s0 (State.syncStep s took) := by
  unfold State.syncStep
  try dsimp only
  repeat' with_reducible first
    | assumption | apply kept_enterLocked | refine Kept.fst (by assumption) ?_ | intro _ | refine Kept.ite ?_ ?_
    | refine Kept.ite1 ?_ ?_ | (simp only [Kept.lit]; refine Kept.toF ?_) | dsimp only | split

theorem kept_holdTick {s0 s : State} (hkept : Kept s0 s) :
    Kept s0 (State.holdTick s) := by
  unfold State.holdTick
  try dsimp only
  repeat' with_reducible first
    | assumption | intro _ | (simp only [Kept.lit]; refine Kept.toF ?_) | dsimp only

theorem kept_advance {s0 s : State} (t : Nat) (env : BoundaryEnv) (hkept : Kept s0 s) :
    Kept s0 (State.advance s t env) := by
  unfold State.advance
  try dsimp only
  repeat' with_reducible first
    | assumption | apply kept_emitAll | intro _ | refine Kept.ite ?_ ?_ | refine Kept.ite1 ?_ ?_
    | (simp only [Kept.lit]; refine Kept.toF ?_) | dsimp only | split

theorem kept_masterPacket {s0 s : State} (t : Nat) (env : BoundaryEnv) (hkept : Kept s0 s) :
    Kept s0 (State.masterPacket s t env) := by
  unfold State.masterPacket
  try dsimp only
  repeat' with_reducible first
    | assumption | apply kept_floodTick | apply kept_setRas | intro _ | refine Kept.ite ?_ ?_ | refine Kept.ite1 ?_ ?_
    | (simp only [Kept.lit]; refine Kept.toF ?_) | dsimp only | split

theorem kept_plansStep {s0 s : State} (t : Nat) (hkept : Kept s0 s) :
    Kept s0 (State.plansStep s t) := by
  unfold State.plansStep
  try dsimp only
  repeat' with_reducible first
    | assumption | apply kept_setEvt | apply kept_setPlans | refine Kept.foldl ?_ ?_ | refine Kept.foldl1 ?_ ?_
    | refine Kept.fst (by assumption) ?_ | intro _ | refine Kept.ite ?_ ?_ | refine Kept.ite1 ?_ ?_
    | (simp only [Kept.lit]; refine Kept.toF ?_) | dsimp only | split

theorem kept_lullStep {s0 s : State} (hkept : Kept s0 s) :
    Kept s0 (State.lullStep s) := by
  unfold State.lullStep
  try dsimp only
  repeat' with_reducible first
    | assumption | apply kept_setWord | refine Kept.fst (by assumption) ?_ | intro _
    | (simp only [Kept.lit]; refine Kept.toF ?_) | dsimp only | split

theorem kept_modeStep {s0 s : State} (hkept : Kept s0 s) :
    Kept s0 (State.modeStep s) := by
  unfold State.modeStep
  try dsimp only
  repeat' with_reducible first
    | assumption | apply kept_setWord | refine Kept.fst (by assumption) ?_ | intro _ | refine Kept.ite ?_ ?_
    | refine Kept.ite1 ?_ ?_ | (simp only [Kept.lit]; refine Kept.toF ?_) | dsimp only | split

theorem kept_windowsDue {s0 s : State} (ns : Nat) (hkept : Kept s0 s) :
    Kept s0 (State.windowsDue s ns) := by
  unfold State.windowsDue
  try dsimp only
  repeat' with_reducible first
    | assumption | apply kept_applyWindows | refine Kept.fst (by assumption) ?_ | intro _ | refine Kept.ite ?_ ?_
    | refine Kept.ite1 ?_ ?_ | (simp only [Kept.lit]; refine Kept.toF ?_) | dsimp only | split

theorem kept_postSummaries {s0 s : State} (hkept : Kept s0 s) :
    Kept s0 (State.postSummaries s) := by
  unfold State.postSummaries
  try dsimp only
  repeat' with_reducible first
    | assumption | apply kept_postAssist | refine Kept.foldl ?_ ?_ | refine Kept.foldl1 ?_ ?_
    | refine Kept.fst (by assumption) ?_ | intro _ | refine Kept.ite ?_ ?_ | refine Kept.ite1 ?_ ?_
    | (simp only [Kept.lit]; refine Kept.toF ?_) | dsimp only | split

theorem kept_startWork {s0 s : State} (t : Nat) (hkept : Kept s0 s) :
    Kept s0 (State.startWork s t) := by
  unfold State.startWork
  try dsimp only
  repeat' with_reducible first
    | assumption | apply kept_setDesc | apply kept_embStart | refine Kept.foldl ?_ ?_ | refine Kept.foldl1 ?_ ?_
    | intro _ | (simp only [Kept.lit]; refine Kept.toF ?_) | dsimp only

theorem kept_epochStep {s0 s : State} (t : Nat) (hkept : Kept s0 s) :
    Kept s0 (State.epochStep s t) := by
  unfold State.epochStep
  try dsimp only
  repeat' with_reducible first
    | assumption | apply kept_advanceEpoch | refine Kept.foldl ?_ ?_ | refine Kept.foldl1 ?_ ?_
    | refine Kept.fst (by assumption) ?_ | intro _ | (simp only [Kept.lit]; refine Kept.toF ?_) | dsimp only | split

theorem kept_lullWork {s0 s : State} (t : Nat) (hkept : Kept s0 s) :
    Kept s0 (State.lullWork s t) := by
  unfold State.lullWork
  try dsimp only
  repeat' with_reducible first
    | assumption | apply kept_tierSweep | apply kept_mergeStart | intro _ | refine Kept.ite ?_ ?_
    | refine Kept.ite1 ?_ ?_ | dsimp only | split

theorem kept_commitSteps {s0 s : State} (old : Nat) (t : Nat) (env : BoundaryEnv) (hkept : Kept s0 s) :
    Kept s0 (State.commitSteps s old t env) := by
  unfold State.commitSteps
  try dsimp only
  repeat' with_reducible first
    | assumption | apply kept_applyShared | apply kept_windowsStep | apply kept_versionsStep | apply kept_searchStep
    | apply kept_retireStep | apply kept_sparesStep | apply kept_pgStep | apply kept_swapStep | apply kept_epochStep
    | intro _ | dsimp only

theorem kept_settings {s0 s : State} (old : Nat) (t : Nat) (env : BoundaryEnv) (hkept : Kept s0 s) :
    Kept s0 (State.settings s old t env) := by
  unfold State.settings
  try dsimp only
  repeat' with_reducible first
    | assumption | apply kept_applyContexts | apply kept_codecBoundary | apply kept_kvBoundary | apply kept_policyStep
    | apply kept_powerControl | apply kept_islandStep | apply kept_splitStep | apply kept_meter | apply kept_slicesStep
    | apply kept_sendMeters | apply kept_plansStep | apply kept_lullStep | apply kept_modeStep | apply kept_windowsDue
    | refine Kept.fst (by assumption) ?_ | intro _ | refine Kept.ite ?_ ?_ | refine Kept.ite1 ?_ ?_ | dsimp only
    | split

theorem kept_beginTick {s0 s : State} (old : Nat) (t : Nat) (env : BoundaryEnv) (overran : Bool) (hkept : Kept s0 s) :
    Kept s0 (State.beginTick s old t env overran) := by
  unfold State.beginTick
  try dsimp only
  repeat' with_reducible first
    | assumption | apply kept_setTier | apply kept_windowsWork | apply kept_rcAge | apply kept_countLate
    | apply kept_suspectStep | apply kept_meterStart | apply kept_startWork | apply kept_lullWork | intro _
    | (simp only [Kept.lit]; refine Kept.toF ?_) | dsimp only

theorem kept_passBoundary {s0 s : State} (t : Nat) (env : BoundaryEnv) (hkept : Kept s0 s) :
    Kept s0 (State.passBoundary s t env) := by
  unfold State.passBoundary
  try dsimp only
  repeat' with_reducible first
    | assumption | apply kept_dropUnposted | apply kept_refuseUnsynced | apply kept_tierAssist | apply kept_rcAssist
    | apply kept_mergeAssist | apply kept_dueLoc | apply kept_markOverruns | apply kept_stopOverruns
    | apply kept_periodStep | apply kept_syncStep | apply kept_advance | apply kept_masterPacket
    | apply kept_postSummaries | apply kept_commitSteps | apply kept_settings | apply kept_beginTick
    | refine Kept.foldl ?_ ?_ | refine Kept.foldl1 ?_ ?_ | intro _ | refine Kept.ite ?_ ?_ | refine Kept.ite1 ?_ ?_
    | dsimp only | split

theorem kept_endWork {s0 s : State} (hkept : Kept s0 s) :
    Kept s0 (State.endWork s) := by
  unfold State.endWork
  try dsimp only
  repeat' with_reducible first
    | assumption | apply kept_draw | apply kept_stopWork | refine Kept.foldl ?_ ?_ | refine Kept.foldl1 ?_ ?_
    | refine Kept.fst (by assumption) ?_ | refine Kept.snd (by assumption) ?_ | intro _ | dsimp only | split

theorem kept_execTickBoundary {s0 s : State} (env : BoundaryEnv) (hkept : Kept s0 s) :
    KeptO s0 (execTickBoundary env s) := by
  unfold execTickBoundary
  try dsimp only
  repeat' with_reducible first
    | assumption | apply kept_holdTick | apply kept_passBoundary | apply kept_endWork
    | refine Kept.fst (by assumption) ?_ | intro _ | refine KeptO.next ?_ | refine Kept.ite ?_ ?_
    | refine Kept.ite1 ?_ ?_ | (simp only [Kept.lit]; refine Kept.toF ?_) | dsimp only | split

theorem kept_periodWhileStopped {s0 s : State} (hkept : Kept s0 s) :
    Kept s0 (State.periodWhileStopped s) := by
  unfold State.periodWhileStopped
  try dsimp only
  repeat' with_reducible first
    | assumption | apply kept_setFld | apply kept_setEvt | apply kept_dropPendingPlans | apply kept_endActivePlans
    | refine Kept.fst (by assumption) ?_ | intro _ | (simp only [Kept.lit]; refine Kept.toF ?_) | dsimp only | split

theorem kept_substitute {s0 s : State} (env : BoundaryEnv) (hkept : Kept s0 s) :
    Kept s0 (State.substitute s env) := by
  unfold State.substitute
  try dsimp only
  repeat' with_reducible first
    | assumption | apply kept_applyContexts | apply kept_boundaryRange | apply kept_policyStep | apply kept_applyCap
    | apply kept_islandStep | apply kept_splitStep | apply kept_retireStep | apply kept_sparesStep | apply kept_pgStep
    | apply kept_slicesStep | apply kept_sendMeters | apply kept_lullStep | apply kept_modeStep | apply kept_windowsDue
    | apply kept_periodWhileStopped | refine Kept.foldl ?_ ?_ | refine Kept.foldl1 ?_ ?_
    | refine Kept.fst (by assumption) ?_ | intro _ | dsimp only | split

theorem kept_execSubstituteBoundary {s0 s : State} (env : BoundaryEnv) (hkept : Kept s0 s) :
    KeptO s0 (execSubstituteBoundary env s) := by
  unfold execSubstituteBoundary
  try dsimp only
  repeat' with_reducible first
    | assumption | apply kept_substitute | intro _ | refine KeptO.next ?_ | refine Kept.ite ?_ ?_
    | refine Kept.ite1 ?_ ?_ | dsimp only | split

theorem kept_effRingCtrl {s0 s : State} (v : Word) (hkept : Kept s0 s) :
    Kept s0 (effRingCtrl v s).1 := by
  unfold effRingCtrl
  try dsimp only
  repeat' with_reducible first
    | assumption | apply kept_ringCtrl | intro _ | dsimp only

theorem kept_execRingEnable {s0 s : State} (path : Nat) (value : Word) (cycle : Nat) (hkept : Kept s0 s) :
    KeptO s0 (execRingEnable path value cycle s) := by
  unfold execRingEnable
  try dsimp only
  repeat' with_reducible first
    | assumption | apply kept_guardPair | apply kept_effRingCtrl | intro _ | refine KeptO.next ?_ | dsimp only

theorem kept_execRingDisable {s0 s : State} (path : Nat) (value : Word) (cycle : Nat) (hkept : Kept s0 s) :
    KeptO s0 (execRingDisable path value cycle s) := by
  unfold execRingDisable
  try dsimp only
  repeat' with_reducible first
    | assumption | apply kept_guardPair | apply kept_effRingCtrl | intro _ | refine KeptO.next ?_ | dsimp only

theorem kept_effChecked {s0 s : State} (off : Nat) (ok : Word → State → Bool) (v : Word) (hkept : Kept s0 s) :
    Kept s0 (effChecked off ok v s).1 := by
  unfold effChecked
  try dsimp only
  repeat' with_reducible first
    | assumption | apply kept_effStore | intro _ | refine Kept.ite ?_ ?_ | refine Kept.ite1 ?_ ?_ | dsimp only | split

theorem kept_effPortEvt {s0 s : State} (v : Word) (hkept : Kept s0 s) :
    Kept s0 (effPortEvt v s).1 := by
  unfold effPortEvt
  try dsimp only
  repeat' with_reducible first
    | assumption | apply kept_setPort | intro _ | (simp only [Kept.lit]; refine Kept.toF ?_) | dsimp only

theorem kept_effPlain {s0 s : State} (off : Nat) (cycle : Nat) (v : Word) (hkept : Kept s0 s) :
    Kept s0 (effPlain off cycle v s).1 := by
  unfold effPlain
  try dsimp only
  repeat' with_reducible first
    | assumption | apply kept_effTikLead | apply kept_effPortCtrl | apply kept_effVcCfg | apply kept_effIslandReq
    | apply kept_effRasCtrl | apply kept_effChecked | apply kept_effPortEvt | intro _ | refine Kept.ite ?_ ?_
    | refine Kept.ite1 ?_ ?_ | refine Kept.iteEff ?_ ?_ | dsimp only | split

theorem kept_effGuarded {s0 s : State} (off : Nat) (cycle : Nat) (v : Word) (hkept : Kept s0 s) :
    Kept s0 (effGuarded off cycle v s).1 := by
  unfold effGuarded
  try dsimp only
  repeat' with_reducible first
    | assumption | apply kept_effStore | apply kept_effTikCtrl | apply kept_effTikPeriod | apply kept_effTikLull
    | apply kept_effSubqCtrl | apply kept_effFnMode | apply kept_effOwnEntry | apply kept_effDevid
    | apply kept_effFabCtrl | apply kept_effWinCommit | apply kept_effCtxCommit | apply kept_effDomainReset
    | apply kept_effExtEntry | apply kept_effLayout | apply kept_effPortCfg | apply kept_effShrCommit
    | apply kept_effEmbPriv | apply kept_effPwrCap | apply kept_effPwrTherm | apply kept_effTirSplit
    | apply kept_effSlotCtrl | apply kept_effOtpCtrl | apply kept_effFnReset | apply kept_effPgCommit
    | apply kept_effSliceCommit | apply kept_effRingCtrl | intro _ | refine Kept.ite ?_ ?_ | refine Kept.ite1 ?_ ?_
    | refine Kept.iteEff ?_ ?_ | dsimp only | split

theorem kept_tryEffect {s0 s : State} (path : Nat) (off : Nat) (addr : Nat) (v : Word) (data : Word) (eff : RegEffect) (hcb_eff : ∀ x0 x1, Kept s0 x1 → Kept s0 (eff x0 x1).1) (hkept : Kept s0 s) :
    Kept s0 (State.tryEffect s path off addr v data eff).1 := by
  unfold State.tryEffect
  try dsimp only
  repeat' with_reducible first
    | assumption | apply kept_logReject | apply hcb_eff | refine Kept.fst (by assumption) ?_ | intro _
    | (simp only [Kept.lit]; refine Kept.toF ?_) | dsimp only | split

theorem kept_setMbx {s0 s : State} (m : Nat) (x : Mailbox) (hkept : Kept s0 s) :
    Kept s0 (State.setMbx s m x) := by
  unfold State.setMbx
  try dsimp only
  repeat' with_reducible first
    | assumption | intro _ | (simp only [Kept.lit]; refine Kept.toF ?_) | dsimp only

theorem kept_wideWrite {s0 s : State} (id : Nat) (w : Wide) (hkept : Kept s0 s) :
    Kept s0 (State.wideWrite s id w).1 := by
  unfold State.wideWrite
  try dsimp only
  repeat' with_reducible first
    | assumption | apply kept_setRing | apply kept_setSubq | apply kept_updateCounter | apply kept_setTickNow
    | apply kept_setSec | apply kept_setSlices | intro _ | refine Kept.ite ?_ ?_ | refine Kept.ite1 ?_ ?_
    | (simp only [Kept.lit]; refine Kept.toF ?_) | dsimp only | split

theorem kept_mbxDoWrite {s0 s : State} (path : Nat) (id : Nat) (w : Wide) (hkept : Kept s0 s) :
    Kept s0 (State.mbxDoWrite s path id w).1 := by
  unfold State.mbxDoWrite
  try dsimp only
  repeat' with_reducible first
    | assumption | apply kept_wideWrite | refine Kept.fst (by assumption) ?_ | intro _ | refine Kept.ite ?_ ?_
    | refine Kept.ite1 ?_ ?_ | (simp only [Kept.lit]; refine Kept.toF ?_) | dsimp only | split

theorem kept_mbxStart {s0 s : State} (path : Nat) (m : Nat) (v : Word) (hkept : Kept s0 s) :
    Kept s0 (State.mbxStart s path m v) := by
  unfold State.mbxStart
  try dsimp only
  repeat' with_reducible first
    | assumption | apply kept_setMbx | apply kept_mbxDoWrite | refine Kept.fst (by assumption) ?_ | intro _
    | refine Kept.ite ?_ ?_ | refine Kept.ite1 ?_ ?_ | (simp only [Kept.lit]; refine Kept.toF ?_) | dsimp only | split

theorem kept_mbxWrite {s0 s : State} (path : Nat) (m : Nat) (o : Nat) (addr : Nat) (v : Word) (data : Word) (hkept : Kept s0 s) :
    Kept s0 (State.mbxWrite s path m o addr v data).1 := by
  unfold State.mbxWrite
  try dsimp only
  repeat' with_reducible first
    | assumption | apply kept_logReject | apply kept_setMbx | apply kept_mbxStart | intro _ | refine Kept.ite ?_ ?_
    | refine Kept.ite1 ?_ ?_ | (simp only [Kept.lit]; refine Kept.toF ?_) | dsimp only | split

theorem kept_mbxRead {s0 s : State} (m : Nat) (o : Nat) (hkept : Kept s0 s) :
    Kept s0 (State.mbxRead s m o).2 := by
  unfold State.mbxRead
  try dsimp only
  repeat' with_reducible first
    | assumption | apply kept_setMbx | intro _ | refine Kept.ite ?_ ?_ | refine Kept.ite1 ?_ ?_
    | refine Kept.ite2 ?_ ?_ | (simp only [Kept.lit]; refine Kept.toF ?_) | dsimp only | split

theorem kept_execMailboxRead {s0 s : State} (path : Nat) (m : Nat) (value : Word) (hkept : Kept s0 s) :
    KeptO s0 (execMailboxRead path m value s) := by
  unfold execMailboxRead
  try dsimp only
  repeat' with_reducible first
    | assumption | apply kept_mbxWrite | intro _ | refine KeptO.next ?_ | refine Kept.ite ?_ ?_
    | refine Kept.ite1 ?_ ?_ | dsimp only | split

theorem kept_execMailboxWrite {s0 s : State} (path : Nat) (m : Nat) (value : Word) (hkept : Kept s0 s) :
    KeptO s0 (execMailboxWrite path m value s) := by
  unfold execMailboxWrite
  try dsimp only
  repeat' with_reducible first
    | assumption | apply kept_mbxWrite | intro _ | refine KeptO.next ?_ | refine Kept.ite ?_ ?_
    | refine Kept.ite1 ?_ ?_ | dsimp only | split

theorem kept_execMailboxOpDone {s0 s : State} (m : Nat) (hkept : Kept s0 s) :
    KeptO s0 (execMailboxOpDone m s) := by
  unfold execMailboxOpDone
  try dsimp only
  repeat' with_reducible first
    | assumption | apply kept_logReject | apply kept_setMbx | refine Kept.fst (by assumption) ?_ | intro _
    | refine KeptO.next ?_ | refine Kept.ite ?_ ?_ | refine Kept.ite1 ?_ ?_
    | (simp only [Kept.lit]; refine Kept.toF ?_) | dsimp only | split

theorem kept_execMbxDataRead {s0 s : State} (path : Nat) (m : Nat) (w : Nat) (hkept : Kept s0 s) :
    KeptO s0 (execMbxDataRead path m w s) := by
  unfold execMbxDataRead
  try dsimp only
  repeat' with_reducible first
    | assumption | apply kept_emit | apply kept_mbxRead | refine Kept.fst (by assumption) ?_
    | refine Kept.snd (by assumption) ?_ | intro _ | refine KeptO.next ?_ | refine Kept.ite ?_ ?_
    | refine Kept.ite1 ?_ ?_ | (simp only [Kept.lit]; refine Kept.toF ?_) | dsimp only | split

theorem kept_execTickNowWrite {s0 s : State} (path : Nat) (m : Nat) (hkept : Kept s0 s) :
    KeptO s0 (execTickNowWrite path m s) := by
  unfold execTickNowWrite
  try dsimp only
  repeat' with_reducible first
    | assumption | apply kept_mbxWrite | intro _ | refine KeptO.next ?_ | refine Kept.ite ?_ ?_
    | refine Kept.ite1 ?_ ?_ | dsimp only | split

theorem kept_execArrivalCounterWrite {s0 s : State} (path : Nat) (m : Nat) (hkept : Kept s0 s) :
    KeptO s0 (execArrivalCounterWrite path m s) := by
  unfold execArrivalCounterWrite
  try dsimp only
  repeat' with_reducible first
    | assumption | apply kept_mbxWrite | intro _ | refine KeptO.next ?_ | refine Kept.ite ?_ ?_
    | refine Kept.ite1 ?_ ?_ | dsimp only | split

theorem kept_setMsix {s0 s : State} (k : Nat) (e : Nat × Nat × Bool) (hkept : Kept s0 s) :
    Kept s0 (State.setMsix s k e) := by
  unfold State.setMsix
  try dsimp only
  repeat' with_reducible first
    | assumption | intro _ | (simp only [Kept.lit]; refine Kept.toF ?_) | dsimp only

theorem kept_msixWrite {s0 s : State} (p : Nat) (e : Nat) (w : Nat) (v : Word) (hkept : Kept s0 s) :
    Kept s0 (State.msixWrite s p e w v) := by
  unfold State.msixWrite
  try dsimp only
  repeat' with_reducible first
    | assumption | apply kept_sendMsix | apply kept_setMsix | refine Kept.fst (by assumption) ?_ | intro _
    | refine Kept.ite ?_ ?_ | refine Kept.ite1 ?_ ?_ | (simp only [Kept.lit]; refine Kept.toF ?_) | dsimp only | split

theorem kept_plainRead {s0 s : State} (path : Nat) (off : Nat) (hkept : Kept s0 s) :
    Kept s0 (State.plainRead s path off).2 := by
  unfold State.plainRead
  try dsimp only
  repeat' with_reducible first
    | assumption | apply kept_mbxRead | refine Kept.snd (by assumption) ?_ | intro _ | refine Kept.ite ?_ ?_
    | refine Kept.ite1 ?_ ?_ | refine Kept.ite2 ?_ ?_ | dsimp only | split

theorem kept_bitRead {s0 s : State} (path : Nat) (off : Nat) (k : Nat) (hkept : Kept s0 s) :
    Kept s0 (State.bitRead s path off k).2 := by
  unfold State.bitRead
  try dsimp only
  repeat' with_reducible first
    | assumption | apply kept_plainRead | refine Kept.fst (by assumption) ?_ | refine Kept.snd (by assumption) ?_
    | intro _ | (simp only [Kept.lit]; refine Kept.toF ?_) | dsimp only | split

theorem kept_readWord {s0 s : State} (path : Nat) (off : Nat) (hkept : Kept s0 s) :
    Kept s0 (State.readWord s path off).2 := by
  unfold State.readWord
  try dsimp only
  repeat' with_reducible first
    | assumption | apply kept_plainRead | apply kept_bitRead | refine Kept.snd (by assumption) ?_ | intro _
    | refine Kept.ite ?_ ?_ | refine Kept.ite1 ?_ ?_ | refine Kept.ite2 ?_ ?_ | dsimp only | split

theorem kept_bitWrite {s0 s : State} (path : Nat) (off : Nat) (k : Nat) (addr : Nat) (data : Word) (cycle : Nat) (hkept : Kept s0 s) :
    Kept s0 (State.bitWrite s path off k addr data cycle).1 := by
  unfold State.bitWrite
  try dsimp only
  repeat' with_reducible first
    | assumption | apply kept_logReject | apply kept_effPlain | apply kept_tryEffect | apply kept_mbxWrite
    | refine Kept.fst (by assumption) ?_ | intro _ | refine Kept.ite ?_ ?_ | refine Kept.ite1 ?_ ?_
    | (simp only [Kept.lit]; refine Kept.toF ?_) | dsimp only | split

theorem kept_aliasWrite {s0 s : State} (path : Nat) (addr : Nat) (data : Word) (cycle : Nat) (hkept : Kept s0 s) :
    Kept s0 (State.aliasWrite s path addr data cycle).1 := by
  unfold State.aliasWrite
  try dsimp only
  repeat' with_reducible first
    | assumption | apply kept_bitWrite | intro _ | dsimp only

theorem kept_completePair {s0 s : State} (path : Nat) (g : Guard) (v : Word) (cycle : Nat) (hkept : Kept s0 s) :
    Kept s0 (State.completePair s path g v cycle).1 := by
  unfold State.completePair
  try dsimp only
  repeat' with_reducible first
    | assumption | apply kept_logReject | apply kept_setGuard | apply kept_effGuarded | apply kept_tryEffect | intro _
    | refine Kept.ite ?_ ?_ | refine Kept.ite1 ?_ ?_ | dsimp only | split

theorem kept_wordWrite {s0 s : State} (path : Nat) (off : Nat) (v : Word) (cycle : Nat) (hkept : Kept s0 s) :
    Kept s0 (State.wordWrite s path off v cycle).1 := by
  unfold State.wordWrite
  try dsimp only
  repeat' with_reducible first
    | assumption | apply kept_logReject | apply kept_armGuard | apply kept_expireGuard | apply kept_effPlain
    | apply kept_tryEffect | apply kept_mbxWrite | apply kept_msixWrite | apply kept_aliasWrite
    | apply kept_completePair | refine Kept.fst (by assumption) ?_ | intro _ | refine Kept.ite ?_ ?_
    | refine Kept.ite1 ?_ ?_ | (simp only [Kept.lit]; refine Kept.toF ?_) | dsimp only | split

theorem kept_regWrite {s0 s : State} (path : Nat) (addr : Nat) (len : Nat) (data : Nat) (cycle : Nat) (hkept : Kept s0 s) :
    Kept s0 (State.regWrite s path addr len data cycle).1 := by
  unfold State.regWrite
  try dsimp only
  repeat' with_reducible first
    | assumption | apply kept_logReject | apply kept_expireGuard | apply kept_wordWrite
    | refine Kept.fst (by assumption) ?_ | intro _ | refine Kept.ite ?_ ?_ | refine Kept.ite1 ?_ ?_
    | (simp only [Kept.lit]; refine Kept.toF ?_) | dsimp only | split

theorem kept_execRegisterWrite {s0 s : State} (path : Nat) (addr : Nat) (len : Nat) (data : Nat) (cycle : Nat) (hkept : Kept s0 s) :
    KeptO s0 (execRegisterWrite path addr len data cycle s) := by
  unfold execRegisterWrite
  try dsimp only
  repeat' with_reducible first
    | assumption | apply kept_regWrite | intro _ | refine KeptO.next ?_ | dsimp only

theorem kept_execBitAliasWrite {s0 s : State} (path : Nat) (addr : Nat) (data : Word) (cycle : Nat) (hkept : Kept s0 s) :
    KeptO s0 (execBitAliasWrite path addr data cycle s) := by
  unfold execBitAliasWrite
  try dsimp only
  repeat' with_reducible first
    | assumption | apply kept_wordWrite | intro _ | refine KeptO.next ?_ | refine Kept.ite ?_ ?_
    | refine Kept.ite1 ?_ ?_ | dsimp only | split

theorem kept_execGuardArm {s0 s : State} (path : Nat) (off : Nat) (value : Word) (cycle : Nat) (hkept : Kept s0 s) :
    KeptO s0 (execGuardArm path off value cycle s) := by
  unfold execGuardArm
  try dsimp only
  repeat' with_reducible first
    | assumption | apply kept_wordWrite | intro _ | refine KeptO.next ?_ | refine Kept.ite ?_ ?_
    | refine Kept.ite1 ?_ ?_ | dsimp only | split

theorem kept_execGuardTimeout {s0 s : State} (path : Nat) (cycle : Nat) (hkept : Kept s0 s) :
    KeptO s0 (execGuardTimeout path cycle s) := by
  unfold execGuardTimeout
  try dsimp only
  repeat' with_reducible first
    | assumption | apply kept_expireGuard | intro _ | refine KeptO.next ?_ | dsimp only

theorem kept_setBoot {s0 s : State} (f : BootState → BootState) (hkept : Kept s0 s) :
    Kept s0 (State.setBoot s f) := by
  unfold State.setBoot
  try dsimp only
  repeat' with_reducible first
    | assumption | intro _ | (simp only [Kept.lit]; refine Kept.toF ?_) | dsimp only

theorem kept_heldLands {s0 s : State} (hkept : Kept s0 s) :
    Kept s0 (State.heldLands s) := by
  unfold State.heldLands
  try dsimp only
  repeat' with_reducible first
    | assumption | apply kept_emitAll | intro _ | dsimp only

theorem faultsOk_nil : faultsOk [] := ⟨Nat.zero_le _, fun e => by cases e⟩

theorem kept_coldState {s0 s : State} (h : Kept s0 s) : Kept s0 s.coldState := ⟨fun _ => rfl, h.2.1, fun _ => faultsOk_nil⟩

theorem kept_coldReset {s0 s : State} (hkept : Kept s0 s) :
    Kept s0 (State.coldReset s) := by
  unfold State.coldReset
  try dsimp only
  repeat' with_reducible first
    | assumption | apply kept_setBoot | apply kept_heldLands | apply kept_coldState | intro _
    | (simp only [Kept.lit]; refine Kept.toF ?_) | dsimp only

theorem kept_warmState {s0 s : State} (hkept : Kept s0 s) :
    Kept s0 (State.warmState s) := by
  unfold State.warmState
  try dsimp only
  repeat' with_reducible first
    | assumption | apply kept_stats | apply kept_catalogue | refine Kept.fst (by assumption) ?_ | intro _
    | (simp only [Kept.lit]; refine Kept.toF ?_) | dsimp only | split

theorem kept_walkDomain {s0 s : State} (h : Kept s0 s) : Kept s0 s.walkDomain := by
  have h1 := kept_execDomainWalkDone (kept_domainDown 0 0 h)
  unfold State.walkDomain
  split
  · exact h1 _ (by assumption)
  · exact h

theorem kept_warmSteps {s0 s : State} (hkept : Kept s0 s) :
    Kept s0 (State.warmSteps s) := by
  unfold State.warmSteps
  try dsimp only
  repeat' with_reducible first
    | assumption | apply kept_setEvt | apply kept_leaveFabric | apply kept_endZeroise | apply kept_heldLands
    | apply kept_warmState | apply kept_walkDomain | refine Kept.foldl ?_ ?_ | refine Kept.foldl1 ?_ ?_ | intro _
    | refine Kept.ite ?_ ?_ | refine Kept.ite1 ?_ ?_ | (simp only [Kept.lit]; refine Kept.toF ?_) | dsimp only | split

theorem kept_warmReset {s0 s : State} (hkept : Kept s0 s) :
    Kept s0 (State.warmReset s) := by
  unfold State.warmReset
  try dsimp only
  repeat' with_reducible first
    | assumption | apply kept_coldReset | apply kept_warmSteps | intro _ | refine Kept.ite ?_ ?_
    | refine Kept.ite1 ?_ ?_ | dsimp only | split

theorem kept_execCold {s0 s : State} (m : Msg) (hkept : Kept s0 s) :
    KeptO s0 (execCold m s) := by
  unfold execCold
  try dsimp only
  repeat' with_reducible first
    | assumption | apply kept_secured | apply kept_coldReset | intro _ | refine KeptO.next ?_ | dsimp only

theorem kept_execWarm {s0 s : State} (m : Msg) (hkept : Kept s0 s) :
    KeptO s0 (execWarm m s) := by
  unfold execWarm
  try dsimp only
  repeat' with_reducible first
    | assumption | apply kept_secured | apply kept_warmReset | intro _ | refine KeptO.next ?_ | dsimp only

theorem kept_execLemtusWatchdog {s0 s : State} (hkept : Kept s0 s) :
    KeptO s0 (execLemtusWatchdog s) := by
  unfold execLemtusWatchdog
  try dsimp only
  repeat' with_reducible first
    | assumption | apply kept_warmReset | intro _ | refine KeptO.next ?_ | dsimp only

theorem kept_bootStatus {s0 s : State} (hkept : Kept s0 s) :
    Kept s0 (State.bootStatus s) := by
  unfold State.bootStatus
  try dsimp only
  repeat' with_reducible first
    | assumption | apply kept_mgmt | intro _ | dsimp only

theorem kept_bootFail {s0 s : State} (code : Nat) (hkept : Kept s0 s) :
    Kept s0 (State.bootFail s code) := by
  unfold State.bootFail
  try dsimp only
  repeat' with_reducible first
    | assumption | apply kept_setFld | apply kept_setEvt | intro _ | (simp only [Kept.lit]; refine Kept.toF ?_)
    | dsimp only

theorem kept_nextStage {s0 s : State} (hkept : Kept s0 s) :
    Kept s0 (State.nextStage s) := by
  unfold State.nextStage
  try dsimp only
  repeat' with_reducible first
    | assumption | apply kept_setFld | apply kept_setEvt | apply kept_event | apply kept_setPort
    | apply kept_effTikCtrl | apply kept_movePort | apply kept_bootStatus | refine Kept.foldl ?_ ?_
    | refine Kept.foldl1 ?_ ?_ | intro _ | refine Kept.ite ?_ ?_ | refine Kept.ite1 ?_ ?_
    | (simp only [Kept.lit]; refine Kept.toF ?_) | dsimp only | split

theorem kept_stageRom {s0 s : State} (rep : StageReport) (hkept : Kept s0 s) :
    Kept s0 (State.stageRom s rep) := by
  unfold State.stageRom
  try dsimp only
  repeat' with_reducible first
    | assumption | apply kept_setBoot | apply kept_bootFail | apply kept_nextStage | intro _ | refine Kept.ite ?_ ?_
    | refine Kept.ite1 ?_ ?_ | (simp only [Kept.lit]; refine Kept.toF ?_) | dsimp only | split

theorem kept_startLemtus {s0 s : State} (n : Nat) (i : BootImage) (hkept : Kept s0 s) :
    Kept s0 (State.startLemtus s n i) := by
  unfold State.startLemtus
  try dsimp only
  repeat' with_reducible first
    | assumption | apply kept_setBoot | apply kept_nextStage | intro _ | (simp only [Kept.lit]; refine Kept.toF ?_)
    | dsimp only

theorem kept_stageFirmware {s0 s : State} (rep : StageReport) (hkept : Kept s0 s) :
    Kept s0 (State.stageFirmware s rep) := by
  unfold State.stageFirmware
  try dsimp only
  repeat' with_reducible first
    | assumption | apply kept_setBoot | apply kept_bootFail | apply kept_startLemtus
    | refine Kept.fst (by assumption) ?_ | intro _ | refine Kept.ite ?_ ?_ | refine Kept.ite1 ?_ ?_
    | (simp only [Kept.lit]; refine Kept.toF ?_) | dsimp only | split

theorem kept_stageOtp {s0 s : State} (rep : StageReport) (hkept : Kept s0 s) :
    Kept s0 (State.stageOtp s rep) := by
  unfold State.stageOtp
  try dsimp only
  repeat' with_reducible first
    | assumption | apply kept_setSec | apply kept_setBoot | apply kept_bootFail | apply kept_nextStage
    | refine Kept.fst (by assumption) ?_ | intro _ | refine Kept.ite ?_ ?_ | refine Kept.ite1 ?_ ?_
    | (simp only [Kept.lit]; refine Kept.toF ?_) | dsimp only | split

theorem kept_stageCores {s0 s : State} (rep : StageReport) (hkept : Kept s0 s) :
    Kept s0 (State.stageCores s rep) := by
  unfold State.stageCores
  try dsimp only
  repeat' with_reducible first
    | assumption | apply kept_queueFault | apply kept_setUnits | apply kept_bootFail | apply kept_nextStage
    | refine Kept.foldl ?_ ?_ | refine Kept.foldl1 ?_ ?_ | intro _ | refine Kept.ite ?_ ?_ | refine Kept.ite1 ?_ ?_
    | (simp only [Kept.lit]; refine Kept.toF ?_) | dsimp only | split

theorem kept_plainFree {s0 s : State} (hkept : Kept s0 s) :
    Kept s0 (State.plainFree s) := by
  unfold State.plainFree
  try dsimp only
  repeat' with_reducible first
    | assumption | apply kept_setMeta | refine Kept.foldl ?_ ?_ | refine Kept.foldl1 ?_ ?_ | intro _ | dsimp only

theorem Kept.foldFreshMem {s0 s : State} (h : Kept s0 s) : Kept s0 { s with mem := { lost := s.mem.lost } } := ⟨fun _ => rfl, h.2⟩

theorem kept_stageStacks {s0 s : State} (rep : StageReport) (h : Kept s0 s) : Kept s0 (s.stageStacks rep) := by
  unfold State.stageStacks
  try dsimp only
  repeat' with_reducible first
    | assumption | apply kept_event | apply kept_setStk | apply kept_setDchan | apply kept_retireChannel
    | apply kept_activateSlot | apply kept_setBoot | apply kept_bootFail | apply kept_nextStage | apply kept_plainFree
    | (with_reducible refine Kept.foldFreshMem ?_) | refine Kept.foldl ?_ ?_ | refine Kept.foldl1 ?_ ?_ | intro _
    | refine Kept.ite ?_ ?_ | refine Kept.ite1 ?_ ?_ | (simp only [Kept.lit]; refine Kept.toF ?_) | dsimp only | split

theorem kept_stageFlash {s0 s : State} (rep : StageReport) (hkept : Kept s0 s) :
    Kept s0 (State.stageFlash s rep) := by
  unfold State.stageFlash
  try dsimp only
  repeat' with_reducible first
    | assumption | apply kept_event | apply kept_setSrh | apply kept_setChan | apply kept_nextStage
    | refine Kept.foldl ?_ ?_ | refine Kept.foldl1 ?_ ?_ | refine Kept.fst (by assumption) ?_ | intro _
    | refine Kept.ite ?_ ?_ | refine Kept.ite1 ?_ ?_ | (simp only [Kept.lit]; refine Kept.toF ?_) | dsimp only | split

theorem kept_stageLinks {s0 s : State} (rep : StageReport) (hkept : Kept s0 s) :
    Kept s0 (State.stageLinks s rep) := by
  unfold State.stageLinks
  try dsimp only
  repeat' with_reducible first
    | assumption | apply kept_setFld | apply kept_setEvt | apply kept_event | apply kept_setHport
    | apply kept_nextStage | refine Kept.foldl ?_ ?_ | refine Kept.foldl1 ?_ ?_ | refine Kept.fst (by assumption) ?_
    | intro _ | refine Kept.getD ?_ ?_ | refine Kept.ite ?_ ?_ | refine Kept.ite1 ?_ ?_
    | (simp only [Kept.lit]; refine Kept.toF ?_) | dsimp only | split

theorem kept_stageFabric {s0 s : State} (hkept : Kept s0 s) :
    Kept s0 (State.stageFabric s) := by
  unfold State.stageFabric
  try dsimp only
  repeat' with_reducible first
    | assumption | apply kept_effFabCtrl | apply kept_nextStage | intro _ | refine Kept.ite ?_ ?_
    | refine Kept.ite1 ?_ ?_ | dsimp only | split

theorem kept_stageTest {s0 s : State} (rep : StageReport) (hkept : Kept s0 s) :
    Kept s0 (State.stageTest s rep) := by
  unfold State.stageTest
  try dsimp only
  repeat' with_reducible first
    | assumption | apply kept_dealWith | apply kept_bootFail | apply kept_nextStage | refine Kept.foldl ?_ ?_
    | refine Kept.foldl1 ?_ ?_ | intro _ | refine Kept.ite ?_ ?_ | refine Kept.ite1 ?_ ?_ | dsimp only | split

theorem kept_stageDone {s0 s : State} (rep : StageReport) (hkept : Kept s0 s) :
    Kept s0 (State.stageDone s rep) := by
  unfold State.stageDone
  try dsimp only
  repeat' with_reducible first
    | assumption | apply kept_nextStage | apply kept_stageRom | apply kept_stageFirmware | apply kept_stageOtp
    | apply kept_stageCores | apply kept_stageStacks | apply kept_stageFlash | apply kept_stageLinks
    | apply kept_stageFabric | apply kept_stageTest | intro _ | refine Kept.ite ?_ ?_ | refine Kept.ite1 ?_ ?_
    | dsimp only | split

theorem kept_execBootStageDone {s0 s : State} (rep : StageReport) (hkept : Kept s0 s) :
    KeptO s0 (execBootStageDone rep s) := by
  unfold execBootStageDone
  try dsimp only
  repeat' with_reducible first
    | assumption | apply kept_stageDone | intro _ | refine KeptO.next ?_ | refine Kept.ite ?_ ?_
    | refine Kept.ite1 ?_ ?_ | dsimp only | split

theorem kept_execStageTimeout {s0 s : State} (rep : StageReport) (hkept : Kept s0 s) :
    KeptO s0 (execStageTimeout rep s) := by
  unfold execStageTimeout
  try dsimp only
  repeat' with_reducible first
    | assumption | apply kept_event | apply kept_bootFail | apply kept_nextStage | apply kept_stageDone | intro _
    | refine KeptO.next ?_ | refine Kept.ite ?_ ?_ | refine Kept.ite1 ?_ ?_ | dsimp only | split

theorem kept_execBootStatusTimer {s0 s : State} (hkept : Kept s0 s) :
    KeptO s0 (execBootStatusTimer s) := by
  unfold execBootStatusTimer
  try dsimp only
  repeat' with_reducible first
    | assumption | apply kept_bootStatus | intro _ | refine KeptO.next ?_ | refine Kept.ite ?_ ?_
    | refine Kept.ite1 ?_ ?_ | dsimp only | split

theorem kept_execImage {s0 s : State} (port : Nat) (addr : Nat) (chunk : List Byte) (hkept : Kept s0 s) :
    KeptO s0 (execImage port addr chunk s) := by
  unfold execImage
  try dsimp only
  repeat' with_reducible first
    | assumption | apply kept_drawBytes | apply kept_setBoot | refine Kept.fst (by assumption) ?_ | intro _
    | refine KeptO.next ?_ | refine Kept.ite ?_ ?_ | refine Kept.ite1 ?_ ?_
    | (simp only [Kept.lit]; refine Kept.toF ?_) | dsimp only | split

theorem kept_execUpdate {s0 s : State} (m : Msg) (oseq : Nat) (slot : Nat) (hkept : Kept s0 s) :
    KeptO s0 (execUpdate m oseq slot s) := by
  unfold execUpdate
  try dsimp only
  repeat' with_reducible first
    | assumption | apply kept_order | apply kept_setBoot | intro _ | refine KeptO.next ?_ | refine Kept.ite ?_ ?_
    | refine Kept.ite1 ?_ ?_ | (simp only [Kept.lit]; refine Kept.toF ?_) | dsimp only | split

theorem kept_execRegRead {s0 s : State} (m : Msg) (addr : Nat) (hkept : Kept s0 s) :
    KeptO s0 (execRegRead m addr s) := by
  unfold execRegRead
  try dsimp only
  repeat' with_reducible first
    | assumption | apply kept_emit | apply kept_secured | apply kept_readWord | refine Kept.fst (by assumption) ?_
    | refine Kept.snd (by assumption) ?_ | intro _ | refine KeptO.next ?_ | refine Kept.ite ?_ ?_
    | refine Kept.ite1 ?_ ?_ | (simp only [Kept.lit]; refine Kept.toF ?_) | dsimp only | split

theorem kept_execRegWrite {s0 s : State} (m : Msg) (addr : Nat) (data : Nat) (cycle : Nat) (hkept : Kept s0 s) :
    KeptO s0 (execRegWrite m addr data cycle s) := by
  unfold execRegWrite
  try dsimp only
  repeat' with_reducible first
    | assumption | apply kept_emit | apply kept_draw | apply kept_secured | apply kept_regWrite
    | refine Kept.fst (by assumption) ?_ | refine Kept.snd (by assumption) ?_ | intro _ | refine KeptO.next ?_
    | (simp only [Kept.lit]; refine Kept.toF ?_) | dsimp only | split

theorem kept_execI3cRegisterWrite {s0 s : State} (addr : Nat) (data : Nat) (cycle : Nat) (hkept : Kept s0 s) :
    KeptO s0 (execI3cRegisterWrite addr data cycle s) := by
  unfold execI3cRegisterWrite
  try dsimp only
  repeat' with_reducible first
    | assumption | apply kept_regWrite | intro _ | refine KeptO.next ?_ | dsimp only

theorem kept_execMgtPwrgoodRise {s0 s : State} (hkept : Kept s0 s) :
    KeptO s0 (execMgtPwrgoodRise s) := by
  unfold execMgtPwrgoodRise
  try dsimp only
  repeat' with_reducible first
    | assumption | apply kept_setBoot | apply kept_coldReset | intro _ | refine KeptO.next ?_ | refine Kept.ite ?_ ?_
    | refine Kept.ite1 ?_ ?_ | (simp only [Kept.lit]; refine Kept.toF ?_) | dsimp only | split

theorem kept_execMgtPwrgoodFall {s0 s : State} (hkept : Kept s0 s) :
    KeptO s0 (execMgtPwrgoodFall s) := by
  unfold execMgtPwrgoodFall
  try dsimp only
  repeat' with_reducible first
    | assumption | apply kept_emit | apply kept_setBoot | apply kept_heldLands | apply kept_coldState | intro _
    | refine KeptO.next ?_ | refine Kept.ite ?_ ?_ | refine Kept.ite1 ?_ ?_
    | (simp only [Kept.lit]; refine Kept.toF ?_) | dsimp only | split

theorem kept_execMainPwrgoodRise {s0 s : State} (hkept : Kept s0 s) :
    KeptO s0 (execMainPwrgoodRise s) := by
  unfold execMainPwrgoodRise
  try dsimp only
  repeat' with_reducible first
    | assumption | apply kept_setBoot | intro _ | refine KeptO.next ?_ | (simp only [Kept.lit]; refine Kept.toF ?_)
    | dsimp only

theorem kept_mainFall {s0 s : State} (hkept : Kept s0 s) :
    Kept s0 (State.mainFall s) := by
  unfold State.mainFall
  try dsimp only
  repeat' with_reducible first
    | assumption | apply kept_setBoot | apply kept_coldReset | intro _ | (simp only [Kept.lit]; refine Kept.toF ?_)
    | dsimp only

theorem kept_execMainPwrgoodFall {s0 s : State} (hkept : Kept s0 s) :
    KeptO s0 (execMainPwrgoodFall s) := by
  unfold execMainPwrgoodFall
  try dsimp only
  repeat' with_reducible first
    | assumption | apply kept_mainFall | intro _ | refine KeptO.next ?_ | dsimp only

theorem kept_execResetNAssert {s0 s : State} (hkept : Kept s0 s) :
    KeptO s0 (execResetNAssert s) := by
  unfold execResetNAssert
  try dsimp only
  repeat' with_reducible first
    | assumption | apply kept_setBoot | apply kept_coldReset | intro _ | refine KeptO.next ?_
    | (simp only [Kept.lit]; refine Kept.toF ?_) | dsimp only

theorem kept_execResetNRelease {s0 s : State} (hkept : Kept s0 s) :
    KeptO s0 (execResetNRelease s) := by
  unfold execResetNRelease
  try dsimp only
  repeat' with_reducible first
    | assumption | apply kept_setBoot | intro _ | refine KeptO.next ?_ | (simp only [Kept.lit]; refine Kept.toF ?_)
    | dsimp only

theorem kept_execRailFault {s0 s : State} (row : Nat) (hkept : Kept s0 s) :
    KeptO s0 (execRailFault row s) := by
  unfold execRailFault
  try dsimp only
  repeat' with_reducible first
    | assumption | apply kept_event | apply kept_mainFall | intro _ | refine KeptO.next ?_ | refine Kept.ite ?_ ?_
    | refine Kept.ite1 ?_ ?_ | dsimp only | split

theorem kept_execRefclkLoss {s0 s : State} (land : Nat) (hkept : Kept s0 s) :
    KeptO s0 (execRefclkLoss land s) := by
  unfold execRefclkLoss
  try dsimp only
  repeat' with_reducible first
    | assumption | apply kept_linkDown | apply kept_loseDie | apply kept_setBoot | apply kept_heldLands | intro _
    | refine KeptO.next ?_ | refine Kept.ite ?_ ?_ | refine Kept.ite1 ?_ ?_
    | (simp only [Kept.lit]; refine Kept.toF ?_) | dsimp only | split

theorem kept_tripDies {s0 s : State} (h : Kept s0 s) : Kept s0 s.tripDies := ⟨fun _ => rfl, h.2.1, h.2.2⟩

theorem kept_execThermTrip {s0 s : State} (loc : Nat) (hkept : Kept s0 s) :
    KeptO s0 (execThermTrip loc s) := by
  unfold execThermTrip
  try dsimp only
  repeat' with_reducible first
    | assumption | apply kept_emit | apply kept_event | apply kept_setBoot | apply kept_heldLands | apply kept_tripDies
    | intro _ | refine KeptO.next ?_ | refine Kept.ite ?_ ?_ | refine Kept.ite1 ?_ ?_
    | (simp only [Kept.lit]; refine Kept.toF ?_) | dsimp only | split

theorem kept_execLinkFrame {s0 s : State} (port : Nat) (frame : Frame) (hkept : Kept s0 s) :
    KeptO s0 (execLinkFrame port frame s) := by
  unfold execLinkFrame
  try dsimp only
  repeat' with_reducible first
    | assumption | apply kept_recvFrame | apply kept_takeSubqs | intro _ | refine KeptO.next ?_ | dsimp only

theorem kept_execLoad {s0 s : State} (port : Nat) (pkt : Packet) (hkept : Kept s0 s) :
    KeptO s0 (execLoad port pkt s) := by
  unfold execLoad
  try dsimp only
  repeat' with_reducible first
    | assumption | apply kept_recvIf | apply kept_takeSubqs | intro _ | refine KeptO.next ?_ | dsimp only

theorem kept_execStore {s0 s : State} (port : Nat) (pkt : Packet) (hkept : Kept s0 s) :
    KeptO s0 (execStore port pkt s) := by
  unfold execStore
  try dsimp only
  repeat' with_reducible first
    | assumption | apply kept_recvIf | apply kept_takeSubqs | intro _ | refine KeptO.next ?_ | dsimp only

theorem kept_execFlaggedStore {s0 s : State} (port : Nat) (pkt : Packet) (hkept : Kept s0 s) :
    KeptO s0 (execFlaggedStore port pkt s) := by
  unfold execFlaggedStore
  try dsimp only
  repeat' with_reducible first
    | assumption | apply kept_recvIf | apply kept_takeSubqs | intro _ | refine KeptO.next ?_ | dsimp only

theorem kept_execBulkGet {s0 s : State} (port : Nat) (pkt : Packet) (hkept : Kept s0 s) :
    KeptO s0 (execBulkGet port pkt s) := by
  unfold execBulkGet
  try dsimp only
  repeat' with_reducible first
    | assumption | apply kept_recvIf | apply kept_takeSubqs | intro _ | refine KeptO.next ?_ | dsimp only

theorem kept_execBulkPut {s0 s : State} (port : Nat) (pkt : Packet) (hkept : Kept s0 s) :
    KeptO s0 (execBulkPut port pkt s) := by
  unfold execBulkPut
  try dsimp only
  repeat' with_reducible first
    | assumption | apply kept_recvIf | apply kept_takeSubqs | intro _ | refine KeptO.next ?_ | dsimp only

theorem kept_execAtomic {s0 s : State} (port : Nat) (pkt : Packet) (hkept : Kept s0 s) :
    KeptO s0 (execAtomic port pkt s) := by
  unfold execAtomic
  try dsimp only
  repeat' with_reducible first
    | assumption | apply kept_recvIf | apply kept_takeSubqs | intro _ | refine KeptO.next ?_ | dsimp only

theorem kept_execAccAdd {s0 s : State} (port : Nat) (pkt : Packet) (hkept : Kept s0 s) :
    KeptO s0 (execAccAdd port pkt s) := by
  unfold execAccAdd
  try dsimp only
  repeat' with_reducible first
    | assumption | apply kept_recvIf | apply kept_takeSubqs | intro _ | refine KeptO.next ?_ | dsimp only

theorem kept_execAccRead {s0 s : State} (port : Nat) (pkt : Packet) (hkept : Kept s0 s) :
    KeptO s0 (execAccRead port pkt s) := by
  unfold execAccRead
  try dsimp only
  repeat' with_reducible first
    | assumption | apply kept_recvIf | apply kept_takeSubqs | intro _ | refine KeptO.next ?_ | dsimp only

theorem kept_execSubmit {s0 s : State} (port : Nat) (pkt : Packet) (hkept : Kept s0 s) :
    KeptO s0 (execSubmit port pkt s) := by
  unfold execSubmit
  try dsimp only
  repeat' with_reducible first
    | assumption | apply kept_recvIf | apply kept_takeSubqs | intro _ | refine KeptO.next ?_ | dsimp only

theorem kept_execOwnClaim {s0 s : State} (port : Nat) (pkt : Packet) (hkept : Kept s0 s) :
    KeptO s0 (execOwnClaim port pkt s) := by
  unfold execOwnClaim
  try dsimp only
  repeat' with_reducible first
    | assumption | apply kept_recvIf | apply kept_takeSubqs | intro _ | refine KeptO.next ?_ | dsimp only

theorem kept_execOwnHandoff {s0 s : State} (port : Nat) (pkt : Packet) (hkept : Kept s0 s) :
    KeptO s0 (execOwnHandoff port pkt s) := by
  unfold execOwnHandoff
  try dsimp only
  repeat' with_reducible first
    | assumption | apply kept_recvIf | apply kept_takeSubqs | intro _ | refine KeptO.next ?_ | dsimp only

theorem kept_execOwnRelease {s0 s : State} (port : Nat) (pkt : Packet) (hkept : Kept s0 s) :
    KeptO s0 (execOwnRelease port pkt s) := by
  unfold execOwnRelease
  try dsimp only
  repeat' with_reducible first
    | assumption | apply kept_recvIf | apply kept_takeSubqs | intro _ | refine KeptO.next ?_ | dsimp only

theorem kept_execSeqSync {s0 s : State} (port : Nat) (pkt : Packet) (hkept : Kept s0 s) :
    KeptO s0 (execSeqSync port pkt s) := by
  unfold execSeqSync
  try dsimp only
  repeat' with_reducible first
    | assumption | apply kept_recvIf | apply kept_takeSubqs | intro _ | refine KeptO.next ?_ | dsimp only

theorem kept_execMcPut {s0 s : State} (port : Nat) (pkt : Packet) (hkept : Kept s0 s) :
    KeptO s0 (execMcPut port pkt s) := by
  unfold execMcPut
  try dsimp only
  repeat' with_reducible first
    | assumption | apply kept_recvIf | apply kept_takeSubqs | intro _ | refine KeptO.next ?_ | dsimp only

theorem kept_execReadData {s0 s : State} (port : Nat) (pkt : Packet) (hkept : Kept s0 s) :
    KeptO s0 (execReadData port pkt s) := by
  unfold execReadData
  try dsimp only
  repeat' with_reducible first
    | assumption | apply kept_recvIf | apply kept_takeSubqs | intro _ | refine KeptO.next ?_ | dsimp only

theorem kept_execBulkData {s0 s : State} (port : Nat) (pkt : Packet) (hkept : Kept s0 s) :
    KeptO s0 (execBulkData port pkt s) := by
  unfold execBulkData
  try dsimp only
  repeat' with_reducible first
    | assumption | apply kept_recvIf | apply kept_takeSubqs | intro _ | refine KeptO.next ?_ | dsimp only

theorem kept_execAck {s0 s : State} (port : Nat) (pkt : Packet) (hkept : Kept s0 s) :
    KeptO s0 (execAck port pkt s) := by
  unfold execAck
  try dsimp only
  repeat' with_reducible first
    | assumption | apply kept_recvIf | apply kept_takeSubqs | intro _ | refine KeptO.next ?_ | dsimp only

theorem kept_execRequestTimeout {s0 s : State} (tag : Nat) (hkept : Kept s0 s) :
    KeptO s0 (execRequestTimeout tag s) := by
  unfold execRequestTimeout
  try dsimp only
  repeat' with_reducible first
    | assumption | apply kept_setEvt | apply kept_endRequest | apply kept_pump | apply kept_takeSubqs
    | refine Kept.fst (by assumption) ?_ | intro _ | refine KeptO.next ?_ | (simp only [Kept.lit]; refine Kept.toF ?_)
    | dsimp only | split

theorem kept_execFlagTimeout {s0 s : State} (src : Nat) (seq : Nat) (hkept : Kept s0 s) :
    KeptO s0 (execFlagTimeout src seq s) := by
  unfold execFlagTimeout
  try dsimp only
  repeat' with_reducible first
    | assumption | apply kept_setEvt | apply kept_endPacket | apply kept_pump | apply kept_takeSubqs
    | refine Kept.fst (by assumption) ?_ | intro _ | refine KeptO.next ?_ | (simp only [Kept.lit]; refine Kept.toF ?_)
    | dsimp only | split

end Sys2Proof.Machine
end

