-- ==== Sys2Proof/Tests/Slice0.lean ====
section
/-! SUPPORT. The smoke test of WellFormed, small checks of single commands, and a witness for the hypotheses of every
statement. -/

namespace Sys2Proof.Machine
namespace Tests

set_option Elab.async false

/-! ## Small states -/

/-- The state `s` with the guard of the management path 8 armed with (off, v) at cycle 0. -/
def armedWith (off : Nat) (v : Word) (s : State := {}) : State :=
  { s with regs := { s.regs with guards := [(8, ⟨off, v, 0⟩)] } }

/-- `s` with one descriptor, token 0. -/
def withDesc (d : Desc) (s : State := {}) : State := { s with rings := { s.rings with descs := [(0, d)] } }

/-! ## How a hypothesis is met -/

theorem pair_of {s : State} {path off cycle : Nat} {v : Word}
    (h : (s.armed path off cycle).map (fun g => g.value) = some v ∧ s.mayWrite path (off / 0x10000) = true) :
    s.pairReady path off v cycle :=
  ⟨Option.map_eq_some_iff.mp h.1, h.2⟩

theorem ready_of {s : State} {tok op : Nat} {d : Desc}
    (h : s.desc tok = some d ∧ dOpcode d.bits = op ∧ s.mayBegin tok d = true ∧ d.cpl.status = ST_OK) : s.ready tok op d := h

theorem some_of {α : Type} {o : Option α} (h : o.isSome = true) : o = some (o.get h) := by simp

theorem eq_fb {α β : Type} {x : α × β} {b : β} (h : x.2 = b) : x = (x.1, b) := by cases x; cases h; rfl
theorem eq_ffbf {α β γ δ : Type} {x : α × β × γ × δ} {b : γ} (h : x.2.2.1 = b) : x = (x.1, x.2.1, b, x.2.2.2) := by
  cases h; rfl
theorem eq_fbf {α β γ : Type} {x : α × β × γ} {b : β} (h : x.2.1 = b) : x = (x.1, b, x.2.2) := by cases h; rfl

theorem inRegs_of {off : Nat} (h : off < 2 ^ 24 ∧ inAlias off = false ∧ inMbx off = false ∧ inMsix off = false ∧
    inPba off = false ∧ isRegister off = true) : inRegs off := h

theorem eq_ff {α β : Type} {x : α × β} : x = (x.1, x.2) := rfl
theorem eq_fff {α β γ : Type} {x : α × β × γ} : x = (x.1, x.2.1, x.2.2) := rfl
theorem eq_ffff {α β γ δ : Type} {x : α × β × γ × δ} : x = (x.1, x.2.1, x.2.2.1, x.2.2.2) := rfl

/-- A descriptor of opcode `op` with the operand bits `x`, running or waiting. -/
def tDesc (op : Nat) (x : Nat := 0) : Desc :=
  { bits := BitVec.ofNat 512 (op + x), src := .ring 0, arrived := 0, requested := 0, phase := .running }
def nDesc (op : Nat) (x : Nat := 0) : Desc := { tDesc op x with phase := .waiting }

/-- A value in the operand bytes from `b` on. -/
def atB (b v : Nat) : Nat := v * 2 ^ (8 * b)

/-- Host memory at the VAs below 2^40, device memory at those above. -/
def hostX : Xlat := { ctx := 0, vmid := 0, va := 0, ipa := 0, out := 0, size := 2 ^ 40, host := true, mig := false }
def devX : Xlat := { ctx := 0, vmid := 0, va := 2 ^ 40, ipa := 0, out := 0, size := 2 ^ 40, host := false, mig := false }

/-- `s` with one descriptor, token 0, which holds these two translations; key slot 0 is ACTIVE. -/
def served (d : Desc) (s : State := {}) : State :=
  { withDesc d s with
    xlt := { s.xlt with committed := [(0, 1)], held := [(0, hostX), (0, devX)] }
    slots := [(0, { phase := .active })] }

def acqState : Acquired → State
  | .ready s _ => s
  | .wait s => s
  | .stop s _ => s
def acqSegs : Acquired → List (List Seg)
  | .ready _ l => l
  | _ => []
def acqReady : Acquired → Bool
  | .ready _ _ => true
  | _ => false

theorem acq_of {a : Acquired} (h : acqReady a = true) : a = .ready (acqState a) (acqSegs a) := by cases a <;> first | rfl | cases h

theorem granted_of {s : State} {tok op : Nat} {d : Desc} {needs : List Need}
    (h : (s.desc tok = some d ∧ dOpcode d.bits = op ∧ s.mayBegin tok d = true ∧ d.cpl.status = ST_OK) ∧
      acqReady (s.acquire tok d needs) = true ∧
      ((acqState (s.acquire tok d needs)).desc tok = some d ∧ (acqState (s.acquire tok d needs)).mayBegin tok d = true)) :
    s.granted tok op d needs (acqState (s.acquire tok d needs)) (acqSegs (s.acquire tok d needs)) :=
  ⟨h.1, acq_of h.2.1, h.2.2.1, h.1.2.1, h.2.2.2, h.1.2.2.2⟩

/-- The pieces of the tiles, or none where one waits; and the state once the engine may run. -/
def tilesOf (s : State) (tok : Nat) (d : Desc) (tiles : List (List Need)) : List (List (List Seg)) × Option Cpl :=
  (s.xlateTiles tok d tiles []).2.getD ([], none)
def tilesState (s : State) (tok : Nat) (d : Desc) (tiles : List (List Need)) : State :=
  ((s.xlateTiles tok d tiles []).1.engineReady tok
    ((List.zip tiles (tilesOf s tok d tiles).1).flatMap (fun e => deviceRanges e.1 e.2))).1

theorem tiles_of {s : State} {tok op : Nat} {d : Desc} {tiles : List (List Need)}
    (h : (s.desc tok = some d ∧ dOpcode d.bits = op ∧ s.mayBegin tok d = true ∧ d.cpl.status = ST_OK) ∧
      (s.xlateTiles tok d tiles []).2.isSome = true ∧
      ((s.xlateTiles tok d tiles []).1.engineReady tok
        ((List.zip tiles (tilesOf s tok d tiles).1).flatMap (fun e => deviceRanges e.1 e.2))).2 = true ∧
      ((tilesState s tok d tiles).desc tok = some d ∧ (tilesState s tok d tiles).mayBegin tok d = true)) :
    s.grantedTiles tok op d tiles (tilesState s tok d tiles) (tilesOf s tok d tiles).1 (tilesOf s tok d tiles).2 := by
  refine ⟨h.1, ⟨(s.xlateTiles tok d tiles []).1, ?_, eq_fb h.2.2.1⟩, h.2.2.2.1, h.1.2.1, h.2.2.2.2, h.1.2.2.2⟩
  unfold tilesOf
  obtain ⟨x, hx⟩ := Option.isSome_iff_exists.mp h.2.1
  exact Prod.ext rfl (by rw [hx]; rfl)

/-- A device that has joined, with one window open to everyone and one source in step. -/
def joinedState : State :=
  { win := { committed := [(0, BitVec.ofNat 128 (0xF + at_ 48 0xFFFFFF))] }
    ord := { track := [(1, { gen := 0, mark := 0 })] }
    fab := { joined := true, devidSet := true }
    slots := [(0, { phase := .active })] }

/-- A packet of that source for this device. -/
def pkt (type : Nat) (length : Nat := 64) : Packet :=
  { type := type, src := 1, dest := 0xC000, length := length, segLen := length, data := List.replicate length 0 }

theorem forMe_of {s : State} {p : Packet}
    (h : s.fab.joined = true ∧ s.fab.devidSet = true ∧ p.dest = s.ownId ∧ p.mc = false ∧ p.crcOk = true ∧
      (p.vc = none ∨ p.vc = some (vcOf p.type))) : s.forMe p := h

theorem servable_of {s : State} {p : Packet}
    (h : s.inboundFails p (s.window (faWindow p.addr)) p.src = none ∧
      s.keyServes (winKey (s.window (faWindow p.addr))) (s.slot (winKey (s.window (faWindow p.addr)))).epoch = true ∧
      s.domainBars (s.inboundAddr p) (servedPart p).2 = false ∧ redundancyRole (s.pgAt (s.inboundAddr p)) = false ∧
      s.swapTarget (s.pgAt (s.inboundAddr p)) = false ∧ pgPeer (s.pgAt (s.inboundAddr p)) p.src = none ∧
      ∀ l ∈ linesOf (s.inboundAddr p) (servedPart p).2, s.lineBusy l = false ∧ s.needsRebuild l = false ∧
        s.recallNeed (.fabric p (s.window (faWindow p.addr)) (s.slot (winKey (s.window (faWindow p.addr)))).epoch) l
          (writesMemory p.type) = none) : s.servable p := h

/-- A plan structure of slice 63 with one cycle record, of period 50 µs. -/
def planBytes : List Byte :=
  leBytes 64 (1 + at_ 16 1 + at_ 32 63 + at_ 40 1 + at_ 56 1 + at_ 64 1 + at_ 80 1 + at_ 96 50) ++ List.replicate 128 0

/-- A request that awaits one answer. -/
def request : Request := { gen := 0, pkt := { type := 0x01 }, origin := .service, expect := 1 }

theorem eq_fs {α β : Type} {x : α × Option β} (h : x.2.isSome = true) : x = (x.1, some (x.2.get h)) := by simp

theorem reaches_of {s : State} {port dec off line slot : Nat} (k : Nat) (e : Word)
    (h : s.sec.conf.has port = false ∧ dec ≠ 2 ∧ s.keyActive slot = true ∧ s.lineBusy line = false ∧
      s.needsRebuild line = false ∧ s.findExt port dec (off / extentSize) = some (k, e) ∧ extState e ≠ EXT_REVOKING ∧
      extKey e = slot ∧ lineOf (k * extentSize + off % extentSize) = line) : s.hostReaches port dec off line slot :=
  ⟨h.1, h.2.1, h.2.2.1, h.2.2.2.1, h.2.2.2.2.1, k, e, h.2.2.2.2.2.1, h.2.2.2.2.2.2.1, h.2.2.2.2.2.2.2.1,
    h.2.2.2.2.2.2.2.2⟩

/-- A host extent: DPA extent 0 behind port 0, as the entry `w` says. -/
def hostState (w : Word) : State := { host := { ext := [(0, w)] }, slots := [(0, { phase := .active })] }

def walkOk : Walked → Option (Xlat × Nat × Bool × Nat)
  | .ok x e lh a => some (x, e, lh, a)
  | _ => none
theorem walk_of {w : Walked} (h : (walkOk w).isSome = true) :
    w = .ok ((walkOk w).get h).1 ((walkOk w).get h).2.1 ((walkOk w).get h).2.2.1 ((walkOk w).get h).2.2.2 := by
  cases w <;> first | rfl | cases h

/-- A context whose tables lie in host memory, with a pool of 1 GiB; migration on fault. -/
def hostCtx : BitVec 256 := BitVec.ofNat 256 (1 + 2 + 2 ^ 7 + 2 ^ 14 + 2 ^ 24 + 2 ^ 208)

/-- A shared range 0 that host port 0 writes. -/
def sharedState (h : HostState) : State := { host := { h with shrLive := [(0, 3)] } }

/-- A migration of page 0 of context 0, its leaf in host memory. -/
def migration : Migration :=
  { ctx := 0, va := 0, size := 4096, leafHost := true, leafAddr := 0, leaf := 2 ^ 62, pool := 2 ^ 21, key := 0 }

/-- The first granule of memory is promoted. -/
def promoted : State := { tier := { granules := [(0, { key := 0, on := 0xFFFF })] } }

theorem eq_fffff {α β γ δ ε : Type} {x : α × β × γ × δ × ε} : x = (x.1, x.2.1, x.2.2.1, x.2.2.2.1, x.2.2.2.2) := rfl
theorem tilesAll_of {s : State} {tok op : Nat} {d : Desc} {tiles : List (List Need)}
    (h : ((s.desc tok = some d ∧ dOpcode d.bits = op ∧ s.mayBegin tok d = true ∧ d.cpl.status = ST_OK) ∧
      (s.xlateTiles tok d tiles []).2.isSome = true ∧
      ((s.xlateTiles tok d tiles []).1.engineReady tok
        ((List.zip tiles (tilesOf s tok d tiles).1).flatMap (fun e => deviceRanges e.1 e.2))).2 = true ∧
      ((tilesState s tok d tiles).desc tok = some d ∧ (tilesState s tok d tiles).mayBegin tok d = true)) ∧
      (tilesOf s tok d tiles).2 = none) :
    s.grantedTiles tok op d tiles (tilesState s tok d tiles) (tilesOf s tok d tiles).1 none :=
  h.2 ▸ tiles_of h.1

theorem eq_fffb {α β γ δ : Type} {x : α × β × γ × δ} {b : δ} (h : x.2.2.2 = b) : x = (x.1, x.2.1, x.2.2.1, b) := by
  cases h; rfl
theorem except_of {ε α : Type} {x : Except ε α} {a : α} (h : x.toOption = some a) : x = .ok a := by
  cases x with
  | error => cases h
  | ok y => cases h; rfl
/-- A tile program of one fence and 4,096 bytes of weights. -/
def fenceBinary : List Byte :=
  leBytes 64 (0xCEDA + atB 2 1 + atB 4 256 + atB 16 1 + atB 18 1 + atB 32 4096 + atB 60 0x81CAA7B7) ++
    leBytes 64 (atB 2 1) ++ leBytes 128 (9 + atB 2 1 + atB 16 1 + atB 20 1 + atB 24 1 + atB 28 1)

/-- A slice that holds everything. -/
def wholeSlice : State := { slices := { committed := [(0, BitVec.allOnes 2048)] } }

def noOpnd : Opnd := { addr := 0, saddr := 0, space := 0, base := 0, fmt := 0, cattr := 0, stride := 0, clean := true }
/-- An operation of code `opc` on cluster 0, without operands. -/
def tileOp (opc : Nat) : TileOp :=
  { opc := opc, oflags := 0, units := 1, dec := 0, place := 0, cluster := 0, act := 0, subop := 0, alpha := 0, arg := 0
    m := 1, n := 1, k := 1, batch := 1, a := noOpnd, b := noOpnd, out := noOpnd, aux := noOpnd }
/-- A run of these operations. -/
def tileRun (l : List TileOp) : MtxRun := { slot := none, first := 0, places := [⟨0, 0, 1⟩], ops := l, bases := [] }

/-- `s` with this table of runs. -/
def running (r : MtxRun) (s : State) : State := { s with mtx := { s.mtx with runs := [(0, r)] } }

theorem acq_is {a : Acquired} {l : List (List Seg)} (h : acqReady a = true ∧ acqSegs a = l) : a = .ready (acqState a) l :=
  h.2 ▸ acq_of h.1

def rangedOk : Ranged → Option (List Seg)
  | .ok l => some l
  | _ => none
theorem ranged_of {r : Ranged} (h : (rangedOk r).isSome = true) : r = .ok ((rangedOk r).get h) := by
  cases r <;> first | rfl | cases h
theorem eq_fo {α : Type} {x : α × Ranged} (h : (rangedOk x.2).isSome = true) : x = (x.1, .ok ((rangedOk x.2).get h)) :=
  Prod.ext rfl (ranged_of h)

def itemDone : ItemEnd → Option (State × Bool × Nat)
  | .done s p n => some (s, p, n)
  | _ => none
theorem item_of {x : ItemEnd} (h : (itemDone x).isSome = true) :
    x = .done ((itemDone x).get h).1 ((itemDone x).get h).2.1 ((itemDone x).get h).2.2 := by
  cases x <;> first | rfl | cases h
def fenceLoad : Desc := nDesc 0x30 (atB 24 256 + atB 40 4096 + atB 48 (2 ^ 40) + atB 56 4096)

theorem eq_ffb {α β γ : Type} {x : α × β × γ} {b : γ} (h : x.2.2 = b) : x = (x.1, x.2.1, b) := by cases h; rfl

/-- A table descriptor of one row of four FP32 columns, its storage at VA 2^40, updatable. -/
def tableBytes : List Byte :=
  leBytes 128 (1 + atB 2 1 + atB 3 4 + atB 6 4 + atB 8 4 + atB 10 1 + atB 12 4 + atB 16 1 + atB 32 (2 ^ 40) +
    atB 40 (2 ^ 40 + 4096) + atB 48 1)
def table0 : EmbTable :=
  { phase := .loaded, desc := { tflags := 4, cols := 4, total := 4, group := 1, rows := 1, maxWin := 1 }
    images := [{ va := 0, segs := [(false, 0, 4096)], first := 0, last := 0 }] }
/-- An update record of stochastic gradient descent that starts at tick 2, its merge area at VA 2^40 + 2^20. -/
def updateBytes : List Byte := leBytes 128 (1 + atB 4 1 + atB 8 2 + atB 24 (2 ^ 40 + 2 ^ 20))
def update0 : EmbUpdate :=
  { opt := 0, master := false, stoch := false, ticks := 1, start := 2, lr := 0, beta1 := 0, beta2 := 0, eps := 0
    decay := 0, seed := 0, stateArea := [], mergeArea := [], key := 0, keyEpoch := 0 }
def window0 : MergeWindow := { k := 0, opened := 2 }
def embState (t : EmbTable) (u : Tab EmbUpdate := []) : State :=
  { wholeSlice with emb := { tables := [(0, t)], updates := u }, tier := promoted.tier }


/-- An index of one leaf of binary vectors of 64 bits on flash channel 0: its descriptor and its tables. -/
def idxBytes : List Byte :=
  leBytes 128 (1 + atB 2 0x20 + atB 4 64 + atB 6 1 + atB 16 (2 ^ 40) + atB 24 1 + atB 28 1 + atB 32 (2 ^ 40 + 8192) +
    atB 52 1 + atB 56 (2 ^ 40 + 16384) + atB 64 1 + atB 72 1)
def idx0 : SrhIndex :=
  { phase := .live, nodeArea := [(0, 8192)], leaves := [(0, 0)]
    desc := { vtype := 0x20, dim := 64, nodes := 2 ^ 40, nNodes := 1, leaves := 1, mergePages := 1, vnumMax := 1, channels := 1 } }
/-- Flash channel 0 with two pages, and these indexes, pages and jobs. -/
def srhOf (x : Tab SrhIndex) : SrhState := { indexes := x, chans := [(0, { present := true, inService := true, usable := 2 })] }
def srhState (e : SrhState) : State := { wholeSlice with srh := e, tier := promoted.tier }
def page0 : FlashPage := { index := 0, leaf := 0, key := 0, bytes := buildLeafPage 0 [] }
def program0 : FlashProgram := { fpa := 0, index := 0, leaf := 0, bytes := [], tok := some 0 }
def job0 : SrhJob :=
  { tok := 0, index := 0, tick := 0, k := 1, queries := [{ vec := zeros 8, probes := [0], best := [] }], wait := [(0, 0)] }
/-- Memory that holds node 0: a bottom node of one entry, leaf 0. -/
def nodeMem : MemState := { bytes := [(0, 0x0D), (1, 0x4E), (4, 1)], lineKey := [(0, 0), (1, 0)] }
def steppedOk {α : Type} : Stepped α → Option α
  | .ok a => some a
  | _ => none
theorem stepped_of {α : Type} {x : State × Stepped α} (h : (steppedOk x.2).isSome = true) :
    x = (x.1, .ok ((steppedOk x.2).get h)) := by
  obtain ⟨s, r⟩ := x
  cases r <;> first | rfl | cases h
theorem some_ff {α β : Type} {o : Option (α × β)} (h : o.isSome = true) : o = some ((o.get h).1, (o.get h).2) :=
  (Option.some_get h).symm
theorem kv_of {s : State} {tok op : Nat} {d : Desc}
    (h : (s.desc tok = some d ∧ dOpcode d.bits = op ∧ s.mayBegin tok d = true ∧ d.cpl.status = ST_OK) ∧
      s.kvOrdered tok d = true ∧ (s.kvPools d.bits).all (fun n => !s.ctrlBad n) = true) : s.kvReady tok op d := h

/-- A pool of four pages of 128 tokens, its descriptor with the areas at VA 2^40, and one sequence of it. -/
def poolBytes : List Byte :=
  leBytes 128 (1 + atB 2 13 + atB 3 14 + atB 4 1 + atB 6 64 + atB 8 1 + atB 12 2 + atB 16 100 + atB 20 4 + atB 24 (2 ^ 40) +
    atB 32 (2 ^ 40 + 65536))
def pool0 : KvPool :=
  { phase := .live, fmt := 13, pageLog := 14, heads := 1, hdim := 64, layers := 1, seqMax := 2, maxTokens := 100, pages := 4
    area := [(0, 65536)], ctrl := [(65536, 4096)], ovf := 2 ^ 40, ovfPages := 4 }
def seq0 : KvSeq := { pool := 0, gen := 0, layers := [{}] }
def seq1 : KvSeq := { pool := 0, gen := 0, layers := [{ len := 1, pages := [0] }] }
def kvReq0 : KvReq := { tok := 0, pool := 0, seq := 0, layer := 0, newLen := 1, taken := [0] }
def kvOf (p : KvPool) (q : Tab KvSeq := []) (r : List KvReq := []) : State :=
  { wholeSlice with kv := { pools := [(0, p)], seqs := q, reqs := r }, tier := promoted.tier }
theorem que_of {s : State} {tok op : Nat} {d : Desc} {q : Queue}
    (h : (s.desc tok = some d ∧ dOpcode d.bits = op ∧ s.mayBegin tok d = true ∧ d.cpl.status = ST_OK) ∧
      s.queOrdered tok d = true ∧ s.queue (qNum d.bits) = q ∧ (q.phase = .live ∨ q.phase = .destroying) ∧
      q.slice = dSlice d.bits ∧ q.key = dKeySlot d.bits) : s.queReady tok op d q := h

/-- A queue of 8 KiB; one item of it, and the queue that holds it. -/
def queue0 : Queue := { phase := .live, maxItem := 64, cap := 8192, spill := [(0, 8192)] }
def item0 : QItem := { iseq := 0, len := 8, pos := 0, push := none }
def queue1 : Queue := { queue0 with items := [item0], nextSeq := 1, tail := 64 }
def queOf (q : Queue) : State := { wholeSlice with que := { queues := [(0, q)] }, tier := promoted.tier }
theorem past_of {o : Option Nat} {i : Nat} (h : o = none) : ∀ j, o = some j → j ≤ i := by
  intro j hj; rw [h] at hj; cases hj

/-- A ring of 16 entries each way, a fabric submission queue of the same sizes, and a state that holds them. -/
def ring0 : Ring := { record := BitVec.ofNat 256 (4 * 2 ^ 52 + 4 * 2 ^ 57 + 2 ^ 192) }
def subq0 : Subq := { record := BitVec.ofNat 256 (4 * 2 ^ 32 + 4 * 2 ^ 36 + 2 ^ 192) }
def ringOf (r : Ring) (q : Subq := {}) : State :=
  { wholeSlice with rings := { rings := [(0, r)], subqs := [(0, q)] }, slots := [(0, { phase := .active })] }
def bitsOp (op : Nat) (x : Nat := 0) : DescBits := BitVec.ofNat 512 (op + x)
/-- Port 0 is confidential for key slot 0, whose memory the tier holds. -/
def bounceOf : State :=
  { ringOf ring0 with sec := { conf := [(0, 0)], bounce := [(0, { key := [] })] }, tier := promoted.tier }
/-- A valid OTP word of VALUE 0. -/
def otp0 : Wide := BitVec.ofNat 256 (0xA5 * 2 ^ 248 + crc32c (leBytes 28 (0xA5 * 2 ^ 216)))
/-- A connection of transport 8 that has agreed its algorithms, with one established and authentic session. -/
def session0 : SpdmSession := { id := 0, done := true, authentic := true }
def spdmOf (l : List SpdmSession) (keys : Tab ModelKey := []) : State :=
  { slots := [(0, { phase := .active })]
    sec := { spdm := [(8, { version := true, capabilities := true, algorithms := true, sessions := l })], modelKeys := keys } }
def modelKey0 : ModelKey := { gen := 0, live := true, slot := 0, epoch := 0, program := 0, key := [] }
theorem admitted_of {s : State} {m : Msg} (x : SpdmSession)
    (h : m.port < 2 ∧ (s.conn (8 + m.port)).session m.session = some x ∧ x.done = true ∧ x.authentic = true ∧
      x.rooted = true) : s.admitted m := ⟨h.1, x, h.2⟩
theorem outside_of {s : State} {m : Msg} (h : (s.conn (8 + m.port)).session m.session = none) : ¬ s.admitted m := by
  rintro ⟨_, x, hx, _⟩; rw [h] at hx; cases hx

/-- A session of the management root, and the management port it runs on. -/
def session1 : SpdmSession := { session0 with rooted := true }
def managed : State := spdmOf [session1]
def msg0 : Msg := { port := 0 }

/-- A mirror's second member, in state `st`. -/
def mirror (st : Nat) : BitVec 256 := BitVec.ofNat 256 (1 + 4 * st + 16 + 0xFF00)
def pgOf (e : BitVec 256) : State := { pg := { committed := [(0, e)] } }

/-- The device in boot stage `n`; a firmware image that it takes. -/
def bootAt (n : Nat) (b : BootState := {}) : State := State.setFld { boot := b } F.IDN_BOOT_STAGE n
def image0 : BootImage := { key := 0, signed := true, svn := 0, release := 0, digest := [] }

/-! ## Ill-formed commands, one for each check -/

theorem test_ill_path : (Instr.tickRunStart 75 0 0).wellFormed = false := by decide
theorem test_ill_host_port : (Instr.perstAssert 8).wellFormed = false := by decide
theorem test_ill_fabric_port : (Instr.laneFault 32).wellFormed = false := by decide
theorem test_ill_mailbox : (Instr.mailboxOpDone 16).wellFormed = false := by decide
theorem test_ill_mailbox_word : (Instr.mbxDataRead 0 0 8).wellFormed = false := by decide
theorem test_ill_message :
    (Instr.cold { port := 2 }).wellFormed = false ∧ (Instr.cold { port := 0, mseq := 2 ^ 32 }).wellFormed = false ∧
    (Instr.cold { port := 0, session := 2 ^ 32 }).wellFormed = false := by decide
theorem test_ill_transport :
    (Instr.getVersion ⟨10, 0⟩).wellFormed = false ∧ (Instr.getVersion ⟨0, 2 ^ 32⟩).wellFormed = false := by decide
theorem test_ill_packet_type : (Instr.load 0 { type := 0x02 }).wellFormed = false := by decide
theorem test_ill_packet_address : (Instr.load 0 { type := 0x01, addr := 2 ^ 64 }).wellFormed = false := by decide
theorem test_ill_packet_segment : (Instr.load 0 { type := 0x01, segLen := 4097 }).wellFormed = false := by decide
theorem test_ill_ownership_op : (Instr.ownClaim 0 { type := 0x0A, op := 2 }).wellFormed = false := by decide
theorem test_ill_frame :
    (Instr.linkFrame 0 { seq := 0, pkts := [{ type := 0x01, tag := 65536 }] }).wellFormed = false := by decide
theorem test_ill_lanes : (Instr.portSignalDetect 0 256).wellFormed = false := by decide
theorem test_ill_tag : (Instr.requestTimeout 65536).wellFormed = false := by decide
theorem test_ill_decoder : (Instr.memInv 0 4 0).wellFormed = false := by decide
theorem test_ill_extent : (Instr.revocationComplete 65536).wellFormed = false := by decide
theorem test_ill_context : (Instr.migrationTimeout 1024 0).wellFormed = false := by decide
theorem test_ill_ring : (Instr.msixModerationTimer 1024).wellFormed = false := by decide
theorem test_ill_offset : (Instr.guardArm 0 16777216 0 0).wellFormed = false := by decide
theorem test_ill_location : (Instr.thermTrip (2 ^ 32)).wellFormed = false := by decide
theorem test_ill_flash_channel : (Instr.flashChannelFailure 64 false).wellFormed = false := by decide
theorem test_ill_stack : (Instr.stackHot 12 90).wellFormed = false := by decide
theorem test_ill_slot : (Instr.zeroisationDone 256).wellFormed = false := by decide
theorem test_ill_boundary_report :
    (Instr.tickBoundary { stackC := List.replicate 13 40 }).wellFormed = false := by decide
theorem test_ill_stage_report :
    (Instr.bootStageDone { badPairs := [8] }).wellFormed = false ∧
    (Instr.bootStageDone { links := [(8, 0, 0)] }).wellFormed = false := by decide
theorem test_ill_image_chunk : (Instr.image 0 0 (List.replicate 1025 0)).wellFormed = false := by decide +kernel
theorem test_ill_land : (Instr.refclkLoss 13).wellFormed = false := by decide
theorem test_well_formed : (Instr.load 0 { type := 0x01 }).wellFormed = true ∧ (Instr.cold { port := 1 }).wellFormed = true := by
  decide

/-! ## The specification's worked examples -/

/-- The state after a command. -/
def after : Host.Outcome State Fault Refusal → State
  | .next t => t
  | _ => {}

/-- A completion's done-tick field (the scope chapter's example). -/
theorem test_nearest_tick : nearestTick 5 0x1FFFFFFF0 = 0x200000005 := by decide

/-- A DPA's home (the example of the addressing chapter). -/
theorem test_home :
    homeOf 0xB401234ABC =
      { band := 5, h := 4, die := 4, region := 0, stack := 8, channel := 5, choff := 0xC2ABC, coredie := 1 } := by decide

/-- The window entry of the same example: base, source check. -/
def windowWord : BitVec 128 := 0xFF001200170300_01FFFF00B40000000F
theorem test_window_entry :
    winValid windowWord = true ∧ winKey windowWord = 0x17 ∧ winBase windowWord = 0xB400000000 := by decide

/-- Location codes (the example of the architecture chapter): a matrix unit and a flash channel. -/
theorem test_locations : partOf 0x04230708 = some (.unit 0x04230700) ∧ partOf 0x32FF0BFF = some (.flash 43) := by decide

/-- Bit aliases (the example of the chapter on registers). -/
theorem test_bit_alias :
    aliasReg 0x866188 = (Reg.FAB_ORD_EVT, 2) ∧ inAlias 0x866188 = true := by decide

/-- A guarded write of TIK_LULL (the same chapter's example, by a path that may write it): V waits for the boundary. -/
theorem test_guarded_write :
    (after (exec (.tikLullWrite 8 0xCDFF8E0B 63) (armedWith Reg.TIK_LULL 0x320071F4))).tick.lullPending = some 0x320071F4 := by
  decide +kernel

/-- Tokens per page (the example of the KV chapter), in BF16 and in INT8. -/
theorem test_kv_page :
    let p : KvPool := { fmt := 2, pageLog := 16, heads := 8, hdim := 128, layers := 48 }
    p.tokenSize = 4096 ∧ p.perPage = 16 ∧ { p with fmt := 9 }.tokenSize = 2080 ∧ { p with fmt := 9 }.perPage = 31 := by decide

/-- Item sizes (the example of the queue chapter). -/
theorem test_item_size : itemSize 200 = 256 ∧ itemSize 6000 = 6016 := by decide

/-- Sizes of an index (Table 13-9). -/
def places : IdxDesc :=
  { vtype := 9, dim := 96, depth := 4, leaves := 18382353, mergePages := 4096, sideMax := 131072, channels := 2 ^ 64 - 1 }
theorem test_index_sizes :
    places.es = 108 ∧ places.cap = 151 ∧ places.scap = 140 ∧ places.nodePitch = 27712 ∧ places.pagesPer = 291321 ∧
    places.sidePages = 937 := by decide +kernel

/-- What a batch on it costs (Table 13-9). -/
theorem test_query_cost :
    let c := srhCost (tDesc 0x44 (atB 17 64 + atB 18 100 + atB 20 8 + atB 22 64 + atB 32 (2 ^ 60)))
      { srh := { indexes := [(0, { desc := places })] } }
    c.fls = 5033 ∧ c.stk = 60389952 := by decide +kernel

/-- Lands (the example of the package chapter). -/
theorem test_lands :
    landAt 72 11 = some (.fabric 13 5 true true) ∧ landAt 72 12 = some (.fabric 13 5 true false) ∧
    landAt 74 12 = some (.fabric 13 5 false false) ∧ landAt 106 126 = some (.host 6 12 false true) ∧
    landAt 129 50 = some (.flash 43 (.dq 3)) ∧ landAt 45 112 = some (.power .eng) ∧ landAt 45 111 = some .vss := by decide

/-! ## Witnesses -/

/-- States and operands that meet the hypotheses of `StepRunsFrontCommand`, clause by clause. -/
theorem witness_StepRunsFrontCommand :
    ∃ (c : Instr) (rest : List Instr) (s : State), (s.pending = c :: rest) :=
  ⟨.mbxDataRead 0 0 0, [], { pending := [.mbxDataRead 0 0 0] }, by decide +kernel⟩

/-- States and operands that meet the hypotheses of `ColdResetRegisterAccess`, clause by clause. -/
theorem witness_ColdResetRegisterAccess :
    (∃ (path b : Nat), (path < 8) ∧ (b < blockCount) ∧ (b ≠ B_MBX)) ∧
    (∃ (b : Nat), (b < blockCount)) :=
  ⟨⟨7, 17, by decide +kernel, by decide +kernel, by decide +kernel⟩,
   ⟨18, by decide +kernel⟩⟩

/-- States and operands that meet the hypotheses of `TickControlWrites`, clause by clause. -/
theorem witness_TickControlWrites :
    (∃ (s : State) (path cycle : Nat) (v : Word), (s.pairReady path Reg.TIK_CTRL v cycle) ∧ (bitOf v 0 = true) ∧
      (s.fld F.TIK_CTRL_RUN = 0) ∧ (bitsOf v 4 2 ≠ 3)) ∧
    (∃ (s : State) (path cycle : Nat) (v : Word), (s.pairReady path Reg.TIK_CTRL v cycle) ∧ (bitOf v 0 = false) ∧
      (bitsOf v 4 2 ≠ 3)) ∧
    (∃ (s : State) (path cycle : Nat) (v : Word), (s.pairReady path Reg.TIK_CTRL v cycle) ∧ (bitOf v 0 = true) ∧
      (s.fld F.TIK_CTRL_RUN = 1) ∧ (bitsOf v 4 2 ≠ s.tickSrc) ∧ (bitsOf v 4 2 ≠ 3)) ∧
    (∃ (s : State) (path cycle : Nat) (v : Word), (s.pairReady path Reg.TIK_PERIOD v cycle) ∧ (50 ≤ bitsOf v 0 17) ∧
      (bitsOf v 0 17 ≤ 100000) ∧ ((s.fld F.TIK_CTRL_MASTER = 0 → s.tickSrc ≠ 1)) ∧ (s.tick.change = none)) ∧
    (∃ (s : State) (path cycle : Nat) (v : Word), (s.pairReady path Reg.TIK_PERIOD v cycle) ∧ (bitsOf v 0 17 < 50 ∨
      100000 < bitsOf v 0 17)) ∧
    (∃ (s : State) (path cycle : Nat) (v : Word), (s.pairReady path Reg.TIK_LULL v cycle) ∧ (2 ≤ bitsOf v 0 12) ∧
      (bitsOf v 12 12 < bitsOf v 0 12) ∧ (bitsOf v 24 7 ≤ 100)) ∧
    (∃ (s : State) (path cycle : Nat) (v : Word), (s.mayWrite path B_TIK = true) ∧ (s.armed path Reg.TIK_PERIOD cycle
      = none) ∧ (2 ≤ bitsOf v 0 17) ∧ (2 * bitsOf v 0 17 ≤ s.period)) :=
  ⟨⟨armedWith Reg.TIK_CTRL 1, 8, 63, 1, pair_of (by decide +kernel), by decide +kernel, by decide +kernel,
     by decide +kernel⟩,
   ⟨armedWith Reg.TIK_CTRL 0x20, 8, 63, 0x20, pair_of (by decide +kernel), by decide +kernel, by decide +kernel⟩,
   ⟨armedWith Reg.TIK_CTRL 0x21 (State.setFld {} F.TIK_CTRL_RUN 1), 8, 63, 0x21, pair_of (by decide +kernel),
     by decide +kernel, by decide +kernel, by decide +kernel, by decide +kernel⟩,
   ⟨armedWith Reg.TIK_PERIOD 50 (State.setFld {} F.TIK_CTRL_MASTER 1), 8, 63, 50, pair_of (by decide +kernel),
     by decide +kernel, by decide +kernel, by decide +kernel, by decide +kernel⟩,
   ⟨armedWith Reg.TIK_PERIOD 49, 8, 63, 49, pair_of (by decide +kernel), by decide +kernel⟩,
   ⟨armedWith Reg.TIK_LULL 0x64001002, 8, 63, 0x64001002, pair_of (by decide +kernel), by decide +kernel,
     by decide +kernel, by decide +kernel⟩,
   ⟨{}, 8, 63, 2, by decide +kernel, by decide +kernel, by decide +kernel, by decide +kernel⟩⟩

/-- States and operands that meet the hypotheses of `TickInputs`, clause by clause. -/
theorem witness_TickInputs :
    (∃ (s : State) (high : Nat), (s.tick.sync ≠ .stopped) ∧ (s.tickSrc = 2) ∧ (high < 20)) ∧
    (∃ (s : State) (high : Nat), (s.tick.sync = .lost) ∧ (s.tickSrc = 2) ∧ (20 ≤ high)) ∧
    (∃ (s : State) (high x : Nat), (s.tick.sync = .locked) ∧ (s.tickSrc = 2) ∧ (20 ≤ high) ∧ (s.tick.expected = some
      x)) ∧
    (∃ (s : State) (ns high x : Nat), (s.tick.sync = .locking ∨ s.tick.sync = .holdover) ∧ (s.tickSrc = 2) ∧ (20 ≤
      high) ∧ (s.tick.expected = some x) ∧ (x ≤ ns + 1000) ∧ (ns ≤ x + 1000)) ∧
    (∃ (s : State) (ns x : Nat), (s.tickSrc = 2) ∧ (s.tick.expected = some x) ∧ (x + 1000 ≤ ns) ∧ (s.tick.sync =
      .locking)) ∧
    (∃ (s : State) (ns x : Nat), (s.tickSrc = 2) ∧ (s.tick.expected = some x) ∧ (x + 1000 ≤ ns) ∧ (s.tick.sync =
      .locked)) ∧
    (∃ (s : State), (s.fld F.TIK_CTRL_PTP_EN = 1) ∧ (s.tick.sync = .locked) ∧ (s.tickSrc = 1)) ∧
    (∃ (s : State), (s.tick.sync = .locked) ∧ (s.tickSrc = 1)) ∧
    (∃ (s : State), (s.tick.sync = .holdover) ∧ (s.tickSrc = 1)) :=
  ⟨⟨(State.setFld { tick := { sync := .free } } F.TIK_CTRL_SRC 2), 19, by decide +kernel, by decide +kernel,
     by decide +kernel⟩,
   ⟨(State.setFld { tick := { sync := .lost } } F.TIK_CTRL_SRC 2), 20, by decide +kernel, by decide +kernel,
     by decide +kernel⟩,
   ⟨(State.setFld { tick := { sync := .locked, expected := some 0 } } F.TIK_CTRL_SRC 2), 20, _, by decide +kernel,
     by decide +kernel, by decide +kernel, some_of (by decide +kernel)⟩,
   ⟨(State.setFld { tick := { sync := .holdover, expected := some 0 } } F.TIK_CTRL_SRC 2), 1000, 20, 0,
     by decide +kernel, by decide +kernel, by decide +kernel, by decide +kernel, by decide +kernel, by decide +kernel⟩,
   ⟨(State.setFld { tick := { sync := .locking, expected := some 0 } } F.TIK_CTRL_SRC 2), 1000, 0, by decide +kernel,
     by decide +kernel, by decide +kernel, by decide +kernel⟩,
   ⟨(State.setFld { tick := { sync := .locked, expected := some 0 } } F.TIK_CTRL_SRC 2), 1000, 0, by decide +kernel,
     by decide +kernel, by decide +kernel, by decide +kernel⟩,
   ⟨((State.setFld { tick := { sync := .locked } } F.TIK_CTRL_SRC 1).setFld F.TIK_CTRL_PTP_EN 1), by decide +kernel,
     by decide +kernel, by decide +kernel⟩,
   ⟨(State.setFld { tick := { sync := .locked } } F.TIK_CTRL_SRC 1), by decide +kernel, by decide +kernel⟩,
   ⟨(State.setFld { tick := { sync := .holdover } } F.TIK_CTRL_SRC 1), by decide +kernel, by decide +kernel⟩⟩

/-- States and operands that meet the hypotheses of `FabricIdentityWrites`, clause by clause. -/
theorem witness_FabricIdentityWrites :
    (∃ (s : State) (path cycle : Nat) (v : Word), (s.pairReady path Reg.FAB_DEVID v cycle)) ∧
    (∃ (s : State) (path cycle : Nat) (v : Word), (s.pairReady path Reg.FAB_CTRL v cycle) ∧ (bitOf v 0 = true) ∧
      (bitOf v 1 = false) ∧ (s.fab.joined = false)) ∧
    (∃ (s : State) (path cycle : Nat) (v : Word), (s.pairReady path Reg.FAB_CTRL v cycle) ∧ (bitOf v 0 = false) ∧
      (bitOf v 1 = true) ∧ (s.fab.joined = true)) ∧
    (∃ (s : State) (path cycle : Nat) (v : Word), (s.pairReady path Reg.FAB_OWN_ENTRY v cycle)) ∧
    (∃ (s : State) (path vc : Nat) (v : Word), (s.mayWrite path B_FAB = true) ∧ (vc < 8) ∧ ((s.port (s.fld
      F.FAB_PORT_SEL_PORT)).state = .disabled) ∧ ((((s.port (s.fld F.FAB_PORT_SEL_PORT)).vcCfg.set vc (BitVec.ofNat 32
      (bitsOf v 0 12 + at_ 16 (bitsOf v 16 12)))).map (fun x => bitsOf x 0 12 + bitsOf x 16 12)).foldl (· + ·) 0 ≤
      8192)) ∧
    (∃ (s : State) (path : Nat), (s.mayWrite path B_FAB = true)) :=
  ⟨⟨armedWith Reg.FAB_DEVID 0x3FFF, 8, 63, 0x3FFF, pair_of (by decide +kernel)⟩,
   ⟨armedWith Reg.FAB_CTRL 1, 8, 63, 1, pair_of (by decide +kernel), by decide +kernel, by decide +kernel,
     by decide +kernel⟩,
   ⟨armedWith Reg.FAB_CTRL 2 { fab := { joined := true } }, 8, 63, 2, pair_of (by decide +kernel), by decide +kernel,
     by decide +kernel, by decide +kernel⟩,
   ⟨armedWith Reg.FAB_OWN_ENTRY 0, 8, 63, 0, pair_of (by decide +kernel)⟩,
   ⟨{}, 8, 7, 0, by decide +kernel, by decide +kernel, by decide +kernel, by decide +kernel⟩,
   ⟨{}, 8, by decide +kernel⟩⟩

/-- States and operands that meet the hypotheses of `WindowCommits`, clause by clause. -/
theorem witness_WindowCommits :
    (∃ (s : State) (path cycle : Nat) (v : Word), (s.pairReady path Reg.FAB_WIN_COMMIT v cycle) ∧ (bitOf v 0 = true) ∧
      (bitOf v 1 = false) ∧ (s.win.pending = none) ∧ (s.winCommitFails s.win.shadow = none)) ∧
    (∃ (s : State) (path cycle n reason : Nat) (v : Word), (s.pairReady path Reg.FAB_WIN_COMMIT v cycle) ∧ (bitOf v 0
      = true) ∧ (bitOf v 1 = false) ∧ ((if s.win.pending.isSome then some (0, COMMIT_BUSY) else s.winCommitFails
      s.win.shadow) = some (n, reason))) ∧
    (∃ (s : State) (path cycle : Nat) (v : Word), (s.pairReady path Reg.FAB_WIN_COMMIT v cycle) ∧ (bitOf v 0 = false)
      ∧ (bitOf v 1 = true)) ∧
    (∃ (s : State), (s.win.draining = true)) :=
  ⟨⟨armedWith Reg.FAB_WIN_COMMIT 1, 8, 63, 1, pair_of (by decide +kernel), by decide +kernel, by decide +kernel,
     by decide +kernel, by decide +kernel⟩,
   ⟨armedWith Reg.FAB_WIN_COMMIT 1 { win := { pending := some ([], 0) } }, 8, 63, 0, COMMIT_BUSY, 1, pair_of
     (by decide +kernel), by decide +kernel, by decide +kernel, by decide +kernel⟩,
   ⟨armedWith Reg.FAB_WIN_COMMIT 2, 8, 63, 2, pair_of (by decide +kernel), by decide +kernel, by decide +kernel⟩,
   ⟨{ win := { draining := true } }, by decide +kernel⟩⟩

/-- States and operands that meet the hypotheses of `PortStates`, clause by clause. -/
theorem witness_PortStates :
    (∃ (s : State) (path : Nat) (v : Word), (s.mayWrite path B_FAB = true) ∧ (bitsOf v 8 2 ≠ 3) ∧ (bitOf v 0 = true) ∧
      (bitOf v 1 = false) ∧ ((s.port (s.fld F.FAB_PORT_SEL_PORT)).enable = false)) ∧
    (∃ (s : State) (path : Nat) (v : Word), (s.mayWrite path B_FAB = true) ∧ (bitsOf v 8 2 ≠ 3) ∧ (bitOf v 0 = false)
      ∧ (bitOf v 1 = false) ∧ ((s.port (s.fld F.FAB_PORT_SEL_PORT)).enable = true)) ∧
    (∃ (s : State) (path : Nat) (v : Word), (s.mayWrite path B_FAB = true) ∧ (bitsOf v 8 2 ≠ 3) ∧ (bitOf v 0 = true) ∧
      (bitOf v 1 = true) ∧ ((s.port (s.fld F.FAB_PORT_SEL_PORT)).enable = true) ∧ ((s.port (s.fld
      F.FAB_PORT_SEL_PORT)).state = .active ∨ (s.port (s.fld F.FAB_PORT_SEL_PORT)).state = .failed)) ∧
    (∃ (s : State) (n lanes : Nat), ((s.port n).state = .detect) ∧ (4 ≤ lanes)) ∧
    (∃ (s : State) (n lanes : Nat), ((s.port n).state = .train) ∧ (4 ≤ lanes)) ∧
    (∃ (s : State) (n : Nat), ((s.port n).state = .align)) ∧
    (∃ (s : State) (n : Nat), ((s.port n).up = true)) ∧
    (∃ (s : State) (n good w : Nat), ((s.port n).state = .retrain) ∧ (chooseWidth (good % 256) (s.port n).minLanes =
      some w)) ∧
    (∃ (s : State) (n good : Nat), ((s.port n).state = .retrain) ∧ (chooseWidth (good % 256) (s.port n).minLanes =
      none)) ∧
    (∃ (s : State) (n : Nat), ((s.port n).state ∈ [.detect, .train, .align, .init])) ∧
    (∃ (s : State) (n : Nat), ((s.port n).state = .retrain)) ∧
    (∃ (s : State) (n : Nat), ((s.port n).up = true ∨ (s.port n).state = .init)) ∧
    (∃ (s : State) (n : Nat) (p : Packet), (p.type = T_NEIGHBOUR) ∧ ((s.port n).state = .init)) :=
  ⟨⟨{}, 8, 1, by decide +kernel, by decide +kernel, by decide +kernel, by decide +kernel, by decide +kernel⟩,
   ⟨{ fab := { ports := [(0, { enable := true, vcCfg := [] })] } }, 8, 0, by decide +kernel, by decide +kernel,
     by decide +kernel, by decide +kernel, by decide +kernel⟩,
   ⟨{ fab := { ports := [(0, { enable := true, state := .failed, vcCfg := [] })] } }, 8, 3, by decide +kernel,
     by decide +kernel, by decide +kernel, by decide +kernel, by decide +kernel, by decide +kernel⟩,
   ⟨{ fab := { ports := [(0, { state := .detect, vcCfg := [] })] } }, 0, 4, by decide +kernel, by decide +kernel⟩,
   ⟨{ fab := { ports := [(0, { state := .train, vcCfg := [] })] } }, 0, 4, by decide +kernel, by decide +kernel⟩,
   ⟨{ fab := { ports := [(0, { state := .align, vcCfg := [] })] } }, 0, by decide +kernel⟩,
   ⟨{ fab := { ports := [(31, { state := .degraded, vcCfg := [] })] } }, 31, by decide +kernel⟩,
   ⟨{ fab := { ports := [(0, { state := .retrain, vcCfg := [] })] } }, 0, 255, 8, by decide +kernel,
     by decide +kernel⟩,
   ⟨{ fab := { ports := [(0, { state := .retrain, vcCfg := [] })] } }, 0, 0, by decide +kernel, by decide +kernel⟩,
   ⟨{ fab := { ports := [(0, { state := .init, vcCfg := [] })] } }, 0, by decide +kernel⟩,
   ⟨{ fab := { ports := [(0, { state := .retrain, vcCfg := [] })] } }, 0, by decide +kernel⟩,
   ⟨{ fab := { ports := [(0, { state := .init, vcCfg := [] })] } }, 0, by decide +kernel⟩,
   ⟨{ fab := { ports := [(0, { state := .init, vcCfg := [] })] } }, 0, { type := T_NEIGHBOUR }, by decide +kernel,
     by decide +kernel⟩⟩

/-- States and operands that meet the hypotheses of `RegisterWrites`, clause by clause. -/
theorem witness_RegisterWrites :
    (∃ (s : State) (path off : Nat), (s.regs.guards.find path = none) ∧ (inRegs off) ∧ (off % 4 = 0)) ∧
    (∃ (s : State) (path addr len : Nat), (s.regs.guards.find path = none) ∧ (addr < 2 ^ 24) ∧ (blockOf addr <
      blockCount) ∧ (¬(len = 4 ∧ addr % 4 = 0)) ∧ (¬(len = 8 ∧ addr % 8 = 0))) ∧
    (∃ (s t : State) (path addr data cycle : Nat), (addr % 8 = 0) ∧ (exec (.registerWrite path addr 4 data cycle) s =
      .next t)) ∧
    (∃ (s : State) (path addr off k : Nat), (s.regs.guards.find path = none) ∧ (inAlias addr = true) ∧ (addr % 4 = 0)
      ∧ (aliasReg addr = (off, k)) ∧ (inRegs off) ∧ (s.pathMay path off = true) ∧ (accOf off k = some .rwg)) ∧
    (∃ (s : State) (path addr off k cycle : Nat) (data : Word) (t : _), (s.regs.guards.find path = none) ∧ (inAlias
      addr = true) ∧ (addr % 4 = 0) ∧ (aliasReg addr = (off, k)) ∧ (inRegs off) ∧ (s.pathMay path off = true) ∧ (accOf
      off k = some .rw) ∧ (effPlain off cycle (putBits (s.viewWord off) k 1 (boolNat (bitOf data 0))) s = (t, none))) :=
  ⟨⟨{}, 8, Reg.TIK_LEAD, by decide +kernel, inRegs_of (by decide +kernel), by decide +kernel⟩,
   ⟨{}, 8, 0x120002, 4, by decide +kernel, by decide +kernel, by decide +kernel, by decide +kernel, by decide +kernel⟩,
   ⟨{}, _, 8, 0, 0, 63, by decide +kernel, rfl⟩,
   ⟨{}, 8, 0x810100, Reg.TIK_PERIOD, 0, by decide +kernel, by decide +kernel, by decide +kernel, by decide +kernel,
     inRegs_of (by decide +kernel), by decide +kernel, by decide +kernel⟩,
   ⟨{}, 8, 0x810180, Reg.TIK_LEAD, 0, 63, 0, _, by decide +kernel, by decide +kernel, by decide +kernel,
     by decide +kernel, inRegs_of (by decide +kernel), by decide +kernel, by decide +kernel, eq_fb
     (by decide +kernel)⟩⟩

/-- States and operands that meet the hypotheses of `GuardProtocol`, clause by clause. -/
theorem witness_GuardProtocol :
    (∃ (s : State) (path off : Nat), (s.regs.guards.find path = none) ∧ (inRegs off) ∧ (isGuarded off = true) ∧
      (s.pathMay path off = true)) ∧
    (∃ (s : State) (path cycle : Nat) (g : Guard), (s.armed path g.off cycle = some g) ∧ (inRegs g.off) ∧ (inRegs
      (g.off + 4)) ∧ (g.off % 4 = 0) ∧ (s.mayWrite path ((g.off + 4) / 0x10000) = true)) ∧
    (∃ (s : State) (path off cycle : Nat) (g : Guard), (s.regs.guards.find path = some g) ∧ (cycle < g.cycle + 64) ∧
      (inRegs off) ∧ (isGuarded off = true) ∧ (s.pathMay path off = true) ∧ (g.off + 4 ≠ off)) ∧
    (∃ (s : State) (path : Nat) (g : Guard), (s.regs.guards.find path = some g)) ∧
    (∃ (b o : Nat), (o / 0x10000 ≠ b)) ∧
    (∃ (b addr reason : Nat), (b < blockCount) ∧ (addr < 2 ^ 24) ∧ (reason < 2 ^ 16)) :=
  ⟨⟨{}, 8, Reg.TIK_PERIOD, by decide +kernel, inRegs_of (by decide +kernel), by decide +kernel, by decide +kernel⟩,
   ⟨armedWith Reg.TIK_PERIOD 50, 8, 63, ⟨Reg.TIK_PERIOD, 50, 0⟩, by decide +kernel, inRegs_of (by decide +kernel),
     inRegs_of (by decide +kernel), by decide +kernel, by decide +kernel⟩,
   ⟨armedWith Reg.TIK_PERIOD 50, 8, Reg.TIK_LULL, 63, ⟨Reg.TIK_PERIOD, 50, 0⟩, by decide +kernel, by decide +kernel,
     inRegs_of (by decide +kernel), by decide +kernel, by decide +kernel, by decide +kernel⟩,
   ⟨armedWith Reg.TIK_PERIOD 50, 8, ⟨Reg.TIK_PERIOD, 50, 0⟩, by decide +kernel⟩,
   ⟨1, 0x20000, by decide +kernel⟩,
   ⟨18, 0xFFFFFF, 0xFFFF, by decide +kernel, by decide +kernel, by decide +kernel⟩⟩

/-- States and operands that meet the hypotheses of `MailboxOperations`, clause by clause. -/
theorem witness_MailboxOperations :
    (∃ (s : State) (path m : Nat) (v : Word), (m < 16) ∧ (ownsMbx path m = true) ∧ ((s.mbx m).busy = false) ∧ (bitsOf
      v 30 2 = 1)) ∧
    (∃ (s t : State) (path m : Nat) (v : Word) (l : List (Nat × Nat)) (r : Option Nat), (m < 16) ∧ (ownsMbx path m =
      true) ∧ ((s.mbx m).busy = false) ∧ (bitsOf v 30 2 = 2) ∧ ((s.wideValue (bitsOf v 0 16)).isSome = true) ∧
      (s.mayWrite path (bitsOf v 0 16 / 256) = true) ∧ (wideFields (bitsOf v 0 16) = some l) ∧ (s.wideWrite (bitsOf v
      0 16) (keepBits (s.mbx m).data l) = (t, r))) ∧
    (∃ (path m : Nat) (v : Word), (m < 16) ∧ (bitsOf v 30 2 = 2) ∧ (ownsMbx path m = false)) ∧
    (∃ (s : State) (path m : Nat) (v : Word), (m < 16) ∧ (bitsOf v 30 2 = 2) ∧ (ownsMbx path m = true) ∧ ((s.mbx
      m).busy = true)) ∧
    (∃ (s : State) (path m : Nat), (m < 16) ∧ (ownsMbx path m = true) ∧ ((s.mbx m).busy = false) ∧ (s.mayWrite path
      B_TIK = true) ∧ (s.tick.sync = .stopped)) ∧
    (∃ (s : State) (path m : Nat), (m < 16) ∧ (ownsMbx path m = true) ∧ ((s.mbx m).busy = false) ∧ (s.mayWrite path
      B_FAB = true)) ∧
    (∃ (s : State) (m : Nat), ((s.mbx m).busy = true) ∧ ((s.mbx m).result = none)) ∧
    (∃ (s : State) (m code reason : Nat), ((s.mbx m).busy = true) ∧ ((s.mbx m).result = some (code, reason))) ∧
    (∃ (m w : Nat), (m < 16) ∧ (w < 8)) :=
  ⟨⟨{}, 8, 8, 0x40000000, by decide +kernel, by decide +kernel, by decide +kernel, by decide +kernel⟩,
   ⟨{}, _, 8, 8, 0x80000200, [(0, 64)], _, by decide +kernel, by decide +kernel, by decide +kernel, by decide +kernel,
     by decide +kernel, by decide +kernel, by decide +kernel, eq_ff⟩,
   ⟨8, 15, 0x80000000, by decide +kernel, by decide +kernel, by decide +kernel⟩,
   ⟨{ regs := { mbx := [(8, { busy := true })] } }, 8, 8, 0x80000000, by decide +kernel, by decide +kernel,
     by decide +kernel, by decide +kernel⟩,
   ⟨{}, 11, 15, by decide +kernel, by decide +kernel, by decide +kernel, by decide +kernel, by decide +kernel⟩,
   ⟨{}, 8, 8, by decide +kernel, by decide +kernel, by decide +kernel, by decide +kernel⟩,
   ⟨{ regs := { mbx := [(8, { busy := true })] } }, 8, by decide +kernel, by decide +kernel⟩,
   ⟨{ regs := { mbx := [(8, { busy := true, result := some (1, 2) })] } }, 8, 1, 2, by decide +kernel,
     by decide +kernel⟩,
   ⟨15, 7, by decide +kernel, by decide +kernel⟩⟩

/-- States and operands that meet the hypotheses of `ShortTickNames`, clause by clause. -/
theorem witness_ShortTickNames :
    (∃ x low : Nat, x % 2 ^ 32 = low % 2 ^ 32) ∧
    (∃ x low now : Nat, x % 2 ^ 32 = low % 2 ^ 32 ∧ max (nearestTick low now) now - min (nearestTick low now) now =
      max x now - min x now) :=
  ⟨⟨2 ^ 32, 0, by decide +kernel⟩,
   ⟨2 ^ 32, 0, 2 ^ 31, by decide +kernel⟩⟩

/-- States and operands that meet the hypotheses of `TickPackets`, clause by clause. -/
theorem witness_TickPackets :
    (∃ (s : State) (port : Nat) (p : Packet), (p.type = T_TICK) ∧ (¬(s.fld F.FAB_TICK_TREE_PARENT_VALID = 1 ∧ s.fld
      F.FAB_TICK_TREE_PARENT = port))) ∧
    (∃ (s : State) (port : Nat) (p : Packet), (p.type = T_TICK) ∧ (s.fld F.FAB_TICK_TREE_PARENT_VALID = 1) ∧ (s.fld
      F.FAB_TICK_TREE_PARENT = port) ∧ (s.tickSrc ≠ 1)) ∧
    (∃ (s : State) (port : Nat) (p : Packet), (p.type = T_TICK) ∧ (s.fld F.FAB_TICK_TREE_PARENT_VALID = 1) ∧ (s.fld
      F.FAB_TICK_TREE_PARENT = port) ∧ (s.tickSrc = 1) ∧ (s.tick.sync = .locked) ∧ (s.tick.relock = false) ∧ (p.tick ≠
      s.tick.now + 1) ∧ (p.nextPeriodUs = 0) ∧ (p.epochAnn = [])) ∧
    (∃ (s : State) (port : Nat) (p : Packet), (p.type = T_TICK) ∧ (s.fld F.FAB_TICK_TREE_PARENT_VALID = 1) ∧ (s.fld
      F.FAB_TICK_TREE_PARENT = port) ∧ (s.tickSrc = 1) ∧ (s.tick.sync = .locking) ∧ (p.nextPeriodUs = 0) ∧ (p.epochAnn
      = [])) ∧
    (∃ (s : State) (n : Nat), n < 32 ∧ (s.fld F.FAB_TICK_CHILD_CHILD).testBit n = true ∧ (s.port n).up = true) ∧
    (∃ (s : State) (dev e low : Nat), ((s.epochOf dev).accepted ≠ e) ∧ (nearestTick low s.tick.now ≤ s.tick.now)) ∧
    (∃ (s : State) (dev e low : Nat), ((s.epochOf dev).accepted ≠ e) ∧ (s.tick.now < nearestTick low s.tick.now)) :=
  ⟨⟨{}, 0, { type := T_TICK }, by decide +kernel, by decide +kernel⟩,
   ⟨(((State.setFld {} F.FAB_TICK_TREE_PARENT_VALID 1).setFld F.FAB_TICK_TREE_PARENT 31).setFld F.TIK_CTRL_SRC 0), 31,
     { type := T_TICK }, by decide +kernel, by decide +kernel, by decide +kernel, by decide +kernel⟩,
   ⟨(((State.setFld { tick := { sync := .locked } } F.FAB_TICK_TREE_PARENT_VALID 1).setFld F.FAB_TICK_TREE_PARENT
     31).setFld F.TIK_CTRL_SRC 1), 31, { type := T_TICK }, by decide +kernel, by decide +kernel, by decide +kernel,
     by decide +kernel, by decide +kernel, by decide +kernel, by decide +kernel, by decide +kernel, by decide +kernel⟩,
   ⟨(((State.setFld { tick := { sync := .locking } } F.FAB_TICK_TREE_PARENT_VALID 1).setFld F.FAB_TICK_TREE_PARENT
     31).setFld F.TIK_CTRL_SRC 1), 31, { type := T_TICK }, by decide +kernel, by decide +kernel, by decide +kernel,
     by decide +kernel, by decide +kernel, by decide +kernel, by decide +kernel⟩,
   ⟨State.setFld { fab := { ports := [(31, { state := .active, vcCfg := [] })] } } F.FAB_TICK_CHILD_CHILD (2 ^ 31),
     31, by decide +kernel⟩,
   ⟨{}, 0x3FFF, 255, 0, by decide +kernel, by decide +kernel⟩,
   ⟨{}, 0x3FFF, 255, 1, by decide +kernel, by decide +kernel⟩⟩

/-- States and operands that meet the hypotheses of `PlanDescriptors`, clause by clause. -/
theorem witness_PlanDescriptors :
    (∃ (s s1 s2 : State) (tok : Nat) (d : Desc) (segs : List (List Seg)) (ext l rest : List Byte) (poison : Bool),
      (s.granted tok 0xF0 d [⟨dfield d.bits 16 8, dfield d.bits 24 4, 1, false⟩] s1 segs) ∧ (State.readSegs d
      (segs.headD []) ext (s1.begun tok d) = (s2, l, poison, rest))) ∧
    (∃ (s : State) (l : List Byte) (len n start : Nat) (q : Plan), (parsePlan l len n start = some q) ∧ (q.periodUs ≠
      s.periodAt start)) ∧
    (∃ (s : State) (l : List Byte) (len n start : Nat) (q : Plan), (parsePlan l len n start = some q) ∧ (q.periodUs =
      s.periodAt start) ∧ (start < s.tick.now + 2)) ∧
    (∃ (s : State) (tok : Nat) (d : Desc), (s.ready tok 0xF1 d)) :=
  ⟨⟨served (nDesc 0xF0 (atB 24 192)), _, _, 0, nDesc 0xF0 (atB 24 192), _, [], _, _, _, granted_of
     (by decide +kernel), eq_ffff⟩,
   ⟨{}, planBytes, 192, 63, 2, _, some_of (by decide +kernel), by decide +kernel⟩,
   ⟨State.setFld {} F.TIK_PERIOD_PERIOD_US 50, planBytes, 192, 63, 1, _, some_of (by decide +kernel),
     by decide +kernel, by decide +kernel⟩,
   ⟨withDesc (nDesc 0xF1), 0, nDesc 0xF1, ready_of (by decide +kernel)⟩⟩

/-- States and operands that meet the hypotheses of `BoundariesAndRounds`, clause by clause. -/
theorem witness_BoundariesAndRounds :
    (∃ (s : State), (s.units.lostDies.contains 0x50 = true)) ∧
    (∃ (s : State) (t : Nat), (s.units.lostDies.contains 0x50 = false) ∧ (s.tick.sync ≠ .stopped) ∧ ((s.tickSrc = 2 →
      s.tick.sync = .lost ∨ s.tick.edgeDue = true)) ∧ (s.nextBoundary = some t)) ∧
    (∃ (s : State), (s.units.lostDies.contains 0x50 = false) ∧ (s.tick.sync ≠ .stopped) ∧ ((s.tickSrc = 2 →
      s.tick.sync = .lost ∨ s.tick.edgeDue = true)) ∧ (s.nextBoundary = none)) ∧
    (∃ (s : State), (s.tick.relock = false)) ∧
    (∃ (s : State) (t : _), (s.nextBoundary = some t)) ∧
    (∃ (s : State) (t : Nat), (s.tick.now < t)) ∧
    (∃ (s : State) (t : Nat), (s.tick.now < t) ∧ (s.fld F.TIK_CTRL_TICK_OUT_EN = 1)) ∧
    (∃ (s : State), (s.units.lostDies.contains 0x50 = false) ∧ (s.tick.sync = .stopped)) ∧
    (∃ (s : State), (s.units.lostDies.contains 0x50 = false) ∧ (s.tick.sync ≠ .stopped) ∧ (s.tick.relock = false) ∧
      (s.tick.closed ≤ s.tick.now)) ∧
    (∃ (d : Desc), (d.piece = false)) :=
  ⟨⟨{ units := { lostDies := [0x50] } }, by decide +kernel⟩,
   ⟨{ tick := { sync := .free } }, 1, by decide +kernel, by decide +kernel, by decide +kernel, by decide +kernel⟩,
   ⟨{ tick := { sync := .locked, relock := true, now := 5 } }, by decide +kernel, by decide +kernel,
     by decide +kernel, by decide +kernel⟩,
   ⟨{}, by decide +kernel⟩,
   ⟨{}, 1, by decide +kernel⟩,
   ⟨{}, 1, by decide +kernel⟩,
   ⟨State.setFld {} F.TIK_CTRL_TICK_OUT_EN 1, 1, by decide +kernel, by decide +kernel⟩,
   ⟨{}, by decide +kernel, by decide +kernel⟩,
   ⟨{ tick := { sync := .free, closed := 7, now := 7 } }, by decide +kernel, by decide +kernel, by decide +kernel,
     by decide +kernel⟩,
   ⟨tDesc 4, by decide +kernel⟩⟩

/-- States and operands that meet the hypotheses of `RequestPacketsServed`, clause by clause. -/
theorem witness_RequestPacketsServed :
    (∃ (s : State) (p : Packet), (s.forMe p) ∧ (s.servable p) ∧ (p.type = T_LOAD)) ∧
    (∃ (s : State) (p : Packet), (s.forMe p) ∧ (s.servable p) ∧ (p.type = T_BULK_GET)) ∧
    (∃ (s : State) (p : Packet), (s.forMe p) ∧ (s.servable p) ∧ (p.type = T_ACC_READ)) ∧
    (∃ (s s1 : State) (p : Packet), (s.forMe p) ∧ (s.seqCheck p = none) ∧ (s.epochCheck p = (s1, true)) ∧ (s1.servable
      p) ∧ (p.type = T_STORE)) ∧
    (∃ (s s1 : State) (p : Packet), (s.forMe p) ∧ (s.seqCheck p = none) ∧ (s.epochCheck p = (s1, true)) ∧ (s1.servable
      p) ∧ (p.type = T_BULK_PUT)) ∧
    (∃ (s s1 : State) (p : Packet), (s.forMe p) ∧ (s.seqCheck p = none) ∧ (s.epochCheck p = (s1, true)) ∧ (s1.servable
      p) ∧ (p.type = T_ATOMIC)) ∧
    (∃ (s s1 : State) (p : Packet), (s.forMe p) ∧ (s.seqCheck p = none) ∧ (s.epochCheck p = (s1, true)) ∧ (s1.servable
      p) ∧ (p.type = T_ACC_ADD)) ∧
    (∃ (s s1 : State) (p : Packet), (s.forMe p) ∧ (s.seqCheck p = none) ∧ (s.epochCheck p = (s1, true)) ∧ (s1.servable
      p) ∧ (p.type = T_FLAGGED_STORE) ∧ (s1.turnOf p = true) ∧ (formatFails p = none)) ∧
    (∃ (s s1 : State) (p : Packet), (s.forMe p) ∧ (s.seqCheck p = none) ∧ (s.epochCheck p = (s1, true)) ∧ (p.type =
      T_FLAGGED_STORE) ∧ (s1.turnOf p = false) ∧ (formatFails p = none) ∧ (s1.ord.held.length < 4096)) ∧
    (∃ (s : State) (p : Packet), (s.fab.joined = true) ∧ (p.type = T_MC_PUT) ∧ (mcValid (s.mcast p.dest) = true) ∧
      (mcChild (s.mcast p.dest) = 0) ∧ (mcLocal (s.mcast p.dest) = true) ∧ (p.crcOk = true) ∧ (s.servable p)) ∧
    (∃ (s : State) (p : Packet), (s.forMe p) ∧ (p.type = T_STORE) ∧ (s.seqCheck p = some SEQ_STALE)) ∧
    (∃ (s s1 : State) (p : Packet), (s.forMe p) ∧ (p.type = T_STORE) ∧ (s.seqCheck p = none) ∧ (s.epochCheck p = (s1,
      false))) ∧
    (∃ (s : State) (st r : Nat) (p : Packet), (s.forMe p) ∧ (p.type = T_LOAD) ∧ (s.inboundFails p (s.window (faWindow
      p.addr)) p.src = some (st, r))) :=
  ⟨⟨joinedState, pkt T_LOAD 256, forMe_of (by decide +kernel), servable_of (by decide +kernel), by decide +kernel⟩,
   ⟨joinedState, pkt T_BULK_GET 65536, forMe_of (by decide +kernel), servable_of (by decide +kernel),
     by decide +kernel⟩,
   ⟨joinedState, { pkt T_ACC_READ 0 with op := 0x18, operand := 48 }, forMe_of (by decide +kernel), servable_of
     (by decide +kernel), by decide +kernel⟩,
   ⟨joinedState, _, pkt T_STORE, forMe_of (by decide +kernel), by decide +kernel, eq_fb (by decide +kernel),
     servable_of (by decide +kernel), by decide +kernel⟩,
   ⟨joinedState, _, pkt T_BULK_PUT 4096, forMe_of (by decide +kernel), by decide +kernel, eq_fb (by decide +kernel),
     servable_of (by decide +kernel), by decide +kernel⟩,
   ⟨joinedState, _, { pkt T_ATOMIC 8 with op := 1 }, forMe_of (by decide +kernel), by decide +kernel, eq_fb
     (by decide +kernel), servable_of (by decide +kernel), by decide +kernel⟩,
   ⟨joinedState, _, { pkt T_ACC_ADD 4 with op := 0x10, operand := 1 }, forMe_of (by decide +kernel),
     by decide +kernel, eq_fb (by decide +kernel), servable_of (by decide +kernel), by decide +kernel⟩,
   ⟨joinedState, _, pkt T_FLAGGED_STORE, forMe_of (by decide +kernel), by decide +kernel, eq_fb (by decide +kernel),
     servable_of (by decide +kernel), by decide +kernel, by decide +kernel, by decide +kernel⟩,
   ⟨joinedState, _, { pkt T_FLAGGED_STORE with wsnSeq := 1023 }, forMe_of (by decide +kernel), by decide +kernel,
     eq_fb (by decide +kernel), by decide +kernel, by decide +kernel, by decide +kernel, by decide +kernel⟩,
   ⟨{ joinedState with
         fab := { joined := true, devidSet := true, mcast := [(0, BitVec.ofNat 64 (2 ^ 63 + 2 ^ 32))] } },
     { pkt T_MC_PUT with dest := 0x8000 }, by decide +kernel, by decide +kernel, by decide +kernel, by decide +kernel,
     by decide +kernel, by decide +kernel, servable_of (by decide +kernel)⟩,
   ⟨joinedState, { pkt T_STORE with wsnSeq := 2 ^ 24 - 1 }, forMe_of (by decide +kernel), by decide +kernel,
     by decide +kernel⟩,
   ⟨{ joinedState with ord := { track := [(0xC001, { gen := 0, mark := 0 })] } }, _,
     { pkt T_STORE with src := 0xC001, epoch := 1 }, forMe_of (by decide +kernel), by decide +kernel,
     by decide +kernel, eq_fb (by decide +kernel)⟩,
   ⟨joinedState, ST_PERMISSION, PKT_FORMAT, pkt T_LOAD 65, forMe_of (by decide +kernel), by decide +kernel,
     by decide +kernel⟩⟩

/-- States and operands that meet the hypotheses of `RequestEffectsAtHome`, clause by clause. -/
theorem witness_RequestEffectsAtHome :
    (∃ (p : Packet), (p.type = T_LOAD)) ∧
    (∃ (t : State) (p : Packet) (d : Nat), (p.type = T_ATOMIC) ∧ (t.readsPoison (lineOf d) = true)) ∧
    (∃ (t u : State) (p : Packet) (k d old : Nat), (p.type = T_ATOMIC) ∧ (t.readsPoison (lineOf d) = false) ∧
      (p.credit = false) ∧ (leNat (t.homeBytes k d p.length) = old) ∧ (t.homeWrite (.packet p) k d (leBytes p.length
      (atomicValue p.op p.length old p.operand p.compare)) = u)) ∧
    (∃ (p : Packet), (p.type = T_STORE ∨ p.type = T_FLAGGED_STORE) ∧ (p.credit = false)) ∧
    (∃ (p : Packet), (p.type = T_BULK_PUT ∨ p.type = T_MC_PUT) ∧ (p.credit = false)) ∧
    (∃ (p : Packet), (p.type = T_ACC_ADD)) ∧
    (∃ (p : Packet), (p.type = T_ACC_READ)) :=
  ⟨⟨pkt T_LOAD, by decide +kernel⟩,
   ⟨{ mem := { poison := [0] } }, pkt T_ATOMIC 8, 0, by decide +kernel, by decide +kernel⟩,
   ⟨{}, _, pkt T_ATOMIC 8, 0, 0, _, by decide +kernel, by decide +kernel, by decide +kernel, rfl, rfl⟩,
   ⟨pkt T_FLAGGED_STORE, by decide +kernel, by decide +kernel⟩,
   ⟨pkt T_MC_PUT, by decide +kernel, by decide +kernel⟩,
   ⟨pkt T_ACC_ADD, by decide +kernel⟩,
   ⟨pkt T_ACC_READ, by decide +kernel⟩⟩

/-- States and operands that meet the hypotheses of `FlaggedRequests`, clause by clause. -/
theorem witness_FlaggedRequests :
    (∃ (s s1 : State) (p : Packet), (s.forMe p) ∧ (s.seqCheck p = none) ∧ (s.epochCheck p = (s1, true)) ∧ (p.type =
      T_SUBMIT) ∧ (formatFails p = none) ∧ (s1.turnOf p = true) ∧ ((s1.subq (p.addr % 256)).state = .active) ∧ (p.src
      &&& sqSrcMask (s1.subq (p.addr % 256)).record = sqSrcMatch (s1.subq (p.addr % 256)).record &&& sqSrcMask
      (s1.subq (p.addr % 256)).record) ∧ (dOpcode (BitVec.ofNat 512 (leNat p.data)) ≠ 0)) ∧
    (∃ (s s1 : State) (p : Packet), (s.forMe p) ∧ (s.seqCheck p = none) ∧ (s.epochCheck p = (s1, true)) ∧ (p.type =
      T_OWN) ∧ (s1.inboundFails p (s1.window (faWindow p.addr)) p.src = none) ∧ (s1.turnOf p = true) ∧ (p.op = 1) ∧
      ((s1.granule (s1.ownGranule p)).2 = 0 ∨ s1.granule (s1.ownGranule p) = (p.src, 1))) ∧
    (∃ (s s1 : State) (p : Packet), (s.forMe p) ∧ (s.seqCheck p = none) ∧ (s.epochCheck p = (s1, true)) ∧ (p.type =
      T_OWN) ∧ (s1.inboundFails p (s1.window (faWindow p.addr)) p.src = none) ∧ (s1.turnOf p = true) ∧ (p.op = 2) ∧
      (s1.granule (s1.ownGranule p) = (p.src, 1))) ∧
    (∃ (s s1 : State) (p : Packet), (s.forMe p) ∧ (s.seqCheck p = none) ∧ (s.epochCheck p = (s1, true)) ∧ (p.type =
      T_OWN) ∧ (s1.inboundFails p (s1.window (faWindow p.addr)) p.src = none) ∧ (s1.turnOf p = true) ∧ (p.op = 3) ∧
      (s1.granule (s1.ownGranule p) = (p.src, 1))) ∧
    (∃ (s s1 : State) (p : Packet), (s.forMe p) ∧ (s.seqCheck p = none) ∧ (s.epochCheck p = (s1, true)) ∧ (p.type =
      T_OWN) ∧ (s1.inboundFails p (s1.window (faWindow p.addr)) p.src = none) ∧ (s1.turnOf p = true) ∧ (p.op = 3) ∧
      ((s1.granule (s1.ownGranule p)).2 = 0)) ∧
    (∃ (s : State) (p : Packet), (s.forMe p) ∧ (p.type = T_SEQ_SYNC)) ∧
    (∃ (s : State) (p : Packet), (s.forMe p) ∧ (p.type = T_SEQ_SYNC) ∧ ((∀ h ∈ s.ord.held, h.pkt.src ≠ p.src))) :=
  ⟨⟨{ joinedState with rings := { subqs := [(255, { state := .active })] } }, _,
     { pkt T_SUBMIT with addr := 255, data := leBytes 64 2 }, forMe_of (by decide +kernel), by decide +kernel, eq_fb
     (by decide +kernel), by decide +kernel, by decide +kernel, by decide +kernel, by decide +kernel,
     by decide +kernel, by decide +kernel⟩,
   ⟨joinedState, _, { pkt T_OWN 0 with op := 1 }, forMe_of (by decide +kernel), by decide +kernel, eq_fb
     (by decide +kernel), by decide +kernel, by decide +kernel, by decide +kernel, by decide +kernel,
     by decide +kernel⟩,
   ⟨{ joinedState with fab := { joined := true, devidSet := true, own := [(0, 1, 1)] } }, _,
     { pkt T_OWN 0 with op := 2 }, forMe_of (by decide +kernel), by decide +kernel, eq_fb (by decide +kernel),
     by decide +kernel, by decide +kernel, by decide +kernel, by decide +kernel, by decide +kernel⟩,
   ⟨{ joinedState with fab := { joined := true, devidSet := true, own := [(0, 1, 1)] } }, _,
     { pkt T_OWN 0 with op := 3 }, forMe_of (by decide +kernel), by decide +kernel, eq_fb (by decide +kernel),
     by decide +kernel, by decide +kernel, by decide +kernel, by decide +kernel, by decide +kernel⟩,
   ⟨joinedState, _, { pkt T_OWN 0 with op := 3 }, forMe_of (by decide +kernel), by decide +kernel, eq_fb
     (by decide +kernel), by decide +kernel, by decide +kernel, by decide +kernel, by decide +kernel,
     by decide +kernel⟩,
   ⟨joinedState, pkt T_SEQ_SYNC, forMe_of (by decide +kernel), by decide +kernel⟩,
   ⟨joinedState, pkt T_SEQ_SYNC, forMe_of (by decide +kernel), by decide +kernel, by decide +kernel⟩⟩

/-- States and operands that meet the hypotheses of `ResponsesAndTimeouts`, clause by clause. -/
theorem witness_ResponsesAndTimeouts :
    (∃ (s : State) (p : Packet) (r : Request), (s.forMe p) ∧ (s.fab.outstanding.find p.tag = some r) ∧ (r.gen = p.gen)
      ∧ (r.expect ≤ 1) ∧ (r.status = ST_OK) ∧ (p.type = T_READ_DATA)) ∧
    (∃ (s : State) (p : Packet) (r : Request), (s.forMe p) ∧ (s.fab.outstanding.find p.tag = some r) ∧ (r.gen = p.gen)
      ∧ (r.expect ≤ 1) ∧ (r.status = ST_OK) ∧ (p.type = T_BULK_DATA)) ∧
    (∃ (s : State) (p : Packet) (r : Request), (s.forMe p) ∧ (s.fab.outstanding.find p.tag = some r) ∧ (r.gen = p.gen)
      ∧ (r.expect ≤ 1) ∧ (r.status = ST_OK) ∧ (p.type = T_ACK)) ∧
    (∃ (s : State) (p : Packet) (r : Request), (s.forMe p) ∧ (s.fab.outstanding.find p.tag = some r) ∧ (r.gen = p.gen)
      ∧ (1 < r.expect) ∧ (p.type = T_BULK_DATA) ∧ (p.status ≠ ST_OK) ∧ (r.status = ST_OK)) ∧
    (∃ (s : State) (p : Packet), (s.forMe p) ∧ (s.fab.outstanding.find p.tag = none) ∧ (p.type = T_ACK)) ∧
    (∃ (s : State) (tag : Nat) (r : Request), (s.fab.outstanding.find tag = some r)) ∧
    (∃ (s : State) (src seq : Nat) (h : Held), (s.ord.held.find? (fun h => h.pkt.src == src && h.pkt.wsnSeq == seq) =
      some h)) ∧
    (∃ (s : State) (k : Nat) (p : Packet), (s.fab.parked[k]? = some p) ∧ (s.hasRoute p.dest = true)) ∧
    (∃ (s : State) (n : Nat), ((s.port n).up = false) ∧ ((s.port n).state ≠ .init)) ∧
    (∃ (s : State) (n : Nat) (f : Frame), ((s.port n).up = true) ∧ (f.fecOk = false ∨ f.crcOk = false)) ∧
    (∃ (s : State) (n : Nat) (f : Frame), ((s.port n).up = true) ∧ (f.fecOk = true) ∧ (f.crcOk = true) ∧ (f.seq % 4096
      = (s.port n).rxNext) ∧ (f.ackValid = false)) :=
  ⟨⟨{ joinedState with fab := { joined := true, devidSet := true, outstanding := [(0, request)] } }, pkt T_READ_DATA,
     request, forMe_of (by decide +kernel), by decide +kernel, by decide +kernel, by decide +kernel,
     by decide +kernel, by decide +kernel⟩,
   ⟨{ joinedState with fab := { joined := true, devidSet := true, outstanding := [(0, request)] } }, pkt T_BULK_DATA,
     request, forMe_of (by decide +kernel), by decide +kernel, by decide +kernel, by decide +kernel,
     by decide +kernel, by decide +kernel⟩,
   ⟨{ joinedState with fab := { joined := true, devidSet := true, outstanding := [(0, request)] } }, pkt T_ACK,
     request, forMe_of (by decide +kernel), by decide +kernel, by decide +kernel, by decide +kernel,
     by decide +kernel, by decide +kernel⟩,
   ⟨{ joinedState with
         fab := { joined := true, devidSet := true, outstanding := [(0, { request with expect := 2 })] } },
     { pkt T_BULK_DATA with status := 1 }, { request with expect := 2 }, forMe_of (by decide +kernel),
     by decide +kernel, by decide +kernel, by decide +kernel, by decide +kernel, by decide +kernel, by decide +kernel⟩,
   ⟨joinedState, pkt T_ACK, forMe_of (by decide +kernel), by decide +kernel, by decide +kernel⟩,
   ⟨{ fab := { outstanding := [(0, request)] } }, 0, request, by decide +kernel⟩,
   ⟨{ ord := { held := [⟨pkt T_FLAGGED_STORE, none⟩] } }, 1, 0, ⟨pkt T_FLAGGED_STORE, none⟩, by decide +kernel⟩,
   ⟨{ fab := { parked := [pkt T_LOAD], route := [(0xC000, 2 ^ 63)] } }, 0, pkt T_LOAD, by decide +kernel,
     by decide +kernel⟩,
   ⟨{}, 0, by decide +kernel, by decide +kernel⟩,
   ⟨{ fab := { ports := [(0, { state := .active, vcCfg := [] })] } }, 0, { seq := 0, fecOk := false },
     by decide +kernel, by decide +kernel⟩,
   ⟨{ fab := { ports := [(0, { state := .active, vcCfg := [] })] } }, 0, { seq := 4096 }, by decide +kernel,
     by decide +kernel, by decide +kernel, by decide +kernel, by decide +kernel⟩⟩

/-- States and operands that meet the hypotheses of `HostRequests`, clause by clause. -/
theorem witness_HostRequests :
    (∃ (s : State) (port dec off line slot : Nat), (s.hostReaches port dec off line slot) ∧ (s.coherent (64 * line) =
      false)) ∧
    (∃ (s s1 : State) (port dec off line slot : Nat) (m : MetaVal), (s.hostReaches port dec off line slot) ∧
      (s.coherent (64 * line) = true) ∧ (s.dir.domain = .up) ∧ (s.makeRoom line = (s1, true)) ∧ (m ≠ .invalid) ∧
      (s.hostNeeds (.host port line slot (.rd m)) port line (.rd m) = none)) ∧
    (∃ (s : State) (port dec off line slot : Nat) (m : MetaVal) (data : List Byte) (mask : Nat), (s.hostReaches port
      dec off line slot) ∧ (s.coherent (64 * line) = true) ∧ (s.dir.domain = .up) ∧ (s.hostNeeds (.host port line slot
      (.wr m data mask)) port line (.wr m data mask) = none)) ∧
    (∃ (s : State) (port dec off line slot : Nat) (m : MetaVal) (snp : Snp) (hosts : Nat), (s.hostReaches port dec off
      line slot) ∧ (s.coherent (64 * line) = true) ∧ (s.dir.domain = .up) ∧ (s.anyHold [line] = false) ∧ (s.hostNeeds
      (.host port line slot (.rd m)) port line (.rd m) = some (snp, hosts)) ∧ ((s.openRecall line snp hosts).anyHold
      [line] = false)) ∧
    (∃ (s : State) (port dec : Nat), (dec ≠ 2) ∧ (s.sec.conf.has port = true)) ∧
    (∃ (s : State) (port dec off : Nat), (dec ≠ 2) ∧ (s.sec.conf.has port = false) ∧ (s.findExt port dec (off /
      extentSize) = none)) ∧
    (∃ (s : State) (port off len : Nat), (0 < len) ∧ (off % 64 + len ≤ 64) ∧ (¬ s.decGib port 0 * extentSize ≤ off)) :=
  ⟨⟨hostState 0x40000000, 0, 0, 63, 0, 0, reaches_of 0 0x40000000 (by decide +kernel), by decide +kernel⟩,
   ⟨hostState 0x42000000, _, 0, 1, 0, 0, 0, .any, reaches_of 0 0x42000000 (by decide +kernel), by decide +kernel,
     by decide +kernel, eq_fb (by decide +kernel), by decide +kernel, by decide +kernel⟩,
   ⟨hostState 0x42000000, 0, 1, 0, 0, 0, .invalid, [], 0, reaches_of 0 0x42000000 (by decide +kernel),
     by decide +kernel, by decide +kernel, by decide +kernel⟩,
   ⟨{ hostState 0x42000000 with dir := { entries := [(0, ⟨.owned 1, false, 0⟩)] } }, 0, 1, 0, 0, 0, .shared, .data, 2,
     reaches_of 0 0x42000000 (by decide +kernel), by decide +kernel, by decide +kernel, by decide +kernel,
     by decide +kernel, by decide +kernel⟩,
   ⟨{ sec := { conf := [(7, 0)] } }, 7, 1, by decide +kernel, by decide +kernel⟩,
   ⟨{}, 0, 0, 0, by decide +kernel, by decide +kernel, by decide +kernel⟩,
   ⟨{ host := { ports := [(0, { layout := 1 })] } }, 0, 63, 1, by decide +kernel, by decide +kernel,
     by decide +kernel⟩⟩

/-- States and operands that meet the hypotheses of `RecallsAndDomain`, clause by clause. -/
theorem witness_RecallsAndDomain :
    (∃ (s : State) (port line g n : Nat) (r : Recall) (hold : Bool), (s.dir.recalls.find line = some r) ∧ (r.hosts = 2
      ^ port) ∧ (port < 8) ∧ (r.snp = .inv) ∧ (r.evict = false) ∧ (s.dir.entries.find line = some
      { kind := .owned g, hold := hold, granted := n }) ∧ (g = port)) ∧
    (∃ (s : State) (port line : Nat) (r : Recall), (s.dir.recalls.find line = some r) ∧ (r.hosts.testBit port = true)
      ∧ (othersOf r.hosts port ≠ 0) ∧ (r.snp = .inv)) ∧
    (∃ (s : State) (port line n : Nat) (r : Recall) (hold : Bool), (s.dir.recalls.find line = some r) ∧ (r.hosts = 2 ^
      port) ∧ (port < 8) ∧ (r.snp = .data) ∧ (r.evict = false) ∧ (s.dir.entries.find line = some
      { kind := .owned port, hold := hold, granted := n })) ∧
    (∃ (s : State) (port line : Nat) (r : Recall), (s.dir.recalls.find line = some r) ∧ (r.hosts.testBit port = true)) ∧
    (∃ (s : State) (line : Nat) (e : DirEntry), (s.dir.entries.find line = some e) ∧ (e.hold = true)) ∧
    (∃ (s : State) (port line : Nat) (r : Recall), (s.dir.recalls.find line = some r) ∧ (r.hosts.testBit port = true)
      ∧ (s.dir.domain = .up)) ∧
    (∃ (s : State), (s.dir.domain = .walking) ∧ (s.dir.entries = [])) ∧
    (∃ (s : State) (line h n : Nat) (hold : Bool), (s.dir.domain = .walking) ∧ (s.dir.entries = [(line, ⟨.owned h,
      hold, n⟩)]) ∧ (s.holdsWrites (64 * line) = false)) ∧
    (∃ (s : State) (path cycle : Nat) (v : Word), (s.pairReady path Reg.DIR_DOMAIN_RESET v cycle) ∧ (v.getLsbD 0 =
      true)) :=
  ⟨⟨{ dir := { recalls := [(0, { snp := .inv, hosts := 2 ^ 7 })], entries := [(0, ⟨.owned 7, false, 0⟩)] } }, 7, 0, 7,
     0, { snp := .inv, hosts := 2 ^ 7 }, false, by decide +kernel, by decide +kernel, by decide +kernel,
     by decide +kernel, by decide +kernel, by decide +kernel, by decide +kernel⟩,
   ⟨{ dir := { recalls := [(0, { snp := .inv, hosts := 3 })] } }, 1, 0, { snp := .inv, hosts := 3 },
     by decide +kernel, by decide +kernel, by decide +kernel, by decide +kernel⟩,
   ⟨{ dir := { recalls := [(0, { snp := .data, hosts := 1 })], entries := [(0, ⟨.owned 0, false, 0⟩)] } }, 0, 0, 0,
     { snp := .data, hosts := 1 }, false, by decide +kernel, by decide +kernel, by decide +kernel, by decide +kernel,
     by decide +kernel, by decide +kernel⟩,
   ⟨{ dir := { recalls := [(0, { snp := .cur, hosts := 1 })] } }, 0, 0, { snp := .cur, hosts := 1 },
     by decide +kernel, by decide +kernel⟩,
   ⟨{ dir := { entries := [(0, ⟨.shared 1, true, 0⟩)] } }, 0, ⟨.shared 1, true, 0⟩, by decide +kernel,
     by decide +kernel⟩,
   ⟨{ dir := { recalls := [(0, { snp := .cur, hosts := 1 })] } }, 0, 0, { snp := .cur, hosts := 1 },
     by decide +kernel, by decide +kernel, by decide +kernel⟩,
   ⟨{ dir := { domain := .walking } }, by decide +kernel, by decide +kernel⟩,
   ⟨{ dir := { domain := .walking, entries := [(0, ⟨.owned 0, false, 0⟩)] } }, 0, 0, 0, false, by decide +kernel,
     by decide +kernel, by decide +kernel⟩,
   ⟨armedWith Reg.DIR_DOMAIN_RESET 1, 8, 63, 1, pair_of (by decide +kernel), by decide +kernel⟩⟩

/-- States and operands that meet the hypotheses of `HostRegisters`, clause by clause. -/
theorem witness_HostRegisters :
    (∃ (s : State) (path cycle : Nat) (v : Word), (s.pairReady path Reg.HIF_EXT_ENTRY v cycle) ∧ (extDec v ≠ 3) ∧
      (extState (s.ext (s.fld F.HIF_EXT_SEL_EXT)) = EXT_FREE) ∧ (extState v = EXT_ACTIVE)) ∧
    (∃ (s : State) (path cycle : Nat) (v : Word), (s.pairReady path Reg.HIF_EXT_ENTRY v cycle) ∧ (extDec v ≠ 3) ∧
      (extState (s.ext (s.fld F.HIF_EXT_SEL_EXT)) = EXT_ACTIVE) ∧ (extState v = EXT_REVOKING)) ∧
    (∃ (s : State) (ext : Nat), (extState (s.ext ext) = EXT_REVOKING) ∧ (s.extBusy ext = false)) ∧
    (∃ (s : State) (path cycle : Nat) (v : Word), (s.pairReady path Reg.HIF_LAYOUT v cycle) ∧ (bitsOf v 0 11 ≤ 1152) ∧
      (bitsOf v 22 10 ≤ 512)) ∧
    (∃ (s : State) (path cycle : Nat) (v : Word), (s.pairReady path Reg.HIF_PORT_CFG v cycle) ∧ (s.sliceExists (bitsOf
      v 0 6) = true) ∧ (s.host.ext.any (fun _ e => extInUse e && extPort e == s.fld F.HIF_PORT_SEL_PORT && decide
      (extDec e < 2)) = false)) ∧
    (∃ (dec : Nat), (dec < 3)) ∧
    (∃ (s : State) (path cycle : Nat) (v : Word), (s.pairReady path Reg.HIF_SHR_COMMIT v cycle) ∧ (v.getLsbD 0 = true)
      ∧ (shValid (s.shrLive (s.fld F.HIF_SHR_SEL_RANGE)) = false) ∧ (shValid (s.host.shrDesc.get 0 (s.fld
      F.HIF_SHR_SEL_RANGE)) = true)) ∧
    (∃ (s : State) (range granule : Nat) (c : Cow), ((s.shared range).cows.find? (fun c => c.granule == granule) =
      some c) ∧ ((s.shared range).slots.find (s.shared range).draft = none)) ∧
    (∃ (s : State) (range granule : Nat) (c : Cow) (sl : ShrSlot), ((s.shared range).cows.find? (fun c => c.granule ==
      granule) = some c) ∧ ((s.shared range).slots.find (s.shared range).draft = some sl) ∧ (s.shrAddr range c.spare 0
      = none) ∧ (c.held = [])) ∧
    (∃ (s t : State) (range granule a b : Nat) (c : Cow) (sl : ShrSlot) (w w' : Word), ((s.shared range).cows.find?
      (fun c => c.granule == granule) = some c) ∧ (c.held = []) ∧ ((s.shared range).slots.find (s.shared range).draft
      = some sl) ∧ (s.shrAddr range (sl.phys granule) 0 = some (a, w)) ∧ (s.shrAddr range c.spare 0 = some (b, w')) ∧
      (((List.range 1024).filter (fun i => s.readsPoison (lineOf a + i))).foldl (fun s i => s.markPoison .none (lineOf
      b + i)) (s.homeWrite .none (shKey (s.shrLive range)) b (s.homeRead (shKey (s.shrLive range)) a 65536).1) = t)) :=
  ⟨⟨armedWith Reg.HIF_EXT_ENTRY 0x40000000, 8, 63, 0x40000000, pair_of (by decide +kernel), by decide +kernel,
     by decide +kernel, by decide +kernel⟩,
   ⟨armedWith Reg.HIF_EXT_ENTRY 0x80000000 (hostState 0x40000000), 8, 63, 0x80000000, pair_of (by decide +kernel),
     by decide +kernel, by decide +kernel, by decide +kernel⟩,
   ⟨hostState 0x80000000, 0, by decide +kernel, by decide +kernel⟩,
   ⟨armedWith Reg.HIF_LAYOUT 0x80000480, 8, 63, 0x80000480, pair_of (by decide +kernel), by decide +kernel,
     by decide +kernel⟩,
   ⟨armedWith Reg.HIF_PORT_CFG 0 { slices := { committed := [(0, 1)] } }, 8, 63, 0, pair_of (by decide +kernel),
     by decide +kernel, by decide +kernel⟩,
   ⟨2, by decide +kernel⟩,
   ⟨armedWith Reg.HIF_SHR_COMMIT 1 { host := { shrDesc := [(0, 1)] } }, 8, 63, 1, pair_of (by decide +kernel),
     by decide +kernel, by decide +kernel, by decide +kernel⟩,
   ⟨{ host := { shr := [(63, { cows := [⟨0, 1, []⟩] })] } }, 63, 0, ⟨0, 1, []⟩, by decide +kernel, by decide +kernel⟩,
   ⟨{ host := { shr := [(63, { cows := [⟨0, 1, []⟩], slots := [(0, { version := 0 })] })] } }, 63, 0, ⟨0, 1, []⟩, _,
     by decide +kernel, some_of (by decide +kernel), by decide +kernel, by decide +kernel⟩,
   ⟨{
         host := {
             ext := [(0, 0x44000000)], shr := [(0, { cows := [⟨0, 1, []⟩], slots := [(0, { version := 0 })] })] } },
     _, 0, 0, 0, 65536, ⟨0, 1, []⟩, { version := 0 }, 0x44000000, 0x44000000, by decide +kernel, by decide +kernel,
     by decide +kernel, by decide +kernel, by decide +kernel, rfl⟩⟩

/-- States and operands that meet the hypotheses of `HostCommandsAndSnapshots`, clause by clause. -/
theorem witness_HostCommandsAndSnapshots :
    (∃ (s : State) (tok n : Nat) (d : Desc), (s.ready tok 0x90 d) ∧ (d.src = .ring n) ∧ (snapCheck d s = none) ∧
      (snLatest d.bits = true)) ∧
    (∃ (s : State) (tok n : Nat) (d : Desc) (sl : ShrSlot), (s.ready tok 0x91 d) ∧ (d.src = .ring n) ∧ (snapCheck d s
      = none) ∧ ((s.shared (snRange d.bits)).slots.find (snSlot d.bits) = some sl)) ∧
    (∃ (s : State) (tok : Nat) (d : Desc), (s.ready tok 0x92 d) ∧ (snapCheck d s = none)) ∧
    (∃ (s : State) (tok : Nat) (d : Desc), (s.ready tok 0x93 d) ∧ (snapCheck d s = none)) ∧
    (∃ (s : State) (tok n : Nat) (d : Desc), (s.ready tok 0x92 d) ∧ (d.src = .subq n)) ∧
    (∃ (x : SharedRange) (d n : ShrSlot) (k : Nat), (x.broken = false) ∧ (x.slots.find x.draft = some d) ∧
      (x.slots.find x.newest = some n) ∧ (firstFree (fun k => !x.slots.has k) 16 = some k) ∧ (k ≠ x.draft)) :=
  ⟨⟨withDesc (tDesc 0x90 (2 ^ 136)) (sharedState { shr := [(0, {})] }), 0, 0, tDesc 0x90 (2 ^ 136), ready_of
     (by decide +kernel), by decide +kernel, by decide +kernel, by decide +kernel⟩,
   ⟨withDesc (tDesc 0x91) (sharedState { shr := [(0, { slots := [(0, { version := 0 })] })] }), 0, 0, tDesc 0x91,
     { version := 0 }, ready_of (by decide +kernel), by decide +kernel, by decide +kernel, by decide +kernel⟩,
   ⟨withDesc (tDesc 0x92) (sharedState {}), 0, tDesc 0x92, ready_of (by decide +kernel), by decide +kernel⟩,
   ⟨withDesc (tDesc 0x93) (sharedState {}), 0, tDesc 0x93, ready_of (by decide +kernel), by decide +kernel⟩,
   ⟨withDesc { tDesc 0x92 with src := .subq 255 }, 0, 255, { tDesc 0x92 with src := .subq 255 }, ready_of
     (by decide +kernel), by decide +kernel⟩,
   ⟨{ slots := [(0, { version := 1 }), (1, { version := 0 })], newest := 1 }, { version := 1 }, { version := 0 }, 2,
     by decide +kernel, by decide +kernel, by decide +kernel, by decide +kernel, by decide +kernel⟩⟩

/-- States and operands that meet the hypotheses of `ContextsMissesAndMigrations`, clause by clause. -/
theorem witness_ContextsMissesAndMigrations :
    (∃ (s : State) (path cycle : Nat) (v : Word), (s.pairReady path Reg.XLT_CTX_COMMIT v cycle) ∧ (bitOf v 0 = true)) ∧
    (∃ (s : State) (c : Nat) (r : BitVec 256) (ms : List (BitVec 128)), (s.xlt.pending = [(c, r, ms)])) ∧
    (∃ (s t : State) (tok va access : Nat) (d : Desc) (x : X1), (s.desc tok = some d) ∧ (d.finished = false) ∧
      (s.translate1 tok d va access = (t, x))) ∧
    (∃ (s : State) (ctx va : Nat) (host : List Nat) (w : Walk) (x : Xlat) (e a : Nat) (lh : Bool), (s.xlt.walks.find?
      (fun w => w.ctx == ctx && w.va / 4096 == va / 4096) = some w) ∧ (w.gen = s.xltGen ctx) ∧ (s.walk w.key ctx w.va
      host = .ok x e lh a)) ∧
    (∃ (s : State) (ctx va : Nat) (host : List Nat) (w : Walk) (r e level a : Nat) (last lh : Bool),
      (s.xlt.walks.find? (fun w => w.ctx == ctx && w.va / 4096 == va / 4096) = some w) ∧ (w.gen = s.xltGen ctx) ∧
      (s.walk w.key ctx w.va host = .fault r last e level lh a) ∧ ((last && asksMigration e level && s.migMode w.ctx
      w.va != 0) = false)) ∧
    (∃ (s : State) (req : Nat) (a : AssistReq), (s.xlt.assist.find req = some a) ∧ (a.kind = 1)) ∧
    (∃ (s u : State) (ctx va leaf : Nat) (host : List Nat) (m : Nat × Nat × Nat × Nat) (r e level a pool : Nat) (lh :
      Bool), (s.xlt.migWanted.find? (fun m => m.1 == ctx && m.2.1 / 4096 == va / 4096) = some m) ∧
      (s.xlt.migrations.length < 256) ∧ (s.walk m.2.2.2 ctx m.2.1 host = .fault r true e level lh a) ∧ (asksMigration
      e level = true) ∧ (s.freePage ctx (levelSize level) = some pool) ∧ (s.leafNow m.2.2.2 lh a leaf = e) ∧
      (State.writeLeaf { s with xlt := { s.xlt with migWanted := s.xlt.migWanted.erase m } } ctx m.2.2.2 lh a
      (leafClear e) = u)) ∧
    (∃ (s : State) (ctx va : Nat) (m : Migration), (s.xlt.migrations.find? (fun m => m.ctx == ctx && decide (m.va ≤
      va) && decide (va < m.va + m.size)) = some m) ∧ (s.heldBy none (fun x => x.ctx == ctx && decide (x.va < m.va +
      m.size) && decide (m.va < x.va + x.size * x.run)) = false)) ∧
    (∃ (s t u : State) (m : Migration) (data : List Byte) (now : Nat),
      ((({ s with xlt := { s.xlt with migrations := s.xlt.migrations.erase m } }).homeWrite .none m.key m.pool
      (data.take m.size ++ List.replicate (m.size - data.length) 0)) = t) ∧ (t.homeWrite .none m.key (returnRecord
      (t.context m.ctx) m.pool) (leBytes 8 (teAddr m.leaf)) = u) ∧ (u.leafNow m.key m.leafHost m.leafAddr now =
      leafClear m.leaf)) ∧
    (∃ (s t u : State) (m : Migration) (data : List Byte) (now : Nat),
      ((({ s with xlt := { s.xlt with migrations := s.xlt.migrations.erase m } }).homeWrite .none m.key m.pool
      (data.take m.size ++ List.replicate (m.size - data.length) 0)) = t) ∧ (t.homeWrite .none m.key (returnRecord
      (t.context m.ctx) m.pool) (leBytes 8 (teAddr m.leaf)) = u) ∧ (u.leafNow m.key m.leafHost m.leafAddr now ≠
      leafClear m.leaf)) ∧
    (∃ (s : State) (ctx va : Nat) (m : Migration), (s.xlt.migrations.find? (fun m => m.ctx == ctx && decide (m.va ≤
      va) && decide (va < m.va + m.size)) = some m)) :=
  ⟨⟨armedWith Reg.XLT_CTX_COMMIT 1, 8, 63, 1, pair_of (by decide +kernel), by decide +kernel⟩,
   ⟨{ xlt := { pending := [(1023, 0, [])] } }, 1023, 0, [], by decide +kernel⟩,
   ⟨withDesc (tDesc 0x10), _, 0, 0, 1, tDesc 0x10, _, by decide +kernel, by decide +kernel, eq_ff⟩,
   ⟨{ xlt := { committed := [(0, hostCtx)], walks := [⟨0, 0, 1, 0, 0⟩] } }, 0, 4095, [1, 1, 1, 2 ^ 62 + 27], ⟨0, 0, 1,
     0, 0⟩, _, _, _, _, by decide +kernel, by decide +kernel, walk_of (by decide +kernel)⟩,
   ⟨{ xlt := { committed := [(0, hostCtx)], walks := [⟨0, 0, 1, 0, 0⟩] } }, 0, 0, [0], ⟨0, 0, 1, 0, 0⟩, XL_S1_INVALID,
     0, 0, 0, true, true, by decide +kernel, by decide +kernel, by decide +kernel, by decide +kernel⟩,
   ⟨{ xlt := { assist := [(0, { ctx := 0, va := 0, kind := 1, access := 1, gen := 0 })] } }, 0,
     { ctx := 0, va := 0, kind := 1, access := 1, gen := 0 }, by decide +kernel, by decide +kernel⟩,
   ⟨{ xlt := { committed := [(0, hostCtx)], migWanted := [(0, 0, 1, 0)] } }, _, 0, 0, 2 ^ 62, [1, 1, 1, 2 ^ 62], (0,
     0, 1, 0), XL_S1_INVALID, 2 ^ 62, 3, 0, 2 ^ 21, true, by decide +kernel, by decide +kernel, by decide +kernel,
     by decide +kernel, by decide +kernel, by decide +kernel, rfl⟩,
   ⟨{ xlt := { migrations := [migration] } }, 0, 4095, migration, by decide +kernel, by decide +kernel⟩,
   ⟨{ xlt := { committed := [(0, hostCtx)], migrations := [migration] } }, _, _, migration, [], 2 ^ 62, rfl, rfl,
     by decide +kernel⟩,
   ⟨{ xlt := { committed := [(0, hostCtx)], migrations := [migration] } }, _, _, migration, [], 0, rfl, rfl,
     by decide +kernel⟩,
   ⟨{ xlt := { migrations := [migration] } }, 0, 0, migration, by decide +kernel⟩⟩

/-- States and operands that meet the hypotheses of `TranslationDescriptors`, clause by clause. -/
theorem witness_TranslationDescriptors :
    (∃ (s : State) (tok : Nat) (d : Desc), (s.ready tok 0x70 d)) ∧
    (∃ (s : State) (tok : Nat) (i : InvScope) (d : Desc), (s.xlt.invs.find? (fun i => i.tok == tok) = some i) ∧
      (s.heldBy none i.covers = false) ∧ (s.desc tok = some d)) ∧
    (∃ (s : State) (tok : Nat) (d : Desc), (s.ready tok 0x74 d)) ∧
    (∃ (s u t : State) (tok : Nat) (d : Desc) (host : List Nat) (ext : List Byte) (c0 c : Cpl), (s.ready tok 0x71 d) ∧
      (xcValid (s.context (s.srcCtx d.src)) = true) ∧ (s.rangeBarred (s.srcCtx d.src) (pfVa d.bits) (pfLen d.bits) =
      false) ∧ (s.ctxConf (s.srcCtx d.src) = false) ∧ (s.assisted 1 = false) ∧ (State.moveRange (fun u va host ext =>
      u.prefetchPage tok (dKeySlot d.bits) (s.srcCtx d.src) va host ext) (pfLen d.bits / 4096) (pfVa d.bits) (pfVa
      d.bits + pfLen d.bits) 0 host ext s = (u, some c0)) ∧ (State.moveRange (fun u va host ext => u.prefetchPage tok
      (dKeySlot d.bits) (s.srcCtx d.src) va host ext) (pfLen d.bits / 4096) (pfVa d.bits) (pfVa d.bits + pfLen d.bits)
      0 host ext (s.begun tok d) = (t, some c))) ∧
    (∃ (s : State) (tok : Nat) (d : Desc), (s.ready tok 0x71 d) ∧ (xcValid (s.context (s.srcCtx d.src)) = true) ∧
      (s.rangeBarred (s.srcCtx d.src) (pfVa d.bits) (pfLen d.bits) = true)) ∧
    (∃ (s u t : State) (tok : Nat) (d : Desc) (host : List Nat) (c0 c : Cpl), (s.ready tok 0x72 d) ∧ (xcValid
      (s.context (s.srcCtx d.src)) = true) ∧ (adAdvice d.bits ≠ 0) ∧ (s.assisted 1 = false) ∧ (State.moveRange (fun u
      va host _ => u.advisePage (adAdvice d.bits) tok (dKeySlot d.bits) (s.srcCtx d.src) va host) (pfLen d.bits /
      4096) (pfVa d.bits) (pfVa d.bits + pfLen d.bits) 0 host [] s = (u, some c0)) ∧ (State.moveRange (fun u va host _
      => u.advisePage (adAdvice d.bits) tok (dKeySlot d.bits) (s.srcCtx d.src) va host) (pfLen d.bits / 4096) (pfVa
      d.bits) (pfVa d.bits + pfLen d.bits) 0 host [] (s.begun tok d) = (t, some c))) ∧
    (∃ (va last : Nat), (va < last)) ∧
    (∃ (s : State) (key c va : Nat) (host : List Nat) (x : Xlat) (e a : Nat) (lh : Bool), (s.walk key c va host = .ok
      x e lh a) ∧ (x.host = false)) ∧
    (∃ (s t : State) (tok key c va pool : Nat) (host : List Nat) (x : Xlat) (e a : Nat) (lh : Bool), (s.walk key c va
      host = .ok x e lh a) ∧ (x.host = true) ∧ (x.size ≠ 2 ^ 30) ∧ (s.pageHeld tok c x.va x.size = false) ∧
      (s.freePage c x.size = some pool) ∧ ((s.writeLeaf c key lh a (leafClear e)).dropPage c x.va x.size = t)) ∧
    (∃ (s : State) (tok : Nat) (d : Desc), (s.ready tok 0x73 d) ∧ (s.xlt.assist.find (flReq d.bits) = none)) ∧
    (∃ (s : State) (tok n : Nat) (d : Desc) (a : AssistReq), (s.ready tok 0x73 d) ∧ (s.xlt.assist.find (flReq d.bits)
      = some a) ∧ (a.gen = s.xltGen a.ctx) ∧ (d.src = .ring n) ∧ (rgPort (s.ring n).record ≠ xcPort (s.context
      a.ctx))) ∧
    (∃ (s : State) (tok n : Nat) (d : Desc) (a : AssistReq), (s.ready tok 0x73 d) ∧ (s.xlt.assist.find (flReq d.bits)
      = some a) ∧ (a.gen = s.xltGen a.ctx) ∧ (d.src = .ring n) ∧ (rgPort (s.ring n).record = xcPort (s.context a.ctx))
      ∧ (flFail d.bits = false) ∧ (flRewalk d.bits = false) ∧ (a.tok = none) ∧ (flVa d.bits = a.va / fillPage d.bits *
      fillPage d.bits) ∧ (teType (flLeaf d.bits) < 2) ∧ ((fillXlat d.bits a (xcVmid (s.context a.ctx))).out %
      (fillXlat d.bits a (xcVmid (s.context a.ctx))).size = 0) ∧ (s.xlatCheck (s.context a.ctx) (fillXlat d.bits a
      (xcVmid (s.context a.ctx))) = none)) :=
  ⟨⟨withDesc (nDesc 0x70), 0, nDesc 0x70, ready_of (by decide +kernel)⟩,
   ⟨{ withDesc (nDesc 0x70) with xlt := { invs := [⟨0, false, true, 0, 0, 0, 0⟩] } }, 0, ⟨0, false, true, 0, 0, 0, 0⟩,
     nDesc 0x70, by decide +kernel, by decide +kernel, by decide +kernel⟩,
   ⟨withDesc (nDesc 0x74), 0, nDesc 0x74, ready_of (by decide +kernel)⟩,
   ⟨served (tDesc 0x71 (atB 24 0)), _, _, 0, tDesc 0x71 (atB 24 0), [], [], _, _, ready_of (by decide +kernel),
     by decide +kernel, by decide +kernel, by decide +kernel, by decide +kernel, eq_fs (by decide +kernel), eq_fs
     (by decide +kernel)⟩,
   ⟨{ withDesc (tDesc 0x71 (atB 24 4096)) with xlt := { committed := [(0, hostCtx)] } }, 0, tDesc 0x71 (atB 24 4096),
     ready_of (by decide +kernel), by decide +kernel, by decide +kernel⟩,
   ⟨{ withDesc (tDesc 0x72 (atB 32 2)) with xlt := { committed := [(0, 1)] } }, _, _, 0, tDesc 0x72 (atB 32 2), [], _,
     _, ready_of (by decide +kernel), by decide +kernel, by decide +kernel, by decide +kernel, eq_fs
     (by decide +kernel), eq_fs (by decide +kernel)⟩,
   ⟨0, 1, by decide +kernel⟩,
   ⟨{ slices := { committed := [(0, BitVec.ofNat 2048 (1 + 2 ^ 384))] }, xlt := { committed := [(0, 1)] } }, 0, 0, 0,
     [], _, _, _, _, walk_of (by decide +kernel), by decide +kernel⟩,
   ⟨{ xlt := { committed := [(0, hostCtx)] } }, _, 0, 0, 0, 0, 2 ^ 21, [1, 1, 1, 2 ^ 62 + 27], _, _, _, _, walk_of
     (by decide +kernel), by decide +kernel, by decide +kernel, by decide +kernel, by decide +kernel, rfl⟩,
   ⟨withDesc (nDesc 0x73), 0, nDesc 0x73, ready_of (by decide +kernel), by decide +kernel⟩,
   ⟨{ withDesc (nDesc 0x73) with
         xlt := {
             committed := [(0, 0x11)], assist := [(0, { ctx := 0, va := 0, kind := 1, access := 1, gen := 0 })] } },
     0, 0, nDesc 0x73, { ctx := 0, va := 0, kind := 1, access := 1, gen := 0 }, ready_of (by decide +kernel),
     by decide +kernel, by decide +kernel, by decide +kernel, by decide +kernel⟩,
   ⟨{ withDesc (nDesc 0x73 (atB 24 (2 ^ 62 + 27))) with
         xlt := {
             committed := [(0, 0x81)], assist := [(0, { ctx := 0, va := 0, kind := 1, access := 1, gen := 0 })] } },
     0, 0, nDesc 0x73 (atB 24 (2 ^ 62 + 27)), { ctx := 0, va := 0, kind := 1, access := 1, gen := 0 }, ready_of
     (by decide +kernel), by decide +kernel, by decide +kernel, by decide +kernel, by decide +kernel,
     by decide +kernel, by decide +kernel, by decide +kernel, by decide +kernel, by decide +kernel, by decide +kernel,
     by decide +kernel⟩⟩

/-- States and operands that meet the hypotheses of `TierMoves`, clause by clause. -/
theorem witness_TierMoves :
    (∃ (s : State) (granule part : Nat) (x y : TierGranule), (s.granuleOf granule = some x) ∧ (x.copying.testBit part
      = true) ∧ (y =
      { x with on := x.on ||| 2 ^ part, copying := x.copying ^^^ 2 ^ part, heat := x.heat.put part 0 })) ∧
    (∃ (s : State) (granule part : Nat) (x y : TierGranule), (s.granuleOf granule = some x) ∧ (x.leaving.testBit part
      = true) ∧ (y = { x with
          on := x.on &&& (0xFFFF ^^^ 2 ^ part), leaving := x.leaving ^^^ 2 ^ part, dirty := x.dirty.del part,
          heat := x.heat.del part })) ∧
    (∃ (s : State) (n : Nomination) (rest : List Nomination), (s.tier.noms = n :: rest) ∧ (s.assisted 7 = false) ∧
      (s.tier.started < s.fld F.TIR_RATE_MAX_PROMOTE)) ∧
    (∃ (s : State) (g : Nat), (s.tier.granules.has g = false) ∧ ((List.range 16).all (fun i => decide (s.slotsUsed
      (tierHome g i) < s.tierSlots (tierHome g i))) = true)) ∧
    (∃ (s : State) (g : Nat), (s.tier.granules.has g = false) ∧ ((List.range 16).all (fun i => decide (s.slotsUsed
      (tierHome g i) < s.tierSlots (tierHome g i))) = false) ∧ (s.tierVictim (g % 3) = none)) ∧
    (∃ (s : State) (g : Nat) (x : TierGranule), (s.granuleOf g = some x)) ∧
    (∃ (s s1 t : State) (op tok n r : Nat) (d : Desc) (segs : List (List (List Seg))), (s1.ready tok op d) ∧ (s.ready
      tok op d) ∧ (s.xlateTiles tok d (tierTiles (tdVa d.bits) (tdLen d.bits / 65536 + 2) 0 (tdLen d.bits)) [] = (s1,
      some (segs, none))) ∧ ((granulesOf segs.flatten.flatten).any s1.granuleMoves = false) ∧ ((s1.begun tok
      d).tierOver op (dKeySlot d.bits) (granulesOf segs.flatten.flatten) = (t, n, r))) ∧
    (∃ (s : State) (g : Nat) (x : TierGranule), (s.granuleOf g = some x)) ∧
    (∃ (s : State) (g : Nat) (x : TierGranule), (s.granuleOf g = some x)) :=
  ⟨⟨{ tier := { granules := [(0, { key := 0, copying := 2 ^ 15 })] } }, 0, 15, { key := 0, copying := 2 ^ 15 }, _,
     by decide +kernel, by decide +kernel, rfl⟩,
   ⟨{ tier := { granules := [(0, { key := 0, leaving := 2 ^ 15 })] } }, 0, 15, { key := 0, leaving := 2 ^ 15 }, _,
     by decide +kernel, by decide +kernel, rfl⟩,
   ⟨{ tier := { noms := [⟨0, 0, 0⟩], started := 0x7FF } }, ⟨0, 0, 0⟩, [], by decide +kernel, by decide +kernel,
     by decide +kernel⟩,
   ⟨{ tier := { split := (List.range 24).map (fun h => (h, { tier := 1 })) } }, 0, by decide +kernel,
     by decide +kernel⟩,
   ⟨{}, 0, by decide +kernel, by decide +kernel, by decide +kernel⟩,
   ⟨{ tier := { granules := [(0, { key := 0 })] } }, 0, { key := 0 }, by decide +kernel⟩,
   ⟨served (tDesc 0x88 (atB 16 (2 ^ 40) + atB 24 65536)), served (tDesc 0x88 (atB 16 (2 ^ 40) + atB 24 65536)), _,
     0x88, 0, _, _, tDesc 0x88 (atB 16 (2 ^ 40) + atB 24 65536), [[[⟨false, 0, 65536⟩]]], ready_of
     (by decide +kernel), ready_of (by decide +kernel), by decide +kernel, by decide +kernel, eq_fff⟩,
   ⟨{ tier := { granules := [(0, { key := 0 })] } }, 0, { key := 0 }, by decide +kernel⟩,
   ⟨{ tier := { granules := [(0, { key := 0 })] } }, 0, { key := 0 }, by decide +kernel⟩⟩

/-- States and operands that meet the hypotheses of `CodecDescriptors`, clause by clause. -/
theorem witness_CodecDescriptors :
    (∃ (s s1 t : State) (tok n cls raw : Nat) (d : Desc) (ext e : List Byte) (done tiles : List (List (List Seg)))
      (stop stop' : Option Cpl), (s.grantedTiles tok 0x81 d (encodeNeeds d.bits) s1 done stop) ∧ (s.encodeRefused d =
      none) ∧ (s.creditBarred d = false) ∧ (cutHost 1 (dfield d.bits 24 8) done stop = (tiles, stop')) ∧ ((s1.begun
      tok d).encodeOver tok d ext tiles = (t, e, n, cls, raw))) ∧
    (∃ (s t : State) (sa : Nat) (d : Desc) (ext data e : List Byte) (x : Coded), (t.descServed d = true) ∧
      (State.readSegs d [⟨false, sa, 4096⟩] ext s = (t, data, false, e)) ∧ (encodeBlock (dfield d.bits 40 1) (ccTable
      d.bits 42) ((t.cdcTable (ccTable d.bits 42)).image) data = x)) ∧
    (∃ (s s1 t : State) (tok : Nat) (d : Desc) (poison : Bool) (done tiles : List (List (List Seg))) (stop stop' :
      Option Cpl), (s.grantedTiles tok 0x82 d (encodeNeeds d.bits) s1 done stop) ∧ (s.creditBarred d = false) ∧
      (cutHost 0 (dfield d.bits 16 8) done stop = (tiles, stop')) ∧ ((s1.begun tok d).decodeOver tok d tiles = (t,
      poison))) ∧
    (∃ (s s1 t : State) (tok off coded : Nat) (d : Desc) (poison : Bool) (done tiles : List (List (List Seg))) (stop
      stop' : Option Cpl), (s.grantedTiles tok 0x83 d (sendNeeds d.bits) s1 done stop) ∧ (cutHost 0 (dfield d.bits 16
      8) done stop = (tiles, stop')) ∧ ((s1.begun tok d).sendOver tok d tiles = (t, off, coded, poison))) ∧
    (∃ (s s1 t : State) (tok a a1 key key1 k : Nat) (d : Desc) (done : List (List (List Seg))), (s.grantedTiles tok
      0x84 d (adoptNeeds d.bits a) s1 done none) ∧ (s.adoptBase d = .ok (a, key)) ∧ (s1.adoptBase d = .ok (a1, key1))
      ∧ ((s1.begun tok d).adoptOver d key1 a1 (ccLen d.bits / 4096) = (t, k))) ∧
    (∃ (s s1 t : State) (tok : Nat) (d : Desc) (ext e : List Byte) (h : Tab Nat) (done : List (List (List Seg))),
      (s.grantedTiles tok 0x80 d (sendNeeds d.bits) s1 done none) ∧ (profileRefused d s = none) ∧ (d.bits.getLsbD 280
      = true) ∧ (d.bits.getLsbD 281 = true) ∧ (((s1.begun tok d).setCdcTable (ccTable d.bits 32)
      { phase := .building, slice := dSlice d.bits, format := dfield d.bits 34 1 }).profileOver d (dfield d.bits 34 1)
      ext [] done = (t, e, h, false)) ∧ (h.all (fun _ c => c == 0) = false) ∧ ((t.cdcTable (ccTable d.bits 32)).format
      = dfield d.bits 34 1)) ∧
    (∃ (s s1 t : State) (tok : Nat) (d : Desc) (ext img e : List Byte) (segs : List (List Seg)) (poison : Bool),
      (s.granted tok 0x85 d [⟨dfield d.bits 16 8, 256, 1, false⟩] s1 segs) ∧ ((s.cdcTable (ccTable d.bits 24)).phase =
      .free) ∧ (State.readSegs d (segs.headD []) ext (s1.begun tok d) = (t, img, poison, e))) ∧
    (∃ (s : State) (tok : Nat) (d : Desc), (s.ready tok 0x86 d) ∧ ((s.cdcTable (ccTable d.bits 16)).phase = .valid)) ∧
    (∃ (s s1 : State) (tok : Nat) (d : Desc) (segs : List (List Seg)) (img : List Byte), (s.granted tok 0x87 d
      [⟨dfield d.bits 16 8, 256, 2, false⟩] s1 segs) ∧ (s.codecImage (dSlice d.bits) (ccTable d.bits 24) = some img) ∧
      (s.creditBarred d = false)) :=
  ⟨⟨served (tDesc 0x81 (atB 24 (2 ^ 40) + atB 32 4096)), _, _, 0, _, _, _, tDesc 0x81 (atB 24 (2 ^ 40) + atB 32 4096),
     [], _, _, _, _, _, tiles_of (by decide +kernel), by decide +kernel, by decide +kernel, eq_ff, eq_fffff⟩,
   ⟨served (tDesc 0x81) promoted, _, 0, tDesc 0x81, [], _, _, _, by decide +kernel, eq_ffbf (by decide +kernel), rfl⟩,
   ⟨served (tDesc 0x82 (atB 16 (2 ^ 40) + atB 32 4096)), _, _, 0, tDesc 0x82 (atB 16 (2 ^ 40) + atB 32 4096), _, _, _,
     _, _, tiles_of (by decide +kernel), by decide +kernel, eq_ff, eq_ff⟩,
   ⟨served (tDesc 0x83 (atB 16 (2 ^ 40) + atB 32 4096)), _, _, 0, _, _, tDesc 0x83 (atB 16 (2 ^ 40) + atB 32 4096), _,
     _, _, _, _, tiles_of (by decide +kernel), eq_ff, eq_ffff⟩,
   ⟨{ joinedState with rings := { descs := [(0, tDesc 0x84 (atB 24 4096))] } }, _, _, 0, 0, 0, 0, 0, _, tDesc 0x84
     (atB 24 4096), _, tilesAll_of (by decide +kernel), except_of (by decide +kernel), except_of (by decide +kernel),
     eq_ff⟩,
   ⟨served (tDesc 0x80 (atB 24 4096 + 2 ^ 280 + 2 ^ 281 + atB 34 2)), _, _, 0, tDesc 0x80 (atB 24 4096 + 2 ^ 280 + 2 ^
     281 + atB 34 2), [], _, _, _, tilesAll_of (by decide +kernel), by decide +kernel, by decide +kernel,
     by decide +kernel, eq_fffb (by decide +kernel), by decide +kernel, by decide +kernel⟩,
   ⟨served (tDesc 0x85), _, _, 0, tDesc 0x85, [], _, _, _, _, granted_of (by decide +kernel), by decide +kernel,
     eq_ffff⟩,
   ⟨{ withDesc (tDesc 0x86) with cdc := { tables := [(0, { phase := .valid })] } }, 0, tDesc 0x86, ready_of
     (by decide +kernel), by decide +kernel⟩,
   ⟨served (tDesc 0x87) { cdc := { tables := [(0, { phase := .valid })] } }, _, 0, tDesc 0x87, _, [], granted_of
     (by decide +kernel), by decide +kernel, by decide +kernel⟩⟩

/-- States and operands that meet the hypotheses of `TilePrograms`, clause by clause. -/
theorem witness_TilePrograms :
    (∃ (s s1 t : State) (tok : Nat) (d : Desc) (ext l e : List Byte) (segs : List (List Seg)) (c : Cpl),
      (s.loadingSlot tok = none) ∧ (s.granted tok 0x30 d [⟨tlBin d.bits, tlBinLen d.bits, 1, false⟩] s1 segs) ∧
      (State.readSegs d (segs.headD []) ext s1 = (t, l, false, e)) ∧ (t.ready tok 0x30 d) ∧ (t.loadFails d.bits l
      (parseBinary l) = some c)) ∧
    (∃ (s s1 t u : State) (tok n : Nat) (d : Desc) (ext l e : List Byte) (segs : List (List Seg)) (area : List Seg),
      (s.loadingSlot tok = none) ∧ (s.granted tok 0x30 d [⟨tlBin d.bits, tlBinLen d.bits, 1, false⟩] s1 segs) ∧
      (State.readSegs d (segs.headD []) ext s1 = (t, l, false, e)) ∧ (t.loadFails d.bits l (parseBinary l) = none) ∧
      (t.xlateRange tok d (tlArea d.bits) (tlAreaLen d.bits) 2 = (u, .ok area)) ∧ (u.areaFails d.bits (parseBinary
      l).weightBytes area = false) ∧ (u.ready tok 0x30 d) ∧ (u.freeProg = some n) ∧ ((parseBinary l).weightBytes ≠ 0)) ∧
    (∃ (s s1 s2 t u : State) (tok n : Nat) (d : Desc) (ext l w e : List Byte) (img : List Seg) (rest : List (List
      Seg)), (s.loadingSlot tok = some n) ∧ (s.desc tok = some d) ∧ (s.loadPending tok = false) ∧ (((tlKey d.bits = 0
      ∧ w = l) ∨ (tlKey d.bits ≠ 0 ∧ ∃ k, (s.prog n).wkey = some k ∧ openImage k l (s.prog n).programId (s.prog
      n).weightBytes = some w))) ∧ (s.xlateNeeds tok d [⟨tlImg d.bits, tlImgLen d.bits, 1, false⟩] [] = .ready s1 (img
      :: rest)) ∧ ((img.any (fun x => x.host) = true ∨ s2.badOffsets 0 (img.map (fun x => (x.addr, x.len))) = [])) ∧
      (s1.engineReady tok ((img.filter (fun x => !x.host)).map (fun x => (x.addr, x.len, false)) ++ (cutPieces (s.prog
      n).warea 0 (s.prog n).weightBytes).map (fun x => (x.1, x.2, true))) = (s2, true)) ∧ (State.readSegs d img ext s2
      = (t, l, false, e)) ∧ (State.writeKeyed tok (s.prog n).key (s.prog n).keyEpoch (descCredit d) (cutPieces (s.prog
      n).warea 0 (s.prog n).weightBytes) w t = u)) ∧
    (∃ (s : State) (tok : Nat) (d : Desc), (s.ready tok 0x31 d) ∧ (s.kvOrdered tok d = true) ∧ (s.creditBarred d =
      false)) ∧
    (∃ (s : State) (tok : Nat) (d : Desc) (r : MtxRun), (s.desc tok = some d) ∧ ((∀ (p : Nat) (o : TileOp), r.ops[p]?
      = some o → s.mtxIn (clusterOf r.places o) = true)) ∧ ((r.passFences d).allDone = false)) ∧
    (∃ (s : State) (tok : Nat) (d : Desc), (s.ready tok 0x32 d) ∧ ((s.prog (trHandle d.bits % 256)).unloader = some
      tok) ∧ (s.rings.descs.any (fun _ e => dOpcode e.bits == 0x31 && trHandle e.bits % 256 == trHandle d.bits % 256
      && !e.finished && (e.phase == .admitted || e.phase == .running)) = false)) ∧
    (∃ (s : State) (tok cluster attempt : Nat) (d : Desc) (r : MtxRun), (s.desc tok = some d) ∧ (s.mtx.runs.find tok =
      some r) ∧ (attempt ≠ r.attempts.get 0 cluster)) ∧
    (∃ (s : State) (tok cluster attempt : Nat) (ok : Bool) (d : Desc) (r : MtxRun), (s.desc tok = some d) ∧
      (s.mtx.runs.find tok = some r) ∧ (attempt = r.attempts.get 0 cluster) ∧ (ok = false)) ∧
    (∃ (s t : State) (tok cluster attempt p sat : Nat) (poison : Bool) (ext : List Byte) (d : Desc) (r : MtxRun) (o :
      TileOp), (s.desc tok = some d) ∧ (s.mtx.runs.find tok = some r) ∧ (attempt = r.attempts.get 0 cluster) ∧
      (r.passFences d = r) ∧ (r.nextOp cluster = some p) ∧ (r.ops[p]? = some o) ∧ (o.opc ≠ TFENCE) ∧ (r.joined d p =
      true) ∧ (s.clusterTurn tok d cluster = true) ∧ (s.opStops r o = none) ∧ ((if r.done.has p then s else s.opStarts
      r o).doItem tok d r (opItem (if r.done.has p then s else s.opStarts r o) r o (r.done.get 0 p)) ext = .done t
      poison sat)) :=
  ⟨⟨served (nDesc 0x30), _, _, 0, nDesc 0x30, [0], _, _, _, _, by decide +kernel, granted_of (by decide +kernel),
     eq_ffbf (by decide +kernel), ready_of (by decide +kernel), some_of (by decide +kernel)⟩,
   ⟨served fenceLoad wholeSlice, _, _, _, 0, _, fenceLoad, fenceBinary, _, _, _, _, by decide +kernel, granted_of
     (by decide +kernel), eq_ffbf (by decide +kernel), by decide +kernel, eq_fo (by decide +kernel),
     by decide +kernel, ready_of (by decide +kernel), some_of (by decide +kernel), by decide +kernel⟩,
   ⟨served fenceLoad {
         mtx := {
             progs := [(255, { phase := .loading, loader := some 0, weightBytes := 4096, warea := [(0, 4096)] })] } },
     _, _, _, _, 0, 255, fenceLoad, [], _, _, _, [⟨true, 0, 4096⟩], [], by decide +kernel, by decide +kernel,
     by decide +kernel, .inl ⟨by decide +kernel, rfl⟩, acq_is (by decide +kernel), .inl (by decide +kernel), eq_fb
     (by decide +kernel), eq_ffbf (by decide +kernel), rfl⟩,
   ⟨withDesc (tDesc 0x31), 0, tDesc 0x31, ready_of (by decide +kernel), by decide +kernel, by decide +kernel⟩,
   ⟨withDesc (tDesc 0x31), 0, tDesc 0x31, tileRun [tileOp 10], by decide +kernel,
     (by rintro (_ | p) o h <;> cases h <;> decide +kernel), by decide +kernel⟩,
   ⟨withDesc (tDesc 0x32) { mtx := { progs := [(0, { unloader := some 0 })] } }, 0, tDesc 0x32, ready_of
     (by decide +kernel), by decide +kernel, by decide +kernel⟩,
   ⟨running (tileRun [tileOp 10]) (withDesc (tDesc 0x31)), 0, 0, 1, tDesc 0x31, tileRun [tileOp 10],
     by decide +kernel, by decide +kernel, by decide +kernel⟩,
   ⟨running (tileRun [tileOp 10]) (withDesc (tDesc 0x31)), 0, 0, 0, false, tDesc 0x31, tileRun [tileOp 10],
     by decide +kernel, by decide +kernel, by decide +kernel, by decide +kernel⟩,
   ⟨running (tileRun [tileOp 10]) (withDesc (tDesc 0x31)), _, 0, 0, 0, 0, _, _, [], tDesc 0x31, tileRun [tileOp 10],
     tileOp 10, by decide +kernel, by decide +kernel, by decide +kernel, by decide +kernel, by decide +kernel,
     by decide +kernel, by decide +kernel, by decide +kernel, by decide +kernel, by decide +kernel, item_of
     (by decide +kernel)⟩⟩

/-- States and operands that meet the hypotheses of `EmbeddingTables`, clause by clause. -/
theorem witness_EmbeddingTables :
    (∃ (s s0 s1 u : State) (tok : Nat) (d : Desc) (ext l e : List Byte) (segs : List (List Seg)) (t : TblDesc) (c :
      Cpl), (s.granted tok 0x20 d [⟨dfield d.bits 16 8, 128, 1, false⟩] s0 segs) ∧ (State.readSegs d (segs.headD [])
      ext s0 = (s1, l, false, e)) ∧ (parseTable l = (t, true)) ∧ (dfield d.bits 16 8 % 64 = 0) ∧ (s1.tblLoadFails
      d.bits t true = some c) ∧ ((s1.setEvt F.EMB_EVT_LOAD_REFUSED).embError (dfield d.bits 24 2) c.reason LOC_MD = u)
      ∧ (u.ready tok 0x20 d)) ∧
    (∃ (s s0 s1 s2 s3 : State) (tok : Nat) (d : Desc) (ext l e : List Byte) (segs : List (List Seg)) (t : TblDesc) (st
      un : List Seg), (s.granted tok 0x20 d [⟨dfield d.bits 16 8, 128, 1, false⟩] s0 segs) ∧ (State.readSegs d
      (segs.headD []) ext s0 = (s1, l, false, e)) ∧ (parseTable l = (t, true)) ∧ (dfield d.bits 16 8 % 64 = 0) ∧
      (s1.tblLoadFails d.bits t true = none) ∧ (s1.xlateRange tok d t.storage t.storageLen (if t.updatable then 3 else
      1) = (s2, .ok st)) ∧ ((if t.updatable then s2.xlateRange tok d t.undo t.undoLen 3 else (s2, .ok [])) = (s3, .ok
      un)) ∧ (s3.storageOk (dSlice d.bits) (st.map segTuple) = true) ∧ (s3.areaOk (dSlice d.bits) un = true) ∧
      (piecesMeet (devicePieces (st.map segTuple)) (un.map (fun x => (x.addr, x.len))) = false)) ∧
    (∃ (s : State) (tok : Nat) (d : Desc), (s.ready tok 0x21 d) ∧ ((s.table (dfield d.bits 16 2)).unloader = some tok)
      ∧ (s.tableBusy (dfield d.bits 16 2) = false)) ∧
    (∃ (s s0 s1 s2 t : State) (tok : Nat) (d : Desc) (ext e e' : List Byte) (segs : List (List Seg)) (arrays : List
      (List Byte)) (items : List (List (Nat × Nat))) (tally : LkTally), (s.granted tok 0x22 d (bagForm d.bits).needs
      s0 segs) ∧ ((s.table (bagForm d.bits).table).phase ≠ .free) ∧ ((s.table (bagForm d.bits).table).slice = dSlice
      d.bits) ∧ (s0.readArrays d segs ext = (s1, arrays, false, e)) ∧ ((bagForm d.bits).parse arrays = (items, true))
      ∧ ((s1.embClusters (s.table (bagForm d.bits).table).slice).isEmpty = false) ∧ (s0.engineReady tok
      (s0.lookupRanges d (bagForm d.bits).table d.pinned items) = (s2, true)) ∧ (s2.ready tok 0x22 d) ∧
      (State.lookupOver ((s2.begun tok d).readArrays d segs e).1 tok d (bagForm d.bits) items e = (t, tally, e'))) ∧
    (∃ (s s0 s1 : State) (tok : Nat) (d : Desc) (ext e : List Byte) (segs : List (List Seg)) (arrays : List (List
      Byte)) (items : List (List (Nat × Nat))), (s.granted tok 0x22 d (bagForm d.bits).needs s0 segs) ∧ ((s.table
      (bagForm d.bits).table).phase ≠ .free) ∧ ((s.table (bagForm d.bits).table).slice = dSlice d.bits) ∧
      (s0.readArrays d segs ext = (s1, arrays, false, e)) ∧ ((bagForm d.bits).parse arrays = (items, false)) ∧
      (s1.ready tok 0x22 d)) ∧
    (∃ (s : State) (d : Desc) (n raw : Nat), ((s.table n).desc.rows ≤ raw) ∧ (d.crit ≠ 1)) ∧
    (∃ (s t : State) (tok : Nat) (d : Desc) (segs : List Seg), (s.ready tok 0x23 d) ∧ ((s.table (dfield d.bits 16
      2)).phase ≠ .free) ∧ ((s.table (dfield d.bits 16 2)).slice = dSlice d.bits) ∧ (s.xlateRange tok d (dfield d.bits
      24 8) (s.table (dfield d.bits 16 2)).desc.storageLen (if (s.table (dfield d.bits 16 2)).desc.updatable then 3
      else 1) = (t, .ok segs)) ∧ (t.ready tok 0x23 d)) ∧
    (∃ (s u : State) (n : Nat) (p : TblPublish), ((s.table n).publish = some p) ∧ (s.setTable n { s.table n with
          publish := none, version := (s.table n).version + 1,
          images := {
              va := p.va, segs := p.segs, first := (s.table n).version + 1,
              last := (s.table n).version + 1 } :: (s.table n).images } = u) ∧ ((u.liveImages n).length ≤ 4)) ∧
    (∃ (s s0 s1 s2 t : State) (tok placed : Nat) (d : Desc) (ext e e' bytes : List Byte) (segs : List (List Seg))
      (rows good : List Nat), (s.granted tok 0x25 d [⟨dfield d.bits 24 6, 8 * rcCount d.bits, 1, false⟩] s0 segs) ∧
      ((s.table (dfield d.bits 16 2)).phase ≠ .free) ∧ ((s.table (dfield d.bits 16 2)).slice = dSlice d.bits) ∧
      (State.readSegs d (segs.headD []) ext s0 = (s1, bytes, false, e)) ∧ (rows = (chunksOf 8 (rcCount d.bits)
      bytes).map leNat) ∧ (good = rows.filter (fun r => decide (r < (s.table (dfield d.bits 16 2)).desc.rows))) ∧
      (s0.engineReady tok (good.flatMap (fun r => (s0.rowSource (dfield d.bits 16 2) r (s.table (dfield d.bits 16
      2)).version none false).ranges)) = (s2, true)) ∧ (s2.ready tok 0x25 d) ∧ ((State.readSegs d (segs.headD []) []
      (s2.begun tok d)).1.rcAdmitOver (dfield d.bits 16 2) (s.table (dfield d.bits 16 2)) (fun r => s0.rowSource
      (dfield d.bits 16 2) r (s.table (dfield d.bits 16 2)).version none false) good e = (t, placed, e'))) ∧
    (∃ (s : State) (path cycle : Nat) (v : Word), (s.pairReady path Reg.EMB_PRIV_ENTRY v cycle)) :=
  ⟨⟨served (nDesc 0x20) (embState table0), _, _, _, 0, nDesc 0x20, tableBytes, _, _, _, _, _, granted_of
     (by decide +kernel), eq_ffbf (by decide +kernel), eq_fb (by decide +kernel), by decide +kernel, some_of
     (by decide +kernel), rfl, ready_of (by decide +kernel)⟩,
   ⟨served (nDesc 0x20) wholeSlice, _, _, _, _, 0, nDesc 0x20, tableBytes, _, _, _, _, _, _, granted_of
     (by decide +kernel), eq_ffbf (by decide +kernel), eq_fb (by decide +kernel), by decide +kernel,
     by decide +kernel, eq_fo (by decide +kernel), eq_fo (by decide +kernel), by decide +kernel, by decide +kernel,
     by decide +kernel⟩,
   ⟨withDesc (tDesc 0x21) (embState { table0 with phase := .unloading, unloader := some 0 }), 0, tDesc 0x21, ready_of
     (by decide +kernel), by decide +kernel, by decide +kernel⟩,
   ⟨served (tDesc 0x22 (atB 28 1)) (embState table0), _, _, _, _, 0, tDesc 0x22 (atB 28 1), leBytes 8 1, _, _, _, _,
     _, _, granted_of (by decide +kernel), by decide +kernel, by decide +kernel, eq_ffbf (by decide +kernel), eq_fb
     (by decide +kernel), by decide +kernel, eq_fb (by decide +kernel), ready_of (by decide +kernel), eq_fff⟩,
   ⟨served (tDesc 0x22 (atB 18 1 + atB 24 1 + atB 28 1)) (embState table0), _, _, 0, tDesc 0x22 (atB 18 1 + atB 24 1 +
     atB 28 1), [], _, _, _, _, granted_of (by decide +kernel), by decide +kernel, by decide +kernel, eq_ffbf
     (by decide +kernel), eq_fb (by decide +kernel), ready_of (by decide +kernel)⟩,
   ⟨{}, tDesc 0x22, 0, 0, by decide +kernel, by decide +kernel⟩,
   ⟨served (tDesc 0x23 (atB 24 (2 ^ 40))) (embState table0), _, 0, tDesc 0x23 (atB 24 (2 ^ 40)), _, ready_of
     (by decide +kernel), by decide +kernel, by decide +kernel, eq_fo (by decide +kernel), ready_of
     (by decide +kernel)⟩,
   ⟨embState { table0 with publish := some ⟨0, 0, [], []⟩ }, _, 0, ⟨0, 0, [], []⟩, by decide +kernel, rfl,
     by decide +kernel⟩,
   ⟨served (tDesc 0x25 (atB 18 1)) (embState table0), _, _, _, _, 0, _, tDesc 0x25 (atB 18 1), leBytes 8 1, _, _, _,
     _, _, _, granted_of (by decide +kernel), by decide +kernel, by decide +kernel, eq_ffbf (by decide +kernel), rfl,
     rfl, eq_fb (by decide +kernel), ready_of (by decide +kernel), eq_fff⟩,
   ⟨armedWith Reg.EMB_PRIV_ENTRY 0, 8, 63, 0, pair_of (by decide +kernel)⟩⟩

/-- States and operands that meet the hypotheses of `OnlineUpdate`, clause by clause. -/
theorem witness_OnlineUpdate :
    (∃ (s s0 s1 s2 s3 u3 : State) (tok stVa mgVa : Nat) (d : Desc) (ext l e : List Byte) (segs : List (List Seg)) (u :
      EmbUpdate) (st mg : List Seg), (s.granted tok 0x26 d [⟨dfield d.bits 24 8, 128, 1, false⟩] s0 segs) ∧
      (State.readSegs d (segs.headD []) ext s0 = (s1, l, false, e)) ∧ (parseUpdate l s1.tick.now = (u, stVa, mgVa,
      true)) ∧ (dfield d.bits 24 8 % 64 = 0) ∧ ((stVa = 0 ∨ 0 < u.z (s1.table (dfield d.bits 16 2)).desc.cols)) ∧
      (s1.updStartFails d.bits true = none) ∧ (s1.xlateRange tok d stVa (u.stateLen (s1.table (dfield d.bits 16
      2)).desc) 3 = (s2, .ok st)) ∧ (s2.xlateRange tok d mgVa (mergeLen (s1.table (dfield d.bits 16 2)).desc) 3 = (s3,
      .ok mg)) ∧ (s3.updAreasOk (dfield d.bits 16 2) (dSlice d.bits) st mg = true) ∧ (s3.updFits (dSlice d.bits) u
      (s1.table (dfield d.bits 16 2)).desc = true) ∧ (s3.setUpdate (dfield d.bits 16 2) { u with
          stateArea := st.map (fun x => (x.addr, x.len)), mergeArea := mg.map (fun x => (x.addr, x.len)),
          key := dKeySlot d.bits, keyEpoch := dKeyEpoch d.bits } = u3) ∧ (u3.ready tok 0x26 d)) ∧
    (∃ (s : State) (tok : Nat) (d : Desc) (u : _), (s.ready tok 0x27 d) ∧ (s.update (dfield d.bits 16 2) = some u) ∧
      (u.stopper = some tok)) ∧
    (∃ (s : State) (tok : Nat) (d : Desc), (s.ready tok 0x27 d) ∧ (s.update (dfield d.bits 16 2) = none)) ∧
    (∃ (s s1 t v : State) (tok dropped deflt : Nat) (d : Desc) (ext e : List Byte) (segs : List (List Seg)) (arrays :
      List (List Byte)) (items : List (List (Nat × Nat))) (u : EmbUpdate) (w : MergeWindow) (bags : List (List (Nat ×
      Nat) × Nat × Nat)) (rows : List (Nat × Nat)), (s.granted tok 0x24 d ((bagForm d.bits).needs ++ gradNeeds d.bits
      (s.table (bagForm d.bits).table).desc) s1 segs) ∧ ((s.table (bagForm d.bits).table).phase ≠ .free) ∧ ((s.table
      (bagForm d.bits).table).slice = dSlice d.bits) ∧ (s.update (bagForm d.bits).table = some u) ∧ (u.gathering =
      some w) ∧ (w.k + 1 = d.pinned) ∧ (s1.readArrays d segs ext = (t, arrays, false, e)) ∧ ((bagForm d.bits).parse
      arrays = (items, true)) ∧ (bags = items.map (bagRows (s.table (bagForm d.bits).table).desc (d.crit == 1))) ∧
      (rows = bags.flatMap (fun b => b.1)) ∧ (dropped = (bags.map (fun b => b.2.1)).foldl (· + ·) 0) ∧ (deflt =
      (bags.map (fun b => b.2.2)).foldl (· + ·) 0) ∧ (t.embCount (bagForm d.bits).table (fun c =>
      { c with drops := c.drops + dropped }) = v)) ∧
    (∃ (w : MergeWindow) (row : Nat), (w.rows.find row = none)) ∧
    (∃ (s : State) (n t : Nat) (u : EmbUpdate) (w : MergeWindow), (s.update n = some u) ∧ (u.gathering = some w) ∧
      (u.stopping = false) ∧ (w.opened + u.ticks ≤ t) ∧ (s.scatterRuns n w.k = false) ∧ (u.windows.length < 4)) ∧
    (∃ (s : State) (n : Nat) (u : EmbUpdate), (s.update n = some u)) ∧
    (∃ (m : MergeRow), (m.accs.any Accum.flagged = true)) ∧
    (∃ (s t v : State) (n row sat : Nat) (u : EmbUpdate) (img : TblImage) (w : MergeWindow) (m : MergeRow) (old st new
      st' : List Byte), (m.accs.any Accum.flagged = false) ∧ (State.readKeyed (s.table n).key (s.table n).keyEpoch
      (devicePieces ((s.table n).desc.rowSegs img row)) s = (t, old, false)) ∧ (State.readKeyed u.key u.keyEpoch
      (cutPieces u.stateArea (row * u.zp (s.table n).desc.cols) (u.z (s.table n).desc.cols)) t = (v, st, false)) ∧
      (u.newRow (s.table n).desc m old st row w.last = (new, st', sat))) ∧
    (∃ (u : EmbUpdate), (u.opt = 0) ∧ ((f32 u.decay).isZero = true)) :=
  ⟨⟨served (nDesc 0x26) (embState table0), _, _, _, _, _, 0, _, _, nDesc 0x26, updateBytes, _, _, _, _, _, _,
     granted_of (by decide +kernel), eq_ffbf (by decide +kernel), eq_fffb (by decide +kernel), by decide +kernel, .inl
     (by decide +kernel), by decide +kernel, eq_fo (by decide +kernel), eq_fo (by decide +kernel), by decide +kernel,
     by decide +kernel, rfl, ready_of (by decide +kernel)⟩,
   ⟨withDesc (tDesc 0x27) (embState table0 [(0, { update0 with stopping := true, stopper := some 0 })]), 0, tDesc
     0x27, { update0 with stopping := true, stopper := some 0 }, ready_of (by decide +kernel), by decide +kernel,
     by decide +kernel⟩,
   ⟨withDesc (tDesc 0x27) (embState table0), 0, tDesc 0x27, ready_of (by decide +kernel), by decide +kernel⟩,
   ⟨served { tDesc 0x24 (atB 24 1) with pinned := 1 } (embState table0 [(0, { update0 with windows := [window0] })]),
     _, _, _, 0, _, _, { tDesc 0x24 (atB 24 1) with pinned := 1 }, [], _, _, _, _,
     { update0 with windows := [window0] }, window0, _, _, granted_of (by decide +kernel), by decide +kernel,
     by decide +kernel, by decide +kernel, by decide +kernel, by decide +kernel, eq_ffbf (by decide +kernel), eq_fb
     (by decide +kernel), rfl, rfl, rfl, rfl, rfl⟩,
   ⟨window0, 0, by decide +kernel⟩,
   ⟨embState table0 [(0, { update0 with windows := [window0] })], 0, 3, { update0 with windows := [window0] },
     window0, by decide +kernel, by decide +kernel, by decide +kernel, by decide +kernel, by decide +kernel,
     by decide +kernel⟩,
   ⟨embState table0 [(0, update0)], 0, update0, by decide +kernel⟩,
   ⟨{ accs := [{ nan := true }], count := 1 }, by decide +kernel⟩,
   ⟨{ embState table0 with slots := [(0, { phase := .active })] }, _, _, 0, 0, _, update0,
     { va := 0, segs := [(false, 0, 4096)], first := 0, last := 0 }, window0,
     { accs := [{}, {}, {}, {}], count := 1 }, _, _, _, _, by decide +kernel, eq_ffb (by decide +kernel), eq_ffb
     (by decide +kernel), eq_fff⟩,
   ⟨update0, by decide +kernel, by decide +kernel⟩⟩

/-- States and operands that meet the hypotheses of `SearchIndexes`, clause by clause. -/
theorem witness_SearchIndexes :
    (∃ (s s0 s1 u : State) (tok : Nat) (d : Desc) (ext l e : List Byte) (segs : List (List Seg)) (x : IdxDesc) (c :
      Cpl), (s.granted tok 0x40 d [⟨dfield d.bits 16 8, 128, 1, false⟩] s0 segs) ∧ (State.readSegs d (segs.headD [])
      ext s0 = (s1, l, false, e)) ∧ (parseIndex l = (x, true)) ∧ (dfield d.bits 16 8 % 64 = 0) ∧ (s1.idxLoadFails
      d.bits x true = some c) ∧ ((s1.setEvt F.SRH_EVT_LOAD_REFUSED).setSrh (fun e =>
      { e with lastError := (0, dfield d.bits 24 1, c.reason, LOC_MD, s1.tick.now % 2 ^ 32) }) = u) ∧ (u.ready tok
      0x40 d)) ∧
    (∃ (s s0 s1 s2 u : State) (tok : Nat) (d : Desc) (ext l e : List Byte) (segs got : List (List Seg)) (x : IdxDesc),
      (s.granted tok 0x40 d [⟨dfield d.bits 16 8, 128, 1, false⟩] s0 segs) ∧ (State.readSegs d (segs.headD []) ext s0
      = (s1, l, false, e)) ∧ (parseIndex l = (x, true)) ∧ (dfield d.bits 16 8 % 64 = 0) ∧ (s1.idxLoadFails d.bits x
      true = none) ∧ (s1.xlateNeeds tok d [⟨x.nodes, x.nodeLen, 3, false⟩, ⟨x.leafmap, x.mapLen, 3, false⟩, ⟨x.side,
      x.sideLen, 3, false⟩, ⟨x.bitmaps, x.bitLen, 3, false⟩] [] = .ready s2 got) ∧ (got.all (fun l => s2.areaOk
      (dSlice d.bits) l) = true) ∧ (areasApart (got.map (fun l => l.map (fun p => (p.addr, p.len)))) = true) ∧
      (x.chanList.all (fun c => decide (x.pagesPer ≤ s2.freeFor (dfield d.bits 24 1) c)) = true) ∧ ((s2.newIndex
      (dfield d.bits 24 1) {
          phase := .building, slice := dSlice d.bits, key := dKeySlot d.bits, keyEpoch := dKeyEpoch d.bits,
          desc := x, digest := Config.sha384 l,
          nodeArea := (got.map (fun l => l.map (fun p => (p.addr, p.len)))).headD [],
          areas := ((got.map (fun l => l.map (fun p => (p.addr, p.len)))).drop 1).flatten }).setEvt F.SRH_EVT_LOADED =
      u) ∧ (u.ready tok 0x40 d)) ∧
    (∃ (s s0 s1 t : State) (tok : Nat) (d : Desc) (ext bytes e : List Byte) (segs : List (List Seg)) (w : LeafJob),
      (s.granted tok 0x42 d [⟨srOut d.bits, dfield d.bits 24 2 * 16384, 1, false⟩] s0 segs) ∧ (s.indexServes d.bits =
      true) ∧ (State.readSegs d (segs.headD []) ext s0 = (s1, bytes, false, e)) ∧ (s1.ready tok 0x42 d) ∧ ((s1.begun
      tok d).leafOver tok (srIndex d.bits) (dfield d.bits 20 4) (dfield d.bits 24 2) bytes = (t, w))) ∧
    (∃ (s : State) (n leaf f : Nat) (l : List Byte), ((s.index n).desc.pageOk leaf l = true) ∧ ((s.index n).leaves.has
      leaf = false) ∧ (s.srh.programs.any (fun p => p.index == n && p.leaf == leaf) = false) ∧ (((((s.index
      n).desc.entries l).map entryVnum).any (fun v => (s.index n).present.contains v)) = false) ∧ (s.flashFree
      ((s.index n).desc.chanOf leaf) = some f)) ∧
    (∃ (s : State) (fpa : Nat) (p : FlashProgram) (f : _), (s.srh.programs.find? (fun p => p.fpa == fpa) = some p) ∧
      (s.flashFree (fpaChan fpa) = some f)) ∧
    (∃ (s : State) (fpa : Nat) (p : FlashProgram) (tok t : _), (s.srh.programs.find? (fun p => p.fpa == fpa) = some p)
      ∧ (p.tok = some tok) ∧ (State.setIndex { s with
          srh := { s.srh with
              programs := s.srh.programs.filter (fun q => q.fpa != fpa),
              pages := s.srh.pages.put fpa {
                  index := p.index, leaf := p.leaf, key := (s.slot (s.index p.index).key).flashKey,
                  bytes := p.bytes } } } p.index
      { s.index p.index with leaves := (s.index p.index).leaves.put p.leaf fpa } = t)) ∧
    (∃ (s : State) (tok : Nat) (d : Desc), (s.ready tok 0x43 d) ∧ (s.indexServes d.bits = true) ∧ ((s.index (srIndex
      d.bits)).activator = none)) ∧
    (∃ (s : State) (tok : Nat) (d : Desc), (s.ready tok 0x41 d) ∧ ((s.index (srIndex d.bits)).unloader = some tok) ∧
      (s.indexBusy (srIndex d.bits) = false)) ∧
    (∃ (s s0 s1 : State) (tok n dropped : Nat) (d : Desc) (ext bytes e : List Byte) (segs : List (List Seg)) (x :
      SrhIndex), (s.granted tok 0x45 d [⟨srSrc d.bits, srNv d.bits * (s.index (srIndex d.bits)).desc.es, 1, false⟩] s0
      segs) ∧ (s.srhOrdered d = true) ∧ ((s.index (srIndex d.bits)).phase ≠ .free) ∧ ((s.index (srIndex d.bits)).slice
      = dSlice d.bits) ∧ (State.readSegs d (segs.headD []) ext s0 = (s1, bytes, false, e)) ∧ (s1.ready tok 0x45 d) ∧
      ((s1.index (srIndex d.bits)).insertOver (s1.tick.now + 1) (chunksOf (s.index (srIndex d.bits)).desc.es (srNv
      d.bits) bytes) = (x, n, dropped))) ∧
    (∃ (s s0 s1 : State) (tok n dropped r : Nat) (d : Desc) (ext bytes e : List Byte) (segs : List (List Seg)) (x :
      SrhIndex), (s.granted tok 0x46 d [⟨srSrc d.bits, srNv d.bits * 8, 1, false⟩] s0 segs) ∧ (s.srhOrdered d = true)
      ∧ ((s.index (srIndex d.bits)).phase ≠ .free) ∧ ((s.index (srIndex d.bits)).slice = dSlice d.bits) ∧
      (State.readSegs d (segs.headD []) ext s0 = (s1, bytes, false, e)) ∧ (s1.ready tok 0x46 d) ∧ ((s1.index (srIndex
      d.bits)).deleteOver (chunksOf 8 (srNv d.bits) bytes) = (x, n, dropped, r))) ∧
    (∃ (s : State) (tok : Nat) (d : Desc), (s.ready tok 0x47 d) ∧ ((s.index (srIndex d.bits)).phase ≠ .free) ∧
      ((s.index (srIndex d.bits)).slice = dSlice d.bits)) ∧
    (∃ (x : SrhIndex) (v : List Byte), (entryVnum v < x.desc.vnumMax) ∧ (x.present.contains (entryVnum v) = false)) ∧
    (∃ (x : SrhIndex) (v : List Byte), (x.present.contains (entryVnum v) = true) ∧ (x.tombs.has (entryVnum v) = false)
      ∧ (x.tombsDue.contains (entryVnum v) = false) ∧ (x.deleted ≤ 262144)) :=
  ⟨⟨served (nDesc 0x40), _, _, _, 0, nDesc 0x40, idxBytes, _, _, _, _, _, granted_of (by decide +kernel), eq_ffbf
     (by decide +kernel), eq_fb (by decide +kernel), by decide +kernel, some_of (by decide +kernel), rfl, ready_of
     (by decide +kernel)⟩,
   ⟨served (nDesc 0x40) (srhState (srhOf [])), _, _, _, _, 0, nDesc 0x40, idxBytes, _, _, _, _, _, granted_of
     (by decide +kernel), eq_ffbf (by decide +kernel), eq_fb (by decide +kernel), by decide +kernel,
     by decide +kernel, acq_of (by decide +kernel), by decide +kernel, by decide +kernel, by decide +kernel, rfl,
     ready_of (by decide +kernel)⟩,
   ⟨served (tDesc 0x42 (atB 24 1)) (srhState (srhOf [(0, { idx0 with phase := .building })])), _, _, _, 0, tDesc 0x42
     (atB 24 1), [], _, _, _, _, granted_of (by decide +kernel), by decide +kernel, eq_ffbf (by decide +kernel),
     ready_of (by decide +kernel), eq_ff⟩,
   ⟨srhState (srhOf [(0, { idx0 with leaves := [] })]), 0, 0, _, buildLeafPage 0 [], by decide +kernel,
     by decide +kernel, by decide +kernel, by decide +kernel, some_of (by decide +kernel)⟩,
   ⟨srhState { srhOf [(0, idx0)] with programs := [program0] }, 0, program0, _, by decide +kernel, some_of
     (by decide +kernel)⟩,
   ⟨srhState { srhOf [(0, idx0)] with programs := [program0] }, 0, program0, 0, _, by decide +kernel,
     by decide +kernel, rfl⟩,
   ⟨withDesc (tDesc 0x43) (srhState (srhOf [(0, { idx0 with phase := .building })])), 0, tDesc 0x43, ready_of
     (by decide +kernel), by decide +kernel, by decide +kernel⟩,
   ⟨withDesc (tDesc 0x41) (srhState (srhOf [(0, { idx0 with phase := .unloading, unloader := some 0 })])), 0, tDesc
     0x41, ready_of (by decide +kernel), by decide +kernel, by decide +kernel⟩,
   ⟨served (tDesc 0x45 (atB 20 1)) (srhState (srhOf [(0, idx0)])), _, _, 0, _, _, tDesc 0x45 (atB 20 1), [], _, _, _,
     _, granted_of (by decide +kernel), by decide +kernel, by decide +kernel, by decide +kernel, eq_ffbf
     (by decide +kernel), ready_of (by decide +kernel), eq_fff⟩,
   ⟨served (tDesc 0x46 (atB 20 1)) (srhState (srhOf [(0, idx0)])), _, _, 0, _, _, _, tDesc 0x46 (atB 20 1), [], _, _,
     _, _, granted_of (by decide +kernel), by decide +kernel, by decide +kernel, by decide +kernel, eq_ffbf
     (by decide +kernel), ready_of (by decide +kernel), eq_ffff⟩,
   ⟨withDesc (tDesc 0x47) (srhState (srhOf [(0, idx0)])), 0, tDesc 0x47, ready_of (by decide +kernel),
     by decide +kernel, by decide +kernel⟩,
   ⟨idx0, zeros 20, by decide +kernel, by decide +kernel⟩,
   ⟨{ idx0 with present := [0] }, zeros 8, by decide +kernel, by decide +kernel, by decide +kernel, by decide +kernel⟩⟩

/-- States and operands that meet the hypotheses of `SearchQueries`, clause by clause. -/
theorem witness_SearchQueries :
    (∃ (s s0 s1 s2 : State) (tok : Nat) (d : Desc) (ext bytes e : List Byte) (segs : List (List Seg)) (qs : List SrhQ)
      (x : SrhIndex), (x = s.index (srIndex d.bits)) ∧ (s.granted tok 0x44 d [⟨srSrc d.bits, sqNq d.bits * round64
      x.desc.vb, 1, false⟩] s0 segs) ∧ (x.phase ≠ .free) ∧ (x.slice = dSlice d.bits) ∧ (State.readSegs d (segs.headD
      []) ext s0 = (s1, bytes, false, e)) ∧ (State.walkBatch tok x (sqBeam d.bits) (sqProbes d.bits) ((chunksOf
      (round64 x.desc.vb) (sqNq d.bits) bytes).map (fun v => v.take x.desc.vb)) [] s1 = (s2, .ok qs)) ∧ (s2.ready tok
      0x44 d)) ∧
    (∃ (s u v : State) (fpa a : Nat) (j j' : SrhJob) (p : FlashPage), (s.srh.jobs.filter (fun j => j.wait.any (fun w
      => w.1 == fpa)) = [j]) ∧ (s.srh.passes.filter (fun m => m.leaves.any (fun l => l.old == fpa && !l.read)) = []) ∧
      (s.srh.lateReads.contains fpa = false) ∧ (s.pageAt fpa = some (a, p)) ∧ (p.lost = false) ∧ (State.countPages
      (s.setChan (fpaChan fpa) { s.chan (fpaChan fpa) with pagesRead := (s.chan (fpaChan fpa)).pagesRead + 1 })
      (s.index p.index).slice 1 = u) ∧ (u.scorePage j (((j.wait.filter (fun w => w.1 == fpa)).map Prod.snd).headD 0)
      p.bytes = (v, j'))) ∧
    (∃ (s t : State) (j : SrhJob) (d : Desc), (j.wait = []) ∧ (s.desc j.tok = some d) ∧ ((List.zip (List.range
      j.queries.length) j.queries).foldl (fun (s : State) e => s.fabPut j.tok d (srOut d.bits + e.1 * (16 + 16 * j.k))
      (resultBlock j.k e.2)) { s with srh := { s.srh with jobs := s.srh.jobs.filter (fun x => x.tok != j.tok) } } =
      t)) ∧
    (∃ (s t : State) (fpa f : Nat) (p : FlashPage), (s.srh.pages.find fpa = some p) ∧ (s.flashFree (fpaChan fpa) =
      some f) ∧ ((s.srh.forwards.filter (fun w => fpaChan w.old / 16 == fpaChan fpa / 16)).length < 4096) ∧ ((s.chan
      (fpaChan fpa)).inService = true) ∧ (((s.index p.index).leaves.any (fun _ v => v == fpa) || (s.index
      p.index).prev.any (fun _ v => v == fpa)) = true) ∧ ((s.setIndex p.index { s.index p.index with
          leaves := (s.index p.index).leaves.mapV (fun _ v => if v = fpa then f else v),
          prev := (s.index p.index).prev.mapV (fun _ v => if v = fpa then f else v) }) = t)) ∧
    (∃ (s t : State) (c : Nat) (scorer : Bool), ((s.chan c).inService = true) ∧ (s.srh.programs = []) ∧ (s.srh.jobs =
      []) ∧ ((s.setChan c
      { s.chan c with inService := false, scorerFailed := (s.chan c).scorerFailed || scorer }).setEvt
      F.SRH_EVT_CHANNEL_DOWN = t)) ∧
    (∃ (s t u v : State) (j : SrhJob) (w : Nat × Nat), (s.markLate = t) ∧ (t.srh.jobs = [j]) ∧ (j.tick ≤ t.tick.now) ∧
      ((t.index j.index).desc.deadlinePath = true) ∧ (j.wait = [w]) ∧ (t.lateFetch false = u) ∧
      ({ u with srh := { u.srh with lateReads := (u.srh.lateReads ++ [w.1]).eraseDups } } = v)) ∧
    (∃ (s s0 s1 : State) (tok : Nat) (d : Desc) (ext bytes e : List Byte) (segs : List (List Seg)), (s.granted tok
      0x48 d [⟨srSrc d.bits, rdNs d.bits * sqNq d.bits * rdIn d.bits, 1, false⟩] s0 segs) ∧ (State.readSegs d
      (segs.headD []) ext s0 = (s1, bytes, false, e)) ∧ (s1.ready tok 0x48 d)) :=
  ⟨⟨served (tDesc 0x44 (atB 17 1 + atB 18 1 + atB 20 1 + atB 22 1))
     { srhState (srhOf [(0, idx0)]) with mem := nodeMem }, _, _, _, 0, tDesc 0x44 (atB 17 1 + atB 18 1 + atB 20 1 +
     atB 22 1), [], _, _, _, _, idx0, by decide +kernel, granted_of (by decide +kernel), by decide +kernel,
     by decide +kernel, eq_ffbf (by decide +kernel), stepped_of (by decide +kernel), ready_of (by decide +kernel)⟩,
   ⟨srhState { srhOf [(0, idx0)] with pages := [(0, page0)], jobs := [job0] }, _, _, 0, 0, job0, _, page0,
     by decide +kernel, by decide +kernel, by decide +kernel, rfl, by decide +kernel, rfl, eq_ff⟩,
   ⟨withDesc (tDesc 0x44) (srhState { srhOf [(0, idx0)] with jobs := [{ job0 with wait := [] }] }), _,
     { job0 with wait := [] }, tDesc 0x44, by decide +kernel, by decide +kernel, rfl⟩,
   ⟨srhState { srhOf [(0, idx0)] with pages := [(0, page0)] }, _, 0, _, page0, rfl, some_of (by decide +kernel),
     by decide +kernel, by decide +kernel, by decide +kernel, rfl⟩,
   ⟨srhState (srhOf []), _, 0, true, by decide +kernel, by decide +kernel, by decide +kernel, rfl⟩,
   ⟨srhState
     { srhOf [(0, { idx0 with desc := { idx0.desc with iflags := 1 } })] with pages := [(0, page0)], jobs := [job0] },
     _, _, _, job0, (0, 0), rfl, by decide +kernel, by decide +kernel, by decide +kernel, by decide +kernel, rfl, rfl⟩,
   ⟨served (tDesc 0x48 (atB 16 2 + atB 17 1 + atB 18 1 + atB 20 1)), _, _, 0, tDesc 0x48 (atB 16 2 + atB 17 1 + atB 18
     1 + atB 20 1), [], _, _, _, granted_of (by decide +kernel), eq_ffbf (by decide +kernel), ready_of
     (by decide +kernel)⟩⟩

/-- States and operands that meet the hypotheses of `KvPools`, clause by clause. -/
theorem witness_KvPools :
    (∃ (s s0 s1 u : State) (tok : Nat) (d : Desc) (ext l e : List Byte) (segs : List (List Seg)) (p : KvPool) (a b :
      Nat) (c : Cpl), (s.granted tok 0x50 d [⟨dfield d.bits 16 8, 128, 1, false⟩] s0 segs) ∧ (State.readSegs d
      (segs.headD []) ext s0 = (s1, l, false, e)) ∧ (parsePool l = (p, a, b, true)) ∧ (s1.createFails d.bits p true =
      some c) ∧ ((s1.setEvt F.KVS_EVT_CREATE_REFUSED).kvError (at_ 40 (kvPoolField d.bits)) c.reason LOC_MD = u) ∧
      (u.ready tok 0x50 d)) ∧
    (∃ (s s0 s1 s2 s3 u : State) (tok : Nat) (d : Desc) (ext l e : List Byte) (segs : List (List Seg)) (p : KvPool) (a
      b : Nat) (pg ct : List Seg), (s.granted tok 0x50 d [⟨dfield d.bits 16 8, 128, 1, false⟩] s0 segs) ∧
      (State.readSegs d (segs.headD []) ext s0 = (s1, l, false, e)) ∧ (parsePool l = (p, a, b, true)) ∧
      (s1.createFails d.bits p true = none) ∧ (s1.xlateRange tok d a (p.pages * p.pageSize) 3 = (s2, .ok pg)) ∧
      (s2.xlateRange tok d b p.ctrlSize 3 = (s3, .ok ct)) ∧ (s3.areaOk (dSlice d.bits) pg = true) ∧ (s3.areaOk (dSlice
      d.bits) ct = true) ∧ (piecesMeet (pg.map (fun x => (x.addr, x.len))) (ct.map (fun x => (x.addr, x.len))) =
      false) ∧ (((s3.setPool (kvPoolField d.bits) { p with
          slice := dSlice d.bits, key := dKeySlot d.bits, keyEpoch := dKeyEpoch d.bits, assisted := s3.assisted 3,
          area := pg.map (fun x => (x.addr, x.len)), ctrl := ct.map (fun x => (x.addr, x.len)) }).setAlloc
      (kvPoolField d.bits) {}).setEvt F.KVS_EVT_POOL_CREATED = u) ∧ (u.ready tok 0x50 d)) ∧
    (∃ (s : State) (tok : Nat) (d : Desc), (s.ready tok 0x51 d) ∧ ((s.kvAlloc (dfield d.bits 16 1)).destroyer = some
      tok) ∧ (s.rings.descs.any (fun t e => t != tok && !e.finished && (s.kvPools e.bits).contains (dfield d.bits 16
      1) && (e.phase == .admitted || e.phase == .running || e.begun)) = false)) ∧
    (∃ (s u : State) (tok n q : Nat) (d : Desc), (s.kvReady tok 0x52 d) ∧ (n = dfield d.bits 16 1) ∧ (s.poolRefuses n
      (dSlice d.bits) (dKeySlot d.bits) = none) ∧ (s.poolSeqs n < (s.pool n).seqMax) ∧ (firstFree (fun q =>
      !s.kv.seqs.has q) (2 ^ 24) = some q) ∧ (s.setSeq q
      { pool := n, gen := s.kv.gens.get 0 q, layers := List.replicate (s.pool n).layers {} } = u) ∧ (u.ready tok 0x52
      d)) ∧
    (∃ (s u : State) (tok n c : Nat) (d : Desc) (q : KvSeq) (layers : List KvLayer), (s.kvReady tok 0x56 d) ∧ (n =
      rfPool (kvRef d.bits)) ∧ (s.refRefuses (kvRef d.bits) (dSlice d.bits) (dKeySlot d.bits) false = none) ∧ (s.kvSeq
      (rfSeq (kvRef d.bits)) = some q) ∧ (q.resync = false) ∧ (q.remote = false) ∧ (s.poolSeqs n < (s.pool n).seqMax)
      ∧ (layers = q.layers.map (forkLayer (s.pool n).perPage (kvCount d.bits))) ∧ ((layers.flatMap (fun l =>
      l.pages)).any (fun pg => decide (65535 ≤ (s.kvAlloc n).counts.get 0 pg)) = false) ∧ (firstFree (fun q =>
      !s.kv.seqs.has q) (2 ^ 24) = some c) ∧ ((s.setAlloc n ((layers.flatMap (fun l => l.pages)).foldl KvAlloc.raise
      (s.kvAlloc n))).setSeq c { pool := n, gen := s.kv.gens.get 0 c, layers := layers } = u) ∧ (u.ready tok 0x56 d)) ∧
    (∃ (s u : State) (tok : Nat) (d : Desc) (q : KvSeq), (s.kvReady tok 0x57 d) ∧ (s.refRefuses (kvRef d.bits) (dSlice
      d.bits) (dKeySlot d.bits) false = none) ∧ (s.kvSeq (rfSeq (kvRef d.bits)) = some q) ∧ ((s.setAlloc q.pool
      (q.pagesOf.foldl KvAlloc.lower (s.kvAlloc q.pool))).setSeq (rfSeq (kvRef d.bits)) { q with freeing := true } =
      u) ∧ (State.ready { u with kv := { u.kv with freeing := u.kv.freeing ++ [rfSeq (kvRef d.bits)] } } tok 0x57 d)) ∧
    (∃ (s : State) (tok : Nat) (d : Desc) (q : KvSeq), (s.kvReady tok 0x59 d) ∧ (s.refRefuses (kvRef d.bits) (dSlice
      d.bits) (dKeySlot d.bits) true = none) ∧ (s.kvSeq (rfSeq (kvRef d.bits)) = some q) ∧ ((q.resync = false ∨
      (s.kvAlloc q.pool).rollback = [])) ∧ ((s.setSeq (rfSeq (kvRef d.bits)) { q with resync := false }).ready tok
      0x59 d)) ∧
    (∃ (s s1 t u : State) (tok : Nat) (d : Desc) (ext l e : List Byte) (segs : List (List Seg)) (poison ok : Bool),
      (s.kvReady tok 0x5A d) ∧ (s.granted tok 0x5A d [⟨dfield d.bits 24 8, 4 * dfield d.bits 18 2, 1, false⟩] s1 segs)
      ∧ (s.poolRefuses (dfield d.bits 16 1) (dSlice d.bits) (dKeySlot d.bits) = none) ∧ ((s.pool (dfield d.bits 16
      1)).assisted = true) ∧ (State.readSegs d (segs.headD []) ext (s1.begun tok d) = (t, l, poison, e)) ∧
      (t.grantOver (dfield d.bits 16 1) (dfield d.bits 18 2) l = (u, ok))) ∧
    (∃ (s : State) (n pg : Nat), (pg < (s.pool n).pages) ∧ (s.pageUsed n pg = false) ∧ ((s.kvAlloc n).grants.contains
      pg = false) ∧ ((s.kvAlloc n).grants.length < 4096)) :=
  ⟨⟨served (nDesc 0x50) (kvOf pool0), _, _, _, 0, nDesc 0x50, poolBytes, _, _, _, _, _, _, _, granted_of
     (by decide +kernel), eq_ffbf (by decide +kernel), eq_fffb (by decide +kernel), some_of (by decide +kernel), rfl,
     ready_of (by decide +kernel)⟩,
   ⟨served (nDesc 0x50) (kvOf {}), _, _, _, _, _, 0, nDesc 0x50, poolBytes, _, _, _, _, _, _, _, _, granted_of
     (by decide +kernel), eq_ffbf (by decide +kernel), eq_fffb (by decide +kernel), by decide +kernel, eq_fo
     (by decide +kernel), eq_fo (by decide +kernel), by decide +kernel, by decide +kernel, by decide +kernel, rfl,
     ready_of (by decide +kernel)⟩,
   ⟨withDesc (tDesc 0x51)
     { kvOf { pool0 with phase := .destroying } with kv := { allocs := [(0, { destroyer := some 0 })] } }, 0, tDesc
     0x51, ready_of (by decide +kernel), by decide +kernel, by decide +kernel⟩,
   ⟨served (tDesc 0x52) (kvOf pool0), _, 0, 0, _, tDesc 0x52, kv_of (by decide +kernel), by decide +kernel,
     by decide +kernel, by decide +kernel, some_of (by decide +kernel), rfl, ready_of (by decide +kernel)⟩,
   ⟨served (tDesc 0x56) (kvOf pool0 [(0, seq0)]), _, 0, 0, _, tDesc 0x56, seq0, [{}], kv_of (by decide +kernel),
     by decide +kernel, by decide +kernel, by decide +kernel, by decide +kernel, by decide +kernel, by decide +kernel,
     by decide +kernel, by decide +kernel, some_of (by decide +kernel), rfl, ready_of (by decide +kernel)⟩,
   ⟨served (tDesc 0x57) (kvOf pool0 [(0, seq0)]), _, 0, tDesc 0x57, seq0, kv_of (by decide +kernel),
     by decide +kernel, by decide +kernel, rfl, ready_of (by decide +kernel)⟩,
   ⟨served (nDesc 0x59) (kvOf pool0 [(0, { seq0 with resync := true })]), 0, nDesc 0x59, { seq0 with resync := true },
     kv_of (by decide +kernel), by decide +kernel, by decide +kernel, by decide +kernel, ready_of (by decide +kernel)⟩,
   ⟨served (nDesc 0x5A (atB 18 1)) (kvOf { pool0 with assisted := true }), _, _, _, 0, nDesc 0x5A (atB 18 1), [], _,
     _, _, _, _, kv_of (by decide +kernel), granted_of (by decide +kernel), by decide +kernel, by decide +kernel,
     eq_ffff, eq_ff⟩,
   ⟨kvOf pool0, 0, 0, by decide +kernel, by decide +kernel, by decide +kernel, by decide +kernel⟩⟩

/-- States and operands that meet the hypotheses of `KvAccesses`, clause by clause. -/
theorem witness_KvAccesses :
    (∃ (s s1 s2 x t u : State) (tok n new : Nat) (copy poison : Bool) (taken pages : List Nat) (d : Desc) (q : KvSeq)
      (segs : List (List Seg)) (bytes e : List Byte), (s.kvReady tok 0x53 d) ∧ (n = rfPool (kvRef d.bits)) ∧
      (s.refRefuses (kvRef d.bits) (dSlice d.bits) (dKeySlot d.bits) true = none) ∧ (s.kvSeq (rfSeq (kvRef d.bits)) =
      some q) ∧ (q.resync = false) ∧ (q.remote = false) ∧ (s.reqsOn n < 4096) ∧ ((s.kvLayer (kvRef d.bits)).len +
      kvCount d.bits ≤ (s.pool n).maxTokens) ∧ (s.appendNeeds n (s.kvLayer (kvRef d.bits)) (kvCount d.bits) = (copy,
      new)) ∧ (s.takeLocal n (new + boolNat copy) = some (taken, s1)) ∧ (s.acquire tok d [⟨dfield d.bits 32 8, kvCount
      d.bits * (s.pool n).tokenSize, 1, false⟩] = .ready s2 segs) ∧ ((segs.headD []).any (fun x => x.host) = false) ∧
      (s2.setAlloc n (s1.kvAlloc n) = x) ∧ (x.ready tok 0x53 d) ∧ (State.readSegs d (segs.headD []) [] (x.begun tok d)
      = (t, bytes, poison, e)) ∧ (pages = (if copy then (s.kvLayer (kvRef d.bits)).pages.take (ceilDiv (s.kvLayer
      (kvRef d.bits)).len (s.pool n).perPage - 1) ++ taken.take 1 else (s.kvLayer (kvRef d.bits)).pages) ++ taken.drop
      (boolNat copy)) ∧ ({ t with
          kv := { t.kv with
              reqs := t.kv.reqs ++ [{
                  tok := tok, pool := n, seq := rfSeq (kvRef d.bits), layer := rfLayer (kvRef d.bits),
                  newLen := (s.kvLayer (kvRef d.bits)).len + kvCount d.bits,
                  copy := if copy then some ((s.kvLayer (kvRef d.bits)).pages.getD (ceilDiv (s.kvLayer (kvRef d.bits)).len (s.pool n).perPage - 1) 0, taken.headD 0) else none,
                  taken := taken, poison := poison }], cowCopies := t.kv.cowCopies + boolNat copy } } = u)) ∧
    (∃ (s : State) (tok : Nat) (r : KvReq) (d : Desc), (s.kv.reqs.find? (fun r => r.tok == tok) = some r) ∧ (s.desc
      tok = some d)) ∧
    (∃ (s : State) (tok : Nat) (r : KvReq) (d : Desc), (s.kv.reqs.find? (fun r => r.tok == tok) = some r) ∧ (s.desc
      tok = some d) ∧ (s.ctrlBad r.pool = false)) ∧
    (∃ (s : State) (tok : Nat) (r : KvReq) (d : Desc), (s.kv.reqs.find? (fun r => r.tok == tok) = some r) ∧ (s.desc
      tok = some d) ∧ (s.ctrlBad r.pool = false) ∧ (d.awaiting ≤ 1) ∧ (d.cpl.status = ST_OK) ∧ (r.poison = false)) ∧
    (∃ (s : State) (tok : Nat) (r : KvReq) (d : Desc), (s.kv.reqs.find? (fun r => r.tok == tok) = some r) ∧ (s.desc
      tok = some d) ∧ (s.ctrlBad r.pool = false) ∧ (d.awaiting ≤ 1) ∧ (d.cpl.status = ST_OK) ∧ (r.poison = true)) ∧
    (∃ (s t : State) (r : KvReq) (q : KvSeq), (s.kvSeq r.seq = some q) ∧ (r.moves = []) ∧ (r.newLen ≠ 0) ∧ (r.copy =
      none) ∧ ((State.setSeq (State.setAlloc
      { s with kv := { s.kv with reqs := s.kv.reqs.filter (fun x => x.tok != r.tok) } } r.pool (r.taken.foldl
      KvAlloc.raise (s.kvAlloc r.pool))) r.seq { q with
          layers := q.layers.set r.layer { len := r.newLen, pages := (q.layers.getD r.layer {}).pages ++ r.taken } })
      = t)) ∧
    (∃ (s s1 s2 t : State) (tok n : Nat) (d : Desc) (poison : Bool) (runs : List (Nat × Nat × Nat × Nat)), (s.kvReady
      tok 0x54 d) ∧ (n = rfPool (kvRef d.bits)) ∧ (s.refRefuses (kvRef d.bits) (dSlice d.bits) (dKeySlot d.bits) true
      = none) ∧ (kvCount d.bits + dfield d.bits 28 4 ≤ (s.kvLayer (kvRef d.bits)).len) ∧ ((s.isSelf (dfield d.bits 32
      8) = true → s.creditBarred d = false)) ∧ (runs = (s.pool n).runsOf (kvCount d.bits) (dfield d.bits 28 4)) ∧
      (s.engineReady tok ((s.pool n).readRanges (s.kvLayer (kvRef d.bits)) runs) = (s1, true)) ∧ (runs.foldl (fun (s2
      : State) r => s2.readPage n ((s.kvLayer (kvRef d.bits)).pages.getD r.1 0)) s1 = s2) ∧ (s2.ready tok 0x54 d) ∧
      ((s2.begun tok d).kvReadOver tok d (s.pool n) (s.kvLayer (kvRef d.bits)) (dfield d.bits 28 4) (dfield d.bits 32
      8) runs = (t, poison))) ∧
    (∃ (s : State) (tok k : Nat) (l : List Nat) (d : Desc) (q : KvSeq), (s.kvReady tok 0x55 d) ∧ (s.refRefuses (kvRef
      d.bits) (dSlice d.bits) (dKeySlot d.bits) true = none) ∧ (s.kvSeq (rfSeq (kvRef d.bits)) = some q) ∧ (q.remote =
      false) ∧ (s.creditBarred d = false) ∧ (d.uses = k :: l)) ∧
    (∃ (s s1 s2 x : State) (tok n : Nat) (out : Bool) (taken : List Nat) (d : Desc) (q : KvSeq) (pairs : List ((Nat ×
      Nat × Nat) × Nat)), (s.kvReady tok 0x58 d) ∧ (n = rfPool (kvRef d.bits)) ∧ (out = (dfield d.bits 24 1 == 0)) ∧
      (s.refRefuses (kvRef d.bits) (dSlice d.bits) (dKeySlot d.bits) false = none) ∧ (s.kvSeq (rfSeq (kvRef d.bits)) =
      some q) ∧ (q.resync = false) ∧ (s.reqsOn n < 4096) ∧ ((s.movePages n q out).length ≤ dfield d.bits 28 4) ∧ ((if
      out then s.takeOverflow n (s.movePages n q out).length else s.takeLocal n (s.movePages n q out).length) = some
      (taken, s1)) ∧ (pairs = List.zip (s.movePages n q out) taken) ∧ (s.engineReady tok ((s.pool n).moveRanges out
      pairs) = (s2, true)) ∧ (s2.setAlloc n (s1.kvAlloc n) = x) ∧ (x.ready tok 0x58 d)) :=
  ⟨⟨served (tDesc 0x53 (atB 24 1 + atB 32 (2 ^ 40))) (kvOf pool0 [(0, seq0)]), _, _, _, _, _, 0, 0, _, _, _, _, _,
     tDesc 0x53 (atB 24 1 + atB 32 (2 ^ 40)), seq0, _, _, _, kv_of (by decide +kernel), by decide +kernel,
     by decide +kernel, by decide +kernel, by decide +kernel, by decide +kernel, by decide +kernel, by decide +kernel,
     eq_ff, some_ff (by decide +kernel), acq_of (by decide +kernel), by decide +kernel, rfl, ready_of
     (by decide +kernel), eq_ffff, rfl, rfl⟩,
   ⟨withDesc (tDesc 0x53) (kvOf pool0 [(0, seq0)] [kvReq0]), 0, kvReq0, tDesc 0x53, by decide +kernel,
     by decide +kernel⟩,
   ⟨withDesc (tDesc 0x53) (kvOf pool0 [(0, seq0)] [kvReq0]), 0, kvReq0, tDesc 0x53, by decide +kernel,
     by decide +kernel, by decide +kernel⟩,
   ⟨withDesc (tDesc 0x53) (kvOf pool0 [(0, seq0)] [kvReq0]), 0, kvReq0, tDesc 0x53, by decide +kernel,
     by decide +kernel, by decide +kernel, by decide +kernel, by decide +kernel, by decide +kernel⟩,
   ⟨withDesc (tDesc 0x53) (kvOf pool0 [(0, seq0)] [{ kvReq0 with poison := true }]), 0,
     { kvReq0 with poison := true }, tDesc 0x53, by decide +kernel, by decide +kernel, by decide +kernel,
     by decide +kernel, by decide +kernel, by decide +kernel⟩,
   ⟨kvOf pool0 [(0, seq0)] [kvReq0], _, kvReq0, seq0, by decide +kernel, by decide +kernel, by decide +kernel,
     by decide +kernel, rfl⟩,
   ⟨served (tDesc 0x54 (atB 28 1)) (kvOf pool0 [(0, seq1)]), _, _, _, 0, 0, tDesc 0x54 (atB 28 1), _, _, kv_of
     (by decide +kernel), by decide +kernel, by decide +kernel, by decide +kernel, by decide +kernel, rfl, eq_fb
     (by decide +kernel), rfl, ready_of (by decide +kernel), eq_ff⟩,
   ⟨served { tDesc 0x55 with uses := [0] } (kvOf pool0 [(0, seq1)]), 0, 0, [], { tDesc 0x55 with uses := [0] }, seq1,
     kv_of (by decide +kernel), by decide +kernel, by decide +kernel, by decide +kernel, by decide +kernel,
     by decide +kernel⟩,
   ⟨served (tDesc 0x58 (atB 28 1)) (kvOf pool0 [(0, seq1)]), _, _, _, 0, 0, _, _, tDesc 0x58 (atB 28 1), seq1, _,
     kv_of (by decide +kernel), by decide +kernel, rfl, by decide +kernel, by decide +kernel, by decide +kernel,
     by decide +kernel, by decide +kernel, some_ff (by decide +kernel), rfl, eq_fb (by decide +kernel), rfl, ready_of
     (by decide +kernel)⟩⟩

/-- States and operands that meet the hypotheses of `QueueRequests`, clause by clause. -/
theorem witness_QueueRequests :
    (∃ (s s1 s2 u : State) (tok : Nat) (d : Desc) (sp mi : List Seg), (s.ready tok 0x60 d) ∧ (qcFormatOk d.bits =
      true) ∧ ((s.queue (qNum d.bits)).phase = .free) ∧ (s.xlateRange tok d (qAddr d.bits) (dfield d.bits 32 8) 3 =
      (s1, .ok sp)) ∧ ((if dfield d.bits 40 8 = 0 then (s1, .ok []) else s1.xlateRange tok d (dfield d.bits 40 8) 8 3)
      = (s2, .ok mi)) ∧ (s2.areaOk (dSlice d.bits) sp = true) ∧ (s2.areaOk (dSlice d.bits) mi = true) ∧ (piecesMeet
      (sp.map (fun x => (x.addr, x.len))) (mi.map (fun x => (x.addr, x.len))) = false) ∧ ((s2.setQueue (qNum d.bits) {
          phase := .live, slice := dSlice d.bits, key := dKeySlot d.bits, keyEpoch := dKeyEpoch d.bits,
          retain := d.bits.getLsbD 144, maxItem := dfield d.bits 20 4, cap := dfield d.bits 32 8,
          spill := sp.map (fun x => (x.addr, x.len)), mirror := mi.map (fun x => (x.addr, x.len)) }).setEvt
      F.QUE_EVT_CREATED = u) ∧ (u.ready tok 0x60 d)) ∧
    (∃ (s u : State) (tok r : Nat) (d : Desc), (s.ready tok 0x60 d) ∧ ((qcFormatOk d.bits = false ∧ r = Q_FORMAT ∨
      qcFormatOk d.bits = true ∧ (s.queue (qNum d.bits)).phase ≠ .free ∧ r = Q_SLOT)) ∧ ((s.setEvt
      F.QUE_EVT_CREATE_REFUSED).setQue (fun e =>
      { e with lastError := (qNum d.bits, r, LOC_MD, s.tick.now % 2 ^ 32) }) = u) ∧ (u.ready tok 0x60 d)) ∧
    (∃ (s u : State) (tok : Nat) (d : Desc) (q : Queue), (s.queReady tok 0x62 d q) ∧ (q.cap - q.used < itemSize (qLen
      d.bits)) ∧ ((s.setQueue (qNum d.bits) { q with full := q.full + 1 }).setEvt F.QUE_EVT_FULL = u) ∧ (u.ready tok
      0x62 d)) ∧
    (∃ (s s1 s2 t : State) (tok : Nat) (ext data : List Byte) (d : Desc) (q : Queue) (segs : List (List Seg)) (poison
      : Bool), (s.queReady tok 0x62 d q) ∧ (itemSize (qLen d.bits) ≤ q.cap - q.used) ∧ (s.acquire tok d (if qInline
      d.bits then [] else [⟨qAddr d.bits, qLen d.bits, 1, false⟩]) = .ready s1 segs) ∧ (s1.engineReady tok ((q.pieces
      q.tail (itemSize (qLen d.bits))).map (fun p => (p.1, p.2, true))) = (s2, true)) ∧ (s2.ready tok 0x62 d) ∧
      ((s2.begun tok d).pushSource d (segs.headD []) ext = (t, data, poison))) ∧
    (∃ (s : State) (tok : Nat) (d : Desc) (i : QItem), (s.desc tok = some d) ∧ (dOpcode d.bits = 0x62) ∧ (d.awaiting ≤
      1) ∧ ((s.queue (qNum d.bits)).items.find? (fun i => i.push == some tok) = some i) ∧ ((s.queue (qNum
      d.bits)).items.any (fun x => x.push.isSome && decide (x.iseq < i.iseq)) = false)) ∧
    (∃ (s : State) (tok : Nat) (d : Desc) (q : Queue) (i : QItem) (l : List QItem), (s.queReady tok 0x63 d q) ∧
      (q.ready = i :: l) ∧ (takeItems (qMaxItems d.bits) (qMaxBytes d.bits) (i :: l) = [])) ∧
    (∃ (s s1 t u : State) (tok : Nat) (d : Desc) (q : Queue) (got : List QItem) (bytes : List Byte), (s.queReady tok
      0x63 d q) ∧ (takeItems (qMaxItems d.bits) (qMaxBytes d.bits) q.ready = got) ∧ ((got = [] → q.ready = [])) ∧
      (s.engineReady tok ((q.itemRanges got).map (fun p => (p.1, p.2, false))) = (s1, true)) ∧ (s1.ready tok 0x63 d) ∧
      (State.readKeyed q.key q.keyEpoch (q.itemRanges got) (s1.begun tok d) = (t, bytes, false)) ∧ (((t.putQueue (qNum
      d.bits) (q.take got)).fabPutLines tok d (qAddr d.bits) bytes (fun _ => false)).setQue (fun e => { e with
          pops := {
              tok := tok, queue := qNum d.bits,
              items := itemPlaces got } :: e.pops.filter (fun p => (((t.putQueue (qNum d.bits) (q.take got)).fabPutLines tok d (qAddr d.bits) bytes (fun _ => false)).desc p.tok).isSome && p.tok != tok) })
      = u)) ∧
    (∃ (s u : State) (tok : Nat) (d : Desc), (s.ready tok 0x64 d) ∧ (s.queueLost d.bits = false) ∧ (s.queueServes
      d.bits = true) ∧ ((s.emptyQueue (qNum d.bits) (cpl ST_ABORTED Q_FLUSHED)).setEvt F.QUE_EVT_FLUSHED = u) ∧
      (u.ready tok 0x64 d)) ∧
    (∃ (s : State) (tok : Nat) (d : Desc) (q : Queue), (q.retain = false) ∧ (s.queReady tok 0x65 d q)) ∧
    (∃ (s : State) (tok : Nat) (d : Desc) (q : Queue), (q.retain = false) ∧ (s.queReady tok 0x66 d q)) ∧
    (∃ (s : State) (tok : Nat) (d : Desc) (q : Queue), (q.retain = false) ∧ (s.queReady tok 0x67 d q)) ∧
    (∃ (s u : State) (tok : Nat) (d : Desc) (q : Queue), (s.queReady tok 0x65 d q) ∧ (q.retain = true) ∧ (s.putQueue
      (qNum d.bits) { q with marks := q.marks.put (qMark d.bits) q.read } = u) ∧ (u.ready tok 0x65 d)) ∧
    (∃ (s u : State) (tok : Nat) (d : Desc) (q : Queue) (p : Nat × Nat), (s.queReady tok 0x66 d q) ∧ (q.retain = true)
      ∧ (q.markAt (qMark d.bits) = some p) ∧ (s.putQueue (qNum d.bits) { q with read := p } = u) ∧ (u.ready tok 0x66
      d)) ∧
    (∃ (s u : State) (tok : Nat) (d : Desc) (q : Queue) (p : Nat × Nat), (s.queReady tok 0x67 d q) ∧ (q.retain = true)
      ∧ (q.markAt (qMark d.bits) = some p) ∧ (s.putQueue (qNum d.bits) { q with
          items := q.items.filter (fun i => decide (p.1 ≤ i.iseq)),
          marks := q.marks.keep (fun _ m => decide (p.1 ≤ m.1)), read := if q.read.1 < p.1 then p else q.read } = u) ∧
      (u.ready tok 0x67 d)) ∧
    (∃ (s : State) (tok : Nat) (d : Desc) (q : Queue), (q.retain = true) ∧ (q.markAt (qMark d.bits) = none) ∧
      (s.queReady tok 0x66 d q)) ∧
    (∃ (s : State) (tok : Nat) (d : Desc) (q : Queue), (q.retain = true) ∧ (q.markAt (qMark d.bits) = none) ∧
      (s.queReady tok 0x67 d q)) ∧
    (∃ (s : State) (tok : Nat) (d : Desc), (s.ready tok 0x61 d) ∧ ((s.queue (qNum d.bits)).destroyer = some tok) ∧
      (s.queueBusy (qNum d.bits) = false)) :=
  ⟨⟨served (nDesc 0x60 (atB 20 64 + atB 24 (2 ^ 40) + atB 32 8192)) wholeSlice, _, _, _, 0, nDesc 0x60 (atB 20 64 +
     atB 24 (2 ^ 40) + atB 32 8192), _, _, ready_of (by decide +kernel), by decide +kernel, by decide +kernel, eq_fo
     (by decide +kernel), eq_fo (by decide +kernel), by decide +kernel, by decide +kernel, by decide +kernel, rfl,
     ready_of (by decide +kernel)⟩,
   ⟨served (nDesc 0x60) wholeSlice, _, 0, Q_FORMAT, nDesc 0x60, ready_of (by decide +kernel), .inl
     (by decide +kernel), rfl, ready_of (by decide +kernel)⟩,
   ⟨served (tDesc 0x62 (atB 20 8)) (queOf { queue0 with cap := 0 }), _, 0, tDesc 0x62 (atB 20 8),
     { queue0 with cap := 0 }, que_of (by decide +kernel), by decide +kernel, rfl, ready_of (by decide +kernel)⟩,
   ⟨served (tDesc 0x62 (atB 20 8)) (queOf queue0), _, _, _, 0, zeros 8, _, tDesc 0x62 (atB 20 8), queue0, _, _, que_of
     (by decide +kernel), by decide +kernel, acq_of (by decide +kernel), eq_fb (by decide +kernel), ready_of
     (by decide +kernel), eq_fff⟩,
   ⟨withDesc (tDesc 0x62) (queOf { queue1 with items := [{ item0 with push := some 0 }] }), 0, tDesc 0x62,
     { item0 with push := some 0 }, by decide +kernel, by decide +kernel, by decide +kernel, by decide +kernel,
     by decide +kernel⟩,
   ⟨withDesc (tDesc 0x63 (atB 18 1)) (queOf queue1), 0, tDesc 0x63 (atB 18 1), queue1, item0, [], que_of
     (by decide +kernel), by decide +kernel, by decide +kernel⟩,
   ⟨served (tDesc 0x63 (atB 18 1 + atB 20 64)) (queOf queue1), _, _, _, 0, tDesc 0x63 (atB 18 1 + atB 20 64), queue1,
     [item0], _, que_of (by decide +kernel), by decide +kernel, by decide +kernel, eq_fb (by decide +kernel), ready_of
     (by decide +kernel), eq_ffb (by decide +kernel), rfl⟩,
   ⟨withDesc (nDesc 0x64) (queOf queue1), _, 0, nDesc 0x64, ready_of (by decide +kernel), by decide +kernel,
     by decide +kernel, rfl, ready_of (by decide +kernel)⟩,
   ⟨withDesc (tDesc 0x65) (queOf queue1), 0, tDesc 0x65, queue1, by decide +kernel, que_of (by decide +kernel)⟩,
   ⟨withDesc (tDesc 0x66) (queOf queue1), 0, tDesc 0x66, queue1, by decide +kernel, que_of (by decide +kernel)⟩,
   ⟨withDesc (tDesc 0x67) (queOf queue1), 0, tDesc 0x67, queue1, by decide +kernel, que_of (by decide +kernel)⟩,
   ⟨withDesc (tDesc 0x65) (queOf { queue1 with retain := true }), _, 0, tDesc 0x65, { queue1 with retain := true },
     que_of (by decide +kernel), by decide +kernel, rfl, ready_of (by decide +kernel)⟩,
   ⟨withDesc (tDesc 0x66) (queOf { queue1 with retain := true, marks := [(0, (1, 64))] }), _, 0, tDesc 0x66,
     { queue1 with retain := true, marks := [(0, (1, 64))] }, (1, 64), que_of (by decide +kernel), by decide +kernel,
     by decide +kernel, rfl, ready_of (by decide +kernel)⟩,
   ⟨withDesc (tDesc 0x67) (queOf { queue1 with retain := true, marks := [(0, (1, 64))] }), _, 0, tDesc 0x67,
     { queue1 with retain := true, marks := [(0, (1, 64))] }, (1, 64), que_of (by decide +kernel), by decide +kernel,
     by decide +kernel, rfl, ready_of (by decide +kernel)⟩,
   ⟨withDesc (tDesc 0x66) (queOf { queue1 with retain := true }), 0, tDesc 0x66, { queue1 with retain := true },
     by decide +kernel, by decide +kernel, que_of (by decide +kernel)⟩,
   ⟨withDesc (tDesc 0x67) (queOf { queue1 with retain := true }), 0, tDesc 0x67, { queue1 with retain := true },
     by decide +kernel, by decide +kernel, que_of (by decide +kernel)⟩,
   ⟨withDesc (tDesc 0x61) (queOf { queue1 with phase := .destroying, destroyer := some 0 }), 0, tDesc 0x61, ready_of
     (by decide +kernel), by decide +kernel, by decide +kernel⟩⟩

/-- States and operands that meet the hypotheses of `DrainedUnloads`, clause by clause. -/
theorem witness_DrainedUnloads :
    (∃ (s : State) (tok : Nat) (d : Desc), (s.ready tok 0x32 d) ∧ ((s.prog (trHandle d.bits % 256)).unloader = some
      tok) ∧ (s.rings.descs.any (fun _ e => dOpcode e.bits == 0x31 && trHandle e.bits % 256 == trHandle d.bits % 256
      && !e.finished && (e.phase == .admitted || e.phase == .running)) = false)) ∧
    (∃ (s : State) (tok : Nat) (d : Desc), (s.ready tok 0x21 d) ∧ ((s.table (dfield d.bits 16 2)).unloader = some tok)
      ∧ (s.tableBusy (dfield d.bits 16 2) = false)) ∧
    (∃ (s : State) (tok : Nat) (d : Desc), (s.ready tok 0x41 d) ∧ ((s.index (srIndex d.bits)).unloader = some tok) ∧
      (s.indexBusy (srIndex d.bits) = false)) ∧
    (∃ (s : State) (tok : Nat) (d : Desc), (s.ready tok 0x51 d) ∧ ((s.kvAlloc (dfield d.bits 16 1)).destroyer = some
      tok) ∧ (s.rings.descs.any (fun t e => t != tok && !e.finished && (s.kvPools e.bits).contains (dfield d.bits 16
      1) && (e.phase == .admitted || e.phase == .running || e.begun)) = false)) ∧
    (∃ (s : State) (tok : Nat) (d : Desc), (s.ready tok 0x61 d) ∧ ((s.queue (qNum d.bits)).destroyer = some tok) ∧
      (s.queueBusy (qNum d.bits) = false)) :=
  ⟨⟨withDesc (tDesc 0x32) { mtx := { progs := [(0, { unloader := some 0 })] } }, 0, tDesc 0x32, ready_of
     (by decide +kernel), by decide +kernel, by decide +kernel⟩,
   ⟨withDesc (tDesc 0x21) (embState { table0 with phase := .unloading, unloader := some 0 }), 0, tDesc 0x21, ready_of
     (by decide +kernel), by decide +kernel, by decide +kernel⟩,
   ⟨withDesc (tDesc 0x41) (srhState (srhOf [(0, { idx0 with phase := .unloading, unloader := some 0 })])), 0, tDesc
     0x41, ready_of (by decide +kernel), by decide +kernel, by decide +kernel⟩,
   ⟨withDesc (tDesc 0x51)
     { kvOf { pool0 with phase := .destroying } with kv := { allocs := [(0, { destroyer := some 0 })] } }, 0, tDesc
     0x51, ready_of (by decide +kernel), by decide +kernel, by decide +kernel⟩,
   ⟨withDesc (tDesc 0x61) (queOf { queue1 with phase := .destroying, destroyer := some 0 }), 0, tDesc 0x61, ready_of
     (by decide +kernel), by decide +kernel, by decide +kernel⟩⟩

/-- States and operands that meet the hypotheses of `RingsAndQueues`, clause by clause. -/
theorem witness_RingsAndQueues :
    (∃ (s g : State) (path cycle n : Nat) (v : Word), (s.pairReady path Reg.HIF_RING_CTRL v cycle) ∧ (g = s.setGuard
      path none) ∧ (n = s.fld F.HIF_RING_SEL_RING) ∧ (bitOf v 0 = true) ∧ ((s.ring n).state = .disabled) ∧
      (s.ringConfigOk n = true) ∧ (s.ringConfOk = true)) ∧
    (∃ (s g : State) (path cycle n : Nat) (v : Word), (s.pairReady path Reg.HIF_RING_CTRL v cycle) ∧ (g = s.setGuard
      path none) ∧ (n = s.fld F.HIF_RING_SEL_RING) ∧ (bitOf v 0 = true) ∧ ((s.ring n).state = .disabled) ∧
      ((s.ringConfigOk n && s.ringConfOk) = false)) ∧
    (∃ (s g : State) (path cycle n : Nat) (v : Word), (s.pairReady path Reg.HIF_RING_CTRL v cycle) ∧ (g = s.setGuard
      path none) ∧ (n = s.fld F.HIF_RING_SEL_RING) ∧ (bitOf v 0 = true) ∧ ((s.ring n).state ≠ .disabled)) ∧
    (∃ (s g : State) (path cycle n : Nat) (v : Word), (s.pairReady path Reg.HIF_RING_CTRL v cycle) ∧ (g = s.setGuard
      path none) ∧ (n = s.fld F.HIF_RING_SEL_RING) ∧ (bitOf v 0 = false)) ∧
    (∃ (s g : State) (path cycle n : Nat) (v : Word), (s.pairReady path Reg.FAB_SUBQ_CTRL v cycle) ∧ (g = s.setGuard
      path none) ∧ (n = s.fld F.FAB_SUBQ_SEL_QUEUE) ∧ (bitOf v 0 = true) ∧ ((s.subq n).state = .disabled) ∧
      (s.subqConfigOk n = true)) ∧
    (∃ (s g : State) (path cycle n : Nat) (v : Word), (s.pairReady path Reg.FAB_SUBQ_CTRL v cycle) ∧ (g = s.setGuard
      path none) ∧ (n = s.fld F.FAB_SUBQ_SEL_QUEUE) ∧ (bitOf v 0 = true) ∧ ((s.subq n).state = .disabled) ∧
      (s.subqConfigOk n = false)) ∧
    (∃ (s g : State) (path cycle n : Nat) (v : Word), (s.pairReady path Reg.FAB_SUBQ_CTRL v cycle) ∧ (g = s.setGuard
      path none) ∧ (n = s.fld F.FAB_SUBQ_SEL_QUEUE) ∧ (bitOf v 0 = true) ∧ ((s.subq n).state ≠ .disabled)) ∧
    (∃ (s g : State) (path cycle n : Nat) (v : Word), (s.pairReady path Reg.FAB_SUBQ_CTRL v cycle) ∧ (g = s.setGuard
      path none) ∧ (n = s.fld F.FAB_SUBQ_SEL_QUEUE) ∧ (bitOf v 0 = false)) ∧
    (∃ (s u : State) (n value size freed : Nat), (size = 2 ^ rgCqLog (s.ring n).record) ∧ (freed = (value % 65536 +
      size - (s.ring n).cqHead) % size) ∧ (u = s.setRing n
      { s.ring n with cqHead := value % 65536, cqUsed := (s.ring n).cqUsed - freed })) ∧
    (∃ (s : State) (n : Nat), ((s.ring n).state = .active) ∧ ((s.ring n).sqHead ≠ (s.ring n).sqTail) ∧ (0 < s.ringRoom
      n)) ∧
    (∃ (s u : State) (tok : Nat) (d : Desc) (n : _), (s.desc tok = some d) ∧ (d.finished = true) ∧ (s.mustWait tok d =
      false) ∧ (d.gone = false) ∧ (u = { s.dropDesc tok with
          rings := { (s.dropDesc tok).rings with
              past := (d.src.code, dSeq d.bits, d.index) :: (s.dropDesc tok).rings.past } }) ∧ (d.src = .ring n)) ∧
    (∃ (s u : State) (tok : Nat) (d : Desc) (n : _), (s.desc tok = some d) ∧ (d.finished = true) ∧ (s.mustWait tok d =
      false) ∧ (d.gone = false) ∧ (u = { s.dropDesc tok with
          rings := { (s.dropDesc tok).rings with
              past := (d.src.code, dSeq d.bits, d.index) :: (s.dropDesc tok).rings.past } }) ∧ (d.src = .subq n)) ∧
    (∃ (s u : State) (n : Nat) (d : Desc), (rgAssist (s.ring n).record = false) ∧ ((s.emit (.hostWrite (rgPort (s.ring
      n).record) (rgCqBase (s.ring n).record + (s.ring n).cqTail * 32) (complBytes d (s.ring n).phase))).setRing n
      { (s.ring n).advanceCq with completions := (s.ring n).completions + 1 } = u)) ∧
    (∃ (s : State) (n : Nat), ((s.ring n).modArmed = true) ∧ (0 < (s.ring n).sinceMsg)) :=
  ⟨⟨armedWith Reg.HIF_RING_CTRL 1 (ringOf ring0), _, 8, 63, _, 1, pair_of (by decide +kernel), rfl, rfl,
     by decide +kernel, by decide +kernel, by decide +kernel, by decide +kernel⟩,
   ⟨armedWith Reg.HIF_RING_CTRL 1, _, 8, 63, _, 1, pair_of (by decide +kernel), rfl, rfl, by decide +kernel,
     by decide +kernel, by decide +kernel⟩,
   ⟨armedWith Reg.HIF_RING_CTRL 1 (ringOf { ring0 with state := .active }), _, 8, 63, _, 1, pair_of
     (by decide +kernel), rfl, rfl, by decide +kernel, by decide +kernel⟩,
   ⟨armedWith Reg.HIF_RING_CTRL 0 (ringOf { ring0 with state := .active }), _, 8, 63, _, 0, pair_of
     (by decide +kernel), rfl, rfl, by decide +kernel⟩,
   ⟨armedWith Reg.FAB_SUBQ_CTRL 1 (ringOf ring0 subq0), _, 8, 63, _, 1, pair_of (by decide +kernel), rfl, rfl,
     by decide +kernel, by decide +kernel, by decide +kernel⟩,
   ⟨armedWith Reg.FAB_SUBQ_CTRL 1, _, 8, 63, _, 1, pair_of (by decide +kernel), rfl, rfl, by decide +kernel,
     by decide +kernel, by decide +kernel⟩,
   ⟨armedWith Reg.FAB_SUBQ_CTRL 1 (ringOf ring0 { subq0 with state := .active }), _, 8, 63, _, 1, pair_of
     (by decide +kernel), rfl, rfl, by decide +kernel, by decide +kernel⟩,
   ⟨armedWith Reg.FAB_SUBQ_CTRL 0 (ringOf ring0 { subq0 with state := .active }), _, 8, 63, _, 0, pair_of
     (by decide +kernel), rfl, rfl, by decide +kernel⟩,
   ⟨ringOf { ring0 with state := .active, cqTail := 3, cqUsed := 3 }, _, 0, 2, _, _, rfl, rfl, rfl⟩,
   ⟨ringOf { ring0 with state := .active, sqTail := 1 }, 0, by decide +kernel, by decide +kernel, by decide +kernel⟩,
   ⟨withDesc { nDesc 0 with phase := .finished } (ringOf ring0), _, 0, { nDesc 0 with phase := .finished }, 0,
     by decide +kernel, by decide +kernel, by decide +kernel, by decide +kernel, rfl, by decide +kernel⟩,
   ⟨withDesc { nDesc 0 with phase := .finished, src := .subq 0 } (ringOf ring0), _, 0,
     { nDesc 0 with phase := .finished, src := .subq 0 }, 0, by decide +kernel, by decide +kernel, by decide +kernel,
     by decide +kernel, rfl, by decide +kernel⟩,
   ⟨ringOf ring0, _, 0, nDesc 0, by decide +kernel, rfl⟩,
   ⟨ringOf { ring0 with modArmed := true, sinceMsg := 1 }, 0, by decide +kernel, by decide +kernel⟩⟩

/-- States and operands that meet the hypotheses of `DescriptorArrival`, clause by clause. -/
theorem witness_DescriptorArrival :
    (∃ (s u : State) (src : Src) (bits : DescBits) (d : Desc) (c : _), (d = {
          bits := bits, src := src, index := s.rings.arrivals.get 0 src.code, arrived := s.tick.now,
          phase := .waiting, requested := s.requestedTick (dTarget bits) }) ∧ (u = { s with
          rings := { s.rings with
              nextTok := s.rings.nextTok + 1,
              arrivals := s.rings.arrivals.put src.code (s.rings.arrivals.get 0 src.code + 1) } }) ∧ (u.arrivalCheck d
      = some c)) ∧
    (∃ (s u : State) (src : Src) (bits : DescBits) (d : Desc), (d = {
          bits := bits, src := src, index := s.rings.arrivals.get 0 src.code, arrived := s.tick.now,
          phase := .waiting, requested := s.requestedTick (dTarget bits) }) ∧ (u = { s with
          rings := { s.rings with
              nextTok := s.rings.nextTok + 1,
              arrivals := s.rings.arrivals.put src.code (s.rings.arrivals.get 0 src.code + 1) } }) ∧ (u.arrivalCheck d
      = none) ∧ (opKind (dOpcode bits) ≠ some .t)) ∧
    (∃ (s u : State) (src : Src) (bits : DescBits) (d : Desc) (x st r : _), (d = {
          bits := bits, src := src, index := s.rings.arrivals.get 0 src.code, arrived := s.tick.now,
          phase := .waiting, requested := s.requestedTick (dTarget bits) }) ∧ (u = { s with
          rings := { s.rings with
              nextTok := s.rings.nextTok + 1,
              arrivals := s.rings.arrivals.put src.code (s.rings.arrivals.get 0 src.code + 1) } }) ∧ (u.arrivalCheck d
      = none) ∧ (opKind (dOpcode bits) = some .t) ∧ (x = u.withPath { d with cost := opCost d u }) ∧ (u.admissionCheck
      x = some (st, r))) ∧
    (∃ (s u : State) (src : Src) (bits : DescBits) (d : Desc) (x : _), (d = {
          bits := bits, src := src, index := s.rings.arrivals.get 0 src.code, arrived := s.tick.now,
          phase := .waiting, requested := s.requestedTick (dTarget bits) }) ∧ (u = { s with
          rings := { s.rings with
              nextTok := s.rings.nextTok + 1,
              arrivals := s.rings.arrivals.put src.code (s.rings.arrivals.get 0 src.code + 1) } }) ∧ (u.arrivalCheck d
      = none) ∧ (opKind (dOpcode bits) = some .t) ∧ (x = u.withPath { d with cost := opCost d u }) ∧ (u.admissionCheck
      x = none)) :=
  ⟨⟨ringOf ring0, _, .ring 0, bitsOp 0xFF, _, _, rfl, rfl, some_of (by decide +kernel)⟩,
   ⟨ringOf ring0, _, .ring 0, bitsOp 0x00, _, rfl, rfl, by decide +kernel, by decide +kernel⟩,
   ⟨ringOf ring0, _, .ring 0, bitsOp 0x11 (atB 4 100 + atB 32 64), _, _, _, _, rfl, rfl, by decide +kernel,
     by decide +kernel, rfl, some_ff (by decide +kernel)⟩,
   ⟨ringOf ring0, _, .ring 0, bitsOp 0x11 (atB 32 64), _, _, rfl, rfl, by decide +kernel, by decide +kernel, rfl,
     by decide +kernel⟩⟩

/-- States and operands that meet the hypotheses of `ControlDescriptors`, clause by clause. -/
theorem witness_ControlDescriptors :
    (∃ (s : State) (tok : Nat) (d : Desc), (s.ready tok 0x00 d)) ∧
    (∃ (s : State) (tok : Nat) (d : Desc), (s.ready tok 0x02 d)) ∧
    (∃ (s : State) (tok : Nat) (d : Desc), (s.ready tok 0x03 d)) ∧
    (∃ (s : State) (tok : Nat) (d : Desc), (s.desc tok = some d) ∧ (dOpcode d.bits = 0x02) ∧ (d.begun = true) ∧
      (d.finished = false) ∧ (s.rings.descs.any (fun k e => decide (k < tok) && e.src == d.src) = false)) ∧
    (∃ (s : State) (tok : Nat) (d : Desc), (s.ready tok 0x01 d) ∧ ((s.begun tok d).liveTarget tok d = none)) ∧
    (∃ (s u : State) (tok t i : Nat) (d x : Desc), (s.ready tok 0x01 d) ∧ ((s.begun tok d).liveTarget tok d = some (t,
      i)) ∧ ((∀ j, (s.begun tok d).pastTarget d = some j → j ≤ i)) ∧ ((s.begun tok d).abortAfter tok t = u) ∧ (u.desc
      t = some x)) ∧
    (∃ (s u : State) (tok : Nat) (d : Desc) (c : Option Cpl), (s.ready tok 0x04 d) ∧ (s.rings.descs.any (fun k e =>
      decide (k < tok) && e.src == d.src && !e.finished) = false) ∧ ((s.begun tok d).storeFlag tok d (dfield d.bits 16
      8) (leBytes 8 (dfield d.bits 24 8)) = (u, c))) ∧
    (∃ (s : State) (addr : Nat), (¬ (faDevice addr = s.fld F.FAB_DEVID_DEVID ∧ s.fab.devidSet = true))) ∧
    (∃ (s : State) (tok : Nat) (d : Desc), (s.ready tok 0x05 d)) ∧
    (∃ (s : State) (tok n w r : Nat) (d : Desc), (s.ready tok 0xF2 d) ∧ (s.assisted 2 = true) ∧ (d.src = .ring r) ∧
      (rgPort (s.ring r).record = s.fld F.HIF_FN_MODE_PORT) ∧ (n = dfield d.bits 16 1) ∧ (w = dfield d.bits 17 1)) ∧
    (∃ (s : State) (tok : Nat) (d : Desc), (s.ready tok 0xF2 d) ∧ (s.assisted 2 = false)) ∧
    (∃ (s : State) (path cycle : Nat) (v : Word), (s.pairReady path Reg.HIF_FN_MODE v cycle)) :=
  ⟨⟨withDesc (nDesc 0x00), 0, nDesc 0x00, ready_of (by decide +kernel)⟩,
   ⟨withDesc (nDesc 0x02), 0, nDesc 0x02, ready_of (by decide +kernel)⟩,
   ⟨withDesc (nDesc 0x03), 0, nDesc 0x03, ready_of (by decide +kernel)⟩,
   ⟨withDesc { tDesc 0x02 with begun := true }, 0, { tDesc 0x02 with begun := true }, by decide +kernel,
     by decide +kernel, by decide +kernel, by decide +kernel, by decide +kernel⟩,
   ⟨withDesc (nDesc 0x01), 0, nDesc 0x01, ready_of (by decide +kernel), by decide +kernel⟩,
   ⟨{ rings := { descs := [(0, nDesc 0x00), (1, { nDesc 0x01 with index := 1 })] } }, _, 1, 0, 0,
     { nDesc 0x01 with index := 1 }, nDesc 0x00, ready_of (by decide +kernel), by decide +kernel, past_of
     (by decide +kernel), rfl, by decide +kernel⟩,
   ⟨withDesc (tDesc 0x04), _, 0, tDesc 0x04, _, ready_of (by decide +kernel), by decide +kernel, eq_ff⟩,
   ⟨{}, 0, by decide +kernel⟩,
   ⟨withDesc (tDesc 0x05), 0, tDesc 0x05, ready_of (by decide +kernel)⟩,
   ⟨withDesc (nDesc 0xF2) { regs := { words := [(Reg.HIF_FN_MODE, 4)] } }, 0, _, _, 0, nDesc 0xF2, ready_of
     (by decide +kernel), by decide +kernel, by decide +kernel, by decide +kernel, rfl, rfl⟩,
   ⟨withDesc (nDesc 0xF2), 0, nDesc 0xF2, ready_of (by decide +kernel), by decide +kernel⟩,
   ⟨armedWith Reg.HIF_FN_MODE 0, 8, 63, 0, pair_of (by decide +kernel)⟩⟩

/-- States and operands that meet the hypotheses of `CopyAndFill`, clause by clause. -/
theorem witness_CopyAndFill :
    (∃ (s s1 : State) (tok : Nat) (d : Desc) (ext : List Byte) (done : List (List (List Seg))) (stop : Option Cpl)
      (fill : Bool) (r : State × Bool × List Byte), (s.grantedTiles tok (if fill then 0x11 else 0x10) d ((copyPieces
      fill d.bits).map (copyNeeds fill d.bits)) s1 done stop) ∧ (copyRefused fill d s = none) ∧ ((List.zip (copyPieces
      fill d.bits) done).foldl (State.copyStep tok d fill) (s1.begun tok d, false, ext) = r)) ∧
    (∃ (s : State) (tok : Nat) (d : Desc) (fill : Bool), (s.ready tok (if fill then 0x11 else 0x10) d) ∧
      (s.units.lostDies.contains (homeDie (s.srcCtx d.src)) = true)) ∧
    (∃ (s t : State) (tok : Nat) (d : Desc) (fill q : Bool) (ext e : List Byte) (x : (Nat × Nat) × List (List Seg)),
      (s.copyPiece tok d fill ext x.1 x.2 = (t, q, e))) ∧
    (∃ (d : Desc), (cpDstFab d.bits = false)) ∧
    (∃ (s t : State) (n : Nat) (d : Desc) (ext l e : List Byte) (segs : List (List Seg)) (x : Seg) (bad : Bool),
      (cpSrcFab d.bits = false) ∧ (cpDstFab d.bits = false) ∧ (copyOverlap d.bits = false) ∧ (x = (segs.headD
      []).headD ⟨true, 0, 0⟩) ∧ ((x.host = true ∨ x.host = false ∧ s.descServed d = true ∧ s.homePoison x.addr n = 0))
      ∧ (State.readSegs d (segs.headD []) ext s = (t, l, bad, e))) :=
  ⟨⟨served (tDesc 0x11 (atB 32 64)), _, 0, tDesc 0x11 (atB 32 64), [], _, _, true, _, tiles_of (by decide +kernel),
     by decide +kernel, rfl⟩,
   ⟨withDesc (tDesc 0x10) { units := { lostDies := [homeDie 0] } }, 0, tDesc 0x10, false, ready_of
     (by decide +kernel), by decide +kernel⟩,
   ⟨{}, _, 0, tDesc 0x11, true, _, [], _, ((0, 64), []), eq_fff⟩,
   ⟨tDesc 0x11, by decide +kernel⟩,
   ⟨{}, _, 0, tDesc 0x10, [], _, _, [], ⟨true, 0, 0⟩, _, by decide +kernel, by decide +kernel, by decide +kernel,
     by decide +kernel, .inl (by decide +kernel), eq_ffff⟩⟩

/-- States and operands that meet the hypotheses of `FunctionResetsAndLinks`, clause by clause. -/
theorem witness_FunctionResetsAndLinks :
    (∃ (s : State) (path cycle : Nat) (v : Word), (s.pairReady path Reg.IDN_FN_RESET v cycle) ∧ (bitOf v 8 = true)) ∧
    (∃ (s : State) (p : Nat), (s.boot.fnReset.contains p = true)) ∧
    (∃ (s : State) (p : Nat), (s.boot.fnReset.contains p = false)) ∧
    (∃ (s u : State) (p : Nat), (s.boot.fnReset.contains p = true) ∧ ((s.rings.descs.filter (fun e => s.onPort p
      e.2.src && e.2.gone && e.2.finished)).foldl (fun (s : State) e => s.dropDesc e.1) s = u)) ∧
    (∃ (s u : State) (p rate width : Nat), (((s.setHport p
      { s.hport p with up := rate != 0 && width != 0, rate := rate, width := width }).setEvt
      F.HIF_EVT_LINK_CHANGE).event 0 (locHostPort p) (rate + at_ 8 width) = u)) ∧
    (∃ (s : State) (p : Nat), ((s.hport p).up = true)) ∧
    (∃ (s : State) (p : Nat), ((s.hport p).up = false)) :=
  ⟨⟨armedWith Reg.IDN_FN_RESET 0x100, 8, 63, 0x100, pair_of (by decide +kernel), by decide +kernel⟩,
   ⟨{ boot := { fnReset := [0] } }, 0, by decide +kernel⟩,
   ⟨{}, 0, by decide +kernel⟩,
   ⟨{ boot := { fnReset := [0] } }, _, 0, by decide +kernel, rfl⟩,
   ⟨{}, _, 0, 0, 0, rfl⟩,
   ⟨{ host := { ports := [(0, { up := true })] } }, 0, by decide +kernel⟩,
   ⟨{}, 0, by decide +kernel⟩⟩

/-- States and operands that meet the hypotheses of `PowerAndStacks`, clause by clause. -/
theorem witness_PowerAndStacks :
    (∃ (s g : State) (path cycle : Nat) (v : Word), (s.pairReady path Reg.PWR_CAP v cycle) ∧ (g = s.setGuard path
      none)) ∧
    (∃ (s g : State) (path cycle : Nat) (v : Word), (s.pairReady path Reg.PWR_THERM v cycle) ∧ (g = s.setGuard path
      none)) ∧
    (∃ (s : State) (path cycle new stat : Nat) (on off : List Nat) (keep fresh : List (Nat × Nat)) (v : Word),
      (s.mayWrite path B_PWR = true) ∧ (new = bitsOf v 0 24) ∧ (stat = s.fld F.PWR_ISLAND_STAT_ON) ∧ (off =
      (List.range 24).filter (fun h => (s.fld F.PWR_ISLAND_REQ_ON).testBit h && !new.testBit h && stat.testBit h)) ∧
      (on = (List.range 24).filter (fun h => new.testBit h && !stat.testBit h)) ∧ (keep = s.tick.islandOn.filter (fun
      e => on.contains e.1)) ∧ (fresh = (on.filter (fun h => !keep.any (fun e => e.1 == h))).map (fun h => (h,
      cycle)))) ∧
    (∃ (s g : State) (path cycle h : Nat) (x : Split) (v : Word) (r : _), (s.pairReady path Reg.TIR_SPLIT v cycle) ∧
      (g = s.setGuard path none) ∧ (h = s.fld F.TIR_REGION_SEL_REGION) ∧ (x =
      { tier := bitsOf v 24 8, rcache := bitsOf v 16 8, kvhot := bitsOf v 8 8, scratch := bitsOf v 0 8 }) ∧ ((128 <
      splitSum x ∧ r = SPLIT_SUM ∨ splitSum x ≤ 128 ∧ x.scratch < ceilDiv (s.scratchUsed h) 1024 ∧ r = SPLIT_SCRATCH ∨
      splitSum x ≤ 128 ∧ ceilDiv (s.scratchUsed h) 1024 ≤ x.scratch ∧ s.tier.splitPending.has h = true ∧ r =
      SPLIT_BUSY ∨ splitSum x ≤ 128 ∧ ceilDiv (s.scratchUsed h) 1024 ≤ x.scratch ∧ s.tier.splitPending.has h = false ∧
      splitSum x ≠ 0 ∧ (s.fld F.PWR_ISLAND_STAT_ON).testBit h = false ∧ r = SPLIT_ISLAND))) ∧
    (∃ (s g : State) (path cycle h : Nat) (x : Split) (v : Word), (s.pairReady path Reg.TIR_SPLIT v cycle) ∧ (g =
      s.setGuard path none) ∧ (h = s.fld F.TIR_REGION_SEL_REGION) ∧ (x =
      { tier := bitsOf v 24 8, rcache := bitsOf v 16 8, kvhot := bitsOf v 8 8, scratch := bitsOf v 0 8 }) ∧ (splitSum
      x ≤ 128) ∧ (ceilDiv (s.scratchUsed h) 1024 ≤ x.scratch) ∧ (s.tier.splitPending.has h = false) ∧ ((splitSum x = 0
      ∨ (s.fld F.PWR_ISLAND_STAT_ON).testBit h = true))) ∧
    (∃ (s u : State) (c ns : Nat) (found : List EccError), (c < 192) ∧ (s.dchanIn c = true) ∧ (found.foldl
      (State.eccFound c ns) s = u)) ∧
    (∃ (s u : State) (k t : Nat), (k < 12) ∧ (u = { s with
          stk := { s.stk with
              stackTab := s.stk.stackTab.put k { s.stk.stackTab.get {} k with
                  tempC := t, hot := decide (85 < t) } } }) ∧ (85 < t)) ∧
    (∃ (s u : State) (k t : Nat), (k < 12) ∧ (u = { s with
          stk := { s.stk with
              stackTab := s.stk.stackTab.put k { s.stk.stackTab.get {} k with
                  tempC := t, hot := decide (85 < t) } } }) ∧ (t ≤ 85)) :=
  ⟨⟨armedWith Reg.PWR_CAP 500, _, 8, 63, 500, pair_of (by decide +kernel), rfl⟩,
   ⟨armedWith Reg.PWR_THERM 0, _, 8, 63, 0, pair_of (by decide +kernel), rfl⟩,
   ⟨{}, 8, 63, _, _, _, _, _, _, 1, by decide +kernel, rfl, rfl, rfl, rfl, rfl, rfl⟩,
   ⟨armedWith Reg.TIR_SPLIT 0xFFFFFFFF, _, 8, 63, _, _, 0xFFFFFFFF, SPLIT_SUM, pair_of (by decide +kernel), rfl, rfl,
     rfl, .inl (by decide +kernel)⟩,
   ⟨armedWith Reg.TIR_SPLIT 0, _, 8, 63, _, _, 0, pair_of (by decide +kernel), rfl, rfl, rfl, by decide +kernel,
     by decide +kernel, by decide +kernel, .inl (by decide +kernel)⟩,
   ⟨{ stk := { chans := [(0, { trained := true })] } }, _, 0, 0, [], by decide +kernel, by decide +kernel, rfl⟩,
   ⟨{}, _, 0, 90, by decide +kernel, rfl, by decide +kernel⟩,
   ⟨{}, _, 0, 80, by decide +kernel, rfl, by decide +kernel⟩⟩

/-- States and operands that meet the hypotheses of `KeySlotsAndOtp`, clause by clause. -/
theorem witness_KeySlotsAndOtp :
    (∃ (s s1 t : State) (tok : Nat) (ext l e : List Byte) (d : Desc) (segs : List (List Seg)), (s.granted tok 0xA0 d
      [⟨dfield d.bits 24 8, 64, 1, false⟩] s1 segs) ∧ (dKeySlot d.bits = 0) ∧ (slotOperandsOk d.bits = true) ∧
      (State.readSegs d (segs.headD []) ext s1 = (t, l, false, e)) ∧ (t.sec.fuses.getLsbD 8 = false) ∧ ((t.slot
      (dfield d.bits 16 1)).phase = .free) ∧ (t.slotNamed (dfield d.bits 16 1) = false) ∧ (t.sliceExists (dfield
      d.bits 17 1) = true) ∧ (t.ready tok 0xA0 d)) ∧
    (∃ (s : State) (tok : Nat) (d : Desc), (s.ready tok 0xA0 d) ∧ (dKeySlot d.bits ≠ 0)) ∧
    (∃ (s : State) (tok : Nat) (d : Desc), (s.ready tok 0xA0 d) ∧ (dKeySlot d.bits = 0) ∧ (slotOperandsOk d.bits =
      false)) ∧
    (∃ (s : State) (path cycle k : Nat) (v : Word), (s.pairReady path Reg.SEC_SLOT_CTRL v cycle) ∧ (bitOf v 0 = true)
      ∧ (k = s.fld F.SEC_SLOT_SEL_SLOT)) ∧
    (∃ (s u : State) (k : Nat), ((s.slotDescs k (fun _ => true)) = []) ∧ ((s.releaseObjects k).tierForget k = u)) ∧
    (∃ (s : State) (path cycle r : Nat) (v : Word) (e : _), (s.pairReady path Reg.SEC_OTP_CTRL v cycle) ∧ (bitOf v 31
      = true) ∧ (r = bitsOf v 0 8) ∧ (s.sec.otpRefused r = some e)) ∧
    (∃ (s : State) (path cycle r : Nat) (v : Word), (s.pairReady path Reg.SEC_OTP_CTRL v cycle) ∧ (bitOf v 31 = true)
      ∧ (r = bitsOf v 0 8) ∧ (s.sec.otpRefused r = none)) ∧
    (∃ (s : State) (k : Nat) (w : Wide) (l : List (Nat × Wide)), (s.sec.otpBusy = (k, w) :: l)) :=
  ⟨⟨served (nDesc 0xA0 (atB 16 1)) wholeSlice, _, _, 0, zeros 64, _, _, nDesc 0xA0 (atB 16 1), _, granted_of
     (by decide +kernel), by decide +kernel, by decide +kernel, eq_ffbf (by decide +kernel), by decide +kernel,
     by decide +kernel, by decide +kernel, by decide +kernel, ready_of (by decide +kernel)⟩,
   ⟨withDesc (nDesc 0xA0 (atB 12 1)), 0, nDesc 0xA0 (atB 12 1), ready_of (by decide +kernel), by decide +kernel⟩,
   ⟨withDesc (nDesc 0xA0), 0, nDesc 0xA0, ready_of (by decide +kernel), by decide +kernel, by decide +kernel⟩,
   ⟨armedWith Reg.SEC_SLOT_CTRL 1, 8, 63, _, 1, pair_of (by decide +kernel), by decide +kernel, rfl⟩,
   ⟨{}, _, 1, by decide +kernel, rfl⟩,
   ⟨armedWith Reg.SEC_OTP_CTRL 0x80000080, 8, 63, _, 0x80000080, _, pair_of (by decide +kernel), by decide +kernel,
     rfl, some_of (by decide +kernel)⟩,
   ⟨armedWith Reg.SEC_OTP_CTRL 0x80000010 { sec := { otpData := otp0 } }, 8, 63, _, 0x80000010, pair_of
     (by decide +kernel), by decide +kernel, rfl, by decide +kernel⟩,
   ⟨{ sec := { otpBusy := [(64, otp0)] } }, 64, otp0, [], by decide +kernel⟩⟩

/-- States and operands that meet the hypotheses of `ScanPortAndDebug`, clause by clause. -/
theorem witness_ScanPortAndDebug :
    (∃ (s t : State) (x : Nat), (s.draw = (x, t))) ∧
    (∃ (s : State), (s.sec.fuses.getLsbD 0 = true)) ∧
    (∃ (s t : State) (x : Nat), (s.sec.fuses.getLsbD 0 = false) ∧ ((if s.sec.fuses.getLsbD 8 then s else
      s.openDebug).draw = (x, t))) :=
  ⟨⟨{}, _, _, eq_ff⟩,
   ⟨{}, by decide +kernel⟩,
   ⟨{ sec := { fuses := 0 } }, _, _, by decide +kernel, eq_ff⟩⟩

/-- States and operands that meet the hypotheses of `BounceFrames`, clause by clause. -/
theorem witness_BounceFrames :
    (∃ (s s1 t : State) (tok k p : Nat) (d : Desc) (ext : List Byte) (done tiles : List (List (List Seg))) (stop why :
      Option Cpl) (failed : Bool), (s.srcPort d.src = some p) ∧ (s.bounceWaits tok p d = false) ∧ (s.grantedTiles tok
      0xA1 d (bounceTiles 2 d s) s1 done stop) ∧ (bounceStops true d s = none) ∧ (deviceTiles done stop = (tiles,
      why)) ∧ ((s1.begun tok d).takeFrames tok p d 0 tiles ((List.range (bnFrames d.bits)).map (fun i => (ext.drop
      (4160 * i)).take 4160)) = (t, k, failed))) ∧
    (∃ (s s1 t : State) (tok k p : Nat) (d : Desc) (b : BouncePort) (done tiles : List (List (List Seg))) (stop why :
      Option Cpl) (poison : Bool), (s.grantedTiles tok 0xA2 d (bounceTiles 1 d s) s1 done stop) ∧ (bounceStops false d
      s = none) ∧ (deviceTiles done stop = (tiles, why)) ∧ ((s1.begun tok d).srcPort d.src = some p) ∧ (b =
      s1.sec.bounce.get { key := [] } p) ∧ (State.giveFrames { s1.begun tok d with
          sec := { s1.sec with bounce := s1.sec.bounce.put p { b with next := b.next + bnFrames d.bits } } } p b.next
      b.key d 0 tiles = (t, k, poison))) ∧
    (∃ (s : State) (d : Desc) (t : List (List Seg)) (u : State) (l e : List Byte) (poison : Bool), (State.readSegs d
      (t.headD []) [] s = (u, l, poison, e))) ∧
    (∃ (s : State) (tok : Nat) (d : Desc), (s.bounceServed d = false) ∧ (s.ready tok 0xA1 d) ∧ (s.bounceWaits tok
      ((s.srcPort d.src).getD 0) d = false)) ∧
    (∃ (s : State) (tok : Nat) (d : Desc), (s.bounceServed d = false) ∧ (s.ready tok 0xA2 d)) :=
  ⟨⟨served (tDesc 0xA1 (atB 24 (2 ^ 40) + atB 32 64)) bounceOf, _, _, 0, _, 0, tDesc 0xA1 (atB 24 (2 ^ 40) + atB 32
     64), [], _, _, _, _, _, by decide +kernel, by decide +kernel, tiles_of (by decide +kernel), by decide +kernel,
     eq_ff, eq_fff⟩,
   ⟨served (tDesc 0xA2 (atB 24 (2 ^ 40) + atB 32 64)) bounceOf, _, _, 0, _, 0, tDesc 0xA2 (atB 24 (2 ^ 40) + atB 32
     64), _, _, _, _, _, _, tiles_of (by decide +kernel), by decide +kernel, eq_ff, by decide +kernel, rfl, eq_fff⟩,
   ⟨served (tDesc 0xA2) bounceOf, tDesc 0xA2, [], _, _, _, _, eq_ffff⟩,
   ⟨withDesc (tDesc 0xA1), 0, tDesc 0xA1, by decide +kernel, ready_of (by decide +kernel), by decide +kernel⟩,
   ⟨withDesc (tDesc 0xA2), 0, tDesc 0xA2, by decide +kernel, ready_of (by decide +kernel)⟩⟩

/-- States and operands that meet the hypotheses of `AttestationRequests`, clause by clause. -/
theorem witness_AttestationRequests :
    (∃ (s a : State) (via : Via) (t : Nat) (c : SpdmConn), (t = via.transport) ∧ (t < 10) ∧ (c =
      { s.conn t with mseq := via.mseq }) ∧ (a = s.setConn t c)) ∧
    (∃ (s a : State) (via : Via) (t : Nat) (c : SpdmConn), (t = via.transport) ∧ (t < 10) ∧ (c =
      { s.conn t with mseq := via.mseq }) ∧ (a = s.setConn t c) ∧ (c.ready = true)) ∧
    (∃ (s a : State) (via : Via) (t : Nat) (c : SpdmConn) (off len part : _), (t = via.transport) ∧ (t < 10) ∧ (c =
      { s.conn t with mseq := via.mseq }) ∧ (a = s.setConn t c) ∧ (c.ready = true) ∧ (part = (a.chain.drop off).take
      (min len 4000))) ∧
    (∃ (s a : State) (via : Via) (t : Nat) (c : SpdmConn) (body : _), (t = via.transport) ∧ (t < 10) ∧ (c =
      { s.conn t with mseq := via.mseq }) ∧ (a = s.setConn t c) ∧ (c.ready = true) ∧ (body = leBytes 1 0 ++
      Config.sha384 a.chain)) ∧
    (∃ (s a : State) (via : Via) (t : Nat) (c : SpdmConn) (block body : _), (t = via.transport) ∧ (t < 10) ∧ (c =
      { s.conn t with mseq := via.mseq }) ∧ (a = s.setConn t c) ∧ (c.ready = true) ∧ (body = (if block = 0 then
      leBytes 1 9 else if block = 0xFF then ((List.range 9).map (fun i => a.blockForm a.reported (i + 1))).flatten
      else a.blockForm a.reported block))) ∧
    (∃ (s a : State) (via : Via) (t : Nat) (c : SpdmConn), (t = via.transport) ∧ (t < 10) ∧ (c =
      { s.conn t with mseq := via.mseq }) ∧ (a = s.setConn t c) ∧ (c.ready = true)) ∧
    (∃ (s a : State) (via : Via) (t : Nat) (c : SpdmConn) (id : _), (t = via.transport) ∧ (t < 10) ∧ (c =
      { s.conn t with mseq := via.mseq }) ∧ (a = s.setConn t c) ∧ (c.ready = true) ∧ (c.session id = none)) ∧
    (∃ (s a : State) (via : Via) (t : Nat) (c : SpdmConn) (id x : _), (t = via.transport) ∧ (t < 10) ∧ (c =
      { s.conn t with mseq := via.mseq }) ∧ (a = s.setConn t c) ∧ (c.ready = true) ∧ (c.session id = some x)) ∧
    (∃ (s a : State) (via : Via) (t : Nat) (c : SpdmConn) (id x : _), (t = via.transport) ∧ (t < 10) ∧ (c =
      { s.conn t with mseq := via.mseq }) ∧ (a = s.setConn t c) ∧ (c.ready = true) ∧ (c.session id = some x) ∧ (x.done
      = true)) ∧
    (∃ (s a : State) (via : Via) (t : Nat) (c : SpdmConn) (id : _), (t = via.transport) ∧ (t < 10) ∧ (c =
      { s.conn t with mseq := via.mseq }) ∧ (a = s.setConn t c) ∧ (c.ready = true) ∧ ((c.session id = none ∨ ∃ x,
      c.session id = some x ∧ x.done = false))) ∧
    (∃ (s a : State) (via : Via) (t : Nat) (c : SpdmConn), (t = via.transport) ∧ (t < 10) ∧ (c =
      { s.conn t with mseq := via.mseq }) ∧ (a = s.setConn t c) ∧ (c.ready = true)) ∧
    (∃ (s a : State) (via : Via) (t : Nat) (c : SpdmConn), (t = via.transport) ∧ (t < 10) ∧ (c =
      { s.conn t with mseq := via.mseq }) ∧ (a = s.setConn t c) ∧ (c.ready = false)) ∧
    (∃ (s a : State) (via : Via) (t : Nat) (c : SpdmConn), (t = via.transport) ∧ (t < 10) ∧ (c =
      { s.conn t with mseq := via.mseq }) ∧ (a = s.setConn t c) ∧ (c.ready = false)) ∧
    (∃ (s a : State) (via : Via) (t : Nat) (c : SpdmConn), (t = via.transport) ∧ (t < 10) ∧ (c =
      { s.conn t with mseq := via.mseq }) ∧ (a = s.setConn t c) ∧ (c.ready = false)) ∧
    (∃ (s a : State) (via : Via) (t : Nat) (c : SpdmConn), (t = via.transport) ∧ (t < 10) ∧ (c =
      { s.conn t with mseq := via.mseq }) ∧ (a = s.setConn t c) ∧ (c.ready = false)) ∧
    (∃ (s a : State) (via : Via) (t : Nat) (c : SpdmConn), (t = via.transport) ∧ (t < 10) ∧ (c =
      { s.conn t with mseq := via.mseq }) ∧ (a = s.setConn t c) ∧ (c.ready = false)) ∧
    (∃ (s a : State) (via : Via) (t : Nat) (c : SpdmConn), (t = via.transport) ∧ (t < 10) ∧ (c =
      { s.conn t with mseq := via.mseq }) ∧ (a = s.setConn t c) ∧ (c.ready = false)) ∧
    (∃ (s a : State) (via : Via) (t : Nat) (c : SpdmConn), (t = via.transport) ∧ (t < 10) ∧ (c =
      { s.conn t with mseq := via.mseq }) ∧ (a = s.setConn t c) ∧ (c.ready = false)) :=
  ⟨⟨spdmOf [], _, ⟨8, 0⟩, _, _, rfl, by decide +kernel, rfl, rfl⟩,
   ⟨spdmOf [], _, ⟨8, 0⟩, _, _, rfl, by decide +kernel, rfl, rfl, by decide +kernel⟩,
   ⟨spdmOf [], _, ⟨8, 0⟩, _, _, 0, 64, _, rfl, by decide +kernel, rfl, rfl, by decide +kernel, rfl⟩,
   ⟨spdmOf [], _, ⟨8, 0⟩, _, _, _, rfl, by decide +kernel, rfl, rfl, by decide +kernel, rfl⟩,
   ⟨spdmOf [], _, ⟨8, 0⟩, _, _, 9, _, rfl, by decide +kernel, rfl, rfl, by decide +kernel, rfl⟩,
   ⟨spdmOf [], _, ⟨8, 0⟩, _, _, rfl, by decide +kernel, rfl, rfl, by decide +kernel⟩,
   ⟨spdmOf [], _, ⟨8, 0⟩, _, _, 0, rfl, by decide +kernel, rfl, rfl, by decide +kernel, by decide +kernel⟩,
   ⟨spdmOf [{ id := 0 }], _, ⟨8, 0⟩, _, _, 0, { id := 0 }, rfl, by decide +kernel, rfl, rfl, by decide +kernel,
     by decide +kernel⟩,
   ⟨spdmOf [session0], _, ⟨8, 0⟩, _, _, 0, session0, rfl, by decide +kernel, rfl, rfl, by decide +kernel,
     by decide +kernel, by decide +kernel⟩,
   ⟨spdmOf [], _, ⟨8, 0⟩, _, _, 0, rfl, by decide +kernel, rfl, rfl, by decide +kernel, .inl (by decide +kernel)⟩,
   ⟨spdmOf [], _, ⟨8, 0⟩, _, _, rfl, by decide +kernel, rfl, rfl, by decide +kernel⟩,
   ⟨{}, _, ⟨8, 0⟩, _, _, rfl, by decide +kernel, rfl, rfl, by decide +kernel⟩,
   ⟨{}, _, ⟨8, 0⟩, _, _, rfl, by decide +kernel, rfl, rfl, by decide +kernel⟩,
   ⟨{}, _, ⟨8, 0⟩, _, _, rfl, by decide +kernel, rfl, rfl, by decide +kernel⟩,
   ⟨{}, _, ⟨8, 0⟩, _, _, rfl, by decide +kernel, rfl, rfl, by decide +kernel⟩,
   ⟨{}, _, ⟨8, 0⟩, _, _, rfl, by decide +kernel, rfl, rfl, by decide +kernel⟩,
   ⟨{}, _, ⟨8, 0⟩, _, _, rfl, by decide +kernel, rfl, rfl, by decide +kernel⟩,
   ⟨{}, _, ⟨8, 0⟩, _, _, rfl, by decide +kernel, rfl, rfl, by decide +kernel⟩⟩

/-- States and operands that meet the hypotheses of `KeyBrokerRequests`, clause by clause. -/
theorem witness_KeyBrokerRequests :
    (∃ (s a : State) (via : Via) (t k : Nat) (c : SpdmConn) (p : List Byte), (t = via.transport) ∧ (t < 10) ∧ (c =
      { s.conn t with mseq := via.mseq }) ∧ (a = s.setConn t c) ∧ (c.ready = true) ∧ (k = vfield p 4 1) ∧ (p.length <
      48)) ∧
    (∃ (s a : State) (via : Via) (t k : Nat) (c : SpdmConn) (p : List Byte), (t = via.transport) ∧ (t < 10) ∧ (c =
      { s.conn t with mseq := via.mseq }) ∧ (a = s.setConn t c) ∧ (c.ready = true) ∧ (k = vfield p 4 1) ∧ (p.length <
      80)) ∧
    (∃ (s a : State) (via : Via) (t id k : Nat) (c : SpdmConn) (p : List Byte) (v : _), (t = via.transport) ∧ (t < 10)
      ∧ (c = { s.conn t with mseq := via.mseq }) ∧ (a = s.setConn t c) ∧ (c.ready = true) ∧ (k = vfield p 4 1) ∧
      (a.vendorBars t id k (vfield p 6 2) = some v) ∧ (48 ≤ p.length)) ∧
    (∃ (s a : State) (via : Via) (t id k : Nat) (c : SpdmConn) (p : List Byte) (v : _), (t = via.transport) ∧ (t < 10)
      ∧ (c = { s.conn t with mseq := via.mseq }) ∧ (a = s.setConn t c) ∧ (c.ready = true) ∧ (k = vfield p 4 1) ∧
      (a.vendorBars t id k (vfield p 6 2) = some v) ∧ (80 ≤ p.length)) ∧
    (∃ (s a : State) (via : Via) (t id k : Nat) (c : SpdmConn) (p : List Byte), (t = via.transport) ∧ (t < 10) ∧ (c =
      { s.conn t with mseq := via.mseq }) ∧ (a = s.setConn t c) ∧ (c.ready = true) ∧ (k = vfield p 4 1) ∧
      (a.vendorBars t id k (vfield p 6 2) = none) ∧ (48 ≤ p.length) ∧ (a.freeModelKey = none)) ∧
    (∃ (s a : State) (via : Via) (t id k : Nat) (c : SpdmConn) (p : List Byte) (n g : _), (t = via.transport) ∧ (t <
      10) ∧ (c = { s.conn t with mseq := via.mseq }) ∧ (a = s.setConn t c) ∧ (c.ready = true) ∧ (k = vfield p 4 1) ∧
      (a.vendorBars t id k (vfield p 6 2) = none) ∧ (48 ≤ p.length) ∧ (a.freeModelKey = some n) ∧ (g = nextGen
      (((a.sec.modelKeys.find n).map (fun m => m.gen)).getD 0))) ∧
    (∃ (s a : State) (via : Via) (t id k : Nat) (c : SpdmConn) (p : List Byte), (t = via.transport) ∧ (t < 10) ∧ (c =
      { s.conn t with mseq := via.mseq }) ∧ (a = s.setConn t c) ∧ (c.ready = true) ∧ (k = vfield p 4 1) ∧
      (a.vendorBars t id k (vfield p 6 2) = none) ∧ (48 ≤ p.length)) ∧
    (∃ (s a : State) (via : Via) (t id k : Nat) (c : SpdmConn) (p : List Byte), (t = via.transport) ∧ (t < 10) ∧ (c =
      { s.conn t with mseq := via.mseq }) ∧ (a = s.setConn t c) ∧ (c.ready = true) ∧ (k = vfield p 4 1) ∧
      (a.vendorBars t id k (vfield p 6 2) = none) ∧ (80 ≤ p.length)) ∧
    (∃ (s a : State) (via : Via) (t id k : Nat) (c : SpdmConn) (p : List Byte) (m h v : _), (t = via.transport) ∧ (t <
      10) ∧ (c = { s.conn t with mseq := via.mseq }) ∧ (a = s.setConn t c) ∧ (c.ready = true) ∧ (k = vfield p 4 1) ∧
      (h = vfield p 4 2) ∧ (a.sec.modelKeys.find (h % 64) = some m) ∧ (6 ≤ p.length) ∧ (m.live = true) ∧ (m.gen = h /
      256) ∧ (h / 64 % 4 = 0) ∧ (a.vendorBars t id m.slot m.epoch = some v)) ∧
    (∃ (s a : State) (via : Via) (t id k : Nat) (c : SpdmConn) (p : List Byte) (m h : _), (t = via.transport) ∧ (t <
      10) ∧ (c = { s.conn t with mseq := via.mseq }) ∧ (a = s.setConn t c) ∧ (c.ready = true) ∧ (k = vfield p 4 1) ∧
      (h = vfield p 4 2) ∧ (a.sec.modelKeys.find (h % 64) = some m) ∧ (6 ≤ p.length) ∧ (m.live = true) ∧ (m.gen = h /
      256) ∧ (h / 64 % 4 = 0) ∧ (a.vendorBars t id m.slot m.epoch = none)) ∧
    (∃ (s a : State) (via : Via) (t k : Nat) (c : SpdmConn) (p : List Byte), (t = via.transport) ∧ (t < 10) ∧ (c =
      { s.conn t with mseq := via.mseq }) ∧ (a = s.setConn t c) ∧ (c.ready = true) ∧ (k = vfield p 4 1) ∧
      (a.sec.modelKeys.find (vfield p 4 2 % 64) = none ∨ p.length < 6)) :=
  ⟨⟨spdmOf [session0], _, ⟨8, 0⟩, _, _, _, [], rfl, by decide +kernel, rfl, rfl, by decide +kernel, rfl,
     by decide +kernel⟩,
   ⟨spdmOf [session0], _, ⟨8, 0⟩, _, _, _, [], rfl, by decide +kernel, rfl, rfl, by decide +kernel, rfl,
     by decide +kernel⟩,
   ⟨spdmOf [], _, ⟨8, 0⟩, _, 0, _, _, zeros 48, _, rfl, by decide +kernel, rfl, rfl, by decide +kernel, rfl, some_of
     (by decide +kernel), by decide +kernel⟩,
   ⟨spdmOf [], _, ⟨8, 0⟩, _, 0, _, _, zeros 80, _, rfl, by decide +kernel, rfl, rfl, by decide +kernel, rfl, some_of
     (by decide +kernel), by decide +kernel⟩,
   ⟨spdmOf [session0] ((List.range 64).map (fun n => (n, modelKey0))), _, ⟨8, 0⟩, _, 0, _, _, zeros 48, rfl,
     by decide +kernel, rfl, rfl, by decide +kernel, rfl, by decide +kernel, by decide +kernel, by decide +kernel⟩,
   ⟨spdmOf [session0], _, ⟨8, 0⟩, _, 0, _, _, zeros 48, _, _, rfl, by decide +kernel, rfl, rfl, by decide +kernel,
     rfl, by decide +kernel, by decide +kernel, some_of (by decide +kernel), rfl⟩,
   ⟨spdmOf [session0], _, ⟨8, 0⟩, _, 0, _, _, zeros 48, rfl, by decide +kernel, rfl, rfl, by decide +kernel, rfl,
     by decide +kernel, by decide +kernel⟩,
   ⟨spdmOf [session0], _, ⟨8, 0⟩, _, 0, _, _, zeros 80, rfl, by decide +kernel, rfl, rfl, by decide +kernel, rfl,
     by decide +kernel, by decide +kernel⟩,
   ⟨spdmOf [] [(0, modelKey0)], _, ⟨8, 0⟩, _, 0, _, _, zeros 6, modelKey0, _, _, rfl, by decide +kernel, rfl, rfl,
     by decide +kernel, rfl, rfl, by decide +kernel, by decide +kernel, by decide +kernel, by decide +kernel,
     by decide +kernel, some_of (by decide +kernel)⟩,
   ⟨spdmOf [session0] [(0, modelKey0)], _, ⟨8, 0⟩, _, 0, _, _, zeros 6, modelKey0, _, rfl, by decide +kernel, rfl,
     rfl, by decide +kernel, rfl, rfl, by decide +kernel, by decide +kernel, by decide +kernel, by decide +kernel,
     by decide +kernel, by decide +kernel⟩,
   ⟨spdmOf [session0], _, ⟨8, 0⟩, _, _, _, [], rfl, by decide +kernel, rfl, rfl, by decide +kernel, rfl,
     by decide +kernel⟩⟩

/-- States and operands that meet the hypotheses of `FailuresAndLosses`, clause by clause. -/
theorem witness_FailuresAndLosses :
    (∃ (s t : State) (tok loc key : Nat), (key = loc / 256 * 256) ∧ ((s.mtx.runs.find tok = none ∧ t = s ∨ (∃ r,
      s.mtx.runs.find tok = some r ∧ keyDie key ≤ 5 ∧ keyCluster key ≤ 3 ∧ t = s.retryItem tok (16 * keyDie key + 4 *
      keyRegion key + keyCluster key) r)))) ∧
    (∃ (s t : State) (tok loc key : Nat) (k : _), (key = loc / 256 * 256) ∧ ((s.mtx.runs.find tok = none ∧ t = s ∨ (∃
      r, s.mtx.runs.find tok = some r ∧ keyDie key ≤ 5 ∧ keyCluster key ≤ 3 ∧ t = s.retryItem tok (16 * keyDie key + 4
      * keyRegion key + keyCluster key) r))) ∧ (partOf loc = some (.unit k))) ∧
    (∃ (s t : State) (tok loc key : Nat) (p : _), (key = loc / 256 * 256) ∧ ((s.mtx.runs.find tok = none ∧ t = s ∨ (∃
      r, s.mtx.runs.find tok = some r ∧ keyDie key ≤ 5 ∧ keyCluster key ≤ 3 ∧ t = s.retryItem tok (16 * keyDie key + 4
      * keyRegion key + keyCluster key) r))) ∧ (partOf loc = some p) ∧ ((∀ k, p ≠ .unit k))) ∧
    (∃ (s t : State) (tok loc key : Nat), (key = loc / 256 * 256) ∧ ((s.mtx.runs.find tok = none ∧ t = s ∨ (∃ r,
      s.mtx.runs.find tok = some r ∧ keyDie key ≤ 5 ∧ keyCluster key ≤ 3 ∧ t = s.retryItem tok (16 * keyDie key + 4 *
      keyRegion key + keyCluster key) r))) ∧ (partOf loc = none)) ∧
    (∃ (s u t : State) (loc key : Nat) (l : List Nat), (key = loc / 256 * 256) ∧ ((s.units.testing.contains key = true
      ∨ 4 ≤ keyCluster key)) ∧ (u =
      { s with units := { s.units with testing := s.units.testing.filter (fun k => k != key) } }) ∧ (l = s.tick.now ::
      (s.unitOf key).intermittent.filter (fun t => decide (s.tick.now < t + 1024))) ∧ (t = u.setUnit key
      { u.unitOf key with failed := true })) ∧
    (∃ (s u : State) (loc key : Nat) (l : List Nat), (key = loc / 256 * 256) ∧ ((s.units.testing.contains key = true ∨
      4 ≤ keyCluster key)) ∧ (u =
      { s with units := { s.units with testing := s.units.testing.filter (fun k => k != key) } }) ∧ (l = s.tick.now ::
      (s.unitOf key).intermittent.filter (fun t => decide (s.tick.now < t + 1024))) ∧ (l.length < 2)) ∧
    (∃ (s u t : State) (loc key : Nat) (l : List Nat), (key = loc / 256 * 256) ∧ ((s.units.testing.contains key = true
      ∨ 4 ≤ keyCluster key)) ∧ (u =
      { s with units := { s.units with testing := s.units.testing.filter (fun k => k != key) } }) ∧ (l = s.tick.now ::
      (s.unitOf key).intermittent.filter (fun t => decide (s.tick.now < t + 1024))) ∧ (2 ≤ l.length) ∧ (t = u.setUnit
      key { u.unitOf key with intermittent := [] })) ∧
    (∃ (s : State) (p : Nat), (s.units.pairsHalted.contains p = true)) ∧
    (∃ (s : State), (s.pairsIn < 4)) ∧
    (∃ (die : Nat), (dieExists die = true)) ∧
    (∃ (s : State) (die : Nat), (s.units.lostDies.contains die = true)) ∧
    (∃ (s u : State) (die : Nat), (s.units.lostDies.contains die = false) ∧ (State.queueFault
      { s with units := { s.units with lostDies := s.units.lostDies ++ [die] } }
      { cls := 0x40, location := locDie die, detail := die } = u)) ∧
    (∃ (s : State) (path : Nat), (s.mayWrite path B_RAS = true)) ∧
    (∃ (s : State) (line : Nat) (h : StripeHold), s.pg.holds.find line = some h ∧ h.deltas = [] ∧ h.queue = []) :=
  ⟨⟨{}, _, 0, 0, _, rfl, .inl ⟨by decide +kernel, rfl⟩⟩,
   ⟨{}, _, 0, 0, _, 0, rfl, .inl ⟨by decide +kernel, rfl⟩, by decide +kernel⟩,
   ⟨{}, _, 0, 0x10000000, _, .dram 0, rfl, .inl ⟨by decide +kernel, rfl⟩, by decide +kernel, (by intro k h; cases h)⟩,
   ⟨{}, _, 0, 2 ^ 32, _, rfl, .inl ⟨by decide +kernel, rfl⟩, by decide +kernel⟩,
   ⟨{ units := { testing := [0] } }, _, _, 0, _, _, rfl, by decide +kernel, rfl, rfl, rfl⟩,
   ⟨{ units := { testing := [0] } }, _, 0, _, _, rfl, by decide +kernel, rfl, rfl, by decide +kernel⟩,
   ⟨{ units := { testing := [0], units := [(0, { slot := 0, intermittent := [0] })] } }, _, _, 0, _, _, rfl,
     by decide +kernel, rfl, rfl, by decide +kernel, rfl⟩,
   ⟨{ units := { pairsHalted := [0] } }, 0, by decide +kernel⟩,
   ⟨{ units := { pairsOut := [0, 1, 2, 3, 4] } }, by decide +kernel⟩,
   ⟨0, by decide +kernel⟩,
   ⟨{ units := { lostDies := [0] } }, 0, by decide +kernel⟩,
   ⟨{}, _, 0, by decide +kernel, rfl⟩,
   ⟨{}, 8, by decide +kernel⟩,
   ⟨{ pg := { holds := [(0, { holder := 0 })] } }, 0, { holder := 0 }, by decide +kernel, rfl, rfl⟩⟩

/-- States and operands that meet the hypotheses of `ProtectionAndSlices`, clause by clause. -/
theorem witness_ProtectionAndSlices :
    (∃ (s g : State) (path cycle n : Nat) (v : Word), (s.pairReady path Reg.RAS_PG_COMMIT v cycle) ∧ (g = s.setGuard
      path none) ∧ (n = s.fld F.RAS_PG_SEL_EXTENT) ∧ (bitOf v 0 = true) ∧ (bitOf v 1 = true)) ∧
    (∃ (s g : State) (path cycle n : Nat) (v : Word) (r : _), (s.pairReady path Reg.RAS_PG_COMMIT v cycle) ∧ (g =
      s.setGuard path none) ∧ (n = s.fld F.RAS_PG_SEL_EXTENT) ∧ (bitOf v 0 = true) ∧ (bitOf v 1 = false) ∧
      (s.pgRefused (s.pg.committed.get 0 n) (s.pg.shadow.get 0 n) = some r)) ∧
    (∃ (s g : State) (path cycle n : Nat) (v : Word), (s.pairReady path Reg.RAS_PG_COMMIT v cycle) ∧ (g = s.setGuard
      path none) ∧ (n = s.fld F.RAS_PG_SEL_EXTENT) ∧ (bitOf v 0 = true) ∧ (bitOf v 1 = false) ∧ (s.pgRefused
      (s.pg.committed.get 0 n) (s.pg.shadow.get 0 n) = none)) ∧
    (∃ (s g : State) (path cycle n : Nat) (v : Word), (s.pairReady path Reg.RAS_PG_COMMIT v cycle) ∧ (g = s.setGuard
      path none) ∧ (n = s.fld F.RAS_PG_SEL_EXTENT) ∧ (bitOf v 0 = false) ∧ (bitOf v 1 = true)) ∧
    (∃ (s : State) (n : Nat) (e : BitVec 256) (src : List (Nat × List Byte)), (e = s.pg.committed.get 0 n) ∧
      ((s.buildSources e).all (fun p => src.any (fun x => x.1 == p)) = true) ∧ (pgState e = PG_BUILDING) ∧ (pgCursor e
      < 262144) ∧ (s.mayBuild n = true)) ∧
    (∃ (s : State) (n : Nat) (e : BitVec 256) (src : List (Nat × List Byte)), (e = s.pg.committed.get 0 n) ∧
      ((s.buildSources e).all (fun p => src.any (fun x => x.1 == p)) = true) ∧ (pgState e ≠ PG_BUILDING) ∧
      (redundancyRole e = true) ∧ (s.isLull s.tick.now = true)) ∧
    (∃ (s : State) (n : Nat) (e : BitVec 256) (src : List (Nat × List Byte)), (e = s.pg.committed.get 0 n) ∧
      ((s.buildSources e).all (fun p => src.any (fun x => x.1 == p)) = false)) ∧
    (∃ (s u : State) (n : Nat) (e : BitVec 256) (src : List (Nat × List Byte)) (bad : List (Nat × Nat)), (pgCursor e +
      1 < 262144) ∧ ((List.range 64).foldl (fun (s : State) j => s.storeBuilt e (n * extentSize + 4096 * pgCursor e) j
      src bad) s = u)) ∧
    (∃ (s g : State) (path cycle n : Nat) (v : Word), (s.pairReady path Reg.CMP_SLICE_COMMIT v cycle) ∧ (g =
      s.setGuard path none) ∧ (n = s.sliceSel) ∧ (bitOf v 0 = true) ∧ (bitOf v 1 = true)) ∧
    (∃ (s g : State) (path cycle n : Nat) (v : Word) (r : _), (s.pairReady path Reg.CMP_SLICE_COMMIT v cycle) ∧ (g =
      s.setGuard path none) ∧ (n = s.sliceSel) ∧ (bitOf v 0 = true) ∧ (bitOf v 1 = false) ∧ (s.sliceFails n
      (s.sliceShadow n) false = some r)) ∧
    (∃ (s g : State) (path cycle n : Nat) (v : Word), (s.pairReady path Reg.CMP_SLICE_COMMIT v cycle) ∧ (g =
      s.setGuard path none) ∧ (n = s.sliceSel) ∧ (bitOf v 0 = true) ∧ (bitOf v 1 = false) ∧ (s.sliceFails n
      (s.sliceShadow n) false = none)) ∧
    (∃ (s g : State) (path cycle n : Nat) (v : Word), (s.pairReady path Reg.CMP_SLICE_COMMIT v cycle) ∧ (g =
      s.setGuard path none) ∧ (n = s.sliceSel) ∧ (bitOf v 0 = false) ∧ (bitOf v 1 = true)) :=
  ⟨⟨armedWith Reg.RAS_PG_COMMIT 3, _, 8, 63, _, 3, pair_of (by decide +kernel), rfl, rfl, by decide +kernel,
     by decide +kernel⟩,
   ⟨armedWith Reg.RAS_PG_COMMIT 1 { pg := { shadow := [(0, 3)] } }, _, 8, 63, _, 1, _, pair_of (by decide +kernel),
     rfl, rfl, by decide +kernel, by decide +kernel, some_of (by decide +kernel)⟩,
   ⟨armedWith Reg.RAS_PG_COMMIT 1, _, 8, 63, _, 1, pair_of (by decide +kernel), rfl, rfl, by decide +kernel,
     by decide +kernel, by decide +kernel⟩,
   ⟨armedWith Reg.RAS_PG_COMMIT 2, _, 8, 63, _, 2, pair_of (by decide +kernel), rfl, rfl, by decide +kernel,
     by decide +kernel⟩,
   ⟨pgOf (mirror 2), 0, _, [(0, [])], rfl, by decide +kernel, by decide +kernel, by decide +kernel, by decide +kernel⟩,
   ⟨((pgOf (mirror 0)).setFld F.TIK_LULL_LULL_EVERY 1).setFld F.TIK_LULL_LULL_PHASE 0, 0, _, [(0, [])], rfl,
     by decide +kernel, by decide +kernel, by decide +kernel, by decide +kernel⟩,
   ⟨pgOf (mirror 2), 0, _, [], rfl, by decide +kernel⟩,
   ⟨pgOf (mirror 2), _, 0, mirror 2, [(0, [])], [], by decide +kernel, rfl⟩,
   ⟨armedWith Reg.CMP_SLICE_COMMIT 3, _, 8, 63, _, 3, pair_of (by decide +kernel), rfl, rfl, by decide +kernel,
     by decide +kernel⟩,
   ⟨armedWith Reg.CMP_SLICE_COMMIT 1 { slices := { shadow := [(0, BitVec.allOnes 2048)] } }, _, 8, 63, _, 1, _,
     pair_of (by decide +kernel), rfl, rfl, by decide +kernel, by decide +kernel, some_of (by decide +kernel)⟩,
   ⟨armedWith Reg.CMP_SLICE_COMMIT 1, _, 8, 63, _, 1, pair_of (by decide +kernel), rfl, rfl, by decide +kernel,
     by decide +kernel, by decide +kernel⟩,
   ⟨armedWith Reg.CMP_SLICE_COMMIT 2, _, 8, 63, _, 2, pair_of (by decide +kernel), rfl, rfl, by decide +kernel,
     by decide +kernel⟩⟩

/-- States and operands that meet the hypotheses of `ManagementOrders`, clause by clause. -/
theorem witness_ManagementOrders :
    (∃ (s : State) (m : Msg), (s.admitted m)) ∧
    (∃ (s : State) (m : Msg), (s.admitted m)) ∧
    (∃ (s : State) (m : Msg), (s.admitted m)) ∧
    (∃ (s : State) (m : Msg) (d e k : _), (s.admitted m) ∧ (k = d % 2 ^ 14) ∧ (e = ((s.epochOf k).accepted + 1) %
      256)) ∧
    (∃ (s : State) (m : Msg), (s.admitted m)) ∧
    (∃ (s : State) (m : Msg) (u : _), (s.admitted m) ∧ (u = (if s.ras.suspect then s.queueFault
      { cls := 0x61, location := LOC_MD, detail := s.ras.lateTicks } else s))) ∧
    (∃ (s : State) (m : Msg), (s.admitted m)) ∧
    (∃ (s : State) (m : Msg), (s.admitted m)) ∧
    (∃ (s : State) (m : Msg) (a : _), (s.admitted m) ∧ ((a % 4 ≠ 0 ∨ 2 ^ 24 ≤ a))) ∧
    (∃ (s : State) (m : Msg) (a w u : _), (s.admitted m) ∧ (a % 4 = 0) ∧ (a < 2 ^ 24) ∧ (s.readWord (8 + m.port) a =
      (w, u))) ∧
    (∃ (s : State) (m : Msg) (a v c t r w u : _), (s.admitted m) ∧ (s.regWrite (8 + m.port) a 4 v c = (t, r)) ∧
      (t.draw = (w, u))) ∧
    (∃ (s : State) (m : Msg) (a b d : Nat) (f : Bool) (c : Instr), (¬ s.admitted m) ∧ (c ∈ [.retire m a b, .swapOut m
      a b, .swapTake m a b d f, .epochAnnounce m a b d, .buildPace m a b d, .suspectClear m a, .update m a b, .cold m,
      .warm m, .regRead m a, .regWrite m a b d])) :=
  ⟨⟨managed, msg0, admitted_of session1 (by decide +kernel)⟩,
   ⟨managed, msg0, admitted_of session1 (by decide +kernel)⟩,
   ⟨managed, msg0, admitted_of session1 (by decide +kernel)⟩,
   ⟨managed, msg0, 1, _, _, admitted_of session1 (by decide +kernel), rfl, rfl⟩,
   ⟨managed, msg0, admitted_of session1 (by decide +kernel)⟩,
   ⟨managed, msg0, _, admitted_of session1 (by decide +kernel), rfl⟩,
   ⟨managed, msg0, admitted_of session1 (by decide +kernel)⟩,
   ⟨managed, msg0, admitted_of session1 (by decide +kernel)⟩,
   ⟨managed, msg0, 1, admitted_of session1 (by decide +kernel), .inl (by decide +kernel)⟩,
   ⟨managed, msg0, 0, _, _, admitted_of session1 (by decide +kernel), by decide +kernel, by decide +kernel, eq_ff⟩,
   ⟨managed, msg0, 0, 0, 0, _, _, _, _, admitted_of session1 (by decide +kernel), eq_ff, eq_ff⟩,
   ⟨{}, msg0, 0, 0, 0, false, .retire msg0 0 0, outside_of (by decide +kernel), .head _⟩⟩

/-- States and operands that meet the hypotheses of `BootStages`, clause by clause. -/
theorem witness_BootStages :
    (∃ (s : State), (s.booting = true) ∧ (s.stage = STAGE_ROM) ∧ (s.sec.fuses.getLsbD 2 = false)) ∧
    (∃ (s : State), (s.booting = true) ∧ (s.stage = STAGE_ROM) ∧ (s.sec.fuses.getLsbD 2 = true)) ∧
    (∃ (s : State) (rep : StageReport) (a b : _), (s.booting = true) ∧ (s.stage = STAGE_FIRMWARE) ∧ (s.validImage 0
      rep.slotA = some a) ∧ (s.validImage 0 rep.slotB = some b)) ∧
    (∃ (s : State) (rep : StageReport) (a : _), (s.booting = true) ∧ (s.stage = STAGE_FIRMWARE) ∧ (s.validImage 0
      rep.slotA = some a) ∧ (s.validImage 0 rep.slotB = none)) ∧
    (∃ (s : State) (rep : StageReport) (b : _), (s.booting = true) ∧ (s.stage = STAGE_FIRMWARE) ∧ (s.validImage 0
      rep.slotA = none) ∧ (s.validImage 0 rep.slotB = some b)) ∧
    (∃ (s : State) (rep : StageReport), (s.booting = true) ∧ (s.stage = STAGE_FIRMWARE) ∧ (s.validImage 0 rep.slotA =
      none) ∧ (s.validImage 0 rep.slotB = none) ∧ (s.boot.imageEnd = false)) ∧
    (∃ (s : State) (rep : StageReport), (s.booting = true) ∧ (s.stage = STAGE_FIRMWARE) ∧ (s.validImage 0 rep.slotA =
      none) ∧ (s.validImage 0 rep.slotB = none) ∧ (s.boot.imageEnd = true) ∧ (s.validImage 0 rep.sent = none)) ∧
    (∃ (s : State) (rep : StageReport) (x : _), (s.booting = true) ∧ (s.stage = STAGE_FIRMWARE) ∧ (s.validImage 0
      rep.slotA = none) ∧ (s.validImage 0 rep.slotB = none) ∧ (s.boot.imageEnd = true) ∧ (s.validImage 0 rep.sent =
      some x)) ∧
    (∃ (s : State) (rep : StageReport) (t : _), (s.booting = true) ∧ (s.stage = STAGE_OTP) ∧ ((t = if s.boot.warm then
      { s with boot := { s.boot with boardOk := boardOk rep.board, board := rep.board } } else { s with
          boot := { s.boot with boardOk := boardOk rep.board, board := rep.board },
          sec := { s.sec with otpGen := s.sec.genWord } })) ∧ (t.validImage 1 rep.microcode = none)) ∧
    (∃ (s : State) (rep : StageReport) (t a : _), (s.booting = true) ∧ (s.stage = STAGE_OTP) ∧ ((t = if s.boot.warm
      then { s with boot := { s.boot with boardOk := boardOk rep.board, board := rep.board } } else { s with
          boot := { s.boot with boardOk := boardOk rep.board, board := rep.board },
          sec := { s.sec with otpGen := s.sec.genWord } })) ∧ (t.validImage 1 rep.microcode = some a) ∧ (t.validImage
      2 rep.loader = none)) ∧
    (∃ (s : State) (rep : StageReport) (t a b : _), (s.booting = true) ∧ (s.stage = STAGE_OTP) ∧ ((t = if s.boot.warm
      then { s with boot := { s.boot with boardOk := boardOk rep.board, board := rep.board } } else { s with
          boot := { s.boot with boardOk := boardOk rep.board, board := rep.board },
          sec := { s.sec with otpGen := s.sec.genWord } })) ∧ (t.validImage 1 rep.microcode = some a) ∧ (t.validImage
      2 rep.loader = some b)) ∧
    (∃ (s : State) (rep : StageReport), (s.booting = true) ∧ (s.stage = STAGE_CORES) ∧ (rep.badPairs = [])) ∧
    (∃ (s : State), (s.booting = true) ∧ (s.stage = STAGE_CORES)) ∧
    (∃ (s : State), (s.booting = true) ∧ (s.stage = STAGE_STACKS)) ∧
    (∃ (s : State), (s.booting = true) ∧ (s.stage = STAGE_FLASH)) ∧
    (∃ (s : State), (s.booting = true) ∧ (s.stage = STAGE_HOST_LINKS)) ∧
    (∃ (s : State), (s.booting = true) ∧ (s.stage = STAGE_FABRIC) ∧ (s.boot.warm = false)) ∧
    (∃ (s : State), (s.booting = true) ∧ (s.stage = STAGE_TICK_SYNC)) ∧
    (∃ (s : State), (s.booting = true) ∧ (s.stage = STAGE_SELF_TEST)) ∧
    (∃ (s : State), (s.booting = true) ∧ (s.stage = STAGE_FLASH ∨ s.stage = STAGE_HOST_LINKS)) ∧
    (∃ (s : State), (s.booting = true) ∧ (s.stage = STAGE_FABRIC)) ∧
    (∃ (s : State), (s.booting = true) ∧ (s.stage = STAGE_ROM ∨ s.stage = STAGE_FIRMWARE ∨ s.stage = STAGE_OTP ∨
      s.stage = STAGE_CORES ∨ s.stage = STAGE_STACKS ∨ s.stage = STAGE_SELF_TEST)) ∧
    (∃ (s : State), (s.booting = false)) ∧
    (∃ (s : State), (s.stage + 1 ≠ STAGE_FABRIC) ∧ (s.stage + 1 ≠ STAGE_TICK_SYNC) ∧ (s.stage + 1 ≠ STAGE_READY)) ∧
    (∃ (s t : State) (port addr : Nat) (gap old : List Byte), (port < 2) ∧ (s.boot.wantsImage = true) ∧
      (s.boot.imageEnd = false) ∧ (s.drawBytes (addr - s.boot.received.length) = (gap, t)) ∧ (old = s.boot.received ++
      gap)) :=
  ⟨⟨{ bootAt STAGE_ROM with sec := { fuses := 0 } }, by decide +kernel, by decide +kernel, by decide +kernel⟩,
   ⟨bootAt STAGE_ROM, by decide +kernel, by decide +kernel, by decide +kernel⟩,
   ⟨bootAt STAGE_FIRMWARE, { slotA := some image0, slotB := some image0 }, image0, image0, by decide +kernel,
     by decide +kernel, by decide +kernel, by decide +kernel⟩,
   ⟨bootAt STAGE_FIRMWARE, { slotA := some image0 }, image0, by decide +kernel, by decide +kernel, by decide +kernel,
     by decide +kernel⟩,
   ⟨bootAt STAGE_FIRMWARE, { slotB := some image0 }, image0, by decide +kernel, by decide +kernel, by decide +kernel,
     by decide +kernel⟩,
   ⟨bootAt STAGE_FIRMWARE, {}, by decide +kernel, by decide +kernel, by decide +kernel, by decide +kernel,
     by decide +kernel⟩,
   ⟨bootAt STAGE_FIRMWARE { imageEnd := true }, {}, by decide +kernel, by decide +kernel, by decide +kernel,
     by decide +kernel, by decide +kernel, by decide +kernel⟩,
   ⟨bootAt STAGE_FIRMWARE { imageEnd := true }, { sent := some image0 }, image0, by decide +kernel, by decide +kernel,
     by decide +kernel, by decide +kernel, by decide +kernel, by decide +kernel⟩,
   ⟨bootAt STAGE_OTP, {}, _, by decide +kernel, by decide +kernel, rfl, by decide +kernel⟩,
   ⟨bootAt STAGE_OTP, { microcode := some image0 }, _, image0, by decide +kernel, by decide +kernel, rfl,
     by decide +kernel, by decide +kernel⟩,
   ⟨bootAt STAGE_OTP, { microcode := some image0, loader := some image0 }, _, image0, image0, by decide +kernel,
     by decide +kernel, rfl, by decide +kernel, by decide +kernel⟩,
   ⟨bootAt STAGE_CORES, {}, by decide +kernel, by decide +kernel, by decide +kernel⟩,
   ⟨bootAt STAGE_CORES, by decide +kernel, by decide +kernel⟩,
   ⟨bootAt STAGE_STACKS, by decide +kernel, by decide +kernel⟩,
   ⟨bootAt STAGE_FLASH, by decide +kernel, by decide +kernel⟩,
   ⟨bootAt STAGE_HOST_LINKS, by decide +kernel, by decide +kernel⟩,
   ⟨bootAt STAGE_FABRIC, by decide +kernel, by decide +kernel, by decide +kernel⟩,
   ⟨bootAt STAGE_TICK_SYNC, by decide +kernel, by decide +kernel⟩,
   ⟨bootAt STAGE_SELF_TEST, by decide +kernel, by decide +kernel⟩,
   ⟨bootAt STAGE_FLASH, by decide +kernel, by decide +kernel⟩,
   ⟨bootAt STAGE_FABRIC, by decide +kernel, by decide +kernel⟩,
   ⟨bootAt STAGE_ROM, by decide +kernel, by decide +kernel⟩,
   ⟨bootAt STAGE_ROM { held := true }, by decide +kernel⟩,
   ⟨bootAt STAGE_ROM, by decide +kernel, by decide +kernel, by decide +kernel⟩,
   ⟨{ boot := { wantsImage := true } }, _, 0, 2, _, _, by decide +kernel, by decide +kernel, by decide +kernel, eq_ff,
     rfl⟩⟩

/-- States and operands that meet the hypotheses of `ResetsAndLands`, clause by clause. -/
theorem witness_ResetsAndLands :
    (∃ (s : State), (s.boot.mgtGood = false)) ∧
    (∃ (s : State), (s.boot.mgtGood = true)) ∧
    (∃ (s u : State), (State.heldLands
      { s.coldState with boot := { s.coldState.boot with mgtGood := false, tripped := false, held := true } } = u)) ∧
    (∃ (s : State) (row : Nat) (r : Rail), (railOfRow row = some r) ∧ (s.boot.mainGood = true)) ∧
    (∃ (k : Nat), (k < 8)) ∧
    (∃ (k : Nat), (k < 4)) ∧
    (∃ (s u : State), (u = s.emit (.pin PIN_THERMTRIP_N false)) ∧ (s.boot.tripped = true)) ∧
    (∃ (s u : State), (u = s.emit (.pin PIN_THERMTRIP_N false)) ∧ (s.boot.tripped = false)) :=
  ⟨⟨{ boot := { mgtGood := false } }, by decide +kernel⟩,
   ⟨{}, by decide +kernel⟩,
   ⟨{}, _, rfl⟩,
   ⟨{}, 30, _, some_of (by decide +kernel), by decide +kernel⟩,
   ⟨0, by decide +kernel⟩,
   ⟨0, by decide +kernel⟩,
   ⟨{ boot := { tripped := true } }, _, rfl, by decide +kernel⟩,
   ⟨{}, _, rfl, by decide +kernel⟩⟩

/-- States and operands that meet the hypotheses of `RunsNeitherFaultNorRefuse`, clause by clause. -/
theorem witness_RunsNeitherFaultNorRefuse :
    ∃ (s : State) (c : Instr) (l : List Instr), (s.pending = c :: l) :=
  ⟨{ pending := [.nop 0] }, .nop 0, [], by decide +kernel⟩

/-- States and operands that meet the hypotheses of `MemoryStaysCanonical`, clause by clause. -/
theorem witness_MemoryStaysCanonical :
    ∃ (s t : State), (s.memOk) ∧ (step s = .next t) :=
  ⟨{ withDesc (nDesc 0x00) { mem := nodeMem } with pending := [.nop 0] }, _, show _ = _ by decide +kernel, rfl⟩

/-- States and operands that meet the hypotheses of `FaultRecordsStayBounded`, clause by clause. -/
theorem witness_FaultRecordsStayBounded :
    ∃ (s t : State), (faultsOk s.faults) ∧ (step s = .next t) :=
  ⟨{ pending := [.nop 0], faults := [{ cls := 0x40 }] }, _, ⟨by decide +kernel, by decide +kernel⟩, rfl⟩

/-- States and operands that meet the hypotheses of `HomesOfAddresses`, clause by clause. -/
theorem witness_HomesOfAddresses :
    (∃ (d g : Nat), (d < dramEnd) ∧ (g = d % 0x2400000000 / 0x1000)) ∧
    (∃ (d e : Nat), (d < dramEnd) ∧ (e < dramEnd) ∧ ((homeOf d).stack = (homeOf e).stack) ∧ ((homeOf d).channel =
      (homeOf e).channel) ∧ ((homeOf d).choff = (homeOf e).choff)) ∧
    (∃ (k die : Nat), (0x6000 * k + 0x6000 ≤ dramEnd) ∧ (die < 6)) :=
  ⟨⟨0x2400000000, _, by decide +kernel, rfl⟩,
   ⟨0x5000, 0x5000, by decide +kernel, by decide +kernel, by decide +kernel, by decide +kernel, by decide +kernel⟩,
   ⟨1, 3, by decide +kernel, by decide +kernel⟩⟩

/-- States and operands that meet the hypotheses of `ReadsSeeWrites`, clause by clause. -/
theorem witness_ReadsSeeWrites :
    (∃ (s : State), (s.memOk)) ∧
    (∃ (s : State), (s.memOk)) :=
  ⟨⟨{ mem := nodeMem }, show _ = _ by decide +kernel⟩,
   ⟨{ mem := nodeMem }, show _ = _ by decide +kernel⟩⟩

/-- States and operands that meet the hypotheses of `CountersAndEvents`, clause by clause. -/
theorem witness_CountersAndEvents :
    (∃ (s : State) (n : Nat) (f : Counter → Counter) (c : Counter), (c = f (s.counter n)) ∧ (c.armed = true) ∧
      (c.notifyEn = true) ∧ (c.threshold ≤ c.value)) ∧
    (∃ (s : State) (n : Nat) (f : Counter → Counter) (c : Counter), (c = f (s.counter n)) ∧ (c.value < c.threshold)) ∧
    (∃ (s : State) (n : Nat) (f : Counter → Counter) (c : Counter), (c = f (s.counter n)) ∧ (c.threshold ≤ c.value) ∧
      ((c.armed = false ∨ c.notifyEn = false))) ∧
    (∃ (f : Fld) (o : Nat), f.lo + f.len ≤ 32 ∧ 0 < f.len ∧ o ≠ f.off) ∧
    (∃ (s : State) (tok : Nat) (d : Desc) (k : Nat) (c : Cpl), s.desc tok = some d ∧ k ≠ tok ∧ c.reason ≠ 0) :=
  ⟨⟨{}, 0, (fun _ => { armed := true, notifyEn := true, value := 2, threshold := 1 }), _, rfl, by decide +kernel,
     by decide +kernel, by decide +kernel⟩,
   ⟨{}, 0, (fun c => { c with value := 1, threshold := 2 }), _, rfl, by decide +kernel⟩,
   ⟨{}, 0, (fun _ => { armed := false, value := 2, threshold := 1 }), _, rfl, by decide +kernel, .inl
     (by decide +kernel)⟩,
   ⟨F.QUE_EVT_FULL, 0, by decide, by decide, by decide⟩,
   ⟨withDesc (nDesc 0), 0, nDesc 0, 1, cpl ST_ABORTED 1, by decide +kernel, by decide, by decide⟩⟩

end Tests
end Sys2Proof.Machine
end

section

/-! ## Empty containers -/

namespace Sys2Proof

/-- Where a table lists nothing, its default stands. -/
@[simp] theorem Tab.get_nil {α : Type} (d : α) (k : Nat) : Tab.get ([] : Tab α) d k = d := rfl

@[simp] theorem Mem.read_nil (a : Nat) : Mem.read [] a = Mem.blank := rfl

/-! ## What the accessors read right after a cold reset -/

namespace Machine

@[simp] theorem State.reset_desc (tok : Nat) : State.reset.desc tok = none := Tab.find_nil tok

@[simp] theorem State.reset_ring (n : Nat) : State.reset.ring n = {} := Tab.get_nil _ n

@[simp] theorem State.reset_subq (n : Nat) : State.reset.subq n = {} := Tab.get_nil _ n

@[simp] theorem State.reset_port (n : Nat) : State.reset.port n = portReset := Tab.get_nil portReset n

@[simp] theorem State.reset_slot (k : Nat) : State.reset.slot k = {} := Tab.get_nil _ k

/-- R7: no register word differs from its reset value. -/
@[simp] theorem State.reset_word (off : Nat) : State.reset.word off = resetWord off := Tab.get_nil (resetWord off) off

@[simp] theorem State.reset_read (a : Nat) : State.reset.mem.bytes.read a = Mem.blank := Mem.read_nil a

/-- Settles O4: the scalar fields are their defaults, and every table is empty, so each accessor answers the reset value
of what it reads. -/
theorem coldResetState : Obligations.ColdResetState := by
  unfold Obligations.ColdResetState
  refine ⟨rfl, rfl, rfl, rfl, State.reset_desc, fun n => ?ring, fun n => ?subq, fun n => ?port, rfl, fun k => ?slot,
    rfl, State.reset_word, State.reset_read⟩
  case ring => rw [State.reset_ring]
  case subq => rw [State.reset_subq]
  case port => rw [State.reset_port, portReset]
  case slot => rw [State.reset_slot]; exact ⟨rfl, rfl⟩

end Machine
end Sys2Proof
end

section

namespace Sys2Proof.Machine

/-! ## A descriptor's row that only begins it, or only ends it -/

theorem runDesc_begins {s : State} {tok op : Nat} {d : Desc} (h : s.ready tok op d) :
    s.runDesc tok op (fun _ s => (s, none)) = s.begun tok d := runDesc_ready _ h

theorem runDesc_ends {s : State} {tok op : Nat} {d : Desc} (c : Cpl) (h : s.ready tok op d) :
    s.runDesc tok op (fun _ s => (s, some c)) = (s.begun tok d).opEnd tok c := runDesc_ready _ h

/-! ## TP_LOAD (R339 to R341) -/

theorem exec_tpLoad_first {s : State} {tok : Nat} (ext : List Byte) (h : s.loadingSlot tok = none) :
    exec (.tpLoad tok ext) s = .next (s.beginLoad tok ext) := by
  change execTpLoad tok ext s = _
  rw [execTpLoad, h]

theorem exec_tpLoad_again {s : State} {tok n : Nat} {d : Desc} (ext : List Byte) (hn : s.loadingSlot tok = some n)
    (hd : s.desc tok = some d) (hp : s.loadPending tok = false) : exec (.tpLoad tok ext) s = .next (
      let v := s.endLoad tok n d ext
      { v with tick := { v.tick with loads := v.tick.loads.filter (fun j => j.tok != tok) } }) := by
  change execTpLoad tok ext s = _
  rw [execTpLoad, hn, hd]
  exact congrArg Host.Outcome.next (if_neg (Bool.eq_false_iff.1 hp))

/-- The binary that a TP_LOAD names is there and not poisoned: its checks decide. -/
theorem beginLoad_read {s s1 t : State} {tok : Nat} {d : Desc} {ext l e : List Byte} {segs : List (List Seg)}
    (h : s.granted tok 0x30 d [⟨tlBin d.bits, tlBinLen d.bits, 1, false⟩] s1 segs)
    (hl : State.readSegs d (segs.headD []) ext s1 = (t, l, false, e)) : s.beginLoad tok ext =
      match t.loadFails d.bits l (parseBinary l) with
      | some c => (t.runDesc tok 0x30 (fun _ s => (s, none))).loadRefused tok c
      | none =>
        match t.xlateRange tok d (tlArea d.bits) (tlAreaLen d.bits) 2 with
        | (_, .wait) => s1
        | (u, .fault _ _) => (u.runDesc tok 0x30 (fun _ s => (s, none))).loadRefused tok (cpl ST_REFUSED_FIT MTX_FIT_WEIGHTS)
        | (u, .ok area) =>
          if u.areaFails d.bits (parseBinary l).weightBytes area then
            (u.runDesc tok 0x30 (fun _ s => (s, none))).loadRefused tok (cpl ST_REFUSED_FIT MTX_FIT_WEIGHTS)
          else (u.runDesc tok 0x30 (fun _ s => (s, none))).startLoad tok d (parseBinary l) area := by
  obtain ⟨⟨hd, hop, hmay, _⟩, hacq, _⟩ := h
  rw [State.beginLoad, hd]
  dsimp only
  rw [if_neg (not_or.2 ⟨not_not_intro hop, ne_false_of_eq_true hmay⟩), hacq]
  dsimp only
  rw [hl] <;> rfl

/-- A check of Table 10-11 fails: the load ends refused. -/
theorem beginLoad_refused {s s1 t : State} {tok : Nat} {d : Desc} {ext l e : List Byte} {segs : List (List Seg)} {c : Cpl}
    (h : s.granted tok 0x30 d [⟨tlBin d.bits, tlBinLen d.bits, 1, false⟩] s1 segs)
    (hl : State.readSegs d (segs.headD []) ext s1 = (t, l, false, e)) (ht : t.ready tok 0x30 d)
    (hc : t.loadFails d.bits l (parseBinary l) = some c) : s.beginLoad tok ext = (t.begun tok d).loadRefused tok c := by
  rw [beginLoad_read h hl, hc]
  dsimp only
  rw [runDesc_begins ht]

/-- Every check passes: the slot is taken. -/
theorem beginLoad_starts {s s1 t u : State} {tok : Nat} {d : Desc} {ext l e : List Byte} {segs : List (List Seg)}
    {area : List Seg} (h : s.granted tok 0x30 d [⟨tlBin d.bits, tlBinLen d.bits, 1, false⟩] s1 segs)
    (hl : State.readSegs d (segs.headD []) ext s1 = (t, l, false, e)) (hc : t.loadFails d.bits l (parseBinary l) = none)
    (hx : t.xlateRange tok d (tlArea d.bits) (tlAreaLen d.bits) 2 = (u, .ok area))
    (ha : u.areaFails d.bits (parseBinary l).weightBytes area = false) (hu : u.ready tok 0x30 d) :
    s.beginLoad tok ext = (u.begun tok d).startLoad tok d (parseBinary l) area := by
  rw [beginLoad_read h hl, hc, hx]
  dsimp only
  rw [if_neg (Bool.eq_false_iff.1 ha), runDesc_begins hu]

/-- The slot that a load takes: LOADING, of the next generation, its scratch and buffers zero. -/
def State.loadingProg (s : State) (tok n : Nat) (d : Desc) (b : Binary) (segs : List Seg) : Prog :=
  { phase := .loading, gen := ((s.prog n).gen + 1) % 256, slice := dSlice d.bits, programId := b.programId
    weightBytes := b.weightBytes, reserve := b.reserve, scratchKib := b.scratchKib, bufKib := b.bufKib
    places := b.places, ops := b.ops, warea := segs.map (fun x => (x.addr, x.len)), key := dKeySlot d.bits
    keyEpoch := dKeyEpoch d.bits, loader := some tok, wkey := (s.modelKey d.bits b.programId).map (fun k => k.key) }

theorem startLoad_weights {s : State} {tok n : Nat} {d : Desc} {b : Binary} {segs : List Seg} (hn : s.freeProg = some n)
    (hw : b.weightBytes ≠ 0) : s.startLoad tok d b segs = { s.setProg n (s.loadingProg tok n d b segs) with
      tick := { s.tick with loads := s.tick.loads ++
        [{ tok := tok, slice := dSlice d.bits, left := b.weightBytes, requested := s.roundTick }] } } := by
  rw [State.startLoad, hn]
  exact if_neg hw

/-- The plaintext of the weights, for a program whose image was read as `l` and was not poisoned. -/
def Prog.plainWeights (p : Prog) (d : DescBits) (l w : List Byte) : Prop :=
  (tlKey d = 0 ∧ w = l) ∨ (tlKey d ≠ 0 ∧ ∃ k, p.wkey = some k ∧ openImage k l p.programId p.weightBytes = some w)

/-- The last row of a load of program `p`, the plaintext `w` written: the places that `bad` names are poisoned and the slot
is LOADED. -/
def State.loadEnds (s : State) (tok n : Nat) (p : Prog) (w : List Byte) (bad : List (Nat × Nat)) : State :=
  (((bad.foldl (fun (s : State) b => s.poisonPieces (cutPieces p.warea b.1 (b.2 - b.1))) s).setProg n
    { p with phase := .loaded, loader := none, wkey := none, digest := Config.sha384 w }).setEvt F.MTX_EVT_LOADED).opEnd tok
      { result := n + at_ 8 p.gen }

/-- The weights are moved and open: they are written, poisoned where the image was. -/
theorem endLoad_opened {s s1 s2 t u : State} {tok n : Nat} {d : Desc} {ext l w e : List Byte} {img : List Seg}
    {rest : List (List Seg)} (hw : (s.prog n).plainWeights d.bits l w)
    (hx : s.xlateNeeds tok d [⟨tlImg d.bits, tlImgLen d.bits, 1, false⟩] [] = .ready s1 (img :: rest))
    (hready : s1.engineReady tok ((img.filter (fun x => !x.host)).map (fun x => (x.addr, x.len, false)) ++
      (cutPieces (s.prog n).warea 0 (s.prog n).weightBytes).map (fun x => (x.1, x.2, true))) = (s2, true))
    (hl : State.readSegs d img ext s2 = (t, l, false, e))
    (hu : State.writeKeyed tok (s.prog n).key (s.prog n).keyEpoch (descCredit d)
      (cutPieces (s.prog n).warea 0 (s.prog n).weightBytes) w t = u) :
    s.endLoad tok n d ext = u.loadEnds tok n (s.prog n) w
      (if img.any (fun x => x.host) then [] else s2.badOffsets 0 (img.map (fun x => (x.addr, x.len)))) := by
  subst hu
  obtain ⟨hkey, rfl⟩ | ⟨hkey, k, hk, hopen⟩ := hw
  · simp only [State.endLoad, hx, List.headD_cons, hready, hl, hkey, if_true]
    rfl
  · simp only [State.endLoad, hx, List.headD_cons, hready, hl, hkey, if_false, Bool.false_eq_true, hk, hopen]
    rfl

/-! ## TP_RUN (R342 to R346) -/

/-- The run that a TP_RUN asks for. -/
def State.runOf (s : State) (d : Desc) : MtxRun :=
  { slot := some (trHandle d.bits % 256), first := trFirst d.bits, places := (s.prog (trHandle d.bits % 256)).places
    ops := (s.prog (trHandle d.bits % 256)).range d.bits, bases := trBases d.bits }

theorem exec_tpRun {s : State} {tok : Nat} {d : Desc} (h : s.ready tok 0x31 d) (ho : s.kvOrdered tok d = true)
    (hc : s.creditBarred d = false) : exec (.tpRun tok) s = match s.runRefsFail d with
      | some c => .next ((s.begun tok d).opEnd tok c)
      | none => .next ((s.begun tok d).beginRun tok (s.runOf d)) := by
  have ⟨hd, hop, hmay, _⟩ := h
  have free : creditRefused d s = none := if_neg (Bool.eq_false_iff.1 hc)
  change execTpRun tok s = _
  rw [execTpRun, hd]
  dsimp only
  rw [if_pos ⟨hop, hmay, ho⟩, free]
  dsimp only [Option.orElse]
  cases s.runRefsFail d with
  | none => exact congrArg (fun t : State => Host.Outcome.next (t.beginRun tok (s.runOf d))) (runDesc_begins h)
  | some c => exact congrArg Host.Outcome.next (runDesc_ends c h)

/-- A run whose clusters are all in service, and that passing its first fences does not finish, waits on its clusters. -/
theorem beginRun_waits {s : State} {tok : Nat} {d : Desc} {r : MtxRun} (hd : s.desc tok = some d)
    (hin : ∀ (p : Nat) (o : TileOp), r.ops[p]? = some o → s.mtxIn (clusterOf r.places o) = true)
    (hleft : (r.passFences d).allDone = false) : s.beginRun tok r = s.setRun tok (r.passFences d) := by
  have inService : (List.range r.ops.length).find? (fun p => match r.ops[p]? with
      | some o => !s.mtxIn (clusterOf r.places o) | none => false) = none := by
    refine List.find?_eq_none.2 fun p _ => ?_
    cases ho : r.ops[p]? with
    | none => exact Bool.false_ne_true
    | some o =>
      change ¬(!s.mtxIn (clusterOf r.places o)) = true
      rw [hin p o ho]
      exact Bool.false_ne_true
  have settles : s.settleRun tok r = s.setRun tok (r.passFences d) := by
    rw [State.settleRun, hd]
    exact if_neg (Bool.eq_false_iff.1 hleft)
  rw [← settles, State.beginRun]
  split
  next p hfound => cases inService.symm.trans hfound
  next => rfl

/-! ## TP_UNLOAD (R347) -/

theorem exec_tpUnload_drained {s : State} {tok : Nat} {d : Desc} (h : s.ready tok 0x32 d)
    (hu : (s.prog (trHandle d.bits % 256)).unloader = some tok)
    (hruns : s.rings.descs.any (fun _ e => dOpcode e.bits == 0x31 && trHandle e.bits % 256 == trHandle d.bits % 256
      && !e.finished && (e.phase == .admitted || e.phase == .running)) = false) :
    exec (.tpUnload tok) s = .next ((((s.begun tok d).setProg (trHandle d.bits % 256)
      (s.prog (trHandle d.bits % 256)).release).setEvt F.MTX_EVT_UNLOADED).opEnd tok {}) := by
  have ⟨hd, _⟩ := h
  change execTpUnload tok s = _
  rw [execTpUnload, hd]
  dsimp only
  rw [if_pos hu, if_neg (Bool.eq_false_iff.1 hruns), runDesc_ready _ h]

/-! ## The end of a work item (R13, R128) -/

/-- WORK_ITEM_DONE of a run: stale, good, or to be done again. -/
theorem exec_workItemDone {s : State} {tok : Nat} {d : Desc} {r : MtxRun} (cluster attempt unit : Nat) (ok : Bool)
    (ext : List Byte) (hd : s.desc tok = some d) (hr : s.mtx.runs.find tok = some r) :
    exec (.workItemDone tok cluster attempt ok unit ext) s = .next (
      if attempt ≠ r.attempts.get 0 cluster then s.countStale
      else if ok then s.workItem tok cluster d r ext
      else (s.retryItem tok cluster r).testUnit (mtxUnitKey cluster unit)) := by
  change execWorkItemDone tok cluster attempt ok unit ext s = _
  rw [execWorkItemDone, hd, hr]

/-- A good item of the cluster's next operation, whose turn it is: it is done, counted, and the run settled. -/
theorem workItem_done {s t : State} {tok cluster p sat : Nat} {poison : Bool} {ext : List Byte} {d : Desc} {r : MtxRun}
    {o : TileOp} (hpass : r.passFences d = r) (hnext : r.nextOp cluster = some p) (ho : r.ops[p]? = some o)
    (hfence : o.opc ≠ TFENCE) (hjoin : r.joined d p = true) (hturn : s.clusterTurn tok d cluster = true)
    (hstop : s.opStops r o = none)
    (hitem : (if r.done.has p then s else s.opStarts r o).doItem tok d r
      (opItem (if r.done.has p then s else s.opStarts r o) r o (r.done.get 0 p)) ext = .done t poison sat) :
    s.workItem tok cluster d r ext =
      let t1 := State.countBubbles { t with mtx := { t.mtx with
        tiles := t.mtx.tiles + 1, intSat := t.mtx.intSat + sat, poisoned := t.mtx.poisoned + boolNat poison } } o (r.done.get 0 p + 1)
      let t2 := if sat = 0 then t1 else t1.setEvt F.MTX_EVT_INT_SAT
      let t3 := if poison then t2.setEvt F.MTX_EVT_POISON else t2
      t3.settleRun tok { r with
        done := r.done.put p (r.done.get 0 p + 1), poison := r.poison || poison
        attended := if o.opc = ATTEND then (t3.kvLayer (r.bases.getD o.b.base 0)).len else r.attended } := by
  rw [State.workItem, hpass]
  dsimp only
  rw [hnext]
  dsimp only
  rw [ho]
  dsimp only
  rw [if_neg (not_or.2 ⟨hfence, not_or.2 ⟨ne_false_of_eq_true hjoin, ne_false_of_eq_true hturn⟩⟩), hstop]
  dsimp only
  rw [hitem]
  rfl

/-- Settles O29: the two takings of a TP_LOAD, a run by its references, an unload whose runs have ended, and a work item by
its attempt and its result. -/
theorem tilePrograms : Obligations.TilePrograms := by
  unfold Obligations.TilePrograms
  refine ⟨?refused, ?starts, ?loads, fun s tok d h ho hc => exec_tpRun h ho hc,
    fun s tok d r hd hin hleft => beginRun_waits hd hin hleft, fun s tok d h hu hruns => exec_tpUnload_drained h hu hruns,
    ?again, ?done⟩
  case refused =>
    intro s s1 t tok d ext l e segs c hfirst hgranted hl ht hc
    rw [exec_tpLoad_first ext hfirst, beginLoad_refused hgranted hl ht hc]
    rfl
  case starts =>
    intro s s1 t u tok n d ext l e segs area hfirst hgranted hl hc hx ha hu hn hw
    have free : (u.begun tok d).freeProg = some n := hn
    rw [exec_tpLoad_first ext hfirst, beginLoad_starts hgranted hl hc hx ha hu, startLoad_weights free hw]
    rfl
  case loads =>
    intro s s1 s2 t u tok n d ext l w e img rest hn hd hp hw hx hbad hready hl hu
    have clean : (if img.any (fun x => x.host) then [] else s2.badOffsets 0 (img.map (fun x => (x.addr, x.len)))) = [] :=
      ite_eq_left_iff.2 hbad.resolve_left
    rw [exec_tpLoad_again ext hn hd hp, endLoad_opened hw hx hready hl hu, clean]
    rfl
  case again =>
    intro s tok cluster attempt unit ok ext d r hd hr
    have ended := exec_workItemDone cluster attempt unit ok ext hd hr
    refine ⟨fun hstale => ended.trans (congrArg Host.Outcome.next (if_pos hstale)), ?_⟩
    rintro rfl rfl
    rw [ended, if_neg (not_not_intro rfl), if_neg Bool.false_ne_true]
    rfl
  case done =>
    rintro s t tok cluster attempt unit p sat poison ext d r o hd hr rfl hpass hnext ho hfence hjoin hturn hstop hitem
    rw [exec_workItemDone _ _ _ _ _ hd hr, if_neg (not_not_intro rfl), if_pos rfl,
      workItem_done hpass hnext ho hfence hjoin hturn hstop hitem]

end Sys2Proof.Machine
end

section

namespace Sys2Proof.Machine

/-! ## Guarded writes of the power and split registers (R552, R553, R249) -/

/-- R553: a cap of 100 to 2,900 W that covers the plans in force waits for a boundary. -/
theorem exec_pwrCapWrite {s g : State} {path cycle : Nat} {v : Word} (h : s.pairReady path Reg.PWR_CAP v cycle)
    (hg : g = s.setGuard path none) : exec (.pwrCapWrite path (~~~v) cycle) s = .next (
      if bitsOf v 0 12 < 100 ∨ 2900 < bitsOf v 0 12 then g.logReject B_PWR Reg.PWR_CAP v REG_VALUE path
      else if s.capCovers (bitsOf v 0 12) then { g with tick := { s.tick with capPending := some (writeWord Reg.PWR_CAP 0 v) } }
      else g.logReject B_PWR Reg.PWR_CAP v REG_STATE path) := by
  subst hg
  have covers : (s.setGuard path none).capCovers (bitsOf v 0 12) = s.capCovers (bitsOf v 0 12) := rfl
  refine congrArg Host.Outcome.next ?_
  by_cases hrange : bitsOf v 0 12 < 100 ∨ 2900 < bitsOf v 0 12
  · rw [if_pos hrange]
    exact guardPair_rejected h rfl (if_pos hrange)
  · rw [if_neg hrange]
    cases hfits : s.capCovers (bitsOf v 0 12) with
    | true =>
      rw [if_pos rfl]
      refine guardPair_ok h rfl ((if_neg hrange).trans ?_)
      rw [covers, hfits]
      exact if_neg Bool.false_ne_true
    | false =>
      rw [if_neg Bool.false_ne_true]
      refine guardPair_rejected h rfl ((if_neg hrange).trans ?_)
      rw [covers, hfits]
      exact if_pos rfl

theorem exec_pwrThermWrite {s g : State} {path cycle : Nat} {v : Word} (h : s.pairReady path Reg.PWR_THERM v cycle)
    (hg : g = s.setGuard path none) : exec (.pwrThermWrite path (~~~v) cycle) s = .next (
      if 85 ≤ bitsOf v 8 8 ∧ bitsOf v 8 8 ≤ 104 ∧ 1 ≤ bitsOf v 16 8 ∧ bitsOf v 16 8 ≤ 20 ∧ 1 ≤ bitsOf v 0 8 ∧ bitsOf v 0 8 ≤ 50
      then g.setWord Reg.PWR_THERM (writeWord Reg.PWR_THERM (s.word Reg.PWR_THERM) v)
      else g.logReject B_PWR Reg.PWR_THERM v REG_VALUE path) := by
  subst hg
  refine congrArg Host.Outcome.next ?_
  split
  next hrange => exact guardPair_ok h rfl (if_neg (by omega))
  next hrange => exact guardPair_rejected h rfl (if_pos (by omega))

/-! ## Region SRAM splits (R249) -/

/-- What TIR_SPLIT asks for. -/
def splitAsked (v : Word) : Split :=
  { tier := bitsOf v 24 8, rcache := bitsOf v 16 8, kvhot := bitsOf v 8 8, scratch := bitsOf v 0 8 }

/-- Why the split asked for of region `h` is refused: the first that holds. -/
def State.splitFails (s : State) (h : Nat) (x : Split) : Option Nat :=
  if 128 < splitSum x then some SPLIT_SUM
  else if x.scratch < ceilDiv (s.scratchUsed h) 1024 then some SPLIT_SCRATCH
  else if s.tier.splitPending.has h then some SPLIT_BUSY
  else if splitSum x ≠ 0 ∧ (s.fld F.PWR_ISLAND_STAT_ON).testBit h = false then some SPLIT_ISLAND
  else none

theorem effTirSplit_eq (v : Word) (s : State) : effTirSplit v s =
    match s.splitFails (s.fld F.TIR_REGION_SEL_REGION) (splitAsked v) with
    | some r => (((s.setFld F.TIR_ERR_REASON r).setFld F.TIR_ERR_REGION (s.fld F.TIR_REGION_SEL_REGION)).setEvt
        F.TIR_EVT_SPLIT_REFUSED, some REG_STATE)
    | none => ({ s with tier := { s.tier with
        splitPending := s.tier.splitPending.put (s.fld F.TIR_REGION_SEL_REGION) (splitAsked v) } }, none) := rfl

theorem effTirSplit_refused {s : State} {v : Word} {h r : Nat} (hh : h = s.fld F.TIR_REGION_SEL_REGION)
    (hr : s.splitFails h (splitAsked v) = some r) : effTirSplit v s =
      (((s.setFld F.TIR_ERR_REASON r).setFld F.TIR_ERR_REGION h).setEvt F.TIR_EVT_SPLIT_REFUSED, some REG_STATE) := by
  subst hh
  rw [effTirSplit_eq, hr]

theorem effTirSplit_accepted {s : State} {v : Word} {h : Nat} (hh : h = s.fld F.TIR_REGION_SEL_REGION)
    (hr : s.splitFails h (splitAsked v) = none) : effTirSplit v s =
      ({ s with tier := { s.tier with splitPending := s.tier.splitPending.put h (splitAsked v) } }, none) := by
  subst hh
  rw [effTirSplit_eq, hr]

theorem splitFails_some {s : State} {h r : Nat} {x : Split}
    (hr : 128 < splitSum x ∧ r = SPLIT_SUM ∨
      splitSum x ≤ 128 ∧ x.scratch < ceilDiv (s.scratchUsed h) 1024 ∧ r = SPLIT_SCRATCH ∨
      splitSum x ≤ 128 ∧ ceilDiv (s.scratchUsed h) 1024 ≤ x.scratch ∧ s.tier.splitPending.has h = true ∧ r = SPLIT_BUSY ∨
      splitSum x ≤ 128 ∧ ceilDiv (s.scratchUsed h) 1024 ≤ x.scratch ∧ s.tier.splitPending.has h = false ∧ splitSum x ≠ 0 ∧
        (s.fld F.PWR_ISLAND_STAT_ON).testBit h = false ∧ r = SPLIT_ISLAND) :
    s.splitFails h x = some r := by
  unfold State.splitFails
  obtain ⟨hsum, rfl⟩ | ⟨hsum, hscratch, rfl⟩ | ⟨hsum, hscratch, hbusy, rfl⟩ | ⟨hsum, hscratch, hbusy, hused, hdark, rfl⟩ := hr
  · rw [if_pos hsum]
  · rw [if_neg (Nat.not_lt.2 hsum), if_pos hscratch]
  · rw [if_neg (Nat.not_lt.2 hsum), if_neg (Nat.not_lt.2 hscratch), if_pos hbusy]
  · rw [if_neg (Nat.not_lt.2 hsum), if_neg (Nat.not_lt.2 hscratch), if_neg (Bool.eq_false_iff.1 hbusy), if_pos ⟨hused, hdark⟩]

theorem splitFails_none {s : State} {h : Nat} {x : Split} (hsum : splitSum x ≤ 128)
    (hscratch : ceilDiv (s.scratchUsed h) 1024 ≤ x.scratch) (hbusy : s.tier.splitPending.has h = false)
    (hpower : splitSum x = 0 ∨ (s.fld F.PWR_ISLAND_STAT_ON).testBit h = true) : s.splitFails h x = none := by
  unfold State.splitFails
  rw [if_neg (Nat.not_lt.2 hsum), if_neg (Nat.not_lt.2 hscratch), if_neg (Bool.eq_false_iff.1 hbusy),
    if_neg (fun ⟨hused, hdark⟩ => hpower.elim hused (fun hon => Bool.false_ne_true (hdark.symm.trans hon)))]

/-! ## Islands (R20, R556) -/

/-- A request for islands: accepted where every region it switches off is idle. -/
theorem exec_pwrIslandReqWrite {s : State} {path cycle : Nat} {v : Word} {on off : List Nat} {keep : List (Nat × Nat)}
    (h : s.mayWrite path B_PWR = true)
    (hoff : off = (List.range 24).filter (fun h => (s.fld F.PWR_ISLAND_REQ_ON).testBit h && !(bitsOf v 0 24).testBit h &&
      (s.fld F.PWR_ISLAND_STAT_ON).testBit h))
    (hon : on = (List.range 24).filter (fun h => (bitsOf v 0 24).testBit h && !(s.fld F.PWR_ISLAND_STAT_ON).testBit h))
    (hkeep : keep = s.tick.islandOn.filter (fun e => on.contains e.1)) :
    exec (.pwrIslandReqWrite path v cycle) s = .next (
      if off.all s.islandIdle then { s.setFld F.PWR_ISLAND_REQ_ON (bitsOf v 0 24) with tick := { s.tick with
        islandOn := keep ++ (on.filter (fun h => !keep.any (fun e => e.1 == h))).map (fun h => (h, cycle)) } }
      else s.logReject B_PWR Reg.PWR_ISLAND_REQ v REG_STATE path) := by
  subst hoff hon hkeep
  refine congrArg Host.Outcome.next ?_
  split
  next hidle => exact plainWrite_done h (if_pos hidle)
  next hidle => exact plainWrite_rejected h (if_neg hidle)

/-! ## Scrub and temperature (R551) -/

theorem exec_patrolScrub {s : State} {c : Nat} (ns : Nat) (found : List EccError) (hc : c < 192) (hin : s.dchanIn c = true) :
    exec (.patrolScrub c ns found) s = .next (
      let u := found.foldl (State.eccFound c ns) s
      u.setDchan c { u.dchan c with scrubPasses := (u.dchan c).scrubPasses + 1 }) :=
  congrArg Host.Outcome.next (if_pos ⟨hc, hin⟩)

/-- A reading of stack `k`'s temperature, its refresh doubled above 85 °C. -/
def State.stackRead (s : State) (k t : Nat) : State :=
  { s with stk := { s.stk with stackTab := s.stk.stackTab.put k { s.stk.stackTab.get {} k with
      tempC := t, hot := decide (85 < t) } } }

theorem exec_stackHot {s : State} {k t : Nat} (hk : k < 12) (ht : 85 < t) : exec (.stackHot k t) s =
    .next (if (s.stk.stackTab.get {} k).hot then s.stackRead k t else (s.stackRead k t).setEvt F.STK_EVT_TEMP_HIGH) := by
  change Host.Outcome.next (if k < 12 ∧ 85 < t then
    if decide (85 < t) && !(s.stk.stackTab.get {} k).hot then (s.stackRead k t).setEvt F.STK_EVT_TEMP_HIGH else s.stackRead k t
    else s) = _
  rw [if_pos ⟨hk, ht⟩, decide_eq_true ht]
  cases (s.stk.stackTab.get {} k).hot with
  | true => rfl
  | false => rfl

theorem exec_hotRefreshClear {s : State} {k t : Nat} (hk : k < 12) (ht : t ≤ 85) :
    exec (.hotRefreshClear k t) s = .next (s.stackRead k t) := by
  change Host.Outcome.next (if k < 12 ∧ t ≤ 85 then
    if decide (85 < t) && !(s.stk.stackTab.get {} k).hot then (s.stackRead k t).setEvt F.STK_EVT_TEMP_HIGH else s.stackRead k t
    else s) = _
  rw [if_pos ⟨hk, ht⟩, decide_eq_false (Nat.not_lt.2 ht)]
  rfl

/-- Settles O43: each write by its ranges and conditions, and the readings by what they leave. -/
theorem powerAndStacks : Obligations.PowerAndStacks := by
  unfold Obligations.PowerAndStacks
  refine ⟨fun s g path cycle v h hg => exec_pwrCapWrite h hg, fun s g path cycle v h hg => exec_pwrThermWrite h hg, ?island,
    ?split, fun s env => rfl, ?scrub, ?temperature⟩
  case island =>
    rintro s path cycle new stat on off keep fresh v h rfl rfl hoff hon hkeep rfl
    exact exec_pwrIslandReqWrite h hoff hon hkeep
  case split =>
    rintro s g path cycle h x v hp rfl hh rfl
    exact ⟨fun r hr => congrArg Host.Outcome.next
        (guardPair_rejected hp rfl (effTirSplit_refused hh (splitFails_some (s := s.setGuard path none) hr))),
      fun hsum hscratch hbusy hpower => congrArg Host.Outcome.next (guardPair_ok hp rfl
        (effTirSplit_accepted hh (splitFails_none (s := s.setGuard path none) hsum hscratch hbusy hpower)))⟩
  case scrub =>
    rintro s u c ns found hc hin rfl
    exact exec_patrolScrub ns found hc hin
  case temperature =>
    rintro s u k t hk rfl
    exact ⟨exec_stackHot hk, exec_hotRefreshClear hk⟩

end Sys2Proof.Machine
end

section

namespace Sys2Proof.Machine

/-! ## Work that runs again (R13, R128) -/

/-- The state once the work of descriptor `tok`'s run on the cluster of unit `key` is to run again; where it has no run, or
the unit is of no matrix cluster, nothing is. -/
def State.clusterRetried (s : State) (tok key : Nat) : State :=
  match s.mtx.runs.find tok with
  | some r =>
    if keyDie key ≤ 5 ∧ keyCluster key ≤ 3 then s.retryItem tok (16 * keyDie key + 4 * keyRegion key + keyCluster key) r else s
  | none => s

theorem clusterRetried_none {s : State} {tok : Nat} (key : Nat) (h : s.mtx.runs.find tok = none) :
    s.clusterRetried tok key = s := by
  simp only [State.clusterRetried, h]

theorem clusterRetried_some {s : State} {tok key : Nat} {r : MtxRun} (h : s.mtx.runs.find tok = some r)
    (hdie : keyDie key ≤ 5) (hcluster : keyCluster key ≤ 3) :
    s.clusterRetried tok key = s.retryItem tok (16 * keyDie key + 4 * keyRegion key + keyCluster key) r := by
  simp only [State.clusterRetried, h, hdie, hcluster, and_self, if_true]

theorem rerun_eq (s : State) (tok loc : Nat) : s.rerun tok loc =
    match partOf loc with
    | some (.unit k) =>
      let t := s.clusterRetried tok (loc / 256 * 256)
      (t.setUnit k { t.unitOf k with attempt := (t.unitOf k).attempt + 1, failed := true }).dueLoc loc
    | some _ => (s.clusterRetried tok (loc / 256 * 256)).dueLoc loc
    | none => s.clusterRetried tok (loc / 256 * 256) := rfl

theorem rerun_unit {s t : State} {tok loc k : Nat} (ht : s.clusterRetried tok (loc / 256 * 256) = t)
    (h : partOf loc = some (.unit k)) : s.rerun tok loc =
      (t.setUnit k { t.unitOf k with attempt := (t.unitOf k).attempt + 1, failed := true }).dueLoc loc := by
  rw [rerun_eq, h, ht]

theorem rerun_otherPart {s t : State} {tok loc : Nat} {p : Part} (ht : s.clusterRetried tok (loc / 256 * 256) = t)
    (h : partOf loc = some p) (hp : ∀ k, p ≠ .unit k) : s.rerun tok loc = t.dueLoc loc := by
  rw [rerun_eq, h, ht]
  cases p with
  | unit k => exact absurd rfl (hp k)
  | _ => rfl

theorem rerun_noPart {s t : State} {tok loc : Nat} (ht : s.clusterRetried tok (loc / 256 * 256) = t)
    (h : partOf loc = none) : s.rerun tok loc = t := by
  rw [rerun_eq, h, ht]

/-! ## Unit tests (R599, Table 20-4) -/

/-- The unit is no longer under test. -/
def State.testEnded (s : State) (key : Nat) : State :=
  { s with units := { s.units with testing := s.units.testing.filter (fun k => k != key) } }

/-- The passed tests that rule 2 of Table 20-4 counts, this one among them. -/
def State.intermittents (s : State) (key : Nat) : List Nat :=
  s.tick.now :: (s.unitOf key).intermittent.filter (fun t => decide (s.tick.now < t + 1024))

theorem exec_unitTestDone {s u : State} {loc key : Nat} (passed : Bool) (hk : key = loc / 256 * 256)
    (h : s.units.testing.contains key = true ∨ 4 ≤ keyCluster key) (hu : s.testEnded key = u) :
    exec (.unitTestDone loc passed) s = .next (
      if !passed then (u.setUnit key { u.unitOf key with failed := true }).dueLoc (u.locOf key)
      else if (s.intermittents key).length < 2 then
        u.setUnit key { u.unitOf key with intermittent := s.intermittents key }
      else (u.setUnit key { u.unitOf key with intermittent := [] }).predictive 2 (u.locOf key)) := by
  subst hk hu
  change Host.Outcome.next (if s.units.testing.contains _ || decide (4 ≤ keyCluster _) then _ else s) = _
  rw [if_pos (by rw [Bool.or_eq_true, decide_eq_true_eq]; exact h)]
  rfl

/-! ## Service cores (R602) -/

theorem exec_lockstepMismatch (s : State) (p : Nat) : exec (.lockstepMismatch p) s = .next (
    if p < 8 ∧ s.units.pairsOut.contains p = false ∧ s.units.pairsHalted.contains p = false then
      State.checkPairs { s with units := { s.units with pairsHalted := s.units.pairsHalted ++ [p] } } else s) := by
  have idle : (8 ≤ p ∨ s.units.pairsOut.contains p = true ∨ s.units.pairsHalted.contains p = true) ↔
      ¬(p < 8 ∧ s.units.pairsOut.contains p = false ∧ s.units.pairsHalted.contains p = false) := by
    simp only [Decidable.not_and_iff_or_not, Nat.not_lt, Bool.not_eq_false]
  change Host.Outcome.next (if 8 ≤ p ∨ s.units.pairsOut.contains p = true ∨ s.units.pairsHalted.contains p = true then s
    else _) = _
  by_cases hserves : p < 8 ∧ s.units.pairsOut.contains p = false ∧ s.units.pairsHalted.contains p = false
  · rw [if_pos hserves, if_neg (fun h => idle.1 h hserves)]
    rfl
  · rw [if_neg hserves, if_pos (idle.2 hserves)]

theorem exec_pairRestartTestDone {s : State} {p : Nat} (passed : Bool) (h : s.units.pairsHalted.contains p = true) :
    exec (.pairRestartTestDone p passed) s = .next (
      if passed then { s with units := { s.units with pairsHalted := s.units.pairsHalted.filter (fun q => q != p) } }
      else s.dueLoc (0x50FF0000 + at_ 8 (2 * p) + 0xFF)) := by
  change Host.Outcome.next (if s.units.pairsHalted.contains p then _ else s) = _
  rw [if_pos h]
  rfl

theorem checkPairs_few {s : State} (h : s.pairsIn < 4) : s.checkPairs = s.loseDie 0x50 := if_pos h

/-! ## Lost dies (R32) -/

theorem exec_dieLoss {s : State} {die : Nat} (h : dieExists die = true) : exec (.dieLoss die) s = .next (s.loseDie die) :=
  congrArg Host.Outcome.next (if_pos h)

theorem exec_clockDeviation {s : State} {die : Nat} (h : dieExists die = true) :
    exec (.clockDeviation die) s = .next (s.loseDie die) :=
  congrArg Host.Outcome.next (if_pos h)

theorem loseDie_again {s : State} {die : Nat} (h : s.units.lostDies.contains die = true) : s.loseDie die = s := if_pos h

/-! ## Fault records and holds (R597, R609) -/

theorem exec_rasPop {s : State} {path : Nat} (cycle : Nat) (v : Word) (h : s.mayWrite path B_RAS = true) :
    exec (.rasPop path v cycle) s = .next (if bitOf v 0 then { s with faults := s.faults.drop 1 } else s) :=
  congrArg Host.Outcome.next (plainWrite_done h rfl)

/-- A hold for which nothing waits is freed and nothing else happens. -/
theorem freeHold_idle {s : State} {line : Nat} {h : StripeHold} (hh : s.pg.holds.find line = some h) (hd : h.deltas = [])
    (hq : h.queue = []) : s.freeHold line = { s with pg := { s.pg with holds := s.pg.holds.del line } } := by
  simp only [State.freeHold, hh, hd, hq, List.foldl_nil]

/-- Settles O49: the work of a failed unit by whether it has a run and by the part it is, a test by its end, a pair by
whether it is in service. -/
theorem failuresAndLosses : Obligations.FailuresAndLosses := by
  unfold Obligations.FailuresAndLosses
  refine ⟨?failed, ?tested, fun s p => ⟨exec_lockstepMismatch s p, fun h => ⟨exec_pairRestartTestDone true h,
      exec_pairRestartTestDone false h⟩⟩, fun s h => checkPairs_few h, fun s table index => ⟨rfl, rfl⟩,
    fun s die h => ⟨exec_dieLoss h, exec_clockDeviation h⟩, fun s die h => loseDie_again h, ?lost,
    fun s path cycle v h => exec_rasPop cycle v h, fun s line => ⟨rfl, fun h hh hd hq => freeHold_idle hh hd hq⟩⟩
  case failed =>
    rintro s t tok loc key rfl ht
    have retried : s.clusterRetried tok (loc / 256 * 256) = t := by
      obtain ⟨hnone, rfl⟩ | ⟨r, hsome, hdie, hcluster, rfl⟩ := ht
      · exact clusterRetried_none _ hnone
      · exact clusterRetried_some hsome hdie hcluster
    exact ⟨rfl, fun k h => congrArg Host.Outcome.next (rerun_unit retried h),
      fun p h hp => congrArg Host.Outcome.next (rerun_otherPart retried h hp),
      fun h => congrArg Host.Outcome.next (rerun_noPart retried h)⟩
  case tested =>
    rintro s u t loc key l hk htest hu rfl
    have ended := fun passed => exec_unitTestDone passed hk htest hu.symm
    exact ⟨fun ht => ht ▸ ended false, fun hl => (ended true).trans (congrArg Host.Outcome.next (if_pos hl)),
      fun hl ht => ht ▸ (ended true).trans (congrArg Host.Outcome.next (if_neg (Nat.not_lt.2 hl)))⟩
  case lost =>
    rintro s u die h rfl
    exact if_neg (by rw [h]; exact Bool.false_ne_true)

end Sys2Proof.Machine
end

section

namespace Sys2Proof.Machine

/-! ## What a cold reset leaves -/

/-- The bit that a cold reset takes from the fuses is one that they hold, so no borrow and no wrap. -/
theorem coldState_fuses_toNat (s : State) :
    s.coldState.sec.fuses.toNat = s.sec.fuses.toNat - 256 * boolNat (s.sec.fuses.getLsbD 8) := by
  have bound : s.sec.fuses.toNat - 256 * boolNat (s.sec.fuses.getLsbD 8) < 2 ^ 128 :=
    Nat.lt_of_le_of_lt (Nat.sub_le ..) s.sec.fuses.isLt
  have shifted : at_ 8 (boolNat (s.sec.fuses.getLsbD 8)) = 256 * boolNat (s.sec.fuses.getLsbD 8) := Nat.mul_comm ..
  change (BitVec.ofNat 128 (s.sec.fuses.toNat - at_ 8 (boolNat (s.sec.fuses.getLsbD 8)))).toNat = _
  rw [shifted, BitVec.toNat_ofNat, Nat.mod_eq_of_lt bound]

/-- Table 22-3 keeps the queue of commands; memory, registers, key slots and fault records are those of the reset state. -/
theorem coldState_resets (s : State) :
    s.coldState.mem = State.reset.mem ∧ s.coldState.regs = State.reset.regs ∧ s.coldState.slots = State.reset.slots ∧
      s.coldState.faults = [] ∧ s.coldState.pending = s.pending :=
  ⟨rfl, rfl, rfl, rfl, rfl⟩

/-! ## Which lands hold the dies (R662) -/

theorem holds_mainGood (b : BootState) :
    ({ b with mainGood := true } : BootState).holds = (b.tripped || b.resetLow || !b.mgtGood) := by
  simp only [BootState.holds, Bool.not_true, Bool.or_false]

theorem holds_resetHigh (b : BootState) :
    ({ b with resetLow := false } : BootState).holds = (b.tripped || !b.mainGood || !b.mgtGood) := by
  simp only [BootState.holds, Bool.or_false]

/-! ## The commands of the control lands -/

theorem exec_mgtPwrgoodRise (s : State) : exec .mgtPwrgoodRise s =
    .next (if s.boot.mgtGood then s else State.coldReset { s with boot := { s.boot with mgtGood := true } }) := rfl

theorem exec_mainPwrgoodFall (s : State) :
    exec .mainPwrgoodFall s = .next (State.coldReset { s with boot := { s.boot with mainGood := false } }) := rfl

/-- R653: the fault of a rail of an interior row, while main power is good, is recorded and then acts as its fall. -/
theorem exec_railFault {s : State} {row : Nat} {r : Rail} (hr : railOfRow row = some r) (hg : s.boot.mainGood = true) :
    exec (.railFault row) s = exec .mainPwrgoodFall (s.event RAIL_FAULTED LOC_MD row) := by
  change Host.Outcome.next (if s.boot.mainGood && (railOfRow row).isSome then _ else s) = _
  rw [if_pos (by simp only [hr, hg, Option.isSome_some, Bool.and_self])]
  rfl

/-- R637: how a warm reset acts hangs on how far boot has come. -/
theorem warmReset_eq (s : State) : s.warmReset =
    if s.boot.stacksDone = false then s.coldReset else if s.stage = STAGE_FAILED then s else s.warmSteps := by
  simp only [State.warmReset, Bool.not_eq_true']

/-! ## The loss of a reference clock (R658) -/

theorem exec_refclkLoss_host (s : State) {k : Nat} (h : k < 8) : exec (.refclkLoss k) s = exec (.perstAssert k) s := by
  change Host.Outcome.next (if k < 8 then _ else _) = _
  rw [if_pos h]
  rfl

theorem exec_refclkLoss_fabric (s : State) {k : Nat} (h : k < 4) :
    exec (.refclkLoss (8 + k)) s = .next (s.loseDie (0x20 + k)) := by
  change Host.Outcome.next (if 8 + k < 8 then _ else if 8 + k < 12 then s.loseDie (0x20 + (8 + k - 8)) else _) = _
  rw [if_neg (by omega), if_pos (by omega), Nat.add_sub_cancel_left]

/-! ## Thermal trip (R665) -/

theorem exec_thermTrip_latched {s : State} (loc : Nat) (h : s.boot.tripped = true) : exec (.thermTrip loc) s = .next s := by
  change Host.Outcome.next (if s.boot.tripped then s else _) = _
  rw [if_pos h]

theorem exec_thermTrip {s : State} (loc : Nat) (h : s.boot.tripped = false) :
    exec (.thermTrip loc) s = .next ((State.heldLands { (s.emit (.pin PIN_THERMTRIP_N false)).tripDies with
      boot := { s.boot with tripped := true, held := true } }).event THERM_TRIPPED loc) := by
  change Host.Outcome.next (if s.boot.tripped then s else _) = _
  rw [if_neg (Bool.eq_false_iff.1 h)]
  rfl

/-- Settles O53: each land is one case of its command, and a warm reset is one of three by how far boot has come. -/
theorem resetsAndLands : Obligations.ResetsAndLands := by
  unfold Obligations.ResetsAndLands
  refine ⟨fun s => ⟨rfl, ?cold⟩, fun s => ⟨fun h => ?rise, fun h => ?good⟩, ?fall, fun s => ⟨rfl, rfl, ?mainRise, ?release⟩,
    fun s => ?watchdog, fun s row r hr hg => exec_railFault hr hg, fun s k h => exec_refclkLoss_host s h,
    fun s k h => exec_refclkLoss_fabric s h, fun s => rfl, ?trip⟩
  case cold =>
    obtain ⟨hmem, hregs, hslots, hfaults, hpending⟩ := coldState_resets s
    exact ⟨hmem, hregs, hslots, hfaults, hpending, coldState_fuses_toNat s⟩
  case rise => rw [exec_mgtPwrgoodRise, if_neg (Bool.eq_false_iff.1 h)]
  case good => rw [exec_mgtPwrgoodRise, if_pos h]
  case fall => rintro s u rfl; rfl
  case mainRise => rw [← holds_mainGood]; rfl
  case release => rw [← holds_resetHigh]; rfl
  case watchdog => rw [← warmReset_eq]; rfl
  case trip =>
    rintro s u loc rfl
    exact ⟨exec_thermTrip_latched loc, exec_thermTrip loc⟩

end Sys2Proof.Machine
end

section

namespace Sys2Proof.Machine

/-! ## TIK_CTRL (R37, R42) -/

/-- The state once `v` stands in TIK_CTRL. -/
def State.tikCtrlWritten (s : State) (v : Word) : State :=
  s.setWord Reg.TIK_CTRL (writeWord Reg.TIK_CTRL (s.word Reg.TIK_CTRL) v)

theorem fld_run_tikCtrlWritten (s : State) (v : Word) :
    (s.tikCtrlWritten v).fld F.TIK_CTRL_RUN = boolNat (bitOf v 0) :=
  (fld_written F.TIK_CTRL_RUN rfl (by decide)).trans (bitsOf_one v 0)

theorem tickSrc_tikCtrlWritten (s : State) (v : Word) : (s.tikCtrlWritten v).tickSrc = bitsOf v 4 2 :=
  fld_written F.TIK_CTRL_SRC rfl (by decide)

/-- The generator enters the first state of its source (Table 2-1). -/
def State.generatorStarted (s : State) : State :=
  let u : State := { s with tick := { s.tick with expected := none, edgeDue := false, relock := false } }
  if s.tickSrc = 0 then { u with tick := { u.tick with sync := .free, lockCount := 0 } } else u.enterLocking

theorem generatorStarted_sync (s : State) :
    s.generatorStarted.tick.sync = if s.tickSrc = 0 then .free else .locking := by
  unfold State.generatorStarted
  split <;> rfl

theorem generatorStarted_now (s : State) : s.generatorStarted.tick.now = s.tick.now := by
  unfold State.generatorStarted
  split <;> rfl

theorem generatorStarted_onlyTick (s : State) : s.generatorStarted = { s with tick := s.generatorStarted.tick } := by
  unfold State.generatorStarted
  split <;> rfl

theorem fld_generatorStarted (s : State) (f : Fld) : s.generatorStarted.fld f = s.fld f := by
  rw [generatorStarted_onlyTick]
  rfl

/-- The generator stops, and with it the overrun and lateness marks. -/
def State.generatorStopped (s : State) : State :=
  { s with tick := { s.tick with
             sync := .stopped, lockCount := 0, expected := none, edgeDue := false, relock := false, ticking := false }
           ras := { s.ras with seen := 0, overran := false, unsync := false } }

theorem effTikCtrl_eq (v : Word) (s : State) : effTikCtrl v s =
    if bitsOf v 4 2 = 3 then (s, some REG_VALUE)
    else (if (s.tikCtrlWritten v).fld F.TIK_CTRL_RUN = 0 then (s.tikCtrlWritten v).generatorStopped
      else if s.fld F.TIK_CTRL_RUN = 0 ∨ s.tickSrc ≠ (s.tikCtrlWritten v).tickSrc ∨ s.tick.sync = .stopped then
        (s.tikCtrlWritten v).generatorStarted
      else s.tikCtrlWritten v, none) := rfl

/-- RUN set where it was 0, or with another source: the generator starts under the source written. -/
theorem effTikCtrl_starts {s : State} {v : Word} (hsrc : bitsOf v 4 2 ≠ 3) (hrun : bitOf v 0 = true)
    (h : s.fld F.TIK_CTRL_RUN = 0 ∨ bitsOf v 4 2 ≠ s.tickSrc) :
    effTikCtrl v s = ((s.tikCtrlWritten v).generatorStarted, none) := by
  rw [effTikCtrl_eq, if_neg hsrc, fld_run_tikCtrlWritten, hrun, tickSrc_tikCtrlWritten, if_neg (by decide : boolNat true ≠ 0),
    if_pos (h.imp_right fun hne => .inl hne.symm)]

theorem effTikCtrl_stops {s : State} {v : Word} (hsrc : bitsOf v 4 2 ≠ 3) (hrun : bitOf v 0 = false) :
    effTikCtrl v s = ((s.tikCtrlWritten v).generatorStopped, none) := by
  rw [effTikCtrl_eq, if_neg hsrc, fld_run_tikCtrlWritten, hrun]
  rfl

/-- A completed pair of TIK_CTRL that starts the generator: the state of its source, TICK_NOW kept (R37). -/
theorem started_after_tikCtrl (s : State) (path : Nat) (v : Word) (hrun : bitOf v 0 = true) :
    let t := ((s.setGuard path none).tikCtrlWritten v).generatorStarted
    t.tick.now = s.tick.now ∧ t.tick.sync = (if bitsOf v 4 2 = 0 then .free else .locking) ∧ t.tickSrc = bitsOf v 4 2 ∧
      t.fld F.TIK_CTRL_RUN = 1 ∧ t = { s with regs := t.regs, tick := t.tick } := by
  refine ⟨generatorStarted_now _, ?_, ?_, ?_, ?_⟩
  · rw [generatorStarted_sync, tickSrc_tikCtrlWritten]
  · rw [State.tickSrc, fld_generatorStarted]
    exact tickSrc_tikCtrlWritten ..
  · rw [fld_generatorStarted, fld_run_tikCtrlWritten, hrun]
    rfl
  · rw [generatorStarted_onlyTick]
    rfl

/-! ## TIK_PERIOD (R40, R51) -/

/-- The announcement of a period change touches the slices' plans, registers and messages alone. -/
theorem dropPendingPlans_onlyPlans (s : State) (c p : Nat) : s.dropPendingPlans c p =
    { s with regs := (s.dropPendingPlans c p).regs, out := (s.dropPendingPlans c p).out
             tick := { s.tick with plans := (s.dropPendingPlans c p).tick.plans } } := by
  unfold State.dropPendingPlans
  dsimp only
  split
  · rw [setEvt_onlyRegs]
  · rfl

theorem effTikPeriod_range {s : State} {v : Word} (h : bitsOf v 0 17 < 50 ∨ 100000 < bitsOf v 0 17) :
    effTikPeriod v s = (s, some REG_VALUE) := if_pos h

section
variable {s : State} {v : Word} (hlo : 50 ≤ bitsOf v 0 17) (hhi : bitsOf v 0 17 ≤ 100000)
  (hown : s.fld F.TIK_CTRL_MASTER = 0 → s.tickSrc ≠ 1)
include hlo hhi hown

/-- A period that the device may set, while STOPPED: it waits for the substitute boundary. -/
theorem effTikPeriod_stopped (h : s.tick.sync = .stopped) :
    effTikPeriod v s = ({ s with tick := { s.tick with periodPending := some (bitsOf v 0 17) } }, none) := by
  unfold effTikPeriod
  dsimp only
  rw [if_neg (by omega), if_neg (not_and.2 hown), if_pos h]

/-- A period that the device may set, while running: the change is announced for the 65th tick on. -/
theorem effTikPeriod_announces (h : s.tick.sync ≠ .stopped) (hnone : s.tick.change = none) : effTikPeriod v s =
    (({ s with tick := { s.tick with change := some (bitsOf v 0 17, s.tick.now + 65) } }).dropPendingPlans
      (s.tick.now + 65) (bitsOf v 0 17), none) := by
  unfold effTikPeriod
  dsimp only
  rw [if_neg (by omega), if_neg (not_and.2 hown), if_neg h, hnone, if_neg (by decide)]

end

/-! ## TIK_LULL and TIK_LEAD (R62, R55) -/

theorem effTikLull_accepted {s : State} {v : Word} (hevery : 2 ≤ bitsOf v 0 12) (hphase : bitsOf v 12 12 < bitsOf v 0 12)
    (hmaint : bitsOf v 24 7 ≤ 100) :
    effTikLull v s = ({ s with tick := { s.tick with lullPending := some (writeWord Reg.TIK_LULL 0 v) } }, none) :=
  if_neg (by omega)

theorem effTikLead_accepted {s : State} {v : Word} (hlo : 2 ≤ bitsOf v 0 17) (hhi : 2 * bitsOf v 0 17 ≤ s.period) :
    effTikLead v s = (s.setWord Reg.TIK_LEAD (writeWord Reg.TIK_LEAD (s.word Reg.TIK_LEAD) v), none) :=
  if_neg (by omega)

/-- With no TIK_PERIOD pair armed a write of TIK_LEAD is a write of its own register (R541). -/
theorem exec_tikLeadWrite_unarmed {s : State} {path cycle : Nat} (v : Word) (h : s.armed path Reg.TIK_PERIOD cycle = none) :
    exec (.tikLeadWrite path v cycle) s = .next (s.plainWrite path Reg.TIK_LEAD v effTikLead) := by
  change Host.Outcome.next (if (s.armed path Reg.TIK_PERIOD cycle).isSome then _ else _) = _
  rw [h]
  rfl

/-- Settles O5: each write is its register's effect on the state with the pair's guard closed. -/
theorem tickControlWrites : Obligations.TickControlWrites := by
  unfold Obligations.TickControlWrites
  refine ⟨?start, ?stop, ?source, ?period, ?range, ?lull, ?lead⟩
  case start =>
    intro s path cycle v hp hrun hwas hsrc
    have hv : (bitOf v 0 && s.fld F.TIK_CTRL_RUN == 0) = true := by rw [hrun, hwas]; rfl
    exact ⟨_, congrArg Host.Outcome.next (guardPair_ok hp hv (effTikCtrl_starts hsrc hrun (.inl hwas))),
      started_after_tikCtrl s path v hrun⟩
  case stop =>
    intro s path cycle v hp hrun hsrc
    have hv : (!bitOf v 0) = true := by rw [hrun]; rfl
    refine ⟨_, congrArg Host.Outcome.next (guardPair_ok hp hv (effTikCtrl_stops hsrc hrun)), rfl, rfl, ?_, rfl⟩
    exact (fld_run_tikCtrlWritten (s.setGuard path none) v).trans (by rw [hrun]; rfl)
  case source =>
    intro s path cycle v hp hrun hwas hne hsrc
    have hv : (bitOf v 0 && s.fld F.TIK_CTRL_RUN == 1 && bitsOf v 4 2 != s.tickSrc) = true := by
      rw [hrun, hwas, bne_iff_ne.2 hne]; rfl
    obtain ⟨hnow, hsync, hto, -, hrest⟩ := started_after_tikCtrl s path v hrun
    exact ⟨_, congrArg Host.Outcome.next (guardPair_ok hp hv (effTikCtrl_starts hsrc hrun (.inr hne))),
      hnow, hsync, hto, hrest⟩
  case period =>
    intro s path cycle v hp hlo hhi hown hnone
    by_cases hstop : s.tick.sync = .stopped
    · exact ⟨_, congrArg Host.Outcome.next (guardPair_ok hp rfl (effTikPeriod_stopped hlo hhi hown hstop)),
        rfl, rfl, fun _ => ⟨rfl, hnone⟩, fun h => absurd hstop h⟩
    · refine ⟨_, congrArg Host.Outcome.next (guardPair_ok hp rfl (effTikPeriod_announces hlo hhi hown hstop hnone)), ?_⟩
      rw [dropPendingPlans_onlyPlans]
      exact ⟨rfl, rfl, fun h => absurd h hstop, fun _ => rfl⟩
  case range =>
    intro s path cycle v hp hrange
    exact ⟨_, congrArg Host.Outcome.next (guardPair_rejected hp rfl (effTikPeriod_range hrange)),
      (setGuard_onlyRegs s path none).trans (logReject_onlyRegs ..)⟩
  case lull =>
    intro s path cycle v hp hevery hphase hmaint
    exact congrArg Host.Outcome.next (guardPair_ok hp rfl (effTikLull_accepted hevery hphase hmaint))
  case lead =>
    intro s path cycle v hmay harmed hlo hhi
    refine ⟨_, (exec_tikLeadWrite_unarmed v harmed).trans
      (congrArg Host.Outcome.next (plainWrite_done hmay (effTikLead_accepted hlo hhi))), rfl, ?_⟩
    exact fld_written F.TIK_LEAD_LEAD_US rfl (by decide)

end Sys2Proof.Machine
end

section

namespace Sys2Proof.Machine

/-! ## TICK_IN (R41, R46) -/

/-- An edge that does not count. -/
def State.edgeIgnored (s : State) : State := { s with tick := { s.tick with edgesIgnored := s.tick.edgesIgnored + 1 } }

/-- The count of good boundaries is `n`. -/
def State.withLockCount (s : State) (n : Nat) : State := { s with tick := { s.tick with lockCount := n } }

theorem exec_tickInEdge_short {s : State} {ns high : Nat} (hsync : s.tick.sync ≠ .stopped) (hsrc : s.tickSrc = 2)
    (hhigh : high < 20) : exec (.tickInEdge ns high) s = .next s.edgeIgnored := by
  change execTickInEdge ns high s = _
  rw [execTickInEdge, if_neg (not_or.2 ⟨hsync, not_not_intro hsrc⟩), if_pos hhigh]
  rfl

theorem exec_tickInEdge_lost {s : State} {ns high : Nat} (hsync : s.tick.sync = .lost) (hsrc : s.tickSrc = 2)
    (hhigh : 20 ≤ high) : exec (.tickInEdge ns high) s = .next (s.enterLocking.edgeTaken ns) := by
  have running : s.tick.sync ≠ .stopped := by rw [hsync]; decide
  change execTickInEdge ns high s = _
  rw [execTickInEdge, if_neg (not_or.2 ⟨running, not_not_intro hsrc⟩), if_neg (Nat.not_lt.2 hhigh), if_pos hsync]

/-- An edge while the next one is expected at `x`: outside its window ignored, else counted where the generator is to lock. -/
theorem exec_tickInEdge_expected {s : State} {ns high x : Nat} (hstop : s.tick.sync ≠ .stopped) (hlost : s.tick.sync ≠ .lost)
    (hsrc : s.tickSrc = 2) (hhigh : 20 ≤ high) (hx : s.tick.expected = some x) : exec (.tickInEdge ns high) s = .next (
      if ns + 1000 < x ∨ x + 1000 < ns then s.edgeIgnored
      else if s.tick.sync = .locking ∨ s.tick.sync = .holdover then
        (if 16 ≤ s.tick.lockCount + 1 then (s.withLockCount (s.tick.lockCount + 1)).enterLocked
          else s.withLockCount (s.tick.lockCount + 1)).edgeTaken ns
      else s.edgeTaken ns) := by
  change execTickInEdge ns high s = _
  rw [execTickInEdge, if_neg (not_or.2 ⟨hstop, not_not_intro hsrc⟩), if_neg (Nat.not_lt.2 hhigh), if_neg hlost, hx]
  rfl

/-- The window of the expected boundary has ended in a state that keeps its own time. -/
theorem exec_tickInEdgeMissing {s : State} {ns x : Nat} (hsrc : s.tickSrc = 2) (hx : s.tick.expected = some x)
    (hns : x + 1000 ≤ ns) (hsync : s.tick.sync = .locking ∨ s.tick.sync = .locked ∨ s.tick.sync = .holdover) :
    exec (.tickInEdgeMissing ns) s = .next (
      (if s.tick.sync = .locked then (s.withLockCount 0).enterHoldover else s.withLockCount 0).edgeTaken x) := by
  change execTickInEdgeMissing ns s = _
  rw [execTickInEdgeMissing, hx]
  exact congrArg Host.Outcome.next (if_pos ⟨hsrc, hns, hsync⟩)

/-! ## PTP (R42, R43) -/

/-- A PTP message whose offset estimate is `off` has come. -/
def State.offsetTaken (s : State) (off : Int) : State :=
  { s with tick := { s.tick with offset := off, offsetKnown := true, ptpLive := true, ptpSinceLost := true } }

theorem exec_ptpMessage_locked {s : State} (off : Int) (hen : s.fld F.TIK_CTRL_PTP_EN = 1) (hsync : s.tick.sync = .locked)
    (hsrc : s.tickSrc = 1) : exec (.ptpMessage off) s =
      .next (if 100 < off.natAbs then (s.offsetTaken off).enterHoldover else s.offsetTaken off) := by
  have source : (s.offsetTaken off).tickSrc = 1 := hsrc
  have notLost : ¬((s.offsetTaken off).tick.sync = .lost ∧ (s.offsetTaken off).tick.pktSinceLost = true) :=
    fun h => absurd (hsync.symm.trans h.1) (by decide)
  change execPtpMessage off s = _
  rw [execPtpMessage, hen, if_neg Nat.one_ne_zero]
  change Host.Outcome.next (if (s.offsetTaken off).tickSrc ≠ 1 then s.offsetTaken off
    else if (s.offsetTaken off).tick.sync = .locked ∧ 100 < off.natAbs then (s.offsetTaken off).enterHoldover
    else if (s.offsetTaken off).tick.sync = .lost ∧ (s.offsetTaken off).tick.pktSinceLost = true then _
    else s.offsetTaken off) = _
  rw [if_neg (not_not_intro source), if_neg notLost]
  by_cases hoff : 100 < off.natAbs
  · rw [if_pos ⟨hsync, hoff⟩, if_pos hoff]
  · rw [if_neg (fun h => hoff h.2), if_neg hoff]

theorem exec_ptpMessageLoss_locked {s : State} (hsync : s.tick.sync = .locked) (hsrc : s.tickSrc = 1) :
    exec .ptpMessageLoss s = .next (State.enterHoldover { s with tick := { s.tick with ptpLive := false } }) :=
  congrArg Host.Outcome.next (if_pos ⟨hsync, hsrc⟩)

/-- R43: under source FABRIC the error estimate starts from the last offset. -/
theorem exec_holdoverLimit_fabric {s : State} (elapsed : Nat) (hsync : s.tick.sync = .holdover) (hsrc : s.tickSrc = 1) :
    exec (.holdoverLimit elapsed) s = .next (
      if 125 * 10 ^ 9 < s.tick.offset.natAbs * 10 ^ 9 + elapsed * s.fld F.TIK_DRIFT_DRIFT_PPB then s.enterLost else s) := by
  change execHoldoverLimit elapsed s = _
  unfold execHoldoverLimit
  dsimp only
  rw [if_pos hsrc, hsync]
  simp only [true_and]

/-- Settles O6: an edge by its length, the state it finds and the window it falls in; PTP by the state it finds. -/
theorem tickInputs : Obligations.TickInputs := by
  unfold Obligations.TickInputs
  refine ⟨fun s ns high hsync hsrc hhigh => exec_tickInEdge_short hsync hsrc hhigh,
    fun s ns high hsync hsrc hhigh => ⟨_, exec_tickInEdge_lost hsync hsrc hhigh, rfl, rfl, rfl, rfl, rfl⟩, ?locked, ?counts,
    ?missing, ?holdover, fun s off hen hsync hsrc => exec_ptpMessage_locked off hen hsync hsrc,
    fun s hsync hsrc => exec_ptpMessageLoss_locked hsync hsrc,
    fun s elapsed hsync hsrc => exec_holdoverLimit_fabric elapsed hsync hsrc⟩
  case locked =>
    intro s ns high x hsync hsrc hhigh hx
    rw [exec_tickInEdge_expected (by rw [hsync]; decide) (by rw [hsync]; decide) hsrc hhigh hx, hsync,
      if_neg (by decide : ¬(Sync.locked = .locking ∨ Sync.locked = .holdover))]
    split <;> rfl
  case counts =>
    intro s ns high x hsync hsrc hhigh hx hlo hhi
    have running : s.tick.sync ≠ .stopped ∧ s.tick.sync ≠ .lost := by rcases hsync with h | h <;> rw [h] <;> decide
    refine ⟨_, exec_tickInEdge_expected running.1 running.2 hsrc hhigh hx, ?_⟩
    rw [if_neg (by omega : ¬(ns + 1000 < x ∨ x + 1000 < ns)), if_pos hsync]
    by_cases hcount : 15 ≤ s.tick.lockCount
    · rw [if_pos (Nat.succ_le_succ hcount), if_pos hcount, if_pos hcount]
      exact ⟨rfl, rfl, rfl, rfl, rfl⟩
    · rw [if_neg (mt Nat.le_of_succ_le_succ hcount), if_neg hcount, if_neg hcount]
      exact ⟨rfl, rfl, rfl, rfl, rfl⟩
  case missing =>
    intro s ns x hsrc hx hns hsync
    rw [exec_tickInEdgeMissing hsrc hx hns (.inl hsync), hsync, if_neg (by decide : Sync.locking ≠ .locked)]
    rfl
  case holdover =>
    intro s ns x hsrc hx hns hsync
    rw [exec_tickInEdgeMissing hsrc hx hns (.inr (.inl hsync)), if_pos hsync]
    rfl

end Sys2Proof.Machine
end

section

namespace Sys2Proof.Machine

/-! ## Wide values cut to one field (R5) -/

/-- The low `len` bits of a wide value stay, and the others read 0. -/
theorem getLsbD_keepBits_low (w : Wide) {len i : Nat} (hlen : len ≤ 256) :
    (keepBits w [(0, len)]).getLsbD i = (decide (i < len) && w.getLsbD i) := by
  have value : keepBits w [(0, len)] = BitVec.ofNat 256 (bitsOf w 0 len) := by
    simp only [keepBits, List.foldl_cons, List.foldl_nil, at_, Nat.zero_add, Nat.pow_zero, Nat.mul_one]
  rw [value, BitVec.getLsbD_ofNat, testBit_bitsOf, Nat.zero_add]
  by_cases hi : i < len
  · simp only [hi, Nat.lt_of_lt_of_le hi hlen, decide_true, Bool.true_and]
  · simp only [hi, decide_false, Bool.false_and, Bool.and_false]

theorem bitsOf_keepBits_low (w : Wide) {len lo n : Nat} (hlen : len ≤ 256) (h : lo + n ≤ len) :
    bitsOf (keepBits w [(0, len)]) lo n = bitsOf w lo n := by
  apply Nat.eq_of_testBit_eq
  intro i
  rw [testBit_bitsOf, testBit_bitsOf, getLsbD_keepBits_low w hlen]
  by_cases hi : i < n
  · simp only [show lo + i < len by omega, decide_true, Bool.true_and]
  · simp only [hi, decide_false, Bool.false_and]

/-! ## The start of a mailbox operation (R538) -/

/-- Mailbox `x` once the write `v` of MBX_SEL has started an operation. -/
def Mailbox.begun (x : Mailbox) (v : Word) : Mailbox :=
  { x with sel := v &&& 0xC000FFFF, started := v, valid := false, err := false, errCode := 0, busy := true, result := none }

theorem mbxStart_read {s : State} {v : Word} (path m : Nat) (hop : bitsOf v 30 2 = 1) : s.mbxStart path m v =
    match s.wideValue (bitsOf v 0 16) with
    | some w => s.setMbx m { (s.mbx m).begun v with data := w }
    | none => s.setMbx m { (s.mbx m).begun v with result := some (MBX_ERR_UNKNOWN, 0) } := if_pos hop

/-- A WRITE of a value that the path may write, by whether the value's own rule refuses it. -/
theorem mbxStart_write {s t : State} {path m : Nat} {v : Word} {l : List (Nat × Nat)} {r : Option Nat}
    (hop : bitsOf v 30 2 = 2) (hknown : (s.wideValue (bitsOf v 0 16)).isSome = true)
    (hmay : s.mayWrite path (bitsOf v 0 16 / 256) = true) (hl : wideFields (bitsOf v 0 16) = some l)
    (hw : s.wideWrite (bitsOf v 0 16) (keepBits (s.mbx m).data l) = (t, r)) : s.mbxStart path m v =
      t.setMbx m { (s.mbx m).begun v with result := r.map (fun x => (MBX_ERR_REFUSED, x)) } := by
  have known : (s.wideValue (bitsOf v 0 16)).isNone = false := Option.isNone_eq_false_iff.2 hknown
  have done : s.mbxDoWrite path (bitsOf v 0 16) (s.mbx m).data = (t, r.map (fun x => (MBX_ERR_REFUSED, x))) := by
    unfold State.mbxDoWrite
    rw [known, hmay, hl]
    dsimp only
    rw [hw]
    cases r with
    | none => rfl
    | some x => rfl
  unfold State.mbxStart
  dsimp only
  rw [if_neg (by rw [hop]; decide), done]
  rfl

/-! ## A write of MBX_SEL (R536, R537) -/

theorem mbxWrite_sel_foreign {s : State} {path m : Nat} (addr : Nat) (v data : Word) (h : ownsMbx path m = false) :
    s.mbxWrite path m 0 addr v data = (s.logReject B_MBX addr data MBX_PATH path, true) := by
  unfold State.mbxWrite
  rw [h]
  rfl

section
variable {s : State} {path m : Nat} {v : Word} (hown : ownsMbx path m = true)
  (hop : bitsOf v 30 2 = 1 ∨ bitsOf v 30 2 = 2)
include hown hop

theorem mbxWrite_sel_busy (addr : Nat) (data : Word) (h : (s.mbx m).busy = true) :
    s.mbxWrite path m 0 addr v data = (s.logReject B_MBX addr data MBX_BUSY path, true) := by
  unfold State.mbxWrite
  rw [hown]
  dsimp only
  rw [if_neg (by decide), if_neg (by decide), if_pos rfl, if_pos hop, h]
  rfl

theorem mbxWrite_sel_idle (addr : Nat) (data : Word) (h : (s.mbx m).busy = false) :
    s.mbxWrite path m 0 addr v data = (s.mbxStart path m v, false) := by
  unfold State.mbxWrite
  rw [hown]
  dsimp only
  rw [if_neg (by decide), if_neg (by decide), if_pos rfl, if_pos hop, h]
  rfl

end

/-! ## The commands of the mailboxes -/

theorem exec_mailboxRead {s : State} {path m : Nat} {v : Word} (hm : m < 16) (hop : bitsOf v 30 2 = 1) :
    exec (.mailboxRead path m v) s = .next (s.mbxWrite path m 0 (mbxAddr m) v v).1 :=
  congrArg Host.Outcome.next (if_pos ⟨hop, hm⟩)

theorem exec_mailboxWrite {s : State} {path m : Nat} {v : Word} (hm : m < 16) (hop : bitsOf v 30 2 = 2) :
    exec (.mailboxWrite path m v) s = .next (s.mbxWrite path m 0 (mbxAddr m) v v).1 :=
  congrArg Host.Outcome.next (if_pos ⟨hop, hm⟩)

theorem exec_tickNowWrite {s : State} {path m : Nat} (hm : m < 16) :
    exec (.tickNowWrite path m) s = .next (s.mbxWrite path m 0 (mbxAddr m) 0x80000200 0x80000200).1 :=
  congrArg Host.Outcome.next (if_pos hm)

theorem exec_arrivalCounterWrite {s : State} {path m : Nat} (hm : m < 16) :
    exec (.arrivalCounterWrite path m) s = .next (s.mbxWrite path m 0 (mbxAddr m) 0x80000C10 0x80000C10).1 :=
  congrArg Host.Outcome.next (if_pos hm)

/-- TICK_NOW takes the low 64 bits while the generator is STOPPED (Table 2-8). -/
theorem wideWrite_tickNow {s : State} (w : Wide) (h : s.tick.sync = .stopped) :
    s.wideWrite 0x200 (keepBits w [(0, 64)]) = ({ s with tick := { s.tick with
      now := bitsOf w 0 64, closed := min s.tick.closed (bitsOf w 0 64) } }, none) := by
  have fits : bitsOf w 0 64 % 2 ^ 64 = bitsOf w 0 64 := Nat.mod_mod ..
  change setTickNow (bitsOf (keepBits w [(0, 64)]) 0 64) s = _
  rw [bitsOf_keepBits_low w (by decide) (by decide), setTickNow, if_pos h, fits]

/-- FAB_ARR_COUNTER sets the selected counter (R132). -/
theorem wideWrite_arrivalCounter (s : State) (w : Wide) :
    s.wideWrite 0xC10 (keepBits w [(0, 193)]) = (s.updateCounter (s.fld F.FAB_ARR_SEL_CTR) (fun x =>
      { x with value := bitsOf w 0 64, threshold := bitsOf w 64 64, notify := bitsOf w 128 64
               notifyEn := w.getLsbD 192 }), none) := by
  have notify : (keepBits w [(0, 193)]).getLsbD 192 = w.getLsbD 192 := getLsbD_keepBits_low w (by decide)
  rw [← bitsOf_keepBits_low w (len := 193) (lo := 0) (by decide) (by decide),
    ← bitsOf_keepBits_low w (len := 193) (lo := 64) (by decide) (by decide),
    ← bitsOf_keepBits_low w (len := 193) (lo := 128) (by decide) (by decide), ← notify]
  rfl

theorem exec_mailboxOpDone {s : State} {m : Nat} (h : (s.mbx m).busy = true) : exec (.mailboxOpDone m) s = .next (
    match (s.mbx m).result with
    | none => s.setMbx m { s.mbx m with busy := false, valid := true }
    | some (code, reason) =>
      let t := s.setMbx m { s.mbx m with busy := false, err := true, errCode := code, result := none }
      let id := bitsOf (s.mbx m).started 0 16
      if bitsOf (s.mbx m).started 30 2 = 2 then
        t.logReject (mbxBlock id) id (BitVec.ofNat 32 (bitsOf (s.mbx m).data 0 32)) reason (min m 11) true
      else t) :=
  congrArg Host.Outcome.next (if_neg (by rw [h]; exact Bool.false_ne_true))

theorem mbxRead_data {s : State} {m w : Nat} (hw : w < 8) : s.mbxRead m (8 + 4 * w) =
    if (s.mbx m).valid then (BitVec.ofNat 32 (bitsOf (s.mbx m).data (32 * w) 32), s)
    else (0, s.setMbx m { s.mbx m with err := true, errCode := MBX_ERR_NOT_VALID }) := by
  have word : (8 + 4 * w - 8) / 4 = w := by omega
  unfold State.mbxRead
  dsimp only
  rw [if_neg (by omega), if_neg (by omega), if_neg (by omega), word]

/-- Settles O12: a write of MBX_SEL by who makes it and whether the mailbox is busy, the operation by its ID. -/
theorem mailboxOperations : Obligations.MailboxOperations := by
  unfold Obligations.MailboxOperations
  refine ⟨?read, ?write, ?rejected, ?tickNow, ?counter, ?done, ?failed, ?data⟩
  case read =>
    intro s path m v hm hown hidle hop
    rw [exec_mailboxRead hm hop, mbxWrite_sel_idle hown (.inl hop) _ _ hidle, mbxStart_read path m hop]
    cases s.wideValue (bitsOf v 0 16) with
    | none => rfl
    | some w => rfl
  case write =>
    intro s t path m v l r hm hown hidle hop hknown hmay hl hw
    rw [exec_mailboxWrite hm hop, mbxWrite_sel_idle hown (.inr hop) _ _ hidle, mbxStart_write hop hknown hmay hl hw]
    rfl
  case rejected =>
    intro s path m v hm hop
    exact ⟨fun hown => (exec_mailboxWrite hm hop).trans
        (congrArg (fun x => Host.Outcome.next x.1) (mbxWrite_sel_foreign _ _ _ hown)),
      fun hown hbusy => (exec_mailboxWrite hm hop).trans
        (congrArg (fun x => Host.Outcome.next x.1) (mbxWrite_sel_busy hown (.inr hop) _ _ hbusy))⟩
  case tickNow =>
    intro s path m hm hown hidle hmay hstop
    rw [exec_tickNowWrite hm, mbxWrite_sel_idle hown (.inr (by decide)) _ _ hidle,
      mbxStart_write (l := [(0, 64)]) (by decide) rfl hmay rfl (wideWrite_tickNow _ hstop)]
    rfl
  case counter =>
    intro s path m hm hown hidle hmay
    rw [exec_arrivalCounterWrite hm, mbxWrite_sel_idle hown (.inr (by decide)) _ _ hidle,
      mbxStart_write (l := [(0, 193)]) (by decide) rfl hmay rfl (wideWrite_arrivalCounter ..)]
    rfl
  case done =>
    intro s m hbusy hres
    rw [exec_mailboxOpDone hbusy, hres]
  case failed =>
    intro s m code reason hbusy hres
    rw [exec_mailboxOpDone hbusy, hres]
    dsimp only
    split <;> rfl
  case data =>
    intro s path m w hm hw
    have read : exec (.mbxDataRead path m w) s =
        .next (match s.mbxRead m (8 + 4 * w) with | (v, t) => t.emit (.regData path v.toNat)) :=
      congrArg Host.Outcome.next (if_pos ⟨hm, hw⟩)
    have fits : (BitVec.ofNat 32 (bitsOf (s.mbx m).data (32 * w) 32)).toNat = bitsOf (s.mbx m).data (32 * w) 32 :=
      Nat.mod_mod ..
    rw [read, mbxRead_data hw]
    cases (s.mbx m).valid with
    | true => exact congrArg (fun x => Host.Outcome.next (s.emit (.regData path x))) fits
    | false => rfl

end Sys2Proof.Machine
end

section

namespace Sys2Proof.Machine

/-! ## Copies to the children (R155) -/

/-- A copy for child port `n`, where the port is up. -/
def State.copyTick (p : Packet) (s : State) (n : Nat) : State :=
  if (s.port n).up then s.emit (.packet (some n) p) else s

theorem copyTick_onlyOut (s : State) (p : Packet) (n : Nat) : s.copyTick p n = { s with out := (s.copyTick p n).out } := by
  unfold State.copyTick
  split <;> rfl

theorem foldl_copyTick_onlyOut (p : Packet) (l : List Nat) (s : State) : l.foldl (State.copyTick p) s =
    { s with out := (l.foldl (State.copyTick p) s).out } := by
  induction l generalizing s with
  | nil => rfl
  | cons n t ih =>
    rw [List.foldl_cons, ih, copyTick_onlyOut]

/-- What has been sent stays sent while more copies are made. -/
theorem mem_out_foldl_copyTick {p : Packet} {o : Out} {l : List Nat} {s : State} (h : o ∈ s.out) :
    o ∈ (l.foldl (State.copyTick p) s).out := by
  induction l generalizing s with
  | nil => exact h
  | cons n t ih =>
    refine ih ?_
    unfold State.copyTick
    split
    · exact List.mem_cons_of_mem _ h
    · exact h

theorem copy_mem_foldl_copyTick {p : Packet} {n : Nat} {l : List Nat} {s : State} (hn : n ∈ l) (hup : (s.port n).up = true) :
    Out.packet (some n) p ∈ (l.foldl (State.copyTick p) s).out := by
  induction l generalizing s with
  | nil => cases hn
  | cons k t ih =>
    rw [List.foldl_cons]
    rcases List.mem_cons.1 hn with rfl | hn
    · refine mem_out_foldl_copyTick ?_
      have sent : State.copyTick p s n = s.emit (.packet (some n) p) := if_pos hup
      rw [sent]
      exact List.mem_cons_self
    · refine ih hn ?_
      rw [copyTick_onlyOut]
      exact hup

theorem floodTick_eq (s : State) (p : Packet) :
    s.floodTick p = (maskBits (s.fld F.FAB_TICK_CHILD_CHILD) 32).foldl (State.copyTick p) s := rfl

theorem floodTick_onlyOut (s : State) (p : Packet) : s.floodTick p = { s with out := (s.floodTick p).out } := by
  rw [floodTick_eq, ← foldl_copyTick_onlyOut]

@[simp] theorem floodTick_tick (s : State) (p : Packet) : (s.floodTick p).tick = s.tick := by rw [floodTick_onlyOut]

@[simp] theorem fld_floodTick (s : State) (p : Packet) (f : Fld) : (s.floodTick p).fld f = s.fld f := by
  rw [floodTick_onlyOut]
  rfl

theorem floodTick_copies {s : State} {p : Packet} {n : Nat} (hn : n < 32)
    (hchild : (s.fld F.FAB_TICK_CHILD_CHILD).testBit n = true) (hup : (s.port n).up = true) :
    Out.packet (some n) p ∈ (s.floodTick p).out := by
  rw [floodTick_eq]
  exact copy_mem_foldl_copyTick (List.mem_filter.2 ⟨List.mem_range.2 hn, hchild⟩) hup

/-! ## TICK packets (R37, R40, R46) -/

/-- A generator whose source is FABRIC has heard a TICK packet. -/
def State.tickHeard (s : State) (p : Packet) : State :=
  { s with tick := { s.tick with lastPkt := some (p.tick, p.periodUs), sourceTick := p.tick - 1, pktSinceLost := true } }

theorem takeTickPacket_locked {s : State} {p : Packet} (hsync : s.tick.sync = .locked) (hrelock : s.tick.relock = false)
    (htick : p.tick ≠ s.tick.now + 1) (hnext : p.nextPeriodUs = 0) :
    s.takeTickPacket p = (s.tickHeard p).enterLost := by
  have loses : (!s.tick.relock && (p.tick != s.tick.now + 1 || p.periodUs != s.periodAt (s.tick.now + 1))) = true := by
    rw [hrelock, bne_iff_ne.2 htick]; rfl
  unfold State.takeTickPacket
  simp only [hsync, hnext, ne_eq, not_true_eq_false, false_and, if_false]
  exact if_pos loses

theorem takeTickPacket_locking {s : State} {p : Packet} (hsync : s.tick.sync = .locking) (hnext : p.nextPeriodUs = 0) :
    s.takeTickPacket p = if p.periodUs = s.period then s.tickHeard p
      else State.dropPendingPlans { s.tickHeard p with tick := { (s.tickHeard p).tick with takePeriod := some p.periodUs } }
        (s.tick.now + 1) p.periodUs := by
  unfold State.takeTickPacket
  simp only [hsync, hnext, ne_eq, not_true_eq_false, false_and, if_false]
  rw [← hsync]
  exact ite_not (p.periodUs = s.period) _ _

/-- A TICK packet of the parent port. -/
theorem exec_tick_parent {s : State} {port : Nat} {p : Packet} (ht : p.type = T_TICK)
    (hvalid : s.fld F.FAB_TICK_TREE_PARENT_VALID = 1) (hport : s.fld F.FAB_TICK_TREE_PARENT = port) :
    exec (.tick port p) s = .next ((p.epochAnn.take 8).foldl State.announceEpoch
      (if s.tickSrc = 1 then (s.floodTick p).takeTickPacket p else s.floodTick p)) := by
  have source : (s.floodTick p).tickSrc = s.tickSrc := fld_floodTick ..
  change Host.Outcome.next (if p.type = T_TICK then s.recvTick port p else s) = _
  rw [if_pos ht, State.recvTick, if_pos ⟨hvalid, hport⟩]
  dsimp only
  rw [source]

/-- One that announces no epoch, to a generator whose source is FABRIC. -/
theorem exec_tick_fabric {s : State} {port : Nat} {p : Packet} (ht : p.type = T_TICK)
    (hvalid : s.fld F.FAB_TICK_TREE_PARENT_VALID = 1) (hport : s.fld F.FAB_TICK_TREE_PARENT = port) (hsrc : s.tickSrc = 1)
    (hann : p.epochAnn = []) : exec (.tick port p) s = .next ((s.floodTick p).takeTickPacket p) := by
  rw [exec_tick_parent ht hvalid hport, if_pos hsrc, hann]
  rfl

theorem tickHeard_floodTick (s : State) (p : Packet) : (s.floodTick p).tickHeard p = { s.floodTick p with
    tick := { s.tick with lastPkt := some (p.tick, p.periodUs), sourceTick := p.tick - 1, pktSinceLost := true } } := by
  rw [State.tickHeard, floodTick_tick]

theorem exec_tick_other {s : State} {port : Nat} {p : Packet} (ht : p.type = T_TICK)
    (h : ¬(s.fld F.FAB_TICK_TREE_PARENT_VALID = 1 ∧ s.fld F.FAB_TICK_TREE_PARENT = port)) :
    exec (.tick port p) s = .next { s with tick := { s.tick with pktDiscarded := s.tick.pktDiscarded + 1 } } :=
  congrArg Host.Outcome.next ((if_pos ht).trans (if_neg h))

/-! ## Announced epochs (R130) -/

theorem announceEpoch_now {s : State} {dev e low : Nat} (he : (s.epochOf dev).accepted ≠ e)
    (ht : nearestTick low s.tick.now ≤ s.tick.now) : s.announceEpoch (dev, e, low) = s.advanceEpoch dev e :=
  (if_neg he).trans (if_pos ht)

theorem announceEpoch_later {s : State} {dev e low : Nat} (he : (s.epochOf dev).accepted ≠ e)
    (ht : s.tick.now < nearestTick low s.tick.now) : s.announceEpoch (dev, e, low) =
      s.setEpoch dev { s.epochOf dev with announced := e, pendingTick := some (nearestTick low s.tick.now) } :=
  (if_neg he).trans (if_neg (Nat.not_le.2 ht))

theorem epochOf_setEvt (s : State) (f : Fld) (dev : Nat) : (s.setEvt f).epochOf dev = s.epochOf dev := by
  rw [setEvt_onlyRegs]
  rfl

theorem epochOf_advanceEpoch (s : State) (dev e : Nat) :
    (s.advanceEpoch dev e).epochOf dev = { s.epochOf dev with accepted := e, pendingTick := none } := by
  rw [State.advanceEpoch, epochOf_setEvt, State.epochOf_setEpoch, if_pos rfl]

/-- Settles O14: a TICK packet by its port, the source and the generator's state; an epoch by whether its tick has come. -/
theorem tickPackets : Obligations.TickPackets := by
  unfold Obligations.TickPackets
  refine ⟨fun s port p ht h => exec_tick_other ht h, ?source, ?locked, ?locking,
    fun s p => ⟨floodTick_onlyOut s p, fun n hn hchild hup => floodTick_copies hn hchild hup⟩,
    fun s dev e low he => ⟨fun ht => ?advances, fun ht => announceEpoch_later he ht⟩⟩
  case source =>
    intro s port p ht hvalid hport hsrc
    rw [exec_tick_parent ht hvalid hport, if_neg hsrc]
  case locked =>
    intro s port p ht hvalid hport hsrc hsync hrelock htick hnext hann
    rw [exec_tick_fabric ht hvalid hport hsrc hann,
      takeTickPacket_locked (by rwa [floodTick_tick]) (by rwa [floodTick_tick]) (by rwa [floodTick_tick]) hnext,
      tickHeard_floodTick]
  case locking =>
    intro s port p ht hvalid hport hsrc hsync hnext hann
    have period : (s.floodTick p).period = s.period := fld_floodTick ..
    rw [exec_tick_fabric ht hvalid hport hsrc hann, takeTickPacket_locking (by rwa [floodTick_tick]) hnext,
      tickHeard_floodTick, period, floodTick_tick]
    split <;> rfl
  case advances =>
    rw [announceEpoch_now he ht, epochOf_advanceEpoch]
    exact ⟨rfl, rfl, fld_setEvt_self _ _ (by decide) (by decide)⟩

end Sys2Proof.Machine
end

section

namespace Sys2Proof.Machine

/-! ## PLAN_LOAD (R49) -/

theorem planFails_period {s : State} {l : List Byte} {len n start : Nat} {q : Plan} (hq : parsePlan l len n start = some q)
    (hp : q.periodUs ≠ s.periodAt start) : s.planFails l len n start = some PLAN_PERIOD := by
  rw [State.planFails, hq]
  exact if_pos hp

theorem planFails_start {s : State} {l : List Byte} {len n start : Nat} {q : Plan} (hq : parsePlan l len n start = some q)
    (hp : q.periodUs = s.periodAt start) (hstart : start < s.tick.now + 2) :
    s.planFails l len n start = some PLAN_START := by
  rw [State.planFails, hq]
  exact (if_neg (not_not_intro hp)).trans (if_pos hstart)

/-- A PLAN_LOAD whose structure is there, by what is read of it and what refuses it. -/
theorem exec_planLoad {s s1 s2 : State} {tok : Nat} {d : Desc} {segs : List (List Seg)} {ext l rest : List Byte} {poison : Bool}
    (h : s.granted tok 0xF0 d [⟨dfield d.bits 16 8, dfield d.bits 24 4, 1, false⟩] s1 segs)
    (hl : State.readSegs d (segs.headD []) ext (s1.begun tok d) = (s2, l, poison, rest)) :
    exec (.planLoad tok ext) s =
      if poison then .next (s2.opEnd tok (cpl ST_POISONED PLAN_POISON))
      else match s2.planFails l (dfield d.bits 24 4) (dSlice d.bits) (dfield d.bits 32 8) with
        | some r => .next (s2.opEnd tok (cpl ST_REFUSED_FIT r))
        | none => .next ((s2.setPlans (dSlice d.bits) { s2.slicePlans (dSlice d.bits) with
            pending := parsePlan l (dfield d.bits 24 4) (dSlice d.bits) (dfield d.bits 32 8)
            loads := ((s2.slicePlans (dSlice d.bits)).loads + 1) % 2 ^ 32 }).opEnd tok
          { result := dSlice d.bits + at_ 8 (((s2.slicePlans (dSlice d.bits)).loads + 1) % 2 ^ 32) }) := by
  change execPlanLoad tok ext s = _
  rw [execPlanLoad, runMem_granted _ _ _ h rfl]
  dsimp only
  rw [hl]
  cases poison with
  | true => rfl
  | false =>
    simp only [Bool.false_eq_true, if_false]
    cases s2.planFails l (dfield d.bits 24 4) (dSlice d.bits) (dfield d.bits 32 8) with
    | none => rfl
    | some r => rfl

/-! ## PLAN_UNLOAD (R50) -/

theorem exec_planUnload {s : State} {tok : Nat} {d : Desc} (h : s.ready tok 0xF1 d) :
    exec (.planUnload tok) s = match (s.slicePlans (dSlice d.bits)).pending, (s.slicePlans (dSlice d.bits)).active,
        (s.slicePlans (dSlice d.bits)).stopAt with
      | some _, _, _ => .next (((s.begun tok d).setPlans (dSlice d.bits)
          { s.slicePlans (dSlice d.bits) with pending := none }).opEnd tok {})
      | none, none, _ => .next ((s.begun tok d).opEnd tok (cpl ST_ALREADY_DONE NO_PLAN))
      | none, some _, none => .next (((s.begun tok d).setPlans (dSlice d.bits)
          { s.slicePlans (dSlice d.bits) with stopAt := some (s.tick.now + 2) }).opEnd tok {})
      | none, some _, some _ => .next ((s.begun tok d).opEnd tok (cpl ST_ALREADY_DONE 0)) := by
  have plans : (s.begun tok d).slicePlans (dSlice d.bits) = s.slicePlans (dSlice d.bits) := rfl
  change execPlanUnload tok s = _
  rw [execPlanUnload, runDesc_ready _ h]
  dsimp only
  rw [plans]
  cases (s.slicePlans (dSlice d.bits)).pending with
  | some q => rfl
  | none =>
    cases (s.slicePlans (dSlice d.bits)).active with
    | none => rfl
    | some a =>
      cases (s.slicePlans (dSlice d.bits)).stopAt with
      | none => rfl
      | some b => rfl

/-- Settles O15: a load by what is read and what fails, an unload by the plans the slice has. -/
theorem planDescriptors : Obligations.PlanDescriptors := by
  unfold Obligations.PlanDescriptors
  exact ⟨fun s s1 s2 tok d segs ext l rest poison h hl => exec_planLoad h hl,
    fun s l len n start q hq => ⟨planFails_period hq, planFails_start hq⟩, fun s tok d h => exec_planUnload h⟩

end Sys2Proof.Machine
end

section

namespace Sys2Proof.Machine

/-! ## The arrival of a descriptor (R504) -/

/-- The descriptor as it arrives. -/
def State.arriving (s : State) (src : Src) (bits : DescBits) : Desc :=
  { bits := bits, src := src, index := s.rings.arrivals.get 0 src.code, arrived := s.tick.now, phase := .waiting
    requested := s.requestedTick (dTarget bits) }

/-- The next token and the source's next number are taken. -/
def State.numbered (s : State) (src : Src) : State :=
  { s with rings := { s.rings with
      nextTok := s.rings.nextTok + 1
      arrivals := s.rings.arrivals.put src.code (s.rings.arrivals.get 0 src.code + 1) } }

/-- The descriptor as a candidate: charged, its critical path known (R53). -/
def State.charged (s : State) (d : Desc) : Desc := s.withPath { d with cost := opCost d s }

theorem arrive_eq (s : State) (src : Src) (bits : DescBits) : s.arrive src bits =
    match (s.numbered src).arrivalCheck (s.arriving src bits) with
    | some c => (s.numbered src).setDesc s.rings.nextTok ((s.arriving src bits).endNow s.tick.now c)
    | none =>
      if opKind (dOpcode bits) = some .t then
        match (s.numbered src).admissionCheck ((s.numbered src).charged (s.arriving src bits)) with
        | some (st, r) =>
          ((s.numbered src).setDesc s.rings.nextTok
              (((s.numbered src).charged (s.arriving src bits)).endNow s.tick.now (cpl st r))).stats (dSlice bits)
            (fun x => { x with refused := x.refused + 1 })
        | none => (s.numbered src).setDesc s.rings.nextTok ((s.numbered src).charged (s.arriving src bits))
      else (s.numbered src).setDesc s.rings.nextTok (s.arriving src bits) := rfl

/-- Settles O39: an arrival by the check of Table 16-2, the opcode's kind and the check of admission. -/
theorem descriptorArrival : Obligations.DescriptorArrival := by
  unfold Obligations.DescriptorArrival
  rintro s u src bits d hd hu
  obtain rfl : d = s.arriving src bits := hd
  obtain rfl : u = s.numbered src := hu
  refine ⟨fun c hc => ?checked, fun hnone hkind => ?other, ?refused, ?candidate⟩
  case checked => rw [arrive_eq, hc]; rfl
  case other => rw [arrive_eq, hnone]; exact if_neg hkind
  case refused =>
    intro x st r hnone hkind hx hr
    obtain rfl : x = (s.numbered src).charged (s.arriving src bits) := hx
    rw [arrive_eq, hnone]
    dsimp only
    rw [if_pos hkind, hr]
  case candidate =>
    intro x hnone hkind hx hr
    obtain rfl : x = (s.numbered src).charged (s.arriving src bits) := hx
    rw [arrive_eq, hnone]
    dsimp only
    rw [if_pos hkind, hr]

end Sys2Proof.Machine
end

section

namespace Sys2Proof.Machine

/-! ## Arrival counters (R113, R115) -/

section
variable {s : State} {n : Nat} {f : Counter → Counter} {c : Counter} (hc : c = f (s.counter n))
include hc

theorem updateCounter_eq : s.updateCounter n f =
    if c.armed && c.notifyEn && decide (c.threshold ≤ c.value) then (s.setCounter n { c with armed := false }).sendNotify n
    else s.setCounter n { c with armed := c.armed || decide (c.value < c.threshold) } := by
  subst hc
  rfl

theorem updateCounter_notifies (harmed : c.armed = true) (hen : c.notifyEn = true) (hv : c.threshold ≤ c.value) :
    s.updateCounter n f = (s.setCounter n { c with armed := false }).sendNotify n := by
  rw [updateCounter_eq hc, harmed, hen, decide_eq_true hv]
  rfl

theorem updateCounter_arms (hv : c.value < c.threshold) :
    s.updateCounter n f = s.setCounter n { c with armed := true } := by
  rw [updateCounter_eq hc, decide_eq_false (Nat.not_le.2 hv), decide_eq_true hv, Bool.and_false, Bool.or_true,
    if_neg Bool.false_ne_true]

/-- A counter at its threshold that is not to notify: its armed bit stays. -/
theorem updateCounter_quiet (hv : c.threshold ≤ c.value) (h : c.armed = false ∨ c.notifyEn = false) :
    s.updateCounter n f = s.setCounter n c := by
  have quiet : (c.armed && c.notifyEn) = false := Bool.and_eq_false_iff.2 h
  rw [updateCounter_eq hc, quiet, decide_eq_false (Nat.not_lt.2 hv), Bool.or_false]
  rfl

end

/-- Setting an event bit changes the word that holds it alone. -/
theorem word_setEvt_other (s : State) (f : Fld) {o : Nat} (h : o ≠ f.off) : (s.setEvt f).word o = s.word o := by
  rw [word_setEvt, State.setFld, State.word_setWord, if_neg h]

/-- Settles O60: a counter by its threshold and whether it is to notify; an event bit and a finished descriptor by their
own laws. -/
theorem countersAndEvents : Obligations.CountersAndEvents := by
  unfold Obligations.CountersAndEvents
  refine ⟨fun s n f c hc => ⟨updateCounter_notifies hc, updateCounter_arms hc, updateCounter_quiet hc⟩, fun s n k => rfl,
    fun s f hfit hlen => ⟨setEvt_onlyRegs s f, fld_setEvt_self s f hfit hlen, fun o ho => word_setEvt_other s f ho⟩, ?finished⟩
  intro s tok d c hd
  obtain ⟨e, he, hphase, hstatus, hdone, hdropped, hresult, hreason, hbits, hsrc⟩ := finish_desc (c := c) hd
  exact ⟨⟨e, he, hphase, hbits, hsrc, hstatus, hdone, hdropped, hresult, hreason⟩, fun k hk => finish_other c hk⟩

end Sys2Proof.Machine
end

section

namespace Sys2Proof.Machine

/-! ## What a step keeps -/

/-- Every command keeps the memory's canonical form, the queue and the bound of the fault records. -/
theorem kept_exec (c : Instr) (s : State) : KeptO s (exec c s) :=
  match c with
  | .tickBoundary env => kept_execTickBoundary env (.refl s)
  | .pgBuildBlock ext src bad => kept_execPgBuildBlock ext src bad (.refl s)
  | .substituteBoundary env => kept_execSubstituteBoundary env (.refl s)
  | .admissionRound maint => kept_execAdmissionRound maint (.refl s)
  | .tickInEdge ns highNs => kept_execTickInEdge ns highNs (.refl s)
  | .tickInEdgeMissing ns => kept_execTickInEdgeMissing ns (.refl s)
  | .ptpMessage offsetNs => kept_execPtpMessage offsetNs (.refl s)
  | .ptpMessageLoss => kept_execPtpMessageLoss (.refl s)
  | .holdoverLimit elapsedNs => kept_execHoldoverLimit elapsedNs (.refl s)
  | .tickRunStart path value cycle => kept_execTickRunStart path value cycle (.refl s)
  | .tickRunStop path value cycle => kept_execTickRunStop path value cycle (.refl s)
  | .tickSrcChange path value cycle => kept_execTickSrcChange path value cycle (.refl s)
  | .tikPeriodWrite path value cycle => kept_execTikPeriodWrite path value cycle (.refl s)
  | .tikLullWrite path value cycle => kept_execTikLullWrite path value cycle (.refl s)
  | .tikLeadWrite path value cycle => kept_execTikLeadWrite path value cycle (.refl s)
  | .tickNowWrite path m => kept_execTickNowWrite path m (.refl s)
  | .planLoad tok ext => kept_execPlanLoad tok ext (.refl s)
  | .planUnload tok => kept_execPlanUnload tok (.refl s)
  | .fabDevidWrite path value cycle => kept_execFabDevidWrite path value cycle (.refl s)
  | .windowCommitApplyWrite path value cycle => kept_execWindowCommitApplyWrite path value cycle (.refl s)
  | .windowCommitDiscard path value cycle => kept_execWindowCommitDiscard path value cycle (.refl s)
  | .windowDrainComplete => kept_execWindowDrainComplete (.refl s)
  | .arrivalCounterWrite path m => kept_execArrivalCounterWrite path m (.refl s)
  | .flagTimeout src seq => kept_execFlagTimeout src seq (.refl s)
  | .linkFrame port frame => kept_execLinkFrame port frame (.refl s)
  | .portEnable path value cycle => kept_execPortEnable path value cycle (.refl s)
  | .portDisable path value cycle => kept_execPortDisable path value cycle (.refl s)
  | .portRetrain path value cycle => kept_execPortRetrain path value cycle (.refl s)
  | .portSignalDetect port lanes => kept_execPortSignalDetect port lanes (.refl s)
  | .portEqualisationDone port lanes => kept_execPortEqualisationDone port lanes (.refl s)
  | .portAlignDone port good => kept_execPortAlignDone port good (.refl s)
  | .laneFault port => kept_execLaneFault port (.refl s)
  | .portBringupTimeout port => kept_execPortBringupTimeout port (.refl s)
  | .portRetrainTimeout port => kept_execPortRetrainTimeout port (.refl s)
  | .escapeTimeout k => kept_execEscapeTimeout k (.refl s)
  | .neighbourTimer port => kept_execNeighbourTimer port (.refl s)
  | .load port pkt => kept_execLoad port pkt (.refl s)
  | .store port pkt => kept_execStore port pkt (.refl s)
  | .flaggedStore port pkt => kept_execFlaggedStore port pkt (.refl s)
  | .bulkGet port pkt => kept_execBulkGet port pkt (.refl s)
  | .bulkPut port pkt => kept_execBulkPut port pkt (.refl s)
  | .atomic port pkt => kept_execAtomic port pkt (.refl s)
  | .accAdd port pkt => kept_execAccAdd port pkt (.refl s)
  | .accRead port pkt => kept_execAccRead port pkt (.refl s)
  | .submit port pkt => kept_execSubmit port pkt (.refl s)
  | .ownClaim port pkt => kept_execOwnClaim port pkt (.refl s)
  | .ownHandoff port pkt => kept_execOwnHandoff port pkt (.refl s)
  | .ownRelease port pkt => kept_execOwnRelease port pkt (.refl s)
  | .seqSync port pkt => kept_execSeqSync port pkt (.refl s)
  | .mcPut port pkt => kept_execMcPut port pkt (.refl s)
  | .readData port pkt => kept_execReadData port pkt (.refl s)
  | .bulkData port pkt => kept_execBulkData port pkt (.refl s)
  | .ack port pkt => kept_execAck port pkt (.refl s)
  | .tick port pkt => kept_execTick port pkt (.refl s)
  | .neighbour port pkt => kept_execNeighbour port pkt (.refl s)
  | .requestTimeout tag => kept_execRequestTimeout tag (.refl s)
  | .join path value cycle => kept_execJoin path value cycle (.refl s)
  | .leave path value cycle => kept_execLeave path value cycle (.refl s)
  | .fabOwnEntryWrite path value cycle => kept_execFabOwnEntryWrite path value cycle (.refl s)
  | .threadSwitchNormal path value cycle => kept_execThreadSwitchNormal path value cycle (.refl s)
  | .fabVcCfgWrite path vc value cycle => kept_execFabVcCfgWrite path vc value cycle (.refl s)
  | .memRd port dec off m => kept_execMemRd port dec off m (.refl s)
  | .memRdData port dec off => kept_execMemRdData port dec off (.refl s)
  | .memInv port dec off => kept_execMemInv port dec off (.refl s)
  | .memInvNt port dec off => kept_execMemInvNt port dec off (.refl s)
  | .memClnEvct port dec off => kept_execMemClnEvct port dec off (.refl s)
  | .memWr port dec off m data => kept_execMemWr port dec off m data (.refl s)
  | .memWrPtl port dec off m data mask => kept_execMemWrPtl port dec off m data mask (.refl s)
  | .memRdFwd port dec off m => kept_execMemRdFwd port dec off m (.refl s)
  | .memWrFwd port dec off m data => kept_execMemWrFwd port dec off m data (.refl s)
  | .memSpecRd port dec off => kept_execMemSpecRd port dec off (.refl s)
  | .biRspI port line held => kept_execBiRspI port line held (.refl s)
  | .biRspS port line => kept_execBiRspS port line (.refl s)
  | .biRspE port line => kept_execBiRspE port line (.refl s)
  | .biConflict port line => kept_execBiConflict port line (.refl s)
  | .minHoldExpiry line => kept_execMinHoldExpiry line (.refl s)
  | .biTimeout port line => kept_execBiTimeout port line (.refl s)
  | .domainWalkDone => kept_execDomainWalkDone (.refl s)
  | .dirDomainReset path value cycle => kept_execDirDomainReset path value cycle (.refl s)
  | .hifExtEntryWrite path value cycle => kept_execHifExtEntryWrite path value cycle (.refl s)
  | .revocationComplete ext => kept_execRevocationComplete ext (.refl s)
  | .hifLayoutWrite path value cycle => kept_execHifLayoutWrite path value cycle (.refl s)
  | .hifPortCfgWrite path value cycle => kept_execHifPortCfgWrite path value cycle (.refl s)
  | .hdmDecoderCommit port dec base sizeGib => kept_execHdmDecoderCommit port dec base sizeGib (.refl s)
  | .hifShrCommit path value cycle => kept_execHifShrCommit path value cycle (.refl s)
  | .cowCopyDone range granule => kept_execCowCopyDone range granule (.refl s)
  | .bar4Access port off len write data => kept_execBar4Access port off len write data (.refl s)
  | .hostLinkChange port rate width => kept_execHostLinkChange port rate width (.refl s)
  | .identify port => kept_execIdentify port (.refl s)
  | .getPartitionInfo port => kept_execGetPartitionInfo port (.refl s)
  | .getEventRecords port => kept_execGetEventRecords port (.refl s)
  | .clearEventRecords port => kept_execClearEventRecords port (.refl s)
  | .getPoisonList port => kept_execGetPoisonList port (.refl s)
  | .cdatRead port => kept_execCdatRead port (.refl s)
  | .snapOpen tok => kept_execSnapOpen tok (.refl s)
  | .snapClose tok => kept_execSnapClose tok (.refl s)
  | .snapPublish tok => kept_execSnapPublish tok (.refl s)
  | .snapDiscard tok => kept_execSnapDiscard tok (.refl s)
  | .xltCtxCommit path value cycle => kept_execXltCtxCommit path value cycle (.refl s)
  | .tlbMiss tok va access => kept_execTlbMiss tok va access (.refl s)
  | .walkDone ctx va host => kept_execWalkDone ctx va host (.refl s)
  | .missTimeout req => kept_execMissTimeout req (.refl s)
  | .migrationStart ctx va host leaf => kept_execMigrationStart ctx va host leaf (.refl s)
  | .migrationCopyDone ctx va data leaf => kept_execMigrationCopyDone ctx va data leaf (.refl s)
  | .migrationTimeout ctx va => kept_execMigrationTimeout ctx va (.refl s)
  | .invalidate tok => kept_execInvalidate tok (.refl s)
  | .invalidateComplete tok => kept_execInvalidateComplete tok (.refl s)
  | .prefetch tok host ext => kept_execPrefetch tok host ext (.refl s)
  | .advise tok host => kept_execAdvise tok host (.refl s)
  | .xltFill tok => kept_execXltFill tok (.refl s)
  | .xltSetRoot tok => kept_execXltSetRoot tok (.refl s)
  | .tirSplitWrite path value cycle => kept_execTirSplitWrite path value cycle (.refl s)
  | .tierPromotion => kept_execTierPromotion (.refl s)
  | .tierPartCopyDone granule part => kept_execTierPartCopyDone granule part (.refl s)
  | .tierPromote tok => kept_execTierPromote tok (.refl s)
  | .tierDemote tok => kept_execTierDemote tok (.refl s)
  | .tierPin tok => kept_execTierPin tok (.refl s)
  | .tierUnpin tok => kept_execTierUnpin tok (.refl s)
  | .fetchDeadline => kept_execFetchDeadline (.refl s)
  | .cdcProfile tok ext => kept_execCdcProfile tok ext (.refl s)
  | .cdcEncode tok ext => kept_execCdcEncode tok ext (.refl s)
  | .cdcDecode tok => kept_execCdcDecode tok (.refl s)
  | .cdcSend tok => kept_execCdcSend tok (.refl s)
  | .cdcAdopt tok => kept_execCdcAdopt tok (.refl s)
  | .cdcTableLoad tok ext => kept_execCdcTableLoad tok ext (.refl s)
  | .cdcTableFree tok => kept_execCdcTableFree tok (.refl s)
  | .cdcTableRead tok => kept_execCdcTableRead tok (.refl s)
  | .tpLoad tok ext => kept_execTpLoad tok ext (.refl s)
  | .tpRun tok => kept_execTpRun tok (.refl s)
  | .tpUnload tok => kept_execTpUnload tok (.refl s)
  | .unloadDrainComplete tok => kept_execUnloadDrainComplete tok (.refl s)
  | .tblLoad tok ext => kept_execTblLoad tok ext (.refl s)
  | .tblUnload tok => kept_execTblUnload tok (.refl s)
  | .lookup tok ext => kept_execLookup tok ext (.refl s)
  | .tablePublish tok ext => kept_execTablePublish tok ext (.refl s)
  | .rcAdmit tok ext => kept_execRcAdmit tok ext (.refl s)
  | .embPrivEntryWrite path value cycle => kept_execEmbPrivEntryWrite path value cycle (.refl s)
  | .scatterGrad tok ext => kept_execScatterGrad tok ext (.refl s)
  | .updStart tok ext => kept_execUpdStart tok ext (.refl s)
  | .updStop tok => kept_execUpdStop tok (.refl s)
  | .idxLoad tok ext => kept_execIdxLoad tok ext (.refl s)
  | .idxUnload tok => kept_execIdxUnload tok (.refl s)
  | .leafWrite tok ext => kept_execLeafWrite tok ext (.refl s)
  | .idxActivate tok => kept_execIdxActivate tok (.refl s)
  | .srhQuery tok ext => kept_execSrhQuery tok ext (.refl s)
  | .srhInsert tok ext => kept_execSrhInsert tok ext (.refl s)
  | .srhDelete tok ext => kept_execSrhDelete tok ext (.refl s)
  | .srhMerge tok => kept_execSrhMerge tok (.refl s)
  | .srhReduce tok ext => kept_execSrhReduce tok ext (.refl s)
  | .flashPageReadDone fpa lost => kept_execFlashPageReadDone fpa lost (.refl s)
  | .flashPageProgramDone fpa ok => kept_execFlashPageProgramDone fpa ok (.refl s)
  | .flashPageMove fpa => kept_execFlashPageMove fpa (.refl s)
  | .flashChannelFailure channel scorer => kept_execFlashChannelFailure channel scorer (.refl s)
  | .kvPoolCreate tok ext => kept_execKvPoolCreate tok ext (.refl s)
  | .kvPoolDestroy tok => kept_execKvPoolDestroy tok (.refl s)
  | .kvSeqCreate tok => kept_execKvSeqCreate tok (.refl s)
  | .kvAppend tok => kept_execKvAppend tok (.refl s)
  | .kvCommit tok lost journal => kept_execKvCommit tok lost journal (.refl s)
  | .kvRead tok => kept_execKvRead tok (.refl s)
  | .kvAttend tok => kept_execKvAttend tok (.refl s)
  | .kvFork tok => kept_execKvFork tok (.refl s)
  | .kvFree tok => kept_execKvFree tok (.refl s)
  | .kvMove tok => kept_execKvMove tok (.refl s)
  | .kvResync tok => kept_execKvResync tok (.refl s)
  | .kvGrant tok ext => kept_execKvGrant tok ext (.refl s)
  | .qCreate tok => kept_execQCreate tok (.refl s)
  | .qDestroy tok => kept_execQDestroy tok (.refl s)
  | .qPush tok ext => kept_execQPush tok ext (.refl s)
  | .queueItemCommit tok => kept_execQueueItemCommit tok (.refl s)
  | .qPop tok => kept_execQPop tok (.refl s)
  | .qFlush tok => kept_execQFlush tok (.refl s)
  | .qMark tok => kept_execQMark tok (.refl s)
  | .qRewind tok => kept_execQRewind tok (.refl s)
  | .qRelease tok => kept_execQRelease tok (.refl s)
  | .sqTailDoorbell port pair value => kept_execSqTailDoorbell port pair value (.refl s)
  | .cqHeadDoorbell port pair value => kept_execCqHeadDoorbell port pair value (.refl s)
  | .descriptorFetchDone pair ok bits => kept_execDescriptorFetchDone pair ok bits (.refl s)
  | .nop tok => kept_execNop tok (.refl s)
  | .abort tok => kept_execAbort tok (.refl s)
  | .fence tok => kept_execFence tok (.refl s)
  | .fenceComplete tok => kept_execFenceComplete tok (.refl s)
  | .waitCounter tok => kept_execWaitCounter tok (.refl s)
  | .setFlag tok => kept_execSetFlag tok (.refl s)
  | .counterSet tok => kept_execCounterSet tok (.refl s)
  | .copy tok ext => kept_execCopy tok ext (.refl s)
  | .fill tok ext => kept_execFill tok ext (.refl s)
  | .admitWeights tok => kept_execAdmitWeights tok (.refl s)
  | .workItemDone tok cluster attempt ok unit ext => kept_execWorkItemDone tok cluster attempt ok unit ext (.refl s)
  | .unitFailure tok loc => kept_execUnitFailure tok loc (.refl s)
  | .descriptorComplete tok ok => kept_execDescriptorComplete tok ok (.refl s)
  | .msixModerationTimer pair => kept_execMsixModerationTimer pair (.refl s)
  | .ringEnable path value cycle => kept_execRingEnable path value cycle (.refl s)
  | .ringDisable path value cycle => kept_execRingDisable path value cycle (.refl s)
  | .subqEnable path value cycle => kept_execSubqEnable path value cycle (.refl s)
  | .subqDisable path value cycle => kept_execSubqDisable path value cycle (.refl s)
  | .hifFnModeWrite path value cycle => kept_execHifFnModeWrite path value cycle (.refl s)
  | .registerWrite path addr len data cycle => kept_execRegisterWrite path addr len data cycle (.refl s)
  | .bitAliasWrite path addr data cycle => kept_execBitAliasWrite path addr data cycle (.refl s)
  | .guardArm path off value cycle => kept_execGuardArm path off value cycle (.refl s)
  | .guardTimeout path cycle => kept_execGuardTimeout path cycle (.refl s)
  | .mailboxRead path m value => kept_execMailboxRead path m value (.refl s)
  | .mailboxWrite path m value => kept_execMailboxWrite path m value (.refl s)
  | .mailboxOpDone m => kept_execMailboxOpDone m (.refl s)
  | .mbxDataRead path m w => kept_execMbxDataRead path m w (.refl s)
  | .idnFnReset path value cycle => kept_execIdnFnReset path value cycle (.refl s)
  | .fnResetDone port => kept_execFnResetDone port (.refl s)
  | .pwrCapWrite path value cycle => kept_execPwrCapWrite path value cycle (.refl s)
  | .pwrThermWrite path value cycle => kept_execPwrThermWrite path value cycle (.refl s)
  | .pwrIslandReqWrite path value cycle => kept_execPwrIslandReqWrite path value cycle (.refl s)
  | .powerSampleTimer env => kept_execPowerSampleTimer env (.refl s)
  | .patrolScrub channel ns found => kept_execPatrolScrub channel ns found (.refl s)
  | .stackHot stack tempC => kept_execStackHot stack tempC (.refl s)
  | .slotActivate tok ext => kept_execSlotActivate tok ext (.refl s)
  | .slotRetire path value cycle => kept_execSlotRetire path value cycle (.refl s)
  | .zeroisationDone slot => kept_execZeroisationDone slot (.refl s)
  | .otpProgram path value cycle => kept_execOtpProgram path value cycle (.refl s)
  | .otpProgramDone => kept_execOtpProgramDone (.refl s)
  | .bounceIn tok ext => kept_execBounceIn tok ext (.refl s)
  | .bounceOut tok => kept_execBounceOut tok (.refl s)
  | .bypass tdi count => kept_execBypass tdi count (.refl s)
  | .samplePreload cells count => kept_execSamplePreload cells count (.refl s)
  | .extest cells count => kept_execExtest cells count (.refl s)
  | .idcode => kept_execIdcode (.refl s)
  | .debugInstruction code tdi count => kept_execDebugInstruction code tdi count (.refl s)
  | .getVersion via => kept_execGetVersion via (.refl s)
  | .getCapabilities via => kept_execGetCapabilities via (.refl s)
  | .negotiateAlgorithms via => kept_execNegotiateAlgorithms via (.refl s)
  | .getDigests via => kept_execGetDigests via (.refl s)
  | .getCertificate via slot offset length => kept_execGetCertificate via slot offset length (.refl s)
  | .challenge via slot nonce => kept_execChallenge via slot nonce (.refl s)
  | .getMeasurements via block nonce => kept_execGetMeasurements via block nonce (.refl s)
  | .keyExchange via slot authentic leaf rooted => kept_execKeyExchange via slot authentic leaf rooted (.refl s)
  | .finish via session verified => kept_execFinish via session verified (.refl s)
  | .heartbeat via session => kept_execHeartbeat via session (.refl s)
  | .keyUpdate via session => kept_execKeyUpdate via session (.refl s)
  | .endSession via session => kept_execEndSession via session (.refl s)
  | .chunkSend via data last => kept_execChunkSend via data last (.refl s)
  | .chunkGet via => kept_execChunkGet via (.refl s)
  | .modelKeySet via session payload => kept_execModelKeySet via session payload (.refl s)
  | .modelKeyDrop via session payload => kept_execModelKeyDrop via session payload (.refl s)
  | .flashKeySet via session payload => kept_execFlashKeySet via session payload (.refl s)
  | .confEnable via session payload => kept_execConfEnable via session payload (.refl s)
  | .unitTestDone loc passed => kept_execUnitTestDone loc passed (.refl s)
  | .lockstepMismatch pair => kept_execLockstepMismatch pair (.refl s)
  | .engineWatchdog tok loc => kept_execEngineWatchdog tok loc (.refl s)
  | .configurationScrub table index corrected => kept_execConfigurationScrub table index corrected (.refl s)
  | .clockDeviation die => kept_execClockDeviation die (.refl s)
  | .dieLoss die => kept_execDieLoss die (.refl s)
  | .rasPop path value cycle => kept_execRasPop path value cycle (.refl s)
  | .pgCommit path value cycle => kept_execPgCommit path value cycle (.refl s)
  | .pgDiscard path value cycle => kept_execPgDiscard path value cycle (.refl s)
  | .stripeHoldLapse line => kept_execStripeHoldLapse line (.refl s)
  | .retire m oseq arg => kept_execRetire m oseq arg (.refl s)
  | .swapOut m oseq tick => kept_execSwapOut m oseq tick (.refl s)
  | .swapTake m oseq device tick dead => kept_execSwapTake m oseq device tick dead (.refl s)
  | .epochAnnounce m oseq device tick => kept_execEpochAnnounce m oseq device tick (.refl s)
  | .buildPace m oseq extent arg => kept_execBuildPace m oseq extent arg (.refl s)
  | .suspectClear m oseq => kept_execSuspectClear m oseq (.refl s)
  | .sliceCommit path value cycle => kept_execSliceCommit path value cycle (.refl s)
  | .sliceDiscard path value cycle => kept_execSliceDiscard path value cycle (.refl s)
  | .cold m => kept_execCold m (.refl s)
  | .warm m => kept_execWarm m (.refl s)
  | .lemtusWatchdog => kept_execLemtusWatchdog (.refl s)
  | .bootStageDone rep => kept_execBootStageDone rep (.refl s)
  | .stageTimeout rep => kept_execStageTimeout rep (.refl s)
  | .bootStatusTimer => kept_execBootStatusTimer (.refl s)
  | .regRead m addr => kept_execRegRead m addr (.refl s)
  | .regWrite m addr data cycle => kept_execRegWrite m addr data cycle (.refl s)
  | .image port addr chunk => kept_execImage port addr chunk (.refl s)
  | .i3cRegisterWrite addr data cycle => kept_execI3cRegisterWrite addr data cycle (.refl s)
  | .mgtPwrgoodRise => kept_execMgtPwrgoodRise (.refl s)
  | .mgtPwrgoodFall => kept_execMgtPwrgoodFall (.refl s)
  | .mainPwrgoodRise => kept_execMainPwrgoodRise (.refl s)
  | .mainPwrgoodFall => kept_execMainPwrgoodFall (.refl s)
  | .resetNAssert => kept_execResetNAssert (.refl s)
  | .resetNRelease => kept_execResetNRelease (.refl s)
  | .perstAssert port => kept_execPerstAssert port (.refl s)
  | .refclkLoss land => kept_execRefclkLoss land (.refl s)
  | .railFault row => kept_execRailFault row (.refl s)
  | .thermTrip loc => kept_execThermTrip loc (.refl s)
  | .retrainLockRegained port good => kept_execRetrainLockRegained port good (.refl s)
  | .tierPartDemotionDone granule part => kept_execTierPartDemotionDone granule part (.refl s)
  | .pcieFunctionLevelReset port => kept_execPcieFunctionLevelReset port (.refl s)
  | .update m oseq slot => kept_execUpdate m oseq slot (.refl s)
  | .pairRestartTestDone pair passed => kept_execPairRestartTestDone pair passed (.refl s)
  | .hotRefreshClear stack tempC => kept_execHotRefreshClear stack tempC (.refl s)

/-- What a step keeps of the state with its front command taken. -/
theorem kept_step {s t : State} (h : step s = .next t) : Kept { s with pending := s.pending.tail } t := by
  unfold step at h
  cases hqueue : s.pending with
  | nil =>
    rw [hqueue] at h
    cases h
    exact ⟨id, hqueue, id⟩
  | cons c rest =>
    rw [hqueue] at h
    exact kept_exec c { s with pending := rest } t h

/-- Settles O55: the canonical form is the first of the three things that a step keeps. -/
theorem memoryStaysCanonical : Obligations.MemoryStaysCanonical := by
  unfold Obligations.MemoryStaysCanonical
  intro s t hok hstep
  obtain ⟨hmem, -, -⟩ := kept_step hstep
  exact hmem hok

end Sys2Proof.Machine
end

section

namespace Sys2Proof.Machine

/-! ## Places of the DRAM range (R79) -/

@[simp] theorem homeOf_band (d : Nat) : (homeOf d).band = d / 0x2400000000 := rfl
@[simp] theorem homeOf_h (d : Nat) : (homeOf d).h = d % 0x2400000000 / 0x1000 % 24 := rfl
@[simp] theorem homeOf_die (d : Nat) : (homeOf d).die = (homeOf d).h % 6 := rfl
@[simp] theorem homeOf_region (d : Nat) : (homeOf d).region = (homeOf d).h / 6 := rfl
@[simp] theorem homeOf_stack (d : Nat) : (homeOf d).stack = 2 * (homeOf d).die + (homeOf d).region / 2 := rfl
@[simp] theorem homeOf_channel (d : Nat) : (homeOf d).channel = 8 * ((homeOf d).region % 2) + (homeOf d).band := rfl
@[simp] theorem homeOf_choff (d : Nat) :
    (homeOf d).choff = d % 0x2400000000 / 0x1000 / 24 * 0x1000 + d % 0x1000 := rfl
@[simp] theorem homeOf_coredie (d : Nat) : (homeOf d).coredie = 1 + (homeOf d).choff / 0x40000000 := rfl

theorem homeOf_band_lt {d : Nat} (h : d < dramEnd) : (homeOf d).band < 8 :=
  Nat.div_lt_of_lt_mul h

theorem homeOf_h_lt (d : Nat) : (homeOf d).h < 24 := Nat.mod_lt _ (by decide)

theorem homeOf_die_lt (d : Nat) : (homeOf d).die < 6 := Nat.mod_lt _ (by decide)

theorem homeOf_region_lt (d : Nat) : (homeOf d).region < 4 := Nat.div_lt_of_lt_mul (homeOf_h_lt d)

/-- A channel holds 6 GiB, 1 GiB on each of its core dies. -/
theorem homeOf_choff_lt (d : Nat) : (homeOf d).choff < 6 * 0x40000000 := by
  rw [homeOf_choff]
  omega

theorem homeOf_stack_lt (d : Nat) : (homeOf d).stack < 12 := by
  have hdie := homeOf_die_lt d
  have hregion := homeOf_region_lt d
  rw [homeOf_stack]
  omega

theorem homeOf_channel_lt {d : Nat} (h : d < dramEnd) : (homeOf d).channel < 16 := by
  have hband := homeOf_band_lt h
  rw [homeOf_channel]
  omega

/-- The channel's position in its half is the band. -/
theorem homeOf_channel_mod {d : Nat} (h : d < dramEnd) : (homeOf d).channel % 8 = (homeOf d).band := by
  have hband := homeOf_band_lt h
  rw [homeOf_channel]
  omega

theorem homeOf_coredie_le (d : Nat) : (homeOf d).coredie ≤ 6 := by
  have hoff := homeOf_choff_lt d
  rw [homeOf_coredie]
  omega

/-- The DPA stored at a channel offset of a channel of a stack: R79 read backwards. -/
def dpaOfPlace (stack channel choff : Nat) : Nat :=
  channel % 8 * 0x2400000000 + (choff / 0x1000 * 24 + (stack / 2 + 6 * (2 * (stack % 2) + channel / 8))) * 0x1000 +
    choff % 0x1000

/-- Stack and channel together give the home index back. -/
theorem homeOf_h_of_place {d : Nat} (h : d < dramEnd) :
    (homeOf d).stack / 2 + 6 * (2 * ((homeOf d).stack % 2) + (homeOf d).channel / 8) = (homeOf d).h := by
  have hband := homeOf_band_lt h
  have hh := homeOf_h_lt d
  rw [homeOf_stack, homeOf_channel, homeOf_die, homeOf_region]
  omega

/-- A DPA is known from its place. -/
theorem dpaOfPlace_homeOf {d : Nat} (h : d < dramEnd) :
    dpaOfPlace (homeOf d).stack (homeOf d).channel (homeOf d).choff = d := by
  rw [dpaOfPlace, homeOf_h_of_place h, homeOf_channel_mod h, homeOf_band, homeOf_h, homeOf_choff]
  omega

/-- Within an aligned 24 KiB block of the DRAM range the six blocks of 4 KiB lie on the six dies in turn. -/
theorem homeOf_die_block (k : Nat) {die : Nat} (hdie : die < 6) :
    (homeOf (0x6000 * k + 0x1000 * die)).die = die := by
  rw [homeOf_die, homeOf_h]
  omega

/-- Settles O58: the formulas are the definition's, the ranges follow from them, and a place determines its DPA. -/
theorem homesOfAddresses : Obligations.HomesOfAddresses := by
  unfold Obligations.HomesOfAddresses
  refine ⟨?formulas, ?places, ?dies⟩
  case formulas =>
    rintro d g hd rfl
    exact ⟨rfl, rfl, rfl, rfl, rfl, rfl, rfl, rfl, homeOf_band_lt hd, homeOf_die_lt d, homeOf_region_lt d, homeOf_stack_lt d,
      homeOf_channel_lt hd, homeOf_channel_mod hd, Nat.le_add_right 1 _, homeOf_coredie_le d⟩
  case places =>
    intro d e hd he hstack hchannel hoff
    rw [← dpaOfPlace_homeOf hd, ← dpaOfPlace_homeOf he, hstack, hchannel, hoff]
  case dies =>
    intro k die _ hdie
    exact ⟨0x1000 * die, by omega, homeOf_die_block k hdie⟩

end Sys2Proof.Machine
end

section

namespace Sys2Proof.Machine

/-! ## Device ID, joining and leaving (R73, R175, R176) -/

/-- R73: the device ID is stored and marked set. -/
def State.devidStored (s : State) (v : Word) : State :=
  { s.setWord Reg.FAB_DEVID (writeWord Reg.FAB_DEVID 0 v) with fab := { s.fab with devidSet := true } }

theorem exec_fabDevidWrite {s : State} {path cycle : Nat} {v : Word} (h : s.pairReady path Reg.FAB_DEVID v cycle) :
    exec (.fabDevidWrite path (~~~v) cycle) s = if s.fab.joined
      then .next ((s.setGuard path none).logReject B_FAB Reg.FAB_DEVID v REG_STATE path)
      else .next ((s.setGuard path none).devidStored v) := by
  split
  next hjoined => exact congrArg Host.Outcome.next (guardPair_rejected h rfl (if_pos hjoined))
  next hout => exact congrArg Host.Outcome.next (guardPair_ok h rfl (if_neg hout))

section
variable {s : State} {v : Word} (hjoin : bitOf v 0 = true) (hleave : bitOf v 1 = false) (hout : s.fab.joined = false)
include hjoin hleave hout

/-- JOIN of a device that has an ID and a port that is up. -/
theorem effFabCtrl_joins (h : (s.fab.devidSet && s.fab.ports.any (fun _ p => p.up)) = true) :
    effFabCtrl v s = (s.joinFabric, none) := by
  simp only [effFabCtrl, hjoin, hleave, hout, h, Bool.and_false, Bool.false_eq_true, if_false, if_true]

theorem effFabCtrl_cannotJoin (h : (s.fab.devidSet && s.fab.ports.any (fun _ p => p.up)) = false) :
    effFabCtrl v s = (s, some REG_STATE) := by
  simp only [effFabCtrl, hjoin, hleave, hout, h, Bool.and_false, Bool.false_eq_true, if_false, if_true]

end

theorem effFabCtrl_leaves {s : State} {v : Word} (hjoin : bitOf v 0 = false) (hleave : bitOf v 1 = true)
    (hin : s.fab.joined = true) : effFabCtrl v s = (s.leaveFabric, none) := by
  simp only [effFabCtrl, hjoin, hleave, hin, Bool.false_and, Bool.false_eq_true, if_false, if_true]

theorem exec_join {s : State} {path cycle : Nat} {v : Word} (h : s.pairReady path Reg.FAB_CTRL v cycle)
    (hjoin : bitOf v 0 = true) (hleave : bitOf v 1 = false) (hout : s.fab.joined = false) :
    exec (.join path (~~~v) cycle) s = if s.fab.devidSet && s.fab.ports.any (fun _ p => p.up)
      then .next (s.setGuard path none).joinFabric
      else .next ((s.setGuard path none).logReject B_FAB Reg.FAB_CTRL v REG_STATE path) := by
  split
  next hready =>
    exact congrArg Host.Outcome.next
      (guardPair_ok h hjoin (effFabCtrl_joins (s := s.setGuard path none) hjoin hleave hout hready))
  next hunready =>
    exact congrArg Host.Outcome.next (guardPair_rejected h hjoin
      (effFabCtrl_cannotJoin (s := s.setGuard path none) hjoin hleave hout (Bool.eq_false_iff.2 hunready)))

theorem exec_leave {s : State} {path cycle : Nat} {v : Word} (h : s.pairReady path Reg.FAB_CTRL v cycle)
    (hjoin : bitOf v 0 = false) (hleave : bitOf v 1 = true) (hin : s.fab.joined = true) :
    exec (.leave path (~~~v) cycle) s = .next (s.setGuard path none).leaveFabric := by
  have hv : (bitOf v 1 && !bitOf v 0) = true := by rw [hleave, hjoin]; rfl
  exact congrArg Host.Outcome.next (guardPair_ok h hv (effFabCtrl_leaves (s := s.setGuard path none) hjoin hleave hin))

/-! ## Ownership entries, virtual channels, the thread switch (R147, R169, R173) -/

theorem exec_fabOwnEntryWrite {s : State} {path cycle : Nat} {v : Word} (h : s.pairReady path Reg.FAB_OWN_ENTRY v cycle) :
    exec (.fabOwnEntryWrite path (~~~v) cycle) s = if bitsOf v 16 2 = 3
      then .next ((s.setGuard path none).logReject B_FAB Reg.FAB_OWN_ENTRY v REG_VALUE path)
      else .next ((s.setGuard path none).setOwner (s.fld F.FAB_OWN_SEL_GRANULE) (bitsOf v 0 16, bitsOf v 16 2)) := by
  split
  next hreserved => exact congrArg Host.Outcome.next (guardPair_rejected h rfl (if_pos hreserved))
  next hmode => exact congrArg Host.Outcome.next (guardPair_ok h rfl (if_neg hmode))

/-- R147: the credits of the port's eight virtual channels once channel `vc` takes those of `v`. -/
def Port.withVc (p : Port) (vc : Nat) (v : Word) : Port :=
  { p with vcCfg := p.vcCfg.set vc (BitVec.ofNat 32 (bitsOf v 0 12 + at_ 16 (bitsOf v 16 12))) }

theorem effVcCfg_accepted {s : State} {vc : Nat} {v : Word} {p : Port} (hp : p = s.port (s.fld F.FAB_PORT_SEL_PORT))
    (hstate : p.state = .disabled)
    (hsum : ((p.withVc vc v).vcCfg.map (fun x => bitsOf x 0 12 + bitsOf x 16 12)).foldl (· + ·) 0 ≤ 8192) :
    effVcCfg vc v s = (s.setPort (s.fld F.FAB_PORT_SEL_PORT) (p.withVc vc v), none) := by
  subst hp
  exact (if_neg (not_not_intro hstate)).trans (if_neg (Nat.not_lt.2 hsum))

/-- The register of each of the eight virtual channels lies in the fabric block. -/
theorem block_fabVcCfg {vc : Nat} (h : vc < 8) : Reg.FAB_VC_CFG vc / 0x10000 = B_FAB := by
  rw [Reg.FAB_VC_CFG, B_FAB]
  omega

theorem exec_fabVcCfgWrite {s : State} {path vc : Nat} (cycle : Nat) {v : Word} {p : Port}
    (hw : s.mayWrite path B_FAB = true) (hvc : vc < 8) (hp : p = s.port (s.fld F.FAB_PORT_SEL_PORT))
    (hstate : p.state = .disabled)
    (hsum : ((p.withVc vc v).vcCfg.map (fun x => bitsOf x 0 12 + bitsOf x 16 12)).foldl (· + ·) 0 ≤ 8192) :
    exec (.fabVcCfgWrite path vc v cycle) s = .next (s.setPort (s.fld F.FAB_PORT_SEL_PORT) (p.withVc vc v)) := by
  have write : exec (.fabVcCfgWrite path vc v cycle) s =
      .next (s.plainWrite path (Reg.FAB_VC_CFG (vc % 8)) v (effVcCfg (vc % 8))) := rfl
  rw [write, Nat.mod_eq_of_lt hvc, plainWrite_done ((block_fabVcCfg hvc).symm ▸ hw) (effVcCfg_accepted hp hstate hsum)]

theorem exec_threadSwitchNormal {s : State} {path : Nat} (cycle : Nat) (v : Word) (h : s.mayWrite path B_FAB = true) :
    exec (.threadSwitchNormal path v cycle) s =
      .next (s.setWord Reg.FAB_TS_CTRL (writeWord Reg.FAB_TS_CTRL (s.word Reg.FAB_TS_CTRL) v)) :=
  congrArg Host.Outcome.next (plainWrite_done h rfl)

/-- Settles O7: each write is its register's effect, on the state with the pair's guard closed where the register is
guarded. -/
theorem fabricIdentityWrites : Obligations.FabricIdentityWrites := by
  unfold Obligations.FabricIdentityWrites
  exact ⟨fun s path cycle v h => exec_fabDevidWrite h, fun s path cycle v h => exec_join h,
    fun s path cycle v h => exec_leave h, fun s path cycle v h => exec_fabOwnEntryWrite h,
    fun s path vc cycle v hw hvc hstate hsum => exec_fabVcCfgWrite cycle hw hvc rfl hstate hsum,
    fun s path cycle v h => exec_threadSwitchNormal cycle v h⟩

end Sys2Proof.Machine
end

section

namespace Sys2Proof.Machine

/-! ## Window commits (R84 to R87) -/

/-- The window with which a commit is refused, and why: COMMIT_BUSY before any check of an entry (R85). -/
def State.winApplyFails (s : State) : Option (Nat × Nat) :=
  if s.win.pending.isSome then some (0, COMMIT_BUSY) else s.winCommitFails s.win.shadow

section
variable {s : State} {v : Word} (time : Nat) (happly : bitOf v 0 = true) (hdiscard : bitOf v 1 = false)
include happly hdiscard

theorem effWinCommit_apply : effWinCommit time v s = match s.winApplyFails with
    | some (n, r) => (s.winRefuse n r, some REG_STATE)
    | none => ({ s with win := { s.win with pending := some (s.win.shadow, time) } }, none) := by
  unfold effWinCommit State.winApplyFails
  simp only [happly, hdiscard, Bool.and_false, Bool.false_eq_true, if_false, if_true]
  split <;> rfl

theorem effWinCommit_refused {n reason : Nat} (h : s.winApplyFails = some (n, reason)) :
    effWinCommit time v s = (s.winRefuse n reason, some REG_STATE) := by
  rw [effWinCommit_apply time happly hdiscard, h]

theorem effWinCommit_accepted (h : s.winApplyFails = none) :
    effWinCommit time v s = ({ s with win := { s.win with pending := some (s.win.shadow, time) } }, none) := by
  rw [effWinCommit_apply time happly hdiscard, h]

end

theorem effWinCommit_discard {s : State} {v : Word} (time : Nat) (happly : bitOf v 0 = false) (hdiscard : bitOf v 1 = true) :
    effWinCommit time v s = ({ s with win := { s.win with shadow := s.win.committed } }, none) := by
  simp only [effWinCommit, happly, hdiscard, Bool.false_and, Bool.false_eq_true, if_false, if_true]

/-- Settles O8: an APPLY by what refuses it, a DISCARD, and the end of a drain. -/
theorem windowCommits : Obligations.WindowCommits := by
  unfold Obligations.WindowCommits
  refine ⟨?applied, ?refused, ?discarded, fun s h => congrArg Host.Outcome.next (if_pos h)⟩
  case applied =>
    intro s path cycle v hp happly hdiscard hidle hgood
    have accepted : (s.setGuard path none).winApplyFails = none := by
      change s.winApplyFails = none
      rw [State.winApplyFails, hidle]
      exact hgood
    exact congrArg Host.Outcome.next (guardPair_ok hp happly (effWinCommit_accepted cycle happly hdiscard accepted))
  case refused =>
    intro s path cycle n reason v hp happly hdiscard hfails
    exact congrArg Host.Outcome.next
      (guardPair_rejected hp happly (effWinCommit_refused (s := s.setGuard path none) cycle happly hdiscard hfails))
  case discarded =>
    intro s path cycle v hp happly hdiscard
    have hv : (bitOf v 1 && !bitOf v 0) = true := by rw [hdiscard, happly]; rfl
    exact congrArg Host.Outcome.next (guardPair_ok hp hv (effWinCommit_discard cycle happly hdiscard))

end Sys2Proof.Machine
end

section

namespace Sys2Proof.Machine

/-! ## A request for this device (R145, R175) -/

/-- The requests of Table 5-4 that carry this device's ID as their destination. -/
def requestTypes : List Nat :=
  [T_LOAD, T_STORE, T_FLAGGED_STORE, T_BULK_GET, T_BULK_PUT, T_ATOMIC, T_ACC_ADD, T_ACC_READ, T_SUBMIT, T_OWN, T_SEQ_SYNC]

theorem requestTypes_kind : ∀ t ∈ requestTypes,
    t ≠ T_TICK ∧ t ≠ T_NEIGHBOUR ∧ t ≠ T_MC_PUT ∧ isResponse t = false ∧ vcOf t ≠ 7 := by decide

/-- The requests that read and carry no write sequence number. -/
def readTypes : List Nat := [T_LOAD, T_BULK_GET, T_ACC_READ]

theorem readTypes_kind : ∀ t ∈ readTypes, t ∈ requestTypes ∧ t ≠ T_SEQ_SYNC ∧ isWriteClass t = false := by decide

theorem writeClass_kind {t : Nat} (h : isWriteClass t = true) : t ∈ requestTypes ∧ t ≠ T_SEQ_SYNC := by
  have kinds : ∀ t ∈ [T_STORE, T_FLAGGED_STORE, T_BULK_PUT, T_ATOMIC, T_ACC_ADD, T_SUBMIT, T_OWN],
      t ∈ requestTypes ∧ t ≠ T_SEQ_SYNC := by decide
  exact kinds t (of_decide_eq_true h)

/-- The write-class requests that are served in the order they arrive. -/
def unflaggedTypes : List Nat := [T_STORE, T_BULK_PUT, T_ATOMIC, T_ACC_ADD]

theorem unflaggedTypes_kind : ∀ t ∈ unflaggedTypes,
    isWriteClass t = true ∧ ¬(t = T_SUBMIT ∨ t = T_FLAGGED_STORE) ∧ t ≠ T_OWN := by decide

section
variable {s : State} {p : Packet}

theorem recvPacket_forMe (port : Nat) (h : s.forMe p) (ht : p.type ∈ requestTypes) :
    s.recvPacket port p = s.recvRequest p := by
  obtain ⟨hjoined, hset, hdest, hmc, hcrc, hvc⟩ := h
  obtain ⟨htick, hneighbour, hput, hresponse, hvc7⟩ := requestTypes_kind _ ht
  have mine : (s.fab.devidSet && p.dest == s.ownId && !p.mc) = true := by rw [hset, hdest, hmc, beq_self_eq_true]; rfl
  have channel : (match p.vc with | some v => v == 7 || v != vcOf p.type | none => false) = false := by
    rcases hvc with hvc | hvc <;> simp [hvc, hvc7]
  unfold State.recvPacket
  dsimp only
  rw [if_neg htick, if_neg hneighbour, mine, hjoined, hcrc, hresponse, if_neg hput]
  exact if_neg (Bool.eq_false_iff.1 channel)

/-- A row receives a packet of its own type. -/
theorem recvIf_eq (port : Nat) {t : Nat} (ht : p.type = t) : s.recvIf (p.type == t) port p = (s.recvPacket port p).pump := by
  rw [State.recvIf, ht, beq_self_eq_true]
  rfl

/-- A request at its row. -/
theorem recvIf_forMe (port : Nat) {t : Nat} (h : s.forMe p) (ht : p.type = t) (hreq : t ∈ requestTypes) :
    s.recvIf (p.type == t) port p = (s.recvRequest p).pump := by
  rw [recvIf_eq port ht, recvPacket_forMe port h (ht ▸ hreq)]

theorem recvRequest_read (hsync : p.type ≠ T_SEQ_SYNC) (hread : isWriteClass p.type = false) :
    s.recvRequest p = s.lookupInbound p := by
  rw [State.recvRequest, if_neg hsync, hread]
  rfl

theorem recvRequest_write (hsync : p.type ≠ T_SEQ_SYNC) (hwrite : isWriteClass p.type = true) :
    s.recvRequest p = s.recvWrite p := by
  rw [State.recvRequest, if_neg hsync, if_pos hwrite]

/-! ## A write-class request (R129, R160) -/

theorem recvWrite_discarded {r : Nat} (hseq : s.seqCheck p = some r) : s.recvWrite p = s.discardSeq p r := by
  rw [State.recvWrite, hseq]

theorem recvWrite_stale {s1 : State} (hseq : s.seqCheck p = none) (hepoch : s.epochCheck p = (s1, false)) :
    s.recvWrite p = s1.stalePlacement p := by
  rw [State.recvWrite, hseq]
  dsimp only
  rw [hepoch]

theorem recvWrite_accepted {s1 : State} (hseq : s.seqCheck p = none) (hepoch : s.epochCheck p = (s1, true))
    (ht : p.type ∈ unflaggedTypes) : s.recvWrite p = s1.lookupInbound p := by
  obtain ⟨-, hflag, hown⟩ := unflaggedTypes_kind _ ht
  rw [State.recvWrite, hseq]
  dsimp only
  rw [hepoch]
  dsimp only
  rw [if_neg hflag, if_neg hown]

/-- A flagged request that is well formed is ordered before it is looked up (R106). -/
theorem recvWrite_flagged {s1 : State} (hseq : s.seqCheck p = none) (hepoch : s.epochCheck p = (s1, true))
    (hflag : p.type = T_SUBMIT ∨ p.type = T_FLAGGED_STORE) (hformat : formatFails p = none) :
    s.recvWrite p = s1.holdOrRun { pkt := p, entry := none } := by
  rw [State.recvWrite, hseq]
  dsimp only
  rw [hepoch]
  dsimp only
  rw [if_pos hflag, hformat]

theorem holdOrRun_turn {h : Held} (hturn : s.turnOf h.pkt = true) : s.holdOrRun h = s.releaseOne h := if_pos hturn

theorem holdOrRun_waits {h : Held} (hturn : s.turnOf h.pkt = false) (hroom : s.ord.held.length < 4096) :
    s.holdOrRun h = { s with ord := { s.ord with held := s.ord.held ++ [h] } } :=
  (if_neg (Bool.eq_false_iff.1 hturn)).trans (if_neg (Nat.not_le.2 hroom))

theorem releaseOne_store (h : p.type = T_FLAGGED_STORE) : s.releaseOne { pkt := p, entry := none } = s.lookupInbound p :=
  if_neg (by rw [h]; decide)

/-! ## Lines that are free (R190) -/

theorem askLine_free {w : Waiter} {l : Nat} {write : Bool} (hbusy : s.lineBusy l = false) (hrebuild : s.needsRebuild l = false)
    (hrecall : s.recallNeed w l write = none) : s.askLine w l write = (s, true) := by
  rw [State.askLine, hbusy, hrecall, hrebuild]
  rfl

/-- An access whose every line is free is ready at once, and asking for it changes nothing. -/
theorem askAll_free {w : Waiter} {a n : Nat} {write : Bool} (h : ∀ l ∈ linesOf a n, s.lineBusy l = false ∧
    s.needsRebuild l = false ∧ s.recallNeed w l write = none) : s.askAll w [(a, n, write)] = (s, true) := by
  simp only [State.askAll, List.foldl_cons, List.foldl_nil]
  generalize linesOf a n = lines at h
  induction lines with
  | nil => rfl
  | cons l t ih =>
    obtain ⟨hbusy, hrebuild, hrecall⟩ := h l List.mem_cons_self
    rw [List.foldl_cons, askLine_free hbusy hrebuild hrecall]
    exact ih (fun k hk => h k (List.mem_cons_of_mem _ hk))

/-! ## Service at the window (R83, R99, R167) -/

/-- Counting a request's traffic touches no field that its checks read. -/
theorem servable_counted (h : s.servable p) : (s.counted p).servable p := h

@[simp] theorem window_counted (s : State) (p : Packet) (n : Nat) : (s.counted p).window n = s.window n := rfl

@[simp] theorem inboundAddr_counted (s : State) (p : Packet) : (s.counted p).inboundAddr p = s.inboundAddr p := rfl

theorem serveInbound_servable (h : s.servable p) :
    s.serveInbound p (s.window (faWindow p.addr)) (s.slot (winKey (s.window (faWindow p.addr)))).epoch =
      ((s.leaveLines [(s.inboundAddr p, (servedPart p).2, writesMemory p.type)]).applyInbound p
        (winKey (s.window (faWindow p.addr))) (winBase (s.window (faWindow p.addr)) + faOffset p.addr), true) := by
  obtain ⟨-, hkey, hdomain, hrole, hswap, hpeer, hlines⟩ := h
  unfold State.inboundAddr at hdomain hrole hswap hpeer hlines ⊢
  unfold State.serveInbound
  simp only [hkey, hdomain, hrole, hswap, hpeer, askAll_free hlines, Bool.not_true, Bool.false_eq_true, if_false, Bool.or_false,
    Bool.false_and, Option.isSome_none]

theorem lookupInbound_servable (h : s.servable p) : s.lookupInbound p = s.servedInbound p := by
  have passes : (s.counted p).inboundFails p (s.window (faWindow p.addr)) p.src = none := h.1
  have serves := serveInbound_servable (servable_counted h)
  rw [window_counted, inboundAddr_counted] at serves
  rw [State.lookupInbound]
  dsimp only
  rw [passes]
  dsimp only
  rw [serves]
  rfl

theorem lookupInbound_refused {st r : Nat} (h : s.inboundFails p (s.window (faWindow p.addr)) p.src = some (st, r)) :
    s.lookupInbound p = (s.counted p).refuseInbound p st r := by
  have fails : (s.counted p).inboundFails p (s.window (faWindow p.addr)) p.src = some (st, r) := h
  rw [State.lookupInbound]
  dsimp only
  rw [fails]

/-! ## Multicast puts (R153) -/

/-- A put at a member of its group that has no children. -/
theorem recvPacket_member (port : Nat) (hjoined : s.fab.joined = true) (ht : p.type = T_MC_PUT)
    (hvalid : mcValid (s.mcast p.dest) = true) (hleaf : mcChild (s.mcast p.dest) = 0)
    (hlocal : mcLocal (s.mcast p.dest) = true) (hcrc : p.crcOk = true) : s.recvPacket port p = s.lookupInbound p := by
  have toGroup : s.recvPacket port p = s.recvMcast p := by
    rw [State.recvPacket, ht, hjoined]
    rfl
  rw [toGroup, State.recvMcast]
  simp only [hjoined, hvalid, hleaf, hlocal, hcrc, Bool.not_true, Bool.false_eq_true, if_false, if_true]

/-! ## The rows of requests -/

section
variable {t : Nat} (port : Nat) (h : s.forMe p) (ht : p.type = t)
include h ht

/-- A read at its row. -/
theorem recvIf_read (hread : t ∈ readTypes) : s.recvIf (p.type == t) port p = (s.lookupInbound p).pump := by
  subst ht
  obtain ⟨hreq, hsync, hclass⟩ := readTypes_kind _ hread
  rw [recvIf_forMe port h rfl hreq, recvRequest_read hsync hclass]

/-- A write-class request at its row. -/
theorem recvIf_write (hwrite : isWriteClass t = true) : s.recvIf (p.type == t) port p = (s.recvWrite p).pump := by
  subst ht
  obtain ⟨hreq, hsync⟩ := writeClass_kind hwrite
  rw [recvIf_forMe port h rfl hreq, recvRequest_write hsync hwrite]

theorem recvIf_served (hread : t ∈ readTypes) (hs : s.servable p) :
    s.recvIf (p.type == t) port p = (s.servedInbound p).pump := by
  rw [recvIf_read port h ht hread, lookupInbound_servable hs]

variable {s1 : State} (hseq : s.seqCheck p = none) (hepoch : s.epochCheck p = (s1, true))
include hseq hepoch

theorem recvIf_writeServed (htype : t ∈ unflaggedTypes) (hs : s1.servable p) :
    s.recvIf (p.type == t) port p = (s1.servedInbound p).pump := by
  obtain ⟨hwrite, -⟩ := unflaggedTypes_kind t htype
  rw [recvIf_write port h ht hwrite, recvWrite_accepted hseq hepoch (ht ▸ htype), lookupInbound_servable hs]

/-- A flagged request at its row: it acts in its turn, or is held. -/
theorem recvIf_flagged (hflag : t = T_SUBMIT ∨ t = T_FLAGGED_STORE) (hformat : formatFails p = none) :
    s.recvIf (p.type == t) port p = (s1.holdOrRun { pkt := p, entry := none }).pump := by
  have hwrite : isWriteClass t = true := by rcases hflag with rfl | rfl <;> decide
  rw [recvIf_write port h ht hwrite, recvWrite_flagged hseq hepoch (ht ▸ hflag) hformat]

end

end

/-- The row of a request, once what its arrival makes of the device is known. -/
theorem next_takeSubqs {u v : State} (h : u = v) :
    Host.Outcome.next u.takeSubqs = (.next v.takeSubqs : Host.Outcome State Fault Refusal) := by rw [h]

/-- Settles O17: a read is looked up at once; a write by its sequence number, its epoch and, where it is flagged, its turn;
what is looked up is served where it is servable. -/
theorem requestPacketsServed : Obligations.RequestPacketsServed := by
  unfold Obligations.RequestPacketsServed
  refine ⟨?reads, ?writes, ?held, ?multicast, ?stale, ?epoch, ?refused⟩
  case reads =>
    intro s port p hme hs
    exact ⟨fun ht => next_takeSubqs (recvIf_served port hme ht (by decide) hs),
      fun ht => next_takeSubqs (recvIf_served port hme ht (by decide) hs),
      fun ht => next_takeSubqs (recvIf_served port hme ht (by decide) hs)⟩
  case writes =>
    intro s s1 port p hme hseq hepoch hs
    refine ⟨fun ht => next_takeSubqs (recvIf_writeServed port hme ht hseq hepoch (by decide) hs),
      fun ht => next_takeSubqs (recvIf_writeServed port hme ht hseq hepoch (by decide) hs),
      fun ht => next_takeSubqs (recvIf_writeServed port hme ht hseq hepoch (by decide) hs),
      fun ht => next_takeSubqs (recvIf_writeServed port hme ht hseq hepoch (by decide) hs), fun ht hturn hformat => ?_⟩
    refine next_takeSubqs ((recvIf_flagged port hme ht hseq hepoch (.inr rfl) hformat).trans ?_)
    rw [holdOrRun_turn hturn, releaseOne_store ht, lookupInbound_servable hs]
  case held =>
    intro s s1 port p hme hseq hepoch ht hturn hformat hroom
    refine next_takeSubqs ((recvIf_flagged port hme ht hseq hepoch (.inr rfl) hformat).trans ?_)
    rw [holdOrRun_waits hturn hroom]
  case multicast =>
    intro s port p hjoined ht hvalid hleaf hlocal hcrc hs
    refine next_takeSubqs ((recvIf_eq port ht).trans ?_)
    rw [recvPacket_member port hjoined ht hvalid hleaf hlocal hcrc, lookupInbound_servable hs]
  case stale =>
    intro s port p hme ht hseq
    refine next_takeSubqs ((recvIf_write port hme ht (by decide)).trans ?_)
    rw [recvWrite_discarded hseq, State.discardSeq, if_pos rfl, ht]
    rfl
  case epoch =>
    intro s s1 port p hme ht hseq hepoch
    refine next_takeSubqs ((recvIf_write port hme ht (by decide)).trans ?_)
    rw [recvWrite_stale hseq hepoch, State.stalePlacement]
  case refused =>
    intro s port st r p hme ht hfails
    refine next_takeSubqs ((recvIf_read port hme ht (by decide)).trans ?_)
    rw [lookupInbound_refused hfails]

end Sys2Proof.Machine
end

section

namespace Sys2Proof.Machine

/-! ## Bytes written and read under one key (R94, R576) -/

/-- The bytes read from an address on are those a list holds there, else what was there before: what a list with one more
byte in front adds is the byte at its first address. -/
theorem overlay_cons (b : Byte) (l : List Byte) (d x : Nat) (old : Byte) :
    (if d + 1 ≤ x ∧ x < d + 1 + l.length then l.getD (x - (d + 1)) 0 else if x = d then b else old) =
      if d ≤ x ∧ x < d + (b :: l).length then (b :: l).getD (x - d) 0 else old := by
  rw [List.length_cons]
  rcases Nat.lt_trichotomy x d with below | rfl | above
  · rw [if_neg (by omega), if_neg (by omega), if_neg (by omega)]
  · rw [if_neg (by omega), if_pos rfl, if_pos (by omega), Nat.sub_self, List.getD_cons_zero]
  · obtain ⟨k, rfl⟩ := Nat.exists_eq_add_of_lt above
    have at_head : d + k + 1 - d = k + 1 := by omega
    have at_tail : d + k + 1 - (d + 1) = k := by omega
    rw [if_neg (Nat.ne_of_gt above), at_head, at_tail, List.getD_cons_succ]
    exact ite_congr (propext (by omega)) (fun _ => rfl) (fun _ => rfl)

/-- Bytes written one after another under a key read back under it, and every other byte reads as before. -/
theorem pokeN_peek {s : State} (h : s.memOk) (key d : Nat) (l : List Byte) :
    (s.pokeN key d l []).memOk ∧
      ∀ x, (s.pokeN key d l []).peek key x = if d ≤ x ∧ x < d + l.length then l.getD (x - d) 0 else s.peek key x := by
  induction l generalizing s d with
  | nil => exact ⟨h, fun x => (if_neg (by rw [List.length_nil]; omega)).symm⟩
  | cons b l ih =>
    obtain ⟨hpoke, hbyte⟩ := poke_peek h key d b
    obtain ⟨hok, hrest⟩ := ih hpoke (d + 1)
    refine ⟨hok, fun x => ?_⟩
    rw [State.pokeN, hrest, hbyte, overlay_cons]

/-- Settles O59, by induction on the bytes written: each is one poke. -/
theorem readsSeeWrites : Obligations.ReadsSeeWrites := by
  unfold Obligations.ReadsSeeWrites
  exact fun s key d l h => pokeN_peek h key d l

end Sys2Proof.Machine
end

section

namespace Sys2Proof.Machine

/-! ## A request whose accesses are ready (R98 to R100, R163, R165) -/

section
variable (t : State) {p : Packet} (k d : Nat)

/-- A request that is no put by segments carries the whole of its transaction. -/
theorem servedPart_whole (h : p.type ≠ T_BULK_PUT ∧ p.type ≠ T_MC_PUT) : servedPart p = (0, checkLen p) :=
  if_neg (not_or.2 h)

theorem servedPart_plain (h : p.type = T_LOAD ∨ p.type = T_ATOMIC) : servedPart p = (0, p.length) := by
  rw [servedPart_whole (by rcases h with h | h <;> rw [h] <;> decide), checkLen]
  rcases h with h | h <;> rw [h] <;> rfl

theorem checkLen_acc (h : p.type = T_ACC_ADD ∨ p.type = T_ACC_READ) : checkLen p = 80 * accCells p := if_pos h

theorem applyInbound_load (h : p.type = T_LOAD) :
    t.applyInbound p k d = (t.touch k d p.length false).endPacket p ST_OK 0 0 (t.homeRead k d p.length).2
      (t.homeRead k d p.length).1 := by
  rw [State.applyInbound, servedPart_plain (.inl h)]
  exact if_pos h

theorem applyInbound_accRead (h : p.type = T_ACC_READ) :
    t.applyInbound p k d = (t.touch k d (80 * accCells p) false).endPacket p ST_OK 0 0 (t.accRead k d p).2
      (t.accRead k d p).1 := by
  rw [State.applyInbound, servedPart_whole (by rw [h]; decide), checkLen_acc (.inr h)]
  dsimp only
  rw [if_neg (by rw [h]; decide), if_neg (by rw [h]; decide), if_pos h]
  rfl

/-- R99: an atomic on a poisoned line is refused; on another it writes its value, which a held write carries back. -/
theorem applyInbound_atomic (h : p.type = T_ATOMIC) :
    t.applyInbound p k d = if t.readsPoison (lineOf d) then t.endPacket p ST_POISONED ORD_POISON
      else
        let old := leNat (t.homeBytes k d p.length)
        let u := t.creditWrite (.packet p) k d (leBytes p.length (atomicValue p.op p.length old p.operand p.compare))
          (if p.credit then some p.counter else none)
        ({ u with pg := { u.pg with held := u.pg.held.map (fun (h : HeldWrite) =>
          if h.origin == HoldOrigin.packet p then { h with old := old } else h) } }).endWrite p old := by
  rw [State.applyInbound, servedPart_plain (.inr h)]
  dsimp only
  rw [if_neg (by rw [h]; decide), if_neg (by rw [h]; decide), if_neg (by rw [h]; decide), if_pos h]
  rfl

theorem applyInbound_accAdd (h : p.type = T_ACC_ADD) :
    t.applyInbound p k d = (((linesOf d (80 * accCells p)).filter t.isPoisoned).foldl State.poisonLine
      (t.homeWrite (.packet p) k d (accResult p (t.homeBytes k d (80 * accCells p))))).endWrite p := by
  rw [State.applyInbound, servedPart_whole (by rw [h]; decide), checkLen_acc (.inl h)]
  dsimp only
  rw [if_neg (by rw [h]; decide), if_neg (by rw [h]; decide), if_neg (by rw [h]; decide), if_neg (by rw [h]; decide),
    if_pos h]
  rfl

/-- The types that write their payload. -/
def putTypes : List Nat := [T_STORE, T_FLAGGED_STORE, T_BULK_PUT, T_MC_PUT]

theorem putTypes_kind : ∀ y ∈ putTypes,
    y ≠ T_LOAD ∧ y ≠ T_BULK_GET ∧ y ≠ T_ACC_READ ∧ y ≠ T_ATOMIC ∧ y ≠ T_ACC_ADD := by decide

/-- A write that names no counter, at the part of its transaction that the packet carries. -/
theorem applyInbound_put (h : p.type ∈ putTypes) (hcredit : p.credit = false) :
    t.applyInbound p k d = (t.homeWrite (.packet p) k (d + (servedPart p).1) p.data (packetMask p)).endWrite p := by
  obtain ⟨hload, hget, hread, hatomic, hadd⟩ := putTypes_kind _ h
  rw [State.applyInbound, hcredit]
  dsimp only
  rw [if_neg hload, if_neg hget, if_neg hread, if_neg hatomic, if_neg hadd]
  rfl

/-- A put by segments enables every byte. -/
theorem packetMask_segment (h : p.type = T_BULK_PUT ∨ p.type = T_MC_PUT) : packetMask p = [] :=
  if_neg (fun hstore => by rcases h with h | h <;> exact absurd (h.symm.trans hstore.1) (by decide))

end

/-- Settles O18: a lemma for each kind of request, and the table of atomics (Table 5-8) read off. -/
theorem requestEffectsAtHome : Obligations.RequestEffectsAtHome := by
  unfold Obligations.RequestEffectsAtHome
  refine ⟨fun t p k d h => applyInbound_load t k d h, ?poisoned, ?atomic, ?store, ?put,
    fun t p k d h => applyInbound_accAdd t k d h, fun t p k d h => applyInbound_accRead t k d h,
    fun len old x c => ⟨rfl, rfl, rfl, rfl, rfl⟩⟩
  case poisoned =>
    intro t p k d h hpoison
    rw [applyInbound_atomic t k d h, if_pos hpoison]
  case atomic =>
    rintro t u p k d old h hpoison hcredit rfl rfl
    rw [applyInbound_atomic t k d h, if_neg (ne_true_of_eq_false hpoison), hcredit]
    rfl
  case store =>
    intro t p k d h hcredit
    have whole : servedPart p = (0, checkLen p) := servedPart_whole (by rcases h with h | h <;> rw [h] <;> decide)
    rw [applyInbound_put t k d (by rcases h with h | h <;> rw [h] <;> decide) hcredit, whole]
    rfl
  case put =>
    intro t p k d h hcredit
    have part : servedPart p = (p.segOff, p.segLen) := if_pos h
    rw [applyInbound_put t k d (by rcases h with h | h <;> rw [h] <;> decide) hcredit, part, packetMask_segment h]

end Sys2Proof.Machine
end

section

namespace Sys2Proof.Machine

/-! ## A submission (R170) -/

section
variable {s : State} {p : Packet}

/-- A descriptor other than NOP, from an admitted source, at an ACTIVE queue: taken while the queue has room. -/
theorem acceptSubmit_admitted (hstate : (s.subq (p.addr % 256)).state = .active)
    (hsource : p.src &&& sqSrcMask (s.subq (p.addr % 256)).record =
      sqSrcMatch (s.subq (p.addr % 256)).record &&& sqSrcMask (s.subq (p.addr % 256)).record)
    (hop : dOpcode (BitVec.ofNat 512 (leNat p.data)) ≠ 0) :
    s.acceptSubmit p =
      if 2 ^ sqLog (s.subq (p.addr % 256)).record ≤ (s.subq (p.addr % 256)).queue.length
      then s.endPacket p ST_ABORTED SUBQ_FULL
      else (s.setSubq (p.addr % 256) { s.subq (p.addr % 256) with
        queue := (s.subq (p.addr % 256)).queue ++ [BitVec.ofNat 512 (leNat p.data)] }).endPacket p ST_OK 0 := by
  rw [State.acceptSubmit]
  dsimp only
  rw [if_neg (not_or.2 ⟨not_not_intro hstate, not_not_intro hsource⟩), if_neg (fun h => hop h.1)]

theorem releaseOne_submit {e : Option (BitVec 128)} (h : p.type = T_SUBMIT) :
    s.releaseOne { pkt := p, entry := e } = s.acceptSubmit p := if_pos h

/-! ## Ownership (R168) -/

/-- An OWN packet that is well formed is looked up before it is ordered. -/
theorem recvWrite_own {s1 : State} (hseq : s.seqCheck p = none) (hepoch : s.epochCheck p = (s1, true)) (ht : p.type = T_OWN)
    (hpass : s1.inboundFails p (s1.window (faWindow p.addr)) p.src = none) :
    s.recvWrite p = (s1.counted p).holdOrRun { pkt := p, entry := some (s1.window (faWindow p.addr)) } := by
  have passes : (s1.counted p).inboundFails p (s1.window (faWindow p.addr)) p.src = none := hpass
  rw [State.recvWrite, hseq]
  dsimp only
  rw [hepoch]
  dsimp only
  rw [if_neg (by rw [ht]; decide), if_pos ht, passes]

theorem releaseOne_own {e : BitVec 128} (h : p.type = T_OWN) :
    s.releaseOne { pkt := p, entry := some e } = s.applyOwn p e := if_neg (by rw [h]; decide)

/-- What an OWN packet does to its granule, by its operation and whose the granule is. -/
theorem applyOwn_eq (s : State) (p : Packet) :
    s.applyOwn p (s.window (faWindow p.addr)) =
      if p.op = 1 ∧ ((s.granule (s.ownGranule p)).2 = 0 ∨ s.granule (s.ownGranule p) = (p.src, 1)) then
        (s.setOwner (s.ownGranule p) (p.src, 1)).endPacket p ST_OK 0
      else if p.op = 2 ∧ s.granule (s.ownGranule p) = (p.src, 1) then
        (s.setOwner (s.ownGranule p) (p.newOwner, 1)).endPacket p ST_OK 0
      else if p.op = 3 ∧ s.granule (s.ownGranule p) = (p.src, 1) then
        (s.setOwner (s.ownGranule p) (0, 0)).endPacket p ST_OK 0
      else s.endPacket p ST_OWNERSHIP OWN_STATE := by
  have mine (x : Nat × Nat) : (x.2 == 1 && x.1 == p.src) = true ↔ x = (p.src, 1) := by
    rw [Bool.and_eq_true, beq_iff_eq, beq_iff_eq, Prod.ext_iff, and_comm]
  simp only [← mine]
  rfl

/-- An OWN packet at its row, in its turn. -/
theorem recvIf_own {s1 : State} {k : Nat} (port : Nat) (h : s.forMe p) (hseq : s.seqCheck p = none)
    (hepoch : s.epochCheck p = (s1, true)) (ht : p.type = T_OWN)
    (hpass : s1.inboundFails p (s1.window (faWindow p.addr)) p.src = none) (hturn : s1.turnOf p = true) (hop : p.op = k) :
    s.recvIf (p.type == T_OWN && p.op == k) port p = ((s1.counted p).applyOwn p (s1.window (faWindow p.addr))).pump := by
  rw [hop, beq_self_eq_true, Bool.and_true, recvIf_write port h ht (by decide), recvWrite_own hseq hepoch ht hpass,
    holdOrRun_turn hturn, releaseOne_own ht]

/-! ## SEQ_SYNC (R161) -/

/-- With nothing of its source held, a SEQ_SYNC only starts the generation. -/
theorem recvSync_unheld (h : ∀ x ∈ s.ord.held, x.pkt.src ≠ p.src) :
    s.recvSync p =
      ({ s with ord := { s.ord with track := s.ord.track.put p.src { gen := p.newGen % 256, mark := 0 } } }).endPacket p
        ST_OK 0 := by
  have old : s.ord.held.filter (fun h => h.pkt.src == p.src && h.pkt.wsnGen != p.newGen % 256) = [] :=
    List.filter_eq_nil_iff.2 (fun x hx => by rw [beq_false_of_ne (h x hx)]; exact Bool.false_ne_true)
  have kept : s.ord.held.filter (fun h => !([] : List Held).contains h) = s.ord.held :=
    List.filter_eq_self.2 (fun x _ => rfl)
  rw [State.recvSync]
  dsimp only
  rw [old, kept]
  rfl

end

/-- Settles O19: a SUBMIT in its turn is accepted or refused by its queue's room; an OWN packet in its turn acts on its
granule; a SEQ_SYNC starts a generation. -/
theorem flaggedRequests : Obligations.FlaggedRequests := by
  unfold Obligations.FlaggedRequests
  refine ⟨?submit, ?own, fun s port p hme ht => ⟨?sync, recvSync_unheld⟩⟩
  case submit =>
    intro s s1 port p hme hseq hepoch ht hformat hturn hstate hsource hop
    have row : s.recvIf (p.type == T_SUBMIT) port p = (s1.acceptSubmit p).pump := by
      rw [recvIf_flagged port hme ht hseq hepoch (.inl rfl) hformat, holdOrRun_turn hturn, releaseOne_submit ht]
    refine (next_takeSubqs row).trans ?_
    rw [acceptSubmit_admitted hstate hsource hop]
    split <;> rfl
  case own =>
    intro s s1 port p hme hseq hepoch ht hpass hturn
    have row {k : Nat} {u : State} (hop : p.op = k) (hu : (s1.counted p).applyOwn p (s1.window (faWindow p.addr)) = u) :
        Host.Outcome.next (s.recvIf (p.type == T_OWN && p.op == k) port p).takeSubqs =
          (.next u.pump.takeSubqs : Host.Outcome State Fault Refusal) :=
      next_takeSubqs ((recvIf_own port hme hseq hepoch ht hpass hturn hop).trans (congrArg State.pump hu))
    have acts := applyOwn_eq (s1.counted p) p
    refine ⟨fun hop hfree => row hop (acts.trans (if_pos ⟨hop, hfree⟩)), fun hop hmine => row hop (acts.trans ?handoff),
      fun hop hmine => row hop (acts.trans ?release), fun hop hfree => row hop (acts.trans ?refused)⟩
    case handoff => exact (if_neg (fun h => by omega)).trans (if_pos ⟨hop, hmine⟩)
    case release => exact (if_neg (fun h => by omega)).trans ((if_neg (fun h => by omega)).trans (if_pos ⟨hop, hmine⟩))
    case refused =>
      have notMine : ¬ s1.granule (s1.ownGranule p) = (p.src, 1) := fun h => by
        rw [h] at hfree
        exact Nat.one_ne_zero hfree
      exact (if_neg (fun h => by omega)).trans ((if_neg (fun h => by omega)).trans (if_neg (fun h => notMine h.2)))
  case sync =>
    refine next_takeSubqs ((recvIf_forMe port hme ht (by decide)).trans ?_)
    rw [State.recvRequest, if_pos ht]

end Sys2Proof.Machine
end

section

namespace Sys2Proof.Machine

/-! ## Responses (R157 to R159) -/

/-- The types of Table 5-4 that answer a request. -/
def responseTypes : List Nat := [T_READ_DATA, T_BULK_DATA, T_ACK]

theorem responseTypes_kind : ∀ t ∈ responseTypes,
    t ≠ T_TICK ∧ t ≠ T_NEIGHBOUR ∧ t ≠ T_MC_PUT ∧ isResponse t = true ∧ vcOf t ≠ 7 := by decide

section
variable {s : State} {p : Packet}

theorem recvPacket_response (port : Nat) (h : s.forMe p) (ht : p.type ∈ responseTypes) :
    s.recvPacket port p = s.recvResponse p := by
  obtain ⟨hjoined, hset, hdest, hmc, hcrc, hvc⟩ := h
  obtain ⟨htick, hneighbour, hput, hresponse, hvc7⟩ := responseTypes_kind _ ht
  have mine : (s.fab.devidSet && p.dest == s.ownId && !p.mc) = true := by rw [hset, hdest, hmc, beq_self_eq_true]; rfl
  have channel : (match p.vc with | some v => v == 7 || v != vcOf p.type | none => false) = false := by
    rcases hvc with hvc | hvc <;> simp [hvc, hvc7]
  unfold State.recvPacket
  dsimp only
  rw [if_neg htick, if_neg hneighbour, mine, hjoined, hcrc, if_neg hput]
  exact (if_neg (Bool.eq_false_iff.1 channel)).trans (if_pos hresponse)

/-- A response at its row. -/
theorem recvIf_response (port : Nat) {t : Nat} (h : s.forMe p) (ht : p.type = t) (hresponse : t ∈ responseTypes) :
    s.recvIf (p.type == t) port p = (s.recvResponse p).pump := by
  rw [recvIf_eq port ht, recvPacket_response port h (ht ▸ hresponse)]

/-- A response that finds its request, of which nothing was refused before: data of a good one is delivered, and the last
ends the request. -/
theorem recvResponse_matched {r : Request} (hfind : s.fab.outstanding.find p.tag = some r) (hgen : r.gen = p.gen)
    (hok : r.status = ST_OK) :
    s.recvResponse p =
      let u := if p.status = ST_OK then s.deliverData r p else s
      if r.expect ≤ 1 then u.endRequest p.tag p.status p.reason
      else
        let x : Request := { r with expect := r.expect - 1, status := p.status, reason := p.reason }
        { u with fab := { u.fab with outstanding := u.fab.outstanding.put p.tag x } } := by
  rw [State.recvResponse, hfind]
  dsimp only
  rw [if_neg (not_not_intro hgen), if_pos hok]

theorem recvResponse_unmatched (hfind : s.fab.outstanding.find p.tag = none) :
    s.recvResponse p = { s with fab := { s.fab with unmatched := s.fab.unmatched + 1 } } := by
  rw [State.recvResponse, hfind]

end

/-! ## Link frames (R138) -/

section
variable {s : State} {n : Nat} {f : Frame}

theorem recvFrame_down (hup : (s.port n).up = false) (hinit : (s.port n).state ≠ .init) : s.recvFrame n f = s := by
  rw [State.recvFrame, hup, beq_false_of_ne hinit]
  rfl

/-- A frame that fails FEC or CRC. -/
theorem recvFrame_bad (hup : (s.port n).up = true) (hbad : f.fecOk = false ∨ f.crcOk = false) :
    s.recvFrame n f = s.setPort n { s.port n with
      corrected := (s.port n).corrected + f.corrected,
      uncorrected := (s.port n).uncorrected + boolNat (!f.fecOk), nakSent := true } := by
  have bad : (!f.fecOk || !f.crcOk) = true := by rcases hbad with h | h <;> simp [h]
  rw [State.recvFrame, hup]
  exact if_pos bad

/-- The next frame in order, which acknowledges nothing. -/
theorem recvFrame_next (hup : (s.port n).up = true) (hfec : f.fecOk = true) (hcrc : f.crcOk = true)
    (hseq : f.seq % 4096 = (s.port n).rxNext) (hack : f.ackValid = false) :
    s.recvFrame n f = ((f.pkts.foldl (fun s p => s.recv n p) (s.setPort n { s.port n with
      corrected := (s.port n).corrected + f.corrected, rxNext := ((s.port n).rxNext + 1) % 4096, nakSent := false,
      credits := (List.range 16).map (fun i => (s.port n).credits.getD i 0 + f.credits.getD i 0) })).drainPort
        n).retryParked := by
  rw [State.recvFrame, hup, hfec, hcrc, hack]
  exact if_neg (not_not_intro hseq)

end

/-- Settles O20: responses by the request they find, timeouts by what they find waiting, frames by their port and checks. -/
theorem responsesAndTimeouts : Obligations.ResponsesAndTimeouts := by
  unfold Obligations.ResponsesAndTimeouts
  refine ⟨?last, ?refused, ?unmatched, fun s tag r h => ?timeout, fun s src seq h hfind => ?flag, ?escape,
    fun s n f hup hinit => congrArg (fun u : State => Host.Outcome.next u.takeSubqs) (recvFrame_down hup hinit),
    fun s n f hup hbad => next_takeSubqs (recvFrame_bad hup hbad),
    fun s n f hup hfec hcrc hseq hack => next_takeSubqs (recvFrame_next hup hfec hcrc hseq hack)⟩
  case last =>
    intro s port p r hme hfind hgen hlast hok
    have ends := (recvResponse_matched hfind hgen hok).trans (if_pos hlast)
    exact ⟨fun ht => next_takeSubqs ((recvIf_response port hme ht (by decide)).trans (congrArg State.pump ends)),
      fun ht => next_takeSubqs ((recvIf_response port hme ht (by decide)).trans (congrArg State.pump ends)),
      fun ht => next_takeSubqs ((recvIf_response port hme ht (by decide)).trans (congrArg State.pump ends))⟩
  case refused =>
    intro s port p r hme hfind hgen hmore ht hstatus hok
    refine next_takeSubqs ((recvIf_response port hme ht (by decide)).trans (congrArg State.pump ?_))
    rw [recvResponse_matched hfind hgen hok, if_neg hstatus]
    exact if_neg (Nat.not_le.2 hmore)
  case unmatched =>
    intro s port p hme hfind ht
    have counts := recvResponse_unmatched hfind
    exact next_takeSubqs ((recvIf_response port hme ht (by decide)).trans (congrArg State.pump counts))
  case timeout =>
    change execRequestTimeout tag s = _
    rw [execRequestTimeout, h]
  case flag =>
    change execFlagTimeout src seq s = _
    rw [execFlagTimeout, hfind]
  case escape =>
    intro s k p hparked hroute
    change execEscapeTimeout k s = _
    rw [execEscapeTimeout, hparked]
    exact congrArg Host.Outcome.next (if_pos hroute)

end Sys2Proof.Machine
end

section

namespace Sys2Proof.Machine

/-! ## Control descriptors (R120 to R124, R513, R522) -/

section
variable {s : State} {tok : Nat} {d : Desc}

/-- A fence whose earlier descriptors have all gone ends, after its flushing reads (R117). -/
theorem exec_fenceComplete (hd : s.desc tok = some d) (hop : dOpcode d.bits = 0x02) (hbegun : d.begun = true)
    (hopen : d.finished = false) (hfirst : s.rings.descs.any (fun k e => decide (k < tok) && e.src == d.src) = false) :
    exec (.fenceComplete tok) s = .next ((if dfield d.bits 16 1 = 2 then s.flushReads d.src else s).opEnd tok {}) := by
  change execFenceComplete tok s = _
  rw [execFenceComplete, State.endDesc, hd]
  dsimp only
  rw [if_pos ⟨hop, hbegun, hopen⟩, if_neg (ne_true_of_eq_false hfirst)]

/-- R513: with no target alive, an ABORT says whether there ever was one. -/
theorem exec_abort_noTarget (h : s.ready tok 0x01 d) (hlive : (s.begun tok d).liveTarget tok d = none) :
    exec (.abort tok) s = .next ((s.begun tok d).opEnd tok (cpl ST_ALREADY_DONE
      (if (s.begun tok d).pastTarget d = none then ABORT_NO_TARGET else 0))) := by
  change execAbort tok s = _
  rw [execAbort, runDesc_ready _ h]
  dsimp only
  rw [hlive]
  cases (s.begun tok d).pastTarget d <;> rfl

/-- R510, R514: a target alive is stopped where it can still be, and the ABORT completes after it. -/
theorem exec_abort_target {u : State} {t i : Nat} {x : Desc} (h : s.ready tok 0x01 d)
    (hlive : (s.begun tok d).liveTarget tok d = some (t, i)) (hpast : ∀ j, (s.begun tok d).pastTarget d = some j → j ≤ i)
    (hu : (s.begun tok d).abortAfter tok t = u) (hx : u.desc t = some x) :
    exec (.abort tok) s = .next (if u.abortStops t x = true then (u.stopWork t (cpl ST_ABORTED ABORT_REQUESTED)).opEnd tok {}
      else u.opEnd tok (cpl ST_ALREADY_DONE 0)) := by
  have stops : (match (if u.abortStops t x = true then (u.stopWork t (cpl ST_ABORTED ABORT_REQUESTED), some {})
      else (u, some (cpl ST_ALREADY_DONE 0)) : State × Option Cpl) with
      | (s', some c) => s'.opEnd tok c
      | (s', none) => s') = if u.abortStops t x = true then (u.stopWork t (cpl ST_ABORTED ABORT_REQUESTED)).opEnd tok {}
        else u.opEnd tok (cpl ST_ALREADY_DONE 0) := by
    cases u.abortStops t x <;> rfl
  change execAbort tok s = _
  rw [execAbort, runDesc_ready _ h]
  dsimp only
  rw [hlive]
  dsimp only
  rw [hu, hx]
  cases hj : (s.begun tok d).pastTarget d with
  | none => exact congrArg Host.Outcome.next stops
  | some j =>
    have latest : ¬ decide (i < j) = true := by rw [decide_eq_true_eq]; exact Nat.not_lt.2 (hpast j hj)
    dsimp only
    rw [if_neg latest]
    exact congrArg Host.Outcome.next stops

/-- R124: with every earlier descriptor of its source ended, a SET_FLAG sends its store. -/
theorem exec_setFlag {u : State} {c : Option Cpl} (h : s.ready tok 0x04 d)
    (hfirst : s.rings.descs.any (fun k e => decide (k < tok) && e.src == d.src && !e.finished) = false) :
    (s.begun tok d).storeFlag tok d (dfield d.bits 16 8) (leBytes 8 (dfield d.bits 24 8)) = (u, c) →
    exec (.setFlag tok) s = .next (match c with | some c => u.opEnd tok c | none => u) := by
  intro hstore
  change execSetFlag tok s = _
  rw [execSetFlag, h.1]
  dsimp only
  rw [if_neg (ne_true_of_eq_false hfirst), runDesc_ready _ h, hstore]
  cases c <;> rfl

/-- R522: admission that is not assisted takes no weights. -/
theorem exec_admitWeights_unassisted (h : s.ready tok 0xF2 d) (hassist : s.assisted 2 = false) :
    exec (.admitWeights tok) s = .next ((s.begun tok d).opEnd tok (cpl ST_PERMISSION RING_MODE)) := by
  have unassisted : (!(s.begun tok d).assisted 2) = true := congrArg (!·) hassist
  change execAdmitWeights tok s = _
  rw [execAdmitWeights, runDesc_ready _ h]
  dsimp only
  rw [if_pos unassisted]

/-- R522: weights from a ring of the port that assists. -/
theorem exec_admitWeights_assisted {r : Nat} (h : s.ready tok 0xF2 d) (hassist : s.assisted 2 = true)
    (hsrc : d.src = .ring r) (hport : rgPort (s.ring r).record = s.fld F.HIF_FN_MODE_PORT) :
    exec (.admitWeights tok) s = .next (State.opEnd { s.begun tok d with rings := { (s.begun tok d).rings with
      weights := if dfield d.bits 17 1 = 0 then s.rings.weights.del (dfield d.bits 16 1)
        else s.rings.weights.put (dfield d.bits 16 1) (dfield d.bits 17 1) } } tok {}) := by
  have assisted : ¬ (!(s.begun tok d).assisted 2) = true := by
    change ¬ (!s.assisted 2) = true
    rw [hassist]
    decide
  have ours : ¬ (rgPort ((s.begun tok d).ring r).record != (s.begun tok d).fld F.HIF_FN_MODE_PORT) = true := by
    change ¬ (rgPort (s.ring r).record != s.fld F.HIF_FN_MODE_PORT) = true
    rw [hport, bne_self_eq_false]
    exact Bool.false_ne_true
  change execAdmitWeights tok s = _
  rw [execAdmitWeights, runDesc_ready _ h]
  dsimp only
  rw [if_neg assisted, hsrc]
  dsimp only
  rw [if_neg ours]
  rfl

end

/-- R519: modes are taken only where none is to be assisted, or the port has its pair. -/
theorem effFnMode_eq (v : Word) (s : State) :
    effFnMode v s = if bitsOf v 2 8 = 0 ∨ (s.assistPair (bitsOf v 16 3)).isSome = true then
        ({ s with rings := { s.rings with fnModePending := some (writeWord Reg.HIF_FN_MODE 0 v) } }, none)
      else (s, some REG_STATE) := by
  have refused : (bitsOf v 2 8 ≠ 0 ∧ (s.assistPair (bitsOf v 16 3)).isNone = true) ↔
      ¬ (bitsOf v 2 8 = 0 ∨ (s.assistPair (bitsOf v 16 3)).isSome = true) := by
    rw [not_or, Option.not_isSome_iff_eq_none, Option.isNone_iff_eq_none]
  rw [effFnMode]
  simp only [refused, ite_not]

theorem storeFlag_remote {s : State} (tok : Nat) {addr : Nat} (d : Desc) (bytes : List Byte)
    (h : ¬ (faDevice addr = s.fld F.FAB_DEVID_DEVID ∧ s.fab.devidSet = true)) :
    s.storeFlag tok d addr bytes = (s.originateFor tok
      { type := T_FLAGGED_STORE, dest := 0xC000 + faDevice addr, addr := addr, length := bytes.length,
        segLen := bytes.length, data := bytes, credit := dCredit d.bits, counter := dCounter d.bits,
        key := s.keyField (dKeySlot d.bits) }, some {}) := if_neg h

/-- Settles O40: each row runs its descriptor, and what its operation answers is read off. -/
theorem controlDescriptors : Obligations.ControlDescriptors := by
  unfold Obligations.ControlDescriptors
  refine ⟨fun s tok d h => congrArg Host.Outcome.next (runDesc_ends {} h),
    fun s tok d h => congrArg Host.Outcome.next (runDesc_begins h),
    fun s tok d h => congrArg Host.Outcome.next (runDesc_begins h),
    fun s tok d hd hop hbegun hopen hfirst => exec_fenceComplete hd hop hbegun hopen hfirst,
    fun s tok d h hlive => exec_abort_noTarget h hlive,
    fun s u tok t i d x h hlive hpast hu hx => exec_abort_target h hlive hpast hu hx,
    fun s u tok d c h hfirst hstore => exec_setFlag h hfirst hstore,
    fun s tok addr d bytes h => storeFlag_remote tok d bytes h,
    fun s tok d h => congrArg Host.Outcome.next (runDesc_ready _ h), ?weights,
    fun s tok d h hassist => exec_admitWeights_unassisted h hassist, ?modes⟩
  case weights =>
    rintro s tok n w r d h hassist hsrc hport rfl rfl
    exact exec_admitWeights_assisted h hassist hsrc hport
  case modes =>
    intro s path cycle v h
    by_cases htaken : bitsOf v 2 8 = 0 ∨ (s.assistPair (bitsOf v 16 3)).isSome = true
    · rw [if_pos htaken]
      exact congrArg Host.Outcome.next (guardPair_ok h rfl ((effFnMode_eq v _).trans (if_pos htaken)))
    · rw [if_neg htaken]
      exact congrArg Host.Outcome.next (guardPair_rejected h rfl ((effFnMode_eq v _).trans (if_neg htaken)))

end Sys2Proof.Machine
end

section

namespace Sys2Proof.Machine

/-! ## COPY and FILL (R114, R516, R517) -/

/-- The row of a COPY or a FILL runs its tiles by one definition. -/
theorem exec_copyFill (tok : Nat) (ext : List Byte) (fill : Bool) (s : State) :
    exec (if fill then .fill tok ext else .copy tok ext) s = .next (s.runTiles tok (if fill then 0x11 else 0x10)
      (copyRefused fill) (fun d _ => (copyPieces fill d.bits).map (copyNeeds fill d.bits))
      (fun d done stop s => s.copyRun tok d fill ext done stop)) := by
  cases fill <;> rfl

section
variable {s : State} {tok op : Nat} {d : Desc}

/-- A row that its check refuses ends with what the check says, before anything is translated. -/
theorem runTiles_refused {c : Cpl} (check : Desc → State → Option Cpl) (tiles : Desc → State → List (List Need))
    (k : Desc → List (List (List Seg)) → Option Cpl → State → State × Option Cpl) (h : s.ready tok op d)
    (hc : check d s = some c) : s.runTiles tok op check tiles k = (s.begun tok d).opEnd tok c := by
  obtain ⟨hd, hop, hmay, -⟩ := id h
  rw [State.runTiles, hd]
  dsimp only
  rw [if_pos ⟨hop, hmay⟩, hc]
  exact runDesc_ends c h

theorem copyRefused_lost {fill : Bool} (h : s.units.lostDies.contains (homeDie (s.srcCtx d.src)) = true) :
    copyRefused fill d s = some { status := ST_INTERNAL, dropped := (copyPieces fill d.bits).length } := if_pos h

theorem copyRun_eq {r : State × Bool × List Byte} (fill : Bool) (ext : List Byte) (done : List (List (List Seg)))
    (stop : Option Cpl)
    (hr : (List.zip (copyPieces fill d.bits) done).foldl (State.copyStep tok d fill) (s, false, ext) = r) :
    s.copyRun tok d fill ext done stop = (r.1, some (
      match stop with
      | some c => { c with done := done.length, dropped := (copyPieces fill d.bits).length - done.length }
      | none => { (if r.2.1 then cpl ST_POISONED 0 else {}) with
          done := done.length, dropped := (copyPieces fill d.bits).length - done.length
          result := (((copyPieces fill d.bits).take done.length).map Prod.snd).foldl (· + ·) 0 })) := by
  rw [State.copyRun]
  dsimp only
  rw [hr]
  cases stop <;> rfl

end

/-- A read whose POISON mask is 0 has no bad byte. -/
theorem badAt_clean (a i : Nat) : badAt (a, 0) i = false := Nat.zero_testBit _

theorem any_badAt_clean (a n : Nat) : (List.range n).any (badAt (a, 0)) = false :=
  List.any_eq_false.2 (fun i _ => by rw [badAt_clean]; exact Bool.false_ne_true)

/-- With no poison read, what follows the write of a piece to a virtual address changes nothing. -/
theorem writePiece_clean (s : State) (n a : Nat) (segs : List Seg) :
    (match segs with
      | ⟨false, x, _⟩ :: _ => if (List.range n).any (badAt (a, 0)) then s.poisonCopy x n (a, 0) else s
      | _ => s) = s := by
  rw [any_badAt_clean]
  split <;> rfl

/-- A piece of a FILL to a virtual address: its pattern is written there, and no poison was read. -/
theorem copyPiece_fill (s : State) (tok off n : Nat) {d : Desc} (ext : List Byte) (segs : List (List Seg))
    (hdst : cpDstFab d.bits = false) :
    s.copyPiece tok d true ext (off, n) segs = (State.writeSegs tok d (descCredit d) (segs.getLastD [])
      ((List.range n).map (fun i => (cpPattern d.bits).getD ((off + i) % 8) 0)) s, false, ext) := by
  rw [State.copyPiece]
  simp only [hdst, Bool.not_true, Bool.false_and, Bool.false_eq_true, if_true, if_false]
  exact Prod.ext (writePiece_clean ..) (Prod.ext (any_badAt_clean ..) rfl)

/-- The POISON mask of a piece's source is 0: it lies in host memory, or it is served and its lines read good. -/
theorem sourceMask_good {s : State} {d : Desc} {n : Nat} {x : Seg}
    (h : x.host = true ∨ x.host = false ∧ s.descServed d = true ∧ s.homePoison x.addr n = 0) :
    (if !x.host && s.descServed d then s.homePoison x.addr n else if !x.host then 2 ^ 65 - 1 else 0) = 0 := by
  rcases h with hhost | ⟨hdev, hserved, hgood⟩
  · rw [hhost]
    rfl
  · rw [hdev, hserved, hgood]
    rfl

/-- A piece of a COPY between virtual addresses that do not overlap: what was read is written, none of it poisoned. -/
theorem copyPiece_copy {s t : State} {d : Desc} {l e ext : List Byte} {segs : List (List Seg)} {x : Seg} {bad : Bool}
    {n : Nat} (tok off : Nat) (hsrc : cpSrcFab d.bits = false) (hdst : cpDstFab d.bits = false)
    (hoverlap : copyOverlap d.bits = false) (hx : x = (segs.headD []).headD ⟨true, 0, 0⟩)
    (hgood : x.host = true ∨ x.host = false ∧ s.descServed d = true ∧ s.homePoison x.addr n = 0)
    (hread : State.readSegs d (segs.headD []) ext s = (t, l, bad, e)) :
    s.copyPiece tok d false ext (off, n) segs =
      (State.writeSegs tok d (descCredit d) (segs.getLastD []) l t, false, e) := by
  rw [State.copyPiece]
  simp only [hsrc, hdst, hoverlap, hread, ← hx, sourceMask_good hgood, Bool.not_false, Bool.and_false, Bool.or_false,
    Bool.not_true, Bool.false_eq_true, if_false]
  exact Prod.ext (writePiece_clean ..) (Prod.ext (any_badAt_clean ..) rfl)

/-- Settles O41: the row runs its tiles, each tile is one step of the copy, and a piece to a virtual address is one write. -/
theorem copyAndFill : Obligations.CopyAndFill := by
  unfold Obligations.CopyAndFill
  refine ⟨?moved, ?lost, ?step, fun s tok off n d ext segs hdst => copyPiece_fill s tok off n ext segs hdst, ?copied⟩
  case moved =>
    intro s s1 tok d ext done stop fill r hgranted hrefused hr
    rw [exec_copyFill, runTiles_granted _ _ _ hgranted hrefused, copyRun_eq fill ext done stop hr] <;> rfl
  case lost =>
    intro s tok d ext fill h hlost
    rw [exec_copyFill, runTiles_refused _ _ _ h (copyRefused_lost hlost)]
  case step =>
    intro s t tok d fill p q ext e x hpiece
    rw [State.copyStep, hpiece]
  case copied =>
    intro s t tok off n d ext l e segs x bad hsrc hdst hoverlap hx hgood hread
    exact copyPiece_copy tok off hsrc hdst hoverlap hx hgood hread

end Sys2Proof.Machine
end

section

namespace Sys2Proof.Machine

/-! ## Writes of FAB_PORT_CTRL (R139) -/

section
variable {s : State} {v : Word} {n : Nat} (hsel : n = s.fld F.FAB_PORT_SEL_PORT) (hlanes : bitsOf v 8 2 ≠ 3)
include hsel hlanes

/-- ENABLE set where it was clear. -/
theorem effPortCtrl_enables (henable : bitOf v 0 = true) (hkeep : bitOf v 1 = false) (hwas : (s.port n).enable = false) :
    effPortCtrl v s =
      ((s.setPort n { s.port n with enable := true, minLanes := bitsOf v 8 2 }).movePort n .detect, none) := by
  subst hsel
  simp only [effPortCtrl, if_neg hlanes, henable, hkeep, hwas, Bool.not_false, Bool.and_true, Bool.false_eq_true,
    if_true, if_false]

/-- ENABLE cleared where it was set. -/
theorem effPortCtrl_disables (hclear : bitOf v 0 = false) (hkeep : bitOf v 1 = false) (hwas : (s.port n).enable = true) :
    effPortCtrl v s = (((s.setPort n
      { s.port n with enable := false, minLanes := bitsOf v 8 2, width := 0, good := 0 }).movePort n .disabled).requeue n,
      none) := by
  subst hsel
  simp only [effPortCtrl, if_neg hlanes, hclear, hkeep, hwas, Bool.not_false, Bool.not_true, Bool.and_true,
    Bool.false_and, Bool.false_eq_true, if_true, if_false, State.port_setPort, State.setPort_setPort]

/-- RETRAIN of an enabled port: an up port trains again, a FAILED one starts over, any other stays. -/
theorem effPortCtrl_retrains (henable : bitOf v 0 = true) (hretrain : bitOf v 1 = true) (hwas : (s.port n).enable = true) :
    effPortCtrl v s =
      (let t := s.setPort n { s.port n with enable := true, minLanes := bitsOf v 8 2 }
       if (s.port n).up then t.movePort n .retrain
       else if (s.port n).state = .failed then t.movePort n .detect else t, none) := by
  subst hsel
  simp only [effPortCtrl, if_neg hlanes, henable, hretrain, hwas, Bool.not_true, Bool.and_false, Bool.false_and,
    Bool.false_eq_true, if_true, if_false, State.port_setPort]
  rfl

end

theorem Port.up_iff (p : Port) : p.up = true ↔ p.state = .active ∨ p.state = .degraded := by
  rw [Port.up, Bool.or_eq_true, beq_iff_eq, beq_iff_eq]

/-! ## The choice of a width (R140, R141) -/

/-- ALIGN ends: INIT at the width chosen, or FAILED where MIN_LANES allows none. -/
theorem exec_portAlignDone {s : State} {n : Nat} (good : Nat) (h : (s.port n).state = .align) :
    exec (.portAlignDone n good) s = .next (match chooseWidth (good % 256) (s.port n).minLanes with
      | some w => ((s.setPort n { s.port n with good := good % 256, width := w }).movePort n .init).sendNeighbour n
      | none => (s.setPort n { s.port n with good := good % 256 }).failPort n) := by
  refine congrArg Host.Outcome.next ((if_pos h).trans ?_)
  cases hw : chooseWidth (good % 256) (s.port n).minLanes with
  | some w => simp only [State.port_setPort, State.setPort_setPort, if_true, hw]
  | none => simp only [State.port_setPort, if_true, hw]

section
variable {s : State} {n good : Nat} (hstate : (s.port n).state = .retrain)
include hstate

/-- Lock regained with a width that MIN_LANES allows: a change of width is reported before the frames are sent again. -/
theorem exec_retrainLockRegained_chosen {w : Nat} (hw : chooseWidth (good % 256) (s.port n).minLanes = some w) :
    exec (.retrainLockRegained n good) s =
      let t := (s.setPort n { s.port n with good := good % 256, width := w, resends := 0 }).movePort n (upState w)
      .next (((if w ≠ (s.port n).width then t.event 0 (locPort n) w else t).resendFrames n).drainPort n) := by
  refine congrArg Host.Outcome.next ((if_pos hstate).trans ?_)
  simp only [State.port_setPort, State.setPort_setPort, if_true, hw]

theorem exec_retrainLockRegained_none (hw : chooseWidth (good % 256) (s.port n).minLanes = none) :
    exec (.retrainLockRegained n good) s = .next ((s.setPort n { s.port n with good := good % 256 }).failPort n) := by
  refine congrArg Host.Outcome.next ((if_pos hstate).trans ?_)
  simp only [State.port_setPort, if_true, hw]

end

/-! ## Time limits and NEIGHBOUR packets (R139, R156) -/

/-- Table 5-2: the states that bring-up passes through, all under its one time limit. -/
theorem exec_portBringupTimeout {s : State} {n : Nat} (h : (s.port n).state ∈ [.detect, .train, .align, .init]) :
    exec (.portBringupTimeout n) s = .next (s.failPort n) :=
  congrArg Host.Outcome.next (if_pos (by simpa only [List.mem_cons, List.not_mem_nil, or_false] using h))

theorem exec_neighbourTimer {s : State} {n : Nat} (h : (s.port n).up = true ∨ (s.port n).state = .init) :
    exec (.neighbourTimer n) s = .next (s.sendNeighbour n) :=
  congrArg Host.Outcome.next (if_pos (by rwa [Bool.or_eq_true, beq_iff_eq]))

/-- NEIGHBOUR received in INIT: the port shows it and is up. -/
theorem exec_neighbour_init {s : State} {n : Nat} {p : Packet} (htype : p.type = T_NEIGHBOUR)
    (hstate : (s.port n).state = .init) :
    exec (.neighbour n p) s = .next ((s.setPort n
      { s.port n with neighbour := BitVec.ofNat 64 (p.operand % 2 ^ 22) }).movePort n (upState (s.port n).width)) :=
  congrArg Host.Outcome.next ((if_pos htype).trans (if_pos hstate))

/-- Settles O9: the three writes of FAB_PORT_CTRL are its effect; each other move is its guard met. -/
theorem portStates : Obligations.PortStates := by
  unfold Obligations.PortStates
  refine ⟨?enable, ?disable, ?retrain, fun s n lanes h hlanes => congrArg Host.Outcome.next (if_pos ⟨h, hlanes⟩),
    fun s n lanes h hlanes => congrArg Host.Outcome.next (if_pos ⟨h, hlanes⟩), fun s n good => exec_portAlignDone good,
    fun s n h => congrArg Host.Outcome.next (if_pos h), ?regained, fun s n good => exec_retrainLockRegained_none,
    fun s n => exec_portBringupTimeout, fun s n h => congrArg Host.Outcome.next (if_pos h),
    fun s n => exec_neighbourTimer, fun s n p => exec_neighbour_init⟩
  case enable =>
    intro s path cycle v hmay hlanes henable hkeep hwas
    exact congrArg Host.Outcome.next
      ((if_pos henable).trans (plainWrite_done hmay (effPortCtrl_enables rfl hlanes henable hkeep hwas)))
  case disable =>
    intro s path cycle v hmay hlanes hclear hkeep hwas
    have hcmd : (!bitOf v 0) = true := by rw [hclear]; rfl
    exact congrArg Host.Outcome.next
      ((if_pos hcmd).trans (plainWrite_done hmay (effPortCtrl_disables rfl hlanes hclear hkeep hwas)))
  case retrain =>
    intro s path cycle v hmay hlanes henable hretrain hwas hstate
    refine congrArg Host.Outcome.next ((if_pos hretrain).trans
      ((plainWrite_done hmay (effPortCtrl_retrains rfl hlanes henable hretrain hwas)).trans ?_))
    rcases hstate with hactive | hfailed
    · rw [if_pos ((Port.up_iff _).2 (.inl hactive)), if_pos hactive]
    · rw [if_neg (by rw [Port.up_iff, hfailed]; decide), if_pos hfailed, if_neg (by rw [hfailed]; decide)]
  case regained =>
    intro s n good w hstate hw
    rw [exec_retrainLockRegained_chosen hstate hw]
    dsimp only
    by_cases hsame : w = (s.port n).width
    · rw [if_neg (not_not_intro hsame), if_pos hsame]
      rfl
    · rw [if_pos hsame, if_neg hsame]
      rfl

end Sys2Proof.Machine
end

section

namespace Sys2Proof.Machine

/-! ## A host's request at its line (R183, R189, R190) -/

section
variable {s : State} {port dec off line slot : Nat} {req : HostReq}

/-- A line that nothing occupies has no recall outstanding, so no write to it is a recall's writeback (R192). -/
theorem isWriteback_free (h : Nat) (req : HostReq) (hbusy : s.lineBusy line = false) : s.isWriteback h line req = false := by
  obtain ⟨hleft, _⟩ := Bool.or_eq_false_iff.1 hbusy
  obtain ⟨hrecalls, _⟩ := Bool.or_eq_false_iff.1 hleft
  have none : s.dir.recalls.find line = none := Option.not_isSome_iff_eq_none.1 (Bool.eq_false_iff.1 hrecalls)
  rw [State.isWriteback, none]
  exact Bool.and_false _

/-- R200, R578: a new request for an extent in use, under an ACTIVE slot, is taken to its line. -/
theorem hostAtExtent_free {d : Nat} {e : Word} (req : HostReq) (hbusy : s.lineBusy (lineOf d) = false)
    (hstate : extState e ≠ EXT_REVOKING) (hkey : s.keyActive (extKey e) = true) :
    s.hostAtExtent port dec off d e req = (s.hostAtLine port (lineOf d) (extKey e) req).pump := by
  have active : ¬ (!s.keyActive (extKey e)) = true := by
    rw [hkey]
    exact Bool.false_ne_true
  unfold State.hostAtExtent
  dsimp only
  rw [isWriteback_free port req hbusy, if_neg hstate, if_neg active]
  cases req <;> rfl

theorem hostRequest_reaches (req : HostReq) (h : s.hostReaches port dec off line slot) :
    s.hostRequest port dec off req = (s.hostAtLine port line slot req).pump := by
  obtain ⟨hconf, hdec, hkey, hbusy, _, k, e, hext, hstate, rfl, rfl⟩ := h
  rw [State.hostRequest, if_neg (Bool.eq_false_iff.1 hconf), if_neg hdec, hext]
  exact hostAtExtent_free req hbusy hstate hkey

/-- R577: the crypto units serve an ACTIVE slot. -/
theorem serves_of_keyActive (h : s.keyActive slot = true) :
    ¬ (!((s.slot slot).phase == .active || (s.slot slot).phase == .retiring)) = true := by
  have active : ((s.slot slot).phase == .active) = true := h
  rw [active, Bool.true_or]
  exact Bool.false_ne_true

/-- R196, R198: the domain bars nothing of its lines while it is UP. -/
theorem domain_admits {d : Nat} (hup : s.dir.domain = .up) : ¬ (s.coherent d && s.dir.domain != .up) = true := by
  rw [hup, bne_self_eq_false, Bool.and_false]
  exact Bool.false_ne_true

theorem hostAtLine_served {t : State} (h : s.hostServe (.host port line slot req) port line slot req = (t, true)) :
    s.hostAtLine port line slot req = t := by
  rw [State.hostAtLine, h]

theorem hostAtLine_waits {t : State} (h : s.hostServe (.host port line slot req) port line slot req = (t, false)) :
    s.hostAtLine port line slot req = t.park (.host port line slot req) (t.anyHold [line]) := by
  rw [State.hostAtLine, h]

/-- What a host gets on a line of no coherent extent. -/
def State.hostPlain (s : State) (port line slot : Nat) : HostReq → State
  | .rd _ | .rdData => s.hostData port line slot 0
  | .wr _ data mask => s.hostStoreCmp port line slot data mask
  | .inv | .invNt | .clnEvct => s.hostCmp port line

theorem hostServe_plain (w : Waiter) (hkey : s.keyActive slot = true) (hbusy : s.lineBusy line = false)
    (hrebuild : s.needsRebuild line = false) (hcoh : s.coherent (64 * line) = false) :
    s.hostServe w port line slot req = (s.hostPlain port line slot req, true) := by
  unfold State.hostServe
  rw [if_neg (serves_of_keyActive hkey), hcoh, hbusy, hrebuild]
  cases req <;> rfl

section
variable {w : Waiter} (hkey : s.keyActive slot = true) (hbusy : s.lineBusy line = false)
  (hcoh : s.coherent (64 * line) = true) (hup : s.dir.domain = .up)
include hkey hbusy hcoh hup

/-- Table 6-3: a request that needs no recall, and either takes no directory entry or finds room for one, is granted. -/
theorem hostServe_granted {s1 : State} (hrebuild : s.needsRebuild line = false)
    (hneeds : s.hostNeeds w port line req = none)
    (hroom : if req.grants then s.makeRoom line = (s1, true) else s1 = s) :
    s.hostServe w port line slot req = (s1.hostApply port line slot req, true) := by
  unfold State.hostServe
  rw [if_neg (serves_of_keyActive hkey), if_neg (domain_admits hup), hbusy, hcoh, hneeds, hrebuild]
  dsimp only
  by_cases hgrants : req.grants = true
  · rw [if_pos hgrants] at hroom
    rw [if_pos hgrants, hroom]
    rfl
  · rw [if_neg hgrants] at hroom
    rw [if_neg hgrants, hroom]
    rfl

/-- R190, R193: a request that needs a recall which no hold delays sends it. -/
theorem hostServe_recalls {snp : Snp} {hosts : Nat} (hhold : s.anyHold [line] = false)
    (hneeds : s.hostNeeds w port line req = some (snp, hosts)) :
    s.hostServe w port line slot req = (s.openRecall line snp hosts, false) := by
  unfold State.hostServe
  rw [if_neg (serves_of_keyActive hkey), if_neg (domain_admits hup), hbusy, hcoh, hneeds]
  dsimp only
  rw [hhold]
  rfl

end

/-! ## The rows of requests -/

theorem hostRequest_plain (req : HostReq) (h : s.hostReaches port dec off line slot)
    (hcoh : s.coherent (64 * line) = false) :
    s.hostRequest port dec off req = (s.hostPlain port line slot req).pump := by
  have ⟨_, _, hkey, hbusy, hrebuild, _⟩ := h
  rw [hostRequest_reaches req h, hostAtLine_served (hostServe_plain _ hkey hbusy hrebuild hcoh)]

theorem hostRequest_granted {s1 : State} (h : s.hostReaches port dec off line slot)
    (hcoh : s.coherent (64 * line) = true) (hup : s.dir.domain = .up)
    (hneeds : s.hostNeeds (.host port line slot req) port line req = none)
    (hroom : if req.grants then s.makeRoom line = (s1, true) else s1 = s) :
    s.hostRequest port dec off req = (s1.hostApply port line slot req).pump := by
  have ⟨_, _, hkey, hbusy, hrebuild, _⟩ := h
  rw [hostRequest_reaches req h, hostAtLine_served (hostServe_granted hkey hbusy hcoh hup hrebuild hneeds hroom)]

/-- The request waits for the recall it sent. -/
theorem hostRequest_recalls {snp : Snp} {hosts : Nat} (h : s.hostReaches port dec off line slot)
    (hcoh : s.coherent (64 * line) = true) (hup : s.dir.domain = .up) (hhold : s.anyHold [line] = false)
    (hneeds : s.hostNeeds (.host port line slot req) port line req = some (snp, hosts)) :
    s.hostRequest port dec off req = ((s.openRecall line snp hosts).park (.host port line slot req)
      ((s.openRecall line snp hosts).anyHold [line])).pump := by
  have ⟨_, _, hkey, hbusy, _⟩ := h
  rw [hostRequest_reaches req h, hostAtLine_waits (hostServe_recalls hkey hbusy hcoh hup hhold hneeds)]

end

/-- A read in S or A takes a directory entry; one in I takes none (Table 6-3). -/
theorem grants_rd {m : MetaVal} (h : m ≠ .invalid) : (HostReq.rd m).grants = true := by
  cases m with
  | invalid => exact absurd rfl h
  | shared => rfl
  | any => rfl

/-! ## What a grant leaves in the directory (Table 6-3) -/

@[simp] theorem dir_setEvt (s : State) (f : Fld) : (s.setEvt f).dir = s.dir := by rw [setEvt_onlyRegs s f]

/-- R258: counting an access is the tier's alone. -/
@[simp] theorem dir_touch (s : State) (key d len : Nat) (write : Bool) : (s.touch key d len write).dir = s.dir := by
  refine List.foldlRecOn (motive := fun t : State => t.dir = s.dir) _ _ rfl fun t ht b _ => ?_
  dsimp only
  rw [apply_ite State.dir, dir_setEvt, ite_self]
  exact ht

@[simp] theorem dir_hostData (s : State) (port line slot granted : Nat) : (s.hostData port line slot granted).dir = s.dir :=
  dir_touch s ..

theorem find_grant (s : State) (line : Nat) (k : DirKind) :
    (s.grant line k).dir.entries.find line = some { kind := k, hold := true, granted := s.dir.grants } :=
  Tab.find_put_self ..

/-! ## Accesses to BAR4 (R185) -/

theorem linePieces_within (n : Nat) {off len : Nat} (hpos : 0 < len) (hline : off % 64 + len ≤ 64) :
    linePieces (n + 1) off len = [(off, len)] := by
  have whole : min len (64 - off % 64) = len := by omega
  rw [linePieces, if_neg (Nat.ne_of_gt hpos)]
  dsimp only
  rw [whole, Nat.sub_self]
  cases n <;> rfl

theorem exec_bar4Access_read {s : State} {port off len : Nat} (data : List Byte) (hpos : 0 < len)
    (hline : off % 64 + len ≤ 64) (hin : ¬ s.decGib port 0 * extentSize ≤ off) :
    exec (.bar4Access port off len false data) s = exec (.memRd port 0 (off / 64 * 64) .invalid) s := by
  change execBar4Access port off len false data s = _
  rw [execBar4Access, linePieces_within _ hpos hline, List.foldl_cons, List.foldl_nil]
  dsimp only
  rw [if_neg Bool.false_ne_true, if_neg hin]
  rfl

/-- Settles O21: a request that reaches its line is served plainly, granted or queued behind its recall; one that no
decoder serves is dropped. -/
theorem hostRequests : Obligations.HostRequests := by
  unfold Obligations.HostRequests
  refine ⟨?plain, ?read, ?write, ?recalls, ?entry, ?dropped, fun s port dec off reason m => rfl,
    fun s port dec off => rfl, fun s port off len data => exec_bar4Access_read data⟩
  case plain =>
    intro s port dec off line slot m data mask h hcoh
    have served (req : HostReq) : (.next (s.hostRequest port dec off req) : Host.Outcome State Fault Refusal) =
        .next (s.hostPlain port line slot req).pump := congrArg _ (hostRequest_plain req h hcoh)
    exact ⟨served (.rd m), served .rdData, served (.rd m), served (.wr m data fullMask), served (.wr m data mask),
      served (.wr m data fullMask), served .inv, served .invNt, served .clnEvct⟩
  case read =>
    intro s s1 port dec off line slot m h hcoh hup hroom hm hneeds
    refine congrArg Host.Outcome.next (hostRequest_granted h hcoh hup hneeds ?_)
    rwa [if_pos (grants_rd hm)]
  case write =>
    intro s port dec off line slot m data mask h hcoh hup hneeds
    exact congrArg Host.Outcome.next (hostRequest_granted h hcoh hup hneeds rfl)
  case recalls =>
    intro s port dec off line slot m snp hosts h hcoh hup hhold hneeds hafter
    refine congrArg Host.Outcome.next ((hostRequest_recalls h hcoh hup hhold hneeds).trans ?_)
    rw [hafter]
  case entry =>
    intro s h line slot
    refine ⟨?_, find_grant s line (.owned h), Tab.find_del_self ..⟩
    rw [State.hostApply, dir_hostData]
    exact find_grant s line (.owned h)
  case dropped =>
    intro s port dec off m hdec
    refine ⟨fun hconf => congrArg Host.Outcome.next (if_pos hconf), fun hconf hext => congrArg Host.Outcome.next ?_⟩
    rw [State.hostRequest, if_neg (Bool.eq_false_iff.1 hconf), if_neg hdec, hext]

end Sys2Proof.Machine
end

section

namespace Sys2Proof.Machine

/-! ## Answers to recalls (R187, R188, R190, R191) -/

theorem othersOf_self : ∀ h < 8, othersOf (2 ^ h) h = 0 := by decide

section
variable {s : State} {port line : Nat} {r : Recall}

/-- A transaction that frees no entry for another line, and brings nobody the data alone, closes. -/
theorem closeRecall_plain (hevict : r.evict = false) (hsnp : r.snp ≠ .cur) :
    s.closeRecall line r = { s with dir := { s.dir with recalls := s.dir.recalls.del line } } := by
  rw [State.closeRecall, hevict]
  exact if_neg hsnp

/-- The answer of the one host asked closes the transaction, and what waited goes on. -/
theorem biRsp_last {snp : Snp} (rsp : Rsp) (hr : s.dir.recalls.find line = some r) (hhosts : r.hosts = 2 ^ port)
    (hport : port < 8) (hsnp : r.snp = snp) (hdata : snp ≠ .cur) (hevict : r.evict = false) : s.biRsp port line rsp =
      let t := s.recallAnswer line port snp rsp
      State.pump { t with dir := { t.dir with recalls := t.dir.recalls.del line } } := by
  subst hsnp
  have asked : r.hosts.testBit port = true := by rw [hhosts, Nat.testBit_two_pow_self]
  have last : othersOf r.hosts port = 0 := by rw [hhosts, othersOf_self port hport]
  rw [State.biRsp, hr]
  dsimp only
  rw [if_pos asked, last, if_pos rfl]
  exact congrArg State.pump (closeRecall_plain hevict hdata)

/-- While other hosts are awaited, the answer is noted. -/
theorem biRsp_noted (rsp : Rsp) (hr : s.dir.recalls.find line = some r) (hasked : r.hosts.testBit port = true)
    (hothers : othersOf r.hosts port ≠ 0) : s.biRsp port line rsp =
      let t := s.recallAnswer line port r.snp rsp
      { t with dir := { t.dir with recalls := t.dir.recalls.put line { r with hosts := othersOf r.hosts port } } } := by
  rw [State.biRsp, hr]
  dsimp only
  rw [if_pos hasked, if_neg hothers]

/-- R190: a host that keeps what it had changes no entry. -/
theorem recallAnswer_keeps (s : State) (line host : Nat) (snp : Snp) : s.recallAnswer line host snp .e = s := by
  rw [State.recallAnswer]
  cases s.dir.entries.find line with
  | none => rfl
  | some e => cases snp <;> rfl

theorem recallAnswer_invalidated {n : Nat} {hold : Bool}
    (he : s.dir.entries.find line = some { kind := .owned port, hold := hold, granted := n }) :
    s.recallAnswer line port .inv .i = s.clearEntry line := by
  rw [State.recallAnswer, he]
  exact if_pos rfl

theorem recallAnswer_shared {n : Nat} {hold : Bool}
    (he : s.dir.entries.find line = some { kind := .owned port, hold := hold, granted := n }) :
    s.recallAnswer line port .data .s = { s with dir := { s.dir with
      entries := s.dir.entries.put line { kind := .shared (2 ^ port), hold := hold, granted := n } } } := by
  rw [State.recallAnswer, he]
  exact if_pos rfl

/-! ## Conflicts and holds (R192, R193) -/

theorem exec_biConflict (hr : s.dir.recalls.find line = some r) (hasked : r.hosts.testBit port = true) :
    exec (.biConflict port line) s = .next (s.emit (.host port H_CONFLICT_ACK [line])) := by
  change execBiConflict port line s = _
  rw [execBiConflict, hr]
  exact congrArg Host.Outcome.next (if_pos hasked)

theorem exec_minHoldExpiry {e : DirEntry} (he : s.dir.entries.find line = some e) (hhold : e.hold = true) :
    exec (.minHoldExpiry line) s = .next (({ s with dir := { s.dir with
      entries := s.dir.entries.put line { e with hold := false } } }).pump) := by
  change execMinHoldExpiry line s = _
  rw [execMinHoldExpiry, he]
  exact congrArg Host.Outcome.next (if_pos hhold)

/-! ## The domain going down and being reset (R195 to R199) -/

theorem exec_biTimeout (hr : s.dir.recalls.find line = some r) (hasked : r.hosts.testBit port = true) :
    exec (.biTimeout port line) s = .next (s.domainDown port line) := by
  change execBiTimeout port line s = _
  rw [execBiTimeout, hr]
  exact congrArg Host.Outcome.next (if_pos hasked)

end

/-- The state once the walk, the lines `held` in A marked poisoned, has emptied the directory (R196). -/
def State.walked (s : State) (held : List Nat) : State :=
  let t := held.foldl (fun (s : State) l => s.markPoison .none l) s
  (({ t with dir := { t.dir with
    entries := [], domain := .down, poisoned := t.dir.poisoned + held.length
    waiters := t.dir.waiters.filter (fun w => !w.isRevoke) } }).setEvt F.DIR_EVT_WALK_DONE).pump

theorem exec_domainWalkDone {s : State} {l : Tab DirEntry} (hwalk : s.dir.domain = .walking) (hl : s.dir.entries = l) :
    exec .domainWalkDone s = .next (s.walked ((l.filter (fun e => match e.2.kind with
      | .owned _ => true | .shared _ => false)).map Prod.fst)) := by
  subst hl
  exact congrArg Host.Outcome.next (if_pos hwalk)

theorem markPoison_unheld {s : State} {line : Nat} (h : s.holdsWrites (64 * line) = false) :
    s.markPoison .none line = s.poisonLine line := if_neg (Bool.eq_false_iff.1 h)

/-- R97: marking a line poisoned touches memory alone. -/
@[simp] theorem dir_poisonLine (s : State) (line : Nat) : (s.poisonLine line).dir = s.dir := by
  rw [State.poisonLine, apply_ite State.dir, ite_self]

section
variable {s : State} {v : Word} (hset : v.getLsbD 0 = true)
include hset

theorem effDomainReset_down (hdown : s.dir.domain = .down) : effDomainReset v s =
    ((({ s with dir := { s.dir with domain := .up, entries := [] } }).setEvt F.DIR_EVT_RESET_DONE).setEvt
      F.IDN_RESET_CAUSE_DOMAIN, none) := by
  rw [effDomainReset, hset, if_neg (not_not_intro hdown)]
  rfl

theorem effDomainReset_refused (hdown : s.dir.domain ≠ .down) : effDomainReset v s = (s, some REG_STATE) := by
  rw [effDomainReset, hset, if_pos hdown]
  rfl

end

/-- Settles O22: an answer by what was asked and whom else, the domain by what its walk finds, its reset by its state. -/
theorem recallsAndDomain : Obligations.RecallsAndDomain := by
  unfold Obligations.RecallsAndDomain
  refine ⟨?invalidated, ?kept, ?shared, fun s port line r => exec_biConflict, fun s line e => exec_minHoldExpiry,
    ?timeout, ?walkNone, ?walkOne, ?reset⟩
  case invalidated =>
    rintro s port line _ n r hold hr hhosts hport hsnp hevict he rfl
    refine congrArg Host.Outcome.next ((biRsp_last .i hr hhosts hport hsnp (by decide) hevict).trans ?_)
    rw [recallAnswer_invalidated he]
    rfl
  case kept =>
    intro s port line r hr hasked hothers hsnp
    refine congrArg Host.Outcome.next ((biRsp_noted .e hr hasked hothers).trans ?_)
    rw [recallAnswer_keeps]
  case shared =>
    intro s port line n r hold hr hhosts hport hsnp hevict he
    refine congrArg Host.Outcome.next ((biRsp_last .s hr hhosts hport hsnp (by decide) hevict).trans ?_)
    rw [recallAnswer_shared he]
  case timeout =>
    intro s port line r hr hasked hup
    rw [exec_biTimeout hr hasked]
    exact congrArg Host.Outcome.next (if_neg (not_not_intro hup))
  case walkNone =>
    intro s hwalk hnone
    refine (exec_domainWalkDone hwalk hnone).trans (congrArg Host.Outcome.next ?_)
    change s.walked [] = _
    rw [State.walked, List.foldl_nil]
    rfl
  case walkOne =>
    intro s line h n hold hwalk hone hunheld
    refine (exec_domainWalkDone hwalk hone).trans (congrArg Host.Outcome.next ?_)
    change s.walked [line] = _
    rw [State.walked, List.foldl_cons, List.foldl_nil, markPoison_unheld hunheld, dir_poisonLine]
    rfl
  case reset =>
    intro s path cycle v h hset
    split
    next hdown => exact congrArg Host.Outcome.next (guardPair_ok h rfl (effDomainReset_down hset hdown))
    next hup => exact congrArg Host.Outcome.next (guardPair_rejected h rfl (effDomainReset_refused hset hup))

end Sys2Proof.Machine
end

section

namespace Sys2Proof.Machine

/-! ## Extents (R184, R200) -/

section
variable {s : State} {v : Word} (hdec : extDec v ≠ 3)
include hdec

/-- R184: a FREE extent becomes ACTIVE where no check fails; the first that fails shows in HIF_EXT_ERR. -/
theorem effExtEntry_activates (hold : extState (s.ext (s.fld F.HIF_EXT_SEL_EXT)) = EXT_FREE)
    (hnew : extState v = EXT_ACTIVE) : effExtEntry v s = match s.extFails (s.fld F.HIF_EXT_SEL_EXT) v with
      | some r => (s.extErr (s.fld F.HIF_EXT_SEL_EXT) r, some REG_STATE)
      | none => ({ s with host := { s.host with ext := s.host.ext.put (s.fld F.HIF_EXT_SEL_EXT) v } }, none) := by
  have valid : ¬ (extState v = 3 ∨ extDec v = 3) := not_or.2 ⟨by rw [hnew]; decide, hdec⟩
  exact (if_neg valid).trans (if_pos ⟨hold, hnew⟩)

/-- R200: the write that withdraws an ACTIVE extent. -/
theorem effExtEntry_revokes (hold : extState (s.ext (s.fld F.HIF_EXT_SEL_EXT)) = EXT_ACTIVE)
    (hnew : extState v = EXT_REVOKING) : effExtEntry v s = (s.startRevoke (s.fld F.HIF_EXT_SEL_EXT), none) := by
  have valid : ¬ (extState v = 3 ∨ extDec v = 3) := not_or.2 ⟨by rw [hnew]; decide, hdec⟩
  have used : ¬ (extState (s.ext (s.fld F.HIF_EXT_SEL_EXT)) = EXT_FREE ∧ extState v = EXT_ACTIVE) :=
    fun h => absurd (hold.symm.trans h.1) (by decide)
  exact (if_neg valid).trans ((if_neg used).trans (if_pos ⟨hold, hnew⟩))

end

theorem exec_hifExtEntryWrite_activates {s g : State} {path cycle k : Nat} {v : Word}
    (h : s.pairReady path Reg.HIF_EXT_ENTRY v cycle) (hdec : extDec v ≠ 3) (hg : g = s.setGuard path none)
    (hk : k = s.fld F.HIF_EXT_SEL_EXT) (hold : extState (s.ext k) = EXT_FREE) (hnew : extState v = EXT_ACTIVE) :
    exec (.hifExtEntryWrite path (~~~v) cycle) s = match g.extFails k v with
      | none => .next { g with host := { s.host with ext := s.host.ext.put k v } }
      | some r => .next ((g.extErr k r).logReject B_HIF Reg.HIF_EXT_ENTRY v REG_STATE path) := by
  subst hg hk
  have eff := effExtEntry_activates (s := s.setGuard path none) hdec hold hnew
  rw [fld_setGuard] at eff
  cases hfails : (s.setGuard path none).extFails (s.fld F.HIF_EXT_SEL_EXT) v with
  | none =>
    rw [hfails] at eff
    exact congrArg Host.Outcome.next (guardPair_ok h rfl eff)
  | some r =>
    rw [hfails] at eff
    exact congrArg Host.Outcome.next (guardPair_rejected h rfl eff)

/-! ## Layouts, port slices and decoders (R182, R632) -/

section
variable {s : State} {v : Word} {p : Nat}

theorem effLayout_stored (hp : p = s.fld F.HIF_PORT_SEL_PORT) (hfree : (s.hport p).committed = 0)
    (hrange : bitsOf v 0 11 ≤ 1152 ∧ bitsOf v 22 10 ≤ 512) :
    effLayout v s = (s.setHport p { s.hport p with layout := v }, none) := by
  subst hp
  have valid : ¬ (1152 < bitsOf v 0 11 ∨ 512 < bitsOf v 22 10) :=
    not_or.2 ⟨Nat.not_lt.2 hrange.1, Nat.not_lt.2 hrange.2⟩
  rw [effLayout]
  exact (if_neg (not_not_intro hfree)).trans (if_neg valid)

theorem effLayout_committed (hp : p = s.fld F.HIF_PORT_SEL_PORT) (hcommitted : (s.hport p).committed ≠ 0) :
    effLayout v s = (s, some REG_STATE) := by
  subst hp
  exact if_pos hcommitted

theorem effPortCfg_stored (hp : p = s.fld F.HIF_PORT_SEL_PORT) (hslice : s.sliceExists (bitsOf v 0 6) = true)
    (hunbound : s.host.ext.any (fun _ e => extInUse e && extPort e == p && decide (extDec e < 2)) = false) :
    effPortCfg v s = (s.setHport p { s.hport p with cfg := BitVec.ofNat 32 (bitsOf v 0 6) }, none) := by
  subst hp
  rw [effPortCfg, hslice, hunbound, Bool.and_false]
  rfl

/-- R182: a decoder whose size agrees with the layout is committed, any other marked in error. -/
theorem exec_hdmDecoderCommit {port dec base sizeGib : Nat} (hdec : dec < 3) :
    exec (.hdmDecoderCommit port dec base sizeGib) s = if sizeGib = s.decGib port dec
      then .next (s.setHport port { s.hport port with
        committed := (s.hport port).committed ||| 2 ^ dec
        decErr := maskOf ((maskBits (s.hport port).decErr 3).filter (· != dec))
        decBase := (s.hport port).decBase.set dec (base / 2 ^ 28 * 2 ^ 28) })
      else .next (s.setHport port { s.hport port with decErr := (s.hport port).decErr ||| 2 ^ dec }) := by
  have known : ¬ 3 ≤ dec := Nat.not_le.2 hdec
  split
  next hsize => exact congrArg Host.Outcome.next ((if_neg known).trans (if_pos hsize))
  next hsize => exact congrArg Host.Outcome.next ((if_neg known).trans (if_neg hsize))

end

/-! ## Shared-range commits (R203) -/

/-- R203: a range that was not VALID becomes so where no check fails; the first that fails shows in HIF_EXT_ERR. -/
theorem effShrCommit_validates {s : State} {v : Word} {r : Nat} {e : BitVec 128} (hr : r = s.fld F.HIF_SHR_SEL_RANGE)
    (he : e = s.host.shrDesc.get 0 r) (hcommit : v.getLsbD 0 = true) (hold : shValid (s.shrLive r) = false)
    (hnew : shValid e = true) : effShrCommit v s = match s.shrFails r e with
      | some x => (s.extErr r x, some REG_STATE)
      | none => (({ s with host := { s.host with
          shrLive := s.host.shrLive.put r e, shrClosing := s.host.shrClosing.filter (· != r) } }).setShared r
            { slots := [(0, { version := 1 }), (1, { version := 0 })], newest := 0, draft := 1 }, none) := by
  subst hr he
  unfold effShrCommit
  dsimp only
  rw [hcommit, hold, hnew]
  rfl

theorem exec_hifShrCommit_validates {s g : State} {path cycle r : Nat} {v : Word} {e : BitVec 128}
    (h : s.pairReady path Reg.HIF_SHR_COMMIT v cycle) (hg : g = s.setGuard path none) (hr : r = s.fld F.HIF_SHR_SEL_RANGE)
    (he : e = s.host.shrDesc.get 0 r) (hcommit : v.getLsbD 0 = true) (hold : shValid (s.shrLive r) = false)
    (hnew : shValid e = true) : exec (.hifShrCommit path (~~~v) cycle) s = match g.shrFails r e with
      | some x => .next ((g.extErr r x).logReject B_HIF Reg.HIF_SHR_COMMIT v REG_STATE path)
      | none => .next (({ g with host := { s.host with
          shrLive := s.host.shrLive.put r e, shrClosing := s.host.shrClosing.filter (· != r) } }).setShared r
            { slots := [(0, { version := 1 }), (1, { version := 0 })], newest := 0, draft := 1 }) := by
  subst hg
  have eff := effShrCommit_validates (s := s.setGuard path none) hr he hcommit hold hnew
  cases hfails : (s.setGuard path none).shrFails r e with
  | none =>
    rw [hfails] at eff
    exact congrArg Host.Outcome.next (guardPair_ok h rfl eff)
  | some x =>
    rw [hfails] at eff
    exact congrArg Host.Outcome.next (guardPair_rejected h rfl eff)

/-! ## Copies on write (R206) -/

/-- The state once the 64 KiB of a granule at `a` stand at `b` too, poisoned where the granule is. -/
def State.granuleCopied (s : State) (range a b : Nat) : State :=
  ((List.range 1024).filter (fun i => s.readsPoison (lineOf a + i))).foldl (fun s i => s.markPoison .none (lineOf b + i))
    (s.homeWrite .none (shKey (s.shrLive range)) b (s.homeRead (shKey (s.shrLive range)) a 65536).1)

/-- The range once the draft's map points at the copy `c` made. -/
def SharedRange.copied (x : SharedRange) (sl : ShrSlot) (granule : Nat) (c : Cow) : SharedRange :=
  { x with slots := x.slots.put x.draft { sl with map := sl.map.put granule c.spare }, cows := x.cows.erase c }

section
variable {s : State} {range granule : Nat} {c : Cow}
  (hc : (s.shared range).cows.find? (fun c => c.granule == granule) = some c)
include hc

theorem exec_cowCopyDone_noDraft (hdraft : (s.shared range).slots.find (s.shared range).draft = none) :
    exec (.cowCopyDone range granule) s =
      .next (s.setShared range { s.shared range with cows := (s.shared range).cows.erase c }) := by
  change execCowCopyDone range granule s = _
  rw [execCowCopyDone, hc]
  dsimp only
  rw [hdraft]

variable {sl : ShrSlot} (hdraft : (s.shared range).slots.find (s.shared range).draft = some sl) (hheld : c.held = [])
include hdraft hheld

/-- Without a place for the copy nothing is moved. -/
theorem exec_cowCopyDone_noSpare (hspare : s.shrAddr range c.spare 0 = none) : exec (.cowCopyDone range granule) s =
    .next (s.setShared range ((s.shared range).copied sl granule c)) := by
  change execCowCopyDone range granule s = _
  rw [execCowCopyDone, hc]
  dsimp only
  rw [hdraft]
  dsimp only
  rw [hspare, hheld]
  cases s.shrAddr range (sl.phys granule) 0 <;> rfl

theorem exec_cowCopyDone_copied {a b : Nat} {w w' : Word} (hfrom : s.shrAddr range (sl.phys granule) 0 = some (a, w))
    (hto : s.shrAddr range c.spare 0 = some (b, w')) : exec (.cowCopyDone range granule) s =
      .next ((s.granuleCopied range a b).setShared range ((s.shared range).copied sl granule c)) := by
  change execCowCopyDone range granule s = _
  rw [execCowCopyDone, hc]
  dsimp only
  rw [hdraft]
  dsimp only
  rw [hfrom, hto, hheld, State.granuleCopied, SharedRange.copied]
  dsimp only
  rw [List.foldl_nil]

end

/-- Settles O23: each write by the state of what it names and its checks, a copy by what its range still holds. -/
theorem hostRegisters : Obligations.HostRegisters := by
  unfold Obligations.HostRegisters
  refine ⟨?activate, ?revoke, fun s ext hstate hidle => congrArg Host.Outcome.next (if_pos ⟨hstate, hidle⟩), ?layout,
    ?portCfg, fun s port dec base sizeGib => exec_hdmDecoderCommit, ?commit, fun s range granule c => exec_cowCopyDone_noDraft,
    ?noSpare, ?copied⟩
  case activate =>
    intro s path cycle v h hdec hold hnew
    exact exec_hifExtEntryWrite_activates h hdec rfl rfl hold hnew
  case revoke =>
    intro s path cycle v h hdec hold hnew
    exact congrArg Host.Outcome.next (guardPair_ok h rfl (effExtEntry_revokes hdec hold hnew))
  case layout =>
    intro s path cycle v h hpart hcoh
    split
    next hfree => exact congrArg Host.Outcome.next (guardPair_ok h rfl (effLayout_stored rfl hfree ⟨hpart, hcoh⟩))
    next hcommitted => exact congrArg Host.Outcome.next (guardPair_rejected h rfl (effLayout_committed rfl hcommitted))
  case portCfg =>
    intro s path cycle v h hslice hunbound
    exact congrArg Host.Outcome.next (guardPair_ok h rfl (effPortCfg_stored rfl hslice hunbound))
  case commit =>
    intro s path cycle v h hcommit hold hnew
    exact exec_hifShrCommit_validates h rfl rfl rfl hcommit hold hnew
  case noSpare =>
    intro s range granule c sl hc hdraft hspare hheld
    exact exec_cowCopyDone_noSpare hc hdraft hheld hspare
  case copied =>
    intro s t range granule a b c sl w w' hc hheld hdraft hfrom hto ht
    rw [exec_cowCopyDone_copied hc hdraft hheld hfrom hto, State.granuleCopied, ht]
    rfl

end Sys2Proof.Machine
end

section

namespace Sys2Proof.Machine

/-! ## A snapshot descriptor's row (R211) -/

section
variable {s : State} {tok op : Nat} {d : Desc} {k : Desc → State → State × Option Cpl}

theorem descPort_ring {n : Nat} (s : State) (h : d.src = .ring n) : s.descPort d = some (rgPort (s.ring n).record) := by
  rw [State.descPort, h]

/-- R211: a descriptor of a fabric queue is no host's. -/
theorem snapCheck_subq {n : Nat} (s : State) (h : d.src = .subq n) : snapCheck d s = some (cpl ST_PERMISSION SNAP_HOST) := by
  have noPort : s.descPort d = none := by rw [State.descPort, h]
  rw [snapCheck, noPort]

/-- Beginning the descriptor touches nothing that R211 asks about. -/
theorem snapCheck_begun (s : State) (tok : Nat) (d : Desc) : snapCheck d (s.begun tok d) = snapCheck d s := rfl

theorem snapRun_refused {c : Cpl} (h : s.ready tok op d) (hc : snapCheck d s = some c) :
    s.snapRun tok op k = (s.begun tok d).opEnd tok c := by
  rw [State.snapRun, runDesc_ready _ h, snapCheck_begun, hc]

theorem snapRun_ends {t : State} {c : Cpl} (h : s.ready tok op d) (hc : snapCheck d s = none)
    (hk : k d (s.begun tok d) = (t, some c)) : s.snapRun tok op k = t.opEnd tok c := by
  rw [State.snapRun, runDesc_ready _ h, snapCheck_begun, hc]
  dsimp only
  rw [hk]

theorem snapRun_waits {t : State} (h : s.ready tok op d) (hc : snapCheck d s = none)
    (hk : k d (s.begun tok d) = (t, none)) : s.snapRun tok op k = t := by
  rw [State.snapRun, runDesc_ready _ h, snapCheck_begun, hc]
  dsimp only
  rw [hk]

end

/-! ## SNAP_OPEN and SNAP_CLOSE (R209, R210) -/

section
variable {s : State} {d : Desc} {x : SharedRange} (hx : s.shared (snRange d.bits) = x)
include hx

/-- The port becomes a holder of the newest version. -/
theorem snapOpen_newest {p : Nat} {sl : ShrSlot} (hlatest : snLatest d.bits = true) (hport : s.descPort d = some p)
    (hsl : x.slots.find x.newest = some sl) : s.snapOpen d =
      (s.setShared (snRange d.bits) { x with slots := x.slots.put x.newest { sl with holders := sl.holders ||| 2 ^ p } },
       some { result := sl.version + at_ 32 x.newest }) := by
  subst hx
  rw [State.snapOpen, hlatest, if_pos rfl, hsl, hport]
  rfl

theorem snapOpen_gone (hlatest : snLatest d.bits = true) (hnone : x.slots.find x.newest = none) :
    s.snapOpen d = (s, some (cpl ST_VERSION_GONE SNAP_GONE)) := by
  subst hx
  rw [State.snapOpen, hlatest, if_pos rfl, hnone]
  rfl

/-- A hold is released; without one the descriptor is refused. -/
theorem snapClose_slot {p : Nat} {sl : ShrSlot} (hport : s.descPort d = some p)
    (hsl : x.slots.find (snSlot d.bits) = some sl) : s.snapClose d = if sl.holders.testBit p then
        (s.setShared (snRange d.bits) { x with
          slots := x.slots.put (snSlot d.bits) { sl with holders := othersOf sl.holders p } }, some {})
      else (s, some (cpl ST_PERMISSION SNAP_NOT_HELD)) := by
  subst hx
  rw [State.snapClose, hsl, hport]

end

theorem exec_snapOpen_newest {s : State} {tok n : Nat} {d : Desc} {x : SharedRange} (h : s.ready tok 0x90 d)
    (hsrc : d.src = .ring n) (hc : snapCheck d s = none) (hlatest : snLatest d.bits = true)
    (hx : s.shared (snRange d.bits) = x) : exec (.snapOpen tok) s = match x.slots.find x.newest with
      | some sl => .next (((s.begun tok d).setShared (snRange d.bits) { x with
          slots := x.slots.put x.newest { sl with holders := sl.holders ||| 2 ^ rgPort (s.ring n).record } }).opEnd tok
            { result := sl.version + at_ 32 x.newest })
      | none => .next ((s.begun tok d).opEnd tok (cpl ST_VERSION_GONE SNAP_GONE)) := by
  have shared : (s.begun tok d).shared (snRange d.bits) = x := hx
  cases hsl : x.slots.find x.newest with
  | some sl =>
    exact congrArg Host.Outcome.next
      (snapRun_ends h hc (snapOpen_newest shared hlatest (descPort_ring (s.begun tok d) hsrc) hsl))
  | none => exact congrArg Host.Outcome.next (snapRun_ends h hc (snapOpen_gone shared hlatest hsl))

theorem exec_snapClose {s : State} {tok n : Nat} {d : Desc} {x : SharedRange} {sl : ShrSlot} (h : s.ready tok 0x91 d)
    (hsrc : d.src = .ring n) (hc : snapCheck d s = none) (hx : s.shared (snRange d.bits) = x)
    (hsl : x.slots.find (snSlot d.bits) = some sl) :
    exec (.snapClose tok) s = if sl.holders.testBit (rgPort (s.ring n).record)
      then .next (((s.begun tok d).setShared (snRange d.bits) { x with
        slots := x.slots.put (snSlot d.bits)
          { sl with holders := othersOf sl.holders (rgPort (s.ring n).record) } }).opEnd tok {})
      else .next ((s.begun tok d).opEnd tok (cpl ST_PERMISSION SNAP_NOT_HELD)) := by
  have shared : (s.begun tok d).shared (snRange d.bits) = x := hx
  have closed := snapClose_slot shared (descPort_ring (s.begun tok d) hsrc) hsl
  split
  next hheld => exact congrArg Host.Outcome.next (snapRun_ends h hc (closed.trans (if_pos hheld)))
  next hfree => exact congrArg Host.Outcome.next (snapRun_ends h hc (closed.trans (if_neg hfree)))

/-! ## Publishing (R208) -/

/-- The draft becomes the newest version in its slot, one above the last, and goes on in slot `k`. -/
theorem publishNow_takes {x : SharedRange} {d n : ShrSlot} {k : Nat} (hwhole : x.broken = false)
    (hd : x.slots.find x.draft = some d) (hn : x.slots.find x.newest = some n)
    (hk : firstFree (fun k => !x.slots.has k) 16 = some k) : x.publishNow =
      ({ x with slots := (x.slots.put x.draft { d with version := n.version + 1 }).put k { version := 0, map := d.map }
                newest := x.draft, draft := k }, some { result := slotVersion (n.version + 1) x.draft }) := by
  rw [SharedRange.publishNow, hd, hn, hwhole]
  dsimp only
  rw [if_neg Bool.false_ne_true, hk]

/-- Settles O24: each command by what it answers, a snapshot descriptor by what R211 says and what its range holds. -/
theorem hostCommandsAndSnapshots : Obligations.HostCommandsAndSnapshots := by
  unfold Obligations.HostCommandsAndSnapshots
  refine ⟨fun s port => ⟨rfl, rfl, rfl, rfl, rfl, rfl⟩, ?opens, ?closes,
    fun s tok d h hc => congrArg Host.Outcome.next (snapRun_waits h hc rfl),
    fun s tok d h hc => congrArg Host.Outcome.next (snapRun_waits h hc rfl),
    fun s tok n d h hsrc => congrArg Host.Outcome.next (snapRun_refused h (snapCheck_subq s hsrc)), ?publishes⟩
  case opens =>
    intro s tok n d h hsrc hc hlatest
    exact exec_snapOpen_newest h hsrc hc hlatest rfl
  case closes =>
    intro s tok n d sl h hsrc hc hsl
    exact exec_snapClose h hsrc hc rfl hsl
  case publishes =>
    intro x d n k hwhole hd hn hk hother
    rw [publishNow_takes hwhole hd hn hk]
    exact ⟨rfl, rfl, (Tab.find_put_other _ _ hother.symm).trans (Tab.find_put_self ..), Tab.find_put_self ..⟩

end Sys2Proof.Machine
end

section

namespace Sys2Proof.Machine

/-! ## Function-level reset (R637, R639, R640) -/

section
variable {s : State} {p : Nat}

/-- R637: a reset in progress takes another in. -/
theorem fnReset_again (h : s.boot.fnReset.contains p = true) : s.fnReset p = s := if_pos h

theorem fnReset_begins (h : s.boot.fnReset.contains p = false) :
    s.fnReset p = ((((((State.setEvt { s with boot := { s.boot with fnReset := s.boot.fnReset ++ [p] } }
      F.IDN_RESET_CAUSE_FUNCTION).dropPairs p).dropAssists p).endConf p).dropVersions p).resetPath p) :=
  if_neg (Bool.eq_false_iff.1 h)

theorem effFnReset_resets (s : State) {v : Word} (hreset : bitOf v 8 = true) :
    effFnReset v s = ((s.setFld F.IDN_FN_RESET_PORT (bitsOf v 0 3)).fnReset (bitsOf v 0 3), none) := by
  rw [effFnReset, hreset]
  rfl

/-- The reset is done once the descriptors that have finished leave none of the port's behind. -/
theorem exec_fnResetDone {u : State} (h : s.boot.fnReset.contains p = true)
    (hu : (s.rings.descs.filter (fun e => s.onPort p e.2.src && e.2.gone && e.2.finished)).foldl
      (fun (s : State) e => s.dropDesc e.1) s = u) :
    exec (.fnResetDone p) s = .next (if u.rings.descs.any (fun _ d => u.onPort p d.src && d.gone) then u else
      State.setEvt { u with boot := { u.boot with fnReset := u.boot.fnReset.filter (fun q => q != p) } }
        F.IDN_EVT_FN_RESET_DONE) := by
  have resetting : ¬ (!s.boot.fnReset.contains p) = true := by
    rw [h]
    exact Bool.false_ne_true
  change execFnResetDone p s = _
  rw [execFnResetDone, if_neg resetting]
  dsimp only
  rw [hu]

/-! ## Host links (R180, R661) -/

/-- A link that goes down resets its port's function. -/
theorem linkChange_eq {u : State} {rate width : Nat}
    (hu : ((s.setHport p { s.hport p with up := rate != 0 && width != 0, rate := rate, width := width }).setEvt
      F.HIF_EVT_LINK_CHANGE).event 0 (locHostPort p) (rate + at_ 8 width) = u) :
    s.linkChange p rate width = if (s.hport p).up = true ∧ (rate = 0 ∨ width = 0) then u.fnReset p else u := by
  have goesDown : ((s.hport p).up && !(rate != 0 && width != 0)) = true ↔
      (s.hport p).up = true ∧ (rate = 0 ∨ width = 0) := by
    rw [Bool.and_eq_true, Bool.not_eq_true', Bool.and_eq_false_iff, bne_eq_false_iff_eq, bne_eq_false_iff_eq]
  subst hu
  exact ite_congr (propext goesDown) (fun _ => rfl) (fun _ => rfl)

end

/-- Settles O42: a reset by whether one is in progress, its end by the descriptors left, a link by whether it goes down. -/
theorem functionResetsAndLinks : Obligations.FunctionResetsAndLinks := by
  unfold Obligations.FunctionResetsAndLinks
  refine ⟨?write, fun s p => rfl, fun s p => fnReset_again, fun s p => fnReset_begins, fun s u p => exec_fnResetDone,
    fun s u p rate width hu => congrArg Host.Outcome.next (linkChange_eq hu),
    fun s p => ⟨fun hup => congrArg Host.Outcome.next (if_pos hup), fun hdown => congrArg Host.Outcome.next ?down⟩⟩
  case write =>
    intro s path cycle v h hreset
    exact congrArg Host.Outcome.next (guardPair_ok h hreset (effFnReset_resets _ hreset))
  case down => exact if_neg (Bool.eq_false_iff.1 hdown)

end Sys2Proof.Machine
end

section

namespace Sys2Proof

/-- A table of one entry is empty without it. -/
theorem Tab.del_singleton {α : Type} (k : Nat) (x : α) : Tab.del [(k, x)] k = [] :=
  List.filter_eq_nil_iff.2 (by simp)

namespace Machine

/-! ## Context commits (R217) -/

section
variable {s : State} {v : Word} {c : Nat} {r : BitVec 256} {ms : List (BitVec 128)} (hcommit : bitOf v 0 = true)
  (hc : c = s.fld F.XLT_CTX_SEL_CTX) (hr : r = s.xlt.shadow.get 0 c)
  (hms : ms = (List.range 8).map (fun i => s.xlt.mshadow.get 0 (8 * c + i)))
include hcommit hc hr hms

theorem effCtxCommit_refused {reason : Nat} (hfails : s.ctxFails r ms = some reason) : effCtxCommit v s =
    ((s.setWord Reg.XLT_CTX_ERR (BitVec.ofNat 32 (reason + at_ 16 c))).setEvt F.XLT_EVT_CTX_REFUSED, some REG_STATE) := by
  subst hc hr hms
  unfold effCtxCommit
  dsimp only
  rw [hcommit, hfails]
  rfl

theorem effCtxCommit_staged (hfails : s.ctxFails r ms = none) :
    effCtxCommit v s = ({ s with xlt := { s.xlt with pending := s.xlt.pending.put c (r, ms) } }, none) := by
  subst hc hr hms
  unfold effCtxCommit
  dsimp only
  rw [hcommit, hfails]
  rfl

end

/-- The guard is no part of what R217 checks. -/
theorem ctxFails_setGuard (s : State) (path : Nat) (g : Option Guard) (r : BitVec 256) (ms : List (BitVec 128)) :
    (s.setGuard path g).ctxFails r ms = s.ctxFails r ms := rfl

theorem exec_xltCtxCommit {s g : State} {path cycle c : Nat} {v : Word} {r : BitVec 256} {ms : List (BitVec 128)}
    (h : s.pairReady path Reg.XLT_CTX_COMMIT v cycle) (hcommit : bitOf v 0 = true) (hg : g = s.setGuard path none)
    (hc : c = s.fld F.XLT_CTX_SEL_CTX) (hr : r = s.xlt.shadow.get 0 c)
    (hms : ms = (List.range 8).map (fun i => s.xlt.mshadow.get 0 (8 * c + i))) :
    exec (.xltCtxCommit path (~~~v) cycle) s = match s.ctxFails r ms with
      | some reason => .next (((g.setWord Reg.XLT_CTX_ERR (BitVec.ofNat 32 (reason + at_ 16 c))).setEvt
          F.XLT_EVT_CTX_REFUSED).logReject B_XLT Reg.XLT_CTX_COMMIT v REG_STATE path)
      | none => .next { g with xlt := { s.xlt with pending := s.xlt.pending.put c (r, ms) } } := by
  subst hg
  cases hfails : s.ctxFails r ms with
  | some reason =>
    have refused := effCtxCommit_refused (s := s.setGuard path none) hcommit hc hr hms
      ((ctxFails_setGuard ..).trans hfails)
    exact congrArg Host.Outcome.next (guardPair_rejected h rfl refused)
  | none =>
    have staged := effCtxCommit_staged (s := s.setGuard path none) hcommit hc hr hms
      ((ctxFails_setGuard ..).trans hfails)
    exact congrArg Host.Outcome.next (guardPair_ok h rfl staged)

theorem applyContexts_single {s : State} {c : Nat} {r : BitVec 256} {ms : List (BitVec 128)}
    (h : s.xlt.pending = [(c, r, ms)]) : s.applyContexts = ((({ s with xlt := { s.xlt with
      committed := s.xlt.committed.put c r
      mranges := (List.range 8).foldl (fun t i => t.put (8 * c + i) (ms.getD i 0)) s.xlt.mranges
      pending := [] } }).tlbDrop (fun x => x.ctx == c) (fun c' _ => c' == c)).setEvt F.XLT_EVT_CTX_APPLIED) := by
  rw [State.applyContexts, h, List.foldl_cons, List.foldl_nil]
  dsimp only
  rw [h, Tab.del_singleton]

/-! ## Misses (R225, R228, R232) -/

section
variable {s t : State} {tok va access : Nat} {d : Desc} (hd : s.desc tok = some d) (hlive : d.finished = false)
include hd hlive

/-- R232: a fault in pre-translation is kept for the round close, one of a running descriptor fails its access. -/
theorem exec_tlbMiss_fault {r : Nat} (hx : s.translate1 tok d va access = (t, .fault r)) :
    exec (.tlbMiss tok va access) s = if d.phase = .waiting
      then .next { t with xlt := { t.xlt with preFault := t.xlt.preFault.put tok (xlStatus r, r, va) } }
      else .next { t with xlt := { t.xlt with failed := t.xlt.failed ++ [(tok, t.srcCtx d.src, va / 4096, r)] } } := by
  change Host.Outcome.next (s.missRow tok va access) = _
  rw [State.missRow, hd]
  dsimp only
  rw [hlive, hx]
  exact apply_ite Host.Outcome.next (d.phase = .waiting) _ _

/-- A miss that finds a translation or waits leaves what translating the address leaves. -/
theorem exec_tlbMiss_unfaulted {x : X1} (hx : s.translate1 tok d va access = (t, x)) (hok : ∀ r, x ≠ .fault r) :
    exec (.tlbMiss tok va access) s = .next t := by
  change Host.Outcome.next (s.missRow tok va access) = _
  rw [State.missRow, hd]
  dsimp only
  rw [hlive, hx]
  cases x with
  | fault r => exact absurd rfl (hok r)
  | hit _ => rfl
  | wait => rfl

end

theorem exec_missTimeout {s : State} {req : Nat} {a : AssistReq} (ha : s.xlt.assist.find req = some a)
    (hkind : a.kind = 1) : exec (.missTimeout req) s = .next ((({ s with xlt := { s.xlt with
      assist := s.xlt.assist.del req } }).failWaits a.ctx a.va 1 XL_MISS_TIMEOUT).setEvt F.XLT_EVT_MISS_TIMEOUT) := by
  change execMissTimeout req s = _
  rw [execMissTimeout, ha]
  exact congrArg Host.Outcome.next (if_pos hkind)

/-! ## The end of a walk (R226, R229) -/

/-- The state in which a walk has ended and been counted. -/
def State.walkOver (s : State) (w : Walk) : State :=
  { s with xlt := { s.xlt with walks := s.xlt.walks.erase w, walkCount := s.xlt.walkCount + 1 } }

/-- A walk of the current generation that finds every entry it needs ends as `walkEnd` says. -/
theorem exec_walkDone {s : State} {ctx va : Nat} {host : List Nat} {w : Walk} {r : Walked}
    (hw : s.xlt.walks.find? (fun w => w.ctx == ctx && w.va / 4096 == va / 4096) = some w) (hgen : w.gen = s.xltGen ctx)
    (hr : s.walk w.key ctx w.va host = r) (hread : r ≠ .need) :
    exec (.walkDone ctx va host) s = .next ((s.walkOver w).walkEnd w r) := by
  change execWalkDone ctx va host s = _
  rw [execWalkDone, hw]
  dsimp only
  rw [if_neg (not_not_intro hgen), hr]
  cases r with
  | need => exact absurd rfl hread
  | ok _ _ _ _ => rfl
  | fault _ _ _ _ _ _ => rfl

/-- A fault that asks for no migration fails the accesses that wait. -/
theorem walkEnd_fault {s : State} {w : Walk} {reason e level a : Nat} {last lh : Bool}
    (h : (last && asksMigration e level && s.migMode w.ctx w.va != 0) = false) :
    s.walkEnd w (.fault reason last e level lh a) = s.failWaits w.ctx w.va 1 reason := if_neg (Bool.eq_false_iff.1 h)

/-! ## Migrations (R234 to R238) -/

/-- A leaf that still holds its value is cleared, and the page's translations go (steps 1 to 3 of Table 7-7). -/
theorem startMigration_clears {s u : State} {c va key e level a given pool : Nat} {lh : Bool}
    (hpool : s.freePage c (levelSize level) = some pool) (hleaf : s.leafNow key lh a given = e)
    (hu : s.writeLeaf c key lh a (leafClear e) = u) : s.startMigration c va key e level lh a given =
      State.dropPage { u with xlt := { u.xlt with
        migrations := u.xlt.migrations ++ [{
          ctx := c, va := va / levelSize level * levelSize level, size := levelSize level
          leafHost := lh, leafAddr := a, leaf := e, pool := pool, key := key }]
        poolUsed := u.xlt.poolUsed.put pool (levelSize level) } }
        c (va / levelSize level * levelSize level) (levelSize level) := by
  rw [State.startMigration]
  dsimp only
  rw [hpool]
  dsimp only
  rw [if_neg (not_not_intro hleaf), hu]
  rfl

/-- A migration asked for begins where the walk still meets a leaf that asks for it. -/
theorem exec_migrationStart {s : State} {ctx va leaf : Nat} {host : List Nat} {m : Nat × Nat × Nat × Nat}
    {r e level a : Nat} {lh : Bool}
    (hm : s.xlt.migWanted.find? (fun m => m.1 == ctx && m.2.1 / 4096 == va / 4096) = some m)
    (hroom : s.xlt.migrations.length < 256) (hwalk : s.walk m.2.2.2 ctx m.2.1 host = .fault r true e level lh a)
    (hasks : asksMigration e level = true) : exec (.migrationStart ctx va host leaf) s = .next
      (State.startMigration { s with xlt := { s.xlt with migWanted := s.xlt.migWanted.erase m } } ctx m.2.1 m.2.2.2 e
        level lh a leaf) := by
  change execMigrationStart ctx va host leaf s = _
  rw [execMigrationStart, hm]
  dsimp only
  rw [if_neg (Nat.not_le.2 hroom), hwalk]
  exact congrArg Host.Outcome.next (if_pos hasks)

theorem exec_migrationCopyDone {s : State} {ctx va leaf : Nat} {data : List Byte} {m : Migration}
    (hm : s.xlt.migrations.find? (fun m => m.ctx == ctx && decide (m.va ≤ va) && decide (va < m.va + m.size)) = some m)
    (hfree : s.heldBy none (fun x => x.ctx == ctx && decide (x.va < m.va + m.size)
      && decide (m.va < x.va + x.size * x.run)) = false) :
    exec (.migrationCopyDone ctx va data leaf) s = .next (s.endMigration m data leaf) := by
  change execMigrationCopyDone ctx va data leaf s = _
  rw [execMigrationCopyDone, hm]
  exact congrArg Host.Outcome.next (if_neg (Bool.eq_false_iff.1 hfree))

/-- The state in which a migration has written its page, and behind it the return record (step 4 of Table 7-7). -/
def State.migrationCopied (s : State) (m : Migration) (data : List Byte) : State :=
  let t := ({ s with xlt := { s.xlt with migrations := s.xlt.migrations.erase m } }).homeWrite .none m.key m.pool
    (data.take m.size ++ List.replicate (m.size - data.length) 0)
  t.homeWrite .none m.key (returnRecord (t.context m.ctx) m.pool) (leBytes 8 (teAddr m.leaf))

section
variable {s u : State} {m : Migration} {data : List Byte} {now : Nat} (hu : s.migrationCopied m data = u)
include hu

theorem endMigration_moves (h : u.leafNow m.key m.leafHost m.leafAddr now = leafClear m.leaf) :
    s.endMigration m data now =
      { u.writeLeaf m.ctx m.key m.leafHost m.leafAddr (leafMoved m.leaf 0 m.pool) with
        xlt := { (u.writeLeaf m.ctx m.key m.leafHost m.leafAddr (leafMoved m.leaf 0 m.pool)).xlt with
          migCount := (u.writeLeaf m.ctx m.key m.leafHost m.leafAddr (leafMoved m.leaf 0 m.pool)).xlt.migCount + 1 } } := by
  subst hu
  exact if_neg (not_not_intro h)

/-- A leaf that someone else has written keeps its page in host memory: the pool page is free again. -/
theorem endMigration_gives_up (h : u.leafNow m.key m.leafHost m.leafAddr now ≠ leafClear m.leaf) :
    s.endMigration m data now = { u with xlt := { u.xlt with poolUsed := u.xlt.poolUsed.del m.pool } } := by
  subst hu
  exact if_pos h

end

theorem exec_migrationTimeout {s : State} {ctx va : Nat} {m : Migration}
    (hm : s.xlt.migrations.find? (fun m => m.ctx == ctx && decide (m.va ≤ va) && decide (va < m.va + m.size)) = some m) :
    exec (.migrationTimeout ctx va) s = .next ((({ s with xlt := { s.xlt with
      migrations := s.xlt.migrations.erase m, poolUsed := s.xlt.poolUsed.del m.pool } }).failWaits ctx m.va m.size
        XL_MIG_TIMEOUT).setEvt F.XLT_EVT_MIG_FAILED) := by
  change execMigrationTimeout ctx va s = _
  rw [execMigrationTimeout, hm]
  rfl

/-- Settles O25: a commit by its checks, a miss by how its translation stands, a walk and a migration by what they find. -/
theorem contextsMissesAndMigrations : Obligations.ContextsMissesAndMigrations := by
  unfold Obligations.ContextsMissesAndMigrations
  refine ⟨fun s path cycle v h hcommit => exec_xltCtxCommit h hcommit rfl rfl rfl rfl,
    fun s c r ms => applyContexts_single, ?miss, ?walkFinds, ?walkFaults,
    fun s req a => exec_missTimeout, ?migrationStarts, fun s ctx va leaf data m => exec_migrationCopyDone, ?migrationEnds,
    fun s ctx va m => exec_migrationTimeout⟩
  case miss =>
    intro s t tok va access d x hd hlive hx
    cases x with
    | fault r => exact exec_tlbMiss_fault hd hlive hx
    | hit _ => exact exec_tlbMiss_unfaulted hd hlive hx nofun
    | wait => exact exec_tlbMiss_unfaulted hd hlive hx nofun
  case walkFinds =>
    intro s ctx va host w x e a lh hw hgen hr
    exact exec_walkDone hw hgen hr nofun
  case walkFaults =>
    intro s ctx va host w r e level a last lh hw hgen hr hstays
    exact (exec_walkDone hw hgen hr nofun).trans (congrArg Host.Outcome.next (walkEnd_fault (s := s.walkOver w) hstays))
  case migrationStarts =>
    intro s u ctx va leaf host m r e level a pool lh hm hroom hwalk hasks hpool hleaf hu
    exact (exec_migrationStart hm hroom hwalk hasks).trans
      (congrArg Host.Outcome.next (startMigration_clears hpool hleaf hu))
  case migrationEnds =>
    intro s t u m data now ht hu
    subst ht
    exact ⟨endMigration_moves hu, endMigration_gives_up hu⟩

end Machine
end Sys2Proof
end

section

namespace Sys2Proof.Machine

/-! ## INVALIDATE and XLT_SET_ROOT (R241 to R244) -/

theorem applyInv_eq (s : State) (i : InvScope) : s.applyInv i =
    { s.tlbDrop i.covers (fun c va => s.invCovers i c va) with
      xlt := { (s.tlbDrop i.covers (fun c va => s.invCovers i c va)).xlt with invs := s.xlt.invs ++ [i] } } := rfl

theorem exec_invalidate {s : State} {tok : Nat} {d : Desc} (h : s.ready tok 0x70 d) :
    exec (.invalidate tok) s = .next ((s.begun tok d).applyInv
      { tok := tok, s2 := decide (2 ≤ ivScope d.bits), all := ivScope d.bits % 2 == 1, ctx := s.srcCtx d.src
        vmid := ivVmid d.bits, addr := ivAddr d.bits, len := ivLen d.bits }) :=
  congrArg Host.Outcome.next (runDesc_ready _ h)

theorem exec_invalidateComplete {s : State} {tok : Nat} {i : InvScope} {d : Desc}
    (hi : s.xlt.invs.find? (fun i => i.tok == tok) = some i) (hfree : s.heldBy none i.covers = false)
    (hd : s.desc tok = some d) : exec (.invalidateComplete tok) s =
      .next ((({ s with xlt := { s.xlt with invs := s.xlt.invs.erase i } }).flushReads d.src).opEnd tok {}) := by
  change execInvalidateComplete tok s = _
  have kept : State.desc { s with xlt := { s.xlt with invs := s.xlt.invs.erase i } } tok = some d := hd
  rw [execInvalidateComplete, hi]
  dsimp only
  rw [if_neg (Bool.eq_false_iff.1 hfree), kept]

theorem exec_xltSetRoot {s : State} {tok : Nat} {d : Desc} (h : s.ready tok 0x74 d) :
    exec (.xltSetRoot tok) s = .next (State.applyInv ({ s.begun tok d with xlt := { s.xlt with
      committed := s.xlt.committed.put (s.srcCtx d.src) (putBits (putBits (putBits (s.context (s.srcCtx d.src)) 64 64
        (dfield d.bits 16 8)) 1 1 (bitsOf d.bits 192 1)) 24 1 (bitsOf d.bits 193 1)) } } : State)
      { tok := tok, s2 := false, all := true, ctx := s.srcCtx d.src, vmid := 0, addr := 0, len := 0 }) :=
  congrArg Host.Outcome.next (runDesc_ready _ h)

/-! ## PREFETCH and ADVISE (R239, R240) -/

/-- How a PREFETCH or an ADVISE deals with one leaf of its range. -/
def moveStep (advise : Bool) (tok : Nat) (b : DescBits) (c : Nat) (s : State) (va : Nat) (host : List Nat)
    (ext : List Byte) : Moved :=
  if advise then s.advisePage (adAdvice b) tok (dKeySlot b) c va host else s.prefetchPage tok (dKeySlot b) c va host ext

section
variable {s : State} {tok : Nat} {advise : Bool} {d : Desc} {host : List Nat} {ext : List Byte}
  (h : s.ready tok (if advise then 0x72 else 0x71) d) (hctx : xcValid (s.context (s.srcCtx d.src)) = true)
include h hctx

/-- R240: an explicit move of a range with a page that lies in neither an EXPLICIT nor a BOTH range. -/
theorem moveRow_barred (hexplicit : explicitMove advise d.bits = true)
    (hbarred : s.rangeBarred (s.srcCtx d.src) (pfVa d.bits) (pfLen d.bits) = true) :
    s.moveRow tok advise host ext = (s.begun tok d).opEnd tok (cpl ST_PERMISSION XL_MIG_MODE) := by
  have ended := runDesc_ends (cpl ST_PERMISSION XL_MIG_MODE) h
  obtain ⟨hd, hop, hmay, -⟩ := h
  rw [State.moveRow, hd]
  dsimp only
  rw [if_pos ⟨hop, hmay⟩, hctx, hexplicit, hbarred]
  exact ended

/-- A range that is not barred is walked on the device once no page of it has to wait. -/
theorem moveRow_walks {u t : State} {c0 c : Cpl}
    (hmodes : (explicitMove advise d.bits && s.rangeBarred (s.srcCtx d.src) (pfVa d.bits) (pfLen d.bits)) = false)
    (hconf : (explicitMove advise d.bits && s.ctxConf (s.srcCtx d.src)) = false) (hdevice : s.assisted 1 = false)
    (hready : State.moveRange (moveStep advise tok d.bits (s.srcCtx d.src)) (pfLen d.bits / 4096) (pfVa d.bits)
      (pfVa d.bits + pfLen d.bits) 0 host ext s = (u, some c0))
    (hmoved : State.moveRange (moveStep advise tok d.bits (s.srcCtx d.src)) (pfLen d.bits / 4096) (pfVa d.bits)
      (pfVa d.bits + pfLen d.bits) 0 host ext (s.begun tok d) = (t, some c)) :
    s.moveRow tok advise host ext = t.opEnd tok c := by
  have walked := runDesc_ready (fun _ u => State.moveRange (moveStep advise tok d.bits (s.srcCtx d.src))
    (pfLen d.bits / 4096) (pfVa d.bits) (pfVa d.bits + pfLen d.bits) 0 host ext u) h
  rw [hmoved] at walked
  obtain ⟨hd, hop, hmay, -⟩ := h
  unfold moveStep at hready
  rw [State.moveRow, hd]
  dsimp only
  rw [if_pos ⟨hop, hmay⟩, hctx, hmodes, hconf, hdevice, hready]
  exact walked

end

/-- A leaf below the end of the range is dealt with, and the walk goes on behind it. -/
theorem moveRange_below {step : State → Nat → List Nat → List Byte → Moved} {n va last k : Nat} {host : List Nat}
    {ext : List Byte} {s : State} (h : va < last) : State.moveRange step (n + 1) va last k host ext s =
      match step s va host ext with
      | .wait t => (t, none)
      | .stop t r => (t, some { status := xlStatus r, reason := r, result := k })
      | .ok t j size h e => State.moveRange step n (va + max size 4096) last (k + j) h e t :=
  if_neg (Nat.not_le.2 h)

section
variable {s t : State} {tok key c va pool : Nat} {host : List Nat} {ext : List Byte} {x : Xlat} {e a : Nat} {lh : Bool}
  (hwalk : s.walk key c va host = .ok x e lh a)
include hwalk

theorem prefetchPage_onDevice (hdevice : x.host = false) :
    s.prefetchPage tok key c va host ext = .ok s 0 (x.va + x.size - va) host ext := by
  rw [State.prefetchPage, hwalk]
  dsimp only
  rw [hdevice]
  rfl

/-- A host page moves to a pool page within the operation: its leaf is cleared and its translations go first. -/
theorem prefetchPage_moves (hhost : x.host = true) (hsmall : x.size ≠ 2 ^ 30)
    (hfree : s.pageHeld tok c x.va x.size = false) (hpool : s.freePage c x.size = some pool)
    (ht : (s.writeLeaf c key lh a (leafClear e)).dropPage c x.va x.size = t) :
    s.prefetchPage tok key c va host ext =
      .ok (({ t with xlt := { t.xlt with poolUsed := t.xlt.poolUsed.put pool x.size } }).endMigration
        { ctx := c, va := x.va, size := x.size, leafHost := lh, leafAddr := a, leaf := e, pool := pool, key := key } ext
        (leafClear e)) 1 x.size host (ext.drop x.size) := by
  rw [State.prefetchPage, hwalk]
  dsimp only
  rw [hhost, if_neg hsmall, hfree, hpool]
  dsimp only
  rw [ht]
  rfl

end

/-! ## XLT_FILL (R227, R229) -/

/-- R229: the request is not known: no miss waits for the answer. -/
theorem exec_xltFill_stale {s : State} {tok : Nat} {d : Desc} (h : s.ready tok 0x73 d)
    (hnone : s.xlt.assist.find (flReq d.bits) = none) : exec (.xltFill tok) s =
      .next (((s.begun tok d).setEvt F.XLT_EVT_FILL_STALE).opEnd tok (cpl ST_ABORTED XL_FILL_STALE)) := by
  have unknown : (s.begun tok d).xlt.assist.find (flReq d.bits) = none := hnone
  change execXltFill tok s = _
  rw [execXltFill, runDesc_ready _ h]
  dsimp only
  rw [unknown]

/-- The answer to a request of the current generation is dealt with as `fillRequest` says. -/
theorem exec_xltFill_current {s t : State} {tok : Nat} {d : Desc} {a : AssistReq} {c : Cpl} (h : s.ready tok 0x73 d)
    (ha : s.xlt.assist.find (flReq d.bits) = some a) (hgen : a.gen = s.xltGen a.ctx)
    (hfill : (s.begun tok d).fillRequest d (flReq d.bits) a = (t, some c)) :
    exec (.xltFill tok) s = .next (t.opEnd tok c) := by
  have known : (s.begun tok d).xlt.assist.find (flReq d.bits) = some a := ha
  have current : ¬ (a.tok.isNone = true ∧ a.gen ≠ (s.begun tok d).xltGen a.ctx) := fun hold => hold.2 hgen
  change execXltFill tok s = _
  rw [execXltFill, runDesc_ready _ h]
  dsimp only
  rw [known]
  dsimp only
  rw [if_neg current, hfill]

section
variable {s : State} {d : Desc} {req n : Nat} {a : AssistReq} (hsrc : d.src = .ring n)
include hsrc

theorem fillRequest_foreign (hport : rgPort (s.ring n).record ≠ xcPort (s.context a.ctx)) :
    s.fillRequest d req a = (s, some (cpl ST_PERMISSION XL_PRIV)) := by
  rw [State.fillRequest, hsrc]
  exact if_pos (fun same => hport (Option.some.inj same))

/-- R227: the translation that the context's own port supplies for a miss is installed where the checks of R221 pass. -/
theorem fillRequest_installs {x : Xlat} (hport : rgPort (s.ring n).record = xcPort (s.context a.ctx))
    (hx : x = fillXlat d.bits a (xcVmid (s.context a.ctx))) (hgood : flFail d.bits = false)
    (hwalked : flRewalk d.bits = false) (hmiss : a.tok = none)
    (hva : flVa d.bits = a.va / fillPage d.bits * fillPage d.bits) (htype : teType (flLeaf d.bits) < 2)
    (halign : x.out % x.size = 0) (hcheck : s.xlatCheck (s.context a.ctx) x = none) :
    s.fillRequest d req a = (({ s with xlt := { s.xlt with assist := s.xlt.assist.del req } }).tlbInstall
      (homeDie a.ctx) x, some {}) := by
  have own : ¬ some (rgPort (s.ring n).record) ≠ some (xcPort (s.context a.ctx)) := not_not_intro (congrArg some hport)
  have formed : ¬ (2 ≤ teType (flLeaf d.bits) ∨ x.out % x.size ≠ 0) :=
    not_or.2 ⟨Nat.not_le.2 htype, not_not_intro halign⟩
  have checked : ({ s with xlt := { s.xlt with assist := s.xlt.assist.del req } } : State).xlatCheck
    (s.context a.ctx) x = none := hcheck
  subst hx
  rw [State.fillRequest, hsrc]
  dsimp only
  rw [if_neg own, hgood, hwalked, hmiss, if_neg (not_not_intro hva), if_neg formed, checked]
  rfl

end

/-- Settles O26: an invalidation by its scope, a range leaf by leaf, a fill by the request it answers. -/
theorem translationDescriptors : Obligations.TranslationDescriptors := by
  unfold Obligations.TranslationDescriptors
  refine ⟨fun s tok d => exec_invalidate, applyInv_eq, fun s tok i d => exec_invalidateComplete,
    fun s tok d => exec_xltSetRoot, ?prefetch, ?barred, ?advise, fun step n va last k host ext s => moveRange_below,
    fun s tok key c va host ext x e a lh => prefetchPage_onDevice,
    fun s t tok key c va pool host ext x e a lh => prefetchPage_moves, fun s tok d => exec_xltFill_stale, ?fill⟩
  case prefetch =>
    intro s u t tok d host ext c0 c h hctx hmodes hconf hdevice hready hmoved
    exact congrArg Host.Outcome.next (moveRow_walks (advise := false) h hctx hmodes hconf hdevice hready hmoved)
  case barred =>
    intro s tok d host ext h hctx hbarred
    exact congrArg Host.Outcome.next (moveRow_barred (advise := false) h hctx rfl hbarred)
  case advise =>
    intro s u t tok d host c0 c h hctx hadvice hdevice hready hmoved
    have implicit : explicitMove true d.bits = false := beq_false_of_ne hadvice
    have unbarred (b : Bool) : (explicitMove true d.bits && b) = false := by rw [implicit, Bool.false_and]
    exact congrArg Host.Outcome.next
      (moveRow_walks (advise := true) h hctx (unbarred _) (unbarred _) hdevice hready hmoved)
  case fill =>
    intro s tok n d a h ha hgen hsrc
    refine ⟨fun hport => ?foreign, fun hport hgood hwalked hmiss hva htype halign hcheck => ?own⟩
    case foreign => exact exec_xltFill_current h ha hgen (fillRequest_foreign (s := s.begun tok d) hsrc hport)
    case own =>
      exact exec_xltFill_current h ha hgen
        (fillRequest_installs (s := s.begun tok d) hsrc hport rfl hgood hwalked hmiss hva htype halign hcheck)

end Sys2Proof.Machine
end

section

namespace Sys2Proof

/-- An entry that is there reads changed. -/
theorem Tab.find_upd_self {α : Type} {t : Tab α} {k : Nat} {x : α} (f : α → α) (h : t.find k = some x) :
    (t.upd k f).find k = some (f x) := by
  rw [Tab.upd, h]
  exact Tab.find_put_self t k (f x)

namespace Machine

/-! ## The parts of a granule (R253, R254) -/

section
variable {s : State} {granule part : Nat} {x y : TierGranule} (hx : s.granuleOf granule = some x)
include hx

theorem exec_tierPartCopyDone_copying (hpart : x.copying.testBit part = true)
    (hy : y = { x with on := x.on ||| 2 ^ part, copying := x.copying ^^^ 2 ^ part, heat := x.heat.put part 0 }) :
    exec (.tierPartCopyDone granule part) s = .next (State.pump (State.endTierJobs { s with tier := { s.tier with
      granules := s.tier.granules.put granule y
      promotions := s.tier.promotions + boolNat (y.on == 0xFFFF && !y.moving) } })) := by
  subst hy
  change execTierPartCopyDone granule part s = _
  rw [execTierPartCopyDone, hx]
  exact congrArg Host.Outcome.next (if_pos hpart)

theorem exec_tierPartDemotionDone_leaving {gone : Bool} (hpart : x.leaving.testBit part = true)
    (hy : y = { x with
      on := x.on &&& (0xFFFF ^^^ 2 ^ part), leaving := x.leaving ^^^ 2 ^ part
      dirty := x.dirty.del part, heat := x.heat.del part })
    (hgone : gone = (y.on == 0 && y.leaving == 0 && y.copying == 0)) :
    exec (.tierPartDemotionDone granule part) s = .next (State.pump (State.endTierJobs
      (State.setTier { s with tier := { s.tier with
        granules := if gone = true then s.tier.granules.del granule else s.tier.granules.put granule y
        demotions := s.tier.demotions + boolNat gone } }
        (fun t => { t with granules := t.granules.mapV (fun _ z => if z.after = some granule then
          { z with copying := z.copying ||| 2 ^ part, after := if gone = true then none else z.after }
          else z) })))) := by
  subst hy hgone
  change execTierPartDemotionDone granule part s = _
  rw [execTierPartDemotionDone, hx]
  exact congrArg Host.Outcome.next (if_pos hpart)

/-- A granule whose demotion has begun is to leave with every part whose tag is on. -/
theorem granuleOf_demote : (s.demote granule).granuleOf granule = some { x with leaving := x.on, pinned := false } :=
  Tab.find_upd_self _ hx

end

/-! ## Promotion (R260, R261) -/

section
variable {s : State} {g : Nat} (key : Nat) (hyst : Option Nat) (habsent : s.tier.granules.has g = false)
include habsent

theorem promote_free (hfree : (List.range 16).all (fun i =>
      decide (s.slotsUsed (tierHome g i) < s.tierSlots (tierHome g i))) = true) :
    s.promote g key hyst = ({ s with tier := { s.tier with
      granules := s.tier.granules.put g { key := key, copying := 0xFFFF } } }, .started) := by
  rw [State.promote, habsent, hfree]
  rfl

theorem promote_noSlot (hfull : (List.range 16).all (fun i =>
      decide (s.slotsUsed (tierHome g i) < s.tierSlots (tierHome g i))) = false)
    (hvictim : s.tierVictim (g % 3) = none) :
    s.promote g key hyst = (s, .noSlot) := by
  rw [State.promote, habsent, hfull, hvictim]
  rfl

end

/-- The oldest nomination, within the promotions of its tick: skipped while STK is busy, else attempted. -/
theorem exec_tierPromotion {s s1 : State} {n : Nomination} {rest : List Nomination} (hnoms : s.tier.noms = n :: rest)
    (hdevice : s.assisted 7 = false) (hrate : s.tier.started < s.fld F.TIR_RATE_MAX_PROMOTE)
    (hs1 : s1 = { s with tier := { s.tier with noms := rest } }) : exec .tierPromotion s =
      if s.tierSkips then .next { s with tier := { s.tier with noms := rest, skipped := s.tier.skipped + 1 } }
      else match s1.promote n.granule n.key (some n.estimate) with
        | (u, .started) => .next { u with tier := { u.tier with started := u.tier.started + 1 } }
        | (u, _) => .next u := by
  subst hs1
  change execTierPromotion s = _
  have begins : ¬ (s.assisted 7 || decide (s.fld F.TIR_RATE_MAX_PROMOTE ≤ s.tier.started)) = true := by
    rw [hdevice, Bool.false_or, decide_eq_true_iff]
    exact Nat.not_le.2 hrate
  rw [execTierPromotion, hnoms]
  dsimp only
  rw [if_neg begins]
  cases s.tierSkips with
  | true => rfl
  | false =>
    simp only [Bool.false_eq_true, if_false, State.setTier]
    generalize State.promote _ _ _ _ = p
    obtain ⟨u, r⟩ := p
    cases r <;> rfl

/-! ## Tier descriptors (R264, R265) -/

/-- The state once the granules `gs` of a tier descriptor's range have been dealt with, `n` of them dropped: it
completes when they have come to rest. -/
def State.tierRan (t : State) (tok n r : Nat) (gs : List Nat) : State :=
  State.endTierJobs { t with tier := { t.tier with jobs := t.tier.jobs ++
    [{ tok := tok, granules := gs, done := gs.length - n, dropped := n, reason := r }] } }

theorem tierRow_runs {s s1 t : State} {op tok n r : Nat} {d : Desc} {segs : List (List (List Seg))} {gs : List Nat}
    (hs1 : s1.ready tok op d) (hs : s.ready tok op d)
    (hsegs : s.xlateTiles tok d (tierTiles (tdVa d.bits) (tdLen d.bits / 65536 + 2) 0 (tdLen d.bits)) [] =
      (s1, some (segs, none)))
    (hgs : granulesOf segs.flatten.flatten = gs) (hrest : gs.any s1.granuleMoves = false)
    (hover : (s1.begun tok d).tierOver op (dKeySlot d.bits) gs = (t, n, r)) :
    s.tierRow tok op = t.tierRan tok n r gs := by
  obtain ⟨hd, hop, hmay, -⟩ := hs
  subst hgs
  rw [State.tierRow, hd]
  dsimp only
  rw [if_pos ⟨hop, hmay⟩, hsegs]
  dsimp only
  rw [if_neg (Bool.eq_false_iff.1 hrest), runDesc_ready _ hs1]
  dsimp only
  rw [hover]
  rfl

section
variable {s : State} {g : Nat} {x : TierGranule} (hx : s.granuleOf g = some x) (key : Nat)
include hx

/-- R264: a demotion leaves a pinned granule in the tier. -/
theorem tierOne_demote : s.tierOne 0x89 key g = if x.pinned then (s, some TIR_PINNED) else (s.demote g, none) := by
  rw [State.tierOne, if_pos rfl, hx]

theorem tierOver_demote (l : List Nat) : s.tierOver 0x89 key (g :: l) = if x.pinned
    then ((s.tierOver 0x89 key l).1, (s.tierOver 0x89 key l).2.1 + 1, Nat.max TIR_PINNED (s.tierOver 0x89 key l).2.2)
    else (s.demote g).tierOver 0x89 key l := by
  rw [State.tierOver, tierOne_demote hx]
  cases x.pinned <;> rfl

end

theorem tierOne_unpin (s : State) (key g : Nat) : s.tierOne 0x8B key g = ({ s with tier := { s.tier with
    granules := s.tier.granules.upd g (fun x => { x with pinned := false }) } }, none) := rfl

/-- Settles O27: a part's end by its granule, an attempt by the slots and victims there are, and a descriptor by the
granules of its range. -/
theorem tierMoves : Obligations.TierMoves := by
  unfold Obligations.TierMoves
  refine ⟨fun s granule part x y hx hpart hy => exec_tierPartCopyDone_copying hx hpart hy,
    fun s granule part x y hx hpart hy => exec_tierPartDemotionDone_leaving hx hpart hy rfl,
    fun s n rest hnoms hdevice hrate => exec_tierPromotion hnoms hdevice hrate rfl,
    fun s g key hyst habsent => ⟨promote_free key hyst habsent, promote_noSlot key hyst habsent⟩,
    fun s g x hx => granuleOf_demote hx, ?descriptors,
    fun s key g x hx => ⟨tierOne_demote hx key, tierOver_demote hx key, tierOne_unpin s key g⟩⟩
  intro s s1 t op tok n r d segs hs1 hs hsegs hrest hover next
  have ran : s.tierRow tok op = next := tierRow_runs hs1 hs hsegs rfl hrest hover
  refine ⟨?promote, ?demote, ?pin, ?unpin⟩ <;> rintro rfl <;> exact congrArg Host.Outcome.next ran

end Machine
end Sys2Proof
end

section

namespace Sys2Proof.Machine

/-! ## Queries (R432 to R436) -/

/-- The batch of a query whose walks found `qs`: the side list as of its tick is scored, and no page is read yet. -/
def SrhIndex.batch (x : SrhIndex) (tok : Nat) (d : Desc) (qs : List SrhQ) : SrhJob :=
  { tok := tok, index := srIndex d.bits, tick := d.admitTick, k := sqK d.bits
    queries := qs.map (fun q => x.scoreFor d.admitTick (sqK d.bits) q ((x.sideAt d.admitTick).map (fun e => e.bytes)))
    wait := [] }

theorem exec_srhQuery {s s0 s1 s2 : State} {tok : Nat} {d : Desc} {ext bytes e : List Byte} {segs : List (List Seg)}
    {qs : List SrhQ} {x : SrhIndex} (hx : x = s.index (srIndex d.bits))
    (h : s.granted tok 0x44 d [⟨srSrc d.bits, sqNq d.bits * round64 x.desc.vb, 1, false⟩] s0 segs)
    (hlive : x.phase ≠ .free) (hslice : x.slice = dSlice d.bits)
    (hread : State.readSegs d (segs.headD []) ext s0 = (s1, bytes, false, e))
    (hwalk : State.walkBatch tok x (sqBeam d.bits) (sqProbes d.bits)
      ((chunksOf (round64 x.desc.vb) (sqNq d.bits) bytes).map (fun v => v.take x.desc.vb)) [] s1 = (s2, .ok qs))
    (hs2 : s2.ready tok 0x44 d) :
    exec (.srhQuery tok ext) s = .next (State.issueReads
      (((s2.begun tok d).setIndex (srIndex d.bits) { s2.index (srIndex d.bits) with
        queries := (s2.index (srIndex d.bits)).queries + sqNq d.bits }).countPages x.slice
          (ceilDiv x.slotsUsed x.desc.scap))
      d (x.batch tok d qs)) := by
  subst hx
  obtain ⟨⟨hd, hop, hmay, -⟩, hacq, -⟩ := h
  change execSrhQuery tok ext s = _
  rw [execSrhQuery, hd]
  dsimp only
  rw [if_neg (not_or.2 ⟨not_not_intro hop, ne_false_of_eq_true hmay⟩),
    if_neg (not_or.2 ⟨hlive, not_not_intro hslice⟩), hacq]
  dsimp only
  rw [hread]
  dsimp only
  rw [if_neg Bool.false_ne_true, hwalk]
  dsimp only
  rw [runDesc_begins hs2]
  rfl

/-- R436: a batch that waits for no page writes its result blocks and ends. -/
theorem settleJob_ends {s t : State} {j : SrhJob} {d : Desc} (hwait : j.wait = []) (hd : s.desc j.tok = some d)
    (ht : (List.zip (List.range j.queries.length) j.queries).foldl (fun (s : State) e =>
      s.fabPut j.tok d (srOut d.bits + e.1 * (16 + 16 * j.k)) (resultBlock j.k e.2))
      { s with srh := { s.srh with jobs := s.srh.jobs.filter (fun x => x.tok != j.tok) } } = t) :
    s.settleJob j = t.opEnd j.tok {
      status := if j.degraded = 0 then ST_OK else ST_DEGRADED, reason := j.degraded
      done := (j.queries.map (fun q => q.scored)).foldl (· + ·) 0
      dropped := (j.queries.map (fun q => q.skipped)).foldl (· + ·) 0
      result := (j.queries.map (fun q => q.unscored)).foldl (· ||| ·) 0 } := by
  subst ht
  have stays : (s.setSrh (fun e => { e with jobs := s.srh.jobs.filter (fun x => x.tok != j.tok) })).desc j.tok =
    some d := hd
  rw [State.settleJob, hwait]
  dsimp only
  rw [stays]
  rfl

/-! ## Page reads (R417, R433) -/

/-- A readable page that only the batch `j` waits for: the read is counted, and `j` is scored and settled. -/
theorem exec_flashPageReadDone_scored {s u v : State} {fpa a leaf : Nat} {j j' : SrhJob} {p : FlashPage}
    (hjobs : s.srh.jobs.filter (fun j => j.wait.any (fun w => w.1 == fpa)) = [j])
    (hpasses : s.srh.passes.filter (fun m => m.leaves.any (fun l => l.old == fpa && !l.read)) = [])
    (hlate : s.srh.lateReads.contains fpa = false) (hpage : s.pageAt fpa = some (a, p)) (hgood : p.lost = false)
    (hu : State.countPages (s.setChan (fpaChan fpa) { s.chan (fpaChan fpa) with
      pagesRead := (s.chan (fpaChan fpa)).pagesRead + 1 }) (s.index p.index).slice 1 = u)
    (hleaf : leaf = ((j.wait.filter (fun w => w.1 == fpa)).map Prod.snd).headD 0)
    (hscore : u.scorePage j leaf p.bytes = (v, j')) :
    exec (.flashPageReadDone fpa false) s = .next (v.settleJob j') := by
  subst hu hleaf
  change execFlashPageReadDone fpa false s = _
  rw [execFlashPageReadDone]
  dsimp only
  rw [hjobs, hpasses, hlate, hpage]
  dsimp only
  rw [hgood]
  change Host.Outcome.next (match State.scorePage _ j _ p.bytes with | (s, j) => s.settleJob j) = _
  exact congrArg (fun r : State × SrhJob => Host.Outcome.next (r.1.settleJob r.2)) hscore

/-! ## Page moves (R445) -/

theorem exec_flashPageMove {s t : State} {fpa f : Nat} {p : FlashPage} {re : Tab Nat → Tab Nat}
    (hpage : s.srh.pages.find fpa = some p) (hfree : s.flashFree (fpaChan fpa) = some f)
    (hroom : (s.srh.forwards.filter (fun w => fpaChan w.old / 16 == fpaChan fpa / 16)).length < 4096)
    (hserves : (s.chan (fpaChan fpa)).inService = true)
    (hnamed : ((s.index p.index).leaves.any (fun _ v => v == fpa)
      || (s.index p.index).prev.any (fun _ v => v == fpa)) = true)
    (hre : re = fun t => t.mapV (fun _ v => if v = fpa then f else v))
    (ht : s.setIndex p.index { s.index p.index with
      leaves := re (s.index p.index).leaves, prev := re (s.index p.index).prev } = t) :
    exec (.flashPageMove fpa) s = .next (
      let u := t.setChan (fpaChan fpa) { t.chan (fpaChan fpa) with moves := (t.chan (fpaChan fpa)).moves + 1 }
      { u with srh := { u.srh with
        pages := (u.srh.pages.del fpa).put f p
        forwards := u.srh.forwards ++ [{ old := fpa, copy := f, tick := s.tick.now }]
        catalogue := u.srh.catalogue.mapV (fun _ c => { c with leaves := re c.leaves }) } }) := by
  subst hre ht
  have moves : ¬ (decide (4096 ≤ (s.srh.forwards.filter (fun w => fpaChan w.old / 16 == fpaChan fpa / 16)).length)
      || !(s.chan (fpaChan fpa)).inService || !((s.index p.index).leaves.any (fun _ v => v == fpa)
      || (s.index p.index).prev.any (fun _ v => v == fpa))) = true := by
    rw [hserves, hnamed, decide_eq_false (Nat.not_le.2 hroom)]
    exact Bool.false_ne_true
  change execFlashPageMove fpa s = _
  rw [execFlashPageMove, hpage, hfree]
  exact congrArg Host.Outcome.next (if_neg moves)

/-! ## Channel failures (R417, R447) -/

/-! A fault record says nothing about search: it touches registers, messages, the records and assist records. -/

theorem srh_setEvt (s : State) (f : Fld) : (s.setEvt f).srh = s.srh := by rw [setEvt_onlyRegs s f]

theorem srh_dropAssist (s : State) (port : Nat) : (s.dropAssist port).srh = s.srh := srh_setEvt ..

theorem srh_postAssist (s : State) (port function kind : Nat) (operands : List Byte) :
    (s.postAssist port function kind operands).srh = s.srh := by
  unfold State.postAssist
  split
  case h_1 =>
    split
    · rfl
    · split
      · exact srh_dropAssist s port
      · rfl
  case h_2 =>
    split
    · split
      · rfl
      · exact srh_dropAssist s port
    · split <;> rfl

theorem srh_postFault (s : State) (r : FaultRec) : (s.postFault r).srh = s.srh := by
  unfold State.postFault
  split
  · exact srh_postAssist ..
  · rfl

theorem srh_queueFault (s : State) (r : FaultRec) : (s.queueFault r).srh = s.srh := by
  unfold State.queueFault
  dsimp only
  split
  · rw [srh_postFault]
    cases rasEvtOf r.cls with
    | none => rfl
    | some f => exact srh_setEvt _ f
  · split
    · rfl
    · split
      · rfl
      · exact srh_postFault ..

/-- A device without page programs drops none. -/
theorem dropPrograms_none {s : State} (p : FlashProgram → Bool) (h : s.srh.programs = []) :
    s.setSrh (fun e => { e with programs := e.programs.filter p }) = s := by
  rw [State.setSrh, h, List.filter_nil, ← h]

/-- With no page program under way and no batch waiting, a failure only takes the channel out of service and
reports it. -/
theorem exec_flashChannelFailure_idle {s t : State} {c : Nat} {scorer : Bool} (hserves : (s.chan c).inService = true)
    (hprograms : s.srh.programs = []) (hjobs : s.srh.jobs = [])
    (ht : (s.setChan c { s.chan c with
      inService := false, scorerFailed := (s.chan c).scorerFailed || scorer }).setEvt F.SRH_EVT_CHANNEL_DOWN = t) :
    exec (.flashChannelFailure c scorer) s = .next (t.queueFault {
      cls := 0x21, location := locChannel c
      detail := ((List.range 16).filter (fun i => (t.chan (c / 16 * 16 + i)).inService)).length }) := by
  subst ht
  change Host.Outcome.next (s.failChannel c scorer) = _
  rw [State.failChannel]
  dsimp only
  rw [hserves, if_neg (by decide)]
  generalize hu : State.queueFault _ _ = u
  have idle : u.srh = (s.setChan c { s.chan c with
      inService := false, scorerFailed := (s.chan c).scorerFailed || scorer }).srh := by
    rw [← hu, srh_queueFault, srh_setEvt]
  have programs : u.srh.programs = [] := by rw [idle]; exact hprograms
  have jobs : u.srh.jobs = [] := by rw [idle]; exact hjobs
  rw [dropPrograms_none _ programs, programs, List.filter_nil, List.foldl_nil, jobs]
  rfl

/-! ## The fetch deadline (R266 to R269) -/

theorem exec_fetchDeadline {s t u v : State} {j : SrhJob} {w : Nat × Nat} (ht : s.markLate = t)
    (hjobs : t.srh.jobs = [j])
    (hdue : j.tick ≤ t.tick.now) (hpath : (t.index j.index).desc.deadlinePath = true) (hwait : j.wait = [w])
    (hu : t.lateFetch false = u)
    (hv : { u with srh := { u.srh with lateReads := (u.srh.lateReads ++ [w.1]).eraseDups } } = v) :
    exec .fetchDeadline s = .next (v.settleJob (j.skip w.2 (fpaChan w.1) DL_SRH_LEAVES)) := by
  subst ht hu hv
  have due : [j].filter (fun j => decide (j.tick ≤ s.markLate.tick.now)
      && (s.markLate.index j.index).desc.deadlinePath && !j.wait.isEmpty) = [j] := by
    rw [List.filter_cons, decide_eq_true hdue, hpath, hwait]
    rfl
  change execFetchDeadline s = _
  rw [execFetchDeadline]
  dsimp only
  rw [hjobs, due, List.foldl_cons, List.foldl_nil, hwait]
  rfl

/-! ## Reductions (R450) -/

theorem exec_srhReduce {s s0 s1 : State} {tok : Nat} {d : Desc} {ext bytes e : List Byte} {segs : List (List Seg)}
    {blocks : List (List Byte)} {r : State × Nat}
    (h : s.granted tok 0x48 d [⟨srSrc d.bits, rdNs d.bits * sqNq d.bits * rdIn d.bits, 1, false⟩] s0 segs)
    (hread : State.readSegs d (segs.headD []) ext s0 = (s1, bytes, false, e)) (hs1 : s1.ready tok 0x48 d)
    (hblocks : blocks = chunksOf (rdIn d.bits) (rdNs d.bits * sqNq d.bits) bytes)
    (hr : r = (s1.begun tok d).reduceOver tok d blocks) :
    exec (.srhReduce tok ext) s =
      if blocks.any (fun x => (blockEntries (sqK d.bits) x).isNone)
      then .next ((s1.begun tok d).opEnd tok (cpl ST_ABORTED SRH_OPERAND))
      else .next (r.1.opEnd tok { status := if r.2 = 0 then ST_OK else ST_DEGRADED
                                  reason := if r.2 = 0 then 0 else DL_SRH_LEAVES, done := sqNq d.bits }) := by
  subst hblocks hr
  obtain ⟨⟨hd, hop, hmay, -⟩, hacq, -⟩ := h
  change execSrhReduce tok ext s = _
  rw [execSrhReduce, hd]
  dsimp only
  rw [if_neg (not_or.2 ⟨not_not_intro hop, ne_false_of_eq_true hmay⟩), hacq]
  dsimp only
  rw [hread]
  dsimp only
  rw [if_neg Bool.false_ne_true, runDesc_ends _ hs1, runDesc_ready _ hs1]
  exact apply_ite Host.Outcome.next _ _ _

/-- Settles O33: a query up to its page reads, a page's end by the batch that waits for it, and a batch's end. -/
theorem searchQueries : Obligations.SearchQueries := by
  unfold Obligations.SearchQueries
  exact ⟨fun s s0 s1 s2 tok d ext bytes e segs qs x hx h hlive hslice hread hwalk hs2 =>
      exec_srhQuery hx h hlive hslice hread hwalk hs2,
    fun s u v fpa a j j' p hjobs hpasses hlate hpage hgood hu hscore =>
      exec_flashPageReadDone_scored hjobs hpasses hlate hpage hgood hu rfl hscore,
    fun s t j d => settleJob_ends,
    fun s t fpa f p hpage hfree hroom hserves hnamed ht =>
      exec_flashPageMove hpage hfree hroom hserves hnamed rfl ht,
    fun s t c scorer => exec_flashChannelFailure_idle,
    fun s t u v j w => exec_fetchDeadline,
    fun s s0 s1 tok d ext bytes e segs h hread hs1 => exec_srhReduce h hread hs1 rfl rfl⟩

end Sys2Proof.Machine
end

section

namespace Sys2Proof.Machine

/-! ## Rows over operands whose run is known -/

section
variable {s s1 u : State} {tok op : Nat} {d : Desc} {c : Cpl} {check : Desc → State → Option Cpl}

/-- A row over tiles ends on the state its run leaves, with the completion that run answers. -/
theorem runTiles_ends {tiles : Desc → State → List (List Need)}
    {k : Desc → List (List (List Seg)) → Option Cpl → State → State × Option Cpl} {done : List (List (List Seg))}
    {stop : Option Cpl} (h : s.grantedTiles tok op d (tiles d s) s1 done stop) (hc : check d s = none)
    (hk : k d done stop (s1.begun tok d) = (u, some c)) : s.runTiles tok op check tiles k = u.opEnd tok c := by
  rw [runTiles_granted check tiles k h hc, hk]

theorem creditRefused_free (h : s.creditBarred d = false) : creditRefused d s = none := if_neg (ne_true_of_eq_false h)

end

/-! ## CDC_ENCODE, CDC_DECODE and CDC_SEND over their blocks (R292, R303) -/

section
variable {s s1 t : State} {tok : Nat} {d : Desc} {done tiles : List (List (List Seg))} {stop stop' : Option Cpl}

theorem exec_cdcEncode {n cls raw : Nat} {ext e : List Byte}
    (h : s.grantedTiles tok 0x81 d (encodeNeeds d.bits) s1 done stop) (htable : s.encodeRefused d = none)
    (hcredit : s.creditBarred d = false) (hcut : cutHost 1 (dfield d.bits 24 8) done stop = (tiles, stop'))
    (hover : (s1.begun tok d).encodeOver tok d ext tiles = (t, e, n, cls, raw)) :
    exec (.cdcEncode tok ext) s = .next (t.opEnd tok (blocksEnd (ccLen d.bits / 4096) tiles.length stop'
      { result := n % 2 ^ 32 + at_ 32 cls + at_ 40 (raw % 2 ^ 24) })) := by
  change execCdcEncode tok ext s = _
  refine congrArg Host.Outcome.next (runTiles_ends h ?check ?run)
  case check =>
    rw [htable]
    exact creditRefused_free hcredit
  case run =>
    dsimp only
    rw [hcut]
    dsimp only
    rw [hover]

theorem exec_cdcDecode {poison : Bool} (h : s.grantedTiles tok 0x82 d (encodeNeeds d.bits) s1 done stop)
    (hcredit : s.creditBarred d = false) (hcut : cutHost 0 (dfield d.bits 16 8) done stop = (tiles, stop'))
    (hover : (s1.begun tok d).decodeOver tok d tiles = (t, poison)) :
    exec (.cdcDecode tok) s = .next (t.opEnd tok (blocksEnd (ccLen d.bits / 4096) tiles.length stop'
      (if poison then cpl ST_POISONED CDC_DECODE_ERROR else {}))) := by
  change execCdcDecode tok s = _
  refine congrArg Host.Outcome.next (runTiles_ends h (creditRefused_free hcredit) ?_)
  dsimp only
  rw [hcut]
  dsimp only
  rw [hover]

theorem exec_cdcSend {off coded : Nat} {poison : Bool}
    (h : s.grantedTiles tok 0x83 d (sendNeeds d.bits) s1 done stop)
    (hcut : cutHost 0 (dfield d.bits 16 8) done stop = (tiles, stop'))
    (hover : (s1.begun tok d).sendOver tok d tiles = (t, off, coded, poison)) :
    exec (.cdcSend tok) s = .next ((if d.bits.getLsbD 328 && stop'.isNone
        then t.submitTo tok (dfield d.bits 24 8) (dfield d.bits 40 1) (adoptBits d.bits coded) (t.keyField (dKeySlot d.bits))
        else t).opEnd tok (blocksEnd (ccLen d.bits / 4096) tiles.length stop'
          (if poison then cpl ST_POISONED CDC_DECODE_ERROR else {}))) := by
  change execCdcSend tok s = _
  refine congrArg Host.Outcome.next (runTiles_ends h rfl ?_)
  dsimp only
  rw [hcut]
  dsimp only
  rw [hover]

end

/-! ## One block encoded (R279) -/

/-- With no byte of the source poisoned, no line of the destination is marked. -/
theorem encodeTile_stores {s t : State} {sa : Nat} {d : Desc} {ext data e : List Byte} {x : Coded} (tok a : Nat)
    (hserved : t.descServed d = true) (hread : State.readSegs d [⟨false, sa, 4096⟩] ext s = (t, data, false, e))
    (hx : encodeBlock (dfield d.bits 40 1) (ccTable d.bits 42) ((t.cdcTable (ccTable d.bits 42)).image) data = x) :
    s.encodeTile tok d ext [[⟨false, sa, 4096⟩], [⟨false, a, 4096⟩]] =
      ((t.creditWrite (.desc tok) (dKeySlot d.bits) a x.bytes (descCredit d) (some (x.entry (dKeySlot d.bits)))).setCdc
        (fun c => { c with encoded := c.encoded + 1, rawStored := c.rawStored + boolNat (x.codec == 1) }), e, x.sectors, x.cls,
        boolNat (x.codec == 1)) := by
  subst hx
  have toDevice : deviceAddr [[⟨false, sa, 4096⟩], [⟨false, a, 4096⟩]] 1 = some a := rfl
  rw [State.encodeTile, List.headD_cons, hread, toDevice]
  dsimp only
  rw [hserved]
  rfl

/-! ## CDC_ADOPT (R304, R305) -/

section
variable {s s1 t : State} {tok a a1 key key1 k : Nat} {d : Desc} {done : List (List (List Seg))}

theorem adoptBase_begun (s : State) (tok : Nat) (d : Desc) : (s.begun tok d).adoptBase d = s.adoptBase d := rfl

/-- The window's address is looked up again once the operands are ready, and the blocks adopted are those it names then. -/
theorem exec_cdcAdopt (h : s.grantedTiles tok 0x84 d (adoptNeeds d.bits a) s1 done none)
    (hbase : s.adoptBase d = .ok (a, key)) (hbase1 : s1.adoptBase d = .ok (a1, key1))
    (hover : (s1.begun tok d).adoptOver d key1 a1 (ccLen d.bits / 4096) = (t, k)) :
    exec (.cdcAdopt tok) s = if k < dfield d.bits 32 4
      then .next ((t.setEvt F.CDC_EVT_ADOPT_SHORT).opEnd tok
        { status := ST_PARTIAL, reason := CDC_ADOPT_SHORT, done := k, dropped := ccLen d.bits / 4096 - k })
      else .next (t.opEnd tok { done := k, dropped := ccLen d.bits / 4096 - k }) := by
  change execCdcAdopt tok s = _
  rw [execCdcAdopt, runTiles_granted (s1 := s1) (d := d) (done := done) (stop := none) _ _ _ ?granted ?check]
  case granted =>
    rw [hbase]
    exact h
  case check => rw [hbase]
  dsimp only
  rw [adoptBase_begun, hbase1]
  dsimp only
  rw [hover]
  dsimp only
  by_cases hshort : k < dfield d.bits 32 4
  · rw [if_pos hshort, if_pos hshort]
  · rw [if_neg hshort, if_neg hshort]

end

/-! ## Code tables (R286 to R288) -/

@[simp] theorem cdcTable_begun (s : State) (tok : Nat) (d : Desc) (n : Nat) : (s.begun tok d).cdcTable n = s.cdcTable n := rfl

/-- START opens the table with no counts, so that FINISH makes the image from the counts of this run alone. -/
theorem exec_cdcProfile_whole {s s1 t : State} {tok n : Nat} {d : Desc} {ext e : List Byte} {counts : Tab Nat}
    {done : List (List (List Seg))} (hn : n = ccTable d.bits 32)
    (h : s.grantedTiles tok 0x80 d (sendNeeds d.bits) s1 done none) (hcheck : profileRefused d s = none)
    (hstart : d.bits.getLsbD 280 = true) (hfinish : d.bits.getLsbD 281 = true)
    (hover : ((s1.begun tok d).setCdcTable n
      { phase := .building, slice := dSlice d.bits, format := dfield d.bits 34 1 }).profileOver d (dfield d.bits 34 1)
        ext [] done = (t, e, counts, false))
    (hcounted : counts.all (fun _ c => c == 0) = false) (hformat : (t.cdcTable n).format = dfield d.bits 34 1) :
    exec (.cdcProfile tok ext) s = .next ((t.setCdcTable n { t.cdcTable n with
      phase := .valid, image := makeImage (profileLens counts) (dfield d.bits 34 1), hist := [] }).opEnd tok
        (blocksEnd (ccLen d.bits / 4096) done.length none
          { result := imageCrc (makeImage (profileLens counts) (dfield d.bits 34 1)) })) := by
  subst hn
  change execCdcProfile tok ext s = _
  refine congrArg Host.Outcome.next (runTiles_ends h hcheck ?_)
  dsimp only
  rw [if_pos hstart, State.cdcTable_setCdcTable, if_pos rfl, hover]
  dsimp only
  simp only [hfinish, hcounted, hformat, State.cdcTable_setCdcTable, State.setCdcTable_setCdcTable, Option.isNone_none,
    Bool.not_false, Bool.and_self, Bool.and_false, Bool.false_eq_true, if_true, if_false]

theorem exec_cdcTableLoad {s s1 t : State} {tok : Nat} {d : Desc} {ext img e : List Byte} {segs : List (List Seg)}
    {poison : Bool} (h : s.granted tok 0x85 d [⟨dfield d.bits 16 8, 256, 1, false⟩] s1 segs)
    (hfree : (s.cdcTable (ccTable d.bits 24)).phase = .free)
    (hread : State.readSegs d (segs.headD []) ext (s1.begun tok d) = (t, img, poison, e)) :
    exec (.cdcTableLoad tok ext) s = if poison || !validImage img
      then .next (t.opEnd tok (cpl ST_REFUSED_FIT CDC_TABLE_FORMAT))
      else .next ((t.setCdcTable (ccTable d.bits 24)
        { phase := .valid, slice := dSlice d.bits, format := imageFormat img, image := img }).opEnd tok
          { result := imageCrc img }) := by
  change execCdcTableLoad tok ext s = _
  rw [execCdcTableLoad, runMem_granted _ _ _ h (if_neg (not_not_intro hfree)), hread]
  dsimp only
  by_cases hbad : (poison || !validImage img) = true
  · rw [if_pos hbad, if_pos hbad]
  · rw [if_neg hbad, if_neg hbad]

theorem exec_cdcTableFree_valid {s : State} {tok : Nat} {d : Desc} (h : s.ready tok 0x86 d)
    (hvalid : (s.cdcTable (ccTable d.bits 16)).phase = .valid) :
    exec (.cdcTableFree tok) s = if (s.cdcTable (ccTable d.bits 16)).slice = dSlice d.bits
      then .next (((s.begun tok d).setCdcTable (ccTable d.bits 16) { s.cdcTable (ccTable d.bits 16) with
        phase := .freeing, freed := s.tick.now }).opEnd tok {})
      else .next ((s.begun tok d).opEnd tok (cpl ST_PERMISSION CDC_TABLE_STATE)) := by
  change execCdcTableFree tok s = _
  rw [execCdcTableFree, runDesc_ready _ h]
  dsimp only
  rw [cdcTable_begun, hvalid]
  by_cases hslice : (s.cdcTable (ccTable d.bits 16)).slice = dSlice d.bits
  · rw [if_neg (not_not_intro hslice), if_pos hslice]
    rfl
  · rw [if_pos hslice, if_neg hslice]

theorem exec_cdcTableRead {s s1 : State} {tok : Nat} {d : Desc} {segs : List (List Seg)} {img : List Byte}
    (h : s.granted tok 0x87 d [⟨dfield d.bits 16 8, 256, 2, false⟩] s1 segs)
    (himage : s.codecImage (dSlice d.bits) (ccTable d.bits 24) = some img) (hcredit : s.creditBarred d = false) :
    exec (.cdcTableRead tok) s = .next ((State.writeSegs tok d (descCredit d) (segs.headD [])
      ((s1.begun tok d).cdcTable (ccTable d.bits 24)).image (s1.begun tok d)).opEnd tok {}) := by
  have check : (if (s.codecImage (dSlice d.bits) (ccTable d.bits 24)).isNone then some (cpl ST_PERMISSION CDC_TABLE_STATE)
      else creditRefused d s) = none := by
    rw [himage]
    exact creditRefused_free hcredit
  exact congrArg Host.Outcome.next (runMem_granted _ _ _ h check)

/-- Settles O28: a codec descriptor whose operands are ready ends with what its run over the blocks, or over its table, says. -/
theorem codecDescriptors : Obligations.CodecDescriptors := by
  unfold Obligations.CodecDescriptors
  exact ⟨fun s s1 t tok n cls raw d ext e done tiles stop stop' => exec_cdcEncode,
    fun s t tok sa a d ext data e x => encodeTile_stores tok a,
    fun s s1 t tok d poison done tiles stop stop' => exec_cdcDecode,
    fun s s1 t tok off coded d poison done tiles stop stop' => exec_cdcSend,
    fun s s1 t tok a a1 key key1 k d done => exec_cdcAdopt,
    fun s s1 t tok d ext e counts done => exec_cdcProfile_whole rfl,
    fun s s1 t tok d ext img e segs poison => exec_cdcTableLoad,
    fun s tok d => exec_cdcTableFree_valid,
    fun s s1 tok d segs img => exec_cdcTableRead⟩

end Sys2Proof.Machine
end

section

namespace Sys2Proof.Machine

/-! ## What lets an operand's check pass -/

theorem creditRefused_of_selfFree {s : State} {d : Desc} {dst : Nat} (h : s.isSelf dst = true → s.creditBarred d = false) :
    (if s.isSelf dst then creditRefused d s else none) = none := by
  cases hself : s.isSelf dst with
  | false => exact if_neg Bool.false_ne_true
  | true => exact (if_pos rfl).trans (creditRefused_free (h hself))

/-! ## KV_APPEND up to its commit (R464) -/

/-- The entry that holds a running append: the pages taken for it, and the copy of a shared last page. -/
def State.appendReq (s : State) (tok n : Nat) (d : Desc) (copy poison : Bool) (taken : List Nat) : KvReq :=
  let lay := s.kvLayer (kvRef d.bits)
  { tok := tok, pool := n, seq := rfSeq (kvRef d.bits), layer := rfLayer (kvRef d.bits)
    newLen := lay.len + kvCount d.bits
    copy := if copy then some (lay.pages.getD (ceilDiv lay.len (s.pool n).perPage - 1) 0, taken.headD 0) else none
    taken := taken, poison := poison }

/-- A running request is held, and the copy of a shared page counted. -/
def State.holdReq (s : State) (r : KvReq) (copy : Bool) : State :=
  s.setKv (fun k => { k with reqs := k.reqs ++ [r], cowCopies := k.cowCopies + boolNat copy })

section
variable {s s1 s2 x t u : State} {tok n last : Nat} {d : Desc} {q : KvSeq} {taken : List Nat}

theorem exec_kvAppend {new : Nat} {copy poison : Bool} {pages : List Nat} {lay : KvLayer} {segs : List (List Seg)}
    {bytes e : List Byte} (h : s.kvReady tok 0x53 d) (hn : n = rfPool (kvRef d.bits)) (hlay : lay = s.kvLayer (kvRef d.bits))
    (hlast : last = ceilDiv lay.len (s.pool n).perPage - 1)
    (hpasses : s.refRefuses (kvRef d.bits) (dSlice d.bits) (dKeySlot d.bits) true = none)
    (hq : s.kvSeq (rfSeq (kvRef d.bits)) = some q) (hsynced : q.resync = false) (hlocal : q.remote = false)
    (hroom : s.reqsOn n < 4096) (hfits : lay.len + kvCount d.bits ≤ (s.pool n).maxTokens)
    (hneeds : s.appendNeeds n lay (kvCount d.bits) = (copy, new))
    (htake : s.takeLocal n (new + boolNat copy) = some (taken, s1))
    (hacq : s.acquire tok d [⟨dfield d.bits 32 8, kvCount d.bits * (s.pool n).tokenSize, 1, false⟩] = .ready s2 segs)
    (hdevice : (segs.headD []).any (fun x => x.host) = false) (hx : s2.setAlloc n (s1.kvAlloc n) = x)
    (hready : x.ready tok 0x53 d) (hread : State.readSegs d (segs.headD []) [] (x.begun tok d) = (t, bytes, poison, e))
    (hpages : pages = (if copy then lay.pages.take last ++ taken.take 1 else lay.pages) ++ taken.drop (boolNat copy))
    (hu : t.holdReq (s.appendReq tok n d copy poison taken) copy = u) :
    exec (.kvAppend tok) s = .next ((if copy then u.copyKvPage tok n (lay.pages.getD last 0) (taken.headD 0)
      else u).writeTokens tok n lay.len (kvCount d.bits) pages bytes
        ((x.begun tok d).badOffsets 0 ((segs.headD []).map (fun x => (x.addr, x.len))))) := by
  subst hn hlay hlast hx hpages hu
  change execKvAppend tok s = _
  rw [execKvAppend, kvRow_ready _ h]
  dsimp only
  rw [hpasses, hq]
  dsimp only
  rw [hsynced, hlocal, if_neg (Nat.not_le.2 hroom), if_neg (Nat.not_lt.2 hfits), hneeds]
  dsimp only
  rw [htake]
  dsimp only
  rw [hacq]
  dsimp only
  rw [hdevice, runDesc_begins hready, hread]
  cases copy <;> rfl

/-! ## KV_COMMIT (R464, R465, R474) -/

/-- How a request ends whose writes are all visible: it commits, and completes poisoned where its source was. -/
def State.endCommitted (s : State) (tok : Nat) (r : KvReq) : State :=
  if r.poison then (((s.kvCommit r).setKv (fun k => { k with poisoned := k.poisoned + 1 })).setEvt
    F.KVS_EVT_POISON).opEnd tok (cpl ST_POISONED KV_POISON)
  else (s.kvCommit r).opEnd tok {}

section
variable {r : KvReq} (hr : s.kv.reqs.find? (fun r => r.tok == tok) = some r) (hd : s.desc tok = some d)
include hr hd

theorem exec_kvCommit (lost journal : Bool) : exec (.kvCommit tok lost journal) s = .next (
    if journal || s.ctrlBad r.pool then s.failPool r.pool
    else if lost then s.kvLost tok r
    else if 1 < d.awaiting then s
    else if d.cpl.status ≠ ST_OK then s.kvStop tok d.cpl
    else s.endCommitted tok r) := by
  change execKvCommit tok lost journal s = _
  rw [execKvCommit, hr, hd]
  rfl

theorem exec_kvCommit_journal (lost : Bool) : exec (.kvCommit tok lost true) s = .next (s.failPool r.pool) :=
  exec_kvCommit hr hd lost true

variable (hcontrol : s.ctrlBad r.pool = false)
include hcontrol

theorem exec_kvCommit_lost : exec (.kvCommit tok true false) s = .next (s.kvLost tok r) := by
  rw [exec_kvCommit hr hd, hcontrol]
  rfl

theorem exec_kvCommit_visible (hvisible : d.awaiting ≤ 1) (hgood : d.cpl.status = ST_OK) :
    exec (.kvCommit tok false false) s = .next (s.endCommitted tok r) := by
  rw [exec_kvCommit hr hd, hcontrol, if_neg (Nat.not_lt.2 hvisible), if_neg (not_not_intro hgood)]
  rfl

end

/-- The commit of an append that copied no page: its layer goes on with the pages taken, each counted once more. -/
theorem kvCommit_append {r : KvReq} {lay : KvLayer} (hq : s.kvSeq r.seq = some q) (hlay : lay = q.layers.getD r.layer {})
    (happend : r.moves = []) (hlen : r.newLen ≠ 0) (hcopy : r.copy = none)
    (ht : ((s.setKv (fun k => { k with reqs := k.reqs.filter (fun x => x.tok != r.tok) })).setAlloc r.pool
      (r.taken.foldl KvAlloc.raise (s.kvAlloc r.pool))).setSeq r.seq { q with
        layers := q.layers.set r.layer { len := r.newLen, pages := lay.pages ++ r.taken } } = t) :
    s.kvCommit r = t.setKv (fun k => { k with
      appends := k.appends + 1, tokens := k.tokens + (r.newLen - lay.len) }) := by
  have appends : (r.moves.isEmpty && r.newLen != 0) = true := by
    rw [happend, bne_iff_ne.2 hlen]
    rfl
  subst hlay ht
  rw [State.kvCommit, hq]
  dsimp only
  rw [if_pos appends, hcopy]
  rfl

/-! ## KV_READ (R470) -/

theorem exec_kvRead {poison : Bool} {runs : List (Nat × Nat × Nat × Nat)} {lay : KvLayer} (h : s.kvReady tok 0x54 d)
    (hn : n = rfPool (kvRef d.bits)) (hlay : lay = s.kvLayer (kvRef d.bits))
    (hpasses : s.refRefuses (kvRef d.bits) (dSlice d.bits) (dKeySlot d.bits) true = none)
    (hfits : kvCount d.bits + dfield d.bits 28 4 ≤ lay.len)
    (hcredit : s.isSelf (dfield d.bits 32 8) = true → s.creditBarred d = false)
    (hruns : runs = (s.pool n).runsOf (kvCount d.bits) (dfield d.bits 28 4))
    (hengine : s.engineReady tok ((s.pool n).readRanges lay runs) = (s1, true))
    (hcount : runs.foldl (fun (s2 : State) r => s2.readPage n (lay.pages.getD r.1 0)) s1 = s2)
    (hready : s2.ready tok 0x54 d)
    (hover : (s2.begun tok d).kvReadOver tok d (s.pool n) lay (dfield d.bits 28 4) (dfield d.bits 32 8) runs = (t, poison)) :
    exec (.kvRead tok) s = .next (t.opEnd tok (if poison then cpl ST_POISONED 0 else {})) := by
  subst hn hlay hruns hcount
  change execKvRead tok s = _
  rw [execKvRead, kvRow_ready _ h]
  dsimp only
  rw [hpasses, if_neg (Nat.not_lt.2 hfits), creditRefused_of_selfFree hcredit]
  dsimp only [Option.orElse]
  rw [hengine]
  dsimp only
  rw [runDesc_ready _ hready, hover]

/-! ## KV_ATTEND (R472) -/

theorem exec_kvAttend {k : Nat} {l : List Nat} (h : s.kvReady tok 0x55 d)
    (hpasses : s.refRefuses (kvRef d.bits) (dSlice d.bits) (dKeySlot d.bits) true = none)
    (hq : s.kvSeq (rfSeq (kvRef d.bits)) = some q) (hlocal : q.remote = false) (hcredit : s.creditBarred d = false)
    (huses : d.uses = k :: l) : exec (.kvAttend tok) s = .next ((s.begun tok d).beginRun tok {
      slot := none, first := 0, places := [{ die := k / 16, region := k / 4 % 4, clusters := 2 ^ (k % 4) }]
      ops := [attendOp d.bits (s.pool (rfPool (kvRef d.bits))) k]
      bases := [dfield d.bits 24 8, dfield d.bits 32 8, kvRef d.bits] }) := by
  change execKvAttend tok s = _
  rw [execKvAttend, kvRow_ready _ h]
  dsimp only
  rw [hpasses, hq]
  dsimp only [Option.orElse]
  rw [hlocal, creditRefused_free hcredit, huses]
  dsimp only
  rw [runDesc_begins h.1]
  rfl

/-! ## KV_MOVE (R469) -/

/-- The entry that holds a running move: the pages taken, and the page-table entries that change to them. -/
def moveReq (tok n : Nat) (d : Desc) (taken : List Nat) (pairs : List ((Nat × Nat × Nat) × Nat)) : KvReq :=
  { tok := tok, pool := n, seq := rfSeq (kvRef d.bits), layer := 0, newLen := 0, taken := taken
    moves := pairs.map (fun e => (e.1.1, e.1.2.1, e.2)) }

theorem exec_kvMove {out : Bool} {pairs : List ((Nat × Nat × Nat) × Nat)} (h : s.kvReady tok 0x58 d)
    (hn : n = rfPool (kvRef d.bits)) (hout : out = (dfield d.bits 24 1 == 0))
    (hpasses : s.refRefuses (kvRef d.bits) (dSlice d.bits) (dKeySlot d.bits) false = none)
    (hq : s.kvSeq (rfSeq (kvRef d.bits)) = some q) (hsynced : q.resync = false) (hroom : s.reqsOn n < 4096)
    (hfits : (s.movePages n q out).length ≤ dfield d.bits 28 4)
    (htake : (if out then s.takeOverflow n (s.movePages n q out).length
      else s.takeLocal n (s.movePages n q out).length) = some (taken, s1))
    (hpairs : pairs = List.zip (s.movePages n q out) taken)
    (hengine : s.engineReady tok ((s.pool n).moveRanges out pairs) = (s2, true))
    (hx : s2.setAlloc n (s1.kvAlloc n) = x) (hready : x.ready tok 0x58 d) :
    exec (.kvMove tok) s = .next
      (((x.begun tok d).holdReq (moveReq tok n d taken pairs) false).kvMoveOver tok d (s.pool n) out pairs) := by
  subst hn hout hpairs hx
  change execKvMove tok s = _
  rw [execKvMove, kvRow_ready _ h]
  dsimp only
  rw [hpasses, hq]
  dsimp only
  rw [hsynced, if_neg (Nat.not_le.2 hroom), if_neg (Nat.not_lt.2 hfits), htake]
  dsimp only
  rw [hengine]
  dsimp only
  rw [runDesc_begins hready]
  rfl

end

/-- Settles O35: an append up to its commit, the commit by what of it is lost, a read, an attention and a move by their
rows. -/
theorem kvAccesses : Obligations.KvAccesses := by
  unfold Obligations.KvAccesses
  refine ⟨fun s s1 s2 x t u tok n new copy poison taken pages d q segs bytes e h hn => exec_kvAppend h hn rfl rfl,
    fun s tok r d hr hd => ⟨exec_kvCommit_journal hr hd, exec_kvCommit_lost hr hd, ?commits, ?poisoned⟩,
    fun s t r q hq => kvCommit_append hq rfl, fun s s1 s2 t tok n d poison runs h hn => exec_kvRead h hn rfl,
    fun s tok k l d q => exec_kvAttend, fun s s1 s2 x tok n out taken d q pairs => exec_kvMove⟩
  case commits =>
    intro hcontrol hvisible hgood hclean
    exact (exec_kvCommit_visible hr hd hcontrol hvisible hgood).trans
      (congrArg Host.Outcome.next (if_neg (ne_true_of_eq_false hclean)))
  case poisoned =>
    intro hcontrol hvisible hgood hpoison
    exact (exec_kvCommit_visible hr hd hcontrol hvisible hgood).trans (congrArg Host.Outcome.next (if_pos hpoison))

end Sys2Proof.Machine
end

section

namespace Sys2Proof.Machine

/-! ## UNLOAD_DRAIN_COMPLETE (R347, R358, R431, R459, R489) -/

section
variable {s : State} {tok : Nat} {d : Desc}

/-- The row acts as the row of the descriptor that ends the object. -/
theorem exec_unloadDrainComplete {op : Nat} (h : s.ready tok op d) : exec (.unloadDrainComplete tok) s =
    if op = 0x32 then exec (.tpUnload tok) s
    else if op = 0x21 then exec (.tblUnload tok) s
    else if op = 0x41 then exec (.idxUnload tok) s
    else if op = 0x51 then exec (.kvPoolDestroy tok) s
    else if op = 0x61 then exec (.qDestroy tok) s
    else .next s := by
  obtain ⟨hd, hop, -⟩ := h
  subst hop
  change execUnloadDrainComplete tok s = _
  rw [execUnloadDrainComplete, hd]
  rfl

/-- The descriptor that ends an object which nothing uses any more frees it. -/
theorem unload_drained {op : Nat} {owner : Option Nat} {busy : Bool} {refused : State} (free : State → State)
    (h : s.ready tok op d) (howner : owner = some tok) (hidle : busy = false) :
    (if owner = some tok then if busy = true then s else s.runDesc tok op (fun _ s => (free s, some {})) else refused) =
      (free (s.begun tok d)).opEnd tok {} := by
  rw [if_pos howner, if_neg (ne_true_of_eq_false hidle), runDesc_ready _ h]

theorem exec_tblUnload_drained (h : s.ready tok 0x21 d) (howner : (s.table (dfield d.bits 16 2)).unloader = some tok)
    (hidle : s.tableBusy (dfield d.bits 16 2) = false) : exec (.tblUnload tok) s =
      .next ((((s.begun tok d).freeTable (dfield d.bits 16 2)).setEvt F.EMB_EVT_UNLOADED).opEnd tok {}) := by
  change Host.Outcome.next (s.tblUnload tok) = _
  rw [State.tblUnload, h.1]
  exact congrArg Host.Outcome.next (unload_drained _ h howner hidle)

theorem exec_idxUnload_drained (h : s.ready tok 0x41 d) (howner : (s.index (srIndex d.bits)).unloader = some tok)
    (hidle : s.indexBusy (srIndex d.bits) = false) : exec (.idxUnload tok) s =
      .next ((((s.begun tok d).freeIndex (srIndex d.bits)).setEvt F.SRH_EVT_UNLOADED).opEnd tok {}) := by
  change Host.Outcome.next (s.idxUnload tok) = _
  rw [State.idxUnload, h.1]
  exact congrArg Host.Outcome.next (unload_drained _ h howner hidle)

theorem exec_kvPoolDestroy_drained (h : s.ready tok 0x51 d) (howner : (s.kvAlloc (dfield d.bits 16 1)).destroyer = some tok)
    (hidle : s.rings.descs.any (fun t e => t != tok && !e.finished && (s.kvPools e.bits).contains (dfield d.bits 16 1)
      && (e.phase == .admitted || e.phase == .running || e.begun)) = false) : exec (.kvPoolDestroy tok) s =
      .next ((((s.begun tok d).freePool (dfield d.bits 16 1)).setEvt F.KVS_EVT_POOL_DESTROYED).opEnd tok {}) := by
  change execKvPoolDestroy tok s = _
  rw [execKvPoolDestroy, h.1]
  exact congrArg Host.Outcome.next (unload_drained _ h howner hidle)

theorem exec_qDestroy_drained (h : s.ready tok 0x61 d) (howner : (s.queue (qNum d.bits)).destroyer = some tok)
    (hidle : s.queueBusy (qNum d.bits) = false) : exec (.qDestroy tok) s =
      .next ((((s.begun tok d).freeQueue (qNum d.bits)).setEvt F.QUE_EVT_DESTROYED).opEnd tok {}) := by
  change Host.Outcome.next (s.qDestroy tok) = _
  rw [State.qDestroy, h.1]
  exact congrArg Host.Outcome.next (unload_drained _ h howner hidle)

end

/-- Settles O37: the row acts as the row of the descriptor named, which finds its object at rest. -/
theorem drainedUnloads : Obligations.DrainedUnloads := by
  unfold Obligations.DrainedUnloads
  exact fun s tok d =>
    ⟨fun h howner hidle => (exec_unloadDrainComplete h).trans (exec_tpUnload_drained h howner hidle),
      fun h howner hidle => (exec_unloadDrainComplete h).trans (exec_tblUnload_drained h howner hidle),
      fun h howner hidle => (exec_unloadDrainComplete h).trans (exec_idxUnload_drained h howner hidle),
      fun h howner hidle => (exec_unloadDrainComplete h).trans (exec_kvPoolDestroy_drained h howner hidle),
      fun h howner hidle => (exec_unloadDrainComplete h).trans (exec_qDestroy_drained h howner hidle)⟩

end Sys2Proof.Machine
end

section

namespace Sys2Proof.Machine

/-! ## Every command has a next state -/

theorem ite_completes {c : Prop} [Decidable c] {a b : Host.Outcome State Fault Refusal} (ha : ∃ t, a = .next t)
    (hb : ∃ t, b = .next t) : ∃ t, (if c then a else b) = .next t := by
  split
  · exact ha
  · exact hb

theorem unloadDrainComplete_completes (tok : Nat) (s : State) : completes (.unloadDrainComplete tok) s := by
  change ∃ t, execUnloadDrainComplete tok s = .next t
  unfold execUnloadDrainComplete
  split
  case h_1 => exact ⟨_, rfl⟩
  case h_2 =>
    exact ite_completes ⟨_, rfl⟩ (ite_completes ⟨_, rfl⟩ (ite_completes ⟨_, rfl⟩ (ite_completes ⟨_, rfl⟩
      (ite_completes ⟨_, rfl⟩ ⟨_, rfl⟩))))

/-- No arm raises a fault or a refusal: all but one answer `.next` at once, and UNLOAD_DRAIN_COMPLETE once its object is
known. -/
theorem exec_completes (c : Instr) (s : State) : completes c s := by
  cases c
  case unloadDrainComplete tok => exact unloadDrainComplete_completes tok s
  all_goals exact ⟨_, rfl⟩

/-! ## The front command is taken, and nothing else of the queue -/

theorem step_cons {s : State} {c : Instr} {rest : List Instr} (h : s.pending = c :: rest) :
    step s = exec c { s with pending := rest } := by
  rw [step, h]

theorem step_nil {s : State} (h : s.pending = []) : step s = .next s := by
  rw [step, h]

theorem step_takes_front {s : State} {c : Instr} {rest : List Instr} (h : s.pending = c :: rest) :
    ∃ t, step s = .next t ∧ t.pending = rest := by
  obtain ⟨t, ht⟩ := exec_completes c { s with pending := rest }
  obtain ⟨-, queue, -⟩ := kept_exec c { s with pending := rest } t ht
  exact ⟨t, (step_cons h).trans ht, queue⟩

theorem step_completes (s : State) : ∃ t, step s = .next t := by
  cases hqueue : s.pending with
  | nil => exact ⟨s, step_nil hqueue⟩
  | cons c rest =>
    obtain ⟨t, ht, -⟩ := step_takes_front hqueue
    exact ⟨t, ht⟩

theorem run_succ_of_step {n : Nat} {s t : State} (h : step s = .next t) :
    Host.Core.run Sys2Proof.core (n + 1) s = Host.Core.run Sys2Proof.core n t := by
  have first : Sys2Proof.core.step s = .next t := h
  simp only [Host.Core.run, first]

theorem safeRun_all (n : Nat) (s : State) : safeRun n s := by
  induction n generalizing s with
  | zero => exact ⟨s, rfl⟩
  | succ n ih =>
    obtain ⟨t, ht⟩ := step_completes s
    obtain ⟨u, hu⟩ := ih t
    exact ⟨u, (run_succ_of_step ht).trans hu⟩

/-- Settles O56: the bound of the records is the third of the things that a step keeps. -/
theorem faultRecordsStayBounded : Obligations.FaultRecordsStayBounded := by
  unfold Obligations.FaultRecordsStayBounded
  intro s t hbound hstep
  obtain ⟨-, -, hfaults⟩ := kept_step hstep
  exact hfaults hbound

/-- Settles O54: every command has a next state and keeps the rest of the queue, so a run goes on for every number of
steps. -/
theorem runsNeitherFaultNorRefuse : Obligations.RunsNeitherFaultNorRefuse := by
  unfold Obligations.RunsNeitherFaultNorRefuse
  exact ⟨fun s c l h => step_takes_front h, safeRun_all⟩

/-- Settles O1, by the equation of a step with a command in front. -/
theorem stepRunsFrontCommand : Obligations.StepRunsFrontCommand := by
  unfold Obligations.StepRunsFrontCommand
  exact fun c rest s => step_cons

/-- Settles O2, by the equation of a step of an empty queue. -/
theorem emptyQueueIdles : Obligations.EmptyQueueIdles := by
  unfold Obligations.EmptyQueueIdles
  exact fun s => step_nil

/-! ## The state after a cold reset meets both invariants -/

theorem reset_memOk : State.reset.memOk := rfl

/-- Settles O57: memory and the fault records are empty lists, which are canonical and within their bound. -/
theorem invariantsHoldAtReset : Obligations.InvariantsHoldAtReset := by
  unfold Obligations.InvariantsHoldAtReset
  exact ⟨reset_memOk, faultsOk_nil, rfl, rfl⟩

end Sys2Proof.Machine
end

section

namespace Sys2Proof.Machine

/-! ## Registers right after a cold reset (R546) -/

/-- The words of a guard page that a cold reset clears. -/
theorem resetWord_guardPage : ∀ b < blockCount, ∀ off ∈ [Reg.GRD_PORT_EN b, Reg.GRD_REJECTS b, Reg.GRD_LAST_ADDR b,
    Reg.GRD_LAST_DATA b, Reg.GRD_LAST_INFO b, Reg.GRD_LAST_TICK b], resetWord off = 0 := by decide

theorem reset_mayWrite {path b : Nat} (hpath : path < 8) (hb : b < blockCount) (hmbx : b ≠ B_MBX) :
    State.reset.mayWrite path b = false := by
  have closed : State.reset.word (Reg.GRD_PORT_EN b) = 0 :=
    (State.reset_word _).trans (resetWord_guardPage b hb _ (by simp))
  have enabled : State.reset.fld (F.GRD_PORT_EN_PORT_EN b) = 0 := by
    rw [State.fld, F.GRD_PORT_EN_PORT_EN, closed]
    rfl
  simp [State.mayWrite, enabled, hmbx, hpath]

/-- Settles O3: every guard page reads 0, and no guard or mailbox is listed. -/
theorem coldResetRegisterAccess : Obligations.ColdResetRegisterAccess := by
  unfold Obligations.ColdResetRegisterAccess
  refine ⟨fun path b => reset_mayWrite, fun b hb => ?pages, fun path off cycle => rfl, fun m => rfl⟩
  case pages =>
    have zero := resetWord_guardPage b hb
    simp only [List.mem_cons, List.not_mem_nil, or_false, forall_eq_or_imp, forall_eq] at zero
    simp only [State.reset_word]
    exact zero

/-! ## The guard of a path (R541) -/

section
variable {s : State} {path off cycle : Nat} {g : Guard}

theorem expireGuard_unarmed (cycle : Nat) (h : s.regs.guards.find path = none) : s.expireGuard path cycle = s := by
  rw [State.expireGuard, h]

theorem expireGuard_armed (h : s.regs.guards.find path = some g) : s.expireGuard path cycle =
    if g.cycle + 64 ≤ cycle then (s.setGuard path none).logReject (g.off / 0x10000) g.off g.value GUARD_TIMEOUT path
    else s := by
  rw [State.expireGuard, h]

theorem expireGuard_early (h : s.regs.guards.find path = some g) (hc : cycle < g.cycle + 64) :
    s.expireGuard path cycle = s :=
  (expireGuard_armed h).trans (if_neg (Nat.not_le.2 hc))

theorem armed_unarmed (off cycle : Nat) (h : s.regs.guards.find path = none) : s.armed path off cycle = none := by
  rw [State.armed, h]

theorem armed_of_find (h : s.regs.guards.find path = some g) :
    s.armed path off cycle = if g.off = off ∧ cycle < g.cycle + 64 then some g else none := by
  rw [State.armed, h]

theorem armed_some (h : s.armed path off cycle = some g) :
    s.regs.guards.find path = some g ∧ g.off = off ∧ cycle < g.cycle + 64 := by
  cases hfind : s.regs.guards.find path with
  | none => cases (armed_unarmed off cycle hfind).symm.trans h
  | some g' =>
    rw [armed_of_find hfind] at h
    by_cases hlive : g'.off = off ∧ cycle < g'.cycle + 64
    · rw [if_pos hlive] at h
      cases h
      exact ⟨rfl, hlive⟩
    · rw [if_neg hlive] at h
      cases h

theorem find_setGuard_self (s : State) (path : Nat) (g : Guard) :
    (s.setGuard path (some g)).regs.guards.find path = some g := Tab.find_put_self ..

theorem find_setGuard_other (s : State) {path p : Nat} (g : Guard) (h : p ≠ path) :
    (s.setGuard path (some g)).regs.guards.find p = s.regs.guards.find p := Tab.find_put_other _ _ h

theorem armGuard_unarmed (v : Word) (h : s.regs.guards.find path = none) : s.armGuard path off v cycle =
    s.setGuard path (some { off := off, value := v, cycle := cycle }) := by
  rw [State.armGuard, h]

theorem armGuard_breaks (v : Word) (h : s.regs.guards.find path = some g) (hc : cycle < g.cycle + 64) :
    s.armGuard path off v cycle = (s.logReject (g.off / 0x10000) g.off g.value GUARD_BROKEN path).setGuard path
      (some { off := off, value := v, cycle := cycle }) := by
  rw [State.armGuard, h]
  dsimp only
  rw [if_pos hc]

end

/-! ## A write of one word (R530 to R533) -/

/-- An effect refused is logged as `runEffect` logs it. -/
theorem tryEffect_fst (s : State) (path off : Nat) (v : Word) (eff : RegEffect) :
    (s.tryEffect path off off v v eff).1 = s.runEffect path off v eff := by
  unfold State.tryEffect State.runEffect
  cases eff v s with
  | mk t r => cases r <;> rfl

/-- The first words hold no guarded register, so no guarded register stands below the upper half of a first pair. -/
theorem four_le_of_guarded {off : Nat} (h : isGuarded off = true) : 4 ≤ off := by
  have free : ∀ o < 4, isGuarded o = false := by decide
  refine Nat.not_lt.1 fun hlow => ?_
  cases h.symm.trans (free off hlow)

section
variable {s : State} {path off cycle : Nat} (v : Word) (hregs : inRegs off)
include hregs

/-- A write outside the aliased-bit, mailbox and MSI-X arrays, no pair of the path having timed out: by the path's armed pair, or
by the register's kind. -/
theorem wordWrite_inRegs (hlive : s.expireGuard path cycle = s) : s.wordWrite path off v cycle =
    match s.armed path (off - 4) cycle with
    | some g =>
      if g.off + 4 = off then
        if s.mayWrite path (off / 0x10000) then s.completePair path g v cycle
        else (s.logReject (off / 0x10000) off v REG_PATH path, true)
      else (s, false)
    | none =>
      if !s.pathMay path off then (s.logReject (off / 0x10000) off v REG_PATH path, true)
      else if isGuarded off then (s.armGuard path off v cycle, false)
      else if allReadOnly off then (s, false)
      else s.tryEffect path off off v v (effPlain off cycle) := by
  obtain ⟨-, halias, hmbx, hmsix, hpba, hreg⟩ := hregs
  rw [State.wordWrite]
  simp only [hlive, halias, hmbx, hmsix, hpba, hreg, Bool.false_eq_true, if_false, or_self, Bool.not_true] <;> rfl

theorem wordWrite_unarmed (hlive : s.expireGuard path cycle = s) (hnone : s.armed path (off - 4) cycle = none) :
    (s.wordWrite path off v cycle).1 =
      if s.pathMay path off = false then s.logReject (off / 0x10000) off v REG_PATH path
      else if isGuarded off then s.armGuard path off v cycle
      else if allReadOnly off then s
      else s.runEffect path off v (effPlain off cycle) := by
  rw [wordWrite_inRegs v hregs hlive, hnone]
  dsimp only
  cases s.pathMay path off with
  | false => rfl
  | true =>
    simp only [Bool.not_true, Bool.false_eq_true, Bool.true_eq_false, if_false, ← tryEffect_fst]
    cases isGuarded off <;> cases allReadOnly off <;> rfl

theorem wordWrite_arms (hlive : s.expireGuard path cycle = s) (hnone : s.armed path (off - 4) cycle = none)
    (hguarded : isGuarded off = true) (hmay : s.pathMay path off = true) :
    (s.wordWrite path off v cycle).1 = s.armGuard path off v cycle := by
  rw [wordWrite_unarmed v hregs hlive hnone, if_neg (ne_false_of_eq_true hmay), if_pos hguarded]

end

/-- The write of the upper half of the path's armed pair completes it or breaks it. -/
theorem wordWrite_pair {s : State} {path cycle : Nat} {g : Guard} (v : Word) (h : s.armed path g.off cycle = some g)
    (hregs : inRegs (g.off + 4)) (hmay : s.mayWrite path ((g.off + 4) / 0x10000) = true) :
    (s.wordWrite path (g.off + 4) v cycle).1 =
      if v = ~~~g.value then (s.setGuard path none).runEffect path g.off g.value (effGuarded g.off cycle)
      else (s.setGuard path none).logReject (g.off / 0x10000) g.off g.value GUARD_COMPLEMENT path := by
  obtain ⟨hfind, -, hc⟩ := armed_some h
  rw [wordWrite_inRegs v hregs (expireGuard_early hfind hc), Nat.add_sub_cancel, h]
  dsimp only
  rw [if_pos rfl, if_pos hmay, State.completePair, ← tryEffect_fst]
  exact apply_ite Prod.fst _ _ _

/-! ## Register writes by their width (R529) -/

theorem regWrite_word {s : State} {path addr : Nat} (data cycle : Nat) (hin : addr < 2 ^ 24) (halign : addr % 4 = 0) :
    s.regWrite path addr 4 data cycle = s.wordWrite path addr (BitVec.ofNat 32 data) cycle := by
  rw [State.regWrite, if_neg (Nat.not_le.2 hin), if_pos ⟨rfl, halign⟩]

theorem regWrite_outside {s : State} {path addr : Nat} (len data cycle : Nat) (hout : 2 ^ 24 ≤ addr) :
    s.regWrite path addr len data cycle = (s, false) := if_pos hout

/-- An aligned write of 8 bytes is the write of its lower word, then of its upper word. -/
theorem regWrite_eight (s : State) {path addr : Nat} (data cycle : Nat) (halign : addr % 8 = 0) :
    (s.regWrite path addr 8 data cycle).1 =
      ((s.regWrite path addr 4 data cycle).1.regWrite path (addr + 4) 4 (data / 2 ^ 32) cycle).1 := by
  by_cases hin : addr < 2 ^ 24
  · rw [regWrite_word data cycle hin (by omega), regWrite_word _ cycle (by omega) (by omega), State.regWrite,
      if_neg (Nat.not_le.2 hin), if_neg (by omega), if_pos ⟨rfl, halign⟩]
  · rw [regWrite_outside 8 data cycle (Nat.not_lt.1 hin), regWrite_outside 4 data cycle (Nat.not_lt.1 hin),
      regWrite_outside _ _ _ (by omega)]

theorem exec_registerWrite_misaligned {s : State} {path addr len : Nat} (data cycle : Nat)
    (h : s.regs.guards.find path = none) (hin : addr < 2 ^ 24) (hblock : blockOf addr < blockCount)
    (hfour : ¬(len = 4 ∧ addr % 4 = 0)) (height : ¬(len = 8 ∧ addr % 8 = 0)) :
    exec (.registerWrite path addr len data cycle) s =
      .next (s.logReject (blockOf addr) addr (BitVec.ofNat 32 data) REG_WIDTH path) := by
  change Host.Outcome.next (s.regWrite path addr len data cycle).1 = _
  rw [State.regWrite, if_neg (Nat.not_le.2 hin), if_neg hfour, if_neg height, if_pos hblock, expireGuard_unarmed cycle h]

theorem exec_registerWrite_unarmed {s : State} {path off : Nat} (data cycle : Nat) (h : s.regs.guards.find path = none)
    (hregs : inRegs off) (halign : off % 4 = 0) : exec (.registerWrite path off 4 data cycle) s =
      if s.pathMay path off = false then .next (s.logReject (off / 0x10000) off (BitVec.ofNat 32 data) REG_PATH path)
      else if isGuarded off then
        .next (s.setGuard path (some { off := off, value := BitVec.ofNat 32 data, cycle := cycle }))
      else if allReadOnly off then .next s
      else .next (s.runEffect path off (BitVec.ofNat 32 data) (effPlain off cycle)) := by
  change Host.Outcome.next (s.regWrite path off 4 data cycle).1 = _
  obtain ⟨hin, -⟩ := id hregs
  rw [regWrite_word data cycle hin halign,
    wordWrite_unarmed _ hregs (expireGuard_unarmed cycle h) (armed_unarmed _ cycle h), armGuard_unarmed _ h]
  rw [apply_ite Host.Outcome.next, apply_ite Host.Outcome.next, apply_ite Host.Outcome.next]

/-! ## Bit aliases (R534, R535) -/

theorem exec_bitAliasWrite {s : State} {path addr off k : Nat} (data : Word) (cycle : Nat)
    (h : s.regs.guards.find path = none) (hin : inAlias addr = true) (halign : addr % 4 = 0)
    (hreg : aliasReg addr = (off, k)) :
    exec (.bitAliasWrite path addr data cycle) s = .next (s.bitWrite path off k addr data cycle).1 := by
  have aligned : (inAlias addr && addr % 4 == 0) = true := by rw [hin, halign]; rfl
  refine congrArg Host.Outcome.next ((if_pos aligned).trans ?_)
  rw [State.wordWrite, expireGuard_unarmed cycle h, if_pos hin, State.aliasWrite, hreg]

theorem bitWrite_inRegs {s : State} {path off k addr cycle : Nat} {data : Word} (hregs : inRegs off)
    (hmay : s.pathMay path off = true) : s.bitWrite path off k addr data cycle = match accOf off k with
      | some .rwg => (s.logReject (off / 0x10000) addr data GUARD_ALIAS path, true)
      | some .rw =>
        s.tryEffect path off addr (putBits (s.viewWord off) k 1 (boolNat (bitOf data 0))) data (effPlain off cycle)
      | some .w1c =>
        if bitOf data 0 then (s, false)
        else s.tryEffect path off addr (BitVec.ofNat 32 (2 ^ k)) data (effPlain off cycle)
      | some .wo =>
        if bitOf data 0 then s.tryEffect path off addr (putBits (s.viewWord off) k 1 1) data (effPlain off cycle)
        else (s, false)
      | _ => (s, false) := by
  obtain ⟨-, -, hmbx, -, -, hreg⟩ := hregs
  simp only [State.bitWrite, hmbx, hreg, hmay, Bool.false_eq_true, if_false, Bool.not_true] <;> rfl

/-- Settles O10: a word by what stands at its offset, the widths by their words, and an aliased bit by its access code. -/
theorem registerWrites : Obligations.RegisterWrites := by
  unfold Obligations.RegisterWrites
  refine ⟨fun s path off data cycle => exec_registerWrite_unarmed data cycle,
    fun s path addr len data cycle => exec_registerWrite_misaligned data cycle,
    fun s t path addr data cycle halign hlow => ?eight, fun s addr data cycle => rfl,
    fun s path addr off k cycle data h hin halign hreg hregs hmay => ⟨fun hacc => ?guarded, fun t hacc heff => ?stored⟩⟩
  case eight =>
    cases hlow
    exact congrArg Host.Outcome.next (regWrite_eight s data cycle halign)
  case guarded => rw [exec_bitAliasWrite data cycle h hin halign hreg, bitWrite_inRegs hregs hmay, hacc]
  case stored =>
    rw [exec_bitAliasWrite data cycle h hin halign hreg, bitWrite_inRegs hregs hmay, hacc]
    dsimp only
    rw [State.tryEffect, heff]

/-! ## The log of a rejected write (R544) -/

section
variable (s : State) (b addr reason path : Nat) (v : Word) (m : Bool)

/-- The words of the guard page after a rejection. -/
theorem word_logReject (o : Nat) : (s.logReject b addr v reason path m).word o =
    if o = Reg.GRD_EVT b then putBits (s.word (Reg.GRD_EVT b)) 0 1 1
    else if o = Reg.GRD_LAST_TICK b then BitVec.ofNat 32 s.tick.now
    else if o = Reg.GRD_LAST_INFO b then
      putBits (putBits (putBits (s.word (Reg.GRD_LAST_INFO b)) 16 16 reason) 12 4 (pathCode path)) 11 1 (boolNat m)
    else if o = Reg.GRD_LAST_DATA b then v
    else if o = Reg.GRD_LAST_ADDR b then putBits (s.word (Reg.GRD_LAST_ADDR b)) 0 24 addr
    else if o = Reg.GRD_REJECTS b then
      putBits (s.word (Reg.GRD_REJECTS b)) 0 32 (s.fld (F.GRD_REJECTS_COUNT b) + 1)
    else s.word o := by
  rw [State.logReject, word_withSummary]
  by_cases info : o = b * 0x10000 + 0x0F10 <;> simp [info, State.setFld, F.GRD_REJECTS_COUNT, F.GRD_LAST_ADDR_ADDR,
    F.GRD_LAST_INFO_REASON, F.GRD_LAST_INFO_PATH, F.GRD_LAST_INFO_MBX, F.GRD_EVT_REJECT, Reg.GRD_REJECTS,
    Reg.GRD_LAST_ADDR, Reg.GRD_LAST_DATA, Reg.GRD_LAST_INFO, Reg.GRD_LAST_TICK, Reg.GRD_EVT] <;> rfl

/-- The log stands in the guard page of its block. -/
theorem word_logReject_other {o : Nat} (h : o / 0x10000 ≠ b) : (s.logReject b addr v reason path m).word o = s.word o := by
  have apart : ∀ k < 0x10000, o ≠ b * 0x10000 + k := fun k hk e => h (by omega)
  simp [word_logReject, Reg.GRD_EVT, Reg.GRD_LAST_TICK, Reg.GRD_LAST_INFO, Reg.GRD_LAST_DATA, Reg.GRD_LAST_ADDR,
    Reg.GRD_REJECTS, apart]

theorem logReject_addr (h : addr < 2 ^ 24) :
    (s.logReject b addr v reason path m).fld (F.GRD_LAST_ADDR_ADDR b) = addr := by
  have stored : (s.logReject b addr v reason path m).word (Reg.GRD_LAST_ADDR b) =
      putBits (s.word (Reg.GRD_LAST_ADDR b)) 0 24 addr := by
    simp [word_logReject, Reg.GRD_LAST_ADDR, Reg.GRD_EVT, Reg.GRD_LAST_TICK, Reg.GRD_LAST_INFO, Reg.GRD_LAST_DATA]
  rw [State.fld, F.GRD_LAST_ADDR_ADDR, stored, bitsOf_putBits_self _ (by decide), Nat.mod_eq_of_lt h]

theorem logReject_data : (s.logReject b addr v reason path m).word (Reg.GRD_LAST_DATA b) = v := by
  simp [word_logReject, Reg.GRD_EVT, Reg.GRD_LAST_TICK, Reg.GRD_LAST_INFO, Reg.GRD_LAST_DATA]

theorem logReject_reason (h : reason < 2 ^ 16) :
    (s.logReject b addr v reason path m).fld (F.GRD_LAST_INFO_REASON b) = reason := by
  have stored : (s.logReject b addr v reason path m).word (Reg.GRD_LAST_INFO b) =
      putBits (putBits (putBits (s.word (Reg.GRD_LAST_INFO b)) 16 16 reason) 12 4 (pathCode path)) 11 1 (boolNat m) := by
    simp [word_logReject, Reg.GRD_EVT, Reg.GRD_LAST_TICK, Reg.GRD_LAST_INFO]
  change bitsOf ((s.logReject b addr v reason path m).word (Reg.GRD_LAST_INFO b)) 16 16 = reason
  rw [stored, bitsOf_putBits_other _ (by decide) (by decide), bitsOf_putBits_other _ (by decide) (by decide),
    bitsOf_putBits_self _ (by decide), Nat.mod_eq_of_lt h]

theorem logReject_event : (s.logReject b addr v reason path m).fld (F.GRD_EVT_REJECT b) = 1 := by
  have stored : (s.logReject b addr v reason path m).word (Reg.GRD_EVT b) = putBits (s.word (Reg.GRD_EVT b)) 0 1 1 := by
    rw [word_logReject, if_pos rfl]
  exact (congrArg (fun w : Word => bitsOf w 0 1) stored).trans (bitsOf_putBits_self _ (by decide))

end

/-! ## The guard protocol (R541 to R543) -/

theorem exec_guardArm {s : State} {path off cycle : Nat} {v : Word} (hregs : inRegs off) (hguarded : isGuarded off = true)
    (hmay : s.pathMay path off = true) (hlive : s.expireGuard path cycle = s)
    (hnone : s.armed path (off - 4) cycle = none) :
    exec (.guardArm path off v cycle) s = .next (s.armGuard path off v cycle) :=
  congrArg Host.Outcome.next ((if_pos hguarded).trans (wordWrite_arms v hregs hlive hnone hguarded hmay))

/-- A path with no armed guard arms it. -/
theorem exec_guardArm_arms {s : State} {path off : Nat} (cycle : Nat) (v : Word) (h : s.regs.guards.find path = none)
    (hregs : inRegs off) (hguarded : isGuarded off = true) (hmay : s.pathMay path off = true) :
    exec (.guardArm path off v cycle) s =
      .next (s.setGuard path (some { off := off, value := v, cycle := cycle })) := by
  rw [exec_guardArm hregs hguarded hmay (expireGuard_unarmed cycle h) (armed_unarmed _ cycle h), armGuard_unarmed v h]

/-- A write of another guarded register breaks the armed pair and arms its own. -/
theorem exec_guardArm_breaks {s : State} {path off cycle : Nat} {g : Guard} (v : Word)
    (h : s.regs.guards.find path = some g) (hc : cycle < g.cycle + 64) (hregs : inRegs off)
    (hguarded : isGuarded off = true) (hmay : s.pathMay path off = true) (hother : g.off + 4 ≠ off) :
    exec (.guardArm path off v cycle) s =
      .next ((s.logReject (g.off / 0x10000) g.off g.value GUARD_BROKEN path).setGuard path
        (some { off := off, value := v, cycle := cycle })) := by
  have high := four_le_of_guarded hguarded
  have elsewhere : s.armed path (off - 4) cycle = none :=
    (armed_of_find h).trans (if_neg fun at_ => hother (by omega))
  rw [exec_guardArm hregs hguarded hmay (expireGuard_early h hc) elsewhere, armGuard_breaks v h hc]

theorem exec_registerWrite_pair {s : State} {path cycle : Nat} {g : Guard} (data : Nat)
    (h : s.armed path g.off cycle = some g) (hregs : inRegs (g.off + 4)) (halign : g.off % 4 = 0)
    (hmay : s.mayWrite path ((g.off + 4) / 0x10000) = true) :
    exec (.registerWrite path (g.off + 4) 4 data cycle) s =
      if BitVec.ofNat 32 data = ~~~g.value
      then .next ((s.setGuard path none).runEffect path g.off g.value (effGuarded g.off cycle))
      else .next ((s.setGuard path none).logReject (g.off / 0x10000) g.off g.value GUARD_COMPLEMENT path) := by
  obtain ⟨hin, -⟩ := id hregs
  change Host.Outcome.next (s.regWrite path (g.off + 4) 4 data cycle).1 = _
  rw [regWrite_word data cycle hin (by omega), wordWrite_pair _ h hregs hmay]
  exact apply_ite Host.Outcome.next _ _ _

/-- Settles O11: each write by the guard the path has armed, and the log by the words of its guard page. -/
theorem guardProtocol : Obligations.GuardProtocol := by
  unfold Obligations.GuardProtocol
  refine ⟨fun s path off cycle v h hregs hguarded hmay => ⟨_, exec_guardArm_arms cycle v h hregs hguarded hmay, rfl,
      fun c hc => ?during, fun c hc => ?after, fun p => find_setGuard_other s _⟩,
    fun s path cycle g data h _ hregs halign => exec_registerWrite_pair data h hregs halign,
    fun s path off cycle g v => exec_guardArm_breaks v, fun s path cycle g h => ?timeout,
    fun s b addr reason path o v m => word_logReject_other s b addr reason path v m,
    fun s b addr reason path v m _ haddr hreason => ⟨logReject_onlyRegs .., logReject_addr s b addr reason path v m haddr,
      logReject_data .., logReject_reason s b addr reason path v m hreason, logReject_event ..⟩⟩
  case during => exact (armed_of_find (find_setGuard_self s path _)).trans (if_pos ⟨rfl, hc⟩)
  case after =>
    exact (armed_of_find (find_setGuard_self s path _)).trans (if_neg fun live => Nat.not_lt.2 hc live.2)
  case timeout =>
    change Host.Outcome.next (s.expireGuard path cycle) = _
    rw [expireGuard_armed h]
    exact apply_ite Host.Outcome.next _ _ _

end Sys2Proof.Machine
end

section

namespace Sys2Proof.Machine

/-! ## Rows that test a ready descriptor by hand -/

theorem ready_opens {s : State} {tok op : Nat} {d : Desc} (h : s.ready tok op d) :
    ¬(dOpcode d.bits ≠ op ∨ s.mayBegin tok d = false) := by
  obtain ⟨-, hop, hmay, -⟩ := h
  exact not_or.2 ⟨not_not_intro hop, ne_false_of_eq_true hmay⟩

/-! ## SLOT_ACTIVATE (R579) -/

section
variable {s s1 t : State} {tok : Nat} {ext l e : List Byte} {d : Desc} {segs : List (List Seg)}

theorem exec_slotActivate (h : s.granted tok 0xA0 d [⟨dfield d.bits 24 8, 64, 1, false⟩] s1 segs)
    (hpriv : dKeySlot d.bits = 0) (hoperands : slotOperandsOk d.bits = true)
    (hread : State.readSegs d (segs.headD []) ext s1 = (t, l, false, e)) (hdebug : t.sec.fuses.getLsbD 8 = false)
    (hfree : (t.slot (dfield d.bits 16 1)).phase = .free) (hnamed : t.slotNamed (dfield d.bits 16 1) = false)
    (hslice : t.sliceExists (dfield d.bits 17 1) = true) (ht : t.ready tok 0xA0 d) :
    exec (.slotActivate tok ext) s = .next (((t.begun tok d).activateSlot (dfield d.bits 16 1) (dfield d.bits 17 1)
      (BitVec.ofNat 384 (leNat (l.take 48)))).opEnd tok { result := nextEpoch (t.slot (dfield d.bits 16 1)).epoch }) := by
  obtain ⟨hs, hacq, -⟩ := h
  change execSlotActivate tok ext s = _
  rw [execSlotActivate, hs.1]
  dsimp only
  rw [if_neg (ready_opens hs), if_neg (not_not_intro hpriv), if_neg (ne_false_of_eq_true hoperands), hacq]
  dsimp only
  rw [hread]
  dsimp only
  rw [if_neg Bool.false_ne_true, if_neg (ne_true_of_eq_false hdebug),
    if_neg (not_or.2 ⟨not_not_intro hfree, ne_true_of_eq_false hnamed⟩), if_neg (ne_false_of_eq_true hslice),
    runDesc_ready _ ht]
  have epoch : (((t.begun tok d).activateSlot (dfield d.bits 16 1) (dfield d.bits 17 1)
      (BitVec.ofNat 384 (leNat (l.take 48)))).slot (dfield d.bits 16 1)).epoch =
        nextEpoch (t.slot (dfield d.bits 16 1)).epoch :=
    congrArg KeySlot.epoch (Tab.get_put_self ..)
  rw [epoch]

/-- R579: only slot 0 may activate. -/
theorem exec_slotActivate_unprivileged (ext : List Byte) (h : s.ready tok 0xA0 d) (hpriv : dKeySlot d.bits ≠ 0) :
    exec (.slotActivate tok ext) s = .next ((s.begun tok d).opEnd tok (cpl ST_PERMISSION SEC_PRIV)) := by
  change execSlotActivate tok ext s = _
  rw [execSlotActivate, h.1]
  dsimp only
  rw [if_neg (ready_opens h), if_pos hpriv, runDesc_ends _ h]

theorem exec_slotActivate_badOperands (ext : List Byte) (h : s.ready tok 0xA0 d) (hpriv : dKeySlot d.bits = 0)
    (hoperands : slotOperandsOk d.bits = false) :
    exec (.slotActivate tok ext) s = .next ((s.begun tok d).opEnd tok (cpl ST_REFUSED_FIT SEC_OPERAND)) := by
  change execSlotActivate tok ext s = _
  rw [execSlotActivate, h.1]
  dsimp only
  rw [if_neg (ready_opens h), if_neg (not_not_intro hpriv), if_pos hoperands, runDesc_ends _ h]

end

/-! ## Retirement and zeroisation (R581, Table 19-11) -/

theorem effSlotCtrl_eq {s : State} {v : Word} {k : Nat} (hretire : bitOf v 0 = true)
    (hk : k = s.fld F.SEC_SLOT_SEL_SLOT) : effSlotCtrl v s =
      if k ≠ 0 ∧ (s.slot k).phase = .active then (s.setSlot k { s.slot k with retirePending := true }, none)
      else (s, some REG_STATE) := by
  subst hk
  rw [effSlotCtrl, hretire]
  dsimp only
  rw [if_neg (by decide)]
  by_cases hbusy : s.fld F.SEC_SLOT_SEL_SLOT = 0 ∨ (s.slot (s.fld F.SEC_SLOT_SEL_SLOT)).phase ≠ .active
  · rw [if_pos hbusy, if_neg fun live => hbusy.elim live.1 (· live.2)]
  · obtain ⟨hother, hactive⟩ := not_or.1 hbusy
    rw [if_neg hbusy, if_pos ⟨hother, Decidable.not_not.1 hactive⟩]

theorem exec_slotRetire {s : State} {path cycle k : Nat} {v : Word} (h : s.pairReady path Reg.SEC_SLOT_CTRL v cycle)
    (hretire : bitOf v 0 = true) (hk : k = s.fld F.SEC_SLOT_SEL_SLOT) : exec (.slotRetire path (~~~v) cycle) s = .next (
      if k ≠ 0 ∧ (s.slot k).phase = .active then (s.setGuard path none).setSlot k { s.slot k with retirePending := true }
      else (s.setGuard path none).logReject B_SEC Reg.SEC_SLOT_CTRL v REG_STATE path) := by
  have effect := effSlotCtrl_eq (s := s.setGuard path none) hretire hk
  change Host.Outcome.next (s.guardPair path Reg.SEC_SLOT_CTRL (~~~v) cycle (fun v => bitOf v 0) effSlotCtrl) = _
  by_cases hactive : k ≠ 0 ∧ (s.slot k).phase = .active
  · rw [guardPair_ok h hretire (effect.trans (if_pos hactive)), if_pos hactive]
    rfl
  · rw [guardPair_rejected h hretire (effect.trans (if_neg hactive)), if_neg hactive]
    rfl

/-- A slot with no descriptor left gives up its objects, its copies and its keys, and keeps only its epoch. -/
theorem endZeroise_idle {s u : State} {k : Nat} (hidle : s.slotDescs k (fun _ => true) = [])
    (hu : (s.releaseObjects k).tierForget k = u) : s.endZeroise k = ((({ u with
      sec := { u.sec with
        modelKeys := u.sec.modelKeys.mapV (fun _ m => if m.slot = k then { m with live := false, key := [] } else m) }
      slots := u.slots.put k { epoch := (s.slot k).epoch } } : State).setEvt F.SEC_EVT_SLOT_ZEROISED).event SEC_ZEROISED LOC_MD
        (k + at_ 8 (s.slot k).epoch)) := by
  unfold State.endZeroise
  dsimp only
  rw [hidle, List.foldl_nil, hu]
  rfl

/-! ## OTP (R565 to R567) -/

theorem effOtpCtrl_refused {s : State} {v : Word} {r e : Nat} (hr : r = bitsOf v 0 8) (hprogram : bitOf v 31 = true)
    (hrefused : s.sec.otpRefused r = some e) : effOtpCtrl v s = (s, some e) := by
  subst hr
  rw [effOtpCtrl, hprogram, hrefused]
  rfl

theorem effOtpCtrl_queued {s : State} {v : Word} {r : Nat} (hr : r = bitsOf v 0 8) (hprogram : bitOf v 31 = true)
    (hfree : s.sec.otpRefused r = none) : effOtpCtrl v s =
      ({ s.setFld F.SEC_OTP_CTRL_RECORD r with
        sec := { s.sec with otpBusy := s.sec.otpBusy ++ [(4 * r + (s.sec.otpFree r).getD 0, s.sec.otpData)] } }, none) := by
  subst hr
  rw [effOtpCtrl, hprogram, hfree]
  rfl

theorem exec_otpProgramDone {s : State} {k : Nat} {w : Wide} {l : List (Nat × Wide)} (h : s.sec.otpBusy = (k, w) :: l) :
    exec .otpProgramDone s = .next (State.setEvt { s with
      sec := { s.sec with
        otp := s.sec.otp.put k w, otpBusy := l
        otpGen := ({ s.sec with otp := s.sec.otp.put k w, otpBusy := l } : SecState).genWord } }
        F.SEC_EVT_OTP_PROGRAMMED) := by
  change execOtpProgramDone s = _
  rw [execOtpProgramDone, h]
  rfl

/-- Settles O44: an activation by its checks, a retirement by the slot's phase, and a programming by R567. -/
theorem keySlotsAndOtp : Obligations.KeySlotsAndOtp := by
  unfold Obligations.KeySlotsAndOtp
  refine ⟨fun s s1 t tok ext l e d segs => exec_slotActivate, fun s k n owner => rfl,
    fun s tok ext d h => ⟨exec_slotActivate_unprivileged ext h, exec_slotActivate_badOperands ext h⟩,
    fun s path cycle k v => exec_slotRetire, fun s k => rfl, fun s u k => endZeroise_idle,
    fun s path cycle r v h hprogram hr => ⟨fun e hrefused => ?refused, fun hfree => ?queued⟩,
    fun s k w l => exec_otpProgramDone⟩
  case refused =>
    exact congrArg Host.Outcome.next
      (guardPair_rejected h hprogram (effOtpCtrl_refused (s := s.setGuard path none) hr hprogram hrefused))
  case queued =>
    exact congrArg Host.Outcome.next
      (guardPair_ok h hprogram (effOtpCtrl_queued (s := s.setGuard path none) hr hprogram hfree))

/-! ## The boundary-scan port (R569) -/

/-- Once debug is open no bounce key and no model key is left. -/
theorem openDebug_destroys_keys (s : State) :
    s.openDebug.sec.bounce = [] ∧ ∀ k m, (k, m) ∈ s.openDebug.sec.modelKeys → m.live = false ∧ m.key = [] := by
  refine ⟨rfl, fun k m hm => ?_⟩
  unfold State.openDebug at hm
  obtain ⟨⟨j, n⟩, -, heq⟩ := List.mem_map.1 hm
  cases heq
  exact ⟨rfl, rfl⟩

theorem exec_debugInstruction_blown {s : State} (code tdi count : Nat) (h : s.sec.fuses.getLsbD 0 = true) :
    exec (.debugInstruction code tdi count) s = exec (.bypass tdi count) s :=
  congrArg Host.Outcome.next (if_pos h)

theorem exec_debugInstruction_open {s t : State} {x : Nat} (code tdi count : Nat) (h : s.sec.fuses.getLsbD 0 = false)
    (ht : (if s.sec.fuses.getLsbD 8 then s else s.openDebug).draw = (x, t)) :
    exec (.debugInstruction code tdi count) s = .next (({ t with
      sec := { t.sec with tapInstr := TAP_DEBUG + code, extest := false } } : State).emit
        (.tdo (x % 2 ^ count) count)) := by
  change execDebugInstruction code tdi count s = _
  rw [execDebugInstruction, if_neg (ne_true_of_eq_false h)]
  dsimp only
  rw [ht]
  rfl

/-- Settles O45: each scan instruction is its row, a debug instruction by its fuse. -/
theorem scanPortAndDebug : Obligations.ScanPortAndDebug := by
  unfold Obligations.ScanPortAndDebug
  refine ⟨fun s tdi count => rfl, fun s t x cells count hdraw => ?scans,
    fun s code tdi count => exec_debugInstruction_blown code tdi count,
    fun s t x code tdi count => exec_debugInstruction_open code tdi count, openDebug_destroys_keys⟩
  case scans =>
    cases hdraw
    exact ⟨rfl, rfl, rfl⟩

/-! ## BOUNCE_IN and BOUNCE_OUT (R587 to R589) -/

section
variable {s s1 t u : State} {tok k p : Nat} {d : Desc} {ext : List Byte} {done tiles : List (List (List Seg))}
  {stop why : Option Cpl} {poison failed : Bool}

theorem exec_bounceIn_runs (hport : s.srcPort d.src = some p) (hwaits : s.bounceWaits tok p d = false)
    (h : s.grantedTiles tok 0xA1 d (bounceTiles 2 d s) s1 done stop) (hserved : bounceStops true d s = none)
    (hdevice : deviceTiles done stop = (tiles, why))
    (htake : (s1.begun tok d).takeFrames tok p d 0 tiles
      ((List.range (bnFrames d.bits)).map (fun i => (ext.drop (4160 * i)).take 4160)) = (t, k, failed)) :
    exec (.bounceIn tok ext) s = .next (t.opEnd tok {
      (if failed then cpl ST_PERMISSION SEC_BOUNCE_AUTH else why.getD {}) with
      done := k, dropped := bnFrames d.bits - k
      result := ((List.range k).map (bnBytes d.bits)).foldl (· + ·) 0 }) := by
  obtain ⟨hs, -⟩ := id h
  change execBounceIn tok ext s = _
  rw [execBounceIn, hs.1]
  dsimp only
  rw [hport, Option.getD_some, if_neg (ne_true_of_eq_false hwaits)]
  refine congrArg Host.Outcome.next (runTiles_ends h hserved ?_)
  rw [hdevice, htake]

/-- One frame of a BOUNCE_IN: it is written where it opens, and its sequence number becomes the last. -/
theorem takeFrames_cons (s : State) (tok p i : Nat) (d : Desc) (t : List (List Seg)) (ts : List (List (List Seg)))
    (f : List Byte) (fs : List (List Byte)) : s.takeFrames tok p d i (t :: ts) (f :: fs) =
      match openFrame (s.sec.bounce.get { key := [] } p) p (dfield d.bits 12 4) i (bnBytes d.bits i) f with
      | none => (s, i, true)
      | some (seq, l) =>
        let u := State.writeSegs tok d (descCredit d) (t.headD []) l s
        State.takeFrames { u with sec := { u.sec with bounce := u.sec.bounce.upd p (fun b => { b with last := seq }) } }
          tok p d (i + 1) ts fs := rfl

theorem exec_bounceOut_runs {b : BouncePort} (h : s.grantedTiles tok 0xA2 d (bounceTiles 1 d s) s1 done stop)
    (hserved : bounceStops false d s = none) (hdevice : deviceTiles done stop = (tiles, why))
    (hport : (s1.begun tok d).srcPort d.src = some p) (hb : b = s1.sec.bounce.get { key := [] } p)
    (hgive : State.giveFrames { s1.begun tok d with
      sec := { s1.sec with bounce := s1.sec.bounce.put p { b with next := b.next + bnFrames d.bits } } } p b.next b.key d 0
        tiles = (t, k, poison)) :
    exec (.bounceOut tok) s = .next (t.opEnd tok { (if poison then cpl ST_POISONED 0 else why.getD {}) with
      done := k, dropped := bnFrames d.bits - k, result := b.next }) := by
  subst hb
  refine congrArg Host.Outcome.next (runTiles_ends h hserved ?_)
  dsimp only
  rw [hdevice, hport]
  exact congrArg (fun r : State × Nat × Bool => (r.1, some {
    (if r.2.2 then cpl ST_POISONED 0 else why.getD {}) with
      done := r.2.1, dropped := bnFrames d.bits - r.2.1, result := (s1.sec.bounce.get { key := [] } p).next })) hgive

/-- One frame of a BOUNCE_OUT: it is sealed and written to the host, unless its data is poisoned. -/
theorem giveFrames_cons (p first i : Nat) (key : List Byte) {l e : List Byte} {segs : List (List Seg)}
    (ts : List (List (List Seg))) (hread : State.readSegs d (segs.headD []) [] s = (u, l, poison, e)) :
    s.giveFrames p first key d i (segs :: ts) = if poison then (u, i, true) else
      ((u.emit (.hostWrite p (bnHost d.bits + 4160 * i) (sealFrame key p (dfield d.bits 12 4) i (first + i) l))).notePosted
        d.src p).giveFrames p first key d (i + 1) ts := by
  rw [State.giveFrames, hread]
  cases poison <;> rfl

/-- R590: the port is no longer confidential for the descriptor's slot. -/
theorem bounceStops_unserved (credits : Bool) (h : s.bounceServed d = false) : bounceStops credits d s =
    some { status := ST_KEY_RETIRED, reason := SEC_RETIRING, dropped := bnFrames d.bits } := if_pos h

theorem exec_bounceIn_unserved (ext : List Byte) (hunserved : s.bounceServed d = false) (h : s.ready tok 0xA1 d)
    (hwaits : s.bounceWaits tok ((s.srcPort d.src).getD 0) d = false) :
    exec (.bounceIn tok ext) s = .next ((s.begun tok d).opEnd tok
      { status := ST_KEY_RETIRED, reason := SEC_RETIRING, dropped := bnFrames d.bits }) := by
  change execBounceIn tok ext s = _
  rw [execBounceIn, h.1]
  dsimp only
  rw [if_neg (ne_true_of_eq_false hwaits), runTiles_refused _ _ _ h (bounceStops_unserved true hunserved)]

end

/-- Settles O46: a transfer runs over its frames one by one, or ends at once where its port is not served. -/
theorem bounceFrames : Obligations.BounceFrames := by
  unfold Obligations.BounceFrames
  exact ⟨fun s s1 t tok k p d ext done tiles stop why failed => exec_bounceIn_runs,
    fun s tok p i d t ts f fs => takeFrames_cons s tok p i d t ts f fs, fun b p key i len f => rfl,
    fun s s1 t tok k p d b done tiles stop why poison => exec_bounceOut_runs,
    fun s p first i key d t ts u l e poison => giveFrames_cons p first i key ts,
    fun s tok d ext hunserved => ⟨exec_bounceIn_unserved ext hunserved, fun h =>
      congrArg Host.Outcome.next (runTiles_refused _ _ _ h (bounceStops_unserved false hunserved))⟩⟩

end Sys2Proof.Machine
end

section

namespace Sys2Proof.Machine

/-! ## Taking a request up (R570) -/

/-- The request comes on one of the ten transports, and leaves connection `c` and state `a` with its message number kept. -/
def State.takesUp (s : State) (via : Via) (c : SpdmConn) (a : State) : Prop :=
  via.transport < 10 ∧ c = { s.conn via.transport with mseq := via.mseq } ∧ a = s.setConn via.transport c

section
variable {s a : State} {via : Via} {c : SpdmConn} (h : s.takesUp via c a)
include h

theorem takesUp_conn : a.conn via.transport = c := by
  obtain ⟨-, -, rfl⟩ := h
  exact Tab.get_put_self ..

theorem spdmRequest_eq (ok : SpdmConn → Bool) (k : State → State) :
    s.spdmRequest via ok k = if ok c then k a else a.spdmError via.transport ERR_UNEXPECTED := by
  have hconn := takesUp_conn h
  obtain ⟨hlt, hc, ha⟩ := h
  rw [State.spdmRequest, if_neg (Nat.not_le.2 hlt), ← hc, ← ha]
  dsimp only
  rw [hconn]

theorem spdmRequest_taken {ok : SpdmConn → Bool} (k : State → State) (hok : ok c = true) :
    s.spdmRequest via ok k = k a := (spdmRequest_eq h ok k).trans (if_pos hok)

/-- A request out of turn. -/
theorem spdmRequest_early {ok : SpdmConn → Bool} (k : State → State) (hok : ok c = false) :
    s.spdmRequest via ok k = a.spdmError via.transport ERR_UNEXPECTED :=
  (spdmRequest_eq h ok k).trans (if_neg (ne_true_of_eq_false hok))

/-! ## Connection -/

theorem exec_getVersion : exec (.getVersion via) s = .next ((a.setConn via.transport
    { version := true, mseq := via.mseq, nextId := c.nextId }).spdmReply via.transport SPDM_VERSION
      (leBytes 2 0x1300)) := by
  change Host.Outcome.next (s.spdmRequest via _ _) = _
  rw [spdmRequest_taken h _ rfl, takesUp_conn h]

theorem exec_getCapabilities : exec (.getCapabilities via) s = .next (if c.version then
    (a.setConn via.transport { c with capabilities := true }).spdmReply via.transport SPDM_CAPABILITIES (leBytes 4 4096)
    else a.spdmError via.transport ERR_UNEXPECTED) := by
  change Host.Outcome.next (s.spdmRequest via _ _) = _
  rw [spdmRequest_eq h, takesUp_conn h]

theorem exec_negotiateAlgorithms : exec (.negotiateAlgorithms via) s = .next (if c.version && c.capabilities then
    (a.setConn via.transport { c with algorithms := true }).spdmReply via.transport SPDM_ALGORITHMS []
    else a.spdmError via.transport ERR_UNEXPECTED) := by
  change Host.Outcome.next (s.spdmRequest via _ _) = _
  rw [spdmRequest_eq h, takesUp_conn h]

/-! ## Identity and measurements (R562, R571, R572) -/

section
variable (hready : c.ready = true)
include hready

theorem exec_getDigests : exec (.getDigests via) s =
    .next (a.spdmReply via.transport SPDM_DIGESTS (leBytes 1 0x01 ++ Config.sha384 a.chain)) :=
  congrArg Host.Outcome.next (spdmRequest_taken h _ hready)

theorem exec_getCertificate {slot off len : Nat} {part : List Byte}
    (hpart : part = (a.chain.drop off).take (min len 4000)) : exec (.getCertificate via slot off len) s = .next (
      if slot = 0 ∧ off < a.chain.length then a.spdmReply via.transport SPDM_CERTIFICATE
        (leBytes 1 0 ++ leBytes 2 part.length ++ leBytes 2 (a.chain.length - off - part.length) ++ part)
      else a.spdmError via.transport ERR_INVALID_REQUEST) := by
  subst hpart
  change Host.Outcome.next (s.spdmRequest via _ _) = _
  rw [spdmRequest_taken h _ hready]
  by_cases hgood : slot = 0 ∧ off < a.chain.length
  · rw [if_pos hgood, if_neg (not_or.2 ⟨not_not_intro hgood.1, Nat.not_le.2 hgood.2⟩)]
  · rw [if_neg hgood, if_pos (by omega)]

theorem exec_challenge {slot : Nat} {nonce body : List Byte} (hbody : body = leBytes 1 0 ++ Config.sha384 a.chain) :
    exec (.challenge via slot nonce) s = .next (
      if slot = 0 then a.spdmReply via.transport SPDM_CHALLENGE_AUTH (body ++ a.sign (nonce ++ body))
      else a.spdmError via.transport ERR_INVALID_REQUEST) := by
  subst hbody
  change Host.Outcome.next (s.spdmRequest via _ _) = _
  rw [spdmRequest_taken h _ hready, ite_not]

theorem exec_getMeasurements {block : Nat} {nonce body : List Byte} (hbody : body = (if block = 0 then leBytes 1 9
      else if block = 0xFF then ((List.range 9).map (fun i => a.blockForm a.reported (i + 1))).flatten
      else a.blockForm a.reported block)) : exec (.getMeasurements via block nonce) s = .next (
      if block ≤ 9 ∨ block = 0xFF then a.spdmReply via.transport SPDM_MEASUREMENTS (body ++ a.sign (nonce ++ body))
      else a.spdmError via.transport ERR_INVALID_REQUEST) := by
  subst hbody
  change Host.Outcome.next (s.spdmRequest via _ _) = _
  rw [spdmRequest_taken h _ hready]
  by_cases hgood : block ≤ 9 ∨ block = 0xFF
  · rw [if_pos hgood, if_neg (by omega)]
  · rw [if_neg hgood, if_pos (by omega)]

/-! ## Sessions and chunks (R570) -/

theorem exec_keyExchange (slot : Nat) (auth : Bool) (leaf : BitVec 384) (rooted : Bool) :
    exec (.keyExchange via slot auth leaf rooted) s = .next (
      if slot ≠ 0 then a.spdmError via.transport ERR_INVALID_REQUEST
      else if 16 ≤ c.sessions.length then a.spdmError via.transport ERR_SESSION_LIMIT
      else
        let u := a.setConn via.transport { c with
          sessions := c.sessions ++ [{ id := c.nextId, authentic := auth, leaf := leaf, rooted := auth && rooted }]
          nextId := c.nextId + 1 }
        u.spdmReply via.transport SPDM_KEY_EXCHANGE_RSP (leBytes 4 c.nextId ++ u.sign (leBytes 4 c.nextId))) := by
  change Host.Outcome.next (s.spdmRequest via _ _) = _
  rw [spdmRequest_taken h _ hready, takesUp_conn h]

theorem exec_finish (id : Nat) (v : Bool) : exec (.finish via id v) s = .next (match c.session id with
    | none => a.spdmError via.transport ERR_INVALID_SESSION
    | some x =>
      if x.done then a.spdmError via.transport ERR_UNEXPECTED
      else if v then
        (a.setConn via.transport (c.setSession { x with done := true })).spdmReply via.transport SPDM_FINISH_RSP []
      else (a.setConn via.transport { c with sessions := c.sessions.filter (fun y => y.id != id) }).spdmError via.transport
        ERR_DECRYPT) := by
  change Host.Outcome.next (s.spdmRequest via _ _) = _
  rw [spdmRequest_taken h _ hready, takesUp_conn h] <;> rfl

theorem inSession_established {id : Nat} {x : SpdmSession} (k : SpdmSession → State → State) (hx : c.session id = some x)
    (hdone : x.done = true) : s.inSession via id k = k x a := by
  rw [State.inSession, spdmRequest_taken h _ hready, takesUp_conn h, hx]
  exact if_pos hdone

theorem inSession_refused {id : Nat} (k : SpdmSession → State → State)
    (hnone : c.session id = none ∨ ∃ x, c.session id = some x ∧ x.done = false) :
    s.inSession via id k = a.spdmError via.transport ERR_INVALID_SESSION := by
  rw [State.inSession, spdmRequest_taken h _ hready, takesUp_conn h]
  obtain hx | ⟨x, hx, hopen⟩ := hnone
  · rw [hx]
  · rw [hx]
    exact if_neg (ne_true_of_eq_false hopen)

theorem exec_keyUpdate {id : Nat} {x : SpdmSession} (hx : c.session id = some x) (hdone : x.done = true) :
    exec (.keyUpdate via id) s = .next ((a.setConn via.transport
      (c.setSession { x with updates := x.updates + 1 })).spdmReply via.transport SPDM_KEY_UPDATE_ACK []) := by
  change Host.Outcome.next (s.inSession via id _) = _
  rw [inSession_established h hready _ hx hdone, takesUp_conn h]

theorem exec_endSession {id : Nat} {x : SpdmSession} (hx : c.session id = some x) (hdone : x.done = true) :
    exec (.endSession via id) s = .next ((a.setConn via.transport { c with
      sessions := c.sessions.filter (fun y => y.id != id) }).spdmReply via.transport SPDM_END_SESSION_ACK []) := by
  change Host.Outcome.next (s.inSession via id _) = _
  rw [inSession_established h hready _ hx hdone, takesUp_conn h]

theorem exec_chunkSend (data : List Byte) (last : Bool) : exec (.chunkSend via data last) s = .next (
    (a.setConn via.transport { c with request := if last then [] else c.request ++ data }).spdmReply via.transport
      SPDM_CHUNK_SEND_ACK []) := by
  change Host.Outcome.next (s.spdmRequest via _ _) = _
  rw [spdmRequest_taken h _ hready, takesUp_conn h]

theorem exec_chunkGet : exec (.chunkGet via) s = .next (if c.response = [] then a.spdmError via.transport ERR_UNEXPECTED
    else (a.setConn via.transport { c with response := c.response.drop 4000 }).spdmReply via.transport SPDM_CHUNK_RESPONSE
      (c.response.take 4000)) := by
  change Host.Outcome.next (s.spdmRequest via _ _) = _
  rw [spdmRequest_taken h _ hready, takesUp_conn h]
  dsimp only
  simp only [List.isEmpty_iff]

end

end

/-- Settles O47: each request by the state its connection and its session are in. -/
theorem attestationRequests : Obligations.AttestationRequests := by
  unfold Obligations.AttestationRequests
  intro s a via t c ht hlt hc ha
  subst ht
  have h : s.takesUp via c a := ⟨hlt, hc, ha⟩
  refine ⟨exec_getVersion h, exec_getCapabilities h, exec_negotiateAlgorithms h, fun hready => ?ready, fun hearly => ?early⟩
  case ready =>
    refine ⟨exec_getDigests h hready, fun slot off len part => exec_getCertificate h hready,
      fun slot nonce body => exec_challenge h hready, fun block nonce body => exec_getMeasurements h hready,
      exec_keyExchange h hready, fun id v hx => ?noSession, fun id v x hx => ?session,
      fun id x hx hdone => ⟨congrArg Host.Outcome.next (inSession_established h hready _ hx hdone),
        exec_keyUpdate h hready hx hdone, exec_endSession h hready hx hdone⟩,
      fun id hnone => ?refused, exec_chunkSend h hready, exec_chunkGet h hready⟩
    case noSession => rw [exec_finish h hready, hx]
    case session => rw [exec_finish h hready, hx]
    case refused =>
      have refused (k : SpdmSession → State → State) := congrArg Host.Outcome.next (β := Host.Outcome State Fault Refusal)
        (inSession_refused h hready k hnone)
      exact ⟨refused _, refused _, refused _⟩
  case early =>
    have early (k : State → State) := congrArg Host.Outcome.next (β := Host.Outcome State Fault Refusal)
      (spdmRequest_early h k hearly)
    exact ⟨early _, fun _ _ _ => early _, fun _ _ => ⟨early _, early _⟩, fun _ _ _ _ => early _, fun _ _ => early _,
      fun _ => ⟨early _, early _, early _⟩, fun _ _ => early _, early _⟩

/-! ## Vendor-defined requests (R580, R582, R585) -/

section
variable {s a : State} {via : Via} {c : SpdmConn} (h : s.takesUp via c a) (hready : c.ready = true) {id : Nat} {p : List Byte}
include h hready

section
variable {len : Nat} (vcode : Nat) (k : Nat → Nat → State → State × Nat × Nat)

theorem vendor_short (hshort : p.length < len) :
    s.vendor via id vcode len p k = a.vendorReply via.transport vcode V_FORMAT 0 := by
  rw [State.vendor, spdmRequest_taken h _ hready]
  exact if_pos hshort

theorem vendor_barred {v : Nat} (hlen : len ≤ p.length)
    (hv : a.vendorBars via.transport id (vfield p 4 1) (vfield p 6 2) = some v) :
    s.vendor via id vcode len p k = a.vendorReply via.transport vcode v 0 := by
  rw [State.vendor, spdmRequest_taken h _ hready]
  dsimp only
  rw [if_neg (Nat.not_lt.2 hlen), hv]

theorem vendor_served {u : State} {v n : Nat} (hlen : len ≤ p.length)
    (hv : a.vendorBars via.transport id (vfield p 4 1) (vfield p 6 2) = none)
    (hk : k (vfield p 4 1) (vfield p 6 2) a = (u, v, n)) :
    s.vendor via id vcode len p k = u.vendorReply via.transport vcode v n := by
  rw [State.vendor, spdmRequest_taken h _ hready]
  dsimp only
  rw [if_neg (Nat.not_lt.2 hlen), hv]
  dsimp only
  rw [hk]

end

section
variable (hlen : 48 ≤ p.length) (hpass : a.vendorBars via.transport id (vfield p 4 1) (vfield p 6 2) = none)
include hlen hpass

theorem exec_modelKeySet_full (hfull : a.freeModelKey = none) :
    exec (.modelKeySet via id p) s = .next (a.vendorReply via.transport 0x01 V_FULL 0) := by
  refine congrArg Host.Outcome.next (vendor_served h hready _ _ hlen hpass ?_)
  rw [hfull]

theorem exec_modelKeySet_stored {n g : Nat} (hfree : a.freeModelKey = some n)
    (hg : g = nextGen (((a.sec.modelKeys.find n).map (fun m => m.gen)).getD 0)) :
    exec (.modelKeySet via id p) s = .next (State.vendorReply { a with
      sec := { a.sec with modelKeys := a.sec.modelKeys.put n ({
        gen := g, live := true, slot := vfield p 4 1, epoch := vfield p 6 2, program := vfield p 8 8
        key := (p.drop 16).take 32 }) } } via.transport 0x01 V_OK (n + at_ 8 g)) := by
  subst hg
  refine congrArg Host.Outcome.next (vendor_served h hready _ _ hlen hpass ?_)
  rw [hfree]
  rfl

theorem exec_confEnable : exec (.confEnable via id p) s = .next (
    if 7 < vfield p 5 1 then a.vendorReply via.transport 0x04 V_FORMAT 0
    else if a.confBusy (vfield p 5 1) (vfield p 4 1) then a.vendorReply via.transport 0x04 V_BUSY 0
    else State.vendorReply { a with sec := { a.sec with
      conf := a.sec.conf.put (vfield p 5 1) (vfield p 4 1)
      bounce := a.sec.bounce.put (vfield p 5 1) { key := (p.drop 16).take 32 } } } via.transport 0x04 V_OK 0) := by
  refine congrArg Host.Outcome.next ?_
  by_cases hport : 7 < vfield p 5 1
  · rw [if_pos hport]
    exact vendor_served h hready _ _ hlen hpass (if_pos hport)
  · rw [if_neg hport]
    by_cases hbusy : a.confBusy (vfield p 5 1) (vfield p 4 1) = true
    · rw [if_pos hbusy]
      exact vendor_served h hready _ _ hlen hpass ((if_neg hport).trans (if_pos hbusy))
    · rw [if_neg hbusy]
      exact vendor_served h hready _ _ hlen hpass ((if_neg hport).trans (if_neg hbusy))

end

theorem exec_flashKeySet (hlen : 80 ≤ p.length)
    (hpass : a.vendorBars via.transport id (vfield p 4 1) (vfield p 6 2) = none) :
    exec (.flashKeySet via id p) s = .next (
      if a.srh.indexes.any (fun _ x => x.phase != .free && x.key == vfield p 4 1)
      then a.vendorReply via.transport 0x03 V_BUSY 0
      else (a.setSlot (vfield p 4 1) { a.slot (vfield p 4 1) with flashKey := vfield p 16 64 }).vendorReply via.transport
        0x03 V_OK 0) := by
  refine congrArg Host.Outcome.next ?_
  by_cases hused : a.srh.indexes.any (fun _ x => x.phase != .free && x.key == vfield p 4 1) = true
  · rw [if_pos hused]
    exact vendor_served h hready _ _ hlen hpass (if_pos hused)
  · rw [if_neg hused]
    exact vendor_served h hready _ _ hlen hpass (if_neg hused)

/-- A drop acts on the key that the handle names, where it is live and of the handle's generation. -/
theorem exec_modelKeyDrop {n : Nat} (hn : n = vfield p 4 2) : exec (.modelKeyDrop via id p) s = .next (
    match a.sec.modelKeys.find (n % 64) with
    | none => a.vendorReply via.transport 0x02 V_FORMAT 0
    | some m =>
      if p.length < 6 ∨ m.live = false ∨ m.gen ≠ n / 256 ∨ n / 64 % 4 ≠ 0 then a.vendorReply via.transport 0x02 V_FORMAT 0
      else match a.vendorBars via.transport id m.slot m.epoch with
        | some v => a.vendorReply via.transport 0x02 v 0
        | none => State.vendorReply { a with
          sec := { a.sec with modelKeys := a.sec.modelKeys.put (n % 64) { m with live := false, key := [] } } }
            via.transport 0x02 V_OK 0) := by
  subst hn
  exact congrArg Host.Outcome.next (spdmRequest_taken h _ hready)

theorem exec_modelKeyDrop_live {n : Nat} {m : ModelKey} (hn : n = vfield p 4 2)
    (hm : a.sec.modelKeys.find (n % 64) = some m) (hlen : 6 ≤ p.length) (hlive : m.live = true) (hgen : m.gen = n / 256)
    (hreserved : n / 64 % 4 = 0) : exec (.modelKeyDrop via id p) s = .next (
      match a.vendorBars via.transport id m.slot m.epoch with
      | some v => a.vendorReply via.transport 0x02 v 0
      | none => State.vendorReply { a with
        sec := { a.sec with modelKeys := a.sec.modelKeys.put (n % 64) { m with live := false, key := [] } } }
          via.transport 0x02 V_OK 0) := by
  have good : ¬(p.length < 6 ∨ m.live = false ∨ m.gen ≠ n / 256 ∨ n / 64 % 4 ≠ 0) := by
    simp [Nat.not_lt.2 hlen, hlive, hgen, hreserved]
  rw [exec_modelKeyDrop h hready hn, hm]
  exact congrArg Host.Outcome.next (if_neg good)

theorem exec_modelKeyDrop_noKey (hbad : a.sec.modelKeys.find (vfield p 4 2 % 64) = none ∨ p.length < 6) :
    exec (.modelKeyDrop via id p) s = .next (a.vendorReply via.transport 0x02 V_FORMAT 0) := by
  rw [exec_modelKeyDrop h hready rfl]
  cases hm : a.sec.modelKeys.find (vfield p 4 2 % 64) with
  | none => rfl
  | some m =>
    have short : p.length < 6 := hbad.resolve_left (by rw [hm]; exact Option.some_ne_none m)
    exact congrArg Host.Outcome.next (if_pos (.inl short))

end

/-- Settles O48: each request by its payload's length, by the tests of R580, and by what it asks for. -/
theorem keyBrokerRequests : Obligations.KeyBrokerRequests := by
  unfold Obligations.KeyBrokerRequests
  intro s a via t id k c p ht hlt hc ha hready hk
  subst ht hk
  have h : s.takesUp via c a := ⟨hlt, hc, ha⟩
  refine ⟨fun hshort => ⟨congrArg Host.Outcome.next (vendor_short h hready _ _ hshort),
      congrArg Host.Outcome.next (vendor_short h hready _ _ hshort)⟩,
    fun hshort => congrArg Host.Outcome.next (vendor_short h hready _ _ hshort),
    fun v hv => ⟨fun hlen => ⟨congrArg Host.Outcome.next (vendor_barred h hready _ _ hlen hv),
        congrArg Host.Outcome.next (vendor_barred h hready _ _ hlen hv)⟩,
      fun hlen => congrArg Host.Outcome.next (vendor_barred h hready _ _ hlen hv)⟩,
    fun hpass hlen => ⟨exec_modelKeySet_full h hready hlen hpass, fun n g => exec_modelKeySet_stored h hready hlen hpass,
      exec_confEnable h hready hlen hpass⟩,
    fun hpass hlen => exec_flashKeySet h hready hlen hpass,
    fun m n hn hm hlen hlive hgen hreserved => ⟨fun v hv => ?barred, fun hpass => ?dropped⟩,
    exec_modelKeyDrop_noKey h hready⟩
  case barred => rw [exec_modelKeyDrop_live h hready hn hm hlen hlive hgen hreserved, hv]
  case dropped => rw [exec_modelKeyDrop_live h hready hn hm hlen hlive hgen hreserved, hpass]

end Sys2Proof.Machine
end

section

namespace Sys2Proof.Machine

/-! ## Protection commits (R604) -/

section
variable {s g : State} {v : Word} {path cycle n : Nat}

theorem effPgCommit_both (happly : bitOf v 0 = true) (hdiscard : bitOf v 1 = true) :
    effPgCommit v s = (s, some REG_VALUE) := by
  rw [effPgCommit, happly, hdiscard]
  rfl

theorem effPgCommit_apply (hn : n = s.fld F.RAS_PG_SEL_EXTENT) (happly : bitOf v 0 = true) (hdiscard : bitOf v 1 = false) :
    effPgCommit v s = match s.pgRefused (s.pg.committed.get 0 n) (s.pg.shadow.get 0 n) with
      | some r => (((s.setFld F.RAS_ERR_REASON r).setFld F.RAS_ERR_EXTENT n).setEvt F.RAS_EVT_PG_REFUSED, some REG_STATE)
      | none => ({ s with pg := { s.pg with pending := s.pg.pending.put n (s.pg.shadow.get 0 n) } }, none) := by
  subst hn
  rw [effPgCommit, happly, hdiscard] <;> rfl

theorem effPgCommit_discard (hn : n = s.fld F.RAS_PG_SEL_EXTENT) (happly : bitOf v 0 = false) (hdiscard : bitOf v 1 = true) :
    effPgCommit v s = ({ s with pg := { s.pg with shadow := s.pg.shadow.put n (s.pg.committed.get 0 n) } }, none) := by
  subst hn
  rw [effPgCommit, happly, hdiscard]
  rfl

/-- R604 reads nothing of the guards. -/
theorem pgRefused_setGuard (s : State) (path : Nat) (g : Option Guard) (old new : BitVec 256) :
    (s.setGuard path g).pgRefused old new = s.pgRefused old new := rfl

variable (h : s.pairReady path Reg.RAS_PG_COMMIT v cycle)
include h

theorem exec_pgCommit_both (happly : bitOf v 0 = true) (hdiscard : bitOf v 1 = true) :
    exec (.pgCommit path (~~~v) cycle) s =
      .next ((s.setGuard path none).logReject B_RAS Reg.RAS_PG_COMMIT v REG_VALUE path) :=
  congrArg Host.Outcome.next (guardPair_rejected h happly (effPgCommit_both happly hdiscard))

variable (hg : g = s.setGuard path none) (hn : n = s.fld F.RAS_PG_SEL_EXTENT)
include hg hn

theorem exec_pgCommit_refused {r : Nat} (happly : bitOf v 0 = true) (hdiscard : bitOf v 1 = false)
    (hr : s.pgRefused (s.pg.committed.get 0 n) (s.pg.shadow.get 0 n) = some r) :
    exec (.pgCommit path (~~~v) cycle) s = .next ((((g.setFld F.RAS_ERR_REASON r).setFld F.RAS_ERR_EXTENT n).setEvt
      F.RAS_EVT_PG_REFUSED).logReject B_RAS Reg.RAS_PG_COMMIT v REG_STATE path) := by
  subst hg
  refine congrArg Host.Outcome.next (guardPair_rejected h happly ?_)
  rw [effPgCommit_apply (s := s.setGuard path none) hn happly hdiscard, pgRefused_setGuard]
  change (match s.pgRefused (s.pg.committed.get 0 n) (s.pg.shadow.get 0 n) with | some r => _ | none => _) = _
  rw [hr]

theorem exec_pgCommit_queued (happly : bitOf v 0 = true) (hdiscard : bitOf v 1 = false)
    (hpass : s.pgRefused (s.pg.committed.get 0 n) (s.pg.shadow.get 0 n) = none) :
    exec (.pgCommit path (~~~v) cycle) s =
      .next { g with pg := { s.pg with pending := s.pg.pending.put n (s.pg.shadow.get 0 n) } } := by
  subst hg
  refine congrArg Host.Outcome.next (guardPair_ok h happly ?_)
  rw [effPgCommit_apply (s := s.setGuard path none) hn happly hdiscard, pgRefused_setGuard]
  change (match s.pgRefused (s.pg.committed.get 0 n) (s.pg.shadow.get 0 n) with | some r => _ | none => _) = _
  rw [hpass] <;> rfl

theorem exec_pgDiscard (happly : bitOf v 0 = false) (hdiscard : bitOf v 1 = true) :
    exec (.pgDiscard path (~~~v) cycle) s =
      .next { g with pg := { s.pg with shadow := s.pg.shadow.put n (s.pg.committed.get 0 n) } } := by
  subst hg
  refine congrArg Host.Outcome.next (guardPair_ok h ?_ (effPgCommit_discard (s := s.setGuard path none) hn happly hdiscard))
  rw [happly, hdiscard]
  rfl

end

/-! ## Building (R611 to R614) -/

section
variable {s u : State} {n : Nat} {e : BitVec 256} {src : List (Nat × List Byte)} {bad : List (Nat × Nat)}

theorem exec_pgBuildBlock_next (he : e = s.pg.committed.get 0 n)
    (hsources : (s.buildSources e).all (fun p => src.any (fun x => x.1 == p)) = true) (hbuilding : pgState e = PG_BUILDING)
    (hcursor : pgCursor e < 262144) (hmay : s.mayBuild n = true) :
    exec (.pgBuildBlock n src bad) s = .next (s.buildNext n e src bad).pump := by
  subst he
  change execPgBuildBlock n src bad s = _
  rw [execPgBuildBlock, hsources, if_neg (by decide), if_pos hbuilding, if_pos ⟨hcursor, hmay⟩]

theorem exec_pgBuildBlock_rebuilds (he : e = s.pg.committed.get 0 n)
    (hsources : (s.buildSources e).all (fun p => src.any (fun x => x.1 == p)) = true) (hbuilding : pgState e ≠ PG_BUILDING)
    (hrole : redundancyRole e = true) (hlull : s.isLull s.tick.now = true) :
    exec (.pgBuildBlock n src bad) s = .next (s.rebuildListed n e src bad) := by
  subst he
  change execPgBuildBlock n src bad s = _
  rw [execPgBuildBlock, hsources, if_neg (by decide), if_neg hbuilding, hrole, hlull]
  rfl

theorem exec_pgBuildBlock_waits (he : e = s.pg.committed.get 0 n)
    (hsources : (s.buildSources e).all (fun p => src.any (fun x => x.1 == p)) = false) :
    exec (.pgBuildBlock n src bad) s = .next s := by
  subst he
  change execPgBuildBlock n src bad s = _
  rw [execPgBuildBlock, hsources]
  rfl

/-- A block that is not the extent's last is stored, and only the cursor and the counts move. -/
theorem buildNext_advances (hcursor : pgCursor e + 1 < 262144)
    (hu : (List.range 64).foldl (fun (s : State) j => s.storeBuilt e (n * extentSize + 4096 * pgCursor e) j src bad) s = u) :
    s.buildNext n e src bad = { u with pg := { u.pg with
      committed := u.pg.committed.put n (putBits e 200 19 (pgCursor e + 1)), built := u.pg.built + 1
      builtBy := u.pg.builtBy.updD 0 n (fun k => k + 1) } } := by
  have unfinished : (pgCursor e + 1 == 262144) = false := beq_false_of_ne (Nat.ne_of_lt hcursor)
  unfold State.buildNext
  dsimp only
  rw [hu, unfinished]
  rfl

end

/-! ## Slice commits (R627, R629) -/

section
variable {s g : State} {v : Word} {path cycle n : Nat}

theorem effSliceCommit_both (happly : bitOf v 0 = true) (hdiscard : bitOf v 1 = true) :
    effSliceCommit cycle v s = (s, some REG_VALUE) := by
  rw [effSliceCommit, happly, hdiscard]
  rfl

theorem effSliceCommit_apply (hn : n = s.sliceSel) (happly : bitOf v 0 = true) (hdiscard : bitOf v 1 = false) :
    effSliceCommit cycle v s = match s.sliceFails n (s.sliceShadow n) false with
      | some r => (s.sliceRefuse n r, some REG_STATE)
      | none => ({ s with slices := { s.slices with pending := s.slices.pending.put n (s.sliceShadow n, cycle) } }, none) := by
  subst hn
  rw [effSliceCommit, happly, hdiscard] <;> rfl

theorem effSliceCommit_discard (hn : n = s.sliceSel) (happly : bitOf v 0 = false) (hdiscard : bitOf v 1 = true) :
    effSliceCommit cycle v s = ({ s with slices := { s.slices with shadow := s.slices.shadow.put n (s.slice n) } }, none) := by
  subst hn
  rw [effSliceCommit, happly, hdiscard]
  rfl

/-- R627 reads nothing of the guards. -/
theorem sliceFails_setGuard (s : State) (path : Nat) (g : Option Guard) (n : Nat) (d : BitVec 2048) (again : Bool) :
    (s.setGuard path g).sliceFails n d again = s.sliceFails n d again := rfl

variable (h : s.pairReady path Reg.CMP_SLICE_COMMIT v cycle)
include h

theorem exec_sliceCommit_both (happly : bitOf v 0 = true) (hdiscard : bitOf v 1 = true) :
    exec (.sliceCommit path (~~~v) cycle) s =
      .next ((s.setGuard path none).logReject B_CMP Reg.CMP_SLICE_COMMIT v REG_VALUE path) :=
  congrArg Host.Outcome.next (guardPair_rejected h happly (effSliceCommit_both happly hdiscard))

variable (hg : g = s.setGuard path none) (hn : n = s.sliceSel)
include hg hn

theorem exec_sliceCommit_refused {r : Nat} (happly : bitOf v 0 = true) (hdiscard : bitOf v 1 = false)
    (hr : s.sliceFails n (s.sliceShadow n) false = some r) :
    exec (.sliceCommit path (~~~v) cycle) s = .next (((g.setWord Reg.CMP_ERR (BitVec.ofNat 32 (r + at_ 16 n))).setEvt
      F.CMP_EVT_REFUSED).logReject B_CMP Reg.CMP_SLICE_COMMIT v REG_STATE path) := by
  subst hg
  refine congrArg Host.Outcome.next (guardPair_rejected h happly ?_)
  rw [effSliceCommit_apply (s := s.setGuard path none) hn happly hdiscard, sliceFails_setGuard]
  change (match s.sliceFails n (s.sliceShadow n) false with | some r => _ | none => _) = _
  rw [hr] <;> rfl

theorem exec_sliceCommit_pending (happly : bitOf v 0 = true) (hdiscard : bitOf v 1 = false)
    (hpass : s.sliceFails n (s.sliceShadow n) false = none) :
    exec (.sliceCommit path (~~~v) cycle) s =
      .next { g with slices := { s.slices with pending := s.slices.pending.put n (s.sliceShadow n, cycle) } } := by
  subst hg
  refine congrArg Host.Outcome.next (guardPair_ok h happly ?_)
  rw [effSliceCommit_apply (s := s.setGuard path none) hn happly hdiscard, sliceFails_setGuard]
  change (match s.sliceFails n (s.sliceShadow n) false with | some r => _ | none => _) = _
  rw [hpass] <;> rfl

theorem exec_sliceDiscard (happly : bitOf v 0 = false) (hdiscard : bitOf v 1 = true) :
    exec (.sliceDiscard path (~~~v) cycle) s =
      .next { g with slices := { s.slices with shadow := s.slices.shadow.put n (s.slice n) } } := by
  subst hg
  refine congrArg Host.Outcome.next
    (guardPair_ok h ?_ (effSliceCommit_discard (s := s.setGuard path none) hn happly hdiscard))
  rw [happly, hdiscard]
  rfl

end

/-- Settles O50: a commit by its two bits and its checks, a build by its sources and the extent's state. -/
theorem protectionAndSlices : Obligations.ProtectionAndSlices := by
  unfold Obligations.ProtectionAndSlices
  refine ⟨fun s g path cycle n v h hg hn => ?protection, fun s n e src bad he => ?build,
    fun s u n e src bad => buildNext_advances, fun s g path cycle n v h hg hn => ?slices⟩
  case protection =>
    subst hg
    exact ⟨exec_pgCommit_both h, fun r => exec_pgCommit_refused h rfl hn, exec_pgCommit_queued h rfl hn,
      exec_pgDiscard h rfl hn⟩
  case build =>
    exact ⟨fun hsources => ⟨exec_pgBuildBlock_next he hsources, exec_pgBuildBlock_rebuilds he hsources⟩,
      exec_pgBuildBlock_waits he⟩
  case slices =>
    subst hg
    exact ⟨exec_sliceCommit_both h, fun r => exec_sliceCommit_refused h rfl hn, exec_sliceCommit_pending h rfl hn,
      exec_sliceDiscard h rfl hn⟩

/-! ## Orders (R617, R648) -/

section
variable {s : State} {m : Msg} {c : Prop} [Decidable c] {oseq r : Nat} {refused : Option Nat} {k : State → State}

theorem order_if_refused (h : s.admitted m) : s.order m oseq (if c then some r else refused) k =
    if c then s.orderReply m oseq r else s.order m oseq refused k := by
  by_cases hc : c
  · rw [if_pos hc, if_pos hc, order_refused k h]
  · rw [if_neg hc, if_neg hc]

theorem order_discarded (h : ¬ s.admitted m) :
    s.order m oseq refused k = { s with ras := { s.ras with discarded := s.ras.discarded + 1 } } :=
  secured_discarded _ h

/-- Every message of a secured type acts through `State.secured`, so outside its session it is only counted. -/
theorem exec_secured_discarded (h : ¬ s.admitted m) (a b d : Nat) (f : Bool) {c : Instr}
    (hc : c ∈ [.retire m a b, .swapOut m a b, .swapTake m a b d f, .epochAnnounce m a b d, .buildPace m a b d,
      .suspectClear m a, .update m a b, .cold m, .warm m, .regRead m a, .regWrite m a b d]) :
    exec c s = .next { s with ras := { s.ras with discarded := s.ras.discarded + 1 } } := by
  simp only [List.mem_cons, List.not_mem_nil, or_false] at hc
  rcases hc with rfl | rfl | rfl | rfl | rfl | rfl | rfl | rfl | rfl | rfl | rfl <;>
    exact congrArg Host.Outcome.next (secured_discarded _ h)

variable (h : s.admitted m)
include h

theorem exec_retire (q a : Nat) : exec (.retire m q a) s = .next (
    if (partOf a).isSome then (s.dueLoc a).orderReply m q 0 else s.orderReply m q ORDER_FORMAT) := by
  refine congrArg Host.Outcome.next ((order_if_refused h).trans ?_)
  rw [order_accepted _ h]
  cases partOf a <;> rfl

theorem exec_swapOut (q t : Nat) : exec (.swapOut m q t) s = .next (
    if s.tick.now + 4 ≤ t then State.orderReply { s with ras := { s.ras with swapOut := some t } } m q 0
    else s.orderReply m q ORDER_TICK) := by
  refine congrArg Host.Outcome.next ((order_if_refused h).trans ?_)
  rw [order_accepted _ h]
  by_cases hlate : t < s.tick.now + 4
  · rw [if_pos hlate, if_neg (Nat.not_le_of_gt hlate)]
  · rw [if_neg hlate, if_pos (Nat.not_lt.1 hlate)]
    rfl

theorem exec_swapTake (q d t : Nat) (dead : Bool) : exec (.swapTake m q d t dead) s = .next (
    if t < s.tick.now + 4 then s.orderReply m q ORDER_TICK
    else if dead = false ∧ s.pg.committed.any (fun _ e =>
      pgSwapValid e && !(pgState e == PG_BUILDING && pgCursor e == 262144)) = true then s.orderReply m q ORDER_STATE
    else State.orderReply { s with ras := { s.ras with swapTake := some (d % 2 ^ 14, t, dead) } } m q 0) := by
  refine congrArg Host.Outcome.next ((order_if_refused h).trans ?_)
  rw [order_if_refused h, order_accepted _ h]
  cases dead
  · simp only [Bool.not_false, Bool.true_and, true_and]
    rfl
  · simp only [Bool.not_true, Bool.false_and, Bool.false_eq_true, Bool.true_eq_false, false_and]
    rfl

theorem exec_epochAnnounce {q d t e k : Nat} (hk : k = d % 2 ^ 14) (he : e = ((s.epochOf k).accepted + 1) % 256) :
    exec (.epochAnnounce m q d t) s = .next (
      if s.fld F.TIK_CTRL_MASTER = 0 then s.orderReply m q ORDER_STATE
      else if t < s.tick.now + 3 then s.orderReply m q ORDER_TICK
      else (State.announceEpoch { s with ras := { s.ras with
        announce := s.ras.announce.filter (fun a => a.1 != k) ++ [(k, e, t)] } } (k, e, t)).orderReply m q 0) := by
  subst hk he
  refine congrArg Host.Outcome.next ((order_if_refused h).trans ?_)
  rw [order_if_refused h, order_accepted _ h]
  rfl

theorem exec_buildPace (q x a : Nat) : exec (.buildPace m q x a) s = .next (
    if 1151 < x ∨ 65535 < a then s.orderReply m q ORDER_FORMAT
    else if s.assisted 9 = false then s.orderReply m q ORDER_STATE
    else State.orderReply { s with pg := { s.pg with pace := s.pg.pace.put x a } } m q 0) := by
  refine congrArg Host.Outcome.next ((order_if_refused h).trans ?_)
  rw [order_if_refused h, order_accepted _ h]

theorem exec_suspectClear {q : Nat} {u : State}
    (hu : u = if s.ras.suspect then s.queueFault { cls := 0x61, location := LOC_MD, detail := s.ras.lateTicks } else s) :
    exec (.suspectClear m q) s = .next (State.orderReply { u with
      ras := { u.ras with suspect := false, suspectSince := 0, window := [] } } m q 0) := by
  subst hu
  exact congrArg Host.Outcome.next (order_accepted _ h)

theorem exec_update (q x : Nat) : exec (.update m q x) s = .next (
    if 2 ≤ x then s.orderReply m q ORDER_FORMAT else if x = s.boot.image then s.orderReply m q ORDER_STATE
    else State.orderReply { s with boot := { s.boot with
      updating := s.boot.updating.filter (fun y => y != x) ++ [x] } } m q 0) := by
  refine congrArg Host.Outcome.next ((order_if_refused h).trans ?_)
  rw [order_if_refused h, order_accepted _ h]
  rfl

theorem exec_regRead_unaligned {a : Nat} (ha : a % 4 ≠ 0 ∨ 2 ^ 24 ≤ a) : exec (.regRead m a) s =
    .next (s.emit (.mgmtReply m.port 0x03 m.mseq (leBytes 4 a ++ leBytes 4 0 ++ leBytes 4 0))) := by
  refine congrArg Host.Outcome.next ((secured_admitted _ h).trans ?_)
  dsimp only
  rw [if_pos ha]

theorem exec_regRead_word {a : Nat} {w : Word} {u : State} (haligned : a % 4 = 0) (hin : a < 2 ^ 24)
    (hread : s.readWord (8 + m.port) a = (w, u)) : exec (.regRead m a) s =
      .next (u.emit (.mgmtReply m.port 0x03 m.mseq (leBytes 4 a ++ leBytes 4 w.toNat ++ leBytes 4 0))) := by
  refine congrArg Host.Outcome.next ((secured_admitted _ h).trans ?_)
  dsimp only
  rw [if_neg (not_or.2 ⟨not_not_intro haligned, Nat.not_le_of_gt hin⟩), hread]

theorem exec_regWrite {a v c w : Nat} {t u : State} {r : Bool} (hwrite : s.regWrite (8 + m.port) a 4 v c = (t, r))
    (hdraw : t.draw = (w, u)) : exec (.regWrite m a v c) s =
      .next (u.emit (.mgmtReply m.port 0x03 m.mseq (leBytes 4 a ++ leBytes 4 w ++ leBytes 4 (boolNat r)))) := by
  refine congrArg Host.Outcome.next ((secured_admitted _ h).trans ?_)
  dsimp only
  rw [hwrite]
  dsimp only
  rw [hdraw]

end

/-- Settles O51: an admitted order by its refusals in order, a register access by its address, and any other message
discarded. -/
theorem managementOrders : Obligations.ManagementOrders := by
  unfold Obligations.ManagementOrders
  exact fun s m => ⟨fun h => ⟨exec_retire h, exec_swapOut h, exec_swapTake h, fun q d t e k => exec_epochAnnounce h,
    exec_buildPace h, fun q u => exec_suspectClear h, exec_update h, congrArg Host.Outcome.next (secured_admitted _ h),
    congrArg Host.Outcome.next (secured_admitted _ h), fun a => exec_regRead_unaligned h, fun a w u => exec_regRead_word h,
    fun a v c t r w u => exec_regWrite h⟩, fun h a b d f c => exec_secured_discarded h a b d f⟩

end Sys2Proof.Machine
end

section

namespace Sys2Proof.Machine

/-! ## Boot stages (R642, R643, Table 22-5) -/

section
variable {s t : State} {rep : StageReport} {a b : BootImage} (hboot : s.booting = true)
include hboot

theorem exec_bootStageDone : exec (.bootStageDone rep) s = .next (s.stageDone rep) :=
  congrArg Host.Outcome.next (if_pos hboot)

/-- The stage in progress, by number, is the one whose actions are over. -/
theorem exec_bootStageDone_at {n : Nat} (hn : s.stage = n) : exec (.bootStageDone rep) s = .next (
    if n = STAGE_ROM then s.stageRom rep
    else if n = STAGE_FIRMWARE then s.stageFirmware rep
    else if n = STAGE_OTP then s.stageOtp rep
    else if n = STAGE_CORES then s.stageCores rep
    else if n = STAGE_STACKS then s.stageStacks rep
    else if n = STAGE_FLASH then s.stageFlash rep
    else if n = STAGE_HOST_LINKS then s.stageLinks rep
    else if n = STAGE_FABRIC then s.stageFabric
    else if n = STAGE_TICK_SYNC then if s.tick.sync = .locked ∨ s.tick.sync = .free then s.nextStage else s
    else if n = STAGE_SELF_TEST then s.stageTest rep
    else s) := by
  subst hn
  exact exec_bootStageDone hboot

theorem exec_bootStageDone_rom_without_uds (hn : s.stage = STAGE_ROM) (huds : s.sec.fuses.getLsbD 2 = false) :
    exec (.bootStageDone rep) s = .next (s.bootFail UDS_ABSENT) := by
  refine (exec_bootStageDone_at hboot hn).trans (congrArg Host.Outcome.next ?_)
  change s.stageRom rep = _
  rw [State.stageRom, huds]
  rfl

theorem exec_bootStageDone_rom (hn : s.stage = STAGE_ROM) (huds : s.sec.fuses.getLsbD 2 = true) :
    exec (.bootStageDone rep) s = .next (State.nextStage { s with
      boot := { s.boot with
        records := if s.boot.warm then s.boot.records else (List.range 4).map (fun r => s.sec.otpValue r % 2 ^ 32)
        serial := s.sec.serialFuses, firmware := BitVec.ofNat 128 (rep.romRelease % 2 ^ 32)
        digests := [rep.romDigest, [], [], []] } }) := by
  refine (exec_bootStageDone_at hboot hn).trans (congrArg Host.Outcome.next ?_)
  change s.stageRom rep = _
  rw [State.stageRom, huds, if_neg (by decide)]
  by_cases hwarm : s.boot.warm = true
  · rw [if_pos hwarm, if_pos hwarm]
    rfl
  · rw [if_neg hwarm, if_neg hwarm]
    rfl

theorem exec_bootStageDone_firmware (hn : s.stage = STAGE_FIRMWARE) :
    exec (.bootStageDone rep) s = .next (s.stageFirmware rep) :=
  exec_bootStageDone_at hboot hn

theorem exec_bootStageDone_otp (hn : s.stage = STAGE_OTP)
    (ht : t = if s.boot.warm then { s with boot := { s.boot with boardOk := boardOk rep.board, board := rep.board } }
      else { s with
        boot := { s.boot with boardOk := boardOk rep.board, board := rep.board }
        sec := { s.sec with otpGen := s.sec.genWord } }) :
    exec (.bootStageDone rep) s = .next (match t.validImage 1 rep.microcode, t.validImage 2 rep.loader with
      | none, _ => t.bootFail MICROCODE_REFUSED
      | _, none => t.bootFail LOADER_REFUSED
      | some a, some b => State.nextStage { t with boot := { t.boot with
          firmware := putBits (putBits t.boot.firmware 64 32 a.release) 96 32 b.release
          digests := (t.boot.digests.set 2 a.digest).set 3 b.digest } }) := by
  subst ht
  exact exec_bootStageDone_at hboot hn

theorem exec_bootStageDone_cores (hn : s.stage = STAGE_CORES) : exec (.bootStageDone rep) s = .next (s.stageCores rep) :=
  exec_bootStageDone_at hboot hn

theorem exec_bootStageDone_stacks (hn : s.stage = STAGE_STACKS) : exec (.bootStageDone rep) s = .next (s.stageStacks rep) := by
  refine (exec_bootStageDone_at hboot hn).trans (congrArg Host.Outcome.next ?_)
  rw [if_neg (by decide), if_neg (by decide), if_neg (by decide), if_neg (by decide), if_pos rfl]

theorem exec_bootStageDone_flash (hn : s.stage = STAGE_FLASH) : exec (.bootStageDone rep) s = .next (s.stageFlash rep) :=
  exec_bootStageDone_at hboot hn

theorem exec_bootStageDone_links (hn : s.stage = STAGE_HOST_LINKS) : exec (.bootStageDone rep) s = .next (s.stageLinks rep) :=
  exec_bootStageDone_at hboot hn

theorem exec_bootStageDone_tickSync (hn : s.stage = STAGE_TICK_SYNC) : exec (.bootStageDone rep) s = .next (
    if s.tick.sync = .locked ∨ s.tick.sync = .free then s.nextStage else s) :=
  exec_bootStageDone_at hboot hn

theorem exec_bootStageDone_cores_no_failure (hn : s.stage = STAGE_CORES) (hpairs : rep.badPairs = []) :
    exec (.bootStageDone rep) s = .next (if s.pairsIn < 4 then s.bootFail BOOT_CORES else s.nextStage) := by
  refine (exec_bootStageDone_at hboot hn).trans (congrArg Host.Outcome.next ?_)
  change s.stageCores rep = _
  rw [State.stageCores, hpairs]
  rfl

theorem exec_bootStageDone_fabric (hn : s.stage = STAGE_FABRIC) (hcold : s.boot.warm = false) :
    exec (.bootStageDone rep) s = .next (if s.fab.joined then s.nextStage else s) := by
  refine (exec_bootStageDone_at hboot hn).trans (congrArg Host.Outcome.next ?_)
  change s.stageFabric = _
  rw [State.stageFabric, hcold]
  rfl

theorem exec_bootStageDone_selfTest (hn : s.stage = STAGE_SELF_TEST) : exec (.bootStageDone rep) s = .next (
    if rep.mdOk then (rep.failed.foldl State.dealWith s).nextStage else s.bootFail MD_SELF_TEST) := by
  refine (exec_bootStageDone_at hboot hn).trans (congrArg Host.Outcome.next ?_)
  change s.stageTest rep = _
  unfold State.stageTest
  cases rep.mdOk <;> rfl

/-- A stage beyond its limit, by its number. -/
theorem exec_stageTimeout_at {n : Nat} (hn : s.stage = n) : exec (.stageTimeout rep) s = .next (
    if n = STAGE_FLASH ∨ n = STAGE_HOST_LINKS then s.stageDone rep
    else if n = STAGE_FABRIC then (s.event FABRIC_UNJOINED LOC_MD).nextStage
    else if n = STAGE_TICK_SYNC then (s.event TICK_UNLOCKED LOC_MD).nextStage
    else s.bootFail BOOT_STAGE_LIMIT) := by
  subst hn
  change execStageTimeout rep s = _
  rw [execStageTimeout, hboot]
  rfl

theorem exec_stageTimeout_ends (hn : s.stage = STAGE_FLASH ∨ s.stage = STAGE_HOST_LINKS) :
    exec (.stageTimeout rep) s = exec (.bootStageDone rep) s := by
  rw [exec_stageTimeout_at hboot rfl, if_pos hn, exec_bootStageDone hboot]

theorem exec_stageTimeout_fails (hn : s.stage = STAGE_ROM ∨ s.stage = STAGE_FIRMWARE ∨ s.stage = STAGE_OTP ∨
    s.stage = STAGE_CORES ∨ s.stage = STAGE_STACKS ∨ s.stage = STAGE_SELF_TEST) :
    exec (.stageTimeout rep) s = .next (s.bootFail BOOT_STAGE_LIMIT) := by
  rcases hn with hn | hn | hn | hn | hn | hn <;> exact exec_stageTimeout_at hboot hn

end

section
variable {s : State} {rep : StageReport} {a b x : BootImage}

theorem stageFirmware_both (ha : s.validImage 0 rep.slotA = some a) (hb : s.validImage 0 rep.slotB = some b) :
    s.stageFirmware rep = if a.svn < b.svn then s.startLemtus 1 b else s.startLemtus 0 a := by
  rw [State.stageFirmware, ha, hb]

theorem stageFirmware_slotA (ha : s.validImage 0 rep.slotA = some a) (hb : s.validImage 0 rep.slotB = none) :
    s.stageFirmware rep = s.startLemtus 0 a := by
  rw [State.stageFirmware, ha, hb]

theorem stageFirmware_slotB (ha : s.validImage 0 rep.slotA = none) (hb : s.validImage 0 rep.slotB = some b) :
    s.stageFirmware rep = s.startLemtus 1 b := by
  rw [State.stageFirmware, ha, hb]

variable (ha : s.validImage 0 rep.slotA = none) (hb : s.validImage 0 rep.slotB = none)
include ha hb

theorem stageFirmware_awaits (hopen : s.boot.imageEnd = false) :
    s.stageFirmware rep = { s with boot := { s.boot with wantsImage := true } } := by
  rw [State.stageFirmware, ha, hb, hopen]
  rfl

theorem stageFirmware_fails (hend : s.boot.imageEnd = true) (hsent : s.validImage 0 rep.sent = none) :
    s.stageFirmware rep = s.bootFail NO_IMAGE := by
  rw [State.stageFirmware, ha, hb, hend, hsent]
  rfl

theorem stageFirmware_sent (hend : s.boot.imageEnd = true) (hsent : s.validImage 0 rep.sent = some x) :
    s.stageFirmware rep = s.startLemtus 2 x := by
  rw [State.stageFirmware, ha, hb, hend, hsent]
  rfl

end

theorem not_booting_stays {s : State} (rep : StageReport) (h : s.booting = false) :
    exec (.bootStageDone rep) s = .next s ∧ exec (.stageTimeout rep) s = .next s := by
  constructor
  · exact congrArg Host.Outcome.next (if_neg (ne_true_of_eq_false h))
  · change execStageTimeout rep s = _
    rw [execStageTimeout, h]
    rfl

theorem nextStage_plain {s : State} (hfabric : s.stage + 1 ≠ STAGE_FABRIC) (hsync : s.stage + 1 ≠ STAGE_TICK_SYNC)
    (hready : s.stage + 1 ≠ STAGE_READY) : s.nextStage = s.setFld F.IDN_BOOT_STAGE (s.stage + 1) := by
  unfold State.nextStage
  dsimp only
  rw [if_neg hfabric, if_neg hsync, if_neg hready]

theorem exec_image {s t : State} {port addr : Nat} {l gap old : List Byte} (hport : port < 2)
    (hwants : s.boot.wantsImage = true) (hopen : s.boot.imageEnd = false)
    (hdraw : s.drawBytes (addr - s.boot.received.length) = (gap, t)) (hold : old = s.boot.received ++ gap) :
    exec (.image port addr l) s = .next (if l = [] then { s with boot := { s.boot with imageEnd := true } }
      else { t with boot := { t.boot with received := old.take addr ++ l ++ old.drop (addr + l.length) } }) := by
  subst hold
  change execImage port addr l s = _
  rw [execImage, if_neg (not_or.2 ⟨Nat.not_le_of_gt hport, not_or.2 ⟨ne_false_of_eq_true hwants, ne_true_of_eq_false hopen⟩⟩), hdraw]
  rfl

/-- Settles O52: each stage by what it found, a limit by the stage, an image chunk while one is awaited. -/
theorem bootStages : Obligations.BootStages := by
  unfold Obligations.BootStages
  refine ⟨fun s rep hboot => ?_, fun s rep => not_booting_stays rep, fun s => nextStage_plain, fun s => rfl,
    fun s t port addr l gap old => exec_image⟩
  have firmware {u : State} (hn : s.stage = STAGE_FIRMWARE) (hu : s.stageFirmware rep = u) :
      exec (.bootStageDone rep) s = .next u :=
    (exec_bootStageDone_firmware hboot hn).trans (congrArg Host.Outcome.next hu)
  refine ⟨exec_bootStageDone_rom_without_uds hboot, exec_bootStageDone_rom hboot,
    fun a b hn ha hb => firmware hn (stageFirmware_both ha hb), fun a hn ha hb => firmware hn (stageFirmware_slotA ha hb),
    fun b hn ha hb => firmware hn (stageFirmware_slotB ha hb), fun hn ha hb => ⟨fun hopen => ?awaits, fun hend hsent => ?fails,
      fun x hend hsent => ?sent⟩,
    fun t hn ht => ⟨fun hmicro => ?microcode, fun a hmicro hload => ?loader, fun a b hmicro hload => ?loaded⟩,
    exec_bootStageDone_cores_no_failure hboot, exec_bootStageDone_cores hboot, exec_bootStageDone_stacks hboot,
    exec_bootStageDone_flash hboot, exec_bootStageDone_links hboot, exec_bootStageDone_fabric hboot,
    exec_bootStageDone_tickSync hboot, exec_bootStageDone_selfTest hboot, exec_stageTimeout_ends hboot,
    exec_stageTimeout_at hboot, exec_stageTimeout_at hboot,
    exec_stageTimeout_fails hboot⟩
  case awaits => exact firmware hn (stageFirmware_awaits ha hb hopen)
  case fails => exact firmware hn (stageFirmware_fails ha hb hend hsent)
  case sent => exact firmware hn (stageFirmware_sent ha hb hend hsent)
  case microcode => rw [exec_bootStageDone_otp hboot hn ht, hmicro]
  case loader => rw [exec_bootStageDone_otp hboot hn ht, hmicro, hload]
  case loaded => rw [exec_bootStageDone_otp hboot hn ht, hmicro, hload]

end Sys2Proof.Machine
end

section

namespace Sys2Proof.Machine

/-! ## Embedding tables: load (R356, R357) -/

section
variable {s s0 s1 s2 s3 s4 u : State} {tok : Nat} {d : Desc} {ext l e : List Byte} {segs : List (List Seg)} {t : TblDesc}

theorem exec_tblLoad_refused {c : Cpl} (h : s.granted tok 0x20 d [⟨dfield d.bits 16 8, 128, 1, false⟩] s0 segs)
    (hread : State.readSegs d (segs.headD []) ext s0 = (s1, l, false, e)) (hparse : parseTable l = (t, true))
    (haligned : dfield d.bits 16 8 % 64 = 0) (hfails : s1.tblLoadFails d.bits t true = some c)
    (hu : (s1.setEvt F.EMB_EVT_LOAD_REFUSED).embError (dfield d.bits 24 2) c.reason LOC_MD = u) (hready : u.ready tok 0x20 d) :
    exec (.tblLoad tok ext) s = .next ((u.begun tok d).opEnd tok c) := by
  obtain ⟨hs, hacq, -⟩ := h
  change execTblLoad tok ext s = _
  rw [execTblLoad, hs.1]
  dsimp only
  rw [if_neg (ready_opens hs), hacq]
  dsimp only
  rw [hread, hparse, haligned]
  change Host.Outcome.next (match s1.tblLoadFails d.bits t true with | some c => _ | none => _) = _
  rw [hfails]
  dsimp only
  rw [hu, runDesc_ends _ hready]

/-- The table a descriptor that passes every check makes (Table 11-3), but for its default row's copy. -/
def TblDesc.loaded (t : TblDesc) (d : DescBits) (counts : TblCounts) (st un : List Seg) : EmbTable :=
  { phase := .loaded, slice := dSlice d, key := dKeySlot d, keyEpoch := dKeyEpoch d, desc := t
    defaulting := t.wantsDefault, images := [{ va := t.storage, segs := st.map segTuple, first := 1, last := 1 }]
    undoArea := un.map (fun x => (x.addr, x.len)), version := 1, counts := counts }

theorem exec_tblLoad_loads {st un : List Seg} {c : List Byte × Bool}
    (h : s.granted tok 0x20 d [⟨dfield d.bits 16 8, 128, 1, false⟩] s0 segs)
    (hread : State.readSegs d (segs.headD []) ext s0 = (s1, l, false, e)) (hparse : parseTable l = (t, true))
    (haligned : dfield d.bits 16 8 % 64 = 0) (hpass : s1.tblLoadFails d.bits t true = none)
    (hstorage : s1.xlateRange tok d t.storage t.storageLen (if t.updatable then 3 else 1) = (s2, .ok st))
    (hundo : (if t.updatable then s2.xlateRange tok d t.undo t.undoLen 3 else (s2, .ok [])) = (s3, .ok un))
    (hplace : s3.storageOk (dSlice d.bits) (st.map segTuple) = true) (harea : s3.areaOk (dSlice d.bits) un = true)
    (hapart : piecesMeet (devicePieces (st.map segTuple)) (un.map (fun x => (x.addr, x.len))) = false)
    (hdefault : (if t.wantsDefault then s3.defaultBytes (t.loaded d.bits (s3.table (dfield d.bits 24 2)).counts st un) e
      else (s3, [], false)) = (s4, c))
    (hu : (s4.setTable (dfield d.bits 24 2) { t.loaded d.bits (s3.table (dfield d.bits 24 2)).counts st un with
      copies := if t.wantsDefault then [(1, c)] else [] }).setEvt F.EMB_EVT_LOADED = u) (hready : u.ready tok 0x20 d) :
    exec (.tblLoad tok ext) s = .next ((u.begun tok d).opEnd tok { result := 1 }) := by
  obtain ⟨hs, hacq, -⟩ := h
  have fits : (!s3.storageOk (dSlice d.bits) (st.map segTuple) || !s3.areaOk (dSlice d.bits) un ||
      piecesMeet (devicePieces (st.map segTuple)) (un.map (fun x => (x.addr, x.len)))) = false := by
    rw [hplace, harea, hapart]
    rfl
  change execTblLoad tok ext s = _
  rw [execTblLoad, hs.1]
  dsimp only
  rw [if_neg (ready_opens hs), hacq]
  dsimp only
  rw [hread, hparse, haligned]
  change Host.Outcome.next (match s1.tblLoadFails d.bits t true with | some c => _ | none => _) = _
  rw [hpass]
  dsimp only
  rw [hstorage]
  dsimp only
  rw [hundo]
  dsimp only
  rw [if_neg (ne_true_of_eq_false fits)]
  rw [TblDesc.loaded] at hdefault hu
  rw [hdefault]
  dsimp only
  rw [hu, runDesc_ends _ hready]

end

/-! ## Lookups (R360 to R373) -/

section
variable {s s0 s1 s2 t : State} {tok : Nat} {d : Desc} {ext e e' : List Byte} {segs : List (List Seg)}
  {arrays : List (List Byte)} {items : List (List (Nat × Nat))} {tally : LkTally}

theorem exec_lookup (h : s.granted tok 0x22 d (bagForm d.bits).needs s0 segs)
    (hlive : (s.table (bagForm d.bits).table).phase ≠ .free) (hslice : (s.table (bagForm d.bits).table).slice = dSlice d.bits)
    (hread : s0.readArrays d segs ext = (s1, arrays, false, e)) (hparse : (bagForm d.bits).parse arrays = (items, true))
    (hclusters : (s1.embClusters (s.table (bagForm d.bits).table).slice).isEmpty = false)
    (hengine : s0.engineReady tok (s0.lookupRanges d (bagForm d.bits).table d.pinned items) = (s2, true))
    (hready : s2.ready tok 0x22 d)
    (hover : State.lookupOver ((s2.begun tok d).readArrays d segs e).1 tok d (bagForm d.bits) items e = (t, tally, e')) :
    exec (.lookup tok ext) s = .next ((t.noteLookup (bagForm d.bits) tally).opEnd tok (lookupCpl tally)) := by
  obtain ⟨hs, hacq, -⟩ := h
  change execLookup tok ext s = _
  rw [execLookup, hs.1]
  dsimp only
  rw [if_neg (ready_opens hs), if_neg (not_or.2 ⟨hlive, not_not_intro hslice⟩), hacq]
  dsimp only
  rw [hread]
  dsimp only
  rw [hparse]
  dsimp only
  rw [if_neg Bool.false_ne_true, if_neg (by decide), if_neg (ne_true_of_eq_false hclusters), hengine]
  dsimp only
  rw [runDesc_ready _ hready]
  dsimp only
  rw [hover]

theorem exec_lookup_badOffsets (h : s.granted tok 0x22 d (bagForm d.bits).needs s0 segs)
    (hlive : (s.table (bagForm d.bits).table).phase ≠ .free) (hslice : (s.table (bagForm d.bits).table).slice = dSlice d.bits)
    (hread : s0.readArrays d segs ext = (s1, arrays, false, e)) (hparse : (bagForm d.bits).parse arrays = (items, false))
    (hready : s1.ready tok 0x22 d) :
    exec (.lookup tok ext) s = .next ((s1.begun tok d).opEnd tok (cpl ST_ABORTED EMB_OFFSETS)) := by
  obtain ⟨hs, hacq, -⟩ := h
  change execLookup tok ext s = _
  rw [execLookup, hs.1]
  dsimp only
  rw [if_neg (ready_opens hs), if_neg (not_or.2 ⟨hlive, not_not_intro hslice⟩), hacq]
  dsimp only
  rw [hread]
  dsimp only
  rw [hparse]
  dsimp only
  rw [if_neg Bool.false_ne_true, if_pos (by decide), runDesc_ends _ hready]

/-- R360: an index out of range that no policy defaults supplies no row. -/
theorem fetchIndex_drops {n v raw : Nat} (hrange : (s.table n).desc.rows ≤ raw) (hcrit : d.crit ≠ 1) :
    s.fetchIndex d n v tally ext raw = (s, { tally with dropped := tally.dropped + 1 }, ext, none, false) := by
  have use : idxUse (s.table n).desc (d.crit == 1) raw = .drop := by
    rw [idxUse, if_neg (Nat.not_lt_of_ge hrange), beq_false_of_ne hcrit]
    rfl
  rw [State.fetchIndex, use]
  exact if_neg hcrit

end

/-! ## Publishing an image (R376) -/

section
variable {s t u : State} {tok : Nat} {d : Desc}

theorem exec_tablePublish {segs : List Seg} (ext : List Byte) (hs : s.ready tok 0x23 d)
    (hlive : (s.table (dfield d.bits 16 2)).phase ≠ .free) (hslice : (s.table (dfield d.bits 16 2)).slice = dSlice d.bits)
    (hrange : s.xlateRange tok d (dfield d.bits 24 8) (s.table (dfield d.bits 16 2)).desc.storageLen
      (if (s.table (dfield d.bits 16 2)).desc.updatable then 3 else 1) = (t, .ok segs)) (hready : t.ready tok 0x23 d) :
    exec (.tablePublish tok ext) s = match t.imageFails (dfield d.bits 16 2) d.bits (segs.map segTuple) with
      | some c => .next ((t.begun tok d).opEnd tok c)
      | none => .next ((t.begun tok d).setTable (dfield d.bits 16 2) { s.table (dfield d.bits 16 2) with
          publish := some { tok := tok, va := dfield d.bits 24 8, segs := segs.map segTuple, row := ext } }) := by
  change execTablePublish tok ext s = _
  rw [execTablePublish, hs.1]
  dsimp only
  rw [if_neg (ready_opens hs), if_neg (not_or.2 ⟨hlive, not_not_intro hslice⟩), hrange]
  dsimp only
  cases t.imageFails (dfield d.bits 16 2) d.bits (segs.map segTuple) with
  | some c => exact congrArg Host.Outcome.next (runDesc_ends c hready)
  | none => exact congrArg Host.Outcome.next (runDesc_ready _ hready)

theorem imagePublish_fits {n : Nat} {p : TblPublish} (hp : (s.table n).publish = some p)
    (hu : s.setTable n { s.table n with
      publish := none, version := (s.table n).version + 1
      images := { va := p.va, segs := p.segs, first := (s.table n).version + 1, last := (s.table n).version + 1 }
        :: (s.table n).images } = u) (hfit : (u.liveImages n).length ≤ 4) :
    s.imagePublish n = (u.refreshDefault n p.row).opEnd p.tok
      { result := ((s.table n).version + 1) % 2 ^ 32 + at_ 32 ((u.refreshDefault n p.row).oldestLive n % 2 ^ 32) } := by
  unfold State.imagePublish
  dsimp only
  rw [hp]
  dsimp only
  rw [hu, if_neg (Nat.not_lt_of_ge hfit)]

end

/-! ## The row cache's descriptor and privileged tables (R385, R359) -/

section
variable {s : State}

theorem exec_rcAdmit {s0 s1 s2 t : State} {tok placed : Nat} {d : Desc} {ext e e' bytes : List Byte} {segs : List (List Seg)}
    {rows good : List Nat} (h : s.granted tok 0x25 d [⟨dfield d.bits 24 6, 8 * rcCount d.bits, 1, false⟩] s0 segs)
    (hlive : (s.table (dfield d.bits 16 2)).phase ≠ .free) (hslice : (s.table (dfield d.bits 16 2)).slice = dSlice d.bits)
    (hread : State.readSegs d (segs.headD []) ext s0 = (s1, bytes, false, e))
    (hrows : rows = (chunksOf 8 (rcCount d.bits) bytes).map leNat)
    (hgood : good = rows.filter (fun r => decide (r < (s.table (dfield d.bits 16 2)).desc.rows)))
    (hengine : s0.engineReady tok (good.flatMap (fun r => (s0.rowSource (dfield d.bits 16 2) r
      (s.table (dfield d.bits 16 2)).version none false).ranges)) = (s2, true)) (hready : s2.ready tok 0x25 d)
    (hover : (State.readSegs d (segs.headD []) [] (s2.begun tok d)).1.rcAdmitOver (dfield d.bits 16 2)
      (s.table (dfield d.bits 16 2)) (fun r => s0.rowSource (dfield d.bits 16 2) r (s.table (dfield d.bits 16 2)).version none
        false) good e = (t, placed, e')) :
    exec (.rcAdmit tok ext) s = .next (t.opEnd tok (if 0 < rows.length - good.length
      then { status := ST_PARTIAL, reason := EMB_INDEX_DROPPED, done := placed, dropped := rows.length - good.length }
      else { done := placed, dropped := rows.length - good.length })) := by
  subst hrows hgood
  obtain ⟨hs, hacq, -⟩ := h
  change execRcAdmit tok ext s = _
  rw [execRcAdmit, hs.1]
  dsimp only
  rw [if_neg (ready_opens hs), if_neg (not_or.2 ⟨hlive, not_not_intro hslice⟩), hacq]
  dsimp only
  rw [hread]
  dsimp only
  rw [if_neg Bool.false_ne_true, hengine]
  dsimp only
  rw [runDesc_ready _ hready]
  dsimp only
  rw [hover]

variable {path cycle : Nat} {v : Word} (h : s.pairReady path Reg.EMB_PRIV_ENTRY v cycle)
include h

theorem exec_embPrivEntry {t : State} (he : effEmbPriv v (s.setGuard path none) = (t, none)) :
    exec (.embPrivEntryWrite path (~~~v) cycle) s = .next t :=
  congrArg Host.Outcome.next (guardPair_ok h rfl he)

end

section
variable {s : State} {v : Word} {e n : Nat} (he : e = s.fld F.EMB_PRIV_SEL_ENTRY)
include he

theorem effEmbPriv_new (hold : (s.emb.privileged.get 0 e).getLsbD 31 = false) : effEmbPriv v s =
    ({ s with emb := { s.emb with privileged := s.emb.privileged.put e (v &&& 0x8000FFFF) } }, none) := by
  subst he
  unfold effEmbPriv
  dsimp only
  rw [hold]
  rfl

theorem effEmbPriv_loses {t : State} (ht : t = { s with emb := { s.emb with
      privileged := s.emb.privileged.put e (v &&& 0x8000FFFF) } }) (hn : n = bitsOf (s.emb.privileged.get 0 e) 0 16)
    (hold : (s.emb.privileged.get 0 e).getLsbD 31 = true) (hphase : (s.table n).phase = .loaded)
    (hslice : (s.table n).slice = e / 16) (hdefault : (s.table n).defaulting = true) (hlost : t.embPriv (e / 16) n = false) :
    effEmbPriv v s = (t.setTable n { s.table n with policyDue := true }, none) := by
  have loses : ((s.emb.privileged.get 0 e).getLsbD 31 && (t.table n).phase != .free && (t.table n).slice == e / 16
      && (t.table n).defaulting && !t.embPriv (e / 16) n) = true := by
    have table : t.table n = s.table n := by rw [ht]; rfl
    rw [table, hold, hphase, hslice, hdefault, hlost, beq_self_eq_true]
    rfl
  subst he hn ht
  unfold effEmbPriv
  exact congrArg (·, none) (if_pos loses)

end

/-- Settles O30: each row by its checks in order, the policy by the old entry. -/
theorem embeddingTables : Obligations.EmbeddingTables := by
  unfold Obligations.EmbeddingTables
  refine ⟨fun s s0 s1 u tok d ext l e segs t c => exec_tblLoad_refused,
    fun s s0 s1 s2 s3 s4 u tok d ext l e segs t st un c => exec_tblLoad_loads, fun s tok d => exec_tblUnload_drained,
    fun s s0 s1 s2 t tok d ext e e' segs arrays items tally => exec_lookup,
    fun s s0 s1 tok d ext e segs arrays items => exec_lookup_badOffsets,
    fun s d n v raw tally ext => fetchIndex_drops, fun s t tok d ext segs => exec_tablePublish ext,
    fun s u n p => imagePublish_fits, fun s s0 s1 s2 t tok placed d ext e e' bytes segs rows good => exec_rcAdmit,
    fun s path cycle v h => ⟨fun hold => ?new, fun hold hphase hslice hdefault hlost => ?loses⟩⟩
  case new => exact exec_embPrivEntry h (effEmbPriv_new (s := s.setGuard path none) rfl hold)
  case loses =>
    exact exec_embPrivEntry h (effEmbPriv_loses (s := s.setGuard path none) rfl rfl rfl hold hphase hslice hdefault hlost)

end Sys2Proof.Machine
end

section

namespace Sys2Proof.Machine

/-! ## Online update: start and stop (R391, R409) -/

section
variable {s s0 s1 s2 s3 u3 : State} {tok stVa mgVa : Nat} {d : Desc} {ext l e : List Byte} {segs : List (List Seg)}
  {u : EmbUpdate} {st mg : List Seg}

theorem exec_updStart (h : s.granted tok 0x26 d [⟨dfield d.bits 24 8, 128, 1, false⟩] s0 segs)
    (hread : State.readSegs d (segs.headD []) ext s0 = (s1, l, false, e))
    (hparse : parseUpdate l s1.tick.now = (u, stVa, mgVa, true)) (haligned : dfield d.bits 24 8 % 64 = 0)
    (hstate : stVa = 0 ∨ 0 < u.z (s1.table (dfield d.bits 16 2)).desc.cols) (hpass : s1.updStartFails d.bits true = none)
    (hst : s1.xlateRange tok d stVa (u.stateLen (s1.table (dfield d.bits 16 2)).desc) 3 = (s2, .ok st))
    (hmg : s2.xlateRange tok d mgVa (mergeLen (s1.table (dfield d.bits 16 2)).desc) 3 = (s3, .ok mg))
    (hareas : s3.updAreasOk (dfield d.bits 16 2) (dSlice d.bits) st mg = true)
    (hfits : s3.updFits (dSlice d.bits) u (s1.table (dfield d.bits 16 2)).desc = true)
    (hu : s3.setUpdate (dfield d.bits 16 2) { u with
      stateArea := st.map (fun x => (x.addr, x.len)), mergeArea := mg.map (fun x => (x.addr, x.len))
      key := dKeySlot d.bits, keyEpoch := dKeyEpoch d.bits } = u3) (hready : u3.ready tok 0x26 d) :
    exec (.updStart tok ext) s = .next ((u3.begun tok d).opEnd tok {}) := by
  obtain ⟨hs, hacq, -⟩ := h
  have format : (true && !false && dfield d.bits 24 8 % 64 == 0 &&
      (stVa == 0 || decide (0 < u.z (s1.table (dfield d.bits 16 2)).desc.cols))) = true := by
    rw [haligned, Bool.or_eq_true_iff.2 (hstate.imp beq_iff_eq.2 decide_eq_true)]
    rfl
  change execUpdStart tok ext s = _
  rw [execUpdStart, hs.1]
  dsimp only
  rw [if_neg (ready_opens hs), hacq]
  dsimp only
  rw [hread]
  dsimp only
  rw [hparse]
  dsimp only
  rw [format, hpass]
  dsimp only
  rw [hst]
  dsimp only
  rw [hmg]
  dsimp only
  rw [hareas, hfits, if_neg (by decide), if_neg (by decide), hu, runDesc_ends _ hready]

theorem exec_updStop_waits (h : s.ready tok 0x27 d) (hu : s.update (dfield d.bits 16 2) = some u)
    (hstopper : u.stopper = some tok) : exec (.updStop tok) s = .next (s.begun tok d) := by
  change execUpdStop tok s = _
  rw [execUpdStop, h.1]
  dsimp only
  rw [hu]
  exact congrArg Host.Outcome.next ((if_pos (beq_iff_eq.2 hstopper)).trans (runDesc_begins h))

theorem exec_updStop_off (h : s.ready tok 0x27 d) (hu : s.update (dfield d.bits 16 2) = none) :
    exec (.updStop tok) s = .next ((s.begun tok d).opEnd tok (cpl ST_PERMISSION UPD_NOT_RUNNING)) := by
  change execUpdStop tok s = _
  rw [execUpdStop, h.1]
  dsimp only
  rw [hu]
  exact congrArg Host.Outcome.next (runDesc_ends _ h)

end

/-! ## Scattering gradients (R394 to R398) -/

section
variable {s s1 t v a b : State} {tok dropped deflt : Nat} {d : Desc} {ext e : List Byte} {segs : List (List Seg)}
  {arrays : List (List Byte)} {items : List (List (Nat × Nat))} {u : EmbUpdate} {w w' : MergeWindow}
  {bags : List (List (Nat × Nat) × Nat × Nat)} {rows : List (Nat × Nat)}
  (h : s.granted tok 0x24 d ((bagForm d.bits).needs ++ gradNeeds d.bits (s.table (bagForm d.bits).table).desc) s1 segs)
  (hlive : (s.table (bagForm d.bits).table).phase ≠ .free) (hslice : (s.table (bagForm d.bits).table).slice = dSlice d.bits)
  (hu : s.update (bagForm d.bits).table = some u) (hw : u.gathering = some w) (hpin : w.k + 1 = d.pinned)
  (hread : s1.readArrays d segs ext = (t, arrays, false, e)) (hparse : (bagForm d.bits).parse arrays = (items, true))
  (hbags : bags = items.map (bagRows (s.table (bagForm d.bits).table).desc (d.crit == 1)))
  (hrows : rows = bags.flatMap (fun b => b.1)) (hdropped : dropped = (bags.map (fun b => b.2.1)).foldl (· + ·) 0)
  (hdeflt : deflt = (bags.map (fun b => b.2.2)).foldl (· + ·) 0)
  (hv : t.embCount (bagForm d.bits).table (fun c => { c with drops := c.drops + dropped }) = v)
include h hlive hslice hu hw hpin hread hparse hbags hrows hdropped hdeflt hv

/-- The contributions of good arrays, in the window that gathers them: refused where their rows pass MAX_WIN. -/
theorem exec_scatterGrad : exec (.scatterGrad tok ext) s = .next (
    if (s.table (bagForm d.bits).table).desc.maxWin <
        w.rows.length + (((rows.map Prod.fst).filter (fun r => !(w.rows.has r))).eraseDups).length then
      ((v.embCount (bagForm d.bits).table (fun c => { c with mergeFull := c.mergeFull + 1 })).setEvt
        F.EMB_UPD_EVT_MERGE_FULL).runDesc tok 0x24 (fun _ s => (s, some (cpl ST_MERGE_FULL MERGE_FULL)))
    else
      let w' := w.mergeBags (bagForm d.bits) (s.table (bagForm d.bits).table).desc bags (arrays.drop (bagForm d.bits).needs.length)
      ((v.setUpdate (bagForm d.bits).table (u.setWindow w')).embCount (bagForm d.bits).table
        (fun c => { c with contributions := c.contributions + rows.length })).runDesc tok 0x24 (fun _ s => (s, some (
          if 0 < dropped then { status := ST_PARTIAL, reason := EMB_INDEX_DROPPED, done := rows.length, dropped := dropped
                                result := w'.k % 2 ^ 32 + at_ 32 deflt }
          else { done := rows.length, dropped := dropped, result := w'.k % 2 ^ 32 + at_ 32 deflt })))) := by
  subst hdropped hdeflt hrows hbags
  obtain ⟨hs, hacq, -⟩ := h
  have window : (s.update (bagForm d.bits).table).bind (fun u => u.gathering.bind (fun w =>
      if w.k + 1 = d.pinned then some (u, w) else none)) = some (u, w) := by
    rw [hu, Option.bind_some, hw, Option.bind_some, if_pos hpin]
  change execScatterGrad tok ext s = _
  rw [execScatterGrad, hs.1]
  dsimp only
  rw [if_neg (ready_opens hs), if_neg (not_or.2 ⟨hlive, not_not_intro hslice⟩), window]
  dsimp only
  rw [hacq]
  dsimp only
  rw [hread]
  dsimp only
  rw [hparse]
  dsimp only
  rw [if_neg Bool.false_ne_true, if_neg (by decide), hv]

theorem exec_scatterGrad_full (hfull : (s.table (bagForm d.bits).table).desc.maxWin <
      w.rows.length + (((rows.map Prod.fst).filter (fun r => !(w.rows.has r))).eraseDups).length)
    (ha : (v.embCount (bagForm d.bits).table (fun c => { c with mergeFull := c.mergeFull + 1 })).setEvt
      F.EMB_UPD_EVT_MERGE_FULL = a) (hready : a.ready tok 0x24 d) :
    exec (.scatterGrad tok ext) s = .next ((a.begun tok d).opEnd tok (cpl ST_MERGE_FULL MERGE_FULL)) := by
  rw [exec_scatterGrad h hlive hslice hu hw hpin hread hparse hbags hrows hdropped hdeflt hv, if_pos hfull, ha,
    runDesc_ends _ hready]

theorem exec_scatterGrad_merges (hroom : ¬ (s.table (bagForm d.bits).table).desc.maxWin <
      w.rows.length + (((rows.map Prod.fst).filter (fun r => !(w.rows.has r))).eraseDups).length)
    (hmerged : w.mergeBags (bagForm d.bits) (s.table (bagForm d.bits).table).desc bags
      (arrays.drop (bagForm d.bits).needs.length) = w')
    (hb : (v.setUpdate (bagForm d.bits).table (u.setWindow w')).embCount (bagForm d.bits).table
      (fun c => { c with contributions := c.contributions + rows.length }) = b) (hready : b.ready tok 0x24 d) :
    exec (.scatterGrad tok ext) s = .next ((b.begun tok d).opEnd tok (
      if 0 < dropped then { status := ST_PARTIAL, reason := EMB_INDEX_DROPPED, done := rows.length, dropped := dropped
                            result := w'.k % 2 ^ 32 + at_ 32 deflt }
      else { done := rows.length, dropped := dropped, result := w'.k % 2 ^ 32 + at_ 32 deflt })) := by
  rw [exec_scatterGrad h hlive hslice hu hw hpin hread hparse hbags hrows hdropped hdeflt hv, if_neg hroom, hmerged]
  dsimp only
  rw [hb, runDesc_ends _ hready]

end

/-! ## Windows and rows (R392, R393, R397 to R404) -/

theorem merge_first {w : MergeWindow} {row : Nat} (terms : List FV) (h : w.rows.find row = none) :
    (w.merge row terms).rows.find row =
      some { accs := (List.zip (terms.map (fun _ => ({} : Accum))) terms).map (fun e => e.1.add e.2), count := 1 } := by
  rw [MergeWindow.merge, Tab.updD, Tab.get, h]
  exact Tab.find_put_self ..

theorem sealWindow_opens_next {s : State} {n t : Nat} {u : EmbUpdate} {w : MergeWindow} (hu : s.update n = some u)
    (hw : u.gathering = some w) (hruns : u.stopping = false) (hend : w.opened + u.ticks ≤ t)
    (hidle : s.scatterRuns n w.k = false) (hroom : u.windows.length < 4) :
    s.sealWindow n t = s.setUpdate n { u.setWindow { w with stage := .sealed, last := t - 1 } with
      opened := u.opened + 1
      windows := (u.setWindow { w with stage := .sealed, last := t - 1 }).windows ++ [{ k := w.k + 1, opened := t }] } := by
  unfold State.sealWindow
  rw [hu]
  dsimp only
  rw [hw]
  dsimp only
  rw [if_neg (not_or.2 ⟨fun early => Nat.not_lt_of_ge hend early.1, ne_true_of_eq_false hidle⟩), if_neg (ne_true_of_eq_false hruns),
    if_neg (Nat.not_le_of_gt hroom)]
  rfl

theorem releaseWindows_running {s : State} {n : Nat} {u : EmbUpdate} (hu : s.update n = some u) :
    s.releaseWindows n = s.setUpdate n { u with
      windows := u.windows.filter (fun w => !(w.stage == .committed && w.written)) } := by
  rw [State.releaseWindows, hu]

section
variable {s t v : State} {n row sat : Nat} {u : EmbUpdate} (img : TblImage) (w : MergeWindow) {m : MergeRow}
  {old st new st' : List Byte}

/-- R402: accumulators that are not finite leave the row as it is. -/
theorem applyRow_flagged (u : EmbUpdate) (hflag : m.accs.any Accum.flagged = true) :
    s.applyRow n u img w (row, m) = (s.updSkip n row false, w) := by
  unfold State.applyRow
  exact if_pos hflag

variable {img w} in
theorem applyRow_updates (hfinite : m.accs.any Accum.flagged = false)
    (hold : State.readKeyed (s.table n).key (s.table n).keyEpoch (devicePieces ((s.table n).desc.rowSegs img row)) s = (t, old, false))
    (hst : State.readKeyed u.key u.keyEpoch (cutPieces u.stateArea (row * u.zp (s.table n).desc.cols) (u.z (s.table n).desc.cols)) t
      = (v, st, false)) (hnew : u.newRow (s.table n).desc m old st row w.last = (new, st', sat)) :
    s.applyRow n u img w (row, m) = ((v.writeQuiet u.key u.keyEpoch (cutPieces u.stateArea (row * u.zp (s.table n).desc.cols)
      (u.z (s.table n).desc.cols)) st').embCount n (fun c => { c with rowsUpdated := c.rowsUpdated + 1, saturations := c.saturations + sat }),
      { w with fresh := w.fresh.put row new }) := by
  unfold State.applyRow
  dsimp only
  rw [if_neg (ne_true_of_eq_false hfinite), hold]
  dsimp only
  rw [hst]
  dsimp only
  rw [if_neg (by decide), hnew]

end

/-- SGD without decay steps each weight by its gradient. -/
theorem optimize_sgd {u : EmbUpdate} (cols : Nat) (state : List Byte) (g w : List FV) (hopt : u.opt = 0)
    (hdecay : (f32 u.decay).isZero = true) :
    u.optimize cols state g w = ((List.zip g w).map (fun e => e.2.minus ((f32 u.lr).times e.1)), []) := by
  have undecayed : ¬(u.opt ≠ 4 ∧ (f32 u.decay).isZero = false) := fun decays => ne_true_of_eq_false decays.2 hdecay
  unfold EmbUpdate.optimize
  dsimp only
  rw [if_neg undecayed, if_pos hopt]

/-- Settles O31: each row by its checks in order, a boundary and a row apply by their first case that holds. -/
theorem onlineUpdate : Obligations.OnlineUpdate := by
  unfold Obligations.OnlineUpdate
  refine ⟨fun s s0 s1 s2 s3 u3 tok stVa mgVa d ext l e segs u st mg => exec_updStart,
    fun s tok d h => ⟨fun u => exec_updStop_waits h, exec_updStop_off h⟩, ?scatter, fun w row terms => merge_first terms,
    fun s n t u w hu hw hruns => sealWindow_opens_next hu hw hruns, fun s n u => releaseWindows_running,
    fun s n u img w row m => applyRow_flagged img w u, fun s t v n row sat u img w m old st new st' => applyRow_updates,
    fun u cols state g w => optimize_sgd cols state g w⟩
  case scatter =>
    intro s s1 t v tok dropped deflt d ext e segs arrays items u w bags rows h hlive hslice hu hw hpin hread hparse hbags hrows
      hdropped hdeflt hv full a b
    exact ⟨fun hfull => exec_scatterGrad_full h hlive hslice hu hw hpin hread hparse hbags hrows hdropped hdeflt hv hfull rfl,
      fun hroom => exec_scatterGrad_merges h hlive hslice hu hw hpin hread hparse hbags hrows hdropped hdeflt hv hroom rfl rfl⟩

end Sys2Proof.Machine
end

section

namespace Sys2Proof.Machine

/-! ## Search indexes: load (R428) -/

section
variable {s s0 s1 s2 u : State} {tok : Nat} {d : Desc} {ext l e : List Byte} {segs got : List (List Seg)} {x : IdxDesc}
  (h : s.granted tok 0x40 d [⟨dfield d.bits 16 8, 128, 1, false⟩] s0 segs)
  (hread : State.readSegs d (segs.headD []) ext s0 = (s1, l, false, e)) (hparse : parseIndex l = (x, true))
  (haligned : dfield d.bits 16 8 % 64 = 0)
include h hread hparse haligned

theorem exec_idxLoad_refused {c : Cpl} (hfails : s1.idxLoadFails d.bits x true = some c)
    (hu : (s1.setEvt F.SRH_EVT_LOAD_REFUSED).setSrh (fun e => { e with
      lastError := (0, dfield d.bits 24 1, c.reason, LOC_MD, s1.tick.now % 2 ^ 32) }) = u) (hready : u.ready tok 0x40 d) :
    exec (.idxLoad tok ext) s = .next ((u.begun tok d).opEnd tok c) := by
  obtain ⟨hs, hacq, -⟩ := h
  change execIdxLoad tok ext s = _
  rw [execIdxLoad, hs.1]
  dsimp only
  rw [if_neg (ready_opens hs), hacq]
  dsimp only
  rw [hread]
  dsimp only
  rw [hparse]
  dsimp only
  rw [haligned, Bool.not_false, Bool.and_true, beq_self_eq_true, Bool.and_true, hfails]
  dsimp only
  rw [hu, runDesc_ends _ hready]

theorem exec_idxLoad_loads (hpass : s1.idxLoadFails d.bits x true = none)
    (hneeds : s1.xlateNeeds tok d [⟨x.nodes, x.nodeLen, 3, false⟩, ⟨x.leafmap, x.mapLen, 3, false⟩, ⟨x.side, x.sideLen, 3, false⟩,
      ⟨x.bitmaps, x.bitLen, 3, false⟩] [] = .ready s2 got)
    (hareas : got.all (fun l => s2.areaOk (dSlice d.bits) l) = true)
    (hapart : areasApart (got.map (fun l => l.map (fun p => (p.addr, p.len)))) = true)
    (hflash : x.chanList.all (fun c => decide (x.pagesPer ≤ s2.freeFor (dfield d.bits 24 1) c)) = true)
    (hu : (s2.newIndex (dfield d.bits 24 1) {
      phase := .building, slice := dSlice d.bits, key := dKeySlot d.bits, keyEpoch := dKeyEpoch d.bits, desc := x
      digest := Config.sha384 l, nodeArea := (got.map (fun l => l.map (fun p => (p.addr, p.len)))).headD []
      areas := ((got.map (fun l => l.map (fun p => (p.addr, p.len)))).drop 1).flatten }).setEvt F.SRH_EVT_LOADED = u)
    (hready : u.ready tok 0x40 d) : exec (.idxLoad tok ext) s = .next ((u.begun tok d).opEnd tok {}) := by
  obtain ⟨hs, hacq, -⟩ := h
  have areas : (got.any (fun l => !s2.areaOk (dSlice d.bits) l) ||
      !areasApart (got.map (fun l => l.map (fun p => (p.addr, p.len))))) = false := by
    rw [hapart, Bool.not_true, Bool.or_false, ← List.not_all_eq_any_not, hareas]
    rfl
  have flash : x.chanList.any (fun c => decide (s2.freeFor (dfield d.bits 24 1) c < x.pagesPer)) = false :=
    List.any_eq_false.2 fun c hc short =>
      Nat.not_lt_of_ge (of_decide_eq_true (List.all_eq_true.1 hflash c hc)) (of_decide_eq_true short)
  have needs : s1.xlateNeeds tok d ([(x.nodes, x.nodeLen), (x.leafmap, x.mapLen), (x.side, x.sideLen),
      (x.bitmaps, x.bitLen)].map (fun a => ⟨a.1, a.2, 3, false⟩)) [] = .ready s2 got := hneeds
  change execIdxLoad tok ext s = _
  rw [execIdxLoad, hs.1]
  dsimp only
  rw [if_neg (ready_opens hs), hacq]
  dsimp only
  rw [hread]
  dsimp only
  rw [hparse]
  dsimp only
  rw [haligned, Bool.not_false, Bool.and_true, beq_self_eq_true, Bool.and_true, hpass]
  dsimp only
  rw [needs]
  dsimp only
  rw [if_neg (ne_true_of_eq_false areas), if_neg (ne_true_of_eq_false flash), hu, runDesc_ends _ hready]

end

/-! ## Leaves and their page programs (R417, R429) -/

theorem exec_leafWrite {s s0 s1 t : State} {tok : Nat} {d : Desc} {ext bytes e : List Byte} {segs : List (List Seg)}
    {w : LeafJob} (h : s.granted tok 0x42 d [⟨srOut d.bits, dfield d.bits 24 2 * 16384, 1, false⟩] s0 segs)
    (hserves : s.indexServes d.bits = true) (hread : State.readSegs d (segs.headD []) ext s0 = (s1, bytes, false, e))
    (hready : s1.ready tok 0x42 d)
    (hover : (s1.begun tok d).leafOver tok (srIndex d.bits) (dfield d.bits 20 4) (dfield d.bits 24 2) bytes = (t, w)) :
    exec (.leafWrite tok ext) s =
      .next (State.endLeafWrite { t with srh := { t.srh with writes := t.srh.writes ++ [w] } } tok) := by
  obtain ⟨hs, hacq, -⟩ := h
  change execLeafWrite tok ext s = _
  rw [execLeafWrite, hs.1]
  dsimp only
  rw [if_neg (ready_opens hs), hserves, if_neg (by decide), hacq]
  dsimp only
  rw [hread]
  dsimp only
  rw [if_neg Bool.false_ne_true, runDesc_begins hready, hover]
  rfl

theorem leafOne_programs {s : State} {tok n leaf f : Nat} {l : List Byte} (hok : (s.index n).desc.pageOk leaf l = true)
    (hleaf : (s.index n).leaves.has leaf = false)
    (hprogram : s.srh.programs.any (fun p => p.index == n && p.leaf == leaf) = false)
    (hnew : ((((s.index n).desc.entries l).map entryVnum).any (fun v => (s.index n).present.contains v)) = false)
    (hfree : s.flashFree ((s.index n).desc.chanOf leaf) = some f) :
    s.leafOne tok n leaf l = ((s.setIndex n { s.index n with
      present := (s.index n).present ++ ((s.index n).desc.entries l).map entryVnum }).program
        { fpa := f, index := n, leaf := leaf, bytes := l, tok := some tok }, none) := by
  unfold State.leafOne
  dsimp only
  rw [hok, hleaf, hprogram, hnew, if_neg (by decide), if_neg (by decide), if_neg (by decide), hfree]

section
variable {s : State} {fpa : Nat} {p : FlashProgram} (hp : s.srh.programs.find? (fun p => p.fpa == fpa) = some p)
include hp

theorem exec_programDone_retries {f : Nat} (hfree : s.flashFree (fpaChan fpa) = some f) :
    exec (.flashPageProgramDone fpa false) s = .next { s with srh := { s.srh with
      programs := s.srh.programs.map (fun q => if q.fpa = fpa then { q with fpa := f } else q) } } := by
  change execFlashPageProgramDone fpa false s = _
  rw [execFlashPageProgramDone, hp]
  dsimp only
  rw [hfree]
  rfl

theorem exec_programDone_written {tok : Nat} {t : State} (htok : p.tok = some tok) (ht : State.setIndex { s with srh := { s.srh with
      programs := s.srh.programs.filter (fun q => q.fpa != fpa)
      pages := s.srh.pages.put fpa { index := p.index, leaf := p.leaf, key := (s.slot (s.index p.index).key).flashKey, bytes := p.bytes } } }
      p.index { s.index p.index with leaves := (s.index p.index).leaves.put p.leaf fpa } = t) :
    exec (.flashPageProgramDone fpa true) s = .next (State.endLeafWrite { t with srh := { t.srh with
      writes := t.srh.writes.map (fun w => if w.tok = tok then { w with done := w.done + 1 } else w) } } tok) := by
  subst ht
  change execFlashPageProgramDone fpa true s = _
  rw [execFlashPageProgramDone, hp]
  dsimp only
  rw [if_neg (by decide), htok]
  rfl

end

/-! ## Activation and merge requests (R430, R440) -/

section
variable {s : State} {tok : Nat} {d : Desc}

theorem exec_idxActivate (h : s.ready tok 0x43 d) (hserves : s.indexServes d.bits = true)
    (hnone : (s.index (srIndex d.bits)).activator = none) :
    exec (.idxActivate tok) s = if (s.index (srIndex d.bits)).complete
      then .next ((s.begun tok d).setIndex (srIndex d.bits) { s.index (srIndex d.bits) with activator := some tok })
      else .next ((s.begun tok d).opEnd tok (cpl ST_REFUSED_FIT SRH_LEAVES_MISSING)) := by
  have serves : (s.begun tok d).indexServes d.bits = s.indexServes d.bits := rfl
  have index : (s.begun tok d).index (srIndex d.bits) = s.index (srIndex d.bits) := rfl
  change Host.Outcome.next (s.runDesc tok 0x43 _) = _
  rw [runDesc_ready _ h]
  dsimp only
  rw [serves, index, hserves, hnone, if_neg (by decide)]
  cases (s.index (srIndex d.bits)).complete <;> rfl

theorem exec_srhMerge (h : s.ready tok 0x47 d) (hlive : (s.index (srIndex d.bits)).phase ≠ .free)
    (hslice : (s.index (srIndex d.bits)).slice = dSlice d.bits) :
    exec (.srhMerge tok) s = .next ((s.begun tok d).setIndex (srIndex d.bits) { s.index (srIndex d.bits) with
      mergeReqs := (s.index (srIndex d.bits)).mergeReqs ++ [(tok, srNv d.bits)] }) := by
  have index : (s.begun tok d).index (srIndex d.bits) = s.index (srIndex d.bits) := rfl
  change Host.Outcome.next (s.runDesc tok 0x47 _) = _
  rw [runDesc_ready _ h]
  dsimp only
  rw [index, if_neg (not_or.2 ⟨hlive, not_not_intro hslice⟩)]

end

/-! ## Inserts and deletes (R437 to R439) -/

section
variable {s s0 s1 : State} {tok op size n dropped r : Nat} {d : Desc} {ext bytes e : List Byte} {segs : List (List Seg)}
  {x : SrhIndex}

/-- A request over an array of good data of an index of its slice runs on the array's chunks. -/
theorem srhArray_ready (k : Nat → List (List Byte) → State → State × Cpl)
    (h : s.granted tok op d [⟨srSrc d.bits, srNv d.bits * size, 1, false⟩] s0 segs) (horder : s.srhOrdered d = true)
    (hlive : (s.index (srIndex d.bits)).phase ≠ .free) (hslice : (s.index (srIndex d.bits)).slice = dSlice d.bits)
    (hread : State.readSegs d (segs.headD []) ext s0 = (s1, bytes, false, e)) (hready : s1.ready tok op d) {t : State} {c : Cpl}
    (hk : k (srIndex d.bits) (chunksOf size (srNv d.bits) bytes) (s1.begun tok d) = (t, c)) :
    s.srhArray tok op size ext k = t.opEnd tok c := by
  obtain ⟨⟨hdesc, hop, hmay, -⟩, hacq, -⟩ := h
  have opens : ¬(dOpcode d.bits ≠ op ∨ s.mayBegin tok d = false ∨ s.srhOrdered d = false) :=
    not_or.2 ⟨not_not_intro hop, not_or.2 ⟨ne_false_of_eq_true hmay, ne_false_of_eq_true horder⟩⟩
  unfold State.srhArray
  rw [hdesc]
  dsimp only
  rw [if_neg opens, if_neg (not_or.2 ⟨hlive, not_not_intro hslice⟩), hacq]
  dsimp only
  rw [hread]
  dsimp only
  rw [if_neg Bool.false_ne_true, runDesc_ready _ hready]
  dsimp only
  rw [hk]

theorem exec_srhInsert
    (h : s.granted tok 0x45 d [⟨srSrc d.bits, srNv d.bits * (s.index (srIndex d.bits)).desc.es, 1, false⟩] s0 segs)
    (horder : s.srhOrdered d = true) (hlive : (s.index (srIndex d.bits)).phase ≠ .free)
    (hslice : (s.index (srIndex d.bits)).slice = dSlice d.bits)
    (hread : State.readSegs d (segs.headD []) ext s0 = (s1, bytes, false, e)) (hready : s1.ready tok 0x45 d)
    (hover : (s1.index (srIndex d.bits)).insertOver (s1.tick.now + 1)
      (chunksOf (s.index (srIndex d.bits)).desc.es (srNv d.bits) bytes) = (x, n, dropped)) :
    exec (.srhInsert tok ext) s = if (s1.index (srIndex d.bits)).desc.sideMax < (s1.index (srIndex d.bits)).slotsUsed +
        (chunksOf (s.index (srIndex d.bits)).desc.es (srNv d.bits) bytes).length
      then .next ((s1.begun tok d).opEnd tok (cpl ST_REFUSED_FIT SRH_SIDE_FULL))
      else .next (((s1.begun tok d).setIndex (srIndex d.bits) { x with inserts := x.inserts + n }).opEnd tok
        (dropCpl n dropped (if dropped = 0 then 0 else SRH_VNUM_PRESENT))) := by
  have index : (s1.begun tok d).index (srIndex d.bits) = s1.index (srIndex d.bits) := rfl
  change execSrhInsert tok ext s = _
  rw [execSrhInsert, h.1.1, ← apply_ite Host.Outcome.next, ← apply_ite (fun a : State × Cpl => a.1.opEnd tok a.2)
    (_ < _) (s1.begun tok d, cpl ST_REFUSED_FIT SRH_SIDE_FULL) (_, _)]
  refine congrArg Host.Outcome.next (srhArray_ready _ h horder hlive hslice hread hready ?_)
  dsimp only
  have tick : (s1.begun tok d).tick.now = s1.tick.now := rfl
  rw [index, tick, hover]

theorem exec_srhDelete (h : s.granted tok 0x46 d [⟨srSrc d.bits, srNv d.bits * 8, 1, false⟩] s0 segs)
    (horder : s.srhOrdered d = true) (hlive : (s.index (srIndex d.bits)).phase ≠ .free)
    (hslice : (s.index (srIndex d.bits)).slice = dSlice d.bits)
    (hread : State.readSegs d (segs.headD []) ext s0 = (s1, bytes, false, e)) (hready : s1.ready tok 0x46 d)
    (hover : (s1.index (srIndex d.bits)).deleteOver (chunksOf 8 (srNv d.bits) bytes) = (x, n, dropped, r)) :
    exec (.srhDelete tok ext) s = .next (((s1.begun tok d).setIndex (srIndex d.bits) { x with deletes := x.deletes + n }).opEnd tok
      (dropCpl n dropped r)) := by
  have index : (s1.begun tok d).index (srIndex d.bits) = s1.index (srIndex d.bits) := rfl
  refine congrArg Host.Outcome.next (srhArray_ready _ h horder hlive hslice hread hready ?_)
  dsimp only
  rw [index, hover]

end

theorem insertOver_adds {x : SrhIndex} {v : List Byte} (since : Nat) (hrange : entryVnum v < x.desc.vnumMax)
    (hnew : x.present.contains (entryVnum v) = false) :
    x.insertOver since [v] = ({ x with
      present := x.present ++ [entryVnum v], nextSlot := x.nextSlot + 1
      side := x.side ++ [{ slot := x.nextSlot, bytes := v, vnum := entryVnum v, since := since }] }, 1, 0) := by
  rw [SrhIndex.insertOver, List.foldl_cons, List.foldl_nil]
  exact if_neg (not_or.2 ⟨Nat.not_le_of_gt hrange, ne_true_of_eq_false hnew⟩)

theorem deleteOver_marks {x : SrhIndex} {v : List Byte} (hpresent : x.present.contains (entryVnum v) = true)
    (htomb : x.tombs.has (entryVnum v) = false) (hdue : x.tombsDue.contains (entryVnum v) = false) (hrate : x.deleted ≤ 262144) :
    x.deleteOver [v] = ({ x with tombsDue := x.tombsDue ++ [entryVnum v], deleted := x.deleted + 1 }, 1, 0, 0) := by
  rw [SrhIndex.deleteOver, List.foldl_cons, List.foldl_nil]
  dsimp only
  rw [if_neg (not_or.2 ⟨ne_false_of_eq_true hpresent, not_or.2 ⟨ne_true_of_eq_false htomb, ne_true_of_eq_false hdue⟩⟩),
    if_neg (Nat.not_lt_of_ge hrate)]

/-- Settles O32: each row by its checks in order, a page program by its end, a vector by the checks of its number. -/
theorem searchIndexes : Obligations.SearchIndexes := by
  unfold Obligations.SearchIndexes
  exact ⟨fun s s0 s1 u tok d ext l e segs x c h hread hparse haligned => exec_idxLoad_refused h hread hparse haligned,
    fun s s0 s1 s2 u tok d ext l e segs got x => exec_idxLoad_loads,
    fun s s0 s1 t tok d ext bytes e segs w => exec_leafWrite, fun s tok n leaf f l => leafOne_programs,
    fun s fpa p hp => ⟨fun f => exec_programDone_retries hp, fun tok t => exec_programDone_written hp⟩,
    fun s tok d => exec_idxActivate, fun s tok d => exec_idxUnload_drained,
    fun s s0 s1 tok n dropped d ext bytes e segs x => exec_srhInsert,
    fun s s0 s1 tok n dropped r d ext bytes e segs x => exec_srhDelete, fun s tok d => exec_srhMerge,
    fun x since v => insertOver_adds since, fun x v => deleteOver_marks⟩

end Sys2Proof.Machine
end

section

namespace Sys2Proof.Machine

/-! ## KV pools (R454 to R459) -/

section
variable {s s0 s1 s2 s3 u : State} {tok : Nat} {d : Desc} {ext l e : List Byte} {segs : List (List Seg)} {p : KvPool} {a b : Nat}
  (h : s.granted tok 0x50 d [⟨dfield d.bits 16 8, 128, 1, false⟩] s0 segs)
  (hread : State.readSegs d (segs.headD []) ext s0 = (s1, l, false, e)) (hparse : parsePool l = (p, a, b, true))
include h hread hparse

theorem exec_kvPoolCreate_refused {c : Cpl} (hfails : s1.createFails d.bits p true = some c)
    (hu : (s1.setEvt F.KVS_EVT_CREATE_REFUSED).kvError (at_ 40 (kvPoolField d.bits)) c.reason LOC_MD = u)
    (hready : u.ready tok 0x50 d) : exec (.kvPoolCreate tok ext) s = .next ((u.begun tok d).opEnd tok c) := by
  obtain ⟨hs, hacq, -⟩ := h
  change execKvPoolCreate tok ext s = _
  rw [execKvPoolCreate, hs.1]
  dsimp only
  rw [if_neg (ready_opens hs), hacq]
  dsimp only
  rw [hread]
  dsimp only
  rw [hparse]
  dsimp only
  rw [Bool.not_false, Bool.and_true, hfails]
  dsimp only
  rw [State.kvRefuse, hu, State.kvEnd, runDesc_ends _ hready]

theorem exec_kvPoolCreate_live {pg ct : List Seg} (hpass : s1.createFails d.bits p true = none)
    (hpages : s1.xlateRange tok d a (p.pages * p.pageSize) 3 = (s2, .ok pg)) (hctrl : s2.xlateRange tok d b p.ctrlSize 3 = (s3, .ok ct))
    (hpg : s3.areaOk (dSlice d.bits) pg = true) (hct : s3.areaOk (dSlice d.bits) ct = true)
    (hapart : piecesMeet (pg.map (fun x => (x.addr, x.len))) (ct.map (fun x => (x.addr, x.len))) = false)
    (hu : ((s3.setPool (kvPoolField d.bits) { p with
      slice := dSlice d.bits, key := dKeySlot d.bits, keyEpoch := dKeyEpoch d.bits, assisted := s3.assisted 3
      area := pg.map (fun x => (x.addr, x.len)), ctrl := ct.map (fun x => (x.addr, x.len)) }).setAlloc (kvPoolField d.bits) {}).setEvt
        F.KVS_EVT_POOL_CREATED = u) (hready : u.ready tok 0x50 d) :
    exec (.kvPoolCreate tok ext) s = .next ((u.begun tok d).opEnd tok {}) := by
  obtain ⟨hs, hacq, -⟩ := h
  change execKvPoolCreate tok ext s = _
  rw [execKvPoolCreate, hs.1]
  dsimp only
  rw [if_neg (ready_opens hs), hacq]
  dsimp only
  rw [hread]
  dsimp only
  rw [hparse]
  dsimp only
  rw [Bool.not_false, Bool.and_true, hpass]
  dsimp only
  rw [hpages]
  dsimp only
  rw [hctrl]
  dsimp only
  rw [hpg, hct, hapart, if_neg (by decide), hu, State.kvEnd, runDesc_ends _ hready]

end

/-! ## Sequences (R460, R462, R468, R470) -/

section
variable {s u : State} {tok : Nat} {d : Desc} {q : KvSeq}

/-- A KV request whose pools read good and whose row does `u` ends with the completion of `u`. -/
theorem kvRow_ends {op : Nat} {c : Cpl} (k : Desc → State → State) (h : s.kvReady tok op d) (hk : k d s = u.kvEnd tok op c)
    (hready : u.ready tok op d) : s.kvRow tok op k = (u.begun tok d).opEnd tok c := by
  rw [kvRow_ready k h, hk, State.kvEnd, runDesc_ends _ hready]

theorem exec_kvSeqCreate {n q : Nat} (h : s.kvReady tok 0x52 d) (hn : n = dfield d.bits 16 1)
    (hpool : s.poolRefuses n (dSlice d.bits) (dKeySlot d.bits) = none) (hroom : s.poolSeqs n < (s.pool n).seqMax)
    (hfree : firstFree (fun q => !s.kv.seqs.has q) (2 ^ 24) = some q)
    (hu : s.setSeq q { pool := n, gen := s.kv.gens.get 0 q, layers := List.replicate (s.pool n).layers {} } = u)
    (hready : u.ready tok 0x52 d) : exec (.kvSeqCreate tok) s =
      .next ((u.begun tok d).opEnd tok { result := kvReference n (s.kv.gens.get 0 q) q }) := by
  subst hn
  refine congrArg Host.Outcome.next (kvRow_ends _ h ?_ hready)
  dsimp only
  rw [hpool]
  dsimp only
  rw [if_neg (Nat.not_le_of_gt hroom), hfree]
  dsimp only
  rw [hu]

theorem exec_kvFork {n c : Nat} {layers : List KvLayer} (h : s.kvReady tok 0x56 d) (hn : n = rfPool (kvRef d.bits))
    (href : s.refRefuses (kvRef d.bits) (dSlice d.bits) (dKeySlot d.bits) false = none)
    (hq : s.kvSeq (rfSeq (kvRef d.bits)) = some q) (hresync : q.resync = false) (hremote : q.remote = false)
    (hroom : s.poolSeqs n < (s.pool n).seqMax) (hlayers : layers = q.layers.map (forkLayer (s.pool n).perPage (kvCount d.bits)))
    (hcounts : (layers.flatMap (fun l => l.pages)).any (fun pg => decide (65535 ≤ (s.kvAlloc n).counts.get 0 pg)) = false)
    (hfree : firstFree (fun q => !s.kv.seqs.has q) (2 ^ 24) = some c)
    (hu : (s.setAlloc n ((layers.flatMap (fun l => l.pages)).foldl KvAlloc.raise (s.kvAlloc n))).setSeq c
      { pool := n, gen := s.kv.gens.get 0 c, layers := layers } = u) (hready : u.ready tok 0x56 d) :
    exec (.kvFork tok) s = .next ((u.begun tok d).opEnd tok { result := kvReference n (s.kv.gens.get 0 c) c }) := by
  subst hn hlayers
  refine congrArg Host.Outcome.next (kvRow_ends _ h ?_ hready)
  dsimp only
  rw [href, hq]
  dsimp only
  rw [if_neg (ne_true_of_eq_false hresync), if_neg (ne_true_of_eq_false hremote), if_neg (Nat.not_le_of_gt hroom),
    if_neg (ne_true_of_eq_false hcounts), hfree]
  dsimp only
  rw [hu]

theorem exec_kvFree (h : s.kvReady tok 0x57 d)
    (href : s.refRefuses (kvRef d.bits) (dSlice d.bits) (dKeySlot d.bits) false = none)
    (hq : s.kvSeq (rfSeq (kvRef d.bits)) = some q)
    (hu : (s.setAlloc q.pool (q.pagesOf.foldl KvAlloc.lower (s.kvAlloc q.pool))).setSeq (rfSeq (kvRef d.bits))
      { q with freeing := true } = u)
    (hready : State.ready { u with kv := { u.kv with freeing := u.kv.freeing ++ [rfSeq (kvRef d.bits)] } } tok 0x57 d) :
    exec (.kvFree tok) s = .next ((State.begun { u with
      kv := { u.kv with freeing := u.kv.freeing ++ [rfSeq (kvRef d.bits)] } } tok d).opEnd tok {}) := by
  refine congrArg Host.Outcome.next (kvRow_ends _ h ?_ hready)
  dsimp only
  rw [href, hq]
  dsimp only
  rw [hu]
  rfl

theorem exec_kvResync (h : s.kvReady tok 0x59 d)
    (href : s.refRefuses (kvRef d.bits) (dSlice d.bits) (dKeySlot d.bits) true = none)
    (hq : s.kvSeq (rfSeq (kvRef d.bits)) = some q) (hdone : q.resync = false ∨ (s.kvAlloc q.pool).rollback = [])
    (hready : (s.setSeq (rfSeq (kvRef d.bits)) { q with resync := false }).ready tok 0x59 d) :
    exec (.kvResync tok) s = .next (((s.setSeq (rfSeq (kvRef d.bits)) { q with resync := false }).begun tok d).opEnd tok
      { result := (s.kvLayer (kvRef d.bits)).len }) := by
  have done : (q.resync && !(s.kvAlloc q.pool).rollback.isEmpty) = false := by
    rcases hdone with hnone | hempty
    · rw [hnone, Bool.false_and]
    · rw [hempty, List.isEmpty_nil, Bool.not_true, Bool.and_false]
  refine congrArg Host.Outcome.next (kvRow_ends _ h ?_ hready)
  dsimp only
  rw [href, hq]
  dsimp only
  rw [if_neg (ne_true_of_eq_false done)]

/-! ## Grants (R471) -/

theorem exec_kvGrant {s1 t : State} {ext l e : List Byte} {segs : List (List Seg)} {poison ok : Bool} (hkv : s.kvReady tok 0x5A d)
    (h : s.granted tok 0x5A d [⟨dfield d.bits 24 8, 4 * dfield d.bits 18 2, 1, false⟩] s1 segs)
    (hpool : s.poolRefuses (dfield d.bits 16 1) (dSlice d.bits) (dKeySlot d.bits) = none)
    (hassist : (s.pool (dfield d.bits 16 1)).assisted = true)
    (hread : State.readSegs d (segs.headD []) ext (s1.begun tok d) = (t, l, poison, e))
    (hover : t.grantOver (dfield d.bits 16 1) (dfield d.bits 18 2) l = (u, ok)) :
    exec (.kvGrant tok ext) s = .next (u.opEnd tok (if ok then {} else cpl ST_PARTIAL KV_GRANT_BAD)) := by
  refine congrArg Host.Outcome.next ((kvRow_ready _ hkv).trans ?_)
  dsimp only
  rw [hpool, hassist]
  refine (runMem_granted _ _ _ h rfl).trans ?_
  dsimp only
  rw [hread]
  dsimp only
  rw [hover]

theorem grantPage_queued {n pg : Nat} (hrange : pg < (s.pool n).pages) (hunused : s.pageUsed n pg = false)
    (hnew : (s.kvAlloc n).grants.contains pg = false) (hroom : (s.kvAlloc n).grants.length < 4096) :
    s.grantPage n pg = (s.setAlloc n { s.kvAlloc n with grants := (s.kvAlloc n).grants ++ [pg] }, true) :=
  if_pos ⟨hrange, hunused, hnew, hroom⟩

end

/-- Settles O34: each request by its refusals in order. -/
theorem kvPools : Obligations.KvPools := by
  unfold Obligations.KvPools
  exact ⟨fun s s0 s1 u tok d ext l e segs p a b c h hread hparse => exec_kvPoolCreate_refused h hread hparse,
    fun s s0 s1 s2 s3 u tok d ext l e segs p a b pg ct h hread hparse => exec_kvPoolCreate_live h hread hparse,
    fun s tok d => exec_kvPoolDestroy_drained, fun s u tok n q d => exec_kvSeqCreate,
    fun s u tok n c d q layers => exec_kvFork, fun s u tok d q => exec_kvFree, fun s tok d q => exec_kvResync,
    fun s s1 t u tok d ext l e segs poison ok => exec_kvGrant, fun s n pg => grantPage_queued⟩

end Sys2Proof.Machine
end

section

namespace Sys2Proof.Machine

/-! ## Queues: creation (R480) -/

section
variable {s s1 s2 u : State} {tok : Nat} {d : Desc} (h : s.ready tok 0x60 d)
include h

theorem exec_qCreate_live {sp mi : List Seg} (hformat : qcFormatOk d.bits = true) (hfree : (s.queue (qNum d.bits)).phase = .free)
    (hspill : s.xlateRange tok d (qAddr d.bits) (dfield d.bits 32 8) 3 = (s1, .ok sp))
    (hmirror : (if dfield d.bits 40 8 = 0 then (s1, .ok []) else s1.xlateRange tok d (dfield d.bits 40 8) 8 3) = (s2, .ok mi))
    (hsp : s2.areaOk (dSlice d.bits) sp = true) (hmi : s2.areaOk (dSlice d.bits) mi = true)
    (hapart : piecesMeet (sp.map (fun x => (x.addr, x.len))) (mi.map (fun x => (x.addr, x.len))) = false)
    (hu : (s2.setQueue (qNum d.bits) {
      phase := .live, slice := dSlice d.bits, key := dKeySlot d.bits, keyEpoch := dKeyEpoch d.bits, retain := d.bits.getLsbD 144
      maxItem := dfield d.bits 20 4, cap := dfield d.bits 32 8, spill := sp.map (fun x => (x.addr, x.len))
      mirror := mi.map (fun x => (x.addr, x.len)) }).setEvt F.QUE_EVT_CREATED = u) (hready : u.ready tok 0x60 d) :
    exec (.qCreate tok) s = .next ((u.begun tok d).opEnd tok {}) := by
  have areas : (!s2.areaOk (dSlice d.bits) sp || !s2.areaOk (dSlice d.bits) mi ||
      piecesMeet (sp.map (fun x => (x.addr, x.len))) (mi.map (fun x => (x.addr, x.len)))) = false := by
    rw [hsp, hmi, hapart]
    rfl
  change execQCreate tok s = _
  rw [execQCreate, h.1]
  dsimp only
  rw [if_neg (ready_opens h), hformat, if_neg (by decide), if_neg (not_not_intro hfree), hspill]
  dsimp only
  rw [hmirror]
  dsimp only
  rw [if_neg (ne_true_of_eq_false areas), hu, runDesc_ends _ hready]

theorem exec_qCreate_refused {r : Nat} (hr : qcFormatOk d.bits = false ∧ r = Q_FORMAT ∨
      qcFormatOk d.bits = true ∧ (s.queue (qNum d.bits)).phase ≠ .free ∧ r = Q_SLOT)
    (hu : (s.setEvt F.QUE_EVT_CREATE_REFUSED).setQue (fun e => { e with
      lastError := (qNum d.bits, r, LOC_MD, s.tick.now % 2 ^ 32) }) = u) (hready : u.ready tok 0x60 d) :
    exec (.qCreate tok) s = .next ((u.begun tok d).opEnd tok (cpl ST_REFUSED_FIT r)) := by
  change execQCreate tok s = _
  rw [execQCreate, h.1]
  dsimp only
  rw [if_neg (ready_opens h)]
  rcases hr with ⟨hformat, rfl⟩ | ⟨hformat, htaken, rfl⟩
  · rw [hformat, if_pos (by decide), hu, runDesc_ends _ hready]
  · rw [hformat, if_neg (by decide), if_pos htaken, hu, runDesc_ends _ hready]

end

/-! ## Push and its commit (R481, R482) -/

section
variable {s s1 s2 t u : State} {tok : Nat} {ext data : List Byte} {d : Desc} {q : Queue} {segs : List (List Seg)} {poison : Bool}

theorem exec_qPush_full (ext : List Byte) (h : s.queReady tok 0x62 d q) (hfull : q.cap - q.used < itemSize (qLen d.bits))
    (hu : (s.setQueue (qNum d.bits) { q with full := q.full + 1 }).setEvt F.QUE_EVT_FULL = u) (hready : u.ready tok 0x62 d) :
    exec (.qPush tok ext) s = .next ((u.begun tok d).opEnd tok (cpl ST_ABORTED Q_FULL)) := by
  refine congrArg Host.Outcome.next ((queRow_ready _ h).trans ?_)
  dsimp only
  rw [if_pos hfull, hu, State.queEnd, runDesc_ends _ hready]

theorem exec_qPush (h : s.queReady tok 0x62 d q) (hroom : itemSize (qLen d.bits) ≤ q.cap - q.used)
    (hacq : s.acquire tok d (if qInline d.bits then [] else [⟨qAddr d.bits, qLen d.bits, 1, false⟩]) = .ready s1 segs)
    (hengine : s1.engineReady tok ((q.pieces q.tail (itemSize (qLen d.bits))).map (fun p => (p.1, p.2, true))) = (s2, true))
    (hready : s2.ready tok 0x62 d) (hsource : (s2.begun tok d).pushSource d (segs.headD []) ext = (t, data, poison)) :
    exec (.qPush tok ext) s = .next (t.pushOver tok d q
      (s2.badOffsets 0 (((segs.headD []).filter (fun x => !x.host)).map (fun x => (x.addr, x.len)))) data poison) := by
  refine congrArg Host.Outcome.next ((queRow_ready _ h).trans ?_)
  dsimp only
  rw [if_neg (Nat.not_lt_of_ge hroom), hacq]
  dsimp only
  rw [hengine]
  dsimp only
  rw [runDesc_begins hready, hsource]

theorem exec_queueItemCommit {i : QItem} (hd : s.desc tok = some d) (hop : dOpcode d.bits = 0x62) (hwait : d.awaiting ≤ 1)
    (hi : (s.queue (qNum d.bits)).items.find? (fun i => i.push == some tok) = some i)
    (hfirst : (s.queue (qNum d.bits)).items.any (fun x => x.push.isSome && decide (x.iseq < i.iseq)) = false) :
    exec (.queueItemCommit tok) s = .next (if d.cpl.status ≠ ST_OK then s.pushStop tok d.cpl else
      ((s.putQueue (qNum d.bits) { s.queue (qNum d.bits) with
        items := (s.queue (qNum d.bits)).items.map (fun x => if x.iseq = i.iseq then { x with push := none } else x)
        pushed := (s.queue (qNum d.bits)).pushed + 1 }).setQue (fun e => { e with
          poisonedPushes := e.poisonedPushes.filter (fun t => t != tok) })).opEnd tok
        (if (s.putQueue (qNum d.bits) { s.queue (qNum d.bits) with
          items := (s.queue (qNum d.bits)).items.map (fun x => if x.iseq = i.iseq then { x with push := none } else x)
          pushed := (s.queue (qNum d.bits)).pushed + 1 }).que.poisonedPushes.contains tok then cpl ST_POISONED 0 else {})) := by
  change execQueueItemCommit tok s = _
  rw [execQueueItemCommit, hd]
  dsimp only
  rw [hi]
  dsimp only
  rw [if_neg (not_or.2 ⟨not_not_intro hop, not_or.2 ⟨Nat.not_lt_of_ge hwait, ne_true_of_eq_false hfirst⟩⟩)]

end

/-! ## Pop (R484, R487) -/

section
variable {s s1 t u : State} {tok : Nat} {d : Desc} {q : Queue} (h : s.queReady tok 0x63 d q)
include h

theorem exec_qPop_small {i : QItem} {l : List QItem} (hitems : q.ready = i :: l)
    (htake : takeItems (qMaxItems d.bits) (qMaxBytes d.bits) (i :: l) = []) : exec (.qPop tok) s =
      .next ((s.begun tok d).opEnd tok { status := ST_REFUSED_FIT, reason := Q_POP_SMALL, result := i.size }) := by
  refine congrArg Host.Outcome.next ((queRow_ready _ h).trans ?_)
  rw [hitems, htake]
  exact runDesc_ends _ h.1

variable {got : List QItem} (htake : takeItems (qMaxItems d.bits) (qMaxBytes d.bits) q.ready = got)
  (hgot : got = [] → q.ready = [])
include htake hgot

/-- A pop that its limits allow an item, or that finds none, delivers what it takes. -/
theorem exec_qPop_takes (hengine : s.engineReady tok ((q.itemRanges got).map (fun p => (p.1, p.2, false))) = (s1, true)) :
    exec (.qPop tok) s = .next (s1.runDesc tok 0x63 (fun d s => s.popOver tok d q got)) := by
  refine congrArg Host.Outcome.next ((queRow_ready _ h).trans ?_)
  rw [htake]
  cases hitems : q.ready with
  | nil =>
    dsimp only
    rw [hengine]
  | cons i l =>
    cases got with
    | nil => exact absurd (hgot rfl) (hitems ▸ List.cons_ne_nil i l)
    | cons j m =>
      dsimp only
      rw [hengine]

theorem exec_qPop {bytes : List Byte}
    (hengine : s.engineReady tok ((q.itemRanges got).map (fun p => (p.1, p.2, false))) = (s1, true)) (hready : s1.ready tok 0x63 d)
    (hread : State.readKeyed q.key q.keyEpoch (q.itemRanges got) (s1.begun tok d) = (t, bytes, false))
    (hu : ((t.putQueue (qNum d.bits) (q.take got)).fabPutLines tok d (qAddr d.bits) bytes (fun _ => false)).setQue (fun e => { e with
      pops := { tok := tok, queue := qNum d.bits, items := itemPlaces got } :: e.pops.filter (fun p =>
        (((t.putQueue (qNum d.bits) (q.take got)).fabPutLines tok d (qAddr d.bits) bytes (fun _ => false)).desc p.tok).isSome &&
          p.tok != tok) }) = u) :
    exec (.qPop tok) s = .next (u.opEnd tok { done := got.length, result := bytes.length + at_ 32 (q.take got).count }) := by
  have clean (bad : List (Nat × Nat)) : lineBad false bad = fun _ => false := rfl
  rw [exec_qPop_takes h htake hgot hengine, runDesc_ready _ hready, State.popOver]
  dsimp only
  rw [hread]
  dsimp only
  rw [clean, hu]
  rfl

end

/-! ## Flush (R486) -/

theorem exec_qFlush {s u : State} {tok : Nat} {d : Desc} (h : s.ready tok 0x64 d) (hlost : s.queueLost d.bits = false)
    (hserves : s.queueServes d.bits = true)
    (hu : (s.emptyQueue (qNum d.bits) (cpl ST_ABORTED Q_FLUSHED)).setEvt F.QUE_EVT_FLUSHED = u) (hready : u.ready tok 0x64 d) :
    exec (.qFlush tok) s = .next ((u.begun tok d).opEnd tok {}) := by
  change execQFlush tok s = _
  rw [execQFlush, h.1]
  dsimp only
  rw [if_neg (ready_opens h), hlost, if_neg (by decide), hserves, if_neg (by decide), hu, State.queEnd, runDesc_ends _ hready]

/-! ## Retaining requests (R487, R488) -/

section
variable {s u : State} {tok op : Nat} {d : Desc} {q q' : Queue} {k : Desc → Queue → Option Queue} (h : s.queReady tok op d q)
include h

theorem retainRow_mode (hretain : q.retain = false) :
    s.retainRow tok op k = (s.begun tok d).opEnd tok (cpl ST_PERMISSION Q_MODE) := by
  refine (queRow_ready _ h).trans ?_
  rw [hretain]
  exact runDesc_ends _ h.1

variable (hretain : q.retain = true)
include hretain

theorem retainRow_gone (hk : k d q = none) :
    s.retainRow tok op k = (s.begun tok d).opEnd tok (cpl ST_ABORTED Q_MARK_GONE) := by
  refine (queRow_ready _ h).trans ?_
  rw [hretain, hk]
  exact runDesc_ends _ h.1

theorem retainRow_changes (hk : k d q = some q') (hu : s.putQueue (qNum d.bits) q' = u) (hready : u.ready tok op d) :
    s.retainRow tok op k = (u.begun tok d).opEnd tok {} := by
  refine (queRow_ready _ h).trans ?_
  rw [hretain, hk]
  dsimp only
  rw [hu]
  exact runDesc_ends _ hready

end

/-- Settles O36: each request by its refusals in order, the retaining ones by their queue's mode and mark. -/
theorem queueRequests : Obligations.QueueRequests := by
  unfold Obligations.QueueRequests
  have next {a b : State} (hab : a = b) : (Host.Outcome.next a : Host.Outcome State Fault Refusal) = .next b := congrArg _ hab
  exact ⟨fun s s1 s2 u tok d sp mi h => exec_qCreate_live h, fun s u tok r d h => exec_qCreate_refused h,
    fun s u tok ext d q => exec_qPush_full ext, fun s s1 s2 t tok ext data d q segs poison => exec_qPush,
    fun s tok data bad d q => rfl, fun s tok d i => exec_queueItemCommit, fun s tok d q i l h => exec_qPop_small h,
    fun s s1 t u tok d q got bytes h htake hgot => exec_qPop h htake hgot, fun s u tok d => exec_qFlush,
    fun s tok d q hretain => ⟨fun h => next (retainRow_mode h hretain), fun h => next (retainRow_mode h hretain),
      fun h => next (retainRow_mode h hretain)⟩,
    fun s u tok d q h hretain hu hready => next (retainRow_changes h hretain rfl hu hready),
    fun s u tok d q p h hretain hmark hu hready =>
      next (retainRow_changes h hretain (congrArg (Option.map _) hmark) hu hready),
    fun s u tok d q p h hretain hmark hu hready =>
      next (retainRow_changes h hretain (congrArg (Option.map _) hmark) hu hready),
    fun s tok d q hretain hmark => ⟨fun h => next (retainRow_gone h hretain (congrArg (Option.map _) hmark)),
      fun h => next (retainRow_gone h hretain (congrArg (Option.map _) hmark))⟩,
    fun s tok d => exec_qDestroy_drained⟩

end Sys2Proof.Machine
end

section

namespace Sys2Proof.Machine

/-! ## Enabling and disabling ring pairs (R496, R586) -/

section
variable {s g : State} {v : Word} {path cycle n : Nat}

theorem effRingCtrl_enable (hn : n = s.fld F.HIF_RING_SEL_RING) (hv : bitOf v 0 = true) : effRingCtrl v s =
    if (s.ring n).state ≠ .disabled then (s, none)
    else if s.ringConfigOk n && s.ringConfOk then
      (s.setRing n { s.ring n with
        state := .active, sqHead := 0, sqTail := 0, cqHead := 0, cqTail := 0, cqUsed := 0, phase := true, sinceMsg := 0
        modArmed := false }, none)
    else ((s.setWord Reg.HIF_RING_ERR (BitVec.ofNat 32 (RING_CONFIG + at_ 16 n))).setEvt F.HIF_RING_EVT_CONFIG_REFUSED,
      some REG_STATE) := by
  subst hn
  exact if_pos hv

theorem effRingCtrl_disable (hn : n = s.fld F.HIF_RING_SEL_RING) (hv : bitOf v 0 = false) : effRingCtrl v s =
    (if (s.ring n).state = .active ∨ (s.ring n).state = .error then
      (s.setRing n { s.ring n with state := .stopping }).ringStopCheck n else s, none) := by
  subst hn
  rw [apply_ite (·, (none : Option Nat))]
  exact if_neg (ne_true_of_eq_false hv)

variable (h : s.pairReady path Reg.HIF_RING_CTRL v cycle) (hg : g = s.setGuard path none) (hn : n = s.fld F.HIF_RING_SEL_RING)
include h hg hn

theorem exec_ringEnable_active (hv : bitOf v 0 = true) (hoff : (s.ring n).state = .disabled) (hconfig : s.ringConfigOk n = true)
    (hconf : s.ringConfOk = true) : exec (.ringEnable path (~~~v) cycle) s = .next (g.setRing n { s.ring n with
      state := .active, sqHead := 0, sqTail := 0, cqHead := 0, cqTail := 0, cqUsed := 0, phase := true, sinceMsg := 0
      modArmed := false }) := by
  subst hg
  have checks : (s.ringConfigOk n && s.ringConfOk) = true := by rw [hconfig, hconf]; rfl
  exact congrArg Host.Outcome.next (guardPair_ok h hv ((effRingCtrl_enable (s := s.setGuard path none) hn hv).trans
    ((if_neg (not_not_intro hoff)).trans (if_pos checks))))

theorem exec_ringEnable_refused (hv : bitOf v 0 = true) (hoff : (s.ring n).state = .disabled)
    (hfails : (s.ringConfigOk n && s.ringConfOk) = false) : exec (.ringEnable path (~~~v) cycle) s =
      .next (((g.setWord Reg.HIF_RING_ERR (BitVec.ofNat 32 (RING_CONFIG + at_ 16 n))).setEvt
        F.HIF_RING_EVT_CONFIG_REFUSED).logReject B_HIF Reg.HIF_RING_CTRL v REG_STATE path) := by
  subst hg
  exact congrArg Host.Outcome.next (guardPair_rejected h hv ((effRingCtrl_enable (s := s.setGuard path none) hn hv).trans
    ((if_neg (not_not_intro hoff)).trans (if_neg (ne_true_of_eq_false hfails)))))

theorem exec_ringEnable_again (hv : bitOf v 0 = true) (hon : (s.ring n).state ≠ .disabled) :
    exec (.ringEnable path (~~~v) cycle) s = .next g := by
  subst hg
  exact congrArg Host.Outcome.next
    (guardPair_ok h hv ((effRingCtrl_enable (s := s.setGuard path none) hn hv).trans (if_pos hon)))

theorem exec_ringDisable (hv : bitOf v 0 = false) : exec (.ringDisable path (~~~v) cycle) s = .next (
    if (s.ring n).state = .active ∨ (s.ring n).state = .error then
      (g.setRing n { s.ring n with state := .stopping }).ringStopCheck n else g) := by
  subst hg
  have disables : (!bitOf v 0) = true := by rw [hv]; rfl
  exact congrArg Host.Outcome.next (guardPair_ok h disables (effRingCtrl_disable (s := s.setGuard path none) hn hv))

end

/-! ## Enabling and disabling fabric queues (R500) -/

section
variable {s g : State} {v : Word} {path cycle n : Nat}

theorem effSubqCtrl_enable (hn : n = s.fld F.FAB_SUBQ_SEL_QUEUE) (hv : bitOf v 0 = true) : effSubqCtrl v s =
    if (s.subq n).state ≠ .disabled then (s, none)
    else if s.subqConfigOk n then
      (s.setSubq n { s.subq n with state := .active, queue := [], cqHead := 0, cqTail := 0, cqUsed := 0, phase := true }, none)
    else (s.setEvt F.FAB_SUBQ_EVT_CONFIG_REFUSED, some REG_STATE) := by
  subst hn
  exact if_pos hv

theorem effSubqCtrl_disable (hn : n = s.fld F.FAB_SUBQ_SEL_QUEUE) (hv : bitOf v 0 = false) : effSubqCtrl v s =
    (if (s.subq n).state = .active ∨ (s.subq n).state = .error then
      (s.setSubq n { s.subq n with state := .stopping }).subqStopCheck n else s, none) := by
  subst hn
  rw [apply_ite (·, (none : Option Nat))]
  exact if_neg (ne_true_of_eq_false hv)

variable (h : s.pairReady path Reg.FAB_SUBQ_CTRL v cycle) (hg : g = s.setGuard path none) (hn : n = s.fld F.FAB_SUBQ_SEL_QUEUE)
include h hg hn

theorem exec_subqEnable_active (hv : bitOf v 0 = true) (hoff : (s.subq n).state = .disabled) (hconfig : s.subqConfigOk n = true) :
    exec (.subqEnable path (~~~v) cycle) s = .next (g.setSubq n { s.subq n with
      state := .active, queue := [], cqHead := 0, cqTail := 0, cqUsed := 0, phase := true }) := by
  subst hg
  exact congrArg Host.Outcome.next (guardPair_ok h hv ((effSubqCtrl_enable (s := s.setGuard path none) hn hv).trans
    ((if_neg (not_not_intro hoff)).trans (if_pos hconfig))))

theorem exec_subqEnable_refused (hv : bitOf v 0 = true) (hoff : (s.subq n).state = .disabled)
    (hfails : s.subqConfigOk n = false) : exec (.subqEnable path (~~~v) cycle) s =
      .next ((g.setEvt F.FAB_SUBQ_EVT_CONFIG_REFUSED).logReject B_FAB Reg.FAB_SUBQ_CTRL v REG_STATE path) := by
  subst hg
  exact congrArg Host.Outcome.next (guardPair_rejected h hv ((effSubqCtrl_enable (s := s.setGuard path none) hn hv).trans
    ((if_neg (not_not_intro hoff)).trans (if_neg (ne_true_of_eq_false hfails)))))

theorem exec_subqEnable_again (hv : bitOf v 0 = true) (hon : (s.subq n).state ≠ .disabled) :
    exec (.subqEnable path (~~~v) cycle) s = .next g := by
  subst hg
  exact congrArg Host.Outcome.next
    (guardPair_ok h hv ((effSubqCtrl_enable (s := s.setGuard path none) hn hv).trans (if_pos hon)))

theorem exec_subqDisable (hv : bitOf v 0 = false) : exec (.subqDisable path (~~~v) cycle) s = .next (
    if (s.subq n).state = .active ∨ (s.subq n).state = .error then
      (g.setSubq n { s.subq n with state := .stopping }).subqStopCheck n else g) := by
  subst hg
  have disables : (!bitOf v 0) = true := by rw [hv]; rfl
  exact congrArg Host.Outcome.next (guardPair_ok h disables (effSubqCtrl_disable (s := s.setGuard path none) hn hv))

end

/-! ## Doorbells (R497, R498) -/

theorem exec_sqTailDoorbell (s : State) (port n value : Nat) : exec (.sqTailDoorbell port n value) s = .next (
    if rgPort (s.ring n).record = port ∧ (s.ring n).state = .active then
      if value % 65536 < 2 ^ rgSqLog (s.ring n).record then s.setRing n { s.ring n with sqTail := value % 65536 }
      else s.ringError n DOORBELL_RANGE
    else s.logReject B_HIF (n * 4096) (BitVec.ofNat 32 value) REG_STATE port) := by
  change execSqTailDoorbell port n value s = _
  unfold execSqTailDoorbell
  dsimp only
  by_cases hserves : rgPort (s.ring n).record = port ∧ (s.ring n).state = .active
  · rw [if_pos hserves, if_neg (not_or.2 ⟨not_not_intro hserves.1, not_not_intro hserves.2⟩)]
    by_cases hrange : value % 65536 < 2 ^ rgSqLog (s.ring n).record
    · rw [if_pos hrange, if_neg (Nat.not_le_of_gt hrange)]
    · rw [if_neg hrange, if_pos (Nat.not_lt.1 hrange)]
  · rw [if_neg hserves, if_pos (Classical.not_and_iff_not_or_not.1 hserves)]
    rfl

theorem exec_cqHeadDoorbell {s u : State} {port n value size freed : Nat} (hsize : size = 2 ^ rgCqLog (s.ring n).record)
    (hfreed : freed = (value % 65536 + size - (s.ring n).cqHead) % size)
    (hu : u = s.setRing n { s.ring n with cqHead := value % 65536, cqUsed := (s.ring n).cqUsed - freed }) :
    exec (.cqHeadDoorbell port n value) s = .next (
      if rgPort (s.ring n).record = port ∧ (s.ring n).state = .active then
        if value % 65536 < size ∧ freed ≤ (s.ring n).cqUsed then
          if rgAssist (s.ring n).record then u.drainAssist n else u
        else s.ringError n DOORBELL_CQ
      else s.logReject B_HIF (n * 4096 + 4) (BitVec.ofNat 32 value) REG_STATE port) := by
  change execCqHeadDoorbell port n value s = _
  unfold execCqHeadDoorbell
  dsimp only
  rw [← hsize, ← hfreed, ← hu]
  by_cases hserves : rgPort (s.ring n).record = port ∧ (s.ring n).state = .active
  · rw [if_pos hserves, if_neg (not_or.2 ⟨not_not_intro hserves.1, not_not_intro hserves.2⟩)]
    by_cases hrange : value % 65536 < size ∧ freed ≤ (s.ring n).cqUsed
    · rw [if_pos hrange, if_neg (not_or.2 ⟨Nat.not_le_of_gt hrange.1, Nat.not_lt_of_ge hrange.2⟩)]
    · rw [if_neg hrange, if_pos ((Classical.not_and_iff_not_or_not.1 hrange).imp Nat.not_lt.1 Nat.not_le.1)]
  · rw [if_neg hserves, if_pos (Classical.not_and_iff_not_or_not.1 hserves)]
    rfl

/-! ## Fetches, completions, moderation (R499, R509 to R511) -/

section
variable {s u : State} {n tok : Nat} {d : Desc} {ok : Bool}

section
variable (bits : DescBits) (hactive : (s.ring n).state = .active) (hhead : (s.ring n).sqHead ≠ (s.ring n).sqTail)
  (hroom : 0 < s.ringRoom n)
include hactive hhead hroom

theorem exec_fetchDone : exec (.descriptorFetchDone n true bits) s = .next ((s.setRing n { s.ring n with
    sqHead := ((s.ring n).sqHead + 1) % 2 ^ rgSqLog (s.ring n).record }).arrive (.ring n) bits) :=
  congrArg Host.Outcome.next (if_pos ⟨hactive, hhead, hroom⟩)

theorem exec_fetchDone_failed : exec (.descriptorFetchDone n false bits) s = .next (s.ringError n FETCH_ERROR) :=
  congrArg Host.Outcome.next (if_pos ⟨hactive, hhead, hroom⟩)

end

/-- R509: the completion of a finished descriptor that waits for no other goes to its source. -/
theorem writeCompletion_written (hd : s.desc tok = some d) (hfinished : d.finished = true) (hwait : s.mustWait tok d = false)
    (hhere : d.gone = false) (hu : u = { s.dropDesc tok with
      rings := { (s.dropDesc tok).rings with past := (d.src.code, dSeq d.bits, d.index) :: (s.dropDesc tok).rings.past } }) :
    s.writeCompletion tok ok = d.src.rec (fun n => u.completeRing n d ok) (fun n => u.completeSubq n d) := by
  subst hu
  unfold State.writeCompletion
  rw [hd]
  dsimp only
  rw [hfinished, hwait, if_neg (by decide), hhere, if_neg Bool.false_ne_true]
  cases d.src <;> rfl

/-- What follows the entry of a completion on the pair's port: the posted write is noted, its message sent or counted. -/
def State.afterEntry (n port : Nat) (irqNow : Bool) (u : State) : State :=
  (State.signal { u with rings := { u.rings with
    posted := u.rings.posted.updD 0 (Src.ring n).code (fun m => m ||| 2 ^ port) } } n irqNow).ringStopCheck n

theorem completeRing_written (hassist : rgAssist (s.ring n).record = false)
    (hu : (s.emit (.hostWrite (rgPort (s.ring n).record) (rgCqBase (s.ring n).record + (s.ring n).cqTail * 32)
      (complBytes d (s.ring n).phase))).setRing n { (s.ring n).advanceCq with completions := (s.ring n).completions + 1 } = u) :
    s.completeRing n d true = State.afterEntry n (rgPort (s.ring n).record) (dIrqNow d.bits) u := by
  have size : (s.ring n).entrySize = 32 := by
    rw [Ring.entrySize, hassist]
    rfl
  have body : complBytes d (s.ring n).phase ++ (if rgAssist (s.ring n).record then List.replicate 32 0 else []) =
      complBytes d (s.ring n).phase := by
    rw [hassist, if_neg Bool.false_ne_true, List.append_nil]
  rw [← size, ← body] at hu
  exact congrArg (State.afterEntry n (rgPort (s.ring n).record) (dIrqNow d.bits)) hu

theorem exec_moderationTimer (harmed : (s.ring n).modArmed = true) (hsince : 0 < (s.ring n).sinceMsg) :
    exec (.msixModerationTimer n) s = .next ((s.setRing n { s.ring n with sinceMsg := 0, modArmed := false }).sendMsix
      (rgPort (s.ring n).record) (rgMsix (s.ring n).record)) := by
  have due : ((s.ring n).modArmed && decide (0 < (s.ring n).sinceMsg)) = true := by
    rw [harmed, decide_eq_true hsince]
    rfl
  exact congrArg Host.Outcome.next (if_pos due)

end

/-- Settles O38: an enable by its state and checks, a doorbell by its pair and range, a completion by its source. -/
theorem ringsAndQueues : Obligations.RingsAndQueues := by
  unfold Obligations.RingsAndQueues
  refine ⟨fun s g path cycle n v h hg hn => ?rings, fun s g path cycle n v h hg hn => ?queues, exec_sqTailDoorbell,
    fun s u port n value size freed => exec_cqHeadDoorbell,
    fun s n bits hactive hhead hroom => ⟨exec_fetchDone bits hactive hhead hroom, exec_fetchDone_failed bits hactive hhead hroom⟩,
    fun s u tok ok d hd hfinished hwait hhere hu => ?complete, fun s u n d => completeRing_written,
    fun s n => exec_moderationTimer⟩
  case rings =>
    exact ⟨exec_ringEnable_active h hg hn, exec_ringEnable_refused h hg hn, exec_ringEnable_again h hg hn,
      exec_ringDisable h hg hn⟩
  case queues =>
    exact ⟨exec_subqEnable_active h hg hn, exec_subqEnable_refused h hg hn, exec_subqEnable_again h hg hn,
      exec_subqDisable h hg hn⟩
  case complete =>
    have written := writeCompletion_written (ok := ok) hd hfinished hwait hhere hu
    constructor
    · intro n hsrc
      rw [hsrc] at written
      exact congrArg Host.Outcome.next written
    · intro n hsrc
      rw [hsrc] at written
      exact congrArg Host.Outcome.next written

end Sys2Proof.Machine
end
